-- ==== Sys2Proof/Word.lean ====
section
/-! DEFINITION. The word types of the block and their plainest arithmetic: 32-bit registers (Table 2), bytes,
complex 16+16 values (R14), saturation, arithmetic shifts (R135, R146). -/

namespace Sys2Proof

/-- A register of MW0, or a D register of an engine. -/
abbrev Word := BitVec 32

/-- A byte of a layout. -/
abbrev Byte := BitVec 8

/-- A complex value whose components are counted in codes (R14). -/
structure Cplx where
  re : Int
  im : Int
deriving DecidableEq, Repr, Inhabited

/-- The complex zero. -/
def Cplx.zero : Cplx := ⟨0, 0⟩

/-- Clip to `w`-bit two's complement. -/
def satTo (w : Nat) (v : Int) : Int :=
  if v < -(2 ^ (w - 1) : Int) then -(2 ^ (w - 1) : Int)
  else if (2 ^ (w - 1) : Int) - 1 < v then (2 ^ (w - 1) : Int) - 1 else v

/-- Whether `satTo` changes the value. -/
def satHits (w : Nat) (v : Int) : Nat := if satTo w v = v then 0 else 1

/-- Wrap to `w`-bit two's complement. -/
def wrapTo (w : Nat) (v : Int) : Int := (BitVec.ofInt w v).toInt

/-- Arithmetic shift right: truncation towards minus infinity. -/
def asr (v : Int) (n : Nat) : Int := v / (2 ^ n : Int)

/-- The `w`-bit field at bit `lo`. -/
def fget (r : Word) (lo w : Nat) : Nat := r.toNat / 2 ^ lo % 2 ^ w

/-- The word with its `w`-bit field at bit `lo` replaced by `v`, taken modulo `2^w`. -/
def fset (r : Word) (lo w v : Nat) : Word :=
  BitVec.ofNat 32 (r.toNat / 2 ^ (lo + w) * 2 ^ (lo + w) + (v % 2 ^ w) * 2 ^ lo + r.toNat % 2 ^ lo)

/-- Bit `i` of a word. -/
def bitOf (r : Word) (i : Nat) : Bool := r.toNat / 2 ^ i % 2 = 1

/-- 32-bit two's complement of an integer argument (Table 119: signed arguments). -/
def s32 (v : Int) : Word := BitVec.ofInt 32 v

/-- A Boolean as a bit. -/
def b2n (b : Bool) : Nat := if b then 1 else 0

/-- Ceiling division. -/
def ceilDiv (a b : Nat) : Nat := (a + b - 1) / b

end Sys2Proof
end

