-- ==== Sys2Proof/Syntax.lean ====
section
/-! DEFINITION. The commands of the block: one constructor per row of the table of operations and events, with the
row's operands. A constructor's docstring names the rule that governs it. Quantities that only the world outside the
digital model decides (converter codes, temperatures, measured residuals, what the far end sent) are operands. -/

namespace Sys2Proof

/-- One of the two halves H0, H1 (R19). -/
abbrev Half := Fin 2

/-- A link lane L0 to L9 (Table 3). -/
abbrev LaneNo := Fin 10

/-- A path P0 to P63 (R19). -/
abbrev PathNo := Fin 64

/-- A group G0 to G7 (R19). -/
abbrev GroupNo := Fin 8

/-- An LO synthesiser, observation receiver or engine, 0 to 9 (Table 3). -/
abbrev UnitNo := Fin 10

/-- A flow F0 to F255. -/
abbrev FlowNo := Fin 256

/-- A carrier 0 to 3 of a direction. -/
abbrev CarrierNo := Fin 4

/-- An air-time stamp of Table 28 with the tick within its symbol. -/
structure Stamp where
  sfn : Nat
  subframe : Nat
  slot : Nat
  symbol : Nat
  tick : Nat
deriving DecidableEq, Repr

/-- The way a command descriptor came (Table 118's Routes: N, U, B, and T with the half, the OP and the TAG of Table 35). -/
inductive Route where
  | n | u | b
  | t (half : Half) (urgent : Bool) (tag : Nat)
deriving DecidableEq, Repr

/-- The fields of a command descriptor that every opcode has (Table 115), and the conditions of its execution: `given` is how many
bytes of data a transaction's packet carries (R443); `readErr` says that the host's memory read of its data fails (R419); `tie`
that a baseband command on the same item reaches execution in the same cycle (R428). -/
structure Cmd where
  route : Route
  tag : Nat
  flags : Nat
  dlen : Nat
  daddr : Nat
  given : Nat
  readErr : Bool
  tie : Bool
deriving DecidableEq, Repr

/-- The four hard faults of a lane receiver (R70), numbered as REASON numbers them in Table 14. -/
inductive LaneFault where
  | los | cdr | block | am
deriving DecidableEq, Repr

/-- A block as a lane carries it (R48): the two bits of its sync header in the order sent, and its eight payload bytes. -/
structure Blk where
  s0 : Bool
  s1 : Bool
  bytes : List Byte
deriving DecidableEq, Repr

/-- What a lane's receiver has taken since the last marker fell due, up to the block at which the next one is due (R55, R57):
the blocks as they stand on the line, scrambled (R49), and the arrival of the last in 1/64 tick (R451). -/
structure AmRx where
  line : List Blk
  count64 : Nat
deriving DecidableEq, Repr

/-- The fields of an AM block (Table 13). -/
structure AmBlk where
  laneNo : Nat
  pos : Nat
  amseq : Nat
  bip : Nat
  flags : Nat
  crcOk : Bool
deriving DecidableEq, Repr

/-- The fields of a TRN block (Table 15): one code of Table 16 per tap, and the status half. -/
structure TrnFrame where
  crcOk : Bool
  fcnt : Nat
  preReq : Nat
  mainReq : Nat
  postReq : Nat
  preset : Bool
  init : Bool
  preSts : Nat
  mainSts : Nat
  postSts : Nat
  rxReady : Bool
  idLane : Nat
  idRate : Nat
deriving DecidableEq, Repr

/-- The fields of a LINK block (Table 14). -/
structure LinkRx where
  op : Nat
  tag : Nat
  old : Nat
  new : Nat
  pos : Nat
  reason : Nat
deriving DecidableEq, Repr

/-- What the stripe layer delivers of a stretch of the stream (R88, R90): a whole packet's bytes, or a discard for framing. -/
inductive RxEvt where
  | packet (bytes : List Byte)
  | framing
deriving DecidableEq, Repr

/-- The header fields of a packet (Table 23). -/
structure RxPacket where
  ver : Nat
  type : Nat
  flags : Nat
  len : Nat
  seq : Nat
  ackseq : Nat
  flow : Nat
  nsec : Nat
deriving DecidableEq, Repr

/-- A control section's body (Table 30). -/
structure CtrlBody where
  nlayer : Nat
  mode : Nat
  sflow : Nat
  layers : List Nat
  refs : List Nat
  weights : List (List Cplx)
deriving DecidableEq, Repr

/-- A sounding-control body (Table 53): comb code, FINAL, and (COMB_OFF, NCS, U) of each port. -/
structure SoundBody where
  comb : Nat
  final : Bool
  ports : List (Nat × Nat × Nat)
deriving DecidableEq, Repr

/-- A section as it arrives (Table 28): its header's fields, BODYLEN in words, and the bytes behind the header. -/
structure Section where
  kind : Nat
  nsym : Nat
  secid : Nat
  at_ : Stamp
  startPrb : Nat
  numPrb : Nat
  words : Nat
  body : List Byte
deriving DecidableEq, Repr

/-- A downlink carrier record (Table 39). -/
structure DlCarrier where
  carrier : Nat
  en : Bool
  phcomp : Bool
  scs : Nat
  log2n : Nat
  nprb : Nat
  bfShift : Nat
  ifftShift : Nat
  ncoFreq : Int
  gain : Cplx
  power : Int
deriving DecidableEq, Repr

/-- A parity error that the array processor finds as it weights (R136): in a weight or in a resource element, by flow,
layer number and PRB. -/
inductive DlParity where
  | weight (flow layer prb : Nat)
  | data (flow layer prb : Nat)
deriving DecidableEq, Repr

/-- An uplink carrier record (Table 45). -/
structure UlCarrier where
  carrier : Nat
  en : Bool
  phcomp : Bool
  conj : Bool
  scs : Nat
  log2n : Nat
  nprb : Nat
  combShift : Nat
  fftShift : Nat
  ncoFreq : Int
  filtShift : Nat
  fftAdv : Nat
deriving DecidableEq, Repr

/-- A converter with nine slices (R156, R224): the I or Q ADC of a path, or of an observation receiver. -/
inductive Conv where
  | rx (p : PathNo) (q : Bool)
  | orx (n : UnitNo) (q : Bool)
deriving DecidableEq, Repr

/-- A parity error found while combining (R171): in a weight of a path, by layer and PRB, or in a path's bin. -/
inductive UlParity where
  | weight (path flow layer prb : Nat)
  | bin (path prb : Nat)
deriving DecidableEq, Repr

/-- What a rest's calibration finds of a converter slice (R156): its corrections of offset, gain and sampling-time skew
against the interleave. -/
structure SliceCorr where
  offset : Int
  gain : Int
  skew : Int
deriving DecidableEq, Repr

/-- Codes of a path's converters (R158): the count at which the first leaves them, and the codes in order, four to a tick. -/
structure AdcRun where
  first : Nat
  codes : List Cplx
deriving DecidableEq, Repr

/-- What a path's receive chain has for a symbol window (R164, R169): the codes converted since those given last, and the
place of a sample of the elastic buffer that carries a parity error. -/
structure UlRx where
  path : PathNo
  run : AdcRun
  parity : Option Nat
deriving DecidableEq, Repr

/-- A solver record (Table 52). -/
structure SolverRec where
  flow : Nat
  en : Bool
  uplink : Bool
  regular : Bool
  reg : Nat
  engines : Nat
  period : Nat
  maxAge : Nat
  offset : Nat
  norm : Nat
deriving DecidableEq, Repr

/-- A predistortion record (Table 57). -/
structure DpdRec where
  path : Nat
  en : Bool
  est : Bool
  kOwn : Nat
  mOwn : Nat
  mX : Nat
  papr : Nat
  neigh : List (Option Nat)
deriving DecidableEq, Repr

/-- A new correction value of a path (Table 63): the stages of Tables 41 and 46 it goes to, with fields as Table 123
gives them; an RX gain-table entry is named by attenuation plus 32 when the LNA is bypassed. -/
inductive CalVal where
  | txGain (z : Cplx)
  | txFrac (n : Nat)
  | txAdv (n : Nat)
  | txIq (l : List Cplx)
  | txLo (z : Cplx)
  | rxEntry (state : Nat) (z : Cplx)
  | rxFrac (n : Nat)
  | rxDly (n : Nat)
  | rxIq (l : List Cplx)
  | rxTrim (z : Cplx)
  | recip (z : Cplx)
  | corner (tx rx : Nat)
deriving DecidableEq, Repr

/-- A measurement of a path (R244): receive or transmit; through the on-die network rather than the combiner; the samples that the
calibration transceiver captured of the path's set, or the codes of the path's converter while the transceiver sent, the first of
them converted at a count; each tone's SNR in dB. -/
structure CalMeas where
  path : PathNo
  rx : Bool
  onDie : Bool
  samples : List Cplx
  first : Nat
  snr : List Nat
deriving DecidableEq, Repr

/-- A tie measurement (R243): tone SNR in dB; phase (0.001 degree) and gain (0.001 dB) of CT0 to CT1, of CT1 to CT0, and of the
two internal loops. -/
structure TieMeas where
  snr : Nat
  m01 : Int × Int
  m10 : Int × Int
  l0 : Int × Int
  l1 : Int × Int
deriving DecidableEq, Repr

/-- What a gap serves (R253): the measurements of its TX and RX sets, and a tie. -/
structure GapWork where
  meas : List CalMeas
  tie : Option TieMeas
deriving DecidableEq, Repr

/-- The domains of Table 72 that a clock monitor watches. -/
inductive ClkDom where
  | aon | ref | smp | cnv | obs | arr | eng | lnk (lane : Fin 5) | hst | ctl | d2d
deriving DecidableEq, Repr

/-- A schedule record (Table 74): EFFECT as its ATIME word; slots as their 28-bit fields. -/
structure SchedRec where
  muRef : Nat
  nslot : Nat
  effect : Stamp
  slots : List Nat
deriving DecidableEq, Repr

/-- A script entry (Table 78). -/
structure ScriptEnt where
  usid : Nat
  verify : Bool
  cmd : Nat
  anchor : Nat
  path : Bool
  addr : Nat
  data : Nat
  mask : Nat
  offset : Int
deriving DecidableEq, Repr

/-- A move slot of a normal bundle (Table 82). -/
inductive Move where
  | nop
  | ld (d : Fin 16) (p k : Fin 8)
  | st (d : Fin 16) (p k : Fin 8)
  | mov (d src : Fin 16)
deriving DecidableEq, Repr

/-- A normal bundle but for its opcode (Table 82); `diff` says that a spare which shadows the engine stores something else
(R342). -/
structure Bundle where
  s : Bool
  rd : Fin 16
  ra : Fin 16
  rb : Fin 16
  sh : Fin 32
  x : Move
  y : Move
  diff : Bool
deriving DecidableEq, Repr

/-- COND and RC of a control bundle (Table 82); `diff` says that a spare which shadows the engine has another service call
(R342). -/
structure Ctl where
  cond : Fin 16
  rc : Fin 16
  diff : Bool
deriving DecidableEq, Repr

/-- A task as Table 80 gives it to an engine: its class, its service (0 other vendor work, 1 predistortion estimation,
2 solver, 3 background calibration), the path, group or flow it is for, and its due tick. -/
structure TaskDesc where
  cls : Nat
  service : Nat
  subject : Nat
  due : Nat
deriving DecidableEq, Repr

/-- The residual record of CAL_PUT, whose layout the spec does not give: transmit or receive, and the values that the calibration
service computes beyond the residuals (Table 63). A user program's record also gives what R256 finds wrong with the measurement (0
nothing, 1 it fails R245, 2 its residual, 3 its gain), whether its whole group shows it, and the residuals: gain in 0.001 dB, phase
in 0.001 degree, delay in 0.01 ps; the vendor firmware's are those of the path's last measurement. -/
structure CalRes where
  rx : Bool
  bad : Nat
  whole : Bool
  gain : Int
  phase : Int
  delay : Int
  vals : List CalVal
deriving DecidableEq, Repr

/-- A capture context record (Table 90), its context numbered 4 * half + context. -/
structure CaptureRec where
  ctx : Fin 8
  repeat_ : Bool
  excl : Bool
  source : Nat
  path : PathNo
  sel : Fin 4
  trig : Nat
  avg : Nat
  dest : Nat
  bufLen : Nat
  pre : Nat
  post : Nat
  count : Nat
  flow : FlowNo
  trigAt : Stamp
  level : Nat
  period : Nat
  event : Nat
deriving DecidableEq, Repr

/-- A bias output record (Table 101). -/
structure BiasRec where
  output : Nat
  span : Nat
  drive : Bool
  pulse : Bool
  tx : Nat
  rx : Nat
  park : Int
  slew : Nat
deriving DecidableEq, Repr

/-- What a housekeeping round finds (R370). An input is in converter codes, 2^18 to full scale, before the code saturates
(R368). `inputs`: by channel, those of the 2^OVS conversions kept; `pairs`: by sensor of the half, its readings at its two bias
currents (R390); `kat`: by in-service converter, those of channels 26, 27 and of the test DAC (R374); `rest`: the trims that the
resting converter's calibration finds, none where it fails; `amps`: outputs in a current span with their measured current in nA. -/
structure RoundIn where
  inputs : List (List Int)
  pairs : List (Nat × Nat)
  kat : List (Nat × List Int)
  rest : Option (List Int)
  amps : List (Nat × Int)
deriving DecidableEq, Repr

/-- An injected conversion (R372): the first in-service converter to become free, and its input in codes before saturation; for
a MON_TEST the inputs with the test DAC at 0x400 and at 0xC00 (R376). -/
structure ConvRes where
  conv : Nat
  x : Int
  x2 : Int
deriving DecidableEq, Repr

/-- What a factory record says of a sensor (R389, R390): its number, its neighbours, its initial offset in 1/4,096 °C, the two
points of its trim (code, 1/64 °C), and the window of the ratio of its two readings, in 1/65,536. -/
structure SensFact where
  n : Nat
  neigh : List Nat
  offset : Int
  c0 : Int
  t0 : Int
  c1 : Int
  t1 : Int
  lo : Nat
  hi : Nat
deriving DecidableEq, Repr

/-- What a factory record says of a half's monitor (R367, R374): the rails' full scale in mV by rail point, and the codes that
channels 26 and 27 and the test DAC at its eight codes give. -/
structure MonFact where
  div : List Int
  ref : List Nat
deriving DecidableEq, Repr

/-- A command descriptor as the fetch reads it: its 64 bytes (Table 115). -/
structure FetchedDesc where
  bytes : List Byte
deriving DecidableEq, Repr

/-- An SPI frame (R433): the bytes after its opcode byte, and the wait bytes before the response is ready. -/
structure SpiFrame where
  bytes : List Byte
  wait : Nat
deriving DecidableEq, Repr



/-- A field whose three copies differ (R482): a function of Table 136 (row from 0 and index: carrier, 4 + uplink carrier;
schedule 0; hop entry; flow; path; solver's flow; capture context; output; path; bus * 128 + script entry), or the register
at an offset. -/
inductive CfgFault where
  | func (row : Fin 10) (idx : Nat)
  | reg (off : Nat)
deriving DecidableEq, Repr

/-- What a scrub reads of a field whose copies do not all agree (R482): the field and its three copies. -/
structure CfgCopies where
  field : CfgFault
  a : Nat
  b : Nat
  c : Nat
deriving DecidableEq, Repr



/-- A ball, or a pair of balls, with a boundary cell (R535): TXEN, RXEN or BYP of a path; SCLK or SDATA of an RFFE bus; one of
the other balls of Table 153 in its order (TSYNC first); the receive or transmit pair of a lane; that of a PCI Express lane. -/
inductive BCell where
  | line (kind : Fin 3) (path : PathNo)
  | rffe (bus : Fin 8) (data : Bool)
  | pin (k : Fin 15)
  | lane (l : Fin 10) (rx : Bool)
  | pcie (k : Fin 4) (rx : Bool)
deriving DecidableEq, Repr

/-- The TAP instructions that leave the core running (R535). -/
inductive TapQuiet where
  | bypass | idcode | samplePreload
deriving DecidableEq, Repr

/-- The TAP instructions that hold the core reset (R535). -/
inductive TapHold where
  | extest | extestPulse | extestTrain | clamp | highz
deriving DecidableEq, Repr


/-- The commands (spec/opcode_table.json). -/
inductive Instr where
  /-- R4; PARAM from 0x10 (Table 118), as for every command of the table. These come first, since a meaning keeps a command
  that waits as a value, which the compiled code builds only for the first constructors. -/
  | pathConfig (c : Cmd) (p : List Byte)
  /-- R444. -/
  | photoFinish (c : Cmd) (p : List Byte)
  /-- R442. -/
  | evtRoute (c : Cmd) (p : List Byte)
  /-- R429. -/
  | voteOwner (c : Cmd) (p : List Byte)
  /-- R457, R458. -/
  | powerVote (c : Cmd) (p : List Byte)
  /-- R103 to R106. -/
  | flowOpen (c : Cmd) (p : List Byte)
  /-- R105, R106, R440. -/
  | flowModify (c : Cmd) (p : List Byte)
  /-- R105, R106, R440. -/
  | flowClose (c : Cmd) (p : List Byte)
  /-- R102. -/
  | flowQuery (c : Cmd) (p : List Byte)
  /-- R73, R440. -/
  | laneRelay (c : Cmd) (p : List Byte)
  /-- R82, R83, R440. -/
  | laneTest (c : Cmd) (p : List Byte)
  /-- R131, R132. -/
  | dlCarrierSet (c : Cmd) (p : List Byte)
  /-- R154, R155. -/
  | ulCarrierSet (c : Cmd) (p : List Byte)
  /-- R167. -/
  | ulFilterSwap (c : Cmd) (p : List Byte)
  /-- R183 to R187; the entry's 256 bytes. -/
  | beamLoad (c : Cmd) (p d : List Byte) (lost : Option Half)
  /-- R187. -/
  | beamRead (c : Cmd) (p : List Byte)
  /-- R187. -/
  | beamOwner (c : Cmd) (p : List Byte)
  /-- R190, R191. -/
  | solverSet (c : Cmd) (p : List Byte)
  /-- R212, R213. -/
  | dpdPathSet (c : Cmd) (p : List Byte)
  /-- R214. -/
  | dpdRead (c : Cmd) (p : List Byte)
  /-- R232. -/
  | dpdResume (c : Cmd) (p : List Byte)
  /-- R250, R251, R440. -/
  | heatRun (c : Cmd) (p : List Byte)
  /-- R445. -/
  | calRead (c : Cmd) (p : List Byte)
  /-- R275. -/
  | hopLoad (c : Cmd) (p : List Byte)
  /-- R275. -/
  | hopRead (c : Cmd) (p : List Byte)
  /-- R276, R440. -/
  | loHop (c : Cmd) (p : List Byte)
  /-- R293, R295; the record of Table 74. -/
  | feSchedSet (c : Cmd) (p d : List Byte)
  /-- R306; the entries. -/
  | rffeScriptLoad (c : Cmd) (p d : List Byte)
  /-- R307; how many times in a row a read's data fails parity, and the bytes read. -/
  | rffeXfer (c : Cmd) (p : List Byte) (fails : Fin 4) (got : List Byte)
  /-- R380, R381, R385. -/
  | biasSet (c : Cmd) (p : List Byte)
  /-- R381. -/
  | biasRead (c : Cmd) (p : List Byte)
  /-- R382. -/
  | biasBootStore (c : Cmd) (p : List Byte)
  /-- R381. -/
  | biasOwner (c : Cmd) (p : List Byte)
  /-- R371, R372. -/
  | monInject (c : Cmd) (p : List Byte)
  /-- R376. -/
  | monTest (c : Cmd) (p : List Byte)
  /-- R334. -/
  | slotBind (c : Cmd) (p : List Byte)
  /-- R352. -/
  | captureSet (c : Cmd) (p : List Byte)
  /-- R354, R358. -/
  | captureArm (c : Cmd) (p : List Byte)
  /-- R357. -/
  | captureStop (c : Cmd) (p : List Byte)
  /-- R440; the pre-trigger samples held. -/
  | captureTrigger (c : Cmd) (p : List Byte)
  /-- R361, R440; whether a byte of the record fails parity. -/
  | captureRead (c : Cmd) (p : List Byte) (par : Bool)
  /-- R353. -/
  | captureOwner (c : Cmd) (p : List Byte)
  /-- R185; the entries' bytes. -/
  | beamBulk (c : Cmd) (p d : List Byte)
  /-- R166, R167; the coefficients' bytes. -/
  | filterLoad (c : Cmd) (p d : List Byte)
  /-- R331; the image. -/
  | imageLoad (c : Cmd) (p d : List Byte)
  /-- R521, R543; the record body. -/
  | nvLoad (c : Cmd) (p d : List Byte)
  /-- R50: block lock; `inverted` says the receive pair was found inverted. -/
  | blockLockAcquired (l : LaneNo) (inverted : Bool)
  /-- R70, R71. -/
  | laneHardFault (l : LaneNo) (k : LaneFault)
  /-- R52. -/
  | ccSequenceSend (h : Half)
  /-- R53: `fill` is the elastic-buffer fill of the ACTIVE lane with the lowest position. -/
  | ccSequenceReceived (h : Half) (fill : Nat)
  /-- R54. -/
  | ebSlip (l : LaneNo)
  /-- R55. -/
  | amSend (h : Half)
  /-- R57, R451: the blocks of a marker interval. -/
  | amReceived (l : LaneNo) (b : AmRx)
  /-- R71: REMOVE from the baseband: the payloads of its copies, descrambled (R58). -/
  | linkRemove (h : Half) (copies : List (List Byte))
  /-- R74: RETRAIN from the baseband. -/
  | linkRetrain (h : Half) (copies : List (List Byte))
  /-- R71, R72. -/
  | linkAck (h : Half) (copies : List (List Byte))
  /-- R73. -/
  | linkNack (h : Half) (copies : List (List Byte))
  /-- R59: 1 µs, or 100 µs, without an answer to the block with this tag. -/
  | linkAnswerTimeout (h : Half) (tag : Nat)
  /-- R62: the payload of the frame's TRN block (Table 15). -/
  | trnFrameReceived (l : LaneNo) (b : List Byte)
  /-- R64 step 4: the measured eye, in the units of SU_LANEn_TAPS. -/
  | rxReadyReached (l : LaneNo) (eyeW eyeH : Nat)
  /-- R64 step 5. -/
  | trainComplete (l : LaneNo)
  /-- R64 step 6. -/
  | trainTimeout (l : LaneNo)
  /-- R68. -/
  | alignAmLock (l : LaneNo)
  /-- R68. -/
  | alignTimeout (l : LaneNo)
  /-- R74. -/
  | spareCheckComplete (l : LaneNo)
  /-- R74. -/
  | faultRetryTimer (l : LaneNo)
  /-- R69. -/
  | linkStartTimeout (h : Half)
  /-- R73: the errors of the window. -/
  | laneMarginal (l : LaneNo) (bip code : Nat)
  /-- R73. -/
  | relayNackRetry (h : Half) (tag : Nat)
  /-- R76. -/
  | shortOfLanes (h : Half)
  /-- R80: the bits the checker receives, in order. -/
  | checkerLock (l : LaneNo) (bits : List Bool)
  /-- R81. -/
  | injOneWrite (l : LaneNo)
  /-- R81. -/
  | injContInject (l : LaneNo)
  /-- R83: the value written to SU_LANEn_CTL. -/
  | laneCtlWrite (l : LaneNo) (v : Word)
  /-- R85. -/
  | laneActivity (l : LaneNo)
  /-- R85. -/
  | wakeTone (l : LaneNo)
  /-- R67. -/
  | resumeTimeout (l : LaneNo)
  /-- R87 to R94: a stretch of the stripe stream that a packet ends: by block index, the block of each lane after deskew and
  descrambling. -/
  | packetReceived (h : Half) (rows : List (List (Nat × Blk)))
  /-- R95. -/
  | nakRepeat (h : Half)
  /-- R97. -/
  | llcpNak (h : Half) (ackseq : Nat)
  /-- R96. -/
  | llcpAck (h : Half) (ackseq : Nat)
  /-- R99. -/
  | llcpRsync (h : Half) (seq : Nat)
  /-- R97. -/
  | replayTimeout (h : Half)
  /-- R99. -/
  | rsyncRepeat (h : Half)
  /-- R101; `parity` says the packet's memory shows a parity error (R89). -/
  | packetSend (h : Half) (parity : Bool)
  /-- R98: as PACKET_RECEIVED, of a VOID packet. -/
  | voidReceived (h : Half) (rows : List (List (Nat × Blk)))
  /-- R114: the bytes of an accepted SECTION packet. -/
  | sectionPacketReceived (h : Half) (bytes : List Byte)
  /-- R451: the body of an accepted TIMING packet (Table 33). -/
  | timingSet (h : Half) (b : List Byte)
  /-- R453: likewise. -/
  | timingRequest (h : Half) (b : List Byte)
  /-- R123: the body of a TXN_REQ that a half receives (Table 35). -/
  | txnReq (h : Half) (b : List Byte)
  /-- R121. -/
  | msgReceived (h : Half)
  /-- R127, R128: the payloads of the set's copies (Table 38). -/
  | wakeOrderedSet (h : Half) (copies : List (List Byte))
  /-- R106. -/
  | flowEffect (f : FlowNo)
  /-- R134: the deadline of the data sections of a flow with this identifier and start tick has passed. -/
  | dataBindingDeadline (h : Half) (f : FlowNo) (secid start : Nat)
  /-- R174: the symbol (its start as a count of the cycle) of a flow is sent. -/
  | ulSectionSend (h : Half) (f : FlowNo) (sym : Nat)
  /-- R132, R155: the pending record of a carrier (direction 0 downlink, 1 uplink) takes effect. -/
  | carrierRecordEffect (dir : Fin 2) (c : CarrierNo)
  /-- R26: the forwarding window of a flow's symbol (its start in the cycle) opens. -/
  | dlForwardWindowOpen (h : Half) (f : FlowNo) (sym : Nat)
  /-- R134 to R144, R148: a half's array processor begins a carrier's symbol; parity errors it meets (R136). -/
  | dlSymbolStart (h : Half) (c : CarrierNo) (sym : Nat) (errs : List DlParity)
  /-- R145: a path's interval is read out; `late` says a sample had not been written; positions with a parity error; whether the
  predistortion bank in service has one (R483). -/
  | symbolRelease (p : PathNo) (sym : Nat) (late : Bool) (errs : List Nat) (bank : Bool)
  /-- R149: 1,024 ticks before the interval that starts at `sym`. -/
  | txWarmingStart (p : PathNo) (sym : Nat)
  /-- R149: an interval starts at a path. -/
  | txIntervalStart (p : PathNo) (sym : Nat)
  /-- R149: 64 ticks after the last sample before the interval `sym`, a run of blank intervals or the end of a transmit
  interval. -/
  | txGate (p : PathNo) (sym : Nat) (endOfTx : Bool)
  /-- R156: the exchange of a converter's resting slice falls due, or an instant without hindrance has come; `inSpan` says an
  observation receiver is in a capture span (R224). -/
  | adcSliceRotate (v : Conv) (inSpan : Bool)
  /-- R156: a sample boundary 10 ms or more after an exchange fell due. -/
  | adcRotateForce (v : Conv) (inSpan : Bool)
  /-- R157, R224: the resting slice's calibration ends, with the corrections it found. -/
  | adcSliceCalDone (v : Conv) (pass : Bool) (corr : SliceCorr)
  /-- R158, R160: a path's converters deliver codes, an over-range one among them. -/
  | adcOverrange (p : PathNo) (re im : Int)
  /-- R160: over-range codes continue 30 ns after a step. -/
  | sprintStep (p : PathNo)
  /-- R161: an interval of a path ends, with the codes converted in it that no window has taken yet. -/
  | agcIntervalEnd (p : PathNo) (run : AdcRun)
  /-- R167: the tick of a pending filter swap. -/
  | filterSwapTick (c : CarrierNo)
  /-- R164 to R172, R194, R195: a symbol's FFT window falls due on a half. -/
  | ulSymbolWindow (h : Half) (c : CarrierNo) (sym : Nat) (rx : List UlRx) (errs : List UlParity)
  /-- R173: both halves' coded sums of a flow's symbol are present. -/
  | ulPartialSumsReady (f : FlowNo) (sym : Nat)
  /-- R29: the cut-off passes without the other half's sum. -/
  | partialSumCutoff (f : FlowNo) (sym : Nat)
  /-- R184: a loaded entry's effect symbol. -/
  | beamEntryEffect (id : Fin 8192)
  /-- R185: staging rows have returned to the pool. -/
  | beamBulkResume
  /-- R188, R483: a scrub of a half's rows and idle predistortion banks, with the rows and the paths' banks that show a parity
  error. -/
  | beamScrub (h : Half) (bad : List Nat) (banks : List PathNo)
  /-- R188: the march test of a row ends. -/
  | rowTestDone (h : Half) (row : Nat) (pass : Bool)
  /-- R196: 100 µs after an occasion of a flow ended; `present` says the other half's estimates had come. -/
  | estimateDeadline (f : FlowNo) (present : Bool)
  /-- R200: a solver update falls due. -/
  | solverUpdateDue (f : FlowNo)
  /-- R201: a solve starts. -/
  | solveStart (f : FlowNo)
  /-- R202: the effect slot of a committed bank. -/
  | solverBankEffect (f : FlowNo)
  /-- R204: the ACTIVE bank's occasion has passed MAX_AGE. -/
  | solverStale (f : FlowNo)
  /-- R213: the banks of a path with a structure change pending are one COMMITTED and one FREE. -/
  | dpdRestructure (p : PathNo)
  /-- R216: a swap boundary of a path. -/
  | dpdSwap (p : PathNo)
  /-- R216: the revert instant of a path. -/
  | dpdRevertSwap (p : PathNo)
  /-- R219: the swap boundary of a new crest-factor pulse. -/
  | cfrPulseSwap (p : PathNo)
  /-- R227: a path's estimate falls due. -/
  | dpdEstimateDue (p : PathNo)
  /-- R222, R223, R228: a capture of a path ends: the count of its span's first sample, the observation samples. -/
  | dpdCaptureComplete (p : PathNo) (first : Nat) (obs : List Cplx)
  /-- R231: the verification capture is evaluated, with the alignment of DPD_COMMIT's form that the firmware finds. -/
  | dpdVerify (p : PathNo) (align : List Byte)
  /-- R225, R226: an observation receiver is retired with captures in progress. -/
  | orxRelay (n : UnitNo) (captures : Nat)
  /-- R250: a foreground heat of a group starts (its kind is the one the state requires). -/
  | heatStart (g : GroupNo)
  /-- R250: a step of a group's heat ends with its inter-path measurements (step 6), the other values that the calibration
  service has found in it (steps 2 to 5, Table 63), and a tie (step 7). -/
  | heatStepDone (g : GroupNo) (step : Nat) (res : List CalMeas) (vals : List (PathNo × CalVal)) (tie : Option TieMeas)
  /-- R260: a group's heat completes; the group's mean sensor temperature in 1/64 °C. -/
  | heatComplete (g : GroupNo) (temp : Int)
  /-- R253: a usable gap of a half, with what it served. -/
  | backgroundGap (h : Half) (w : GapWork)
  /-- R254: a background cycle of a half starts. -/
  | backgroundCycle (h : Half)
  /-- R249: the boundary at which a path's pending values take effect. -/
  | calValueEffect (p : PathNo)
  /-- R254: a path of the half passes 100 ms without a valid measurement. -/
  | calStaleCheck (h : Half)
  /-- R262: a count of REFCLK edges over 2 µs on a half. -/
  | refRateDetect (h : Half) (edges : Nat)
  /-- R263: the reference PLL of a half locks. -/
  | refPllLock (h : Half)
  /-- R266: REFCLK is lost. -/
  | refclkLost
  /-- R268: REFCLK is qualified, with the jump J measured, in ps. -/
  | refclkQualified (j : Int)
  /-- R269: the slew residual falls below 5 ps. -/
  | slewComplete
  /-- R270: the mute slot's start. -/
  | timeStepMute
  /-- R271: the COAST timer expires. -/
  | coastExpiry
  /-- R272: REFCLK is present again after expiry. -/
  | refclkReturn
  /-- R276: the effect time of the pending hop of the masked groups. -/
  | loHopEffect (mask : Nat)
  /-- R277: a synthesiser locks; after a search, its band codes, oscillator gain and temperature. -/
  | loLocked (n : UnitNo) (band mid kdco : Nat) (temp : Int)
  /-- R277: a synthesiser is not locked LOCK_TMO after it started. -/
  | loLockTimeout (n : UnitNo)
  /-- R278: an unlock detector trips, the soft one or the hard. -/
  | loUnlock (n : UnitNo) (soft : Bool)
  /-- R289, R484: a clock monitor flags a domain of a half. -/
  | clockMonitorFail (h : Half) (d : ClkDom)
  /-- R290: the AON crystal has stopped for more than 1 ms. -/
  | aonXtalFail
  /-- R264: the reference link between the halves fails. -/
  | referenceLinkFail
  /-- R293: the EFFECT of the pending schedule. -/
  | scheduleEffect
  /-- R297: TX_LEAD ticks before a transmit interval of a path. -/
  | feTxLead (p : PathNo)
  /-- R297: TX_LAG ticks after a transmit interval; `heat` says a background TX set follows (R300). -/
  | feTxLag (p : PathNo) (heat : Bool)
  /-- R297: RX_LEAD ticks before a receive interval. -/
  | feRxLead (p : PathNo)
  /-- R297, R299: RX_LAG ticks after a receive interval of a path, as trimmed. -/
  | feRxLag (p : PathNo)
  /-- R301: BYP_LEAD ticks before a bypass change takes effect. -/
  | feBypEdge (p : PathNo)
  /-- R302: the decision instant of a group for the transmit interval that starts at `start`. -/
  | readinessDecision (g : GroupNo) (start : Nat)
  /-- R306: a script entry of a bus starts; late or on its tick; the value read back under VERIFY. -/
  | rffeScriptLaunch (bus : GroupNo) (entry : Fin 128) (late : Bool) (readback : Nat)
  /-- R304: SCRIPT_TMO has passed since a group's channel change. -/
  | scriptTimeout (g : GroupNo)
  /-- R308, R309: a return-loss measurement of a path falls due, or one that is due finds its symbol: its reflected and its forward
  observation capture. -/
  | mismatchMeasureDue (p : PathNo) (refl fwd : List Cplx)
  /-- R313, R314: tasks are ready on a half; an engine takes the one that falls to it first. -/
  | engineTaskStart (e : UnitNo) (ready : List TaskDesc)
  /-- R323, R320: opcode 0x00 on an engine; `par` says a load meets a parity error (R326). -/
  | nop (e : UnitNo) (b : Bundle) (par : Bool)
  /-- R323, R320: opcode 0x01 on an engine; `par` says a load meets a parity error (R326). -/
  | cmac (e : UnitNo) (b : Bundle) (par : Bool)
  /-- R323, R320: opcode 0x02 on an engine; `par` says a load meets a parity error (R326). -/
  | cmacc (e : UnitNo) (b : Bundle) (par : Bool)
  /-- R323, R320: opcode 0x03 on an engine; `par` says a load meets a parity error (R326). -/
  | cmsb (e : UnitNo) (b : Bundle) (par : Bool)
  /-- R323, R320: opcode 0x04 on an engine; `par` says a load meets a parity error (R326). -/
  | cmul (e : UnitNo) (b : Bundle) (par : Bool)
  /-- R323, R320: opcode 0x05 on an engine; `par` says a load meets a parity error (R326). -/
  | cmulc (e : UnitNo) (b : Bundle) (par : Bool)
  /-- R323, R320: opcode 0x06 on an engine; `par` says a load meets a parity error (R326). -/
  | cpow (e : UnitNo) (b : Bundle) (par : Bool)
  /-- R323, R320: opcode 0x07 on an engine; `par` says a load meets a parity error (R326). -/
  | dmac (e : UnitNo) (b : Bundle) (par : Bool)
  /-- R323, R320: opcode 0x08 on an engine; `par` says a load meets a parity error (R326). -/
  | aclr (e : UnitNo) (b : Bundle) (par : Bool)
  /-- R323, R320: opcode 0x09 on an engine; `par` says a load meets a parity error (R326). -/
  | aadd (e : UnitNo) (b : Bundle) (par : Bool)
  /-- R323, R320: opcode 0x0A on an engine; `par` says a load meets a parity error (R326). -/
  | asub (e : UnitNo) (b : Bundle) (par : Bool)
  /-- R323, R320: opcode 0x0B on an engine; `par` says a load meets a parity error (R326). -/
  | ashr (e : UnitNo) (b : Bundle) (par : Bool)
  /-- R323, R320: opcode 0x0C on an engine; `par` says a load meets a parity error (R326). -/
  | ashl (e : UnitNo) (b : Bundle) (par : Bool)
  /-- R323, R320: opcode 0x0D on an engine; `par` says a load meets a parity error (R326). -/
  | ext (e : UnitNo) (b : Bundle) (par : Bool)
  /-- R323, R320: opcode 0x0E on an engine; `par` says a load meets a parity error (R326). -/
  | extr (e : UnitNo) (b : Bundle) (par : Bool)
  /-- R323, R320: opcode 0x0F on an engine; `par` says a load meets a parity error (R326). -/
  | exti (e : UnitNo) (b : Bundle) (par : Bool)
  /-- R324, R320: opcode 0x10 on an engine; `par` says a load meets a parity error (R326). -/
  | add (e : UnitNo) (b : Bundle) (par : Bool)
  /-- R324, R320: opcode 0x11 on an engine; `par` says a load meets a parity error (R326). -/
  | sub (e : UnitNo) (b : Bundle) (par : Bool)
  /-- R324, R320: opcode 0x12 on an engine; `par` says a load meets a parity error (R326). -/
  | cadd (e : UnitNo) (b : Bundle) (par : Bool)
  /-- R324, R320: opcode 0x13 on an engine; `par` says a load meets a parity error (R326). -/
  | csub (e : UnitNo) (b : Bundle) (par : Bool)
  /-- R323, R320: opcode 0x14 on an engine; `par` says a load meets a parity error (R326). -/
  | and (e : UnitNo) (b : Bundle) (par : Bool)
  /-- R323, R320: opcode 0x15 on an engine; `par` says a load meets a parity error (R326). -/
  | or (e : UnitNo) (b : Bundle) (par : Bool)
  /-- R323, R320: opcode 0x16 on an engine; `par` says a load meets a parity error (R326). -/
  | xor (e : UnitNo) (b : Bundle) (par : Bool)
  /-- R323, R320: opcode 0x17 on an engine; `par` says a load meets a parity error (R326). -/
  | shr (e : UnitNo) (b : Bundle) (par : Bool)
  /-- R324, R320: opcode 0x18 on an engine; `par` says a load meets a parity error (R326). -/
  | shl (e : UnitNo) (b : Bundle) (par : Bool)
  /-- R324, R320: opcode 0x19 on an engine; `par` says a load meets a parity error (R326). -/
  | conj (e : UnitNo) (b : Bundle) (par : Bool)
  /-- R323, R320: opcode 0x1A on an engine; `par` says a load meets a parity error (R326). -/
  | swap (e : UnitNo) (b : Bundle) (par : Bool)
  /-- R324, R320: opcode 0x1B on an engine; `par` says a load meets a parity error (R326). -/
  | mul (e : UnitNo) (b : Bundle) (par : Bool)
  /-- R324, R320: opcode 0x1C on an engine; `par` says a load meets a parity error (R326). -/
  | cmuld (e : UnitNo) (b : Bundle) (par : Bool)
  /-- R323, R320: opcode 0x1D on an engine; `par` says a load meets a parity error (R326). -/
  | norm (e : UnitNo) (b : Bundle) (par : Bool)
  /-- R324, R320: opcode 0x1E on an engine; `par` says a load meets a parity error (R326). -/
  | abs (e : UnitNo) (b : Bundle) (par : Bool)
  /-- R323, R320: opcode 0x1F on an engine; `par` says a load meets a parity error (R326). -/
  | min (e : UnitNo) (b : Bundle) (par : Bool)
  /-- R323, R320: opcode 0x20 on an engine; `par` says a load meets a parity error (R326). -/
  | max (e : UnitNo) (b : Bundle) (par : Bool)
  /-- R323, R320: opcode 0x21 on an engine; `par` says a load meets a parity error (R326). -/
  | rdp (e : UnitNo) (b : Bundle) (par : Bool)
  /-- R323, R320: opcode 0x22 on an engine; `par` says a load meets a parity error (R326). -/
  | wrp (e : UnitNo) (b : Bundle) (par : Bool)
  /-- R323, R320: opcode 0x23 on an engine; `par` says a load meets a parity error (R326). -/
  | rdk (e : UnitNo) (b : Bundle) (par : Bool)
  /-- R323, R320: opcode 0x24 on an engine; `par` says a load meets a parity error (R326). -/
  | wrk (e : UnitNo) (b : Bundle) (par : Bool)
  /-- R323, R320: opcode 0x25 on an engine; `par` says a load meets a parity error (R326). -/
  | rdf (e : UnitNo) (b : Bundle) (par : Bool)
  /-- R321. -/
  | jmp (e : UnitNo) (c : Ctl) (target : Fin 8192)
  /-- R321. -/
  | call (e : UnitNo) (c : Ctl) (target : Fin 8192)
  /-- R321. -/
  | ret (e : UnitNo) (c : Ctl)
  /-- R321: IMM[15:0] is the count. -/
  | loop (e : UnitNo) (c : Ctl) (target : Fin 8192) (count : Fin 65536)
  /-- R321: IMM is the result code. -/
  | exit (e : UnitNo) (c : Ctl) (code : Word)
  /-- R319: REG of Table 82. -/
  | longImmediate (e : UnitNo) (reg : Fin 32) (imm : Word)
  /-- R327, R361: the bytes of the task's next record, if one is available and not held elsewhere in the state. -/
  | recWait (e : UnitNo) (c : Ctl) (rec : Option (List Byte))
  /-- R329; `par` as for a load. -/
  | xferIn (e : UnitNo) (c : Ctl) (par : Bool)
  /-- R329. -/
  | xferOut (e : UnitNo) (c : Ctl)
  /-- R327. -/
  | taskInfo (e : UnitNo) (c : Ctl)
  /-- R327, R214. -/
  | bankRead (e : UnitNo) (c : Ctl)
  /-- R230. -/
  | dpdCommit (e : UnitNo) (c : Ctl)
  /-- R327, R198: `ill` says that the group was solved again with raised regularisation. -/
  | solverPut (e : UnitNo) (c : Ctl) (ill : Bool)
  /-- R201. -/
  | solverCommit (e : UnitNo) (c : Ctl)
  /-- R248: the residual record at the address in D1. -/
  | calPut (e : UnitNo) (c : Ctl) (r : CalRes)
  /-- R327. -/
  | airtime (e : UnitNo) (c : Ctl)
  /-- R327. -/
  | userNote (e : UnitNo) (c : Ctl)
  /-- R219: the 255 taps at the address in D1. -/
  | pulsePut (e : UnitNo) (c : Ctl) (pulse : List Cplx)
  /-- R309. -/
  | rlPut (e : UnitNo) (c : Ctl)
  /-- R336. -/
  | userBudgetExpiry (e : UnitNo)
  /-- R341: a 10 ms window of a half's spare starts. -/
  | shadowWindow (h : Half)
  /-- R343: a known-answer test of an engine ends. -/
  | katDone (e : UnitNo) (pass : Bool)
  /-- R344. -/
  | katRotation (h : Half)
  /-- R346: `repaired` says that a copy of the image store passes parity. -/
  | progParityError (e : UnitNo) (repaired : Bool)
  /-- R342: the scrub of an engine's program memory; what it finds and whether it can be repaired. -/
  | progScrub (e : UnitNo) (bad repaired : Bool)
  /-- R340: the lag of a series (row of Table 87 from 0) for a subject. -/
  | pacerBehind (series : Fin 9) (subject : Nat)
  /-- R333: an image has been written to the image store and into the slot, or the vendor region (slot 0xFF). -/
  | imageInstallDone (halves : Nat) (slot : Nat)
  /-- R355: a context in FILL holds PRE samples. -/
  | capturePreHeld (c : Fin 8)
  /-- R355, R356: the trigger of a context arrives. -/
  | captureTriggerSample (c : Fin 8)
  /-- R359, R361: POST samples are written, or a context cut short closes: the record's samples, whether a byte fails parity, the
  lengths of the CAP buffers posted. -/
  | captureRecordDone (c : Fin 8) (samples : List Cplx) (par : Bool) (bufs : List Nat)
  /-- R361: a delivered record is released. -/
  | captureRelease (c : Fin 8)
  /-- R361, R363: a waiting record may leave: parity and the CAP buffers posted. -/
  | captureDeliverResume (c : Fin 8) (par : Bool) (bufs : List Nat)
  /-- R370: a half's housekeeping round ends. -/
  | housekeepingRound (h : Half) (r : RoundIn)
  /-- R372: the injected conversion at the front of a half's queue runs. -/
  | injectedConversionStart (h : Half) (c : ConvRes)
  /-- R372: the timed conversion whose tick came first runs. -/
  | timedConversion (h : Half) (c : ConvRes)
  /-- R377: a rail, in SU_RAIL_STAT order, trips on a half, high or low. -/
  | railTrip (h : Half) (rail : Fin 10) (high : Bool)
  /-- R377: both auxiliary rails of a half have been good for 1 ms. -/
  | auxRailRecover (h : Half)
  /-- R378: PWRFAIL_N is taken as asserted; the rail values that the record carries, in mV. -/
  | pwrfailAssert (rails : List Int)
  /-- R378: PWRFAIL_N is taken as released. -/
  | pwrfailRelease
  /-- R378: the assertion has lasted PF_HOLD, at a blanking-interval boundary. -/
  | pfParkTimeout
  /-- R385: steps 2 to 5 of a range change are done. -/
  | biasChangeoverDone (n : Fin 136)
  /-- R386: for 2 µs an output's own sense has shown a level, in µV or nA, that its code does not give. -/
  | biasDriverFault (n : Fin 136) (sense : Int)
  /-- R387: an output sits at a compliance limit with a measured current in nA. -/
  | biasExternalFault (n : Fin 136) (amp : Int)
  /-- R394: a second has passed at T2 or above. -/
  | reduceLoadRepeat
  /-- R375: a converter is calibrated in place: the trims found, or none where it fails. -/
  | mcCalibrateInPlace (h : Half) (conv : Fin 3) (trim : Option (List Int))
  /-- R405: PERST_N or hot reset; with `linkStays` a Function Level Reset. -/
  | hostReset (linkStays : Bool)
  /-- R406: D3hot. -/
  | d3hot
  /-- R410: a write of 1 to LOCK. -/
  | setupLock
  /-- R411: a write of this word, with 1 in TEST, to SU_TEST. -/
  | testModeEnter (v : Word)
  /-- R414: a write of this word, with 1 in ENABLE, to a ring's CTL. -/
  | ringEnable (r : Fin 6) (v : Word)
  /-- R415: a write of 0 to a ring's ENABLE. -/
  | ringDisable (r : Fin 6)
  /-- R416, R418: a write to the MW2 offset of CMD_N, CMD_U, CAP or BULK: an aligned DWORD or not (R404). -/
  | doorbell (r : Fin 6) (v : Word) (whole : Bool)
  /-- R417, R418: a write to the MW2 offset of CPL or EVT, likewise. -/
  | releaseWrite (r : Fin 6) (v : Word) (whole : Bool)
  /-- R422: a write to SU_STATUS_BASE_LO or _HI. -/
  | statusBaseWrite (high : Bool) (v : Word)
  /-- R10, R404: a write of a DWORD of MW0, with all byte enables or not. -/
  | registerWrite (off : Nat) (v : Word) (whole : Bool)
  /-- R10, R11: a read of a register of MW0; from 0x4000 on, of MW2 (R404, log 82). -/
  | counterRead (off : Nat)
  /-- R450: a read of SU_AT_NOW0. -/
  | atNowRead
  /-- R420: the next descriptor, as read from host memory. -/
  | commandFetch (d : FetchedDesc)
  /-- R419: a read for a ring fails; the command that was being read, if one was. -/
  | hostReadError (r : Fin 6) (d : Option FetchedDesc)
  /-- R419: a write to a ring, the status block or a CAP buffer is refused by the link. -/
  | hostWriteError (r : Fin 6)
  /-- R427: TIME has passed for CPL_N, or for EVT. -/
  | irqModerationTimeout (evt : Bool)
  /-- R421: an EVT entry is free after losses. -/
  | eventsLostWrite
  /-- R433. -/
  | rdStatus (f : SpiFrame)
  /-- R434. -/
  | rdReg (f : SpiFrame)
  /-- R434. -/
  | wrReg (f : SpiFrame)
  /-- R434. -/
  | pfSnap (f : SpiFrame)
  /-- R434. -/
  | pfRead (f : SpiFrame)
  /-- R434. -/
  | nvRd (f : SpiFrame)
  /-- R434. -/
  | nvWr (f : SpiFrame)
  /-- R434. -/
  | nvUnlock (f : SpiFrame)
  /-- R43: the PCI Express link trains up. -/
  | pcieLinkUp
  /-- R406: D0 is restored. -/
  | d0Restore
  /-- R412: AER logs an uncorrectable error. -/
  | aerUncorrectableError
  /-- R451: the SET of a half has waited 2 ms for its anchor. -/
  | setAnchorTimeout (half : Half)
  /-- R454: an edge at TSYNC; `rising` is its polarity and `subPs` how many ps after the device's tick it fell. -/
  | tsyncPulse (rising : Bool) (subPs : Nat)
  /-- R449: the supervisors compare the counts; H1's differs from H0's by `diff` ticks. -/
  | atCompare (diff : Int)
  /-- R449: the subframe boundary after a mismatch. -/
  | h1CounterReload
  /-- R460: a domain of a half (position in SU_VOTE_OWNER) has lost its last vote and hold. -/
  | domainDrop (half : Half) (dom : Fin 8)
  /-- R461: PREPARE for the entry; `refusals` are the block codes and reasons of Table 129 that the blocks of the half
  answer. -/
  | powerEntryPrepare (half : Half) (refusals : List (Nat × Nat))
  /-- R462: a block of a half has given no answer in 50 µs. -/
  | prepareAnswerTimeout (half : Half) (block : Nat)
  /-- R461: every block has agreed, or the entry rolls back. -/
  | powerEntryCommit (half : Half)
  /-- R463. -/
  | powerEntryRetry (half : Half)
  /-- R464: WAKE_N low for 10 µs. -/
  | wakeN
  /-- R464: a PCI Express L1 exit or TLP. -/
  | hostifWake
  /-- R464: a host write falls due while HOSTIF is below RUN. -/
  | hostWriteDueWake
  /-- R464: an SOP block on an idle LINK domain. -/
  | sopWake (half : Half)
  /-- R465: a waking domain's delay has run. -/
  | domainEnterRun (half : Half) (dom : Fin 8)
  /-- R465: the reference PLL, not LOCKED 12 ms after a wake from DEEP, has locked. -/
  | wakeLateTimeout (half : Half) (dom : Fin 8)
  /-- R458: the wake of the first pending timed vote starts. -/
  | timedVoteWakeStart
  /-- R458: the first pending timed vote is cast. -/
  | timedVoteCast
  /-- R459: WAKE_HOLD has run for the domains of a half. -/
  | wakeHoldExpiry (half : Half)
  /-- R468, R469: the first AON edge after lock; `n` AON periods have run since the count was saved, and `countLost`
  says that the AON count itself is lost. -/
  | counterRebuild (n : Nat) (countLost : Bool)
  /-- R469: the first AON edge after coast expiry. -/
  | coastCountSave
  /-- R482: a scrub of a half, and the fields whose copies it finds not all alike. -/
  | configScrub (half : Half) (found : List CfgCopies)
  /-- R485: the lockstep pair of a half diverges. -/
  | supervisorDiverge (half : Half)
  /-- R485. -/
  | supervisorRestartDone (half : Half)
  /-- R486: the first or second spare slice of a half moves on. -/
  | sliceShadowTurn (half : Half) (second : Bool)
  /-- R486: a slice is faulty: by a parity error, or by a confirmed mismatch. -/
  | sliceParityFault (slice : Fin 68) (parity : Bool)
  /-- R487: the boundary at which a path's outputs switch to the spare slice. -/
  | sliceRelaySwitch (path : PathNo)
  /-- R488: the start of a path's transmit interval after a cell was measured: its last two weights, in 0.01 % of nominal, and
  whether it is open. -/
  | dacCellReplace (path : PathNo) (q : Bool) (cell : BitVec 8) (w1 w2 : Nat) (isOpen : Bool)
  /-- R489: the check of a wire, in a direction named by the sending half, in a check period counted from the link's start: the
  wire's 120 payload bits, its CRC-8, and the period that is being sent by then. -/
  | d2dCheckFail (dir : Half) (wire : Fin 32) (period : Nat) (bits : List Byte) (crc : Byte) (sending : Nat)
  /-- R490: a faulty wire, or the clock pair (none), of a direction is replaced. -/
  | d2dWireRelay (dir : Half) (wire : Option (Fin 32))
  /-- R497: 1 no wire left, 2 no clock pair, 3 no valid check period. -/
  | splitModeEntry (why : Nat)
  /-- R494, R496: the broadcast instant of a half. -/
  | batonBroadcast (half : Half)
  /-- R494: the bytes of the other half's last broadcast arrive at a half. -/
  | batonBroadcastReceived (half : Half) (bytes : List Byte)
  /-- R496. -/
  | batonCopyDone (half : Half)
  /-- R493: REPLACE_REPEAT seconds have passed. -/
  | replaceRequestRepeat
  /-- R486: the compared outputs of a slice, of the spare that shadows it and, over the 256 samples that follow, of the other spare;
  whether the idle spare passes the known-answer test, which is run without another spare. -/
  | sliceMismatch (half : Half) (second : Bool) (slice spare third : List Cplx) (pass : Bool)
  /-- R504: VDD_AON falls below its low trip. -/
  | powerOnReset
  /-- R506: RESET_N has been low for 1 µs. -/
  | resetNAssert
  /-- R504, R508: RESET_N returns high. -/
  | resetNRelease
  /-- R504, R510: every reset condition has been clear for 1 ms. -/
  | coreResetRelease
  /-- R505: every rail has been back in its window for 1 ms. -/
  | brownOutEnd
  /-- R504: 100 µs after the COMMIT of OFF. -/
  | offCoreReset
  /-- R510: every bias boot record is handled. -/
  | startUpP0End
  /-- R510, R514: P1 ends; whether each half's factory record is decided, and what it says of the sensors and of the halves'
  monitors. -/
  | startUpP1End (factory0 factory1 : Bool) (sensors : List SensFact) (mons : List MonFact)
  /-- R510, R513: P2 ends; units that the self-test found faulty (class of Table 135, unit). -/
  | startUpP2End (bad : List (Nat × Nat))
  /-- R510, R518: P3 ends; the factory firmware image; user-image copies with a bad CRC on a half (half, slot), and vendor
  images (0xFF). -/
  | startUpP3End (factoryImage : List Byte) (badImages : List (Nat × Nat))
  /-- R519: a half's queued write starts its next copy. -/
  | nvWriteStart (h : Half)
  /-- R519: the copy under way verifies, or has failed three times. -/
  | nvCopyVerified (h : Half) (ok : Bool)
  /-- R524: a half's store is scrubbed. -/
  | nvScrub (h : Half)
  /-- R522: a retired unit is added to the fault log. -/
  | faultLogEntry
  /-- R535: a TAP's instruction register takes BYPASS. -/
  | bypass (tap : Half)
  /-- R535. -/
  | idcode (tap : Half)
  /-- R535: the levels sampled, then those preloaded. -/
  | samplePreload (tap : Half) (sample preload : List (BCell × Bool))
  /-- R535. -/
  | extest (tap : Half)
  /-- R535. -/
  | extestPulse (tap : Half)
  /-- R535. -/
  | extestTrain (tap : Half)
  /-- R535. -/
  | clamp (tap : Half)
  /-- R535. -/
  | highz (tap : Half)
  /-- R535: whatever TAP holds the core reset takes another instruction. -/
  | tapRelease (next : TapQuiet)
  /-- R535: the level of TRST_N. -/
  | trstN (high : Bool)
deriving DecidableEq, Repr

end Sys2Proof
end

