-- ==== Sys2Proof/Config.lean ====
section
/-! DEFINITION. What an implementation fixes and the spec does not state (free values: constants without a body), and
the constants of time that the spec does state (R15, R139). -/

namespace Sys2Proof.Config

/-- Ticks of 491.52 MHz in a subframe of 1 ms (R15, R448). -/
def ticksPerSubframe : Nat := 491520

/-- Ticks in the whole count of the air-time counter, 1,024 frames of ten subframes (R448). -/
def ticksPerCycle : Nat := 1024 * 10 * 491520

/-- Ticks in a second. -/
def ticksPerSecond : Nat := 491520000

/-- A free bit: a choice the spec leaves to the device, drawn with the state's counter (log 2). -/
opaque freeBit : Nat → Bool

/-- A free number, drawn with the state's counter (log 2). -/
opaque freeNat : Nat → Nat

/-- Which way a real function's value is rounded to a code, where the spec states its width and not its rounding (log 73):
the function, its operand. -/
opaque roundUp : Nat → Int → Bool

/-- What rounding inside the stages of an FFT adds to an output component, of which R138 states the bound alone: inverse,
LOG2N, shift, inputs, output number, imaginary. -/
opaque transformDev : Bool → Nat → Nat → List Cplx → Nat → Bool → Int

/-- Taps of a half-band stage (R141, Table 46 stage 7), which the spec does not give: up or down, stage. -/
opaque halfBandTaps : Bool → Nat → Nat

/-- A coefficient of a half-band stage, 18 bits of it used (R141, Table 46 stage 7): up or down, stage, tap. -/
opaque halfBand : Bool → Nat → Nat → Int

/-- A coefficient of a Farrow structure, 18 bits of it used (Table 41 stage 1, Table 46 stage 4): receive, fraction DF,
phase, tap. -/
opaque farrow : Bool → Nat → Nat → Nat → Int

/-- Fractional bits of the 18-bit coefficients of the interpolating and decimating filters, which the spec does not give:
half-band stages up, down, Farrow structures up, down. -/
opaque coefFrac : Nat → Nat

/-- The default channel-filter coefficients, of which the spec gives only band edges (R166): tap. -/
opaque defaultFilter : Nat → Int

/-- The group delay of stages 7 and 8 of Table 46 in carrier samples, of which the spec gives the latency alone: by ratio R. -/
opaque groupDelay : Nat → Nat

/-- What rounding adds to a component that crest-factor reduction takes away, a code at most (R147): pulse tap, peak,
threshold, imaginary. -/
opaque cfrDev : Int → Cplx → Nat → Bool → Int

/-- The phase, in eighths of a turn, of an element of the tabulated base sequences of 3GPP TS 38.211, a document outside
the spec (R194): length, group U, element. -/
opaque basePhase : Nat → Nat → Nat → Nat

/-- A path's calibrated bypass step in dB (R161), whose value the spec leaves to calibration and the board. -/
opaque bypassStep : Nat → Nat

/-- What the solver firmware's arithmetic adds to a component of a weight, of which R198 states a bound alone: estimates, layer,
path, imaginary. -/
opaque solveDev : List (List Cplx) → Nat → Nat → Bool → Int

/-- The phase in 2^-32 of a turn of a comb's tone (R244), which the spec leaves to the device: tone. -/
opaque combPhase : Nat → Nat

/-- The reference of a tone's response, with 30 fractional bits (R238, R244): what the transceiver's generator and receiver, the
on-die network and the ports are by the factory record, whose tables the spec does not give: through the combiner, receive, path,
tone. -/
opaque calRef : Bool → Bool → Nat → Nat → Cplx

/-- Bits that a piece of die-to-die traffic takes, of which Table 5 gives a peak load alone (log 77): 0 an air-time check, 1 a
command, 2 a mirrored change. -/
opaque d2dBits : Nat → Nat

/-- The result of a real function that the spec does not state exactly (a logarithm, a ratio): which one, operand. -/
opaque freeReal : Nat → Int → Int

/-- A component of an observation resampled to the predistorter's rate, whose filter the spec leaves to firmware (R228): delay in
1/65,536 sample, observation samples, output sample, imaginary. -/
opaque resample : Int → List Cplx → Nat → Bool → Int

/-- The part of a readback correction of an output at a code that goes to its gain trim; the rest goes to its offset (R388, log
81). -/
opaque trimGain : Nat → Nat → Int → Int

end Sys2Proof.Config
end

