-- ==== Sys2Proof/Machine/Regs.lean ====
section
/-! DEFINITION. The map of MW0 (R407): every register the chapters give, its fields with their access codes and reset
values (R10, Table 2), the named fields that the meanings read and set, and the counters of each half. -/

namespace Sys2Proof.Machine

/-- Access codes of Table 2. -/
inductive Acc where
  | rw | ro | w1c | w1s | rwl | rc
deriving DecidableEq, Repr

/-- One field of a register table: its place, access code and reset value. -/
structure RegField where
  lo : Nat
  w : Nat
  acc : Acc
  rst : Nat
deriving DecidableEq, Repr

/-- A register, or `count` registers `stride` bytes apart (one per lane, ring, unit or half). -/
structure RegRow where
  base : Nat
  stride : Nat
  count : Nat
  fields : List RegField
deriving DecidableEq, Repr

/-- A named field: its register's offset, its place, the encodings that are not reserved and its reset value. -/
structure Fld where
  off : Nat
  lo : Nat
  w : Nat
  okLo : Nat
  okHi : Nat
  rst : Nat
deriving DecidableEq, Repr

namespace Rg

def LNK_CFG_RATE : Fld := ⟨0x1a80, 0, 2, 0, 2, 0⟩
def LNK_CFG_ACT_H0 : Fld := ⟨0x1a80, 2, 3, 0, 4, 4⟩
def LNK_CFG_ACT_H1 : Fld := ⟨0x1a80, 5, 3, 0, 4, 4⟩
def LNK_CFG_SPARE_H0 : Fld := ⟨0x1a80, 8, 1, 0, 1, 1⟩
def LNK_CFG_SPARE_H1 : Fld := ⟨0x1a80, 9, 1, 0, 1, 1⟩
def LNK_CFG_COLD_SPARE : Fld := ⟨0x1a80, 10, 1, 0, 1, 1⟩
def LNK_CFG_AUTO_RELAY : Fld := ⟨0x1a80, 11, 1, 0, 1, 1⟩
def LNK_CFG_TRAIN_TRIES : Fld := ⟨0x1a80, 12, 3, 0, 7, 3⟩
def LNK_CFG_TRAIN_TMO : Fld := ⟨0x1a80, 16, 8, 1, 255, 50⟩

def LANE_CTL_ENABLE (n : Nat) : Fld := ⟨0x1800 + 0x40 * n, 0, 1, 0, 1, 1⟩
def LANE_CTL_TX_POL (n : Nat) : Fld := ⟨0x1800 + 0x40 * n, 1, 1, 0, 1, 0⟩
def LANE_CTL_FFE_FIXED (n : Nat) : Fld := ⟨0x1800 + 0x40 * n, 2, 1, 0, 1, 0⟩
def LANE_CTL_PRE (n : Nat) : Fld := ⟨0x1800 + 0x40 * n, 3, 5, 0, 31, 4⟩
def LANE_CTL_MAIN (n : Nat) : Fld := ⟨0x1800 + 0x40 * n, 8, 7, 0, 127, 52⟩
def LANE_CTL_POST (n : Nat) : Fld := ⟨0x1800 + 0x40 * n, 15, 5, 0, 31, 8⟩
def LANE_CTL_TEST_MODE (n : Nat) : Fld := ⟨0x1800 + 0x40 * n, 20, 4, 0, 5, 0⟩
def LANE_CTL_CHK_EN (n : Nat) : Fld := ⟨0x1800 + 0x40 * n, 24, 1, 0, 1, 0⟩

def LANE_INJ_INJ_ONE (n : Nat) : Fld := ⟨0x1804 + 0x40 * n, 0, 1, 0, 1, 0⟩
def LANE_INJ_INJ_CONT (n : Nat) : Fld := ⟨0x1804 + 0x40 * n, 1, 1, 0, 1, 0⟩
def LANE_INJ_INJ_RATE (n : Nat) : Fld := ⟨0x1804 + 0x40 * n, 2, 4, 0, 15, 0⟩
def LANE_INJ_INJ_TYPE (n : Nat) : Fld := ⟨0x1804 + 0x40 * n, 6, 2, 0, 2, 0⟩
def LANE_INJ_INJ_ACTIVE (n : Nat) : Fld := ⟨0x1804 + 0x40 * n, 8, 1, 0, 1, 0⟩

def LANE_STAT_STATE (n : Nat) : Fld := ⟨0x1808 + 0x40 * n, 0, 4, 0, 15, 0⟩
def LANE_STAT_POS (n : Nat) : Fld := ⟨0x1808 + 0x40 * n, 4, 4, 0, 15, 15⟩
def LANE_STAT_SIG_DET (n : Nat) : Fld := ⟨0x1808 + 0x40 * n, 8, 1, 0, 1, 0⟩
def LANE_STAT_CDR_LOCK (n : Nat) : Fld := ⟨0x1808 + 0x40 * n, 9, 1, 0, 1, 0⟩
def LANE_STAT_BLOCK_LOCK (n : Nat) : Fld := ⟨0x1808 + 0x40 * n, 10, 1, 0, 1, 0⟩
def LANE_STAT_AM_LOCK (n : Nat) : Fld := ⟨0x1808 + 0x40 * n, 11, 1, 0, 1, 0⟩
def LANE_STAT_CHK_LOCK (n : Nat) : Fld := ⟨0x1808 + 0x40 * n, 12, 1, 0, 1, 0⟩
def LANE_STAT_RX_INV (n : Nat) : Fld := ⟨0x1808 + 0x40 * n, 13, 1, 0, 1, 0⟩
def LANE_STAT_TRIES_LEFT (n : Nat) : Fld := ⟨0x1808 + 0x40 * n, 14, 3, 0, 7, 0⟩

def LANE_TAPS_PRE (n : Nat) : Fld := ⟨0x180c + 0x40 * n, 0, 5, 0, 31, 0⟩
def LANE_TAPS_MAIN (n : Nat) : Fld := ⟨0x180c + 0x40 * n, 5, 7, 0, 127, 0⟩
def LANE_TAPS_POST (n : Nat) : Fld := ⟨0x180c + 0x40 * n, 12, 5, 0, 31, 0⟩
def LANE_TAPS_EYE_W (n : Nat) : Fld := ⟨0x180c + 0x40 * n, 17, 7, 0, 127, 0⟩
def LANE_TAPS_EYE_H (n : Nat) : Fld := ⟨0x180c + 0x40 * n, 24, 8, 0, 255, 0⟩

def LANE_EVT_LOS (n : Nat) : Fld := ⟨0x1810 + 0x40 * n, 0, 1, 0, 1, 0⟩
def LANE_EVT_CDR_UNLOCK (n : Nat) : Fld := ⟨0x1810 + 0x40 * n, 1, 1, 0, 1, 0⟩
def LANE_EVT_BLOCK_UNLOCK (n : Nat) : Fld := ⟨0x1810 + 0x40 * n, 2, 1, 0, 1, 0⟩
def LANE_EVT_AM_ERR (n : Nat) : Fld := ⟨0x1810 + 0x40 * n, 3, 1, 0, 1, 0⟩
def LANE_EVT_RFLT (n : Nat) : Fld := ⟨0x1810 + 0x40 * n, 4, 1, 0, 1, 0⟩
def LANE_EVT_TRAIN_FAIL (n : Nat) : Fld := ⟨0x1810 + 0x40 * n, 5, 1, 0, 1, 0⟩
def LANE_EVT_ID_FAIL (n : Nat) : Fld := ⟨0x1810 + 0x40 * n, 6, 1, 0, 1, 0⟩
def LANE_EVT_RELAY_IN (n : Nat) : Fld := ⟨0x1810 + 0x40 * n, 7, 1, 0, 1, 0⟩
def LANE_EVT_RELAY_OUT (n : Nat) : Fld := ⟨0x1810 + 0x40 * n, 8, 1, 0, 1, 0⟩
def LANE_EVT_MARGINAL (n : Nat) : Fld := ⟨0x1810 + 0x40 * n, 9, 1, 0, 1, 0⟩
def LANE_EVT_EB_SLIP (n : Nat) : Fld := ⟨0x1810 + 0x40 * n, 10, 1, 0, 1, 0⟩
def LANE_EVT_TEST_REFUSED (n : Nat) : Fld := ⟨0x1810 + 0x40 * n, 11, 1, 0, 1, 0⟩

def LANE_CODEERR_N (n : Nat) : Fld := ⟨0x1814 + 0x40 * n, 0, 32, 0, 4294967295, 0⟩

def LANE_BIPERR_N (n : Nat) : Fld := ⟨0x1818 + 0x40 * n, 0, 32, 0, 4294967295, 0⟩

def LANE_PRBSERR_N (n : Nat) : Fld := ⟨0x181c + 0x40 * n, 0, 32, 0, 4294967295, 0⟩

def LANE_RM_INS (n : Nat) : Fld := ⟨0x1820 + 0x40 * n, 0, 16, 0, 65535, 0⟩
def LANE_RM_DEL (n : Nat) : Fld := ⟨0x1820 + 0x40 * n, 16, 16, 0, 65535, 0⟩

def PKT_CFG_REPLAY_TMO : Fld := ⟨0x1a84, 0, 8, 2, 255, 20⟩
def PKT_CFG_RETRY_MAX : Fld := ⟨0x1a84, 8, 4, 1, 15, 8⟩
def PKT_CFG_TUNNEL_EN : Fld := ⟨0x1a84, 12, 1, 0, 1, 1⟩
def PKT_CFG_NAK_TMO : Fld := ⟨0x1a84, 16, 8, 2, 255, 10⟩

def DL_CFG_BLANK_EN : Fld := ⟨0x1c00, 0, 1, 0, 1, 1⟩
def DL_CFG_SAT_EVT : Fld := ⟨0x1c00, 1, 1, 0, 1, 1⟩
def DL_CFG_BLANK_MIN : Fld := ⟨0x1c00, 4, 8, 8, 255, 8⟩

def UL_CFG_DC_EN : Fld := ⟨0x1d00, 0, 1, 0, 1, 1⟩
def UL_CFG_DC_FREEZE : Fld := ⟨0x1d00, 1, 1, 0, 1, 0⟩
def UL_CFG_DC_K : Fld := ⟨0x1d00, 2, 5, 10, 20, 16⟩
def UL_CFG_ROT_EN : Fld := ⟨0x1d00, 7, 1, 0, 1, 1⟩
def UL_CFG_DC_HOLD : Fld := ⟨0x1d00, 8, 8, 1, 255, 4⟩
def UL_CFG_SAT_EVT : Fld := ⟨0x1d00, 16, 1, 0, 1, 1⟩
def UL_CFG_OVL_EVT : Fld := ⟨0x1d00, 17, 1, 0, 1, 1⟩

def UL_AGC_AGC_EN : Fld := ⟨0x1d04, 0, 1, 0, 1, 1⟩
def UL_AGC_SPRINT_EN : Fld := ⟨0x1d04, 1, 1, 0, 1, 1⟩
def UL_AGC_BYPASS_EN : Fld := ⟨0x1d04, 2, 1, 0, 1, 0⟩
def UL_AGC_SPRINT_STEP : Fld := ⟨0x1d04, 4, 4, 3, 15, 9⟩
def UL_AGC_DIST_TGT : Fld := ⟨0x1d04, 8, 8, 0, 255, 56⟩
def UL_AGC_DIST_HYST : Fld := ⟨0x1d04, 16, 4, 1, 15, 6⟩
def UL_AGC_DIST_UP : Fld := ⟨0x1d04, 20, 4, 1, 15, 3⟩
def UL_AGC_ATT_MAX : Fld := ⟨0x1d04, 24, 5, 0, 30, 30⟩

def UL_OVL0_OVL : Fld := ⟨0x1d08, 0, 32, 0, 4294967295, 0⟩

def UL_OVL1_OVL : Fld := ⟨0x1d0c, 0, 32, 0, 4294967295, 0⟩

def BW_CFG_SCRUB_EN : Fld := ⟨0x1e00, 0, 1, 0, 1, 1⟩
def BW_CFG_ZERO_EVT : Fld := ⟨0x1e00, 1, 1, 0, 1, 1⟩
def BW_CFG_DEF_OWNER : Fld := ⟨0x1e00, 2, 2, 0, 2, 0⟩

def BW_STAT_SPARE_H0 : Fld := ⟨0x1e04, 0, 8, 0, 255, 128⟩
def BW_STAT_SPARE_H1 : Fld := ⟨0x1e04, 8, 8, 0, 255, 128⟩
def BW_STAT_STAGE_H0 : Fld := ⟨0x1e04, 16, 7, 0, 127, 64⟩
def BW_STAT_STAGE_H1 : Fld := ⟨0x1e04, 23, 7, 0, 127, 64⟩

def DPD_CFG_DPD_EN : Fld := ⟨0x1f00, 0, 1, 0, 1, 1⟩
def DPD_CFG_EST_EN : Fld := ⟨0x1f00, 1, 1, 0, 1, 1⟩
def DPD_CFG_PERIOD : Fld := ⟨0x1f00, 8, 8, 1, 255, 40⟩
def DPD_CFG_FREEZE_DB : Fld := ⟨0x1f00, 16, 6, 6, 40, 20⟩
def DPD_CFG_OCC_MIN : Fld := ⟨0x1f00, 22, 6, 1, 50, 10⟩
def DPD_CFG_REVERT_MAX : Fld := ⟨0x1f00, 28, 4, 1, 15, 4⟩

def DPD_CFG2_TRUST : Fld := ⟨0x1f04, 0, 8, 24, 200, 80⟩
def DPD_CFG2_ACQ_TRUST : Fld := ⟨0x1f04, 8, 8, 4, 200, 24⟩
def DPD_CFG2_ACQ_COUNT : Fld := ⟨0x1f04, 16, 4, 1, 15, 4⟩
def DPD_CFG2_IMPROVE : Fld := ⟨0x1f04, 20, 4, 0, 15, 2⟩
def DPD_CFG2_VERIFY : Fld := ⟨0x1f04, 24, 8, 1, 100, 10⟩

def CAL_CFG_BG_EN : Fld := ⟨0x2000, 0, 1, 0, 1, 1⟩
def CAL_CFG_PLANE : Fld := ⟨0x2000, 1, 1, 0, 1, 1⟩
def CAL_CFG_TIE_EN : Fld := ⟨0x2000, 2, 1, 0, 1, 1⟩
def CAL_CFG_AUTO_FG : Fld := ⟨0x2000, 3, 1, 0, 1, 1⟩
def CAL_CFG_BG_SHIFT : Fld := ⟨0x2000, 4, 3, 0, 4, 2⟩
def CAL_CFG_GAP_MIN : Fld := ⟨0x2000, 8, 8, 8, 255, 12⟩
def CAL_CFG_CYCLE : Fld := ⟨0x2000, 16, 8, 5, 100, 20⟩
def CAL_CFG_HEAT_LVL : Fld := ⟨0x2000, 24, 6, 10, 40, 20⟩

def CAL_CFG2_SET_AGE : Fld := ⟨0x2004, 0, 8, 0, 255, 60⟩
def CAL_CFG2_RETIRE_DB : Fld := ⟨0x2004, 8, 8, 2, 40, 12⟩
def CAL_CFG2_SUSPECT_DEG : Fld := ⟨0x2004, 16, 8, 1, 90, 5⟩

def CAL_STAT_FG_GROUPS : Fld := ⟨0x2008, 0, 8, 0, 255, 0⟩
def CAL_STAT_TIE_OK : Fld := ⟨0x2008, 8, 1, 0, 1, 0⟩
def CAL_STAT_PLANE_FALLBACK : Fld := ⟨0x2008, 9, 1, 0, 1, 0⟩
def CAL_STAT_RECIP_BALL : Fld := ⟨0x2008, 10, 1, 0, 1, 0⟩

def REF_CFG_REF_RATE : Fld := ⟨0x2100, 0, 2, 0, 3, 0⟩
def REF_CFG_REF_BW : Fld := ⟨0x2100, 2, 3, 0, 7, 2⟩
def REF_CFG_JUMP_POL : Fld := ⟨0x2100, 5, 1, 0, 1, 0⟩
def REF_CFG_SLEW_RATE : Fld := ⟨0x2100, 6, 2, 0, 2, 2⟩
def REF_CFG_COAST : Fld := ⟨0x2100, 8, 7, 5, 100, 5⟩
def REF_CFG_JUMP_THR : Fld := ⟨0x2100, 16, 8, 1, 255, 10⟩

def REF_STAT_STATE : Fld := ⟨0x2104, 0, 3, 0, 7, 0⟩
def REF_STAT_RATE_DET : Fld := ⟨0x2104, 3, 2, 0, 3, 0⟩
def REF_STAT_REF_BAD : Fld := ⟨0x2104, 5, 1, 0, 1, 0⟩
def REF_STAT_CTL_OSC : Fld := ⟨0x2104, 6, 1, 0, 1, 1⟩
def REF_STAT_AON_RC : Fld := ⟨0x2104, 7, 1, 0, 1, 0⟩
def REF_STAT_LINK_FAIL : Fld := ⟨0x2104, 8, 1, 0, 1, 0⟩
def REF_STAT_LAST_JUMP : Fld := ⟨0x2104, 16, 16, 0, 65535, 0⟩

def LO_CFG_DITHER : Fld := ⟨0x2108, 0, 2, 0, 2, 1⟩
def LO_CFG_STBY_H0 : Fld := ⟨0x2108, 2, 2, 0, 3, 0⟩
def LO_CFG_STBY_H1 : Fld := ⟨0x2108, 4, 2, 0, 3, 0⟩
def LO_CFG_SEED_BASE : Fld := ⟨0x2108, 8, 24, 0, 16777215, 5948254⟩

def CLK_CFG_ENG_CAP : Fld := ⟨0x210c, 0, 5, 10, 20, 20⟩
def CLK_CFG_LOCK_TMO : Fld := ⟨0x210c, 8, 8, 2, 255, 10⟩
def CLK_CFG_GUARD_EVT : Fld := ⟨0x210c, 16, 1, 0, 1, 1⟩

def CLK_STAT_ARR_H0 : Fld := ⟨0x2110, 0, 8, 0, 255, 0⟩
def CLK_STAT_ARR_H1 : Fld := ⟨0x2110, 8, 8, 0, 255, 0⟩
def CLK_STAT_ENG_H0 : Fld := ⟨0x2110, 16, 8, 0, 255, 0⟩
def CLK_STAT_ENG_H1 : Fld := ⟨0x2110, 24, 8, 0, 255, 0⟩

def LO_STAT_STATE (n : Nat) : Fld := ⟨0x2140 + 0x4 * n, 0, 3, 0, 7, 0⟩
def LO_STAT_READY (n : Nat) : Fld := ⟨0x2140 + 0x4 * n, 3, 1, 0, 1, 0⟩
def LO_STAT_GROUP (n : Nat) : Fld := ⟨0x2140 + 0x4 * n, 4, 3, 0, 7, 0⟩
def LO_STAT_SERVING (n : Nat) : Fld := ⟨0x2140 + 0x4 * n, 7, 1, 0, 1, 0⟩
def LO_STAT_ENTRY (n : Nat) : Fld := ⟨0x2140 + 0x4 * n, 8, 6, 0, 63, 0⟩
def LO_STAT_FAST (n : Nat) : Fld := ⟨0x2140 + 0x4 * n, 14, 1, 0, 1, 0⟩

def FE_CFG_TXEN_POL : Fld := ⟨0x2200, 0, 1, 0, 1, 0⟩
def FE_CFG_RXEN_POL : Fld := ⟨0x2200, 1, 1, 0, 1, 0⟩
def FE_CFG_BYP_POL : Fld := ⟨0x2200, 2, 1, 0, 1, 0⟩
def FE_CFG_BYP_TX : Fld := ⟨0x2200, 3, 1, 0, 1, 1⟩
def FE_CFG_RFFE_RATE : Fld := ⟨0x2200, 4, 2, 0, 2, 2⟩
def FE_CFG_MM_EN : Fld := ⟨0x2200, 6, 1, 0, 1, 1⟩
def FE_CFG_MM_RETIRE : Fld := ⟨0x2200, 7, 1, 0, 1, 0⟩
def FE_CFG_MM_PERIOD : Fld := ⟨0x2200, 8, 8, 1, 255, 10⟩
def FE_CFG_RL_MIN : Fld := ⟨0x2200, 16, 8, 0, 255, 20⟩
def FE_CFG_RL_TRIP : Fld := ⟨0x2200, 24, 8, 0, 255, 8⟩

def FE_TIME0_TX_LEAD : Fld := ⟨0x2204, 0, 11, 0, 2047, 512⟩
def FE_TIME0_TX_LAG : Fld := ⟨0x2204, 11, 11, 0, 2047, 64⟩

def FE_TIME1_RX_LEAD : Fld := ⟨0x2208, 0, 11, 0, 2047, 256⟩
def FE_TIME1_RX_LAG : Fld := ⟨0x2208, 11, 11, 0, 2047, 32⟩

def FE_TIME2_DEAD : Fld := ⟨0x220c, 0, 10, 16, 1023, 128⟩
def FE_TIME2_BYP_LEAD : Fld := ⟨0x220c, 10, 10, 0, 1023, 64⟩
def FE_TIME2_COUP_OFF : Fld := ⟨0x220c, 20, 8, 0, 255, 0⟩

def FE_TIME3_BIAS_LEAD : Fld := ⟨0x2210, 0, 11, 0, 2047, 256⟩
def FE_TIME3_BIAS_LAG : Fld := ⟨0x2210, 11, 11, 0, 2047, 0⟩
def FE_TIME3_SCRIPT_TMO : Fld := ⟨0x2210, 22, 8, 10, 255, 50⟩

def FE_STAT_READY : Fld := ⟨0x2214, 0, 8, 0, 255, 0⟩
def FE_STAT_BLANKED : Fld := ⟨0x2214, 8, 8, 0, 255, 0⟩
def FE_STAT_SCHED_OK : Fld := ⟨0x2214, 16, 1, 0, 1, 0⟩

def ENG_CFG_SHADOW_EN : Fld := ⟨0x2300, 0, 1, 0, 1, 1⟩
def ENG_CFG_USER_EN : Fld := ⟨0x2300, 1, 1, 0, 1, 1⟩
def ENG_CFG_PSCRUB_EN : Fld := ⟨0x2300, 2, 1, 0, 1, 1⟩
def ENG_CFG_RELIEF_EN : Fld := ⟨0x2300, 3, 1, 0, 1, 1⟩
def ENG_CFG_ABORT_MAX : Fld := ⟨0x2300, 8, 4, 1, 15, 3⟩

def ENG_STAT_SLOTS_H0 : Fld := ⟨0x2304, 0, 4, 0, 15, 0⟩
def ENG_STAT_SLOTS_H1 : Fld := ⟨0x2304, 4, 4, 0, 15, 0⟩
def ENG_STAT_SPARE_H0 : Fld := ⟨0x2304, 8, 1, 0, 1, 1⟩
def ENG_STAT_SPARE_H1 : Fld := ⟨0x2304, 9, 1, 0, 1, 1⟩
def ENG_STAT_WINDOW_H0 : Fld := ⟨0x2304, 10, 4, 0, 15, 0⟩
def ENG_STAT_WINDOW_H1 : Fld := ⟨0x2304, 14, 4, 0, 15, 0⟩
def ENG_STAT_PENDING_RESET : Fld := ⟨0x2304, 18, 1, 0, 1, 0⟩

def ENG_FWVER_FW_VERSION : Fld := ⟨0x2308, 0, 32, 0, 4294967295, 0⟩

def AE_STAT_STATE (n : Nat) : Fld := ⟨0x2340 + 0x4 * n, 0, 3, 0, 7, 0⟩
def AE_STAT_GROUP (n : Nat) : Fld := ⟨0x2340 + 0x4 * n, 3, 4, 0, 15, 15⟩
def AE_STAT_SERVING (n : Nat) : Fld := ⟨0x2340 + 0x4 * n, 7, 1, 0, 1, 0⟩
def AE_STAT_CLASS (n : Nat) : Fld := ⟨0x2340 + 0x4 * n, 8, 3, 0, 7, 0⟩
def AE_STAT_SLOT (n : Nat) : Fld := ⟨0x2340 + 0x4 * n, 11, 2, 0, 3, 0⟩
def AE_STAT_USER (n : Nat) : Fld := ⟨0x2340 + 0x4 * n, 13, 1, 0, 1, 0⟩
def AE_STAT_FLAGS (n : Nat) : Fld := ⟨0x2340 + 0x4 * n, 14, 3, 0, 7, 0⟩
def AE_STAT_LOAD (n : Nat) : Fld := ⟨0x2340 + 0x4 * n, 24, 8, 0, 255, 0⟩

def CAP_CFG_EXCL_ALLOW : Fld := ⟨0x2400, 0, 1, 0, 1, 1⟩
def CAP_CFG_MISS_EVT : Fld := ⟨0x2400, 1, 1, 0, 1, 1⟩
def CAP_CFG_DEF_OWNER : Fld := ⟨0x2400, 2, 2, 0, 2, 0⟩

def CAP_STAT_CTX_STATE : Fld := ⟨0x2404, 0, 24, 0, 16777215, 0⟩
def CAP_STAT_EXCL_H0 : Fld := ⟨0x2404, 24, 1, 0, 1, 0⟩
def CAP_STAT_EXCL_H1 : Fld := ⟨0x2404, 25, 1, 0, 1, 0⟩

def MON_CFG_ROT_EN : Fld := ⟨0x2500, 0, 1, 0, 1, 1⟩
def MON_CFG_KAT_EN : Fld := ⟨0x2500, 1, 1, 0, 1, 1⟩
def MON_CFG_OVS : Fld := ⟨0x2500, 2, 3, 0, 5, 4⟩

def PWR_CFG_PF_PARK : Fld := ⟨0x2504, 0, 1, 0, 1, 0⟩
def PWR_CFG_PF_HOLD : Fld := ⟨0x2504, 4, 8, 1, 255, 20⟩
def PWR_CFG_RAIL_FILT : Fld := ⟨0x2504, 12, 4, 1, 15, 2⟩

def BIAS_CFG_DEF_OWNER : Fld := ⟨0x2508, 0, 2, 0, 2, 0⟩
def BIAS_CFG_TRIM_EN : Fld := ⟨0x2508, 2, 1, 0, 1, 1⟩

def THERM_CFG_REDUCE_STREAMS : Fld := ⟨0x250c, 0, 7, 1, 64, 48⟩

def THERM_STAT_LEVEL : Fld := ⟨0x2510, 0, 2, 0, 3, 0⟩
def THERM_STAT_LEVEL_H0 : Fld := ⟨0x2510, 2, 2, 0, 3, 0⟩
def THERM_STAT_LEVEL_H1 : Fld := ⟨0x2510, 4, 2, 0, 3, 0⟩
def THERM_STAT_EST_H0 : Fld := ⟨0x2510, 6, 1, 0, 1, 0⟩
def THERM_STAT_EST_H1 : Fld := ⟨0x2510, 7, 1, 0, 1, 0⟩
def THERM_STAT_SHUTDOWN : Fld := ⟨0x2510, 8, 1, 0, 1, 0⟩
def THERM_STAT_TJ : Fld := ⟨0x2510, 16, 16, 0, 65535, 0⟩

def RAIL_STAT_WARN : Fld := ⟨0x2514, 0, 10, 0, 1023, 0⟩
def RAIL_STAT_TRIPPED : Fld := ⟨0x2514, 10, 10, 0, 1023, 0⟩
def RAIL_STAT_PF : Fld := ⟨0x2514, 20, 1, 0, 1, 0⟩
def RAIL_STAT_PARKED : Fld := ⟨0x2514, 21, 1, 0, 1, 0⟩

def SENS_FAIL0_FAILED : Fld := ⟨0x2518, 0, 32, 0, 4294967295, 0⟩

def SENS_FAIL1_FAILED : Fld := ⟨0x251c, 0, 20, 0, 1048575, 0⟩

def ID_DEVICE : Fld := ⟨0x0, 0, 16, 0, 65535, 25608⟩
def ID_FAMILY : Fld := ⟨0x0, 16, 8, 0, 255, 1⟩

def REV_REV_LO : Fld := ⟨0x4, 0, 8, 0, 255, 65⟩
def REV_REV_HI : Fld := ⟨0x4, 8, 8, 0, 255, 65⟩

def CFG_STAT_PATHCFG : Fld := ⟨0x8, 0, 2, 0, 3, 0⟩
def CFG_STAT_STANDALONE : Fld := ⟨0x8, 2, 1, 0, 1, 0⟩
def CFG_STAT_LOCKED : Fld := ⟨0x8, 3, 1, 0, 1, 0⟩
def CFG_STAT_TEST : Fld := ⟨0x8, 4, 1, 0, 1, 0⟩
def CFG_STAT_LEAD : Fld := ⟨0x8, 5, 1, 0, 1, 0⟩
def CFG_STAT_SPLIT : Fld := ⟨0x8, 6, 1, 0, 1, 0⟩
def CFG_STAT_H1_UNREACH : Fld := ⟨0x8, 7, 1, 0, 1, 0⟩
def CFG_STAT_SERVICE : Fld := ⟨0x8, 8, 1, 0, 1, 0⟩
def CFG_STAT_SHUTDOWN : Fld := ⟨0x8, 9, 1, 0, 1, 0⟩
def CFG_STAT_LOCK_ERR : Fld := ⟨0x8, 10, 1, 0, 1, 0⟩

def LOCK_LOCK : Fld := ⟨0xc, 0, 1, 0, 1, 0⟩

def TEST_TEST : Fld := ⟨0x10, 0, 1, 0, 1, 0⟩
def TEST_KEY : Fld := ⟨0x10, 16, 16, 0, 65535, 0⟩

def ALERT_STAT_PF : Fld := ⟨0x14, 0, 1, 0, 1, 0⟩
def ALERT_STAT_THERM : Fld := ⟨0x14, 1, 1, 0, 1, 0⟩
def ALERT_STAT_SHUTDOWN : Fld := ⟨0x14, 2, 1, 0, 1, 0⟩
def ALERT_STAT_RING_HALT : Fld := ⟨0x14, 3, 1, 0, 1, 0⟩
def ALERT_STAT_EVT_LOST : Fld := ⟨0x14, 4, 1, 0, 1, 0⟩
def ALERT_STAT_AER_UNCORR : Fld := ⟨0x14, 5, 1, 0, 1, 0⟩

def ALERT_MASK_MASK : Fld := ⟨0x18, 3, 3, 0, 7, 0⟩

def RING_BASE_LO_BASE (n : Nat) : Fld := ⟨0x100 + 0x20 * n, 0, 32, 0, 4294967295, 0⟩

def RING_BASE_HI_BASE (n : Nat) : Fld := ⟨0x104 + 0x20 * n, 0, 32, 0, 4294967295, 0⟩

def RING_CTL_ENABLE (n : Nat) : Fld := ⟨0x108 + 0x20 * n, 0, 1, 0, 1, 0⟩
def RING_CTL_SIZE_LOG2 (n : Nat) : Fld := ⟨0x108 + 0x20 * n, 1, 5, 6, 16, 6⟩
def RING_CTL_STATE (n : Nat) : Fld := ⟨0x108 + 0x20 * n, 6, 2, 0, 3, 0⟩
def RING_CTL_ERR (n : Nat) : Fld := ⟨0x108 + 0x20 * n, 8, 4, 0, 15, 0⟩

def RING_IDX_DEV_IDX (n : Nat) : Fld := ⟨0x10c + 0x20 * n, 0, 16, 0, 65535, 0⟩
def RING_IDX_HOST_IDX (n : Nat) : Fld := ⟨0x10c + 0x20 * n, 16, 16, 0, 65535, 0⟩

def STATUS_BASE_LO_BASE : Fld := ⟨0x20, 0, 32, 0, 4294967295, 0⟩

def STATUS_BASE_HI_BASE : Fld := ⟨0x24, 0, 32, 0, 4294967295, 0⟩

def MSIX_MAP_VEC : Fld := ⟨0x200, 0, 32, 0, 4294967295, 1985229328⟩

def IRQ_MOD_CPLN_COUNT : Fld := ⟨0x204, 0, 8, 0, 255, 0⟩
def IRQ_MOD_CPLN_TIME : Fld := ⟨0x204, 8, 8, 0, 255, 0⟩
def IRQ_MOD_EVT_COUNT : Fld := ⟨0x204, 16, 8, 0, 255, 0⟩
def IRQ_MOD_EVT_TIME : Fld := ⟨0x204, 24, 8, 0, 255, 0⟩

def VOTE_OWNER_DOM_H0 : Fld := ⟨0x28, 0, 16, 0, 65535, 10922⟩
def VOTE_OWNER_DOM_H1 : Fld := ⟨0x28, 16, 14, 0, 16383, 10922⟩

def AT_CFG_TSYNC_MODE : Fld := ⟨0x800, 0, 2, 0, 2, 0⟩
def AT_CFG_TSYNC_POL : Fld := ⟨0x800, 2, 1, 0, 1, 0⟩
def AT_CFG_SET_EN : Fld := ⟨0x800, 3, 1, 0, 1, 1⟩
def AT_CFG_TSYNC_OFFSET : Fld := ⟨0x800, 4, 12, 0, 4095, 0⟩
def AT_CFG_AON_DRIFT : Fld := ⟨0x800, 16, 8, 1, 255, 50⟩

def AT_STAT_UNC : Fld := ⟨0x804, 0, 16, 0, 65535, 65535⟩
def AT_STAT_LAST_SRC : Fld := ⟨0x804, 16, 2, 0, 3, 0⟩
def AT_STAT_SLEWING : Fld := ⟨0x804, 18, 1, 0, 1, 0⟩

def AT_NOW0_ATIME : Fld := ⟨0x808, 0, 32, 0, 4294967295, 0⟩

def AT_NOW1_TICK : Fld := ⟨0x80c, 0, 16, 0, 65535, 0⟩
def AT_NOW1_VALID : Fld := ⟨0x80c, 16, 1, 0, 1, 0⟩
def AT_NOW1_TX_HELD : Fld := ⟨0x80c, 17, 1, 0, 1, 1⟩
def AT_NOW1_MU : Fld := ⟨0x80c, 18, 2, 0, 3, 0⟩

def AT_RATIO_FRAC : Fld := ⟨0x810, 0, 18, 0, 262143, 0⟩
def AT_RATIO_INT : Fld := ⟨0x810, 18, 14, 0, 16383, 0⟩

def PM_CFG_DEPTH_H0 : Fld := ⟨0x820, 0, 2, 0, 3, 0⟩
def PM_CFG_DEPTH_H1 : Fld := ⟨0x820, 2, 2, 0, 3, 0⟩
def PM_CFG_WAKE_HOLD : Fld := ⟨0x820, 4, 8, 1, 255, 10⟩
def PM_CFG_TONE_EN : Fld := ⟨0x820, 12, 1, 0, 1, 1⟩

def PM_WAKEMASK_H0 : Fld := ⟨0x824, 0, 8, 0, 255, 255⟩
def PM_WAKEMASK_H1 : Fld := ⟨0x824, 8, 7, 0, 127, 127⟩

def PM_STAT0_STATE : Fld := ⟨0x828, 0, 24, 0, 16777215, 0⟩
def PM_STAT0_ENTRY : Fld := ⟨0x828, 24, 2, 0, 3, 0⟩

def PM_STAT1_STATE : Fld := ⟨0x82c, 0, 21, 0, 2097151, 0⟩
def PM_STAT1_ENTRY : Fld := ⟨0x82c, 24, 2, 0, 3, 0⟩

def VOTE_STAT0_VOTES : Fld := ⟨0x830, 0, 32, 0, 4294967295, 0⟩

def VOTE_STAT1_VOTES : Fld := ⟨0x834, 0, 28, 0, 268435455, 0⟩

def REL_CFG_CFG_SCRUB_EN : Fld := ⟨0x1000, 0, 1, 0, 1, 1⟩
def REL_CFG_SHADOW_EN : Fld := ⟨0x1000, 1, 1, 0, 1, 1⟩
def REL_CFG_CELL_EN : Fld := ⟨0x1000, 2, 1, 0, 1, 1⟩
def REL_CFG_REPLACE_REPEAT : Fld := ⟨0x1000, 8, 8, 0, 255, 60⟩

def REL_STAT_STATE : Fld := ⟨0x1004, 0, 2, 0, 3, 0⟩
def REL_STAT_SERVICE_N : Fld := ⟨0x1004, 2, 1, 0, 1, 0⟩
def REL_STAT_WHY : Fld := ⟨0x1004, 3, 3, 0, 7, 0⟩
def REL_STAT_COVERED : Fld := ⟨0x1004, 6, 1, 0, 1, 0⟩
def REL_STAT_DISPUTE : Fld := ⟨0x1004, 7, 1, 0, 1, 0⟩
def REL_STAT_HOLDER : Fld := ⟨0x1004, 8, 1, 0, 1, 0⟩
def REL_STAT_RETIRED : Fld := ⟨0x1004, 9, 7, 0, 127, 0⟩

def REL_EXHAUST_H0 : Fld := ⟨0x1008, 0, 16, 0, 65535, 0⟩
def REL_EXHAUST_H1 : Fld := ⟨0x1008, 16, 16, 0, 65535, 0⟩

def BATON_EPOCH_EPOCH : Fld := ⟨0x100c, 0, 32, 0, 4294967295, 1⟩

def D2D_STAT_SPARES_01 : Fld := ⟨0x1010, 0, 2, 0, 3, 2⟩
def D2D_STAT_SPARES_10 : Fld := ⟨0x1010, 2, 2, 0, 3, 2⟩
def D2D_STAT_STBY_CLK_01 : Fld := ⟨0x1010, 4, 1, 0, 1, 0⟩
def D2D_STAT_STBY_CLK_10 : Fld := ⟨0x1010, 5, 1, 0, 1, 0⟩
def D2D_STAT_LINK_UP : Fld := ⟨0x1010, 6, 1, 0, 1, 0⟩

def BOOT_STAT_PHASE : Fld := ⟨0x1400, 0, 3, 0, 7, 1⟩
def BOOT_STAT_READY : Fld := ⟨0x1400, 3, 1, 0, 1, 0⟩
def BOOT_STAT_CAUSE : Fld := ⟨0x1400, 4, 2, 0, 3, 0⟩
def BOOT_STAT_BO_RAIL : Fld := ⟨0x1400, 6, 4, 0, 15, 0⟩
def BOOT_STAT_FACTORY_OK : Fld := ⟨0x1400, 10, 1, 0, 1, 0⟩
def BOOT_STAT_NV_BUSY : Fld := ⟨0x1400, 11, 1, 0, 1, 0⟩
def BOOT_STAT_FW_FALLBACK : Fld := ⟨0x1400, 12, 1, 0, 1, 0⟩

def NV_CFG_NV_SCRUB_EN : Fld := ⟨0x1404, 0, 1, 0, 1, 1⟩

def C_RX_PKT (h : Nat) : Fld := ⟨0x1b00 + 0x40 * h, 0, 32, 0, 0xFFFFFFFF, 0⟩
def C_RX_HCRC (h : Nat) : Fld := ⟨0x1b04 + 0x40 * h, 0, 32, 0, 0xFFFFFFFF, 0⟩
def C_RX_PCRC (h : Nat) : Fld := ⟨0x1b08 + 0x40 * h, 0, 32, 0, 0xFFFFFFFF, 0⟩
def C_RX_FRAMING (h : Nat) : Fld := ⟨0x1b0c + 0x40 * h, 0, 32, 0, 0xFFFFFFFF, 0⟩
def C_RX_SEQ (h : Nat) : Fld := ⟨0x1b10 + 0x40 * h, 0, 32, 0, 0xFFFFFFFF, 0⟩
def C_RX_DUP (h : Nat) : Fld := ⟨0x1b14 + 0x40 * h, 0, 32, 0, 0xFFFFFFFF, 0⟩
def C_NAK_TX (h : Nat) : Fld := ⟨0x1b18 + 0x40 * h, 0, 32, 0, 0xFFFFFFFF, 0⟩
def C_NAK_RX (h : Nat) : Fld := ⟨0x1b1c + 0x40 * h, 0, 32, 0, 0xFFFFFFFF, 0⟩
def C_REPLAY (h : Nat) : Fld := ⟨0x1b20 + 0x40 * h, 0, 32, 0, 0xFFFFFFFF, 0⟩
def C_RSYNC_LOST (h : Nat) : Fld := ⟨0x1b24 + 0x40 * h, 0, 32, 0, 0xFFFFFFFF, 0⟩
def C_SEC_NOFLOW (h : Nat) : Fld := ⟨0x1b28 + 0x40 * h, 0, 32, 0, 0xFFFFFFFF, 0⟩
def C_SEC_BUFOVF (h : Nat) : Fld := ⟨0x1b2c + 0x40 * h, 0, 32, 0, 0xFFFFFFFF, 0⟩
def C_TXN_BUSY (h : Nat) : Fld := ⟨0x1b30 + 0x40 * h, 0, 32, 0, 0xFFFFFFFF, 0⟩
def C_BAD_TYPE (h : Nat) : Fld := ⟨0x1b34 + 0x40 * h, 0, 32, 0, 0xFFFFFFFF, 0⟩
def C_WAKE_REFUSED (h : Nat) : Fld := ⟨0x1b38 + 0x40 * h, 0, 32, 0, 0xFFFFFFFF, 0⟩
def C_BF_SAT (h : Nat) : Fld := ⟨0x1c40 + 0x40 * h, 0, 32, 0, 0xFFFFFFFF, 0⟩
def C_IFFT_SAT (h : Nat) : Fld := ⟨0x1c44 + 0x40 * h, 0, 32, 0, 0xFFFFFFFF, 0⟩
def C_SUM_SAT (h : Nat) : Fld := ⟨0x1c48 + 0x40 * h, 0, 32, 0, 0xFFFFFFFF, 0⟩
def C_CFR_MISS (h : Nat) : Fld := ⟨0x1c4c + 0x40 * h, 0, 32, 0, 0xFFFFFFFF, 0⟩
def C_DPD_CLIP (h : Nat) : Fld := ⟨0x1c50 + 0x40 * h, 0, 32, 0, 0xFFFFFFFF, 0⟩
def C_SYM_UNDERRUN (h : Nat) : Fld := ⟨0x1c54 + 0x40 * h, 0, 32, 0, 0xFFFFFFFF, 0⟩
def C_SYM_MUTED (h : Nat) : Fld := ⟨0x1c58 + 0x40 * h, 0, 32, 0, 0xFFFFFFFF, 0⟩
def C_DL_IN_RX (h : Nat) : Fld := ⟨0x1c5c + 0x40 * h, 0, 32, 0, 0xFFFFFFFF, 0⟩
def C_DL_PARITY (h : Nat) : Fld := ⟨0x1c60 + 0x40 * h, 0, 32, 0, 0xFFFFFFFF, 0⟩
def C_ADC_OVL (h : Nat) : Fld := ⟨0x1d40 + 0x40 * h, 0, 32, 0, 0xFFFFFFFF, 0⟩
def C_SPRINT (h : Nat) : Fld := ⟨0x1d44 + 0x40 * h, 0, 32, 0, 0xFFFFFFFF, 0⟩
def C_SPRINT_SYM (h : Nat) : Fld := ⟨0x1d48 + 0x40 * h, 0, 32, 0, 0xFFFFFFFF, 0⟩
def C_FILT_SAT (h : Nat) : Fld := ⟨0x1d4c + 0x40 * h, 0, 32, 0, 0xFFFFFFFF, 0⟩
def C_FFT_SAT (h : Nat) : Fld := ⟨0x1d50 + 0x40 * h, 0, 32, 0, 0xFFFFFFFF, 0⟩
def C_COMB_SAT (h : Nat) : Fld := ⟨0x1d54 + 0x40 * h, 0, 32, 0, 0xFFFFFFFF, 0⟩
def C_UL_PARITY (h : Nat) : Fld := ⟨0x1d58 + 0x40 * h, 0, 32, 0, 0xFFFFFFFF, 0⟩
def C_UL_GAP (h : Nat) : Fld := ⟨0x1d5c + 0x40 * h, 0, 32, 0, 0xFFFFFFFF, 0⟩
def C_UL_IN_TX (h : Nat) : Fld := ⟨0x1d60 + 0x40 * h, 0, 32, 0, 0xFFFFFFFF, 0⟩
def C_UL_PARTIAL (h : Nat) : Fld := ⟨0x1d64 + 0x40 * h, 0, 32, 0, 0xFFFFFFFF, 0⟩
def C_BEAM_ZERO (h : Nat) : Fld := ⟨0x1e40 + 0x40 * h, 0, 32, 0, 0xFFFFFFFF, 0⟩
def C_BEAM_PARITY (h : Nat) : Fld := ⟨0x1e44 + 0x40 * h, 0, 32, 0, 0xFFFFFFFF, 0⟩
def C_ROW_RETIRED (h : Nat) : Fld := ⟨0x1e48 + 0x40 * h, 0, 32, 0, 0xFFFFFFFF, 0⟩
def C_SOLVE_DONE (h : Nat) : Fld := ⟨0x1e4c + 0x40 * h, 0, 32, 0, 0xFFFFFFFF, 0⟩
def C_SOLVE_LATE (h : Nat) : Fld := ⟨0x1e50 + 0x40 * h, 0, 32, 0, 0xFFFFFFFF, 0⟩
def C_NO_SOUND (h : Nat) : Fld := ⟨0x1e54 + 0x40 * h, 0, 32, 0, 0xFFFFFFFF, 0⟩
def C_EST_HELD (h : Nat) : Fld := ⟨0x1e58 + 0x40 * h, 0, 32, 0, 0xFFFFFFFF, 0⟩
def C_EST_DROP (h : Nat) : Fld := ⟨0x1e5c + 0x40 * h, 0, 32, 0, 0xFFFFFFFF, 0⟩
def C_ILL_GROUP (h : Nat) : Fld := ⟨0x1e60 + 0x40 * h, 0, 32, 0, 0xFFFFFFFF, 0⟩
def C_SOLVER_PARITY (h : Nat) : Fld := ⟨0x1e64 + 0x40 * h, 0, 32, 0, 0xFFFFFFFF, 0⟩
def C_MODE2_ZERO (h : Nat) : Fld := ⟨0x1e68 + 0x40 * h, 0, 32, 0, 0xFFFFFFFF, 0⟩
def C_DPD_EST (h : Nat) : Fld := ⟨0x1f40 + 0x40 * h, 0, 32, 0, 0xFFFFFFFF, 0⟩
def C_DPD_LATE (h : Nat) : Fld := ⟨0x1f44 + 0x40 * h, 0, 32, 0, 0xFFFFFFFF, 0⟩
def C_DPD_FROZEN (h : Nat) : Fld := ⟨0x1f48 + 0x40 * h, 0, 32, 0, 0xFFFFFFFF, 0⟩
def C_DPD_COMMIT (h : Nat) : Fld := ⟨0x1f4c + 0x40 * h, 0, 32, 0, 0xFFFFFFFF, 0⟩
def C_DPD_NOCHANGE (h : Nat) : Fld := ⟨0x1f50 + 0x40 * h, 0, 32, 0, 0xFFFFFFFF, 0⟩
def C_DPD_REVERT (h : Nat) : Fld := ⟨0x1f54 + 0x40 * h, 0, 32, 0, 0xFFFFFFFF, 0⟩
def C_DPD_DISCARD (h : Nat) : Fld := ⟨0x1f58 + 0x40 * h, 0, 32, 0, 0xFFFFFFFF, 0⟩
def C_NEIGH_SKEW (h : Nat) : Fld := ⟨0x1f5c + 0x40 * h, 0, 32, 0, 0xFFFFFFFF, 0⟩
def C_DPD_HALT (h : Nat) : Fld := ⟨0x1f60 + 0x40 * h, 0, 32, 0, 0xFFFFFFFF, 0⟩
def C_HEAT_FG (h : Nat) : Fld := ⟨0x2040 + 0x40 * h, 0, 32, 0, 0xFFFFFFFF, 0⟩
def C_HEAT_SHORT (h : Nat) : Fld := ⟨0x2044 + 0x40 * h, 0, 32, 0, 0xFFFFFFFF, 0⟩
def C_BG_MEAS (h : Nat) : Fld := ⟨0x2048 + 0x40 * h, 0, 32, 0, 0xFFFFFFFF, 0⟩
def C_BG_LATE (h : Nat) : Fld := ⟨0x204c + 0x40 * h, 0, 32, 0, 0xFFFFFFFF, 0⟩
def C_MEAS_DISCARD (h : Nat) : Fld := ⟨0x2050 + 0x40 * h, 0, 32, 0, 0xFFFFFFFF, 0⟩
def C_STEP_CLAMP (h : Nat) : Fld := ⟨0x2054 + 0x40 * h, 0, 32, 0, 0xFFFFFFFF, 0⟩
def C_PATH_SUSPECT (h : Nat) : Fld := ⟨0x2058 + 0x40 * h, 0, 32, 0, 0xFFFFFFFF, 0⟩
def C_CAL_RANGE (h : Nat) : Fld := ⟨0x205c + 0x40 * h, 0, 32, 0, 0xFFFFFFFF, 0⟩
def C_TIE_FAIL (h : Nat) : Fld := ⟨0x2060 + 0x40 * h, 0, 32, 0, 0xFFFFFFFF, 0⟩
def C_HEAT_RESTART (h : Nat) : Fld := ⟨0x2064 + 0x40 * h, 0, 32, 0, 0xFFFFFFFF, 0⟩
def C_REF_LOSS (h : Nat) : Fld := ⟨0x2180 + 0x40 * h, 0, 32, 0, 0xFFFFFFFF, 0⟩
def C_REF_SLEWS (h : Nat) : Fld := ⟨0x2184 + 0x40 * h, 0, 32, 0, 0xFFFFFFFF, 0⟩
def C_REF_STEPS (h : Nat) : Fld := ⟨0x2188 + 0x40 * h, 0, 32, 0, 0xFFFFFFFF, 0⟩
def C_REF_EXPIRE (h : Nat) : Fld := ⟨0x218c + 0x40 * h, 0, 32, 0, 0xFFFFFFFF, 0⟩
def C_LO_UNLOCKS (h : Nat) : Fld := ⟨0x2190 + 0x40 * h, 0, 32, 0, 0xFFFFFFFF, 0⟩
def C_LO_SEARCH (h : Nat) : Fld := ⟨0x2194 + 0x40 * h, 0, 32, 0, 0xFFFFFFFF, 0⟩
def C_LO_FAST (h : Nat) : Fld := ⟨0x2198 + 0x40 * h, 0, 32, 0, 0xFFFFFFFF, 0⟩
def C_HOP_DEFERRED (h : Nat) : Fld := ⟨0x219c + 0x40 * h, 0, 32, 0, 0xFFFFFFFF, 0⟩
def C_GUARD_SWALLOW (h : Nat) : Fld := ⟨0x21a0 + 0x40 * h, 0, 32, 0, 0xFFFFFFFF, 0⟩
def C_CLK_MON (h : Nat) : Fld := ⟨0x21a4 + 0x40 * h, 0, 32, 0, 0xFFFFFFFF, 0⟩
def C_FALSE_START (h : Nat) : Fld := ⟨0x2240 + 0x40 * h, 0, 32, 0, 0xFFFFFFFF, 0⟩
def C_LINE_HOLD (h : Nat) : Fld := ⟨0x2244 + 0x40 * h, 0, 32, 0, 0xFFFFFFFF, 0⟩
def C_RX_TRIM (h : Nat) : Fld := ⟨0x2248 + 0x40 * h, 0, 32, 0, 0xFFFFFFFF, 0⟩
def C_RFFE_LATE (h : Nat) : Fld := ⟨0x224c + 0x40 * h, 0, 32, 0, 0xFFFFFFFF, 0⟩
def C_RFFE_PARITY (h : Nat) : Fld := ⟨0x2250 + 0x40 * h, 0, 32, 0, 0xFFFFFFFF, 0⟩
def C_RFFE_VERIFY (h : Nat) : Fld := ⟨0x2254 + 0x40 * h, 0, 32, 0, 0xFFFFFFFF, 0⟩
def C_RFFE_TMO (h : Nat) : Fld := ⟨0x2258 + 0x40 * h, 0, 32, 0, 0xFFFFFFFF, 0⟩
def C_MM_SCANS (h : Nat) : Fld := ⟨0x225c + 0x40 * h, 0, 32, 0, 0xFFFFFFFF, 0⟩
def C_MM_SKIP (h : Nat) : Fld := ⟨0x2260 + 0x40 * h, 0, 32, 0, 0xFFFFFFFF, 0⟩
def C_MM_LOW (h : Nat) : Fld := ⟨0x2264 + 0x40 * h, 0, 32, 0, 0xFFFFFFFF, 0⟩
def C_TASKS (h : Nat) : Fld := ⟨0x2380 + 0x40 * h, 0, 32, 0, 0xFFFFFFFF, 0⟩
def C_PREEMPT (h : Nat) : Fld := ⟨0x2384 + 0x40 * h, 0, 32, 0, 0xFFFFFFFF, 0⟩
def C_PACER_BEHIND (h : Nat) : Fld := ⟨0x2388 + 0x40 * h, 0, 32, 0, 0xFFFFFFFF, 0⟩
def C_SHADOW_TASKS (h : Nat) : Fld := ⟨0x238c + 0x40 * h, 0, 32, 0, 0xFFFFFFFF, 0⟩
def C_SHADOW_MISMATCH (h : Nat) : Fld := ⟨0x2390 + 0x40 * h, 0, 32, 0, 0xFFFFFFFF, 0⟩
def C_PROG_PARITY (h : Nat) : Fld := ⟨0x2394 + 0x40 * h, 0, 32, 0, 0xFFFFFFFF, 0⟩
def C_DATA_PARITY (h : Nat) : Fld := ⟨0x2398 + 0x40 * h, 0, 32, 0, 0xFFFFFFFF, 0⟩
def C_COMMIT_PAR (h : Nat) : Fld := ⟨0x239c + 0x40 * h, 0, 32, 0, 0xFFFFFFFF, 0⟩
def C_USER_ABORT (h : Nat) : Fld := ⟨0x23a0 + 0x40 * h, 0, 32, 0, 0xFFFFFFFF, 0⟩
def C_GOV_COMMITS (h : Nat) : Fld := ⟨0x23a4 + 0x40 * h, 0, 32, 0, 0xFFFFFFFF, 0⟩
def C_RECORDS (h : Nat) : Fld := ⟨0x2440 + 0x40 * h, 0, 32, 0, 0xFFFFFFFF, 0⟩
def C_SHORT_REC (h : Nat) : Fld := ⟨0x2444 + 0x40 * h, 0, 32, 0, 0xFFFFFFFF, 0⟩
def C_TRIG_MISSED (h : Nat) : Fld := ⟨0x2448 + 0x40 * h, 0, 32, 0, 0xFFFFFFFF, 0⟩
def C_ARM_REFUSED (h : Nat) : Fld := ⟨0x244c + 0x40 * h, 0, 32, 0, 0xFFFFFFFF, 0⟩
def C_SHED_DROP (h : Nat) : Fld := ⟨0x2450 + 0x40 * h, 0, 32, 0, 0xFFFFFFFF, 0⟩
def C_SVC_CAPTURES (h : Nat) : Fld := ⟨0x2454 + 0x40 * h, 0, 32, 0, 0xFFFFFFFF, 0⟩
def C_SVC_WAIT (h : Nat) : Fld := ⟨0x2458 + 0x40 * h, 0, 32, 0, 0xFFFFFFFF, 0⟩
def C_CAP_PARITY (h : Nat) : Fld := ⟨0x245c + 0x40 * h, 0, 32, 0, 0xFFFFFFFF, 0⟩
def C_HK_ROUNDS (h : Nat) : Fld := ⟨0x2540 + 0x40 * h, 0, 32, 0, 0xFFFFFFFF, 0⟩
def C_HK_LATE (h : Nat) : Fld := ⟨0x2544 + 0x40 * h, 0, 32, 0, 0xFFFFFFFF, 0⟩
def C_MON_OVER (h : Nat) : Fld := ⟨0x2548 + 0x40 * h, 0, 32, 0, 0xFFFFFFFF, 0⟩
def C_INJ_DONE (h : Nat) : Fld := ⟨0x254c + 0x40 * h, 0, 32, 0, 0xFFFFFFFF, 0⟩
def C_INJ_LATE (h : Nat) : Fld := ⟨0x2550 + 0x40 * h, 0, 32, 0, 0xFFFFFFFF, 0⟩
def C_MC_RETIRED (h : Nat) : Fld := ⟨0x2554 + 0x40 * h, 0, 32, 0, 0xFFFFFFFF, 0⟩
def C_RAIL_WARN (h : Nat) : Fld := ⟨0x2558 + 0x40 * h, 0, 32, 0, 0xFFFFFFFF, 0⟩
def C_PF_ASSERT (h : Nat) : Fld := ⟨0x255c + 0x40 * h, 0, 32, 0, 0xFFFFFFFF, 0⟩
def C_BIAS_TWIN (h : Nat) : Fld := ⟨0x2560 + 0x40 * h, 0, 32, 0, 0xFFFFFFFF, 0⟩
def C_BIAS_FAULT (h : Nat) : Fld := ⟨0x2564 + 0x40 * h, 0, 32, 0, 0xFFFFFFFF, 0⟩
def C_SENS_FAIL (h : Nat) : Fld := ⟨0x2568 + 0x40 * h, 0, 32, 0, 0xFFFFFFFF, 0⟩
def C_THROTTLE_UP (h : Nat) : Fld := ⟨0x256c + 0x40 * h, 0, 32, 0, 0xFFFFFFFF, 0⟩
def C_ENTRIES (h : Nat) : Fld := ⟨0x880 + 0x40 * h, 0, 32, 0, 0xFFFFFFFF, 0⟩
def C_ABORTS (h : Nat) : Fld := ⟨0x884 + 0x40 * h, 0, 32, 0, 0xFFFFFFFF, 0⟩
def C_WAKES (h : Nat) : Fld := ⟨0x888 + 0x40 * h, 0, 32, 0, 0xFFFFFFFF, 0⟩
def C_WAKE_LATE (h : Nat) : Fld := ⟨0x88c + 0x40 * h, 0, 32, 0, 0xFFFFFFFF, 0⟩
def C_REBUILDS (h : Nat) : Fld := ⟨0x890 + 0x40 * h, 0, 32, 0, 0xFFFFFFFF, 0⟩
def C_TX_HOLDS (h : Nat) : Fld := ⟨0x894 + 0x40 * h, 0, 32, 0, 0xFFFFFFFF, 0⟩
def C_SET_APPLIED (h : Nat) : Fld := ⟨0x898 + 0x40 * h, 0, 32, 0, 0xFFFFFFFF, 0⟩
def C_SET_IGNORED (h : Nat) : Fld := ⟨0x89c + 0x40 * h, 0, 32, 0, 0xFFFFFFFF, 0⟩
def C_TSYNC_APPLIED (h : Nat) : Fld := ⟨0x8a0 + 0x40 * h, 0, 32, 0, 0xFFFFFFFF, 0⟩
def C_TSYNC_REJECTED (h : Nat) : Fld := ⟨0x8a4 + 0x40 * h, 0, 32, 0, 0xFFFFFFFF, 0⟩
def C_AT_MISMATCH (h : Nat) : Fld := ⟨0x8a8 + 0x40 * h, 0, 32, 0, 0xFFFFFFFF, 0⟩
def C_CFG_FIXED (h : Nat) : Fld := ⟨0x1040 + 0x40 * h, 0, 32, 0, 0xFFFFFFFF, 0⟩
def C_CFG_CORRUPT (h : Nat) : Fld := ⟨0x1044 + 0x40 * h, 0, 32, 0, 0xFFFFFFFF, 0⟩
def C_CFG_SCRUB_LATE (h : Nat) : Fld := ⟨0x1048 + 0x40 * h, 0, 32, 0, 0xFFFFFFFF, 0⟩
def C_MEM_PARITY (h : Nat) : Fld := ⟨0x104c + 0x40 * h, 0, 32, 0, 0xFFFFFFFF, 0⟩
def C_MEM_FENCE (h : Nat) : Fld := ⟨0x1050 + 0x40 * h, 0, 32, 0, 0xFFFFFFFF, 0⟩
def C_SLICE_MISMATCH (h : Nat) : Fld := ⟨0x1054 + 0x40 * h, 0, 32, 0, 0xFFFFFFFF, 0⟩
def C_SLICE_RELAY (h : Nat) : Fld := ⟨0x1058 + 0x40 * h, 0, 32, 0, 0xFFFFFFFF, 0⟩
def C_DAC_CELL_SWAP (h : Nat) : Fld := ⟨0x105c + 0x40 * h, 0, 32, 0, 0xFFFFFFFF, 0⟩
def C_D2D_REPLAY (h : Nat) : Fld := ⟨0x1060 + 0x40 * h, 0, 32, 0, 0xFFFFFFFF, 0⟩
def C_BATON_CONFLICT (h : Nat) : Fld := ⟨0x1064 + 0x40 * h, 0, 32, 0, 0xFFFFFFFF, 0⟩
def C_SUP_RESTART (h : Nat) : Fld := ⟨0x1068 + 0x40 * h, 0, 32, 0, 0xFFFFFFFF, 0⟩
def C_SPARE_IN (h : Nat) : Fld := ⟨0x106c + 0x40 * h, 0, 32, 0, 0xFFFFFFFF, 0⟩
def C_NV_WRITES (h : Nat) : Fld := ⟨0x1440 + 0x40 * h, 0, 32, 0, 0xFFFFFFFF, 0⟩
def C_NV_CRC_BAD (h : Nat) : Fld := ⟨0x1444 + 0x40 * h, 0, 32, 0, 0xFFFFFFFF, 0⟩
def C_NV_REPAIRED (h : Nat) : Fld := ⟨0x1448 + 0x40 * h, 0, 32, 0, 0xFFFFFFFF, 0⟩
def C_NV_CONFLICT (h : Nat) : Fld := ⟨0x144c + 0x40 * h, 0, 32, 0, 0xFFFFFFFF, 0⟩
def C_NV_SCRUB_LATE (h : Nat) : Fld := ⟨0x1450 + 0x40 * h, 0, 32, 0, 0xFFFFFFFF, 0⟩
def C_RWL_IGNORED : Fld := ⟨0x280, 0, 32, 0, 0xFFFFFFFF, 0⟩
def C_BAD_ACCESS : Fld := ⟨0x284, 0, 32, 0, 0xFFFFFFFF, 0⟩
def C_DB_IGNORED : Fld := ⟨0x288, 0, 32, 0, 0xFFFFFFFF, 0⟩
def C_RING_HALTS : Fld := ⟨0x28c, 0, 32, 0, 0xFFFFFFFF, 0⟩
def C_EVT_LOST : Fld := ⟨0x290, 0, 32, 0, 0xFFFFFFFF, 0⟩
def C_CPL_DISCARD : Fld := ⟨0x294, 0, 32, 0, 0xFFFFFFFF, 0⟩
def MSIX_MASK (n : Nat) : Fld := ⟨0x300C + 16 * n, 0, 1, 0, 1, 1⟩
def MSIX_PBA : Fld := ⟨0x3800, 0, 16, 0, 65535, 0⟩

end Rg

/-! Event codes (Table 120 and the tables of the chapters it names). -/

namespace Ev
def RWL_IGNORED : Nat := 0x0280
def BAD_ACCESS : Nat := 0x0284
def DB_IGNORED : Nat := 0x0288
def RING_HALTS : Nat := 0x028c
def EVT_LOST : Nat := 0x0290
def CPL_DISCARD : Nat := 0x0294
def SU_RING_CMDN_BASE_LO : Nat := 0x0100
def _HI : Nat := 0x0104
def _CTL : Nat := 0x0108
def SU_RING_CPL_BASE_LO : Nat := 0x0140
def SU_RING_EVT_BASE_LO : Nat := 0x0160
def LINK_DEGRADED : Nat := 0x0101
def LINK_RESTORED : Nat := 0x0102
def LANE_MARGINAL : Nat := 0x0103
def LANE_RETIRED : Nat := 0x0104
def LINK_PEER_TIMEOUT : Nat := 0x0105
def LINK_RESYNC : Nat := 0x0106
def DL_LATE : Nat := 0x0107
def UL_LATE : Nat := 0x0108
def TX_UNDERRUN : Nat := 0x0201
def DL_SATURATE : Nat := 0x0202
def UL_OVERLOAD : Nat := 0x0203
def UL_SATURATE : Nat := 0x0204
def ADC_SLICE_RETIRED : Nat := 0x0205
def BEAM_ROW_FAULT : Nat := 0x0301
def BEAM_UNUSABLE : Nat := 0x0302
def BEAM_ZERO_SEEN : Nat := 0x0303
def SOLVER_GOV : Nat := 0x0304
def SOLVER_STALE : Nat := 0x0305
def PATH_RETIRED : Nat := 0x0306
def DPD_REVERT : Nat := 0x0401
def DPD_HALTED : Nat := 0x0402
def DPD_GOV : Nat := 0x0403
def NEIGHBOUR_SKEW : Nat := 0x0404
def ORX_SHARED : Nat := 0x0405
def PATH_SUSPECT : Nat := 0x0501
def CAL_RANGE : Nat := 0x0502
def CAL_DRIFT : Nat := 0x0503
def CAL_STALE : Nat := 0x0504
def TIE_LOST : Nat := 0x0505
def REF_LOST : Nat := 0x0601
def REF_SLEW : Nat := 0x0602
def TIME_STEP : Nat := 0x0603
def REF_EXPIRED : Nat := 0x0604
def LO_UNLOCK : Nat := 0x0605
def LO_RELAY : Nat := 0x0606
def CLK_GUARD : Nat := 0x0607
def AON_XTAL_FAIL : Nat := 0x0608
def FALSE_START : Nat := 0x0701
def RFFE_ERR : Nat := 0x0702
def AERIAL_MISMATCH : Nat := 0x0703
def AERIAL_FAULT : Nat := 0x0704
def PACER_BEHIND : Nat := 0x0801
def PACER_REGAINED : Nat := 0x0802
def SHADOW_MISMATCH : Nat := 0x0803
def ENGINE_RELAY : Nat := 0x0804
def ENGINE_SHARED : Nat := 0x0805
def USER_EVENT : Nat := 0x0806
def USER_ABORT : Nat := 0x0807
def SLOT_DISABLED : Nat := 0x0808
def IMAGE_INSTALLED : Nat := 0x0809
def CAPTURE_MISSED : Nat := 0x0901
def MON_OVER : Nat := 0x0a01
def MON_REF_FAULT : Nat := 0x0a02
def MC_RETIRED : Nat := 0x0a03
def RAIL_WARN : Nat := 0x0a04
def RAIL_TRIP : Nat := 0x0a05
def PWR_WARN : Nat := 0x0a06
def PWR_RESTORED : Nat := 0x0a07
def BIAS_BOOT_FAIL : Nat := 0x0a08
def BIAS_TWIN : Nat := 0x0a09
def BIAS_OPEN : Nat := 0x0a0a
def BIAS_COMPLIANCE : Nat := 0x0a0b
def SENSOR_FAIL : Nat := 0x0a0c
def THROTTLE : Nat := 0x0a0d
def REDUCE_LOAD : Nat := 0x0a0e
def THERMAL_SHUTDOWN : Nat := 0x0a0f
def RING_HALTED : Nat := 0x0b01
def EVENTS_LOST : Nat := 0x0b02
def POWER_STATE : Nat := 0x0d01
def SLEEP_ABORTED : Nat := 0x0d02
def WAKE : Nat := 0x0d03
def TIME_REBUILT : Nat := 0x0d04
def TIME_SYNC : Nat := 0x0d05
def TIME_INVALID : Nat := 0x0d06
def WAKE_LATE : Nat := 0x0d07
def TSYNC_REJECT : Nat := 0x0d08
def AT_MISMATCH : Nat := 0x0d09
def SLICE_RELAY : Nat := 0x0c01
def SLICE_MISMATCH : Nat := 0x0c02
def DAC_CELL_SWAP : Nat := 0x0c03
def D2D_RELAY : Nat := 0x0c04
def CLASS_EXHAUSTED : Nat := 0x0c05
def REPLACE_REQUEST : Nat := 0x0c06
def SPLIT_MODE : Nat := 0x0c07
def BATON_MOVED : Nat := 0x0c08
def BATON_CONFLICT : Nat := 0x0c09
def CFG_CORRUPT : Nat := 0x0c0a
def MEM_PARITY : Nat := 0x0c0b
def MEM_FENCE : Nat := 0x0c0c
def CLK_FAIL : Nat := 0x0c0d
def SUP_RESTART : Nat := 0x0c0e
def REL_STATE : Nat := 0x0c0f
def BOOT_DONE : Nat := 0x0e01
def NV_CONFLICT : Nat := 0x0e02
def NV_REPAIRED : Nat := 0x0e03
def NV_WRITE_FAIL : Nat := 0x0e04
def IMAGE_FALLBACK : Nat := 0x0e05
def FACTORY_BAD : Nat := 0x0e06
end Ev

/-! Status codes of a completion (Table 117). -/

namespace St
def OK : Nat := 0x00
def BAD_OP : Nat := 0x01
def BAD_PARAM : Nat := 0x02
def OWNER : Nat := 0x03
def BUSY : Nat := 0x04
def IN_USE : Nat := 0x05
def TOO_LATE : Nat := 0x06
def NOT_READY : Nat := 0x07
def CAPACITY : Nat := 0x08
def UNUSABLE : Nat := 0x09
def BAD_IMAGE : Nat := 0x0a
def HALF_DOWN : Nat := 0x0b
def LAYER_CONFLICT : Nat := 0x0c
def STREAMS : Nat := 0x0d
def RATE_LOW : Nat := 0x0e
def LEN_RANGE : Nat := 0x0f
def HOST_READ : Nat := 0x10
def RFFE_PARITY : Nat := 0x11
def ALREADY : Nat := 0x12
end St

/-- Part 0 of the register map. -/
def regRows0 : List RegRow :=
  [ ⟨0x1a80, 0x0, 1, [⟨0, 2, .rwl, 0⟩, ⟨2, 3, .rwl, 4⟩, ⟨5, 3, .rwl, 4⟩, ⟨8, 1, .rwl, 1⟩, ⟨9, 1, .rwl, 1⟩, ⟨10, 1, .rwl, 1⟩, ⟨11, 1, .rwl, 1⟩, ⟨12, 3, .rwl, 3⟩, ⟨16, 8, .rwl, 50⟩]⟩,
    ⟨0x1800, 0x40, 10, [⟨0, 1, .rwl, 1⟩, ⟨1, 1, .rwl, 0⟩, ⟨2, 1, .rwl, 0⟩, ⟨3, 5, .rwl, 4⟩, ⟨8, 7, .rwl, 52⟩, ⟨15, 5, .rwl, 8⟩, ⟨20, 4, .rwl, 0⟩, ⟨24, 1, .rwl, 0⟩]⟩,
    ⟨0x1804, 0x40, 10, [⟨0, 1, .w1s, 0⟩, ⟨1, 1, .rwl, 0⟩, ⟨2, 4, .rwl, 0⟩, ⟨6, 2, .rwl, 0⟩, ⟨8, 1, .rwl, 0⟩]⟩,
    ⟨0x1808, 0x40, 10, [⟨0, 4, .ro, 0⟩, ⟨4, 4, .ro, 15⟩, ⟨8, 1, .ro, 0⟩, ⟨9, 1, .ro, 0⟩, ⟨10, 1, .ro, 0⟩, ⟨11, 1, .ro, 0⟩, ⟨12, 1, .ro, 0⟩, ⟨13, 1, .ro, 0⟩, ⟨14, 3, .ro, 0⟩]⟩,
    ⟨0x180c, 0x40, 10, [⟨0, 5, .ro, 0⟩, ⟨5, 7, .ro, 0⟩, ⟨12, 5, .ro, 0⟩, ⟨17, 7, .ro, 0⟩, ⟨24, 8, .ro, 0⟩]⟩,
    ⟨0x1810, 0x40, 10, [⟨0, 1, .w1c, 0⟩, ⟨1, 1, .w1c, 0⟩, ⟨2, 1, .w1c, 0⟩, ⟨3, 1, .w1c, 0⟩, ⟨4, 1, .w1c, 0⟩, ⟨5, 1, .w1c, 0⟩, ⟨6, 1, .w1c, 0⟩, ⟨7, 1, .w1c, 0⟩, ⟨8, 1, .w1c, 0⟩, ⟨9, 1, .w1c, 0⟩, ⟨10, 1, .w1c, 0⟩, ⟨11, 1, .w1c, 0⟩]⟩,
    ⟨0x1814, 0x40, 10, [⟨0, 32, .rc, 0⟩]⟩,
    ⟨0x1818, 0x40, 10, [⟨0, 32, .rc, 0⟩]⟩,
    ⟨0x181c, 0x40, 10, [⟨0, 32, .rc, 0⟩]⟩,
    ⟨0x1820, 0x40, 10, [⟨0, 16, .rc, 0⟩, ⟨16, 16, .rc, 0⟩]⟩,
    ⟨0x1a84, 0x0, 1, [⟨0, 8, .rwl, 20⟩, ⟨8, 4, .rwl, 8⟩, ⟨12, 1, .rwl, 1⟩, ⟨16, 8, .rwl, 10⟩]⟩,
    ⟨0x1c00, 0x0, 1, [⟨0, 1, .rwl, 1⟩, ⟨1, 1, .rwl, 1⟩, ⟨4, 8, .rwl, 8⟩]⟩,
    ⟨0x1d00, 0x0, 1, [⟨0, 1, .rwl, 1⟩, ⟨1, 1, .rw, 0⟩, ⟨2, 5, .rwl, 16⟩, ⟨7, 1, .rwl, 1⟩, ⟨8, 8, .rwl, 4⟩, ⟨16, 1, .rwl, 1⟩, ⟨17, 1, .rwl, 1⟩]⟩,
    ⟨0x1d04, 0x0, 1, [⟨0, 1, .rwl, 1⟩, ⟨1, 1, .rwl, 1⟩, ⟨2, 1, .rwl, 0⟩, ⟨4, 4, .rwl, 9⟩, ⟨8, 8, .rwl, 56⟩, ⟨16, 4, .rwl, 6⟩, ⟨20, 4, .rwl, 3⟩, ⟨24, 5, .rwl, 30⟩]⟩,
    ⟨0x1d08, 0x0, 1, [⟨0, 32, .w1c, 0⟩]⟩,
    ⟨0x1d0c, 0x0, 1, [⟨0, 32, .w1c, 0⟩]⟩,
    ⟨0x1e00, 0x0, 1, [⟨0, 1, .rwl, 1⟩, ⟨1, 1, .rwl, 1⟩, ⟨2, 2, .rwl, 0⟩]⟩,
    ⟨0x1e04, 0x0, 1, [⟨0, 8, .ro, 128⟩, ⟨8, 8, .ro, 128⟩, ⟨16, 7, .ro, 64⟩, ⟨23, 7, .ro, 64⟩]⟩,
    ⟨0x1f00, 0x0, 1, [⟨0, 1, .rwl, 1⟩, ⟨1, 1, .rwl, 1⟩, ⟨8, 8, .rwl, 40⟩, ⟨16, 6, .rwl, 20⟩, ⟨22, 6, .rwl, 10⟩, ⟨28, 4, .rwl, 4⟩]⟩,
    ⟨0x1f04, 0x0, 1, [⟨0, 8, .rwl, 80⟩, ⟨8, 8, .rwl, 24⟩, ⟨16, 4, .rwl, 4⟩, ⟨20, 4, .rwl, 2⟩, ⟨24, 8, .rwl, 10⟩]⟩,
    ⟨0x2000, 0x0, 1, [⟨0, 1, .rwl, 1⟩, ⟨1, 1, .rwl, 1⟩, ⟨2, 1, .rwl, 1⟩, ⟨3, 1, .rwl, 1⟩, ⟨4, 3, .rwl, 2⟩, ⟨8, 8, .rwl, 12⟩, ⟨16, 8, .rwl, 20⟩, ⟨24, 6, .rwl, 20⟩]⟩,
    ⟨0x2004, 0x0, 1, [⟨0, 8, .rwl, 60⟩, ⟨8, 8, .rwl, 12⟩, ⟨16, 8, .rwl, 5⟩]⟩,
    ⟨0x2008, 0x0, 1, [⟨0, 8, .ro, 0⟩, ⟨8, 1, .ro, 0⟩, ⟨9, 1, .ro, 0⟩, ⟨10, 1, .ro, 0⟩]⟩,
    ⟨0x2100, 0x0, 1, [⟨0, 2, .rwl, 0⟩, ⟨2, 3, .rwl, 2⟩, ⟨5, 1, .rwl, 0⟩, ⟨6, 2, .rwl, 2⟩, ⟨8, 7, .rwl, 5⟩, ⟨16, 8, .rwl, 10⟩]⟩ ]

/-- Part 1 of the register map. -/
def regRows1 : List RegRow :=
  [ ⟨0x2104, 0x0, 1, [⟨0, 3, .ro, 0⟩, ⟨3, 2, .ro, 0⟩, ⟨5, 1, .ro, 0⟩, ⟨6, 1, .ro, 1⟩, ⟨7, 1, .ro, 0⟩, ⟨8, 1, .ro, 0⟩, ⟨16, 16, .ro, 0⟩]⟩,
    ⟨0x2108, 0x0, 1, [⟨0, 2, .rwl, 1⟩, ⟨2, 2, .rwl, 0⟩, ⟨4, 2, .rwl, 0⟩, ⟨8, 24, .rwl, 5948254⟩]⟩,
    ⟨0x210c, 0x0, 1, [⟨0, 5, .rw, 20⟩, ⟨8, 8, .rwl, 10⟩, ⟨16, 1, .rwl, 1⟩]⟩,
    ⟨0x2110, 0x0, 1, [⟨0, 8, .ro, 0⟩, ⟨8, 8, .ro, 0⟩, ⟨16, 8, .ro, 0⟩, ⟨24, 8, .ro, 0⟩]⟩,
    ⟨0x2140, 0x4, 10, [⟨0, 3, .ro, 0⟩, ⟨3, 1, .ro, 0⟩, ⟨4, 3, .ro, 0⟩, ⟨7, 1, .ro, 0⟩, ⟨8, 6, .ro, 0⟩, ⟨14, 1, .ro, 0⟩]⟩,
    ⟨0x2200, 0x0, 1, [⟨0, 1, .rwl, 0⟩, ⟨1, 1, .rwl, 0⟩, ⟨2, 1, .rwl, 0⟩, ⟨3, 1, .rwl, 1⟩, ⟨4, 2, .rwl, 2⟩, ⟨6, 1, .rwl, 1⟩, ⟨7, 1, .rwl, 0⟩, ⟨8, 8, .rwl, 10⟩, ⟨16, 8, .rwl, 20⟩, ⟨24, 8, .rwl, 8⟩]⟩,
    ⟨0x2204, 0x0, 1, [⟨0, 11, .rwl, 512⟩, ⟨11, 11, .rwl, 64⟩]⟩,
    ⟨0x2208, 0x0, 1, [⟨0, 11, .rwl, 256⟩, ⟨11, 11, .rwl, 32⟩]⟩,
    ⟨0x220c, 0x0, 1, [⟨0, 10, .rwl, 128⟩, ⟨10, 10, .rwl, 64⟩, ⟨20, 8, .rwl, 0⟩]⟩,
    ⟨0x2210, 0x0, 1, [⟨0, 11, .rwl, 256⟩, ⟨11, 11, .rwl, 0⟩, ⟨22, 8, .rwl, 50⟩]⟩,
    ⟨0x2214, 0x0, 1, [⟨0, 8, .ro, 0⟩, ⟨8, 8, .ro, 0⟩, ⟨16, 1, .ro, 0⟩]⟩,
    ⟨0x2300, 0x0, 1, [⟨0, 1, .rwl, 1⟩, ⟨1, 1, .rwl, 1⟩, ⟨2, 1, .rwl, 1⟩, ⟨3, 1, .rwl, 1⟩, ⟨8, 4, .rwl, 3⟩]⟩,
    ⟨0x2304, 0x0, 1, [⟨0, 4, .ro, 0⟩, ⟨4, 4, .ro, 0⟩, ⟨8, 1, .ro, 1⟩, ⟨9, 1, .ro, 1⟩, ⟨10, 4, .ro, 0⟩, ⟨14, 4, .ro, 0⟩, ⟨18, 1, .ro, 0⟩]⟩,
    ⟨0x2308, 0x0, 1, [⟨0, 32, .ro, 0⟩]⟩,
    ⟨0x2340, 0x4, 10, [⟨0, 3, .ro, 0⟩, ⟨3, 4, .ro, 15⟩, ⟨7, 1, .ro, 0⟩, ⟨8, 3, .ro, 0⟩, ⟨11, 2, .ro, 0⟩, ⟨13, 1, .ro, 0⟩, ⟨14, 3, .ro, 0⟩, ⟨24, 8, .ro, 0⟩]⟩,
    ⟨0x2400, 0x0, 1, [⟨0, 1, .rwl, 1⟩, ⟨1, 1, .rwl, 1⟩, ⟨2, 2, .rwl, 0⟩]⟩,
    ⟨0x2404, 0x0, 1, [⟨0, 24, .ro, 0⟩, ⟨24, 1, .ro, 0⟩, ⟨25, 1, .ro, 0⟩]⟩,
    ⟨0x2500, 0x0, 1, [⟨0, 1, .rwl, 1⟩, ⟨1, 1, .rwl, 1⟩, ⟨2, 3, .rwl, 4⟩]⟩,
    ⟨0x2504, 0x0, 1, [⟨0, 1, .rwl, 0⟩, ⟨4, 8, .rwl, 20⟩, ⟨12, 4, .rwl, 2⟩]⟩,
    ⟨0x2508, 0x0, 1, [⟨0, 2, .rwl, 0⟩, ⟨2, 1, .rwl, 1⟩]⟩,
    ⟨0x250c, 0x0, 1, [⟨0, 7, .rwl, 48⟩]⟩,
    ⟨0x2510, 0x0, 1, [⟨0, 2, .ro, 0⟩, ⟨2, 2, .ro, 0⟩, ⟨4, 2, .ro, 0⟩, ⟨6, 1, .ro, 0⟩, ⟨7, 1, .ro, 0⟩, ⟨8, 1, .ro, 0⟩, ⟨16, 16, .ro, 0⟩]⟩,
    ⟨0x2514, 0x0, 1, [⟨0, 10, .ro, 0⟩, ⟨10, 10, .w1c, 0⟩, ⟨20, 1, .ro, 0⟩, ⟨21, 1, .ro, 0⟩]⟩,
    ⟨0x2518, 0x0, 1, [⟨0, 32, .ro, 0⟩]⟩ ]

/-- Part 2 of the register map. -/
def regRows2 : List RegRow :=
  [ ⟨0x251c, 0x0, 1, [⟨0, 20, .ro, 0⟩]⟩,
    ⟨0x0, 0x0, 1, [⟨0, 16, .ro, 25608⟩, ⟨16, 8, .ro, 1⟩]⟩,
    ⟨0x4, 0x0, 1, [⟨0, 8, .ro, 65⟩, ⟨8, 8, .ro, 65⟩]⟩,
    ⟨0x8, 0x0, 1, [⟨0, 2, .ro, 0⟩, ⟨2, 1, .ro, 0⟩, ⟨3, 1, .ro, 0⟩, ⟨4, 1, .ro, 0⟩, ⟨5, 1, .ro, 0⟩, ⟨6, 1, .ro, 0⟩, ⟨7, 1, .ro, 0⟩, ⟨8, 1, .ro, 0⟩, ⟨9, 1, .ro, 0⟩, ⟨10, 1, .w1c, 0⟩]⟩,
    ⟨0xc, 0x0, 1, [⟨0, 1, .w1s, 0⟩]⟩,
    ⟨0x10, 0x0, 1, [⟨0, 1, .w1s, 0⟩, ⟨16, 16, .rwl, 0⟩]⟩,
    ⟨0x14, 0x0, 1, [⟨0, 1, .ro, 0⟩, ⟨1, 1, .ro, 0⟩, ⟨2, 1, .ro, 0⟩, ⟨3, 1, .ro, 0⟩, ⟨4, 1, .w1c, 0⟩, ⟨5, 1, .w1c, 0⟩]⟩,
    ⟨0x18, 0x0, 1, [⟨3, 3, .rw, 0⟩]⟩,
    ⟨0x100, 0x20, 6, [⟨0, 32, .rw, 0⟩]⟩,
    ⟨0x104, 0x20, 6, [⟨0, 32, .rw, 0⟩]⟩,
    ⟨0x108, 0x20, 6, [⟨0, 1, .rw, 0⟩, ⟨1, 5, .rw, 6⟩, ⟨6, 2, .ro, 0⟩, ⟨8, 4, .ro, 0⟩]⟩,
    ⟨0x10c, 0x20, 6, [⟨0, 16, .ro, 0⟩, ⟨16, 16, .ro, 0⟩]⟩,
    ⟨0x20, 0x0, 1, [⟨0, 32, .rw, 0⟩]⟩,
    ⟨0x24, 0x0, 1, [⟨0, 32, .rw, 0⟩]⟩,
    ⟨0x200, 0x0, 1, [⟨0, 32, .rw, 1985229328⟩]⟩,
    ⟨0x204, 0x0, 1, [⟨0, 8, .rw, 0⟩, ⟨8, 8, .rw, 0⟩, ⟨16, 8, .rw, 0⟩, ⟨24, 8, .rw, 0⟩]⟩,
    ⟨0x28, 0x0, 1, [⟨0, 16, .rwl, 10922⟩, ⟨16, 14, .rwl, 10922⟩]⟩,
    ⟨0x800, 0x0, 1, [⟨0, 2, .rwl, 0⟩, ⟨2, 1, .rwl, 0⟩, ⟨3, 1, .rwl, 1⟩, ⟨4, 12, .rwl, 0⟩, ⟨16, 8, .rwl, 50⟩]⟩,
    ⟨0x804, 0x0, 1, [⟨0, 16, .ro, 65535⟩, ⟨16, 2, .ro, 0⟩, ⟨18, 1, .ro, 0⟩]⟩,
    ⟨0x808, 0x0, 1, [⟨0, 32, .ro, 0⟩]⟩,
    ⟨0x80c, 0x0, 1, [⟨0, 16, .ro, 0⟩, ⟨16, 1, .ro, 0⟩, ⟨17, 1, .ro, 1⟩, ⟨18, 2, .ro, 0⟩]⟩,
    ⟨0x810, 0x0, 1, [⟨0, 18, .ro, 0⟩, ⟨18, 14, .ro, 0⟩]⟩,
    ⟨0x820, 0x0, 1, [⟨0, 2, .rw, 0⟩, ⟨2, 2, .rw, 0⟩, ⟨4, 8, .rw, 10⟩, ⟨12, 1, .rw, 1⟩]⟩,
    ⟨0x824, 0x0, 1, [⟨0, 8, .rw, 255⟩, ⟨8, 7, .rw, 127⟩]⟩ ]

/-- Part 3 of the register map. -/
def regRows3 : List RegRow :=
  [ ⟨0x828, 0x0, 1, [⟨0, 24, .ro, 0⟩, ⟨24, 2, .ro, 0⟩]⟩,
    ⟨0x82c, 0x0, 1, [⟨0, 21, .ro, 0⟩, ⟨24, 2, .ro, 0⟩]⟩,
    ⟨0x830, 0x0, 1, [⟨0, 32, .ro, 0⟩]⟩,
    ⟨0x834, 0x0, 1, [⟨0, 28, .ro, 0⟩]⟩,
    ⟨0x1000, 0x0, 1, [⟨0, 1, .rwl, 1⟩, ⟨1, 1, .rwl, 1⟩, ⟨2, 1, .rwl, 1⟩, ⟨8, 8, .rwl, 60⟩]⟩,
    ⟨0x1004, 0x0, 1, [⟨0, 2, .ro, 0⟩, ⟨2, 1, .ro, 0⟩, ⟨3, 3, .ro, 0⟩, ⟨6, 1, .ro, 0⟩, ⟨7, 1, .ro, 0⟩, ⟨8, 1, .ro, 0⟩, ⟨9, 7, .ro, 0⟩]⟩,
    ⟨0x1008, 0x0, 1, [⟨0, 16, .ro, 0⟩, ⟨16, 16, .ro, 0⟩]⟩,
    ⟨0x100c, 0x0, 1, [⟨0, 32, .ro, 1⟩]⟩,
    ⟨0x1010, 0x0, 1, [⟨0, 2, .ro, 2⟩, ⟨2, 2, .ro, 2⟩, ⟨4, 1, .ro, 0⟩, ⟨5, 1, .ro, 0⟩, ⟨6, 1, .ro, 0⟩]⟩,
    ⟨0x1400, 0x0, 1, [⟨0, 3, .ro, 1⟩, ⟨3, 1, .ro, 0⟩, ⟨4, 2, .ro, 0⟩, ⟨6, 4, .ro, 0⟩, ⟨10, 1, .ro, 0⟩, ⟨11, 1, .ro, 0⟩, ⟨12, 1, .ro, 0⟩]⟩,
    ⟨0x1404, 0x0, 1, [⟨0, 1, .rwl, 1⟩]⟩,
    ⟨0x3000, 0x10, 16, [⟨2, 30, .rw, 0⟩]⟩,
    ⟨0x3004, 0x10, 16, [⟨0, 32, .rw, 0⟩]⟩,
    ⟨0x3008, 0x10, 16, [⟨0, 32, .rw, 0⟩]⟩,
    ⟨0x300c, 0x10, 16, [⟨0, 1, .rw, 1⟩]⟩,
    ⟨0x3800, 0x0, 1, [⟨0, 16, .ro, 0⟩]⟩,
    ⟨0x1b00, 0x40, 2, [⟨0, 32, .rc, 0⟩]⟩,
    ⟨0x1b04, 0x40, 2, [⟨0, 32, .rc, 0⟩]⟩,
    ⟨0x1b08, 0x40, 2, [⟨0, 32, .rc, 0⟩]⟩,
    ⟨0x1b0c, 0x40, 2, [⟨0, 32, .rc, 0⟩]⟩,
    ⟨0x1b10, 0x40, 2, [⟨0, 32, .rc, 0⟩]⟩,
    ⟨0x1b14, 0x40, 2, [⟨0, 32, .rc, 0⟩]⟩,
    ⟨0x1b18, 0x40, 2, [⟨0, 32, .rc, 0⟩]⟩,
    ⟨0x1b1c, 0x40, 2, [⟨0, 32, .rc, 0⟩]⟩ ]

/-- Part 4 of the register map. -/
def regRows4 : List RegRow :=
  [ ⟨0x1b20, 0x40, 2, [⟨0, 32, .rc, 0⟩]⟩,
    ⟨0x1b24, 0x40, 2, [⟨0, 32, .rc, 0⟩]⟩,
    ⟨0x1b28, 0x40, 2, [⟨0, 32, .rc, 0⟩]⟩,
    ⟨0x1b2c, 0x40, 2, [⟨0, 32, .rc, 0⟩]⟩,
    ⟨0x1b30, 0x40, 2, [⟨0, 32, .rc, 0⟩]⟩,
    ⟨0x1b34, 0x40, 2, [⟨0, 32, .rc, 0⟩]⟩,
    ⟨0x1b38, 0x40, 2, [⟨0, 32, .rc, 0⟩]⟩,
    ⟨0x1c40, 0x40, 2, [⟨0, 32, .rc, 0⟩]⟩,
    ⟨0x1c44, 0x40, 2, [⟨0, 32, .rc, 0⟩]⟩,
    ⟨0x1c48, 0x40, 2, [⟨0, 32, .rc, 0⟩]⟩,
    ⟨0x1c4c, 0x40, 2, [⟨0, 32, .rc, 0⟩]⟩,
    ⟨0x1c50, 0x40, 2, [⟨0, 32, .rc, 0⟩]⟩,
    ⟨0x1c54, 0x40, 2, [⟨0, 32, .rc, 0⟩]⟩,
    ⟨0x1c58, 0x40, 2, [⟨0, 32, .rc, 0⟩]⟩,
    ⟨0x1c5c, 0x40, 2, [⟨0, 32, .rc, 0⟩]⟩,
    ⟨0x1c60, 0x40, 2, [⟨0, 32, .rc, 0⟩]⟩,
    ⟨0x1d40, 0x40, 2, [⟨0, 32, .rc, 0⟩]⟩,
    ⟨0x1d44, 0x40, 2, [⟨0, 32, .rc, 0⟩]⟩,
    ⟨0x1d48, 0x40, 2, [⟨0, 32, .rc, 0⟩]⟩,
    ⟨0x1d4c, 0x40, 2, [⟨0, 32, .rc, 0⟩]⟩,
    ⟨0x1d50, 0x40, 2, [⟨0, 32, .rc, 0⟩]⟩,
    ⟨0x1d54, 0x40, 2, [⟨0, 32, .rc, 0⟩]⟩,
    ⟨0x1d58, 0x40, 2, [⟨0, 32, .rc, 0⟩]⟩,
    ⟨0x1d5c, 0x40, 2, [⟨0, 32, .rc, 0⟩]⟩ ]

/-- Part 5 of the register map. -/
def regRows5 : List RegRow :=
  [ ⟨0x1d60, 0x40, 2, [⟨0, 32, .rc, 0⟩]⟩,
    ⟨0x1d64, 0x40, 2, [⟨0, 32, .rc, 0⟩]⟩,
    ⟨0x1e40, 0x40, 2, [⟨0, 32, .rc, 0⟩]⟩,
    ⟨0x1e44, 0x40, 2, [⟨0, 32, .rc, 0⟩]⟩,
    ⟨0x1e48, 0x40, 2, [⟨0, 32, .rc, 0⟩]⟩,
    ⟨0x1e4c, 0x40, 2, [⟨0, 32, .rc, 0⟩]⟩,
    ⟨0x1e50, 0x40, 2, [⟨0, 32, .rc, 0⟩]⟩,
    ⟨0x1e54, 0x40, 2, [⟨0, 32, .rc, 0⟩]⟩,
    ⟨0x1e58, 0x40, 2, [⟨0, 32, .rc, 0⟩]⟩,
    ⟨0x1e5c, 0x40, 2, [⟨0, 32, .rc, 0⟩]⟩,
    ⟨0x1e60, 0x40, 2, [⟨0, 32, .rc, 0⟩]⟩,
    ⟨0x1e64, 0x40, 2, [⟨0, 32, .rc, 0⟩]⟩,
    ⟨0x1e68, 0x40, 2, [⟨0, 32, .rc, 0⟩]⟩,
    ⟨0x1f40, 0x40, 2, [⟨0, 32, .rc, 0⟩]⟩,
    ⟨0x1f44, 0x40, 2, [⟨0, 32, .rc, 0⟩]⟩,
    ⟨0x1f48, 0x40, 2, [⟨0, 32, .rc, 0⟩]⟩,
    ⟨0x1f4c, 0x40, 2, [⟨0, 32, .rc, 0⟩]⟩,
    ⟨0x1f50, 0x40, 2, [⟨0, 32, .rc, 0⟩]⟩,
    ⟨0x1f54, 0x40, 2, [⟨0, 32, .rc, 0⟩]⟩,
    ⟨0x1f58, 0x40, 2, [⟨0, 32, .rc, 0⟩]⟩,
    ⟨0x1f5c, 0x40, 2, [⟨0, 32, .rc, 0⟩]⟩,
    ⟨0x1f60, 0x40, 2, [⟨0, 32, .rc, 0⟩]⟩,
    ⟨0x2040, 0x40, 2, [⟨0, 32, .rc, 0⟩]⟩,
    ⟨0x2044, 0x40, 2, [⟨0, 32, .rc, 0⟩]⟩ ]

/-- Part 6 of the register map. -/
def regRows6 : List RegRow :=
  [ ⟨0x2048, 0x40, 2, [⟨0, 32, .rc, 0⟩]⟩,
    ⟨0x204c, 0x40, 2, [⟨0, 32, .rc, 0⟩]⟩,
    ⟨0x2050, 0x40, 2, [⟨0, 32, .rc, 0⟩]⟩,
    ⟨0x2054, 0x40, 2, [⟨0, 32, .rc, 0⟩]⟩,
    ⟨0x2058, 0x40, 2, [⟨0, 32, .rc, 0⟩]⟩,
    ⟨0x205c, 0x40, 2, [⟨0, 32, .rc, 0⟩]⟩,
    ⟨0x2060, 0x40, 2, [⟨0, 32, .rc, 0⟩]⟩,
    ⟨0x2064, 0x40, 2, [⟨0, 32, .rc, 0⟩]⟩,
    ⟨0x2180, 0x40, 2, [⟨0, 32, .rc, 0⟩]⟩,
    ⟨0x2184, 0x40, 2, [⟨0, 32, .rc, 0⟩]⟩,
    ⟨0x2188, 0x40, 2, [⟨0, 32, .rc, 0⟩]⟩,
    ⟨0x218c, 0x40, 2, [⟨0, 32, .rc, 0⟩]⟩,
    ⟨0x2190, 0x40, 2, [⟨0, 32, .rc, 0⟩]⟩,
    ⟨0x2194, 0x40, 2, [⟨0, 32, .rc, 0⟩]⟩,
    ⟨0x2198, 0x40, 2, [⟨0, 32, .rc, 0⟩]⟩,
    ⟨0x219c, 0x40, 2, [⟨0, 32, .rc, 0⟩]⟩,
    ⟨0x21a0, 0x40, 2, [⟨0, 32, .rc, 0⟩]⟩,
    ⟨0x21a4, 0x40, 2, [⟨0, 32, .rc, 0⟩]⟩,
    ⟨0x2240, 0x40, 2, [⟨0, 32, .rc, 0⟩]⟩,
    ⟨0x2244, 0x40, 2, [⟨0, 32, .rc, 0⟩]⟩,
    ⟨0x2248, 0x40, 2, [⟨0, 32, .rc, 0⟩]⟩,
    ⟨0x224c, 0x40, 2, [⟨0, 32, .rc, 0⟩]⟩,
    ⟨0x2250, 0x40, 2, [⟨0, 32, .rc, 0⟩]⟩,
    ⟨0x2254, 0x40, 2, [⟨0, 32, .rc, 0⟩]⟩ ]

/-- Part 7 of the register map. -/
def regRows7 : List RegRow :=
  [ ⟨0x2258, 0x40, 2, [⟨0, 32, .rc, 0⟩]⟩,
    ⟨0x225c, 0x40, 2, [⟨0, 32, .rc, 0⟩]⟩,
    ⟨0x2260, 0x40, 2, [⟨0, 32, .rc, 0⟩]⟩,
    ⟨0x2264, 0x40, 2, [⟨0, 32, .rc, 0⟩]⟩,
    ⟨0x2380, 0x40, 2, [⟨0, 32, .rc, 0⟩]⟩,
    ⟨0x2384, 0x40, 2, [⟨0, 32, .rc, 0⟩]⟩,
    ⟨0x2388, 0x40, 2, [⟨0, 32, .rc, 0⟩]⟩,
    ⟨0x238c, 0x40, 2, [⟨0, 32, .rc, 0⟩]⟩,
    ⟨0x2390, 0x40, 2, [⟨0, 32, .rc, 0⟩]⟩,
    ⟨0x2394, 0x40, 2, [⟨0, 32, .rc, 0⟩]⟩,
    ⟨0x2398, 0x40, 2, [⟨0, 32, .rc, 0⟩]⟩,
    ⟨0x239c, 0x40, 2, [⟨0, 32, .rc, 0⟩]⟩,
    ⟨0x23a0, 0x40, 2, [⟨0, 32, .rc, 0⟩]⟩,
    ⟨0x23a4, 0x40, 2, [⟨0, 32, .rc, 0⟩]⟩,
    ⟨0x2440, 0x40, 2, [⟨0, 32, .rc, 0⟩]⟩,
    ⟨0x2444, 0x40, 2, [⟨0, 32, .rc, 0⟩]⟩,
    ⟨0x2448, 0x40, 2, [⟨0, 32, .rc, 0⟩]⟩,
    ⟨0x244c, 0x40, 2, [⟨0, 32, .rc, 0⟩]⟩,
    ⟨0x2450, 0x40, 2, [⟨0, 32, .rc, 0⟩]⟩,
    ⟨0x2454, 0x40, 2, [⟨0, 32, .rc, 0⟩]⟩,
    ⟨0x2458, 0x40, 2, [⟨0, 32, .rc, 0⟩]⟩,
    ⟨0x245c, 0x40, 2, [⟨0, 32, .rc, 0⟩]⟩,
    ⟨0x2540, 0x40, 2, [⟨0, 32, .rc, 0⟩]⟩,
    ⟨0x2544, 0x40, 2, [⟨0, 32, .rc, 0⟩]⟩ ]

/-- Part 8 of the register map. -/
def regRows8 : List RegRow :=
  [ ⟨0x2548, 0x40, 2, [⟨0, 32, .rc, 0⟩]⟩,
    ⟨0x254c, 0x40, 2, [⟨0, 32, .rc, 0⟩]⟩,
    ⟨0x2550, 0x40, 2, [⟨0, 32, .rc, 0⟩]⟩,
    ⟨0x2554, 0x40, 2, [⟨0, 32, .rc, 0⟩]⟩,
    ⟨0x2558, 0x40, 2, [⟨0, 32, .rc, 0⟩]⟩,
    ⟨0x255c, 0x40, 2, [⟨0, 32, .rc, 0⟩]⟩,
    ⟨0x2560, 0x40, 2, [⟨0, 32, .rc, 0⟩]⟩,
    ⟨0x2564, 0x40, 2, [⟨0, 32, .rc, 0⟩]⟩,
    ⟨0x2568, 0x40, 2, [⟨0, 32, .rc, 0⟩]⟩,
    ⟨0x256c, 0x40, 2, [⟨0, 32, .rc, 0⟩]⟩,
    ⟨0x880, 0x40, 2, [⟨0, 32, .rc, 0⟩]⟩,
    ⟨0x884, 0x40, 2, [⟨0, 32, .rc, 0⟩]⟩,
    ⟨0x888, 0x40, 2, [⟨0, 32, .rc, 0⟩]⟩,
    ⟨0x88c, 0x40, 2, [⟨0, 32, .rc, 0⟩]⟩,
    ⟨0x890, 0x40, 2, [⟨0, 32, .rc, 0⟩]⟩,
    ⟨0x894, 0x40, 2, [⟨0, 32, .rc, 0⟩]⟩,
    ⟨0x898, 0x40, 2, [⟨0, 32, .rc, 0⟩]⟩,
    ⟨0x89c, 0x40, 2, [⟨0, 32, .rc, 0⟩]⟩,
    ⟨0x8a0, 0x40, 2, [⟨0, 32, .rc, 0⟩]⟩,
    ⟨0x8a4, 0x40, 2, [⟨0, 32, .rc, 0⟩]⟩,
    ⟨0x8a8, 0x40, 2, [⟨0, 32, .rc, 0⟩]⟩,
    ⟨0x1040, 0x40, 2, [⟨0, 32, .rc, 0⟩]⟩,
    ⟨0x1044, 0x40, 2, [⟨0, 32, .rc, 0⟩]⟩,
    ⟨0x1048, 0x40, 2, [⟨0, 32, .rc, 0⟩]⟩ ]

/-- Part 9 of the register map. -/
def regRows9 : List RegRow :=
  [ ⟨0x104c, 0x40, 2, [⟨0, 32, .rc, 0⟩]⟩,
    ⟨0x1050, 0x40, 2, [⟨0, 32, .rc, 0⟩]⟩,
    ⟨0x1054, 0x40, 2, [⟨0, 32, .rc, 0⟩]⟩,
    ⟨0x1058, 0x40, 2, [⟨0, 32, .rc, 0⟩]⟩,
    ⟨0x105c, 0x40, 2, [⟨0, 32, .rc, 0⟩]⟩,
    ⟨0x1060, 0x40, 2, [⟨0, 32, .rc, 0⟩]⟩,
    ⟨0x1064, 0x40, 2, [⟨0, 32, .rc, 0⟩]⟩,
    ⟨0x1068, 0x40, 2, [⟨0, 32, .rc, 0⟩]⟩,
    ⟨0x106c, 0x40, 2, [⟨0, 32, .rc, 0⟩]⟩,
    ⟨0x1440, 0x40, 2, [⟨0, 32, .rc, 0⟩]⟩,
    ⟨0x1444, 0x40, 2, [⟨0, 32, .rc, 0⟩]⟩,
    ⟨0x1448, 0x40, 2, [⟨0, 32, .rc, 0⟩]⟩,
    ⟨0x144c, 0x40, 2, [⟨0, 32, .rc, 0⟩]⟩,
    ⟨0x1450, 0x40, 2, [⟨0, 32, .rc, 0⟩]⟩,
    ⟨0x280, 0, 1, [⟨0, 32, .rc, 0⟩]⟩,
    ⟨0x284, 0, 1, [⟨0, 32, .rc, 0⟩]⟩,
    ⟨0x288, 0, 1, [⟨0, 32, .rc, 0⟩]⟩,
    ⟨0x28c, 0, 1, [⟨0, 32, .rc, 0⟩]⟩,
    ⟨0x290, 0, 1, [⟨0, 32, .rc, 0⟩]⟩,
    ⟨0x294, 0, 1, [⟨0, 32, .rc, 0⟩]⟩ ]

/-- Every register of MW0 that a chapter lays out (R407). -/
def regRows : List RegRow :=
  regRows0 ++ regRows1 ++ regRows2 ++ regRows3 ++ regRows4 ++ regRows5 ++ regRows6 ++ regRows7 ++ regRows8 ++ regRows9

/-- Whether the row holds a register at this offset. -/
def RegRow.has (r : RegRow) (off : Nat) : Bool :=
  if r.stride = 0 then off == r.base
  else decide (r.base ≤ off) && decide ((off - r.base) % r.stride = 0) && decide ((off - r.base) / r.stride < r.count)

/-- The register at an offset of MW0, if one is assigned there (R407). -/
def regRow? (off : Nat) : Option RegRow := regRows.find? (·.has off)

/-- The reset word of a register's fields. -/
def RegRow.resetWord (r : RegRow) : Word :=
  r.fields.foldl (fun w f => fset w f.lo f.w f.rst) 0

/-- What the register at an offset reads as after reset: the reset values of its table; 0 where none is assigned (R407). -/
def regReset (off : Nat) : Word :=
  match regRow? off with
  | some r => r.resetWord
  | none => 0

end Sys2Proof.Machine
end

