-- ==== Sys2Proof/Machine/State.lean ====
section
/-! DEFINITION. The state of the block as plain data: the register file of MW0 and, chapter by chapter, everything
else the spec gives the machine; the state after reset; why a command can stop. -/

namespace Sys2Proof.Machine

/-- Faults: none. The spec has every command complete with a status (R436) or act on the state, and no row of the
table stops the block. -/
inductive Fault where
  /-- Nothing raises this: it keeps the type inhabited. Safe. -/
  | none_
deriving DecidableEq, Repr

/-- Refusals. -/
inductive Refusal where
  /-- A row of the table that has no meaning yet, by its mnemonic; safe, since nothing is claimed of it. -/
  | notModelled (mnemonic : String)
deriving DecidableEq, Repr

/-- A sparse table: a list of (key, entry) pairs in one canonical form, keys strictly rising and no entry equal to
what an unlisted key holds (`Twf`). -/
abbrev Tbl (α : Type) := List (Nat × α)

/-- An event descriptor (Table 119). -/
structure Event where
  code : Nat
  half : Nat
  aValid : Bool
  onNkl : Bool
  seq : Nat
  atime : Nat
  tick : Nat
  subject : Nat
  args : List Nat
deriving DecidableEq, Repr

/-- A completion descriptor (Table 116). -/
structure Cpl where
  opcode : Nat
  cflags : Nat
  tag : Nat
  status : Nat
  ring : Nat
  r0 : Nat
  r1 : Nat
  atime : Nat
  tick : Nat
  olen : Nat
  detail : Nat
deriving DecidableEq, Repr

/-- What leaves the device: the model's own log of everything sent at its balls and into host memory, newest first. -/
inductive Out where
  /-- Blocks of a half's lanes in the order sent, each with its lane and scrambled as on the line (R48, R49). -/
  | blocks (half : Nat) (l : List (Nat × Blk))
  /-- Pattern bits that a lane in TEST has sent, straight on the line (R79); none with the internal loopback. -/
  | pattern (lane : Nat) (bits : List Bool)
  /-- IDLE blocks inserted by rate matching, or deleted with `del` (R53). -/
  | rateMatch (half : Nat) (del : Bool) (n : Nat)
  /-- An injected error of a type on a lane (R81). -/
  | injected (lane type : Nat)
  /-- An MSI-X message on a vector (R426). -/
  | msix (vec : Nat)
  /-- The status block as written (Table 111). -/
  | statusBlock (bytes : List (BitVec 8))
  /-- A completion written to CPL at an index. -/
  | cplEntry (index : Nat) (c : Cpl)
  /-- An event written to EVT at an index. -/
  | evtEntry (index : Nat) (e : Event)
  /-- Output data of the host command with this tag. -/
  | hostData (tag : Nat) (bytes : List (BitVec 8))
  /-- A CAP descriptor written back with its buffer's bytes (Table 94): CTX, RECORD, OFFSET, the flags START, END, PARITY. -/
  | capBuffer (ctx record off : Nat) (start end_ par : Bool) (bytes : List (BitVec 8))
  /-- The response of an SPI frame (R433). -/
  | spi (bytes : List (BitVec 8))
  /-- What a register read returned. -/
  | regRead (off : Nat) (v : BitVec 32)
  /-- Samples a path sends at a tick; `none` are zeros. -/
  | txSamples (path tick : Nat) (samples : Option (List Cplx))
  /-- The level of a front-end control line: 0 TXEN, 1 RXEN, 2 BYP (R296). -/
  | line (path which : Nat) (level : Bool)
  /-- An RFFE sequence on a bus: USID, sequence row of Table 77, address, bytes (R305). -/
  | rffe (bus usid seq addr : Nat) (bytes : List Nat)
deriving DecidableEq, Repr

/-- When an event with a rate limit was last raised for a subject, and how many came since (R117, R145 and others). -/
structure RateRec where
  last : Option Nat
  since : Nat
deriving DecidableEq, Repr

/-- A host command in execution: ring number, OPCODE, TAG (Table 121, HOST_CMDS). -/
structure ExecRec where
  ring : Nat
  opcode : Nat
  tag : Nat
deriving DecidableEq, Repr

/-- One of the latest transaction completions (Table 121, TXN_DONE). -/
structure DoneRec where
  tag : Nat
  status : Nat
  half : Nat
  discarded : Bool
deriving DecidableEq, Repr

/-- What a lane holds beside its registers (ch. 2). -/
structure LaneX where
  /-- The lane comes from FAULT and must pass the 100 ms check (R74). -/
  fromFault : Bool
  /-- An error fell in the 100 ms check. -/
  errSeen : Bool
  /-- The lane entered TEST from DISABLED (Table 19), or as the half's SPARE_READY lane (R73). -/
  testFromDisabled : Bool
  testSpare : Bool
  /-- Own RX_READY, and consecutive valid frames that carried the far end's (R64). -/
  rxReady : Bool
  rxSeen : Nat
  /-- Status reported and request sent for pre, main, post (Table 16). -/
  stsPre : Nat
  stsMain : Nat
  stsPost : Nat
  reqPre : Nat
  reqMain : Nat
  reqPost : Nat
  /-- Frame count FCNT of the frames sent, the tick at which TRAIN was entered, the frames sent since, and how many of the
  eight after R64 step 5's condition. -/
  fcnt : Nat
  trainAt : Nat
  frames : Nat
  more : Nat
  /-- Consecutive AM blocks that failed their CRC (R57). -/
  crcRun : Nat
  /-- AMSEQ of the last AM received, and its arrival in 1/64 tick (R56). -/
  lastAm : Option Nat
  amAt : Nat
  /-- The lane takes the position of its next marker as new (R54). -/
  realign : Bool
  /-- Fill of the elastic buffer of 32 blocks (R53). -/
  fill : Nat
  /-- The polarity in force, and whether the taps in force are the fixed ones (R83). -/
  pol : Bool
  fixed : Bool
  /-- The REASON of the last fault (Table 14). -/
  reason : Nat
  /-- State before QUIET after sleep, and whether the lane is resuming (R67). -/
  former : Option Nat
  resuming : Bool
  /-- The receiver finds the lane marginal (FLAGS of Table 13). -/
  marginal : Bool
  /-- The pattern checker (R80): its register of the last 31 bits, bits matched in a row, and the errors among the last 1,024
  bits, newest first. -/
  chkReg : List Bool
  chkRun : Nat
  chkWin : List Bool
deriving DecidableEq, Repr

/-- The coders of a lane (R49, R55, R79): the last 58 scrambled bits sent and received, newest in bit 0; the even parity of
the payload bytes sent since the last AM; the pattern generator's register, newest bit first. -/
structure LineSt where
  scr : BitVec 58
  descr : BitVec 58
  bip : Byte
  gen : List Bool
deriving DecidableEq, Repr

/-- A LINK block of the device that waits for its answer (R59). -/
structure LinkOut where
  op : Nat
  tag : Nat
  old : Nat
  new : Nat
  pos : Nat
  reason : Nat
  repeats : Nat
  nacks : Nat
  waitRetry : Bool
deriving DecidableEq, Repr

/-- The link of a half (ch. 2). -/
structure LinkSt where
  /-- AMSEQ of the next marker, and the tick of the last one sent. -/
  amseq : Nat
  amAt : Option Nat
  nextTag : Nat
  lastTag : Option Nat
  out : List LinkOut
  started : Bool
  /-- The marker just sent announced a clock-compensation sequence (R52). -/
  ccDue : Bool
  /-- A lane has reached ALIGN since start-up (R69). -/
  aligned : Bool
  /-- Flows shed on this half, in shed order (R76). -/
  shed : List Nat
  /-- LINK_DEGRADED has been sent and not yet answered by LINK_RESTORED. -/
  degraded : Bool
deriving DecidableEq, Repr

/-- A packet that waits for its turn (R101): its TYPE (Table 24), flow, content and, for sections, its deadline. -/
structure TxItem where
  type : Nat
  flow : Nat
  nsec : Nat
  deadline : Nat
  body : List (BitVec 8)
deriving DecidableEq, Repr

/-- A sent packet held until it is acknowledged (R93); `void` says its content is a VOID (R98). -/
structure HeldPkt where
  seq : Nat
  item : TxItem
  void : Bool
deriving DecidableEq, Repr

/-- An LLCP packet due: NAK, RSYNC and its SEQ, or a plain acknowledgement (R95, R96, R99). -/
structure Llcp where
  nak : Bool
  rsync : Option Nat
deriving DecidableEq, Repr

/-- The packet layer of a half (ch. 3). -/
structure PktSt where
  /-- The expected number E (R94). -/
  e : Nat
  /-- A NAK has been sent since E last advanced (R95). -/
  nakOut : Bool
  /-- ACKSEQ = E - 1 is owed to the far end (R96). -/
  ackOwed : Bool
  /-- The next number to use, the last one acknowledged, the packets held (R93). -/
  nextSeq : Nat
  ackedSeq : Nat
  held : List HeldPkt
  /-- How many held packets, counted from the newest, still have to be resent (R97). -/
  resendLeft : Nat
  /-- Resends of the oldest held packet without an advance (R99). -/
  resends : Nat
  /-- The SEQ of an RSYNC that waits for its answer (R99). -/
  rsync : Option Nat
  /-- LLCP packets due and the other packets that wait (Table 25). -/
  llcp : List Llcp
  queue : List TxItem
  /-- The place in the order of the ACTIVE lanes of the next stream block to send; the bytes of the packet under way on
  receipt, and whether what comes belongs to one that was discarded (R87, R88, R90). -/
  stripe : Nat
  rx : Option (List Byte) × Bool
  /-- By TYPE, the packets whose content an abort lost and that belong to no flow (R98). -/
  lost : Tbl Nat
deriving DecidableEq, Repr

/-- A flow context (Table 26). -/
structure Flow where
  /-- 0 CLOSED, 1 OPEN, 2 SHED, 3 CLOSING. -/
  state : Nat
  dir : Nat
  half : Nat
  sheddable : Bool
  prio : Nat
  owner : Nat
  carrier : Nat
  comp : Nat
  layers : Nat
  lead : Nat
  rsv : Nat
  accepted : Nat
  late : Nat
  early : Nat
  invalid : Nat
  shed : Nat
deriving DecidableEq, Repr

/-- A pending effect of a flow (R106): its symbol's start in the cycle and the context it brings; none closes. -/
structure FlowFx where
  at_ : Nat
  ctx : Option Flow
deriving DecidableEq, Repr

/-- A context that an effect has replaced, and the symbol of that effect: earlier symbols are still handled under it (R106). -/
structure FlowOld where
  until_ : Nat
  ctx : Flow
deriving DecidableEq, Repr

/-- A control section accepted (R109): its symbols' starts in the cycle and its beam treatment. -/
structure CtrlSec where
  flow : Nat
  ul : Bool
  secid : Nat
  syms : List Nat
  startPrb : Nat
  numPrb : Nat
  body : CtrlBody
  size : Nat
  fwd : Bool
deriving DecidableEq, Repr

/-- A data section accepted (R111); `fwd` says it has been forwarded to the other half (R26). -/
structure DataSec where
  flow : Nat
  secid : Nat
  sym : Nat
  startPrb : Nat
  numPrb : Nat
  lfirst : Nat
  lcount : Nat
  bytes : List (BitVec 8)
  size : Nat
  fwd : Bool
deriving DecidableEq, Repr

/-- An accepted sounding control section (R192, R193), with its occasion and its number in the flow. -/
structure SoundSec where
  flow : Nat
  syms : List Nat
  startPrb : Nat
  numPrb : Nat
  body : SoundBody
  size : Nat
  occ : Nat
  no : Nat
deriving DecidableEq, Repr

/-- A carrier's symbol that the array processor has worked out for a path: the symbol's start in the cycle, its ticks, and
the carrier's products of R142 step 3, one per tick, that wait to be summed. -/
structure ElSym where
  carrier : Nat
  start : Nat
  len : Nat
  samples : List Cplx
deriving DecidableEq, Repr

/-- The next interval of a path, released and not yet at the balls: its start, whether every sample was there, and the
DAC codes. -/
structure NextInt where
  start : Nat
  complete : Bool
  dac : List Cplx
deriving DecidableEq, Repr

/-- What a stage of crest-factor reduction keeps between intervals (R147): its last input sample, samples since the last
peak it cancelled, and what a pulse still takes from the samples to come. -/
structure CfrMem where
  prev : Cplx
  since : Nat
  tail : List Cplx
deriving DecidableEq, Repr

/-- The outputs of stages 3 and 4 over an interval that a slice has run (R222). -/
structure TxSnap where
  start : Nat
  x3 : List Cplx
  x4 : List Cplx
deriving DecidableEq, Repr

/-- What the accepted control sections of a half cover of a downlink carrier's symbol (R222, Table 93): its start and ticks, PRBs
covered, PRBs of the carrier. -/
structure DlOcc where
  half : Nat
  carrier : Nat
  start : Nat
  len : Nat
  covered : Nat
  nprb : Nat
deriving DecidableEq, Repr

/-- The transmit side of a path (ch. 4). -/
structure TxPath where
  /-- 0 OFF, 1 GATED, 2 WARMING, 3 LIVE, 4 ZERO (Table 42). -/
  state : Nat
  /-- Products of the carriers, and what each half-band stage of a carrier keeps (R141, R142). -/
  prods : List ElSym
  up : Tbl (List (List Cplx))
  /-- The elastic buffer (R144): summed 16+16 bit samples by interval, the interval's start in the cycle. -/
  buf : List (Nat × List Cplx)
  /-- Blankness fixed for coming intervals: interval start, blank (R148). -/
  blanks : List (Nat × Bool)
  next : Option NextInt
  /-- Stage values of calibration in force (R146): gain, advance, fraction, I/Q taps, LO offset. -/
  gain : Cplx
  adv : Nat
  df : Nat
  iq : List Cplx
  loOff : Cplx
  /-- The last path-stream samples and the last outputs of stages 3 and 4, newest first: what the memory of stages 1, 4
  (R208) and 5 needs; what the two stages of R147 keep. -/
  h1 : List Cplx
  h3 : List Cplx
  h4 : List Cplx
  cfr : List CfrMem
  /-- The interval released last, its outputs of stages 3 and 4, the stage-3 history before it (R210), and the interval before
  it (R222). -/
  rel : Option Nat
  x3 : List Cplx
  x4 : List Cplx
  h3p : List Cplx
  was : Option TxSnap
  /-- When the path last left WARMING, and when it last became LIVE (R223). -/
  warmEnd : Option Nat
  liveSince : Option Nat
  /-- Per-path counts of the summary pages (R151). -/
  underrun : Nat
  muted : Nat
  /-- A TIME_STEP mute is in force on the path (R270). -/
  mute : Bool
deriving DecidableEq, Repr

/-- A carrier record waiting for its slot boundary (R132): the boundary, and the first symbol whose work begins after the
record was accepted. -/
structure PendDl where
  car : DlCarrier
  at_ : Nat
  from_ : Nat
deriving DecidableEq, Repr

/-- A converter with a resting ninth slice (R156, R157): the slice that rests, the one taken out next, the slices that
failed their last calibration, the retired ones, the tick at which an exchange that waits fell due, the corrections in force
by slice, and those found while resting. -/
structure ConvSt where
  resting : Nat
  next : Nat
  failed : List Nat
  retired : List Nat
  due : Option Nat
  corr : Tbl SliceCorr
  found : Tbl (Option SliceCorr)
deriving DecidableEq, Repr

/-- A carrier of a path's slice (Table 46 stages 6 to 8): the stamp of the next mixed sample, mixed samples that do not yet
fill a carrier sample, and what the half-band stages and the channel filter keep. -/
structure RxCar where
  next : Option Nat
  rest : List Cplx
  half : List (List Cplx)
  filt : List Cplx
deriving DecidableEq, Repr

/-- Samples of a carrier in a path's uplink elastic buffer (R169): the stamp of the first in the cycle, ticks from one to the
next. -/
structure UlBuf where
  carrier : Nat
  start : Nat
  step : Nat
  x : List Cplx
deriving DecidableEq, Repr

/-- The receive side of a path (ch. 5). -/
structure RxPath where
  att : Nat
  bypass : Bool
  /-- A bypass change asked for, and how many interval boundaries lie before it (R161). -/
  pendBypass : Option (Bool × Nat)
  ovr : Bool
  sprintNow : Bool
  sprintLast : Bool
  onsets : Nat
  sprints : Nat
  sprintSyms : Nat
  /-- The ticks of the last sprint steps, newest first; gain changes newest first: tick, state before and after, numbered as
  `table`. -/
  sprintTicks : List Nat
  gains : List (Nat × Nat × Nat)
  /-- DC estimate of I and Q, and samples since an over-range code (R165); the last samples after the DC blocker and after
  stage 3, newest first; the carriers of stages 6 to 8; the uplink elastic buffer (R169). -/
  dcI : Int
  dcQ : Int
  since : Nat
  hist : List Cplx
  hist3 : List Cplx
  cars : Tbl RxCar
  buf : List UlBuf
  /-- The power measured in the interval so far: energy of the codes, and how many (R161). -/
  energy : Nat
  codes : Nat
  /-- Calibration in force: I/Q taps, offset trim, delay, gain table by attenuation + 32 * bypass (R162). -/
  iq : List Cplx
  trim : Cplx
  dly : Nat
  df : Nat
  table : Tbl Cplx
deriving DecidableEq, Repr

/-- A carrier record waiting for its slot boundary (R155). -/
structure PendUl where
  car : UlCarrier
  at_ : Nat
deriving DecidableEq, Repr

/-- The channel-filter banks of an uplink carrier (R166, R167). -/
structure FiltSt where
  bankB : Bool
  a : Option (List Int)
  b : Option (List Int)
  /-- A pending swap's count; the ticks of past swaps, newest first; loads under way, oldest first. -/
  swapAt : Option Nat
  swaps : List Int
  loading : List (List Int)
deriving DecidableEq, Repr

/-- A symbol's partial sums on a half, coded as they cross the link (R172), by flow, start, layer index and PRB. -/
structure PartSum where
  flow : Nat
  sym : Nat
  half : Nat
  layer : Nat
  prb : Nat
  e : Nat
  res : List Cplx
deriving DecidableEq, Repr

/-- The sums of a symbol at the owning half, ready to send (R173), and whether one half stands alone. -/
structure SumSym where
  flow : Nat
  sym : Nat
  half : Nat
  partial_ : Bool
  res : List (Nat × Nat × List Cplx)
deriving DecidableEq, Repr

/-- A load of an entry that waits for its effect: the staging rows and the start of the first symbol that uses it. -/
structure BeamLoad where
  row0 : Nat
  row1 : Nat
  at_ : Nat
deriving DecidableEq, Repr

/-- What a beam-table entry gave to symbols that start before a tick (R178, R184, R188): the tick, the state then, and the
weights of each half. -/
structure BeamWas where
  until_ : Int
  state : Nat
  w0 : List Cplx
  w1 : List Cplx
deriving DecidableEq, Repr

/-- A beam-table entry (R180, R181, R187): 0 EMPTY, 1 VALID, 2 DAMAGED, 3 UNUSABLE; its owner where a command has set
one; the row it is mapped to on each half; a load that waits for its effect; what it was before its last changes, newest
first. -/
structure BeamEnt where
  state : Nat
  owner : Option Nat
  row0 : Option Nat
  row1 : Option Nat
  load : Option BeamLoad
  was : List BeamWas
deriving DecidableEq, Repr

/-- A row of the beam table on a half (R180, R188): its 32 weights, and whether its march test runs. -/
structure BeamRow where
  w : List Cplx
  testing : Bool
  retired : Bool
deriving DecidableEq, Repr

/-- A bulk load under way (R185). -/
structure BulkSt where
  cmd : Cmd
  next : Nat
  accepted : Nat
  left : List (List Cplx)
deriving DecidableEq, Repr

/-- One bank of a flow's solver output (R201): 0 FREE, 1 WRITING, 2 PENDING, 3 ACTIVE. -/
structure SolvBank where
  state : Nat
  /-- Ports solved, and PRB groups. -/
  k : Nat
  ng : Nat
  /-- Weights by (layer * 69 + group) * 64 + path. -/
  w : Tbl Cplx
  /-- Start of its occasion's last symbol in the cycle and the tick it ended. -/
  occ : Nat
  occTick : Int
  ill : List Nat
  sat : Bool
  gov : Bool
  effectAt : Nat
  /-- Engines of the solve that have still to mark their share complete; those it was divided among, and the groups each has
  written (R199). -/
  engines : List Nat
  team : List Nat
  puts : List (Nat × Nat)
  /-- What the solve goes by (R191, R197): the record, CONJ of the carrier, the paths of G, their estimates by path * 16 + port,
  a value per group. -/
  rec_ : Option SolverRec
  conj : Bool
  paths : List Nat
  est : Tbl (List Cplx)
deriving DecidableEq, Repr

/-- A sounding section received (R193): its occasion and its own number, the end of its last symbol once worked on, and
whether each half has worked on all of it. -/
structure SoundMark where
  occ : Nat
  no : Nat
  at_ : Nat
  tick : Int
  done0 : Bool
  done1 : Bool
deriving DecidableEq, Repr

/-- A flow's solver (R190 to R204). -/
structure SolvSt where
  x : SolvBank
  y : SolvBank
  /-- The bank that was ACTIVE until a tick, for symbols that started before it (R178). -/
  was : Option (Int × SolvBank)
  /-- A bank has been committed since the solver was enabled: the flow has solver output (R190). -/
  out : Bool
  /-- The occasion that sections now received belong to, the number of the next one, and those received (R193). -/
  rxOcc : Nat
  rxNo : Nat
  secs : List SoundMark
  /-- The newest complete occasion: last symbol's start in the cycle, the tick it ended, its ports; `freshOcc` that no
  solve has used it. -/
  occ : Option Nat
  occTick : Int
  occK : Nat
  freshOcc : Bool
  /-- Sums over the symbols of a section under way, by section number * 1,024 + path * 16 + port, and finished estimates, by
  path * 16 + port: a value per group; none for a group of too few elements (R195). -/
  acc : Tbl (List (Option Cplx))
  est : Tbl (List Cplx)
  /-- Estimates of occasions under way (R193), by (occasion * 1,024 + path * 16 + port) * 69 + group, with the number of the
  section they come from. -/
  cur : Tbl (Nat × Cplx)
  /-- The tick of the occasion of each path's latest usable estimate; paths unusable in an occasion under way, as
  occasion * 64 + path. -/
  estTick : Tbl (Option Int)
  /-- The estimates that the newest occasion replaced, until its deadline (R196). -/
  old : Tbl (List Cplx)
  oldTick : Tbl (Option Int)
  bad : List Nat
  /-- A due solve waits for a FREE bank. -/
  waiting : Bool
deriving DecidableEq, Repr

/-- A coefficient bank (Table 58): its state (0 FREE, 1 PENDING, 2 TRIAL, 3 COMMITTED, 4 FALLBACK), coefficients by
index, marks, RHO, the air time of its swap and its LO frequency. -/
structure DpdBank where
  state : Nat
  coef : Tbl Cplx
  sat : Bool
  gov : Bool
  seed : Bool
  rho : Int
  at_ : Nat
  loKhz : Nat
deriving DecidableEq, Repr

/-- A predistortion capture (R222): the wanted signal, the stage-4 output, the neighbours' stage-3 outputs, the observation
samples, and the record as an engine reads it (R350, R359). -/
structure DpdRecord where
  x : List Cplx
  y : List Cplx
  nb : List (List Cplx)
  obs : List Cplx
  bytes : List Byte
deriving DecidableEq, Repr

/-- The predistortion of a path (ch. 7). -/
structure DpdPath where
  rec_ : DpdRec
  /-- A record whose structure change waits (R213), and one whose EN, EST or CFR_PAPR waits for a swap boundary. -/
  struct_ : Option DpdRec
  soft : Option DpdRec
  a : DpdBank
  b : DpdBank
  /-- Bank B is the one in service. -/
  bServes : Bool
  /-- The swap instant of a PENDING bank and whether it becomes COMMITTED at once; the revert instant of a TRIAL bank;
  a PENDING or TRIAL bank that drops at the next swap boundary. -/
  swapAt : Option Nat
  direct : Bool
  revertAt : Option Nat
  dropDue : Bool
  /-- A seed or identity bank waits for the first transmit interval after lock and calibration (R234). -/
  seedWait : Bool
  reverts : Nat
  halted : Bool
  /-- Commit decisions left under acquisition (R233). -/
  acq : Nat
  /-- Seed banks, the most recently used first (R234). -/
  seeds : List (Nat × Tbl Cplx)
  /-- Neighbour entries treated as empty for skew (R210), and retired neighbours whose coefficients are still to clear. -/
  skew : List Nat
  /-- An estimate is due; one is being computed; the next capture only refreshes RHO (R225). -/
  estDue : Bool
  estimating : Bool
  /-- The capture at hand for the estimate or the verification; the slot of the last capture that was discarded (R223); the
  trust distance of the last commit decision, in 1/256 dB; the last alignment: delay, gain (R228). -/
  record : Option DpdRecord
  tried : Option Stamp
  dist : Int
  align : Int × Cplx
  refresh : Bool
  /-- The crest-factor pulse in service and one written to the other bank (R219); the threshold in force. -/
  pulse : List Cplx
  newPulse : Option (List Cplx)
  /-- Stage 4 passes its input since a parity error of the bank in service (R483); when a bank last moved, and when a slice or
  receiver of the group was last relayed (R223). -/
  ident : Bool
  moved : Option Nat
  relayed : Option Nat
deriving DecidableEq, Repr

/-- A correction computed and not yet in effect (R249): the value and the start of its boundary in the cycle; none for
an integer advance or delay, which waits for the path's next interval. -/
structure CalPend where
  val : CalVal
  at_ : Option Nat
deriving DecidableEq, Repr

/-- A gain in 0.001 dB, a phase in 0.001 degree and a delay in 0.01 ps. -/
structure CalTriple where
  gain : Int
  phase : Int
  delay : Int
deriving DecidableEq, Repr

/-- Calibration of a path (ch. 8). -/
structure CalPath where
  recip : Cplx
  cornerTx : Nat
  cornerRx : Nat
  /-- Last residuals, TX then RX: gain, phase, delay (Table 123). -/
  resTx : List Int
  resRx : List Int
  /-- Tick of the last valid TX and RX measurement, and the path sensor then. -/
  lastTx : Option Nat
  lastRx : Option Nat
  temp : Int
  suspect : Bool
  clampRun : Nat
  /-- A measurement is due in this cycle; a priority one is due (Table 65). -/
  dueTx : Bool
  dueRx : Bool
  prio : Bool
  /-- A TX and an RX measurement since the factor was last formed (R258). -/
  newTx : Bool
  newRx : Bool
  /-- What the last valid TX and RX measurement makes of the path without its corrections, at the plane in force: gain, phase,
  delay; the delay as measured through the on-die network alone (R241, R247). -/
  bareTx : Option CalTriple
  bareRx : Option CalTriple
  innerTx : Int
  innerRx : Int
  /-- The TX and RX responses as measured through the combiner, for the factor (R258). -/
  rawTx : CalTriple
  rawRx : CalTriple
  /-- The last TX and RX measurement has not been taken into the corrections (R248), and was found good (R256). -/
  putTx : Bool
  putRx : Bool
  pend : List CalPend
deriving DecidableEq, Repr

/-- The references of R247, recomputed in foreground heats alone: TX gain, TX phase by half, RX gain, RX phase by half. -/
structure CalRefs where
  txGain : Int
  txPhase : Int × Int
  rxGain : Int
  rxPhase : Int × Int
deriving DecidableEq, Repr

/-- A stored calibration set (R252): group, hop entry, the air time of its heat, the tick, the mean temperature, and the
values it stored. -/
structure CalSet where
  group : Nat
  entry : Nat
  at_ : Nat
  tick : Nat
  temp : Int
  vals : List (Nat × CalVal)
deriving DecidableEq, Repr

/-- The heat and readiness state of a group (R250 to R257, R276, R281, R302, R304). -/
structure GroupSt where
  /-- The hop entry in use; a pending hop: entry, effect count, deferred. -/
  entry : Option Nat
  hop : Option (Nat × Nat)
  deferred : Bool
  /-- The heat that Table 65 requires (0 none, 1 short, 2 full) and the one that runs, with its step. -/
  need : Nat
  heat : Nat
  step : Nat
  /-- Reason that a window of the group is blanked for while it is not ready (R302). -/
  why : Nat
  /-- A channel-change script is incomplete; entries of it still to run. -/
  script : Bool
  /-- Held until HEAT_RUN (R251); held from the next decision instant for a RETUNE (R307). -/
  held : Bool
  retune : Bool
  /-- A full heat at the next foreground opportunity (R248). -/
  drift : Bool
  /-- Start of the transmit interval whose window is blanked. -/
  blankAt : Option Nat
deriving DecidableEq, Repr

/-- The tie of the halves (R243): the values kept, the result of the last measurement, and consecutive failures. -/
structure TieSt where
  val : Option (List Int)
  last : Option (List Int)
  fails : Nat
deriving DecidableEq, Repr

/-- A hop-table entry of a synthesiser (Table 69). -/
structure HopEnt where
  freq : Nat
  valid : Bool
  stored : Bool
  band : Nat
  mid : Nat
  temp : Int
  kdco : Nat
deriving DecidableEq, Repr

/-- A synthesiser beside its register (R277 to R279): attempts since it started, whether this one searches, ticks of its
gatings within 1 s, the seed its dither generator was loaded with (R280). -/
structure LoX where
  tries : Nat
  search : Bool
  gates : List Nat
  lfsr : Nat
deriving DecidableEq, Repr

/-- The reference PLL beside its registers (R266 to R273): the jump held, the tick of the loss, the start of the mute slot
of a pending step; whether REFCLK is present at H0 and, as H1 detects it, at H1 (R262, R264); whether H1's PLL is locked. -/
structure RefSt where
  jump : Int
  lostAt : Nat
  muteAt : Option Nat
  /-- Start of the mute slot under way, and its length in ticks (R270). -/
  muteFrom : Option (Nat × Nat)
  present : Bool
  presentH1 : Bool
  h1Locked : Bool
deriving DecidableEq, Repr

/-- A schedule with its EFFECT as a count of the cycle (R293). -/
structure Sched where
  rec_ : SchedRec
  at_ : Nat
deriving DecidableEq, Repr

/-- The front end of a path (R296, R297): its state of Table 75 (0 IDLE, 1 TX, 2 RX, 3 HEAT_TX, 4 HEAT_RX, 5 BLANKED,
6 RETIRED), the BYP setting of the distance path, bias-select, the tick of the last deassertion, aerial measurement. -/
structure FePath where
  state : Nat
  bypSet : Bool
  biasTx : Bool
  lastOff : Nat
  /-- Consecutive return losses below RL_TRIP, the last one in 0.01 dB, one being due (R309). -/
  lowRun : Nat
  rl : Option Int
  mmDue : Bool
  rlMeas : Option Int
deriving DecidableEq, Repr

/-- What the front end of a path still has to do at a tick: 1 or 2, the state TX or RX delayed by DEAD (R297); 9, the
bias-select's receive value (R301). -/
structure FeLater where
  path : Nat
  what : Nat
  due : Nat
deriving DecidableEq, Repr

/-- A loop of an engine (R321): first and last bundle, iterations left. -/
structure LoopRec where
  first : Nat
  last : Nat
  left : Nat
deriving DecidableEq, Repr

/-- A task on an engine with its context (R313, R316): user slot if one serves it, program counter relative to the image,
registers, flags, loops from the innermost, return addresses from the newest, the records it has been given by handle
and the capture contexts they came from, whether it waits in REC_WAIT. -/
structure EngTask where
  desc : TaskDesc
  slot : Option Nat
  budget : Nat
  pc : Nat
  d : List (BitVec 32)
  ac : List Cplx
  p : List (BitVec 32)
  k : List (BitVec 32)
  sat : Bool
  gov : Bool
  par : Bool
  loops : List LoopRec
  stack : List Nat
  recs : List (Nat × List (BitVec 8))
  caps : List Nat
  waiting : Bool
deriving DecidableEq, Repr

/-- An engine beside its register: the running task, preempted ones, one to restart from its inputs after a test; why a
known-answer test runs (0 none, 1 a mismatch, 2 the spare's own, 3 rotation, 4 an idle window, 5 repair); ticks of failed
repairs and of mismatches; the result code of the last task. -/
structure EngSt where
  run : Option EngTask
  saved : List EngTask
  again : Option EngTask
  test : Nat
  repairs : List Nat
  mism : List Nat
  code : BitVec 32
  /-- Ticks at which the engine was busy in the last 100 ms, from and to, and since when it is (LOAD). -/
  busy : List (Nat × Nat)
  since : Nat
deriving DecidableEq, Repr

/-- An installed image (R330): version, a user slot's service, bundles, entry, a user slot's windows. -/
structure EngImg where
  version : Nat
  service : Nat
  n : Nat
  entry : Nat
  xwin : Nat
  ywin : Nat
deriving DecidableEq, Repr

/-- A binding of a slot on a half (Table 86). -/
structure EngBind where
  service : Nat
  flow : Nat
  paths : Nat
  budget : Nat
deriving DecidableEq, Repr

/-- A user slot on a half: its image, its binding, consecutive stops (R333 to R336). -/
structure EngSlot where
  img : Option EngImg
  bound : Option EngBind
  stops : Nat
deriving DecidableEq, Repr

/-- An image that is being written (R331, R333): where it goes, and its bytes. -/
structure ImgLoad where
  halves : Nat
  slot : Nat
  bytes : List (BitVec 8)
deriving DecidableEq, Repr

/-- A shadow mismatch under test on a half: the two engines and the results known (R343). -/
structure Mismatch where
  eng : Nat
  spare : Nat
  engOk : Option Bool
  spareOk : Option Bool
deriving DecidableEq, Repr

/-- What a half keeps of its engines: a mismatch under test, the engine tested last by the rotation (R344), its vendor
image. -/
structure EngHalf where
  mm : Option Mismatch
  rot : Nat
  vendor : Option EngImg
deriving DecidableEq, Repr

/-- A series under the pacer (R337): the grid instant and the due instant of its next instance in ticks since reset, and the
nominal period in ticks under which the due instant was computed (R339). -/
structure Pace where
  grid : Nat
  due : Nat
  period : Nat
deriving DecidableEq, Repr

/-- The header of a record (Table 93) and its samples. -/
structure CapRecord where
  number : Nat
  ctx : Nat
  source : Nat
  path : Nat
  short : Bool
  avg : Bool
  last : Bool
  trunc : Bool
  preReq : Nat
  preValid : Nat
  post : Nat
  trigAt : Stamp
  avgN : Nat
  first : Stamp
  power : Int
  peak : Nat
  ovr : Nat
  occ : Nat
  rate : Nat
  missed : Nat
  samples : List Cplx
deriving DecidableEq, Repr

/-- A capture context beside its state in SU_CAP_STAT (R352 to R362): the record of the arm and the one for the next arm;
owner where a command has set one; records left, none without a limit; triggers missed since the last record; the
trigger taken: pre-trigger samples, SHORT, its stamp; the path went out of service during RECORD; acquisitions and their
sums (R358), the first sample's stamp and OCC; the record in DELIVER, whether its delivery has begun, its bytes delivered, whether it is done; a stop
that lets a delivery finish; records delivered. -/
structure CapCtx where
  cur : Option CaptureRec
  next : Option CaptureRec
  owner : Option Nat
  left : Option Nat
  missed : Nat
  /-- When FILL began, and the tick of TRIG_TIME. -/
  fillAt : Nat
  trigTick : Int
  preValid : Nat
  short : Bool
  trigAt : Stamp
  trunc : Bool
  acqs : Nat
  sums : List Cplx
  firstAt : Stamp
  occ : Nat
  hold : Option CapRecord
  begun : Bool
  off : Nat
  done : Bool
  stop : Bool
  records : Nat
deriving DecidableEq, Repr

/-- A bias output (R379 to R388): its record in force, its state of Table 102 (0 UNDRIVEN, 1 BOOT, 2 LIVE,
3 CHANGEOVER, 4 PARKED, 5 HOLD), owner, the record a range change brings, the boot record decided, the code the
output is to have, twin retired, readback in µV and its trims (µV or nA), and the rounds running of R386; on its way back to
LIVE at the next interval boundary (1) or transmit-interval start (2); parked under PF_PARK (3); the code it left, at the tick
`chg`, for the one it moves to (R380); an external fault is flagged (R387). -/
structure BiasOut where
  car : BiasRec
  state : Nat
  owner : Option Nat
  pend : Option BiasRec
  boot : Option BiasRec
  code : Nat
  twinRet : Bool
  readback : Int
  trimOff : Int
  trimGain : Int
  missRun : Nat
  returning : Nat
  frm : Nat
  chg : Nat
  ext : Bool
deriving DecidableEq, Repr

/-- A temperature sensor (R389 to R391): last reading and estimate in 1/64 °C, learned offset in 1/4,096 °C, failed, its
runs of rounds of disagreement and of agreement, and of the factory record its neighbours, the two points of its trim and the
window of its self-check. -/
structure SensSt where
  reading : Int
  est : Int
  offset : Int
  failed : Bool
  badRun : Nat
  okRun : Nat
  neigh : List Nat
  c0 : Int
  t0 : Int
  c1 : Int
  t1 : Int
  lo : Nat
  hi : Nat
deriving DecidableEq, Repr

/-- A request in a half's injected queue (R371): the channel, the count it is timed for, and who asked: 0 a MON_INJECT, 1 a
rail point of the power-fail record, 2 a MON_TEST. -/
structure InjReq where
  ch : Nat
  at_ : Option Nat
  src : Nat
deriving DecidableEq, Repr

/-- The monitor of a half (R367 to R376, R392): converters in service, longest first, and the resting one; rounds running
that each failed the check, and rest calibrations running that failed; converters whose last conversion set OVER; the
injected queue; whether no round has run since reset, or since a wake from DEEP; rail warnings of the last round; its
Tj; T3 held; an auxiliary rail has tripped and not recovered; the test-DAC code of the next check, of eight; the trims in force
by converter; of the factory record the rails' full scale and the reference codes. With H0's: the tick of PWRFAIL_N's assertion,
and of the last REDUCE_LOAD. -/
structure MonSt where
  inService : List Nat
  resting : Option Nat
  katRun : Tbl Nat
  restRun : Tbl Nat
  ovr : List Nat
  inj : List InjReq
  noRound : Bool
  warn : Nat
  tj : Option Int
  hot : Bool
  auxOut : Bool
  dacK : Nat
  trim : Tbl (List Int)
  div : List Int
  ref : List Nat
  pfAt : Nat
  reduceAt : Option Nat
deriving DecidableEq, Repr

/-- A write into host memory that has fallen due while HOSTIF is below RUN or the function is in D3hot (R406, R464). -/
inductive HostWrite where
  | evt (e : Event)
  | cpl (c : Cpl) (data : List (BitVec 8))
deriving DecidableEq, Repr

/-- State of the host attachment that no register of MW0 holds (ch. 14). -/
structure HostSt where
  /-- The value last written to each doorbell of MW2 (R404), by ring. -/
  mw2 : Tbl Word
  /-- Whether BULK was the ring fetched last of CMD_N and BULK (R420). -/
  lastBulk : Bool
  /-- D3hot (R406). -/
  d3hot : Bool
  /-- The PCI Express link is up (R43). -/
  linkUp : Bool
  /-- Host commands fetched and not completed, in fetch order (R420). -/
  exec : List ExecRec
  /-- EVT has been enabled since the device reset (R421). -/
  evtEver : Bool
  /-- Events dropped since the last lost-events event, and the SEQ of the first (R421). -/
  lost : Nat
  lostSeq : Nat
  /-- Entries pending since the last CPL_N and EVT message (R427). -/
  pendCpl : Nat
  pendEvt : Nat
  /-- The tick of the first of either's pending entries. -/
  cplAt : Nat
  evtAt : Nat
  /-- Subsystem vendor and subsystem of the configuration header (R403). -/
  svid : Nat
  ssid : Nat
  /-- Block writes since the status-block address was set (Table 111). -/
  writes : Nat
  /-- Writes that wait for HOSTIF or for D0, oldest first. -/
  due : List HostWrite
  /-- SPI: last error, the snapshot buffer with its pages, NV_WR unlocked (R433, R434). -/
  spiErr : Nat
  pfReady : Bool
  pfBuf : List (BitVec 8)
  nvUnlocked : Bool
deriving DecidableEq, Repr

/-- What a command of order L is doing until its work ends (R438). -/
inductive LongWhat where
  /-- HEAT_RUN: groups still running, groups completed (R440). -/
  | heat (left done : Nat)
  /-- LO_HOP of a group mask and entry (R276). -/
  | hop (mask entry : Nat)
  /-- A store write of a record type and index (R382, R521). -/
  | store (half type index : Nat)
  /-- A planned relay on a half to its end (R73). -/
  | relay (half : Nat)
  /-- MON_TEST of a channel (R376). -/
  | monTest (half ch : Nat)
  /-- An image being written to the store, with its slot (R333). -/
  | image (halves slot : Nat)
  /-- An injected or timed conversion of a channel (R371). -/
  | inject (half ch : Nat) (timed : Bool)
  /-- FILTER_LOAD of an uplink carrier (R167). -/
  | filter (carrier : Nat)
deriving DecidableEq, Repr

/-- A command of order L in execution. -/
structure LongRec where
  cmd : Cmd
  opcode : Nat
  what : LongWhat
deriving DecidableEq, Repr

/-- A command that waits to start: its common fields, its opcode, and the whole command. -/
structure HeldCmd where
  cmd : Cmd
  opcode : Nat
  instr : Instr
deriving DecidableEq, Repr

/-- State of the command set, events and summaries (ch. 15). -/
structure CmdSt where
  /-- Commands that wait: before READY (R511), in a power transaction (R461), in a dispute (R496), behind FENCE. -/
  held : List HeldCmd
  /-- The command that step runs is one that waited. -/
  draining : Bool
  /-- Commands of order L in execution. -/
  longs : List LongRec
  /-- Transactions in execution, in order: half, OPCODE, TAG (Table 121, TXN_CMDS). -/
  txns : List ExecRec
  /-- The 32 latest transaction completions, newest first. -/
  txnDone : List DoneRec
  /-- TAG of the last completion written for CMD_N, CMD_U and BULK, by ring. -/
  lastTag : Tbl Nat
  /-- Snapshot number (R444). -/
  snap : Nat
  /-- SEQ of the last event raised, device-wide or H0's, and H1's own in split mode (R441). -/
  seq : Nat
  seqH1 : Nat
  /-- SEQ of the last event written to EVT. -/
  evtWritten : Nat
  /-- The 16 events most recently raised, newest first. -/
  history : List Event
  /-- ROUTE byte of each event class (R442). -/
  route : Tbl Nat
  /-- In a dispute (R496): events raised and completions due, oldest first. -/
  evtQ : List (Nat × Nat × Nat × List Nat)
  cplQ : List (Cmd × Cpl × List (BitVec 8))
  /-- Rate limits: by code * 65536 + subject. -/
  rates : Tbl RateRec
deriving DecidableEq, Repr

/-- A SET that waits for its anchor (R451): its fields from Table 33, and the tick at which it came. -/
structure SetRec where
  amseq : Nat
  stamp : Stamp
  delay : Nat
  got : Nat
deriving DecidableEq, Repr

/-- A correction of the counter under way (R452): the whole shift in ps, by slew or by a step at a mute slot, from a SET (1), a
TSYNC pulse (2) or, for the loop's own jump, 0; the tick at which it began, and what a slew has shifted so far. -/
structure Corr where
  ps : Int
  step : Bool
  src : Nat
  since : Nat
  done : Int
deriving DecidableEq, Repr

/-- A pending timed vote (R458): the domains of both halves, on or off, the effect tick in the cycle. -/
structure TimedVote where
  doms0 : Nat
  doms1 : Nat
  on : Bool
  at_ : Nat
  waking : Bool
deriving DecidableEq, Repr

/-- An entry to a deeper state (R461): the deepest target (1 IDLE, 2 SLEEP, 3 DEEP, 4 OFF), the domains that enter (half,
position, target), the first refusal (block code, reason, half), and the tick of PREPARE. -/
structure EntryRec where
  target : Nat
  moves : List (Nat × Nat × Nat)
  refusal : Option (Nat × Nat × Nat)
  at_ : Nat
deriving DecidableEq, Repr

/-- Air time and power state that no register holds (ch. 16). -/
structure TimeSt where
  /-- Ticks since reset: the model's measure of elapsed time. -/
  now : Nat
  /-- The air-time count of H0 in ticks of the 1,024-frame cycle, whether it is valid, and whether it advances. -/
  count : Nat
  valid : Bool
  running : Bool
  /-- What the outputs have been shifted beyond whole ticks, in ps (R452, R270). -/
  subPs : Int
  /-- H1's copy minus H0's count, and whether H1 reloads at the next subframe boundary (R449). -/
  h1Diff : Int
  h1Reload : Bool
  /-- The last 32 AM timestamps of each half: AMSEQ and the count in 1/64 tick (R451), newest first. -/
  ams : Tbl (List (Nat × Nat))
  /-- A SET of a half waiting for its anchor. -/
  waitSet : Tbl (Option SetRec)
  /-- The correction under way. -/
  corr : Option Corr
  /-- By half, E of the last TSYNC pulse, in ps, while it waits for the next one to confirm it (R454). -/
  tsyncLast : Tbl (Option Int)
  /-- TAG of the last WAKE set acted on (R127). -/
  lastWake : Option Nat
  /-- The hold of R455 is in force. -/
  txHeld : Bool
  /-- The WAKE hold of each domain, by 8 * half + position (Table 127). -/
  wakeHold : Tbl Bool
  /-- The TIMED hold of each domain. -/
  timedHold : Tbl Bool
  /-- Pending timed votes, by time (R458). -/
  timed : List TimedVote
  /-- The state a waking domain comes from, and the tick of its wake instant; of a domain below RUN, its state and the tick
  of its entry. -/
  wakeFrom : Tbl (Nat × Nat)
  /-- The entry transaction under way, by the half whose supervisor runs it; whether a half has domains that may try to
  enter a deeper state (R460, R461, R463). -/
  entry : Tbl (Option EntryRec)
  due : Tbl Bool
  /-- The tick from which a half's aborted entry may be tried again (R463). -/
  retryAt : Tbl Nat
  /-- The count and K saved at an AON edge (R468, R469), and whether coast expiry saved it. -/
  saved : Option (Nat × Word)
  savedCoast : Bool
deriving DecidableEq, Repr

/-- A slice relay under way for a path (R487). -/
structure SliceRelay where
  spare : Nat
  parity : Bool
deriving DecidableEq, Repr

/-- What a supervisor holds of the baton (R494 to R496). -/
structure BatonSt where
  epoch : Nat
  claim : Bool
  copying : Bool
  /-- The last broadcast received: EPOCH, CLAIM, COPYING and the tick it came. -/
  rx : Option (Nat × Bool × Bool × Nat)
  /-- The last broadcast it sent, with the tick. -/
  sent : Option (Nat × Bool × Bool × Nat)
  /-- Restarted at this tick, and no broadcast sent since has been received (R496). -/
  fresh : Option Nat
deriving DecidableEq, Repr

/-- Spares, faults and halves (ch. 17). -/
structure RelSt where
  /-- Cause with which a path is retired; 0 in service (R491, R492). -/
  pathRet : Tbl Nat
  sliceRet : Tbl Bool
  orxRet : Tbl Bool
  mcRet : Tbl Bool
  /-- Slice that serves a path; observation receiver that serves a group. -/
  sliceOf : Tbl Nat
  orxOf : Tbl Nat
  /-- Wires retired by direction (0: H0 to H1). -/
  wires : Tbl Nat
  /-- Failed-check periods of a wire, by direction * 32 + wire (R489); wires, and clocks by direction, due for a relay. -/
  wireBad : Tbl (List Nat)
  wireDue : Tbl Bool
  clkDue : Tbl Bool
  /-- Slice a spare shadows, by spare; relays by path (R486, R487). -/
  shadow : Tbl (Option Nat)
  relays : Tbl (Option SliceRelay)
  /-- Spare DAC cells left, by path * 2 + Q (R488). -/
  cells : Tbl Nat
  /-- Ticks of parity errors by memory * 2^32 + location; fenced pages (memory, page) (R481). -/
  parity : Tbl (List Nat)
  fenced : List (Nat × Nat)
  /-- Functions in their safe state (R482): row of Table 136 and index. -/
  safe : List (Nat × Nat)
  /-- Ticks of clock failures by domain * 2 + half (R484). -/
  clkFail : Tbl (List Nat)
  /-- Supervisors: stopped, ticks of divergences, retired (R485). -/
  supStop : Tbl Bool
  supDiv : Tbl (List Nat)
  supRet : Tbl Bool
  baton : Tbl BatonSt
  /-- The dispute under way: the tick it showed, the loser's half and EPOCH, 1 both claimed or 2 neither (R496). -/
  dispute : Option (Nat × Nat × Nat × Nat)
  /-- Reference PLLs retired, and halves whose engines a clock failure has retired (R484). -/
  pllRet : Tbl Bool
  engGone : Tbl Bool
  /-- Reasons of SERVICE_WHY reported so far, in more detail than the register: (reason, half) (R493). -/
  reported : List (Nat × Nat)
  /-- SERVICE_N is asserted by a half (R493). -/
  serviceN : Bool
  /-- Retired units and fenced pages not yet in the fault log: class of Table 135 row or 16 for pages, unit (R522). -/
  logDue : List (Nat × Nat)
  /-- Outputs driven by their twin, and outputs whose drivers have both failed (R386). -/
  onTwin : Tbl Bool
  biasDead : Tbl Bool
  /-- By half, the tick at which the ARR island has relocked after a clock failure (R484). -/
  arrAt : Tbl Nat
  /-- The tick of the last REPLACE_REQUEST message (R493). -/
  replAt : Nat
deriving DecidableEq, Repr

/-- What crosses the die-to-die link (Table 5). -/
inductive D2dWhat where
  | baton
  | airTime
  | command
  | mirror
  /-- A flow's partial sums of a symbol. -/
  | sums (flow sym : Nat)
  /-- A section forwarded. -/
  | sect (flow : Nat)
  /-- A flow's estimates of an occasion; its weights of a solve. -/
  | estimates (flow : Nat)
  | weights (flow : Nat)
  | capture (ctx : Nat)
  | table
  | store
deriving DecidableEq, Repr

/-- A piece of traffic that waits, with the bits of it that have not crossed. -/
structure D2dItem where
  what : D2dWhat
  left : Nat
deriving DecidableEq, Repr

/-- The sending side of a direction of the die-to-die link: what waits, in the order it came; payload bits still owed to replays;
the 32nds of a bit left over from the tick before (R34, R35, R489). -/
structure D2dDir where
  waiting : List D2dItem
  owed : Nat
  frac : Nat
deriving DecidableEq, Repr

/-- The die-to-die link after reset: nothing waits. -/
def D2dDir.reset : D2dDir := { waiting := [], owed := 0, frac := 0 }

/-- A copy of a record in the persistent store (R515, R516): where it lies, and the record it is. -/
structure NvLoc where
  half : Nat
  loc : Nat
  type : Nat
  index : Nat
  copy : Nat
deriving DecidableEq, Repr

/-- A record write (R519): what is written, the copies still to write (half, copy number), those written, its sequence
number once the first copy starts, whether a copy is being written. -/
structure NvJob where
  type : Nat
  index : Nat
  body : List (BitVec 8)
  left : List (Nat × Nat)
  done : Nat
  seq : Option Nat
  writing : Bool
deriving DecidableEq, Repr

/-- The persistent store (R514 to R524): bytes by half * 2^19 + address, copies known, places that failed (half, address,
bytes), writes queued by half, records found unusable, and whether a power-fail record was written since reset. -/
structure NvSt where
  mem : Tbl (BitVec 8)
  dir : List NvLoc
  bad : List (Nat × Nat × Nat)
  queue : Tbl (List NvJob)
  pfWritten : Bool
deriving DecidableEq, Repr

/-- What start-up and the reset inputs hold (R504 to R511): conditions of the core reset by number (0 VDD_AON, 1 RESET_N,
2 brown-out, 3 OFF, 4 a TAP instruction), whether the core reset is asserted, cause seen first, the tick P1 began, fault-log
entries applied, whether test mode has been entered since reset (R476), whether the bias boot records have been handled, and
whether the counter was valid before the reset (Table 133, TIME_INVALID). -/
structure BootSt where
  conds : List Nat
  core : Bool
  cause : Nat
  boRail : Nat
  p1At : Nat
  /-- The tick at which the last condition of the core reset came or went (R504). -/
  clearAt : Nat
  applied : Nat
  entered : Bool
  p0 : Bool
  timeLost : Bool
  /-- Standalone service without an ownership record: every owner that no command has set is SHARED (R543). -/
  ownAll : Bool
  /-- Solver records of the standalone radio record that wait for their flow to open (Table 164). -/
  solvDue : List (Nat × List (BitVec 8))
deriving DecidableEq, Repr

/-- What a TAP's instruction register holds (R535). -/
inductive TapIr where
  | quiet (i : TapQuiet)
  | hold (i : TapHold)
deriving DecidableEq, Repr

/-- A TAP (R535): its instruction, what its boundary cells sampled and what they were preloaded with, by cell. -/
structure Tap where
  ir : TapIr
  sampled : List (BCell × Bool)
  preloaded : List (BCell × Bool)
deriving DecidableEq, Repr

/-- The test access port (R535). -/
structure TapSt where
  h0 : Tap
  h1 : Tap
  /-- TRST_N is high; its on-die pull-down holds it low (R531). -/
  trstHigh : Bool
deriving DecidableEq, Repr


/-- The whole machine. -/
structure State where
  /-- The register file of MW0 by offset; an unlisted register holds its reset value (R407). -/
  regs : Tbl Word
  /-- Lanes and links (ch. 2): by lane, by half. -/
  lanes : Tbl LaneX
  links : Tbl LinkSt
  /-- The coders of each lane. -/
  line : Tbl LineSt
  /-- Packet layer by half, flow contexts, their pending effects and replaced contexts, accepted sections (ch. 3). -/
  pkts : Tbl PktSt
  flows : Tbl Flow
  flowFx : Tbl (List FlowFx)
  flowOld : Tbl (List FlowOld)
  ctrlSecs : List CtrlSec
  dataSecs : List DataSec
  soundSecs : List SoundSec
  /-- Downlink (ch. 4): carrier records in effect and pending, T3 back-off by carrier (0 off, 1 on, 2 on and 3 off
  with its next slot boundary), transmit side by path. -/
  dlCar : Tbl DlCarrier
  dlPend : Tbl (List PendDl)
  /-- The first symbol that the array processor has begun since a carrier was enabled (R132, R144). -/
  dlSince : Tbl (Option Nat)
  backoff : Tbl Nat
  /-- The tick of the slot boundary at which a carrier's T3 back-off last changed (R142). -/
  backAt : Tbl Int
  /-- What the symbols of the last 4 ms had of control sections (R222). -/
  dlOcc : List DlOcc
  txp : Tbl TxPath
  /-- What the five saturation counters have gained since the last DL_SATURATE of a half (R152). -/
  dlSat : Tbl (List Nat)
  /-- Uplink (ch. 5): carrier records in effect and pending, converters, receive side by path, filters, sums. -/
  ulCar : Tbl UlCarrier
  ulPend : Tbl (List PendUl)
  /-- The record that the one in force replaced, with the tick of the change: for symbols that began before it (R155). -/
  ulWas : Tbl (Option (UlCarrier × Int))
  conv : Tbl ConvSt
  rxp : Tbl RxPath
  filt : Tbl FiltSt
  parts : List PartSum
  sums : List SumSym
  /-- What the three saturation counters have gained since the last UL_SATURATE of a half (R176). -/
  ulSat : Tbl (List Nat)
  /-- Beam weights (ch. 6): entries, rows by half * 8,384 + row, free staging and spare rows by half, the bulk loads under way, oldest first,
  solver records and solvers by flow, what BEAM_ZERO has gained by half since the last BEAM_ZERO_SEEN. -/
  beams : Tbl BeamEnt
  rows : Tbl BeamRow
  stage : Tbl (List Nat)
  spareRows : Tbl (List Nat)
  bulk : List BulkSt
  solvRec : Tbl (Option SolverRec)
  solv : Tbl SolvSt
  /-- Predistortion (ch. 7): by path; groups that share an observation receiver; by half, the tick at
  which the span of its last predistortion capture began (R350). -/
  dpd : Tbl DpdPath
  sharedOrx : List Nat
  svcAt : Tbl (Option Int)
  /-- Calibration (ch. 8): by path, references, stored sets, groups, the tie. -/
  calp : Tbl CalPath
  calRefs : CalRefs
  calSets : List CalSet
  grp : Tbl GroupSt
  tie : TieSt
  /-- Synthesis and clocks (ch. 9): hop tables by unit * 64 + entry, synthesisers, the reference PLL. -/
  hops : Tbl HopEnt
  lox : Tbl LoX
  ref : RefSt
  /-- The settings of ARR of H0 and H1 and of ENG of H0 and H1, in %, to which their clocks ramp (R286). -/
  clkTo : Tbl Nat
  /-- Front end (ch. 10): state of each path, what they still have to do, whether the groups' lines are driven, the schedule in force and the pending
  one, scripts by bus * 128 + entry. -/
  fe : Tbl FePath
  feLater : List FeLater
  linesOn : Bool
  sched : Option Sched
  schedPend : Option Sched
  scripts : Tbl (Option ScriptEnt)
  /-- Adaptation engines (ch. 11): by engine; data memories by engine * 2^19 with Y at + 2^18 and the
  window of user slot n at + 2^17 + n * 2^15 (log 13), and pool memories by half * 2^22, both by byte; program memories by
  half * 2^15 with the region of user slot n at + 8,192 + n * 2,048, by bundle; user slots by half * 4 + slot; by half; the engine
  that a group's work has moved to (R345); images being written; series behind (R340) and the
  pacer by series * 256 + subject (Table 87). -/
  eng : Tbl EngSt
  engMem : Tbl (BitVec 8)
  pool : Tbl (BitVec 8)
  prog : Tbl Nat
  slots : Tbl EngSlot
  engHalf : Tbl EngHalf
  engShare : Tbl (Option Nat)
  imgLoads : List ImgLoad
  behind : List (Nat × Nat)
  pace : Tbl (Option Pace)
  /-- Capture (ch. 12): contexts by 4 * half + context; the next record number of each half. -/
  caps : Tbl CapCtx
  capNum : Tbl Nat
  /-- Bias outputs (ch. 13). -/
  bias : Tbl BiasOut
  /-- Temperature sensors by number (ch. 13). -/
  sens : Tbl SensSt
  /-- Monitor converters by half, and whether a throttle level has been taken since reset (R396). -/
  mon : Tbl MonSt
  /-- Host attachment (ch. 14). -/
  host : HostSt
  /-- Commands, events, summaries (ch. 15). -/
  cmd : CmdSt
  /-- Air time and power states (ch. 16). -/
  time : TimeSt
  /-- Spares, faults and halves (ch. 17). -/
  rel : RelSt
  /-- The die-to-die link by sending half (R34, R35), and what the lead half has last mirrored to the other: events raised,
  commands in execution (R495). -/
  d2d : Tbl D2dDir
  mirrored : Nat × Nat
  /-- Persistent store, start-up (ch. 18). -/
  nv : NvSt
  boot : BootSt
  /-- The test access port (ch. 19). -/
  tap : TapSt
  /-- What has left the device, newest first (the model's own log). -/
  sent : List Out
  /-- The free values drawn so far (the model's own counter, log 2). -/
  fresh : Nat
  /-- The commands that wait, first in, first out. -/
  pending : List Instr
deriving DecidableEq, Repr

/-- A lane after reset. -/
def LaneX.reset : LaneX :=
  { fromFault := false, errSeen := false, testFromDisabled := false, testSpare := false, rxReady := false, rxSeen := 0
    stsPre := 0, stsMain := 0, stsPost := 0, reqPre := 0, reqMain := 0, reqPost := 0, fcnt := 0, trainAt := 0, frames := 0
    more := 0, crcRun := 0, lastAm := none, amAt := 0, realign := false, fill := 16, pol := false, fixed := false, reason := 0
    former := none, resuming := false, marginal := false, chkReg := [], chkRun := 0, chkWin := [] }

/-- The coders of a lane after reset: the spec gives the scrambler no seed (log 69). -/
def LineSt.reset : LineSt := { scr := 0, descr := 0, bip := 0, gen := List.replicate 31 true }

/-- The link of a half after reset. -/
def LinkSt.reset : LinkSt :=
  { amseq := 0, amAt := none, nextTag := 0, lastTag := none, out := [], started := false, ccDue := false, aligned := false,
    shed := [], degraded := false }

/-- The packet layer of a half after reset: SEQ and E start at 0 (log 3). -/
def PktSt.reset : PktSt :=
  { e := 0, nakOut := false, ackOwed := false, nextSeq := 0, ackedSeq := 65535, held := [], resendLeft := 0,
    resends := 0, rsync := none, llcp := [], queue := [], stripe := 0, rx := (none, false), lost := [] }

/-- A flow context after reset: CLOSED, OWNER HOST (Table 112), LEAD 150 (Table 26). -/
def Flow.reset : Flow :=
  { state := 0, dir := 0, half := 0, sheddable := false, prio := 0, owner := 0, carrier := 0, comp := 0,
    layers := 0, lead := 150, rsv := 0, accepted := 0, late := 0, early := 0, invalid := 0, shed := 0 }

/-- A downlink carrier record after reset: EN clear. -/
def DlCarrier.reset (c : Nat) : DlCarrier :=
  { carrier := c, en := false, phcomp := false, scs := 0, log2n := 0, nprb := 0, bfShift := 0, ifftShift := 0,
    ncoFreq := 0, gain := ⟨0, 0⟩, power := 0 }

/-- A stage of crest-factor reduction that has seen nothing. -/
def CfrMem.reset : CfrMem := { prev := ⟨0, 0⟩, since := 32, tail := [] }

/-- The transmit side of a path after reset: OFF, unity gain, no correction. -/
def TxPath.reset : TxPath :=
  { state := 0, prods := [], up := [], buf := [], blanks := [], next := none, gain := ⟨16384, 0⟩, adv := 0, df := 0, iq := [], loOff := ⟨0, 0⟩,
    h1 := [], h3 := [], h4 := [], cfr := [], rel := none, x3 := [], x4 := [], h3p := [], was := none,
    warmEnd := none, liveSince := none, underrun := 0, muted := 0, mute := false }

/-- An uplink carrier record after reset: EN clear. -/
def UlCarrier.reset (c : Nat) : UlCarrier :=
  { carrier := c, en := false, phcomp := false, conj := false, scs := 0, log2n := 0, nprb := 0, combShift := 0,
    fftShift := 0, ncoFreq := 0, filtShift := 0, fftAdv := 0 }

/-- A converter after reset: slice 8 rests, slice 0 is next (log 5). -/
def ConvSt.reset : ConvSt := { resting := 8, next := 0, failed := [], retired := [], due := none, corr := [], found := [] }

/-- The receive side of a path after reset. -/
def RxPath.reset : RxPath :=
  { att := 0, bypass := false, pendBypass := none, ovr := false, sprintNow := false, sprintLast := false, onsets := 0,
    sprints := 0, sprintSyms := 0, sprintTicks := [], gains := [], dcI := 0, dcQ := 0, since := 64,
    hist := [], hist3 := [], cars := [], buf := [], energy := 0, codes := 0, iq := [], trim := ⟨0, 0⟩, dly := 0, df := 0,
    table := [] }

/-- A carrier of a slice that has seen no sample. -/
def RxCar.reset : RxCar := { next := none, rest := [], half := [], filt := [] }

/-- The filter banks of a carrier after reset: A selected, both the default filter (R166). -/
def FiltSt.reset : FiltSt := { bankB := false, a := none, b := none, swapAt := none, swaps := [], loading := [] }

/-- A beam-table entry after reset: EMPTY, owned as DEF_OWNER says, mapped to the row of its own number (log 6). -/
def BeamEnt.reset (id : Nat) : BeamEnt := { state := 0, owner := none, row0 := some id, row1 := some id, load := none, was := [] }

/-- A row after reset. -/
def BeamRow.reset : BeamRow := { w := [], testing := false, retired := false }

/-- Staging rows after reset: 64, numbered after the mapped rows (log 6). -/
def stageReset : List Nat := (List.range 64).map (· + 8192)

/-- Spare rows after reset: 128 (R24). -/
def spareReset : List Nat := (List.range 128).map (· + 8256)

/-- A solver bank after reset: FREE. -/
def SolvBank.reset : SolvBank :=
  { state := 0, k := 0, ng := 0, w := [], occ := 0, occTick := 0, ill := [], sat := false, gov := false, effectAt := 0,
    engines := [], team := [], puts := [], rec_ := none, conj := false, paths := [], est := [] }

/-- A flow's solver after reset. -/
def SolvSt.reset : SolvSt :=
  { x := SolvBank.reset, y := SolvBank.reset, was := none, out := false, rxOcc := 0, rxNo := 0, secs := [], occ := none, occTick := 0, occK := 0, freshOcc := false, acc := [],
    est := [], cur := [], estTick := [], old := [], oldTick := [], bad := [], waiting := false }

/-- A predistortion record after reset (R212). -/
def DpdRec.reset (p : Nat) : DpdRec :=
  { path := p, en := true, est := true, kOwn := 5, mOwn := 4, mX := 0, papr := 80, neigh := [none, none, none, none] }

/-- The identity bank (R214). -/
def identityCoef : Tbl Cplx := [(0, ⟨4096, 0⟩)]

/-- A bank after reset: the identity. -/
def DpdBank.reset (st : Nat) : DpdBank :=
  { state := st, coef := identityCoef, sat := false, gov := false, seed := false, rho := 0, at_ := 0, loKhz := 0 }

/-- The predistortion of a path after reset: bank A COMMITTED and in service, B FREE, both the identity (R214). -/
def DpdPath.reset (p : Nat) : DpdPath :=
  { rec_ := DpdRec.reset p, struct_ := none, soft := none, a := DpdBank.reset 3, b := DpdBank.reset 0, bServes := false,
    swapAt := none, direct := false, revertAt := none, dropDue := false, seedWait := false, reverts := 0,
    halted := false, acq := 0, seeds := [], skew := [], estDue := false, estimating := false, record := none, tried := none, dist := 0,
    align := (0, ⟨16384, 0⟩), refresh := false, pulse := [], newPulse := none, ident := false, moved := none, relayed := none }

/-- Calibration of a path after reset: no measurement, unity factor. -/
def CalPath.reset : CalPath :=
  { recip := ⟨16384, 0⟩, cornerTx := 0, cornerRx := 0, resTx := [0, 0, 0], resRx := [0, 0, 0], lastTx := none,
    lastRx := none, temp := 0, suspect := false, clampRun := 0, dueTx := false, dueRx := false, prio := false,
    newTx := false, newRx := false, bareTx := none, bareRx := none, innerTx := 0, innerRx := 0, rawTx := ⟨0, 0, 0⟩,
    rawRx := ⟨0, 0, 0⟩, putTx := false, putRx := false, pend := [] }

/-- A group after reset: no hop entry in use; the full heat of start-up is required (R251). -/
def GroupSt.reset : GroupSt :=
  { entry := none, hop := none, deferred := false, need := 2, heat := 0, step := 0, why := 1, script := false,
    held := false, retune := false, drift := false, blankAt := none }

/-- A hop-table entry after reset: not VALID. -/
def HopEnt.reset : HopEnt := { freq := 0, valid := false, stored := false, band := 0, mid := 0, temp := 0, kdco := 0 }

/-- A synthesiser after reset. -/
def LoX.reset : LoX := { tries := 0, search := false, gates := [], lfsr := 0 }

/-- The front end of a path after reset: IDLE (R296 leaves its lines undriven until the lock). -/
def FePath.reset : FePath :=
  { state := 0, bypSet := false, biasTx := false, lastOff := 0, lowRun := 0, rl := none, mmDue := false, rlMeas := none }

/-- An engine after reset: idle. -/
def EngSt.reset : EngSt := { run := none, saved := [], again := none, test := 0, repairs := [], mism := [], code := 0, busy := [], since := 0 }

/-- A user slot after reset: empty, not bound. -/
def EngSlot.reset : EngSlot := { img := none, bound := none, stops := 0 }

/-- A half's engines after reset: no vendor image. -/
def EngHalf.reset : EngHalf := { mm := none, rot := 0, vendor := none }

/-- A capture context after reset: IDLE, without a record. -/
def CapCtx.reset : CapCtx :=
  { cur := none, next := none, owner := none, left := none, missed := 0, fillAt := 0, trigTick := 0, preValid := 0, short := false,
    trigAt := ⟨0, 0, 0, 0, 0⟩, trunc := false, acqs := 0, sums := [], firstAt := ⟨0, 0, 0, 0, 0⟩, occ := 0, hold := none, begun := false, off := 0,
    done := false, stop := false, records := 0 }

/-- The record of a bias output before any BIAS_SET. -/
def BiasRec.reset (n : Nat) : BiasRec :=
  { output := n, span := 0, drive := false, pulse := false, tx := 0, rx := 0, park := 0, slew := 0 }

/-- A bias output after reset: UNDRIVEN, owned as DEF_OWNER says. -/
def BiasOut.reset (n : Nat) : BiasOut :=
  { car := BiasRec.reset n, state := 0, owner := none, pend := none, boot := none, code := 0, twinRet := false,
    readback := 0, trimOff := 0, trimGain := 0, missRun := 0, returning := 0, frm := 0, chg := 0, ext := false }

/-- A sensor after reset: healthy, no reading yet (log 10); the trim and window of a part without its factory record (log 81). -/
def SensSt.reset : SensSt :=
  { reading := 0, est := 0, offset := 0, failed := false, badRun := 0, okRun := 0, neigh := [], c0 := 0, t0 := 0, c1 := 1, t1 := 1
    lo := 0, hi := 2 ^ 32 }

/-- Nominal mV of each rail point (Table 97). -/
def railNominal : List Int := [750, 750, 750, 750, 850, 850, 1000, 1000, 900, 1200, 1800, 1800, 1800, 1800, 6000, -6000]

/-- The monitor of a half after reset: converters 0 and 1 in service, 2 resting (Table 3, log 5). -/
def MonSt.reset : MonSt :=
  { inService := [0, 1], resting := some 2, katRun := [], restRun := [], ovr := [], inj := [], noRound := true, warn := 0,
    tj := none, hot := false, auxOut := false, dacK := 0, trim := [], div := railNominal.map (2 * ·)
    ref := [0, 214748, 16384, 45056, 73728, 102400, 131072, 159744, 188416, 217088], pfAt := 0, reduceAt := none }

/-- The host attachment after reset: rings disabled by their registers, nothing fetched (R405, R414). -/
def HostSt.reset : HostSt :=
  { mw2 := [], lastBulk := true, d3hot := false, linkUp := false, exec := [], evtEver := false, lost := 0,
    lostSeq := 0, pendCpl := 0, pendEvt := 0, cplAt := 0, evtAt := 0, svid := 0x1F6D, ssid := 0, writes := 0, due := [], spiErr := 0, pfReady := false, pfBuf := [],
    nvUnlocked := false }

/-- Commands and events after reset: none; SEQ starts at 0 and every class carries ROUTE 0x01 (R442). -/
def CmdSt.reset : CmdSt :=
  { held := [], draining := false, longs := [], txns := [], txnDone := [], lastTag := [], snap := 0, seq := 0, seqH1 := 0,
    evtWritten := 0, history := [], route := [], evtQ := [], cplQ := [], rates := [] }

/-- Air time after reset: the count is 0 and invalid, and transmission is held (R450); the counter advances. -/
def TimeSt.reset : TimeSt :=
  { now := 0, count := 0, valid := false, running := true, subPs := 0, h1Diff := 0, h1Reload := false, ams := [],
    waitSet := [], corr := none, tsyncLast := [], lastWake := none, txHeld := true, wakeHold := [], timedHold := [], timed := [],
    wakeFrom := [], entry := [], due := [], retryAt := [], saved := none, savedCoast := false }

/-- The baton after reset: H0 holds it with epoch 1 (R494); H1 starts with the same epoch and no claim (log 7). -/
def BatonSt.reset (h : Nat) : BatonSt := { epoch := 1, claim := h == 0, copying := false, rx := none, sent := none, fresh := none }

/-- Spares and faults after reset: the default assignment of Table 3, nothing retired. -/
def RelSt.reset : RelSt :=
  { pathRet := [], sliceRet := [], orxRet := [], mcRet := [], sliceOf := [], orxOf := [], wires := [], wireBad := [],
    wireDue := [], clkDue := [], shadow := [], relays := [], cells := [], parity := [],
    fenced := [], safe := [], clkFail := [], supStop := [], supDiv := [], supRet := [], baton := [], dispute := none, pllRet := [], engGone := [], reported := [],
    serviceN := false, logDue := [], onTwin := [], biasDead := [], arrAt := [], replAt := 0 }

/-- Start-up after reset: P1 begins (SU_BOOT_STAT resets to it). -/
def BootSt.reset : BootSt :=
  { conds := [], core := false, cause := 0, boRail := 0, p1At := 0, clearAt := 0, applied := 0, entered := false,
    p0 := false, timeLost := false, ownAll := false, solvDue := [] }

/-- An empty store (log 1: what an unwritten byte reads as). -/
def NvSt.reset : NvSt := { mem := [], dir := [], bad := [], queue := [], pfWritten := false }

/-- A TAP in Test-Logic-Reset: IDCODE (IEEE 1149.1, log 19). -/
def Tap.reset : Tap := { ir := .quiet .idcode, sampled := [], preloaded := [] }

/-- TRST_N lies low by its pull-down. -/
def TapSt.reset : TapSt := { h0 := Tap.reset, h1 := Tap.reset, trstHigh := false }

/-- The machine right after reset. -/
def State.reset : State :=
  { regs := []
    lanes := []
    links := []
    line := []
    pkts := []
    flows := []
    flowFx := []
    flowOld := []
    ctrlSecs := []
    dataSecs := []
    soundSecs := []
    dlCar := []
    dlPend := []
    dlSince := []
    backoff := []
    backAt := []
    dlOcc := []
    txp := []
    dlSat := []
    ulCar := []
    ulPend := []
    ulWas := []
    conv := []
    rxp := []
    filt := []
    parts := []
    sums := []
    ulSat := []
    beams := []
    rows := []
    stage := []
    spareRows := []
    bulk := []
    solvRec := []
    solv := []
    dpd := []
    sharedOrx := []
    svcAt := []
    calp := []
    calRefs := { txGain := 0, txPhase := (0, 0), rxGain := 0, rxPhase := (0, 0) }
    calSets := []
    grp := []
    tie := { val := none, last := none, fails := 0 }
    hops := []
    lox := []
    ref := { jump := 0, lostAt := 0, muteAt := none, muteFrom := none, present := false, presentH1 := false, h1Locked := false }
    clkTo := []
    fe := []
    feLater := []
    linesOn := false
    sched := none
    schedPend := none
    scripts := []
    eng := []
    engMem := []
    pool := []
    prog := []
    slots := []
    engHalf := []
    engShare := []
    imgLoads := []
    behind := []
    pace := []
    caps := []
    capNum := []
    bias := []
    sens := []
    mon := []
    host := HostSt.reset
    cmd := CmdSt.reset
    time := TimeSt.reset
    rel := RelSt.reset
    d2d := []
    mirrored := (0, 0)
    nv := NvSt.reset
    boot := BootSt.reset
    tap := TapSt.reset
    sent := []
    fresh := 0
    pending := [] }

end Sys2Proof.Machine
end

