-- ==== Sys2Proof/Machine/Ops.lean ====
section
/-! DEFINITION. The named operations that every family shares: sparse tables, the register file, byte layouts, air time,
events, messages, interrupts and completions. -/

namespace Sys2Proof

/-- FLAGS of a descriptor (Table 115): TIMED, FENCE. -/
def Cmd.timed (c : Cmd) : Bool := c.flags % 2 == 1
def Cmd.fence (c : Cmd) : Bool := c.flags / 2 % 2 == 1

/-- DADDR is not 8-byte aligned (R435). -/
def Cmd.misaligned (c : Cmd) : Bool := !(c.daddr % 8 == 0)

/-- A transaction's packet carries fewer than DLEN bytes (R443). -/
def Cmd.short (c : Cmd) : Bool := decide (c.given < c.dlen)

end Sys2Proof

namespace Sys2Proof.Machine

/-! ## Sparse tables -/

/-- The entry listed under a key. -/
def tfind {α : Type} (k : Nat) : Tbl α → Option α
  | [] => none
  | (a, x) :: r => if a = k then some x else tfind k r

/-- The entry under a key, listed or default. -/
def tget {α : Type} (d : Nat → α) (t : Tbl α) (k : Nat) : α := (tfind k t).getD (d k)

/-- List an entry, in key order, in place of the one listed under its key. -/
def tins {α : Type} (k : Nat) (v : α) : Tbl α → Tbl α
  | [] => [(k, v)]
  | (a, x) :: r => if k < a then (k, v) :: (a, x) :: r else if k = a then (k, v) :: r else (a, x) :: tins k v r

/-- List nothing under a key. -/
def tdel {α : Type} (k : Nat) (t : Tbl α) : Tbl α := t.filter (fun e => !(e.1 == k))

/-- Set the entry under a key; setting the default lists nothing, so that equal tables are equal lists. -/
def tset {α : Type} [DecidableEq α] (d : Nat → α) (t : Tbl α) (k : Nat) (v : α) : Tbl α :=
  if v = d k then tdel k t else tins k v t

/-- The canonical form: keys strictly rise and no listed entry is the default. -/
abbrev Twf {α : Type} (d : Nat → α) (t : Tbl α) : Prop :=
  t.Pairwise (fun a b => a.1 < b.1) ∧ ∀ e ∈ t, e.2 ≠ d e.1

/-! ## The register file -/

/-- The register at an offset of MW0. -/
def State.reg (s : State) (off : Nat) : Word := tget regReset s.regs off

/-- Set the register at an offset. -/
def State.setReg (s : State) (off : Nat) (v : Word) : State := { s with regs := tset regReset s.regs off v }

/-- The bits of a field as they stand. -/
def State.raw (s : State) (x : Fld) : Nat := fget (s.reg x.off) x.lo x.w

/-- A field's value in force: a reserved encoding counts as the field's reset value (R9). -/
def State.f (s : State) (x : Fld) : Nat :=
  if x.okLo ≤ s.raw x ∧ s.raw x ≤ x.okHi then s.raw x else x.rst

/-- A one-bit field that is set. -/
def State.on (s : State) (x : Fld) : Bool := s.f x == 1

/-- Set a field. -/
def State.setF (s : State) (x : Fld) (v : Nat) : State := s.setReg x.off (fset (s.reg x.off) x.lo x.w v)

/-- Set a one-bit field from a truth value. -/
def State.setB (s : State) (x : Fld) (b : Bool) : State := s.setF x (b2n b)

/-- Count `n` events in a counter, which saturates at its all-ones value (R129, R151 and others). -/
def State.bump (s : State) (x : Fld) (n : Nat) : State := s.setF x (min (s.raw x + n) (2 ^ x.w - 1))

/-- Log something that leaves the device. -/
def State.emit (s : State) (o : Out) : State := { s with sent := o :: s.sent }

/-- Draw a free bit (log 2). -/
def State.freeBit (s : State) : Bool × State := (Config.freeBit s.fresh, { s with fresh := s.fresh + 1 })

/-- Draw a free number (log 2). -/
def State.freeNat (s : State) : Nat × State := (Config.freeNat s.fresh, { s with fresh := s.fresh + 1 })

/-! ## Byte layouts (R13) -/

/-- `n` bytes, least significant first. -/
def leBytes : Nat → Nat → List Byte
  | 0, _ => []
  | n + 1, v => BitVec.ofNat 8 v :: leBytes n (v / 256)

/-- `n` bytes, most significant first. -/
def beBytes (n v : Nat) : List Byte := (leBytes n v).reverse

/-- The number that bytes spell, least significant first. -/
def leNat : List Byte → Nat
  | [] => 0
  | b :: r => b.toNat + 256 * leNat r

/-- `n` reserved bytes. -/
def zeros (n : Nat) : List Byte := List.replicate n 0

/-- A signed value in two's complement of `n` bytes. -/
def leInt (n : Nat) (v : Int) : List Byte := leBytes n (v % (2 ^ (8 * n) : Int)).toNat

/-- A 16+16 value in a 32-bit word: I in the more significant half (R14). -/
def leCplx (z : Cplx) : List Byte := leInt 2 z.im ++ leInt 2 z.re

/-- A bit mask of `n` items as `m` bytes, item 0 in bit 0 of byte 0. -/
def maskNat (n : Nat) (p : Nat → Bool) : Nat := ((List.range n).map fun i => if p i then 2 ^ i else 0).sum

/-- Take exactly `n` bytes, padding with zeros. -/
def fitBytes (n : Nat) (l : List Byte) : List Byte := (l ++ zeros n).take n

/-- One bit through the register of a CRC with the polynomial's low bits, msb first. -/
def crcBitMsb (w poly : Nat) (c : Nat) (bit : Bool) : Nat :=
  let top := decide (c / 2 ^ (w - 1) % 2 = 1)
  let sh := c * 2 % 2 ^ w
  if top != bit then Nat.xor sh poly else sh

/-- CRC over bytes, msb first: width, polynomial, initial value (Tables 13 and 23). -/
def crcMsb (w poly init : Nat) (l : List Byte) : Nat :=
  l.foldl (fun c b => (List.range 8).foldl (fun c i => crcBitMsb w poly c (b.getLsbD (7 - i))) c) init

/-- CRC-8 of Table 13. -/
def crc8 (l : List Byte) : Nat := crcMsb 8 0x07 0 l

/-- CRC-16 of the packet header (Table 23). -/
def crc16 (l : List Byte) : Nat := crcMsb 16 0x1021 0xFFFF l

/-- One bit through the reflected CRC-32 register. -/
def crcBitLsb (c : Nat) (bit : Bool) : Nat :=
  let low := decide (c % 2 = 1)
  let sh := c / 2
  if low != bit then Nat.xor sh 0xEDB88320 else sh

/-- CRC-32 of the IEEE 802.3 frame check sequence (Table 23). -/
def crc32 (l : List Byte) : Nat :=
  Nat.xor (l.foldl (fun c b => (List.range 8).foldl (fun c i => crcBitLsb c (b.getLsbD i)) c) 0xFFFFFFFF) 0xFFFFFFFF

/-! ## Small list helpers -/

/-- Replace the first element that satisfies a test. -/
def setFirst {α : Type} (p : α → Bool) (f : α → α) : List α → List α
  | [] => []
  | x :: r => if p x then f x :: r else x :: setFirst p f r

/-- Insert by a key, after the entries whose key is not greater. -/
def insertBy {α : Type} (k : α → Nat) (x : α) : List α → List α
  | [] => [x]
  | y :: r => if k y ≤ k x then y :: insertBy k x r else x :: y :: r

/-- The entry at a position, or a default. -/
def nth {α : Type} (l : List α) (i : Nat) (d : α) : α := (l[i]?).getD d

/-- Write an entry at a position. -/
def setNth {α : Type} : List α → Nat → α → List α
  | [], _, _ => []
  | _ :: r, 0, v => v :: r
  | x :: r, i + 1, v => x :: setNth r i v

/-! ## Air time (R139, R448) -/

/-- Start of symbol `k` of a subframe at numerology `mu`, in ticks of the subframe: the first symbol of each half
millisecond is 256 ticks longer (R139). -/
def symStart (mu k : Nat) : Nat :=
  let h := k / (7 * 2 ^ mu)
  let j := k % (7 * 2 ^ mu)
  h * 245760 + j * (35072 / 2 ^ mu) + (if j = 0 then 0 else 256)

/-- The symbol of a subframe that holds a tick. -/
def symOf (mu t : Nat) : Nat :=
  let h := t / 245760
  let r := t % 245760
  h * (7 * 2 ^ mu) + (if r < 256 then 0 else (r - 256) / (35072 / 2 ^ mu))

/-- A count of the cycle as an air-time stamp at numerology `mu`. -/
def stampOf (mu c : Nat) : Stamp :=
  let c := c % Config.ticksPerCycle
  let t := c % Config.ticksPerSubframe
  let k := symOf mu t
  { sfn := c / (10 * Config.ticksPerSubframe)
    subframe := c / Config.ticksPerSubframe % 10
    slot := k / 14
    symbol := k % 14
    tick := t - symStart mu k }

/-- The count of the cycle that a stamp names. -/
def countOf (mu : Nat) (a : Stamp) : Nat :=
  ((a.sfn * 10 + a.subframe) * Config.ticksPerSubframe + symStart mu (a.slot * 14 + a.symbol) + a.tick)
    % Config.ticksPerCycle

/-- Ticks of symbol `k` of a subframe. -/
def symLen (mu k : Nat) : Nat := symStart mu (k + 1) - symStart mu k

/-- Whether a stamp names an existing instant: its subframe, slot, symbol and tick within their ranges (R451). -/
def stampOk (mu : Nat) (a : Stamp) : Bool :=
  decide (a.sfn < 1024) && decide (a.subframe < 10) && decide (a.slot < 2 ^ mu) && decide (a.symbol < 14)
    && decide (a.tick < symLen mu (a.slot * 14 + a.symbol))

/-- The 4-byte ATIME of Table 28. -/
def atimeWord (a : Stamp) : Nat :=
  a.sfn * 2 ^ 22 + a.subframe * 2 ^ 18 + a.slot * 2 ^ 16 + a.symbol * 2 ^ 12

/-- The stamp an ATIME and TICK spell (Table 28). -/
def stampOfWord (w tick : Nat) : Stamp :=
  { sfn := w / 2 ^ 22 % 1024, subframe := w / 2 ^ 18 % 16, slot := w / 2 ^ 16 % 4, symbol := w / 2 ^ 12 % 16,
    tick := tick }

/-- Start of the symbol `n` symbols after the one that starts at a count. -/
def addSymbols (mu : Nat) : Nat → Nat → Nat
  | 0, c => c % Config.ticksPerCycle
  | n + 1, c =>
    let c := c % Config.ticksPerCycle
    let t := c % Config.ticksPerSubframe
    addSymbols mu n (c - t + symStart mu (symOf mu t + 1))

/-- The count at or after `c` that starts a slot. -/
def nextSlot (mu c : Nat) : Nat :=
  let len := Config.ticksPerSubframe / 2 ^ mu
  (c + len - 1) / len * len % Config.ticksPerCycle

/-- How far count `b` lies after count `a`, to the nearest occurrence of both in the cycle: negative when it lies
before (log 4). -/
def ahead (a b : Nat) : Int :=
  let d := ((b : Int) - a) % (Config.ticksPerCycle : Int)
  if d * 2 < (Config.ticksPerCycle : Int) then d else d - Config.ticksPerCycle

/-- Microseconds in ticks, exactly: 49,152 ticks in 100 µs. Whether `d` ticks are at least `us` µs. -/
def atLeastUs (d : Int) (us : Nat) : Bool := decide ((us : Int) * 49152 ≤ d * 100)

/-- A whole number of µs in ticks, rounded up. -/
def usTicks (us : Nat) : Nat := ceilDiv (us * 49152) 100

/-- Ticks in ps: one tick is 390,625 / 192 ps (R15). -/
def ticksPs (t : Int) : Int := t * 390625 / 192

/-- Saturating increment of a 32-bit count. -/
def inc32 (n k : Nat) : Nat := min (n + k) (2 ^ 32 - 1)

/-! ## The device at large -/

/-- Split mode is in force (R497). -/
def State.split (s : State) : Bool := s.on Rg.CFG_STAT_SPLIT

/-- Standalone service is in force (R7). -/
def State.standalone (s : State) : Bool := s.on Rg.CFG_STAT_STANDALONE

/-- The lead half (R32). -/
def State.lead (s : State) : Nat := s.raw Rg.CFG_STAT_LEAD

/-- Set-up is locked (R12). -/
def State.locked (s : State) : Bool := s.on Rg.CFG_STAT_LOCKED

/-- The thermal shutdown latch (R398). -/
def State.shutdown (s : State) : Bool := s.on Rg.CFG_STAT_SHUTDOWN

/-- READY (R511). -/
def State.ready (s : State) : Bool := s.on Rg.BOOT_STAT_READY

/-- A group is in service under the path configuration (R3, R5). -/
def State.groupIn (s : State) (g : Nat) : Bool :=
  match s.raw Rg.CFG_STAT_PATHCFG with
  | 0 => false
  | 1 => decide (g < 2)
  | 2 => decide (g < 4)
  | _ => decide (g < 8)

/-- Paths in service: 0, 16, 32 or 64 (Table 1). -/
def State.pathCount (s : State) : Nat :=
  match s.raw Rg.CFG_STAT_PATHCFG with
  | 0 => 0
  | 1 => 16
  | 2 => 32
  | _ => 64

/-- The device may carry traffic: in the 16-path configuration, and in the others once set-up is complete (R6). -/
def State.carries (s : State) : Bool := s.raw Rg.CFG_STAT_PATHCFG == 1 || s.locked

/-- The state of a voting domain: 0 RUN, 1 IDLE, 2 SLEEP, 3 DEEP, 5 WAKING (SU_PM_STAT0, R475). -/
def State.dom (s : State) (h d : Nat) : Nat := fget (s.reg (0x0828 + 4 * h)) (3 * d) 3

/-- Put a voting domain into a state. -/
def State.setDom (s : State) (h d v : Nat) : State :=
  s.setReg (0x0828 + 4 * h) (fset (s.reg (0x0828 + 4 * h)) (3 * d) 3 v)

/-- A group's domain on its half: positions 2 to 5 of SU_VOTE_OWNER. -/
def State.groupRun (s : State) (g : Nat) : Bool := s.dom (g / 4) (2 + g % 4) == 0

/-- Change the host-attachment state. -/
def State.mapHost (s : State) (f : HostSt → HostSt) : State := { s with host := f s.host }

/-- Change the command state. -/
def State.mapCmd (s : State) (f : CmdSt → CmdSt) : State := { s with cmd := f s.cmd }

/-- Change the time state. -/
def State.mapTime (s : State) (f : TimeSt → TimeSt) : State := { s with time := f s.time }

/-- The packet layer of a half. -/
def State.pkt (s : State) (h : Nat) : PktSt := tget (fun _ => PktSt.reset) s.pkts h

/-- Change the packet layer of a half. -/
def State.mapPkt (s : State) (h : Nat) (f : PktSt → PktSt) : State :=
  { s with pkts := tset (fun _ => PktSt.reset) s.pkts h (f (s.pkt h)) }

/-- The link of a half. -/
def State.link (s : State) (h : Nat) : LinkSt := tget (fun _ => LinkSt.reset) s.links h

/-- Change the link of a half. -/
def State.mapLink (s : State) (h : Nat) (f : LinkSt → LinkSt) : State :=
  { s with links := tset (fun _ => LinkSt.reset) s.links h (f (s.link h)) }

/-- What a lane holds beside its registers. -/
def State.lane (s : State) (n : Nat) : LaneX := tget (fun _ => LaneX.reset) s.lanes n

/-- Change what a lane holds. -/
def State.mapLane (s : State) (n : Nat) (f : LaneX → LaneX) : State :=
  { s with lanes := tset (fun _ => LaneX.reset) s.lanes n (f (s.lane n)) }

/-- STATE of a lane (Table 18). -/
def State.laneState (s : State) (n : Nat) : Nat := s.raw (Rg.LANE_STAT_STATE n)

/-- The lanes of a half in lane order, the spare last (Table 3). -/
def halfLanes (h : Nat) : List Nat := (List.range 5).map (· + 5 * h)

/-- The ACTIVE lanes of a half. -/
def State.activeLanes (s : State) (h : Nat) : List Nat := (halfLanes h).filter fun n => s.laneState n == 5

/-- A flow context. -/
def State.flow (s : State) (n : Nat) : Flow := tget (fun _ => Flow.reset) s.flows n

/-- Set a flow context. -/
def State.setFlow (s : State) (n : Nat) (f : Flow) : State := { s with flows := tset (fun _ => Flow.reset) s.flows n f }

/-- The numerology MU_REF in which air time is reported (R448): kept beside the counter in SU_AT_NOW1. -/
def State.muRef (s : State) : Nat := s.raw Rg.AT_NOW1_MU

/-- The stamp of this instant. -/
def State.stamp (s : State) : Stamp := stampOf s.muRef s.time.count

/-- A domain's clock runs as the reference PLL needs: STATE LOCKED, SLEW, STEP_PENDING or COAST (R267, R269, R270). -/
def State.refRuns (s : State) : Bool :=
  match s.raw Rg.REF_STAT_STATE with
  | 1 | 2 | 3 | 4 => true
  | _ => false

/-! ## Interrupts, alert and status block -/

/-- Raise the MSI-X message of a vector, or its pending bit while the vector is masked (R426). -/
def State.msix (s : State) (vec : Nat) : State :=
  if s.on (Rg.MSIX_MASK vec) then s.setF Rg.MSIX_PBA (Nat.lor (s.raw Rg.MSIX_PBA) (2 ^ vec))
  else s.emit (.msix vec)

/-- Raise an interrupt source through SU_MSIX_MAP (Table 110); D3hot stops interrupts (R406). -/
def State.irq (s : State) (src : Nat) : State :=
  if s.host.d3hot then s else s.msix (fget (s.reg 0x0200) (4 * src) 4)

/-- Set a bit of SU_ALERT_STAT; a rising bit raises the ALERT source (R412). -/
def State.alert (s : State) (x : Fld) : State := if s.on x then s else (s.setF x 1).irq 4

/-- ALERT_N is asserted: a bit of SU_ALERT_STAT is set and not masked; bits 0 to 2 cannot be masked (R412). -/
def State.alertN (s : State) : Bool := !(s.reg 0x0014 &&& ~~~(s.reg 0x0018 &&& 0x38#32) &&& 0x3F#32 == 0)

/-- Device index of a ring (R413): C of a host-produced ring, P of CPL and EVT. -/
def State.devIdx (s : State) (r : Nat) : Nat := s.raw (Rg.RING_IDX_DEV_IDX r)

/-- Host index of a ring. -/
def State.hostIdx (s : State) (r : Nat) : Nat := s.raw (Rg.RING_IDX_HOST_IDX r)

/-- Entries of a ring (R413). -/
def State.ringSize (s : State) (r : Nat) : Nat := 2 ^ s.f (Rg.RING_CTL_SIZE_LOG2 r)

/-- A ring is ENABLED. -/
def State.ringOn (s : State) (r : Nat) : Bool := s.raw (Rg.RING_CTL_STATE r) == 1

/-- Entries between an index and another, modulo the ring's size. -/
def State.ringDist (s : State) (r a b : Nat) : Nat := (b + s.ringSize r - a) % s.ringSize r

/-- Free entries of a device-produced ring: S - 1 - (P - C) mod S (R420). -/
def State.ringFree (s : State) (r : Nat) : Nat := s.ringSize r - 1 - s.ringDist r (s.hostIdx r) (s.devIdx r)

/-- Any ring is ENABLED. -/
def State.anyRing (s : State) : Bool := (List.range 6).any s.ringOn

/-- Write the whole status block (R422, Table 111). -/
def State.writeStatus (s : State) : State :=
  if s.reg 0x0020 = 0 ∧ s.reg 0x0024 = 0 then s
  else
    let n := s.host.writes + 1
    (s.mapHost fun h => { h with writes := n % 2 ^ 32 }).emit
      (.statusBlock (((List.range 6).map fun r => leBytes 2 (s.devIdx r)).flatten ++ leBytes 4 n
        ++ leBytes 4 (s.reg 0x0014).toNat ++ leBytes 4 (fget (s.reg 0x0008) 2 9) ++ zeros 40))

/-- Set a device index and publish it (R413, R422). -/
def State.setDevIdx (s : State) (r i : Nat) : State := (s.setF (Rg.RING_IDX_DEV_IDX r) i).writeStatus

/-- The device may write host memory: HOSTIF is in RUN and the function is in D0 (R406, R464). -/
def State.canWriteHost (s : State) : Bool := !s.host.d3hot && s.dom 0 7 == 0

/-- A message under moderation falls due (R427): the count since the last one reached COUNT, or COUNT is 0; and with a TIME of 0
none is withheld. -/
def moderated (count time pend : Nat) : Bool := decide (count ≤ pend) || time == 0

/-! ## Messages -/

/-- Put a packet into a half's transmit queue (R101). -/
def State.queueTx (s : State) (h : Nat) (it : TxItem) : State := s.mapPkt h fun p => { p with queue := p.queue ++ [it] }

/-- A message of Table 34: its head and payload, in a MSG packet of one message (R121). -/
def msgItem (code : Nat) (payload : List Byte) : TxItem :=
  { type := 3, flow := 0, nsec := 1, deadline := 0, body := beBytes 2 code ++ beBytes 2 (4 + payload.length) ++ payload }

/-- Send a message on a half. -/
def State.sendMsg (s : State) (h code : Nat) (payload : List Byte) : State := s.queueTx h (msgItem code payload)

/-- The half on which a message travels: the lead half, or the other if the lead has no ACTIVE lane (R121). -/
def State.msgHalf (s : State) : Nat := if s.activeLanes s.lead = [] then 1 - s.lead else s.lead

/-! ## Events -/

/-- An event as the 32 bytes of Table 119. -/
def Event.bytes (e : Event) : List Byte :=
  leBytes 2 e.code ++ leBytes 1 (e.half + 2 * b2n e.aValid + 4 * b2n e.onNkl) ++ leBytes 1 0 ++ leBytes 4 e.seq
    ++ leBytes 4 e.atime ++ leBytes 2 e.tick ++ leBytes 2 e.subject
    ++ ((List.range 4).map fun i => leBytes 4 (nth e.args i 0)).flatten

/-- The ROUTE byte of a class; 0x01 after reset (R442). In split mode each half routes by its own copy (R497). -/
def State.routeOf (s : State) (half cls : Nat) : Nat := tget (fun _ => 1) s.cmd.route (cls + 256 * b2n (s.split && half == 1))

/-- A dispute, or a lead half whose supervisor has stopped: no half acts as lead (R495, R496). -/
def State.leaderless (s : State) : Bool := s.on Rg.REL_STAT_DISPUTE || tget (fun _ => false) s.rel.supStop s.lead

/-- Number an event and put it into the history (R441). -/
def State.record (s : State) (half code subject : Nat) (args : List Nat) : Event × State :=
  let own := s.split && half == 1
  let n := ((if own then s.cmd.seqH1 else s.cmd.seq) + 1) % 2 ^ 32
  let a := s.stamp
  let rt := s.routeOf half (code / 256)
  let e : Event :=
    { code := code, half := half, aValid := s.time.valid
      onNkl := rt / 2 % 2 == 1 || s.standalone || own
      seq := n, atime := atimeWord a, tick := a.tick, subject := subject, args := args.map (· % 2 ^ 32) }
  (e, s.mapCmd fun c =>
    { c with seq := if own then c.seq else n, seqH1 := if own then n else c.seqH1, history := (e :: c.history).take 16 })

/-- Write an event at EVT's producer index, with the interrupts it raises (R421, R426, R427, R442). -/
def State.putEvt (s : State) (e : Event) : State :=
  let p := s.devIdx 3
  let s := s.emit (.evtEntry p e)
  let s := (s.setDevIdx 3 ((p + 1) % s.ringSize 3)).mapCmd fun c => { c with evtWritten := e.seq }
  let s := s.mapHost fun h => { h with pendEvt := h.pendEvt + 1, evtAt := if h.pendEvt = 0 then s.time.now else h.evtAt }
  let s := if moderated (s.f Rg.IRQ_MOD_EVT_COUNT) (s.f Rg.IRQ_MOD_EVT_TIME) s.host.pendEvt then
      (s.irq 2).mapHost fun h => { h with pendEvt := 0 } else s
  let rt := s.routeOf e.half (e.code / 256)
  if rt / 4 % 2 = 1 ∧ !s.host.d3hot then s.msix (8 + rt / 8 % 8) else s

/-- EVT can take an entry. -/
def State.evtSpace (s : State) : Bool := s.ringOn 3 && decide (0 < s.ringFree 3)

/-- Events have been lost and an entry is free: write the lost-events event first (R421). -/
def State.flushLost (s : State) : State :=
  if 0 < s.host.lost ∧ s.evtSpace then
    let n := s.host.lost
    let q := s.host.lostSeq
    let (e, s) := s.record 0 Ev.EVENTS_LOST 0 [n, q]
    (s.putEvt e).mapHost fun h => { h with lost := 0, lostSeq := 0 }
  else s

/-- Drop an event that EVT cannot take (R421). -/
def State.dropEvt (s : State) (e : Event) : State :=
  ((s.bump Rg.C_EVT_LOST 1).alert Rg.ALERT_STAT_EVT_LOST).mapHost fun h =>
    { h with lost := h.lost + 1, lostSeq := if h.lost = 0 then e.seq else h.lostSeq }

/-- Write an event to EVT, or keep it for HOSTIF, or lose it (R421, R464). -/
def State.writeEvt (s : State) (e : Event) : State :=
  if !s.host.evtEver then s
  else if !s.canWriteHost then s.mapHost fun h => { h with due := h.due ++ [.evt e] }
  else
    let s := s.flushLost
    if s.evtSpace then s.putEvt e else s.dropEvt e

/-- Raise an event outside a dispute: number it, write it to EVT and send it on NKL as its class is routed
(R441, R442, R122). In split mode H1 sends its events as messages only (R497). -/
def State.raiseNow (s : State) (half code subject : Nat) (args : List Nat) : State :=
  let (e, s) := s.record half code subject args
  let rt := s.routeOf half (code / 256)
  let toEvt := (rt % 2 == 1 || code == Ev.RING_HALTED || code == Ev.EVENTS_LOST) && !(s.split && half == 1)
  let s := if toEvt then s.writeEvt e else s
  if e.onNkl then s.sendMsg (if s.split then half else s.msgHalf) 0x0005 e.bytes else s

/-- Raise an event; in a dispute it waits for the winner, who numbers it (R496). -/
def State.raise (s : State) (half code subject : Nat) (args : List Nat) : State :=
  if s.leaderless then s.mapCmd fun c => { c with evtQ := c.evtQ ++ [(half, code, subject, args)] }
  else s.raiseNow half code subject args

/-- The rate-limit record of an event and subject. -/
def State.rate (s : State) (code subject : Nat) : RateRec :=
  tget (fun _ => ⟨none, 0⟩) s.cmd.rates (code * 65536 + subject)

/-- Set the rate-limit record of an event and subject. -/
def State.setRate (s : State) (code subject : Nat) (r : RateRec) : State :=
  s.mapCmd fun c => { c with rates := tset (fun _ => ⟨none, 0⟩) c.rates (code * 65536 + subject) r }

/-- Raise an event at most once per subject in `ticks`, carrying the count since the previous one as ARG0 and then
`rest` (R117, R145, R176, R365 and others). -/
def State.raiseLimited (s : State) (half code subject ticks n : Nat) (rest : List Nat) : State :=
  let r := s.rate code subject
  let c := r.since + n
  match r.last with
  | some t =>
    if s.time.now < t + ticks then s.setRate code subject { r with since := c }
    else (s.setRate code subject ⟨some s.time.now, 0⟩).raise half code subject (c :: rest)
  | none => (s.setRate code subject ⟨some s.time.now, 0⟩).raise half code subject (c :: rest)

/-- Count towards the next event of a subject without raising one. -/
def State.countLimited (s : State) (code subject n : Nat) : State :=
  s.setRate code subject { s.rate code subject with since := (s.rate code subject).since + n }

/-- Raise an event at most once per subject in `ticks`, with the arguments of the moment (R204, R309 and others). -/
def State.raiseOnce (s : State) (half code subject ticks : Nat) (args : List Nat) : State :=
  match (s.rate code subject).last with
  | some t => if s.time.now < t + ticks then s else (s.setRate code subject ⟨some s.time.now, 0⟩).raise half code subject args
  | none => (s.setRate code subject ⟨some s.time.now, 0⟩).raise half code subject args

/-- A signed argument as its 32-bit field. -/
def argInt (v : Int) : Nat := (v % 2 ^ 32).toNat

/-! ## Completions -/

/-- A completion as the 32 bytes of Table 116. -/
def Cpl.bytes (c : Cpl) : List Byte :=
  leBytes 1 c.opcode ++ leBytes 1 c.cflags ++ leBytes 2 c.tag ++ leBytes 1 c.status ++ leBytes 1 c.ring ++ zeros 2
    ++ leBytes 4 c.r0 ++ leBytes 4 c.r1 ++ leBytes 4 c.atime ++ leBytes 2 c.tick ++ zeros 2 ++ leBytes 4 c.olen
    ++ leBytes 4 c.detail

/-- RING of a completion (Table 116). -/
def ringCode : Route → Nat
  | .n => 0
  | .u => 1
  | .b => 5
  | .t h _ _ => 0x10 + h.val

/-- The command came in a transaction. -/
def viaTxn : Route → Bool
  | .t _ _ _ => true
  | _ => false

/-- Write a host completion to CPL, or discard it while CPL is not ENABLED (R415, R436). -/
def State.putCpl (s : State) (c : Cpl) (data : List Byte) : State :=
  if s.ringOn 2 && decide (0 < s.ringFree 2) then
    let s := if data = [] then s else s.emit (.hostData c.tag data)
    let p := s.devIdx 2
    let s := s.emit (.cplEntry p c)
    let s := s.setDevIdx 2 ((p + 1) % s.ringSize 2)
    let s := s.mapCmd fun m => { m with lastTag := tset (fun _ => 0) m.lastTag c.ring c.tag }
    if c.ring = 1 then s.irq 1
    else
      let s := s.mapHost fun h => { h with pendCpl := h.pendCpl + 1, cplAt := if h.pendCpl = 0 then s.time.now else h.cplAt }
      if moderated (s.f Rg.IRQ_MOD_CPLN_COUNT) (s.f Rg.IRQ_MOD_CPLN_TIME) s.host.pendCpl then
        (s.irq 0).mapHost fun h => { h with pendCpl := 0 } else s
  else s.bump Rg.C_CPL_DISCARD 1

/-- Pieces of at most `n` bytes. -/
def pieces (n : Nat) : Nat → List Byte → List (List Byte)
  | 0, _ => []
  | k + 1, l => if l.length ≤ n then [l] else l.take n :: pieces n k (l.drop n)

/-- The responses of a transaction (Table 36, R125): MORE on every one but the last. -/
def rspItems (tag tstat : Nat) (cpl : List Byte) (parts : List (List Byte)) : List TxItem :=
  (parts.zipIdx).map fun (d, i) =>
    { type := 5, flow := 0, nsec := 0, deadline := 0
      body := beBytes 2 tag ++ beBytes 1 tstat ++ beBytes 1 (b2n (i + 1 < parts.length)) ++ fitBytes 32 cpl
        ++ beBytes 4 d.length ++ d ++ zeros ((4 - d.length % 4) % 4) }

/-- Answer a transaction of a half and TAG, and remember its outcome (R124, Table 121). -/
def State.putRsp (s : State) (h tag : Nat) (c : Cpl) (data : List Byte) : State :=
  let parts := if c.opcode = 0x02 then pieces 8192 12 data else pieces 8192 (data.length / 8192 + 1) data
  let s := (rspItems tag 0 c.bytes parts).foldl (fun s it => s.queueTx h it) s
  s.mapCmd fun m => { m with txnDone := (⟨tag, c.status, h, false⟩ :: m.txnDone).take 32 }

/-- Remove the first record of a command from a list of commands in execution. -/
def dropExec (ring opcode tag : Nat) : List ExecRec → List ExecRec
  | [] => []
  | x :: r => if x.ring = ring ∧ x.opcode = opcode ∧ x.tag = tag then r else x :: dropExec ring opcode tag r

/-- Deliver a completion on its route: to CPL, waiting for HOSTIF if need be, or as a TXN_RSP. -/
def State.deliver (s : State) (c : Cmd) (k : Cpl) (data : List Byte) : State :=
  match c.route with
  | .t h _ g => (s.mapCmd fun m => { m with txns := dropExec h.val k.opcode g m.txns }).putRsp h.val g k data
  | r =>
    let s := s.mapHost fun x => { x with exec := dropExec (ringCode r) k.opcode k.tag x.exec }
    if s.canWriteHost then s.putCpl k data else s.mapHost fun x => { x with due := x.due ++ [.cpl k data] }

/-- What a completion reports beside its status. -/
structure Res where
  r0 : Nat := 0
  r1 : Nat := 0
  at_ : Option Stamp := none
  data : List Byte := []
  flags : Nat := 0
  detail : Nat := 0
deriving DecidableEq, Repr

/-- Complete a command (R436); in a dispute no completion is written until the winner is known (R496). -/
def State.complete (s : State) (c : Cmd) (opcode status : Nat) (r : Res) : State :=
  let a := r.at_.getD ⟨0, 0, 0, 0, 0⟩
  let k : Cpl :=
    { opcode := opcode
      cflags := Nat.lor r.flags ((if r.data = [] then 0 else 2) + (if viaTxn c.route then 8 else 0))
      tag := c.tag, status := status, ring := ringCode c.route, r0 := r.r0 % 2 ^ 32, r1 := r.r1 % 2 ^ 32
      atime := atimeWord a, tick := a.tick, olen := r.data.length, detail := r.detail % 2 ^ 32 }
  if s.leaderless && !(opcode == 0x02) then
    s.mapCmd fun m => { m with cplQ := m.cplQ ++ [(c, k, r.data)] }
  else s.deliver c k r.data

/-- Complete with a refusal; DETAIL names the descriptor offset of the first field at fault (Table 116). -/
def State.refuse (s : State) (c : Cmd) (opcode status detail : Nat) : State :=
  s.complete c opcode status { detail := detail }

/-- Finish a command of order L that a test finds: its record leaves, and its completion is written. -/
def State.finishLong (s : State) (p : LongRec → Bool) (status : Nat) (r : LongRec → Res) : State :=
  match s.cmd.longs.find? p with
  | some x => (s.mapCmd fun m => { m with longs := m.longs.erase x }).complete x.cmd x.opcode status (r x)
  | none => s

/-- Every command of order L under way completes with a status: thermal shutdown has stopped its work (R397, R437). -/
def State.failLongs (s : State) (status : Nat) : State :=
  let l := s.cmd.longs
  let s := l.foldl (fun s x => s.complete x.cmd x.opcode status {}) (s.mapCmd fun m => { m with longs := [] })
  let bulk := s.bulk
  bulk.foldl (fun s b => s.complete b.cmd 0x60 status { r0 := b.accepted, detail := b.next }) { s with bulk := [] }

/-- A group leaves every HEAT_RUN that covers it, completed or not; one that covers no group any more completes (R440). -/
def State.heatRunLeave (s : State) (g : Nat) (completed : Bool) : State :=
  let s := s.mapCmd fun m => { m with longs := m.longs.map fun x => match x.what with
    | .heat left done =>
      if left / 2 ^ g % 2 = 1 then { x with what := .heat (left - 2 ^ g) (done + (if completed then 2 ^ g else 0)) } else x
    | _ => x }
  s.finishLong (fun x => match x.what with
    | .heat left _ => left == 0
    | _ => false) St.OK fun x => match x.what with
    | .heat _ done => { r0 := done }
    | _ => {}

/-- A HEAT_RUN under way covers a group. -/
def State.inHeatRun (s : State) (g : Nat) : Bool := s.cmd.longs.any fun x => match x.what with
  | .heat left _ => left / 2 ^ g % 2 == 1
  | _ => false

end Sys2Proof.Machine
end

