-- ==== Sys2Proof/Machine/Blocks.lean ====
section
/-! DEFINITION. The bits of a lane and of the stripe stream: 66-bit blocks and their types (R48, R51), the scrambler (R49),
the control blocks (Tables 13 to 15, 38), test patterns (R79, R80), packets as blocks and back (R87, R88, R90, R91). -/

namespace Sys2Proof.Machine

/-! ## Bits and bytes -/

/-- The bits of bytes in transmission order: byte 0 first, each byte least significant bit first (R48). -/
def bitsLsb (l : List Byte) : List Bool := (l.map fun b => (List.range 8).map fun i => b.getLsbD i).flatten

/-- The number that bits spell, least significant first. -/
def natLsb : List Bool → Nat
  | [] => 0
  | b :: r => b2n b + 2 * natLsb r

/-- Bytes of bits in transmission order. -/
def bytesLsb : Nat → List Bool → List Byte
  | 0, _ => []
  | n + 1, l => BitVec.ofNat 8 (natLsb (l.take 8)) :: bytesLsb n (l.drop 8)

/-- A byte of a layout as a number; 0 beyond its end. -/
def byteAt (l : List Byte) (i : Nat) : Nat := (nth l i 0).toNat

/-- A big-endian field of a layout (R13). -/
def beNat (l : List Byte) (off n : Nat) : Nat := leNat (((l.drop off).take n).reverse)

/-! ## Blocks (R48, R51, Table 12) -/

/-- A data block: its sync header goes out as 0 then 1. -/
def dataBlk (l : List Byte) : Blk := ⟨false, true, fitBytes 8 l⟩

/-- A control block of a type: its sync header goes out as 1 then 0; undefined bytes are 0. -/
def ctlBlk (type : Nat) (l : List Byte) : Blk := ⟨true, false, fitBytes 8 (BitVec.ofNat 8 type :: l)⟩

/-- IDLE. -/
def idleBlk : Blk := ctlBlk 0x33 []

/-- CC, which announces two IDLE blocks. -/
def ccBlk : Blk := ctlBlk 0x3C [2]

/-- ERROR. -/
def errorBlk : Blk := ctlBlk 0xE7 []

/-- What a received block is (Table 12); the eight bytes of AM, TRN, LINK and WAKE. -/
inductive RxBlk where
  | data (l : List Byte)
  | idle
  | cc (n : Nat)
  | am (l : List Byte)
  | trn (l : List Byte)
  | sop (l : List Byte)
  | term (n : Nat) (l : List Byte)
  | link (l : List Byte)
  | wake (l : List Byte)
  | error
deriving DecidableEq, Repr

/-- Decode a descrambled block; an invalid sync header and an undefined type are ERROR (R51). -/
def decodeBlk (b : Blk) : RxBlk :=
  let l := fitBytes 8 b.bytes
  if !b.s0 && b.s1 then .data l
  else if b.s0 && !b.s1 then
    match byteAt l 0 with
    | 0x33 => .idle
    | 0x3C => .cc (byteAt l 1)
    | 0x5A => .am l
    | 0x69 => .trn l
    | 0x96 => .sop (l.drop 1)
    | 0xF0 => .term (byteAt l 1) (l.drop 2)
    | 0xC3 => .link l
    | 0xA5 => .wake l
    | _ => .error
  else .error

/-- A block counts in CODEERR: an invalid sync header, or a control block of a type outside Table 12 (R51). -/
def codeErr (b : Blk) : Bool := decodeBlk b == .error && !(b.s0 && !b.s1 && byteAt b.bytes 0 == 0xE7)

/-! ## Scrambling (R49) -/

/-- Shift a bit into a register, as its newest. -/
def shiftIn (st : BitVec 58) (b : Bool) : BitVec 58 := BitVec.ofNat 58 (2 * st.toNat + b2n b)

/-- S(n) = D(n) xor S(n-39) xor S(n-58). -/
def scramble : BitVec 58 → List Bool → List Bool × BitVec 58
  | st, [] => ([], st)
  | st, d :: r =>
    let x := d ^^ st.getLsbD 38 ^^ st.getLsbD 57
    let (l, st') := scramble (shiftIn st x) r
    (x :: l, st')

/-- The self-synchronous descrambler. -/
def descramble : BitVec 58 → List Bool → List Bool × BitVec 58
  | st, [] => ([], st)
  | st, x :: r =>
    let (l, st') := descramble (shiftIn st x) r
    ((x ^^ st.getLsbD 38 ^^ st.getLsbD 57) :: l, st')

/-- Scramble the payload of a block; the sync header stays. -/
def scrBlk (st : BitVec 58) (b : Blk) : Blk × BitVec 58 :=
  let (l, st') := scramble st (bitsLsb (fitBytes 8 b.bytes))
  ({ b with bytes := bytesLsb 8 l }, st')

/-- Descramble the payload of a block. -/
def descrBlk (st : BitVec 58) (b : Blk) : Blk × BitVec 58 :=
  let (l, st') := descramble st (bitsLsb (fitBytes 8 b.bytes))
  ({ b with bytes := bytesLsb 8 l }, st')

/-- Descramble blocks one after the other. -/
def descrBlks : BitVec 58 → List Blk → List Blk × BitVec 58
  | st, [] => ([], st)
  | st, b :: r =>
    let (c, st') := descrBlk st b
    let (l, st'') := descrBlks st' r
    (c :: l, st'')

/-! ## Sending on lanes -/

/-- The coders of a lane. -/
def State.lineOf (s : State) (n : Nat) : LineSt := tget (fun _ => LineSt.reset) s.line n

/-- Change the coders of a lane. -/
def State.mapLine (s : State) (n : Nat) (f : LineSt → LineSt) : State :=
  { s with line := tset (fun _ => LineSt.reset) s.line n (f (s.lineOf n)) }

/-- Even parity of each bit of bytes, from a start value: the BIP-8 of Table 13. -/
def bip8 (b : Byte) (l : List Byte) : Byte := l.foldl (fun x y => x ^^^ y) b

/-- A block leaves a lane: scrambled, and taken into its BIP-8, which an AM starts afresh (R49, R55). -/
def LineSt.send (x : LineSt) (b : Blk) : Blk × LineSt :=
  let (c, st) := scrBlk x.scr b
  (c, { x with scr := st, bip := if b.s0 && !b.s1 && byteAt b.bytes 0 == 0x5A then 0 else bip8 x.bip b.bytes })

/-- The lane's transmitter is electrically idle (R84, Table 18): its state says so, or the device is in reset. -/
def State.lineIdle (s : State) (n : Nat) : Bool :=
  let st := s.laneState n
  s.boot.core || st == 0 || st == 6 || st == 8 || (st == 1 && !(s.lane n).resuming)

/-- Code blocks for their lanes, in order. -/
def State.codeBlocks : State → List (Nat × Blk) → List (Nat × Blk) × State
  | s, [] => ([], s)
  | s, (n, b) :: r =>
    let (c, x) := (s.lineOf n).send b
    let (l, s') := State.codeBlocks (s.mapLine n fun _ => x) r
    ((n, c) :: l, s')

/-- Send blocks of a half, each on its lane; a lane that is electrically idle sends nothing. -/
def State.sendBlocks (s : State) (h : Nat) (l : List (Nat × Blk)) : State :=
  match l.filter fun e => !s.lineIdle e.1 with
  | [] => s
  | x :: r =>
    let (c, s') := s.codeBlocks (x :: r)
    s'.emit (.blocks h c)

/-! ## Control blocks (Tables 13 to 15 and 38) -/

/-- A control block's layout with its CRC over offsets 1 to 5 (Table 13). -/
def withCrc (l : List Byte) : List Byte :=
  let x := fitBytes 6 l
  x ++ beBytes 1 (crc8 (x.drop 1)) ++ zeros 1

/-- The CRC of a received layout is right. -/
def ctlCrcOk (l : List Byte) : Bool := crc8 (((fitBytes 8 l).take 6).drop 1) == byteAt l 6

/-- An AM block (Table 13). -/
def amBytes (lane pos amseq bip flags : Nat) : List Byte :=
  withCrc (beBytes 1 0x5A ++ beBytes 1 (lane * 16 + pos) ++ beBytes 2 amseq ++ beBytes 1 bip ++ beBytes 1 flags)

/-- The fields of an AM block. -/
def amOf (l : List Byte) : AmBlk :=
  { laneNo := byteAt l 1 / 16, pos := byteAt l 1 % 16, amseq := beNat l 2 2, bip := byteAt l 4, flags := byteAt l 5
    crcOk := ctlCrcOk l }

/-- A LINK block (Table 14). -/
def linkBytes (op tag old new pos reason : Nat) : List Byte :=
  withCrc (beBytes 1 0xC3 ++ beBytes 1 op ++ beBytes 1 tag ++ beBytes 1 (old * 16 + new) ++ beBytes 1 (pos * 16 + reason)
    ++ zeros 1)

/-- The fields of a LINK block. -/
def linkOf (l : List Byte) : LinkRx :=
  { op := byteAt l 1, tag := byteAt l 2, old := byteAt l 3 / 16, new := byteAt l 3 % 16, pos := byteAt l 4 / 16
    reason := byteAt l 4 % 16 }

/-- The copy that counts among copies of a block of a type: at least one passes its CRC and no two that pass differ (R58,
R127). -/
def pickCopy (type : Nat) (copies : List (List Byte)) : Option (List Byte) :=
  match copies.filter fun l => byteAt l 0 == type && ctlCrcOk l with
  | [] => none
  | x :: r => if r.all fun y => fitBytes 7 y == fitBytes 7 x then some x else none

/-- A TRN block (Table 15). -/
def trnBytes (fcnt req sts lane rate : Nat) : List Byte :=
  withCrc (beBytes 1 0x69 ++ beBytes 1 fcnt ++ beBytes 1 req ++ beBytes 1 sts ++ beBytes 1 (lane * 16 + rate * 4) ++ zeros 1)

/-- The fields of a TRN block. -/
def trnOf (l : List Byte) : TrnFrame :=
  let q := byteAt l 2
  let t := byteAt l 3
  { crcOk := byteAt l 0 == 0x69 && ctlCrcOk l, fcnt := byteAt l 1
    preReq := q / 64, mainReq := q / 16 % 4, postReq := q / 4 % 4, preset := q / 2 % 2 == 1, init := q % 2 == 1
    preSts := t / 64, mainSts := t / 16 % 4, postSts := t / 4 % 4, rxReady := t / 2 % 2 == 1
    idLane := byteAt l 4 / 16, idRate := byteAt l 4 / 4 % 4 }

/-- A training frame: one TRN block and 63 data blocks of zero payload (R61). -/
def trnFrame (l : List Byte) : List Blk := ⟨true, false, l⟩ :: List.replicate 63 (dataBlk [])

/-! ## Test patterns (R79, R80, Table 22) -/

/-- The taps of a pattern's polynomial. -/
def prbsTaps (mode : Nat) : Nat × Nat :=
  match mode with
  | 1 => (7, 6)
  | 2 => (15, 14)
  | 3 => (23, 18)
  | _ => (31, 28)

/-- The next bit of a pattern after the bits of a register, newest first. -/
def prbsBit (mode : Nat) (reg : List Bool) : Bool :=
  nth reg ((prbsTaps mode).1 - 1) false ^^ nth reg ((prbsTaps mode).2 - 1) false

/-- The next `k` bits of a pattern and the register behind them. -/
def prbsRun (mode : Nat) : Nat → List Bool → List Bool × List Bool
  | 0, reg => ([], reg)
  | k + 1, reg =>
    let b := prbsBit mode reg
    let (l, reg') := prbsRun mode k ((b :: reg).take 31)
    (b :: l, reg')

/-- Bits sent on a lane of a rate, in 10 kbit/s, between a tick and the next. -/
def bitsInTick (rate now : Nat) : Nat := (now + 1) * rate * 10000 / Config.ticksPerSecond - now * rate * 10000 / Config.ticksPerSecond

/-! ## Packets (Table 23, R88) -/

/-- A packet's bytes: its header with HCRC, its payload, and PCRC. -/
def packetBytes (type flags seq ackseq flow nsec : Nat) (body : List Byte) : List Byte :=
  let h := beBytes 1 (16 + type) ++ beBytes 1 flags ++ beBytes 2 (20 + body.length) ++ beBytes 2 seq ++ beBytes 2 ackseq
    ++ beBytes 1 flow ++ beBytes 1 nsec ++ zeros 4
  let b := h ++ beBytes 2 (crc16 h) ++ body
  b ++ beBytes 4 (crc32 b)

/-- The header of a packet. -/
def hdrOf (l : List Byte) : RxPacket :=
  { ver := byteAt l 0 / 16, type := byteAt l 0 % 16, flags := byteAt l 1, len := beNat l 2 2, seq := beNat l 4 2
    ackseq := beNat l 6 2, flow := byteAt l 8, nsec := byteAt l 9 }

/-- HCRC is right. -/
def hcrcOk (l : List Byte) : Bool := crc16 (l.take 14) == beNat l 14 2

/-- PCRC is right. -/
def pcrcOk (l : List Byte) : Bool := crc32 (l.take (l.length - 4)) == beNat l (l.length - 4) 4

/-- A packet's payload: all between its header and PCRC. -/
def payload (l : List Byte) : List Byte := (l.take (l.length - 4)).drop 16

/-- The data blocks and TERM of the bytes behind SOP (R88). -/
def restBlks : Nat → List Byte → List Blk
  | 0, l => [ctlBlk 0xF0 (BitVec.ofNat 8 l.length :: l)]
  | d + 1, l => dataBlk (l.take 8) :: restBlks d (l.drop 8)

/-- A packet as blocks: SOP with bytes 0 to 6, d = floor((LEN - 7) / 8) data blocks, TERM with the rest (R88). -/
def packetBlks (l : List Byte) : List Blk := ctlBlk 0x96 (l.take 7) :: restBlks ((l.length - 7) / 8) (l.drop 7)

/-- The receiver's framing of one stream block (R90), with the bytes of a packet under way and whether what comes belongs to a
packet that has been discarded and counted (log 69). -/
def frameBlk (st : Option (List Byte) × Bool) (b : RxBlk) : List RxEvt × (Option (List Byte) × Bool) :=
  match st, b with
  | (none, _), .sop l => ([], (some l, false))
  | (some _, _), .sop l => ([.framing], (some l, false))
  | (none, true), .data _ => ([], (none, true))
  | (none, false), .data _ => ([.framing], (none, true))
  | (some a, _), .data l => if 9216 < a.length + 8 then ([.framing], (none, true)) else ([], (some (a ++ l), false))
  | (none, true), .term _ _ => ([], (none, false))
  | (none, false), .term _ _ => ([.framing], (none, false))
  | (some a, _), .term n l =>
    let w := a ++ l.take n
    ([if 6 < n ∨ w.length < 20 then .framing else .packet w], (none, false))
  | (some _, _), .error => ([.framing], (none, true))
  | st, _ => ([], st)

/-- The framing of a stretch of the stream. -/
def deframe : Option (List Byte) × Bool → List RxBlk → List RxEvt × (Option (List Byte) × Bool)
  | st, [] => ([], st)
  | st, b :: r =>
    let (e, st') := frameBlk st b
    let (l, st'') := deframe st' r
    (e ++ l, st'')

/-! ## The stripe stream (R87) -/

/-- The lane that sends a stripe position of a half: the NEW lane of a relay from its RELAY on (R72), else the ACTIVE lane
that has it. -/
def State.txLane (s : State) (h p : Nat) : Option Nat :=
  match (s.link h).out.find? fun b => b.op == 2 && b.pos == p && s.laneState b.new == 4 with
  | some b => some b.new
  | none => (s.activeLanes h).find? fun n => s.raw (Rg.LANE_STAT_POS n) == p

/-- The lanes that send the stripe stream of a half, in increasing stripe position. -/
def State.txLanes (s : State) (h : Nat) : List Nat := (List.range 4).filterMap (s.txLane h)

/-- Stream blocks on their lanes: one after the other in stripe order, from a place on. -/
def stripe (lanes : List Nat) (from_ : Nat) (l : List Blk) : List (Nat × Blk) :=
  (l.zipIdx).map fun (b, i) => (nth lanes ((from_ + i) % lanes.length) 0, b)

/-- Send stream blocks on a half. -/
def State.sendStream (s : State) (h : Nat) (l : List Blk) : State :=
  let lanes := s.txLanes h
  if lanes = [] then s
  else
    let k := (s.pkt h).stripe
    (s.sendBlocks h (stripe lanes k l)).mapPkt h fun p => { p with stripe := (k + l.length) % lanes.length }

/-- A block that a half receives at a stripe position of a block index: of the ACTIVE lane there; of a lane under removal,
ERROR (R71). -/
def State.rxAt (s : State) (h : Nat) (row : List (Nat × Blk)) (p : Nat) : Option RxBlk :=
  if (s.link h).out.any fun b => b.op == 1 && b.pos == p then some .error
  else match (s.activeLanes h).find? fun n => s.raw (Rg.LANE_STAT_POS n) == p with
    | some n => (row.find? fun e => e.1 == n).map fun e => decodeBlk e.2
    | none => none

/-- A block belongs to the stripe stream (R87). -/
def RxBlk.inStream : RxBlk → Bool
  | .data _ | .sop _ | .term _ _ | .idle | .error => true
  | _ => false

/-- The stream that a half rebuilds of received rows, in increasing stripe position at each block index. -/
def State.rxStream (s : State) (h : Nat) (rows : List (List (Nat × Blk))) : List RxBlk :=
  ((rows.map fun row => (List.range 4).filterMap (s.rxAt h row)).flatten).filter RxBlk.inStream

end Sys2Proof.Machine
end

