-- ==== Sys2Proof/Machine/DieLink.lean ====
section
/-! DEFINITION. The die-to-die link (R34, R35, R489): what waits on each half, and in which order it crosses. -/

namespace Sys2Proof.Machine

/-- Position of a piece of traffic in Table 5. -/
def D2dWhat.cls : D2dWhat → Nat
  | .baton => 1
  | .airTime => 1
  | .command => 2
  | .mirror => 2
  | .sums _ _ => 3
  | .sect _ => 4
  | .estimates _ => 5
  | .weights _ => 5
  | .capture _ => 6
  | .table => 6
  | .store => 6

/-- The sending side of a half. -/
def State.d2dOf (s : State) (h : Nat) : D2dDir := tget (fun _ => D2dDir.reset) s.d2d h

/-- Change it. -/
def State.mapD2d (s : State) (h : Nat) (f : D2dDir → D2dDir) : State :=
  { s with d2d := tset (fun _ => D2dDir.reset) s.d2d h (f (s.d2dOf h)) }

/-- A half hands traffic to the link; a link that is down takes none. -/
def State.d2dPush (s : State) (h : Nat) (what : D2dWhat) (bits : Nat) : State :=
  if s.on Rg.D2D_STAT_LINK_UP then s.mapD2d h fun d => { d with waiting := d.waiting ++ [⟨what, bits⟩] } else s

/-- A piece of traffic still waits on a half. -/
def State.d2dHas (s : State) (h : Nat) (what : D2dWhat) : Bool := (s.d2dOf h).waiting.any fun x => x.what == what

/-- The first that waits of the highest class that waits, and the others (R35). -/
def d2dNext : List D2dItem → Option (D2dItem × List D2dItem)
  | [] => none
  | x :: r => match d2dNext r with
    | some (y, r') => if y.what.cls < x.what.cls then some (y, x :: r') else some (x, r)
    | none => some (x, [])

/-- Move bits across in the order of Table 5: what is left, and what has crossed whole, in that order. The choice is made again
in each tick, so that traffic of positions 1 to 3 waits behind that of 4 to 6 for the cycles of one tick at most. -/
def d2dServe : Nat → Nat → List D2dItem → List D2dItem × List D2dWhat
  | 0, _, l => (l, [])
  | fuel + 1, bits, l => match d2dNext l with
    | none => (l, [])
    | some (x, r) =>
      if bits < x.left then
        (⟨x.what, x.left - bits⟩ :: r, [])
      else
        let (l', done) := d2dServe fuel (bits - x.left) r
        (l', x.what :: done)

/-- One tick of a direction: 240 Gbit/s of payload are 15,625/32 bits in a tick of 491.52 MHz (R34), of which a replay takes its
share first (R489). -/
def State.d2dMove (s : State) (h : Nat) : List D2dWhat × State :=
  let d := s.d2dOf h
  if d.waiting = [] then ([], s.mapD2d h fun _ => D2dDir.reset)
  else
    let n := d.frac + 15625
    let bits := n / 32
    let (l, done) := d2dServe d.waiting.length (bits - d.owed) d.waiting
    (done, s.mapD2d h fun d => { waiting := l, owed := d.owed - bits, frac := n % 32 })

/-- The receiving half asks for a replay of what was sent since a check period, at most the 64 that the sending half keeps
(R489): 15 cycles of 128 bits each. -/
def State.d2dReplay (s : State) (h periods : Nat) : State :=
  s.mapD2d h fun d => { d with owed := d.owed + 1920 * min periods 64 }

/-- The link is lost: nothing crosses any more (R497). -/
def State.d2dDown (s : State) : State := { s with d2d := [] }

end Sys2Proof.Machine
end

