-- ==== Sys2Proof/Machine/CaptureOps.lean ====
section
/-! DEFINITION. Capture contexts (R352 to R362) as far as other families reach them: states, records as bytes, what a
retired path or a shed flow does to them. -/

namespace Sys2Proof.Machine

/-- A capture context. -/
def State.capOf (s : State) (c : Nat) : CapCtx := tget (fun _ => CapCtx.reset) s.caps c

/-- Change a context. -/
def State.mapCap (s : State) (c : Nat) (f : CapCtx → CapCtx) : State :=
  { s with caps := tset (fun _ => CapCtx.reset) s.caps c (f (s.capOf c)) }

/-- A context's state (Table 92): 0 IDLE, 1 FILL, 2 READY, 3 RECORD, 4 DELIVER. -/
def State.capState (s : State) (c : Nat) : Nat := s.raw Rg.CAP_STAT_CTX_STATE / 8 ^ c % 8

/-- A context of a half is armed with EXCL (R351). -/
def State.exclArmed (s : State) (h : Nat) : Bool := (List.range 4).any fun i =>
  !(s.capState (4 * h + i) == 0) && (match (s.capOf (4 * h + i)).cur with
    | some r => r.excl
    | none => false)

/-- Put a context into a state, with the EXCL bits; FILL begins with an empty buffer. -/
def State.setCap (s : State) (c v : Nat) : State :=
  let now := s.time.now
  let s := if v = 1 then s.mapCap c fun x => { x with fillAt := now } else s
  let old := s.raw Rg.CAP_STAT_CTX_STATE
  let s := s.setF Rg.CAP_STAT_CTX_STATE (old / 8 ^ (c + 1) * 8 ^ (c + 1) + v % 8 * 8 ^ c + old % 8 ^ c)
  (s.setB Rg.CAP_STAT_EXCL_H0 (s.exclArmed 0)).setB Rg.CAP_STAT_EXCL_H1 (s.exclArmed 1)

/-- A context returns to IDLE; what it holds is discarded. -/
def State.capIdle (s : State) (c : Nat) : State :=
  (s.mapCap c fun x => { x with hold := none, begun := false, off := 0, done := false, stop := false, sums := [], acqs := 0,
                                  trunc := false }).setCap c 0

/-- A context's record has been delivered whole. -/
def State.capDone (s : State) (c : Nat) : State :=
  (s.mapCap c fun x => { x with done := true, records := x.records + 1 }).bump (Rg.C_RECORDS (c / 4)) 1

/-- The context's record is gone: FILL with records left, else IDLE (Table 92). -/
def State.capNext (s : State) (c : Nat) : State :=
  let x := s.capOf c
  let more : Bool := match x.cur, x.left with
    | some r, some n => r.repeat_ && decide (1 < n)
    | some r, none => r.repeat_
    | none, _ => false
  if x.stop || !more then s.capIdle c
  else
    (s.mapCap c fun x => { x with hold := none, begun := false, off := 0, done := false, sums := [], acqs := 0,
                                  left := x.left.map (· - 1) }).setCap c 1

/-- A record as bytes (Table 93 and its samples); `par` sets PARITY. -/
def CapRecord.bytes (r : CapRecord) (par : Bool) : List Byte :=
  let h := leBytes 4 r.number ++ leBytes 1 r.ctx ++ leBytes 1 r.source ++ leBytes 1 r.path
    ++ leBytes 1 (b2n r.short + 2 * b2n r.avg + 4 * b2n par + 8 * b2n r.last + 16 * b2n r.trunc)
    ++ leBytes 4 r.preReq ++ leBytes 4 r.preValid ++ leBytes 4 r.post ++ leBytes 4 (atimeWord r.trigAt)
    ++ leBytes 2 r.trigAt.tick ++ leBytes 2 r.avgN ++ leBytes 4 (atimeWord r.first) ++ leBytes 2 r.first.tick
    ++ leInt 2 r.power ++ leBytes 2 r.peak ++ leBytes 2 r.ovr ++ leBytes 2 r.occ ++ zeros 2 ++ leBytes 4 r.rate
    ++ leBytes 4 r.missed ++ zeros 8
  h ++ leBytes 4 (crc32 h) ++ (r.samples.map leCplx).flatten

/-- A path goes out of service (Table 92, R357): a record under way closes with TRUNC, every other context of it is IDLE. -/
def State.capPathOut (s : State) (p : Nat) : State :=
  (List.range 8).foldl (fun s c =>
    match (s.capOf c).cur with
    | some r =>
      if r.path.val ≠ p ∨ s.capState c = 0 then s
      else if s.capState c = 3 then s.mapCap c fun x => { x with trunc := true, stop := true }
      else if s.capState c = 4 ∧ (s.capOf c).begun then s.mapCap c fun x => { x with stop := true }
      else s.capIdle c
    | none => s) s

/-- A capture flow is shed or closed: records that wait for it are discarded, each counted, and their contexts go on
(R362). -/
def State.capFlowGone (s : State) (f : Nat) : State :=
  (List.range 8).foldl (fun s c =>
    match (s.capOf c).cur with
    | some r =>
      if r.dest = 3 ∧ r.flow.val = f ∧ s.capState c = 4 ∧ !(s.capOf c).done then
        (s.bump (Rg.C_SHED_DROP (c / 4)) 1).capNext c
      else s
    | none => s) s

end Sys2Proof.Machine
end

