-- ==== Sys2Proof/Machine/Spares.lean ====
section
/-! DEFINITION. Retirement, exhaustion of spares and the reliability state (R477 to R480, R491 to R493), shared by every
family that retires a unit or brings a spare in. -/

namespace Sys2Proof.Machine

/-- Change the reliability state record. -/
def State.mapRel (s : State) (f : RelSt → RelSt) : State := { s with rel := f s.rel }

/-- The transmit side of a path. -/
def State.tx (s : State) (p : Nat) : TxPath := tget (fun _ => TxPath.reset) s.txp p

/-- Change the transmit side of a path. -/
def State.mapTx (s : State) (p : Nat) (f : TxPath → TxPath) : State :=
  { s with txp := tset (fun _ => TxPath.reset) s.txp p (f (s.tx p)) }

/-- The receive side of a path. -/
def State.rx (s : State) (p : Nat) : RxPath := tget (fun _ => RxPath.reset) s.rxp p

/-- Change the receive side of a path. -/
def State.mapRx (s : State) (p : Nat) (f : RxPath → RxPath) : State :=
  { s with rxp := tset (fun _ => RxPath.reset) s.rxp p (f (s.rx p)) }

/-- The front end of a path. -/
def State.fep (s : State) (p : Nat) : FePath := tget (fun _ => FePath.reset) s.fe p

/-- Change the front end of a path. -/
def State.mapFe (s : State) (p : Nat) (f : FePath → FePath) : State :=
  { s with fe := tset (fun _ => FePath.reset) s.fe p (f (s.fep p)) }

/-- Levels of TXEN, RXEN and BYP of a path in a front-end state, active or bypassed as true (Table 75). -/
def State.feLevels (s : State) (p st : Nat) : Bool × Bool × Bool :=
  (st == 1 || st == 3, st == 2 || st == 4,
   if st == 6 then true else if st == 2 || st == 4 then (s.fep p).bypSet else s.on Rg.FE_CFG_BYP_TX)

/-- Drive one line to a level through its polarity bit, if it differs (R296). -/
def State.driveLine (s : State) (p which : Nat) (old new : Bool) (pol : Fld) : State :=
  if s.linesOn && s.groupIn (p / 8) && !(old == new) then s.emit (.line p which (new != s.on pol)) else s

/-- A bias output. -/
def State.biasOut (s : State) (n : Nat) : BiasOut := tget BiasOut.reset s.bias n

/-- Change a bias output. -/
def State.mapBias (s : State) (n : Nat) (f : BiasOut → BiasOut) : State :=
  { s with bias := tset BiasOut.reset s.bias n (f (s.biasOut n)) }

/-- Ends of a span, in mV or µA (Table 100). -/
def spanRange : Nat → Int × Int
  | 0 => (0, 2500)
  | 1 => (0, 5000)
  | 2 => (-2500, 2500)
  | 3 => (-5000, 5000)
  | 4 => (0, 2000)
  | _ => (0, 24000)

/-- A span drives a current. -/
def isCurrent (span : Nat) : Bool := decide (4 ≤ span)

/-- A span's width in µV or nA. -/
def spanWidth (span : Nat) : Int := 1000 * ((spanRange span).2 - (spanRange span).1)

/-- What a code gives in a span, in µV or nA (R379). -/
def spanLevel (span code : Nat) : Int := 1000 * (spanRange span).1 + asr (spanWidth span * code) 16

/-- The code nearest below a value in mV or µA, within the span. -/
def spanCode (span : Nat) (v : Int) : Nat := min 65535 (((v - (spanRange span).1) * 65536000) / spanWidth span).toNat

/-- The code at an output at a tick: it moves by at most SLEW codes per update of 61.44 MSPS, and at once where SLEW is 0
(R379, R380). -/
def BiasOut.out (b : BiasOut) (now : Nat) : Nat :=
  if b.car.slew = 0 then b.code
  else
    let n := b.car.slew * ((now - b.chg) / 8)
    if b.frm ≤ b.code then min b.code (b.frm + n) else max b.code (b.frm - n)

/-- The output is slewing. -/
def BiasOut.slewing (b : BiasOut) (now : Nat) : Bool := !(b.out now == b.code)

/-- An output starts to move to a code. -/
def BiasOut.go (b : BiasOut) (now code : Nat) : BiasOut := { b with frm := b.out now, chg := now, code := code }

/-- An output takes a code at once. -/
def BiasOut.jump (b : BiasOut) (code : Nat) : BiasOut := { b with frm := code, code := code }

/-- R385: a range change has brought the output to PARK in the old span, and the twin connects. -/
def BiasOut.settle (b : BiasOut) (now : Nat) : BiasOut :=
  if b.pend.isSome && (b.state == 1 || b.state == 2) && !b.slewing now then { b with state := 3 } else b

/-- An output stops driving its codes: it goes to a state of Table 102, to come back as `ret` says; a range change under way ends
in its new record. -/
def BiasOut.stop (b : BiasOut) (st ret : Nat) : BiasOut :=
  { b with state := st, returning := ret, car := b.pend.getD b.car, pend := none }

/-- The level of an output, in µV or nA; none while it is UNDRIVEN (Table 102). Back from PF_PARK, RX_CODE is in force until the
output is LIVE. -/
def BiasOut.level (b : BiasOut) (now : Nat) : Option Int :=
  match b.state with
  | 0 => none
  | 3 => some (1000 * (b.pend.getD b.car).park)
  | 4 => some (if b.returning = 2 then spanLevel b.car.span (b.out now) else 1000 * b.car.park)
  | _ => some (spanLevel b.car.span (b.out now))

/-- The two bias outputs of a path (R22). -/
def pathOutputs (p : Nat) : List Nat := if p < 32 then [2 * p, 2 * p + 1] else [2 * p + 4, 2 * p + 5]

/-- A path's bias-select changes, and the outputs with PULSE follow it (R301, R384). -/
def State.biasSelect (s : State) (p : Nat) (tx : Bool) : State :=
  let s := { s.mapFe p fun f => { f with biasTx := tx } with
    feLater := s.feLater.filter fun e => !(e.path == p && e.what == 9) }
  (pathOutputs p).foldl (fun s n => s.mapBias n fun b =>
    if b.car.pulse && b.state == 2 && b.pend.isNone then b.go s.time.now (if tx then b.car.tx else b.car.rx) else b) s

/-- The front end of a path has something to do at a tick to come. -/
def State.feAt (s : State) (p what due : Nat) : State :=
  { s with feLater := ⟨p, what, due⟩ :: s.feLater.filter fun e => !(e.path == p && (e.what == 9) == (what == 9)) }

/-- A path's front end goes to a state of Table 75, and its lines follow. The bias-select takes the receive value BIAS_LAG ticks
after TXEN goes inactive, and the transmit value before it goes active (R301). -/
def State.feTo (s : State) (p st : Nat) : State :=
  let (t0, r0, b0) := s.feLevels p (s.fep p).state
  let (t1, r1, b1) := s.feLevels p st
  let s := if t1 && !t0 then s.biasSelect p true else s
  let s := s.driveLine p 0 t0 t1 Rg.FE_CFG_TXEN_POL
  let s := s.driveLine p 1 r0 r1 Rg.FE_CFG_RXEN_POL
  let s := s.driveLine p 2 b0 b1 Rg.FE_CFG_BYP_POL
  let now := s.time.now
  let s := s.mapFe p fun f => { f with state := st, lastOff := if (t0 && !t1) || (r0 && !r1) then now else f.lastOff }
  if t0 && !t1 then
    (if s.f Rg.FE_TIME3_BIAS_LAG = 0 then s.biasSelect p false else s.feAt p 9 (now + s.f Rg.FE_TIME3_BIAS_LAG))
  else s

/-- A path's front end enters TX or RX; an assertion within DEAD ticks of the other line's deassertion is delayed, and counted
(R297). -/
def State.feEnter (s : State) (p st : Nat) : State :=
  let due := (s.fep p).lastOff + s.f Rg.FE_TIME2_DEAD
  if s.time.now < due then (s.bump (Rg.C_LINE_HOLD (p / 32)) 1).feAt p st due else s.feTo p st

/-- The half of a bias output. -/
def outputHalf (n : Nat) : Nat := if n < 68 then 0 else 1

/-- The path whose bias-select an output follows, if any (R22). -/
def outputPath (n : Nat) : Option Nat :=
  if n < 64 then some (n / 2) else if n < 68 then none else if n < 132 then some ((n - 4) / 2) else none

/-- The group an output belongs to (R22). -/
def outputGroup (n : Nat) : Nat :=
  match outputPath n with
  | some p => p / 8
  | none => if n < 68 then n - 64 else n - 128

/-- The output of a group without a bias-select (R22). -/
def groupOutput (g : Nat) : Nat := if g < 4 then 64 + g else 128 + g

/-- A path is retired (R492). -/
def State.pathOut (s : State) (p : Nat) : Bool := !(tget (fun _ => 0) s.rel.pathRet p == 0)

/-- A slice's parity fault holds a path's output until its relay (R487). -/
def State.sliceMuted (s : State) (p : Nat) : Bool :=
  match tget (fun _ => (none : Option SliceRelay)) s.rel.relays p with
  | some r => r.parity
  | none => false

/-- A path is in service: its group is, and it is not retired. -/
def State.pathIn (s : State) (p : Nat) : Bool := s.groupIn (p / 8) && !s.pathOut p

/-- The slice that serves a path (Table 3). -/
def State.sliceOf (s : State) (p : Nat) : Nat := tget (fun p => if p < 32 then p else p + 2) s.rel.sliceOf p

/-- The observation receiver that serves a group (Table 3). -/
def State.orxOf (s : State) (g : Nat) : Nat := tget (fun g => if g < 4 then g else g + 1) s.rel.orxOf g

/-- The unit of the LO and engine classes that serves a group by default (Table 3). -/
def defUnit (g : Nat) : Nat := if g < 4 then g else g + 1

/-- The LO synthesiser serving a group, by the SERVING and GROUP fields of SU_LOn_STAT. -/
def State.loOf (s : State) (g : Nat) : Option Nat :=
  (List.range 10).find? fun n => s.on (Rg.LO_STAT_SERVING n) && s.raw (Rg.LO_STAT_GROUP n) == g

/-- The engine serving a group: the one its work has moved to (R345), or by the SERVING and GROUP fields of SU_AEn_STAT. -/
def State.aeOf (s : State) (g : Nat) : Option Nat :=
  match tget (fun _ => none) s.engShare g with
  | some n => some n
  | none => (List.range 10).find? fun n => s.on (Rg.AE_STAT_SERVING n) && s.raw (Rg.AE_STAT_GROUP n) == g

/-- Spare cells left in a path's DAC, I or Q (R488): 4 at reset. -/
def State.cellsLeft (s : State) (p : Nat) (q : Bool) : Nat := tget (fun _ => 4) s.rel.cells (2 * p + b2n q)

/-- Paths retired. -/
def State.retiredPaths (s : State) : Nat := (s.rel.pathRet.filter fun e => !(e.2 == 0)).length

/-- Any spare of Table 135 is in service, any unit is retired, a sensor has failed or a page is fenced (Table 139). -/
def State.impaired (s : State) : Bool :=
  (List.range 10).any (fun n => s.raw (Rg.LO_STAT_STATE n) == 5 || s.raw (Rg.AE_STAT_STATE n) == 6
      || s.laneState n == 8
      || (n % 5 == 4 && (s.on (Rg.LO_STAT_SERVING n) || s.on (Rg.AE_STAT_SERVING n) || s.laneState n == 5)))
    || (List.range 8).any (fun g => s.orxOf g % 5 == 4)
    || !s.rel.sliceOf.isEmpty || !s.rel.pathRet.isEmpty || !s.rel.sliceRet.isEmpty || !s.rel.orxRet.isEmpty
    || !s.rel.mcRet.isEmpty || !s.rel.wires.isEmpty || !s.rel.cells.isEmpty || !s.rel.onTwin.isEmpty
    || !s.rel.biasDead.isEmpty || !s.rel.fenced.isEmpty || !s.rel.supRet.isEmpty
    || s.conv.any (fun c => !c.2.retired.isEmpty)
    || s.on Rg.D2D_STAT_STBY_CLK_01 || s.on Rg.D2D_STAT_STBY_CLK_10
    || !(s.raw Rg.BW_STAT_SPARE_H0 == 128) || !(s.raw Rg.BW_STAT_SPARE_H1 == 128)
    || !(s.reg 0x2518 == 0) || !(s.reg 0x251C == 0)

/-- The reliability state the conditions of Table 139 give: SERVICE and SPLIT last until reset. -/
def State.relTarget (s : State) : Nat :=
  if s.split then 3
  else if s.raw Rg.REL_STAT_STATE = 2 ∨ ¬ s.reg 0x1008 = 0 ∨ 2 ≤ s.retiredPaths then 2
  else if s.impaired then 1 else 0

/-- Re-evaluate the reliability state; each change raises REL_STATE (R493). -/
def State.evalRel (s : State) : State :=
  let old := s.raw Rg.REL_STAT_STATE
  let new := s.relTarget
  if new = old then s else (s.setF Rg.REL_STAT_STATE new).raise s.lead Ev.REL_STATE 0 [new, old]

/-- Assert SERVICE_N for a reason, 1 to 3, unless this cause was reported before: the WHY bit, the event and the message
REPLACE_REQUEST (R493). `row` is the class for reason 1. -/
def State.request (s : State) (reason half row : Nat) : State :=
  if s.rel.reported.contains (reason * 16 + row, half) then s
  else
    let was := s.rel.serviceN
    let s := s.mapRel fun r =>
      { r with serviceN := true, reported := (reason * 16 + row, half) :: r.reported, replAt := s.time.now }
    let s := s.setF Rg.REL_STAT_WHY (Nat.lor (s.raw Rg.REL_STAT_WHY) (2 ^ (reason - 1)))
    let s := (s.setF Rg.REL_STAT_SERVICE_N 1).setF Rg.CFG_STAT_SERVICE 1
    let s := if was then s else s.irq 5
    let s := s.raise half Ev.REPLACE_REQUEST half [reason, row, s.retiredPaths]
    s.sendMsg s.msgHalf 0x0004 (beBytes 2 reason ++ beBytes 1 half ++ zeros 1)

/-- A class of Table 135 is exhausted on a half: its bit, the event, and R493; never twice (R478, R479). The classes of
H1 that serve no path are left out in the smaller configurations (R480). -/
def State.exhaust (s : State) (half row : Nat) : State :=
  let idle := half == 1 && (s.pathCount == 16 || s.pathCount == 32) && !(row == 7 || row == 8)
  let x := if half = 0 then Rg.REL_EXHAUST_H0 else Rg.REL_EXHAUST_H1
  if idle || s.raw x / 2 ^ row % 2 == 1 then s
  else
    let s := s.setF x (s.raw x + 2 ^ row)
    ((s.raise half Ev.CLASS_EXHAUSTED half [row]).evalRel).request 1 half row

/-- A spare of any class enters service on a half (R502). -/
def State.spareIn (s : State) (half : Nat) : State := (s.bump (Rg.C_SPARE_IN half) 1).evalRel

/-- A retired unit waits to be added to the fault log (R522). -/
def State.logFault (s : State) (cls unit : Nat) : State :=
  s.mapRel fun r => { r with logDue := r.logDue ++ [(cls, unit)] }

/-- Retire a path with a cause of Table 138 (R492): OFF, RETIRED, its bias outputs PARKED, PATH_RETIRED raised. A path
held off under R5 is never counted as retired. -/
def State.retirePath (s : State) (p cause : Nat) : State :=
  if s.pathOut p || (!s.groupIn (p / 8) && !(s.raw Rg.CFG_STAT_PATHCFG == 0)) then s
  else
    let s := s.mapRel fun r => { r with pathRet := tset (fun _ => 0) r.pathRet p cause }
    let s := s.setF Rg.REL_STAT_RETIRED s.retiredPaths
    let s := s.mapTx p fun t => { t with state := 0, buf := [], next := none, mute := false }
    let s := (s.feTo p 6).capPathOut p
    let whole := (List.range 8).all fun i => s.pathOut (8 * (p / 8) + i)
    let s := (pathOutputs p ++ (if whole then [groupOutput (p / 8)] else [])).foldl
      (fun s n => s.mapBias n fun b => b.stop (if b.state = 0 then 0 else 4) 0) s
    let s := (s.raise (p / 32) Ev.PATH_RETIRED p [cause]).logFault 11 p
    let s := s.evalRel
    if s.retiredPaths = 2 then s.request 2 (p / 32) 0 else s

/-- Retire every path of a half (R484, R485). -/
def State.retireHalf (s : State) (h : Nat) : State :=
  ((List.range 32).map (· + 32 * h)).foldl (fun s p => s.retirePath p 7) s

/-- A parity error of a sample memory at a location (R481): counted, raised at most once in 10 ms, and whether it is the
third within 1 s. Memories are numbered in the order of R481 from 1. -/
def State.memParity (s : State) (mem half loc : Nat) : Bool × State :=
  let s := s.bump (Rg.C_MEM_PARITY half) 1
  let key := mem * 2 ^ 32 + loc
  let old := (tget (fun _ => []) s.rel.parity key).filter fun t => s.time.now < t + Config.ticksPerSecond
  let ts := s.time.now :: old
  let s := s.mapRel fun r => { r with parity := tset (fun _ => []) r.parity key (ts.take 3) }
  let rec_ := s.rate Ev.MEM_PARITY (mem * 2 + half)
  let n := rec_.since + 1
  let due := match rec_.last with
    | some t => decide (t + 4915200 ≤ s.time.now)
    | none => true
  let s := if due then
      (s.setRate Ev.MEM_PARITY (mem * 2 + half) ⟨some s.time.now, 0⟩).raise half Ev.MEM_PARITY mem [half, n]
    else s.setRate Ev.MEM_PARITY (mem * 2 + half) { rec_ with since := n }
  (decide (3 ≤ ts.length), s)

/-- Fence a page of a memory (R481). -/
def State.fencePage (s : State) (mem half page : Nat) : State :=
  if s.rel.fenced.contains (mem * 2 + half, page) then s
  else
    let s := s.mapRel fun r => { r with fenced := (mem * 2 + half, page) :: r.fenced }
    let n := (s.rel.fenced.filter fun e => e.1 == mem * 2 + half).length
    (((s.bump (Rg.C_MEM_FENCE half) 1).raise half Ev.MEM_FENCE mem [half, n]).logFault (16 + mem * 2 + half) page).evalRel

/-- The ARR island of a half is stopped by a clock failure until its PLL has relocked (R484). -/
def State.arrDown (s : State) (h : Nat) : Bool := decide (s.time.now < tget (fun _ => 0) s.rel.arrAt h)

/-- A function enters its safe state (Table 136). -/
def State.isSafe (s : State) (row idx : Nat) : Bool := s.rel.safe.contains (row, idx)

/-- The owning command has been issued again: the function leaves its safe state (R482). -/
def State.clearSafe (s : State) (row idx : Nat) : State :=
  s.mapRel fun r => { r with safe := r.safe.filter fun e => !(e == (row, idx)) }

end Sys2Proof.Machine
end

