-- ==== Sys2Proof/Machine/FlowOps.lean ====
section
/-! DEFINITION. Capacity of a half's lanes, shedding and re-admission of flows (R40, R76 to R78, R103, R107). -/

namespace Sys2Proof.Machine

/-- Line rate of a RATE code in units of 10 kbit/s (Table 11). -/
def lineRate (code : Nat) : Nat :=
  match code with
  | 0 => 3200000
  | 1 => 2578125
  | _ => 1031250

/-- Payload blocks in 4,096, net of alignment markers and clock compensation (Table 11). -/
def payloadBlocks (code : Nat) : Nat := if code ≤ 1 then 4085 else 4077

/-- Whether a sum of reserved rates, in units of 10 Mbit/s, fits `a` lanes: rates in 10 kbit/s after 64/66 coding and
the overhead of Table 11. -/
def fits (code a rsv : Nat) : Bool := decide (rsv * 1000 * (66 * 4096) ≤ a * lineRate code * (64 * payloadBlocks code))

/-- Capacity of `a` lanes in Mbit/s, rounded down. -/
def capacityMbit (code a : Nat) : Nat := a * lineRate code * (64 * payloadBlocks code) / (66 * 4096) / 100

/-- A flow uses a half's lanes: its owning half's, or in split mode every half's for uplink and downlink (R498). -/
def State.flowOn (s : State) (h : Nat) (f : Flow) : Bool := f.half == h || (s.split && decide (f.dir ≤ 1))

/-- The listed flows of a half whose direction lies with (`up`) or against device to baseband. -/
def State.dirFlows (s : State) (h : Nat) (up : Bool) : List (Nat × Flow) :=
  s.flows.filter fun e => s.flowOn h e.2 && ((e.2.dir == 0) != up)

/-- Reserved rates of the flows of a half in a direction whose state satisfies a test. -/
def State.reserved (s : State) (h : Nat) (up : Bool) (p : Nat → Bool) : Nat :=
  ((s.dirFlows h up).filter fun e => p e.2.state).foldl (fun n e => n + e.2.rsv) 0

/-- The half's capacity holds the flows that it still sends in a direction: those OPEN. R76 does not say whether a CLOSING flow
counts; the model leaves it out (DESIGN CHOICE, log 70). -/
def State.fitsNow (s : State) (h : Nat) (up : Bool) : Bool :=
  fits (s.f Rg.LNK_CFG_RATE) (s.activeLanes h).length (s.reserved h up (· == 1))

/-- Order within a class: lowest priority first, then the highest flow number (R76). -/
def shedKey (e : Nat × Flow) : Nat := e.2.prio * 256 + (255 - e.1)

/-- The open flows of a class on a half, in shedding order. -/
def State.shedClass (s : State) (h : Nat) (p : Flow → Bool) : List Nat :=
  ((s.flows.filter fun e => s.flowOn h e.2 && e.2.state == 1 && p e.2).foldl
    (fun l e => insertBy shedKey e l) []).map (·.1)

/-- Shed one flow if its half still exceeds its capacity in the direction. -/
def State.shedOne (h : Nat) (up : Bool) (s : State) (n : Nat) : State :=
  if s.fitsNow h up then s
  else
    let s := s.setFlow n { s.flow n with state := 2 }
    (s.mapLink h fun l => { l with shed := l.shed ++ [n] }).capFlowGone n

/-- Shed flows of a half in the order of Table 21, each direction for itself (R76). -/
def State.shedFlows (s : State) (h : Nat) : State :=
  let s := (s.shedClass h fun f => f.dir == 2).foldl (State.shedOne h true) s
  let s := (s.shedClass h fun f => f.dir == 0 && f.sheddable).foldl (State.shedOne h false) s
  (s.shedClass h fun f => f.dir == 1).foldl (State.shedOne h true) s

/-- A capacity as the 16-bit field of LINK_DEGRADED: a free value where it does not fit (log 8). -/
def State.capField (s : State) (h : Nat) : Nat × State :=
  let c := capacityMbit (s.f Rg.LNK_CFG_RATE) (s.activeLanes h).length
  if c < 65536 then (c, s) else ((s.freeNat).1 % 65536, (s.freeNat).2)

/-- Bit i: lane 5h + i is ACTIVE. -/
def State.activeMask (s : State) (h : Nat) : Nat := maskNat 5 fun i => s.laneState (5 * h + i) == 5

/-- Send LINK_DEGRADED (0x0001) or LINK_RESTORED (0x0002) on a half and raise the event (R77, R78). -/
def State.linkNotice (s : State) (h : Nat) (restored : Bool) (flows : List Nat) : State :=
  let (c, s) := s.capField h
  let s := s.sendMsg h (if restored then 2 else 1)
    (beBytes 1 h ++ beBytes 1 (s.activeMask h) ++ zeros 2 ++ beBytes 2 c ++ beBytes 2 c ++ beBytes 1 flows.length
      ++ zeros 3 ++ (flows.map (BitVec.ofNat 8)) ++ zeros ((4 - flows.length % 4) % 4))
  s.raise h (if restored then Ev.LINK_RESTORED else Ev.LINK_DEGRADED) h [s.activeMask h, c + c * 65536, flows.length]

/-- Re-admit a shed flow if the capacity still holds with it (R78). One that does not fit is passed over and the next ones are
still tried, which R78 leaves open (DESIGN CHOICE, log 70). -/
def State.readmitOne (h : Nat) (acc : List Nat × State) (n : Nat) : List Nat × State :=
  let s := acc.2
  let up := !((s.flow n).dir == 0)
  let rsv := s.reserved h up (· == 1) + (s.flow n).rsv
  if (s.flow n).state = 2 ∧ fits (s.f Rg.LNK_CFG_RATE) (s.activeLanes h).length rsv then
    (acc.1 ++ [n], (s.setFlow n { s.flow n with state := 1 }).mapLink h
      fun l => { l with shed := l.shed.filter fun x => !(x == n) })
  else acc

/-- Re-admit shed flows of a half in the reverse of the shedding order and send LINK_RESTORED (R78). -/
def State.readmit (s : State) (h : Nat) : State :=
  if (s.link h).degraded then
    let (l, s) := (s.link h).shed.reverse.foldl (State.readmitOne h) ([], s)
    (s.mapLink h fun k => { k with degraded := false }).linkNotice h true l
  else s

end Sys2Proof.Machine
end

