-- ==== Sys2Proof/Machine/Operands.lean ====
section
/-! DEFINITION. Operand forms of the signal path: bit fields of a section body, block-floating-point resource elements
(R111 to R113), complex arithmetic in codes. -/

namespace Sys2Proof.Machine

/-- The bits of bytes, from the most significant bit of the first byte (R111). -/
def bitsMsb (l : List Byte) : List Bool := (l.map fun b => (List.range 8).map fun i => b.getLsbD (7 - i)).flatten

/-- The number that bits spell, most significant first. -/
def natOfBits (l : List Bool) : Nat := l.foldl (fun n b => 2 * n + b2n b) 0

/-- Bits as a two's-complement number of their count. -/
def intOfBits (l : List Bool) : Int := (BitVec.ofNat l.length (natOfBits l)).toInt

/-- The `w` bits of a number, most significant first. -/
def toBits : Nat → Nat → List Bool
  | 0, _ => []
  | w + 1, v => decide (v / 2 ^ w % 2 = 1) :: toBits w v

/-- A two's-complement number as `w` bits. -/
def intBits (w : Nat) (v : Int) : List Bool := toBits w (v % (2 ^ w : Int)).toNat

/-- Bytes of bits, padded with zero bits. -/
def bytesOfBits : Nat → List Bool → List Byte
  | 0, _ => []
  | n + 1, l => BitVec.ofNat 8 (natOfBits ((l ++ List.replicate 8 false).take 8)) :: bytesOfBits n (l.drop 8)

/-- Bits of one PRB (R112). -/
def prbBits (comp : Nat) : Nat := if comp = 0 then 384 else 24 * comp + 4

/-- Twelve resource elements of `w`-bit components, each I then Q (R112). -/
def takeRes : Nat → Nat → List Bool → List Cplx
  | 0, _, _ => []
  | n + 1, w, l => ⟨intOfBits (l.take w), intOfBits ((l.drop w).take w)⟩ :: takeRes n w (l.drop (2 * w))

/-- Scale a value by a power of two. -/
def shlC (z : Cplx) (e : Nat) : Cplx := ⟨z.re * 2 ^ e, z.im * 2 ^ e⟩

/-- Decompress one PRB (R112): its twelve values, or none if its exponent is above 16 - W. -/
def unpackPrb (comp : Nat) (l : List Bool) : Option (List Cplx) :=
  if comp = 0 then some (takeRes 12 16 l)
  else
    let e := natOfBits (l.take 4)
    if 16 - comp < e then none else some ((takeRes 12 comp (l.drop 4)).map (shlC · e))

/-- The PRBs of a body, one after the other (R111). -/
def unpackPrbs : Nat → Nat → List Bool → List (Option (List Cplx))
  | 0, _, _ => []
  | n + 1, comp, l => unpackPrb comp l :: unpackPrbs n comp (l.drop (prbBits comp))

/-- The magnitude that R113 takes of a value. -/
def mag (v : Int) : Nat := if 0 ≤ v then v.toNat else (-v - 1).toNat

/-- The exponent of R113: the first e from `e0` with m >> e below 2^(W-1). -/
def blockExp (w m : Nat) : Nat → Nat → Nat
  | 0, e0 => e0
  | fuel + 1, e0 => if m / 2 ^ e0 < 2 ^ (w - 1) then e0 else blockExp w m fuel (e0 + 1)

/-- The exponent of a PRB (R113). -/
def prbExp (w : Nat) (l : List Cplx) : Nat :=
  blockExp w (l.foldl (fun m z => max m (max (mag z.re) (mag z.im))) 0) 16 0

/-- Compress one PRB (R113). -/
def packPrb (comp : Nat) (l : List Cplx) : List Bool :=
  if comp = 0 then (l.map fun z => intBits 16 z.re ++ intBits 16 z.im).flatten
  else
    let e := prbExp comp l
    toBits 4 e ++ (l.map fun z => intBits comp (asr z.re e) ++ intBits comp (asr z.im e)).flatten

/-- Sum of two values. -/
def addC (a b : Cplx) : Cplx := ⟨a.re + b.re, a.im + b.im⟩

/-- Product of two values, exactly. -/
def mulC (a b : Cplx) : Cplx := ⟨a.re * b.re - a.im * b.im, a.re * b.im + a.im * b.re⟩

/-- Conjugate. -/
def conjC (a : Cplx) : Cplx := ⟨a.re, -a.im⟩

/-- Arithmetic shift right of both components. -/
def asrC (z : Cplx) (n : Nat) : Cplx := ⟨asr z.re n, asr z.im n⟩

/-- Saturate both components to `w` bits. -/
def satC (w : Nat) (z : Cplx) : Cplx := ⟨satTo w z.re, satTo w z.im⟩

/-- How many components saturation changes. -/
def satHitsC (w : Nat) (z : Cplx) : Nat := satHits w z.re + satHits w z.im

/-- Sum of a list. -/
def sumC (l : List Cplx) : Cplx := l.foldl addC Cplx.zero

/-- Shift right with rounding to nearest, halves up. -/
def asrRound (v : Int) (n : Nat) : Int := if n = 0 then v else asr (v + 2 ^ (n - 1)) n

end Sys2Proof.Machine
end

