-- ==== Sys2Proof/Machine/Packets.lean ====
section
/-! DEFINITION. The packet layer and sections (ch. 3): retry, resynchronisation, transmit order, section judgement,
binding, uplink sections, flow effects. Transactions, TIMING and WAKE are with the commands and with air time. -/

namespace Sys2Proof.Machine

/-! ## Retry -/

/-- The half receives packets: its link has started and its LINK domain runs (R69, R465). -/
def State.linkUp (s : State) (h : Nat) : Bool := (s.link h).started && s.dom h 6 == 0

/-- An LLCP packet is due. -/
def State.pushLlcp (s : State) (h : Nat) (l : Llcp) : State := s.mapPkt h fun p => { p with llcp := p.llcp ++ [l] }

/-- A discard: the first since E advanced sends a NAK (R95). -/
def State.discardPkt (s : State) (h : Nat) (x : Fld) : State :=
  let s := s.bump x 1
  if (s.pkt h).nakOut then s
  else ((s.mapPkt h fun p => { p with nakOut := true }).pushLlcp h ⟨true, none⟩).bump (Rg.C_NAK_TX h) 1

/-- Release the held packets that an ACKSEQ acknowledges (R96), and end an RSYNC it answers (R99). -/
def State.takeAck (s : State) (h k : Nat) : State :=
  s.mapPkt h fun p =>
    let p := if p.rsync = some ((k + 1) % 65536) then { p with rsync := none } else p
    match p.held with
    | [] => p
    | o :: _ =>
      let d := (k + 65536 - o.seq) % 65536
      if d < p.held.length then
        let rest := p.held.drop (d + 1)
        { p with held := rest, ackedSeq := k, resends := 0, resendLeft := min p.resendLeft rest.length }
      else p

/-- E advances over an accepted packet (R94). -/
def State.acceptSeq (s : State) (h : Nat) : State :=
  (s.mapPkt h fun p => { p with e := (p.e + 1) % 65536, nakOut := false, ackOwed := true }).bump (Rg.C_RX_PKT h) 1

/-- The types the baseband may send (Table 24). -/
def typeToDevice (t : Nat) : Bool := t == 1 || t == 2 || t == 4 || t == 8

/-- A TIMING packet carries an OP that the device acts on: SET or REQUEST (R120). -/
def timingOpOk (l : List Byte) : Bool := byteAt (payload l) 0 == 1 || byteAt (payload l) 0 == 3

/-- An accepted packet counts in BAD_TYPE: its VER, a TYPE that is reserved or not the baseband's, a TIMING packet's OP (R92,
R120). A MSG packet counts there with MSG_RECEIVED (R121). -/
def badType (p : RxPacket) (l : List Byte) : Bool :=
  !(p.ver == 1) || (!(p.type == 3) && !typeToDevice p.type) || (p.type == 2 && !timingOpOk l)

/-- R90, R92, R94 to R96: a whole packet's bytes through the count of its bytes, the CRCs and retry. HCRC comes first, as LEN is
not trusted without it (log 69). -/
def State.takePacket (s : State) (h : Nat) (l : List Byte) : State :=
  let p := hdrOf l
  let ackv := decide (128 ≤ p.flags)
  if !hcrcOk l then s.discardPkt h (Rg.C_RX_HCRC h)
  else if p.len ≠ l.length ∨ 9216 < p.len then s.discardPkt h (Rg.C_RX_FRAMING h)
  else if !pcrcOk l then s.discardPkt h (Rg.C_RX_PCRC h)
  else if p.type = 7 then
    if p.ver ≠ 1 then s.bump (Rg.C_BAD_TYPE h) 1 else if ackv then s.takeAck h p.ackseq else s
  else
    let s := if ackv && p.ver == 1 then s.takeAck h p.ackseq else s
    let d := (p.seq + 65536 - (s.pkt h).e) % 65536
    if d = 0 then
      let s := s.acceptSeq h
      if badType p l then s.bump (Rg.C_BAD_TYPE h) 1 else s
    else if 65536 - 512 ≤ d then
      (s.discardPkt h (Rg.C_RX_DUP h)).mapPkt h fun q => { q with ackOwed := true }
    else s.discardPkt h (Rg.C_RX_SEQ h)

/-- One result of the framing. -/
def State.takeEvt (h : Nat) (s : State) (e : RxEvt) : State :=
  match e with
  | .framing => s.discardPkt h (Rg.C_RX_FRAMING h)
  | .packet l => s.takePacket h l

/-- The packets that a half finds in received rows, and its framing behind them (R87, R88, R90). -/
def State.rxEvts (s : State) (h : Nat) (rows : List (List (Nat × Blk))) : List RxEvt × (Option (List Byte) × Bool) :=
  deframe (s.pkt h).rx (s.rxStream h rows)

/-- A half takes received rows. -/
def State.receive (s : State) (h : Nat) (rows : List (List (Nat × Blk))) : State :=
  let (l, rx) := s.rxEvts h rows
  l.foldl (State.takeEvt h) (s.mapPkt h fun p => { p with rx := rx })

/-- R87 to R96: a stretch of the stripe stream. -/
def execPacketReceived (h : Half) (rows : List (List (Nat × Blk))) (s : State) : Host.Outcome State Fault Refusal :=
  if s.linkUp h.val then .next (s.receive h.val rows) else .next s

/-- R95. -/
def execNakRepeat (h : Half) (s : State) : Host.Outcome State Fault Refusal :=
  if (s.pkt h.val).nakOut then .next ((s.pushLlcp h.val ⟨true, none⟩).bump (Rg.C_NAK_TX h.val) 1) else .next s

/-- TAG of a transaction response, from its body (Table 36). -/
def rspTag (it : TxItem) : Nat := leNat ((it.body.take 2).reverse)

/-- Resynchronise the direction from the device (R99): discard what is held, send RSYNC, raise LINK_RESYNC; responses
discarded are marked in TXN_DONE. -/
def State.resync (s : State) (h : Nat) : State :=
  let p := s.pkt h
  let tags := (p.held.filter fun k => k.item.type == 5 && !k.void).map fun k => rspTag k.item
  let s := s.bump (Rg.C_RSYNC_LOST h) p.held.length
  let s := s.mapCmd fun c =>
    { c with txnDone := c.txnDone.map fun d => if d.half = h ∧ tags.contains d.tag then { d with discarded := true } else d }
  let s := s.mapPkt h fun q => { q with held := [], resendLeft := 0, resends := 0, rsync := some q.nextSeq }
  (s.pushLlcp h ⟨false, some p.nextSeq⟩).raise h Ev.LINK_RESYNC h [1, p.held.length]

/-- Begin to resend every held packet (R97), or resynchronise after RETRY_MAX resends of the oldest (R99); a resend counts when
it goes out. -/
def State.startResend (s : State) (h : Nat) : State :=
  let p := s.pkt h
  if p.held = [] then s
  else if s.f Rg.PKT_CFG_RETRY_MAX ≤ p.resends then s.resync h
  else s.mapPkt h fun q => { q with resendLeft := q.held.length }

/-- R97. -/
def execLlcpNak (h : Half) (ackseq : Nat) (s : State) : Host.Outcome State Fault Refusal :=
  if s.linkUp h.val then .next (((s.bump (Rg.C_NAK_RX h.val) 1).takeAck h.val ackseq).startResend h.val) else .next s

/-- R96. -/
def execLlcpAck (h : Half) (ackseq : Nat) (s : State) : Host.Outcome State Fault Refusal :=
  if s.linkUp h.val then .next (s.takeAck h.val ackseq) else .next s

/-- R99: an RSYNC from the baseband, at any time. -/
def execLlcpRsync (h : Half) (seq : Nat) (s : State) : Host.Outcome State Fault Refusal :=
  if s.linkUp h.val then
    let skipped := (seq + 65536 - (s.pkt h.val).e) % 65536
    let s := s.mapPkt h.val fun p => { p with e := seq % 65536, nakOut := false, ackOwed := true }
    .next ((s.pushLlcp h.val ⟨false, none⟩).raise h.val Ev.LINK_RESYNC h.val [0, skipped])
  else .next s

/-- R97. -/
def execReplayTimeout (h : Half) (s : State) : Host.Outcome State Fault Refusal := .next (s.startResend h.val)

/-- R99. -/
def execRsyncRepeat (h : Half) (s : State) : Host.Outcome State Fault Refusal :=
  match (s.pkt h.val).rsync with
  | some q => .next (s.pushLlcp h.val ⟨false, some q⟩)
  | none => .next s

/-! ## Sending -/

/-- Rank of a packet type in Table 25. -/
def txRank (t : Nat) : Nat :=
  match t with
  | 2 => 0
  | 3 => 1
  | 5 => 2
  | 1 => 3
  | _ => 4

/-- The order of Table 25: the class, then for sections the time to the deadline, which may have passed. -/
def txKey (now : Nat) (it : TxItem) : Nat × Int := (txRank it.type, if it.type = 1 then ahead now it.deadline else 0)

/-- One key before another. -/
def keyLt (a b : Nat × Int) : Bool := decide (a.1 < b.1) || (a.1 == b.1 && decide (a.2 < b.2))

/-- The position of the packet to send next: the first of those with the least key. -/
def pickTx (now : Nat) (l : List TxItem) : Option (TxItem × List TxItem) :=
  match l with
  | [] => none
  | x :: r =>
    match pickTx now r with
    | some (y, r') => if keyLt (txKey now y) (txKey now x) then some (y, x :: r') else some (x, r)
    | none => some (x, r)

/-- Bytes of a held packet (R93). -/
def pktBytes (it : TxItem) : Nat := 20 + it.body.length

/-- The retry buffer takes another packet (R93). -/
def canHold (p : PktSt) (it : TxItem) : Bool :=
  decide (p.held.length < 512)
    && decide ((p.held.foldl (fun n k => n + pktBytes k.item) 0) + pktBytes it ≤ 1048576)

/-- Send a packet: every one carries ACKSEQ (R96). An aborted one ends with ERROR in the place of one of its blocks behind SOP
(R89), which place the model leaves open. -/
def State.startPkt (s : State) (h type flags seq flow nsec : Nat) (body : List Byte) (abort : Bool) : State :=
  let a := ((s.pkt h).e + 65535) % 65536
  let l := packetBlks (packetBytes type (128 + flags) seq a flow nsec body)
  let (k, s) := if abort then s.freeNat else (0, s)
  let l := if abort then l.take (1 + k % (l.length - 1)) ++ [errorBlk] else l
  (s.sendStream h l).mapPkt h fun p => { p with ackOwed := false }

/-- An LLCP packet: NSEC and FLOW 0; its SEQ is the RSYNC's, and 0 without one, as the spec gives none (log 70). -/
def State.startLlcp (s : State) (h : Nat) (l : Llcp) : State :=
  s.startPkt h 7 (64 * b2n l.nak + 32 * b2n l.rsync.isSome) (l.rsync.getD 0) 0 0 [] false

/-- Send a held packet, or the VOID in its place (R97, R98). -/
def State.startHeld (s : State) (h flags : Nat) (k : HeldPkt) (abort : Bool) : State :=
  if k.void then s.startPkt h 8 flags k.seq 0 0 [] false
  else s.startPkt h k.item.type flags k.seq k.item.flow k.item.nsec k.item.body abort

/-- An abort (R98): the held packet becomes a VOID, and its content counts against its flow (log 30) or its function. -/
def State.abortPkt (s : State) (h seq : Nat) (it : TxItem) : State :=
  let s := s.mapPkt h fun p => { p with held := setFirst (fun k => k.seq == seq) (fun k => { k with void := true }) p.held }
  let (third, s) := s.memParity 7 h seq
  let s := if third then s.fencePage 7 h (seq / 4096) else s
  if it.type = 1 ∨ it.type = 6 then
    s.setFlow it.flow { s.flow it.flow with invalid := inc32 (s.flow it.flow).invalid (max it.nsec 1) }
  else s.mapPkt h fun p => { p with lost := tset (fun _ => 0) p.lost it.type (tget (fun _ => 0) p.lost it.type + 1) }

/-- A new packet takes the next SEQ, is held, and goes out (R93). -/
def State.startNew (s : State) (h : Nat) (it : TxItem) (parity : Bool) : State :=
  let n := (s.pkt h).nextSeq
  let s := s.mapPkt h fun q => { q with held := q.held ++ [⟨n, it, false⟩], nextSeq := (n + 1) % 65536 }
  let s := s.startHeld h 0 ⟨n, it, false⟩ parity
  if parity then s.abortPkt h n it else s

/-- The half may send a new packet that consumes SEQ (R93, R99). -/
def State.maySend (s : State) (h : Nat) (it : TxItem) : Bool := (s.pkt h).rsync.isNone && canHold (s.pkt h) it

/-- A message that travels on the half it concerns: LINK_DEGRADED, LINK_RESTORED (R121). -/
def ownHalf (it : TxItem) : Bool := beNat it.body 0 2 == 1 || beNat it.body 0 2 == 2

/-- A half takes over the messages of a lead half that has no ACTIVE lane left (R121). -/
def State.takeOver (s : State) (h : Nat) : State :=
  if s.split || s.lead = h || !(s.activeLanes (1 - h)).isEmpty then s
  else
    let moved (it : TxItem) : Bool := it.type == 3 && !ownHalf it
    let l := (s.pkt (1 - h)).queue.filter moved
    (s.mapPkt (1 - h) fun p => { p with queue := p.queue.filter fun it => !moved it }).mapPkt h fun p =>
      { p with queue := p.queue ++ l }

/-- With nothing else to send, an ACKSEQ that is owed goes out in an LLCP packet (R96). -/
def State.sendOwed (s : State) (h : Nat) : State := if (s.pkt h).ackOwed then s.startLlcp h ⟨false, none⟩ else s

/-- R89, R97, R101: the next packet in the order of Table 25; resent packets before new ones. -/
def execPacketSend (h : Half) (parity : Bool) (s : State) : Host.Outcome State Fault Refusal :=
  let h := h.val
  if !s.linkUp h ∨ s.txLanes h = [] then .next s
  else
    let s := s.takeOver h
    let p := s.pkt h
    match p.llcp with
    | l :: r => .next ((s.mapPkt h fun q => { q with llcp := r }).startLlcp h l)
    | [] =>
      if p.rsync.isSome then .next (s.sendOwed h)
      else if 0 < p.resendLeft then
        match p.held[p.held.length - p.resendLeft]? with
        | some k =>
          let s := (s.bump (Rg.C_REPLAY h) 1).mapPkt h fun q =>
            { q with resendLeft := q.resendLeft - 1
                     resends := if q.resendLeft = q.held.length then q.resends + 1 else q.resends }
          let bad := parity && !k.void
          let s := s.startHeld h 16 k bad
          .next (if bad then s.abortPkt h k.seq k.item else s)
        | none => .next s
      else match pickTx s.time.count p.queue with
      | some (it, rest) =>
        if s.maySend h it then .next ((s.mapPkt h fun q => { q with queue := rest }).startNew h it parity)
        else .next (s.sendOwed h)
      | none => .next (s.sendOwed h)

/-- R98: a VOID is judged by retry as any packet is, and accepted as one without content. -/
def execVoidReceived (h : Half) (rows : List (List (Nat × Blk))) (s : State) : Host.Outcome State Fault Refusal :=
  let void (e : RxEvt) : Bool := match e with
    | .packet l => (hdrOf l).type == 8
    | .framing => false
  if s.linkUp h.val ∧ (s.rxEvts h.val rows).1.any void then .next (s.receive h.val rows) else .next s

/-- R121: a MSG packet from the baseband is discarded and counted. -/
def execMsgReceived (h : Half) (s : State) : Host.Outcome State Fault Refusal :=
  if s.linkUp h.val then .next (s.bump (Rg.C_BAD_TYPE h.val) 1) else .next s

/-! ## Flow contexts and sections -/

/-- A downlink carrier record in effect; a carrier in its safe state counts as EN clear (Table 136). -/
def State.dl (s : State) (c : Nat) : DlCarrier :=
  let r := tget DlCarrier.reset s.dlCar c
  if s.isSafe 0 c then { r with en := false } else r

/-- An uplink carrier record in effect. -/
def State.ul (s : State) (c : Nat) : UlCarrier :=
  let r := tget UlCarrier.reset s.ulCar c
  if s.isSafe 0 (4 + c) then { r with en := false } else r

/-- Numerology and PRBs of a flow's carrier, if its record in effect has EN set. -/
def State.flowCarrier (s : State) (f : Flow) : Option (Nat × Nat) :=
  if f.dir = 0 then (if (s.dl f.carrier).en then some ((s.dl f.carrier).scs, (s.dl f.carrier).nprb) else none)
  else if (s.ul f.carrier).en then some ((s.ul f.carrier).scs, (s.ul f.carrier).nprb) else none

/-- A context with the counters of another: counts run on over an effect (R102). -/
def Flow.keepCounts (g f : Flow) : Flow :=
  { g with accepted := f.accepted, late := f.late, early := f.early, invalid := f.invalid, shed := f.shed }

/-- A context after an effect. -/
def FlowFx.apply (x : FlowFx) (f : Flow) : Flow :=
  match x.ctx with
  | some g => { g.keepCounts f with state := if f.state = 0 then g.state else f.state }
  | none => { f with state := 0 }

/-- The context under which a section whose first symbol starts at `start` is handled: one that an effect later than it has
replaced, else the present one with the effects due by then applied (R106). -/
def State.flowAt (s : State) (n start : Nat) : Flow :=
  match (tget (fun _ => []) s.flowOld n).find? fun x => decide (ahead start x.until_ > 0) with
  | some x => x.ctx
  | none => (tget (fun _ => []) s.flowFx n).foldl (fun f x => if 0 ≤ ahead x.at_ start then x.apply f else f) (s.flow n)

/-- A flow's context as its accepted commands leave it: what is pending counts as in effect, and a close that is
pending as CLOSING (R103, R106). -/
def State.flowLast (s : State) (n : Nat) : Flow :=
  (tget (fun _ => []) s.flowFx n).foldl
    (fun f x => if x.ctx.isSome then x.apply f else { f with state := 3 }) (s.flow n)

/-- The open flows of R103: OPEN, SHED or CLOSING. -/
def State.openFlows (s : State) : List (Nat × Flow) :=
  ((List.range 256).map fun n => (n, s.flowLast n)).filter fun e => !(e.2.state == 0)

/-- Change a flow's counters. -/
def State.mapFlow (s : State) (n : Nat) (f : Flow → Flow) : State := s.setFlow n (f (s.flow n))

/-- A section is early or late at this instant (R115, R116): 0 on time, 1 early, 2 late. -/
def windowOf (now start lead : Nat) : Nat :=
  let d := ahead now start
  if !atLeastUs d lead then 2 else if ((lead : Int) + 125) * 49152 < d * 100 then 1 else 0

/-- PRB ranges overlap. -/
def prbOverlap (a an b bn : Nat) : Bool := decide (a < b + bn) && decide (b < a + an)

/-- A control section binds a data section (R111). -/
def binds (c : CtrlSec) (flow secid sym startPrb numPrb : Nat) : Bool :=
  c.flow == flow && c.secid == secid && c.syms.contains sym && decide (c.startPrb ≤ startPrb)
    && decide (startPrb + numPrb ≤ c.startPrb + c.numPrb)

/-- The control section a data section is bound to. -/
def State.boundTo (s : State) (d : DataSec) : Option CtrlSec :=
  s.ctrlSecs.find? fun c => !c.ul && binds c d.flow d.secid d.sym d.startPrb d.numPrb

/-- The layer numbers a data section carries, if it is bound. -/
def dataLayers (c : Option CtrlSec) (lfirst lcount : Nat) : List Nat :=
  match c with
  | some c => (c.body.layers.drop lfirst).take lcount
  | none => []

/-- The data section repeats layers and PRBs of one received for the symbol (Table 31). -/
def State.dataRepeats (s : State) (d : DataSec) : Bool :=
  let mine := dataLayers (s.boundTo d) d.lfirst d.lcount
  s.dataSecs.any fun o =>
    o.flow == d.flow && o.sym == d.sym && prbOverlap o.startPrb o.numPrb d.startPrb d.numPrb
      && ((dataLayers (s.boundTo o) o.lfirst o.lcount).any (mine.contains ·)
        || (o.secid == d.secid && prbOverlap o.lfirst o.lcount d.lfirst d.lcount))

/-- Bytes in a half's section buffer (R116). -/
def State.secBytes (s : State) (h : Nat) : Nat :=
  let own (f : Nat) := (s.flow f).half == h || s.split
  (s.ctrlSecs.foldl (fun n c => if own c.flow then n + c.size else n) 0)
    + (s.dataSecs.foldl (fun n c => if own c.flow then n + c.size else n) 0)
    + (s.soundSecs.foldl (fun n c => if own c.flow then n + c.size else n) 0)

/-- Count sections dropped as invalid against a flow. -/
def State.invalid (s : State) (f n : Nat) : State := s.mapFlow f fun x => { x with invalid := inc32 x.invalid n }

/-- Count an accepted section. -/
def State.accepted (s : State) (f : Nat) : State := s.mapFlow f fun x => { x with accepted := inc32 x.accepted 1 }

/-- The solver record of a flow whose EN is set, out of its safe state (R190, Table 136). -/
def State.solver (s : State) (f : Nat) : Option SolverRec :=
  match tget (fun _ => none) s.solvRec f with
  | some r => if r.en && !s.isSafe 5 f then some r else none
  | none => none

/-- The solver of a flow. -/
def State.solvSt (s : State) (f : Nat) : SolvSt := tget (fun _ => SolvSt.reset) s.solv f

/-- Change the solver of a flow. -/
def State.mapSolv (s : State) (f : Nat) (g : SolvSt → SolvSt) : State :=
  { s with solv := tset (fun _ => SolvSt.reset) s.solv f (g (s.solvSt f)) }

/-- A control body passes the third row of Table 31. -/
def State.ctrlOk (s : State) (f : Flow) (b : CtrlBody) : Bool :=
  decide (1 ≤ b.nlayer) && decide (b.nlayer ≤ 16) && b.layers.length == b.nlayer && decide (b.mode ≤ 2)
    && b.layers.all (fun l => decide (l < 16) && decide (f.layers / 2 ^ l % 2 = 1))
    && (match b.mode with
      | 0 => b.refs.all fun r => decide (r < 8192)
      | 2 => (s.flow b.sflow).state == 1 && (s.flow b.sflow).dir == 1 && (s.solver b.sflow).isSome && (s.solvSt b.sflow).out
          && b.refs.all fun r => decide (r < 16)
      | _ => true)

/-- An accepted control section overlaps in layers, PRBs and symbols (Table 31). -/
def State.ctrlOverlaps (s : State) (c : CtrlSec) : Bool :=
  s.ctrlSecs.any fun o =>
    o.flow == c.flow && o.ul == c.ul && prbOverlap o.startPrb o.numPrb c.startPrb c.numPrb
      && o.syms.any (c.syms.contains ·) && o.body.layers.any (c.body.layers.contains ·)

/-- Comb size of a code (Table 53). -/
def combSize (c : Nat) : Nat := 2 ^ (c + 1)

/-- Largest cyclic shift count of a comb (Table 53). -/
def ncsMax (c : Nat) : Nat :=
  match c with
  | 0 => 8
  | 1 => 12
  | _ => 6

/-- A SOUND_CTRL section passes R193. -/
def State.soundOk (s : State) (f nprb : Nat) (x : Section) (b : SoundBody) : Bool :=
  (x.nsym == 1 || x.nsym == 2 || x.nsym == 4) && decide (x.startPrb % 4 = 0)
    && (decide (x.numPrb % 4 = 0) || decide (x.startPrb + x.numPrb = nprb))
    && decide (b.comb ≤ 2) && decide (1 ≤ b.ports.length) && decide (b.ports.length ≤ 16)
    && b.ports.all (fun p => decide (p.1 < combSize b.comb) && decide (p.2.1 < ncsMax b.comb) && decide (p.2.2 < 30))
    && decide ((b.ports.map fun p => (p.1, p.2.1)).Nodup) && (s.solver f).isSome

/-- PRBs of a data body whose exponent is above 16 - W (R114). -/
def badExponents (comp n : Nat) (bytes : List Byte) : Nat :=
  ((unpackPrbs n comp (bitsMsb bytes)).filter fun x => x.isNone).length

/-- The kind of section fits the flow's direction and comes from the baseband (Table 31, row 1). -/
def kindOk (dir kind : Nat) : Bool := if dir = 0 then kind == 1 || kind == 2 else kind == 3 || kind == 5

/-- A big-endian two's-complement field of 16 bits. -/
def beInt16 (l : List Byte) (off : Nat) : Int := (BitVec.ofNat 16 (beNat l off 2)).toInt

/-- A control body (Table 30), at `np` weights a layer. REF entries are read with all their 16 bits (log 69). -/
def ctrlOf (np : Nat) (l : List Byte) : CtrlBody :=
  let n := byteAt l 0 % 32
  let mode := byteAt l 1 % 4
  { nlayer := n, mode := mode, sflow := byteAt l 2
    layers := (List.range n).map fun j => byteAt l (4 + j / 2) / 16 ^ (1 - j % 2) % 16
    refs := (List.range (min n 16)).map fun j => beNat l (12 + 2 * j) 2
    weights := if mode = 1 then (List.range n).map fun j => (List.range np).map fun p =>
        ⟨beInt16 l (44 + 4 * (np * j + p)), beInt16 l (46 + 4 * (np * j + p))⟩
      else [] }

/-- A sounding-control body (Table 53). -/
def soundOf (l : List Byte) : SoundBody :=
  { comb := byteAt l 1 % 4, final := byteAt l 2 % 2 == 1
    ports := (List.range (byteAt l 0 % 32)).map fun k => (byteAt l (4 + 4 * k) % 8, byteAt l (5 + 4 * k), byteAt l (6 + 4 * k)) }

/-- The words that a body's content fills (Table 30, R111, Table 53). -/
def contentWords (np comp : Nat) (x : Section) : Nat :=
  if x.kind = 1 ∨ x.kind = 3 then 11 + (if byteAt x.body 1 % 4 = 1 then np * (byteAt x.body 0 % 32) else 0)
  else if x.kind = 5 then 1 + byteAt x.body 0 % 32
  else ceilDiv (4 + ceilDiv (x.numPrb * byteAt x.body 1 * prbBits comp) 8) 4

/-- BODYLEN matches the content, and the packet holds it. -/
def lenOk (np comp : Nat) (x : Section) : Bool := x.words == contentWords np comp x && x.body.length == 4 * x.words

/-- The sections of a packet, back to back (R108, Table 28): at most NSEC; one that runs beyond the packet is its last. -/
def sectionsOf : Nat → List Byte → List Section
  | 0, _ => []
  | n + 1, l =>
    if l.length < 12 then []
    else
      let w := beNat l 8 4
      let k := w % 2 ^ 14
      { kind := byteAt l 0 / 16, nsym := byteAt l 1, secid := beNat l 2 2 % 4096, at_ := stampOfWord (beNat l 4 4) 0
        startPrb := w / 2 ^ 23, numPrb := w / 2 ^ 14 % 512, words := k, body := (l.drop 12).take (4 * k) }
        :: sectionsOf n (l.drop (12 + 4 * k))

/-- Bytes of a section. -/
def sectionSize (x : Section) : Nat := 12 + x.body.length

/-- The forwarding window of a downlink symbol is open: three to two symbols before its start (R26). -/
def fwdOpen (mu now start : Nat) : Bool :=
  let a := addSymbols mu 2 now
  let b := addSymbols mu 3 now
  decide (ahead start b ≥ 0) && decide (ahead a start > 0)

/-- Bits of a control section forwarded: explicit weights cross only for the paths of the half that receives them (R25 step 2,
R26). -/
def ctrlBits (paths : Nat) (c : CtrlSec) : Nat :=
  if c.body.mode = 1 then 8 * c.size - 32 * (paths - 32) * c.body.nlayer else 8 * c.size

/-- Sections cross to the other half, if it carries paths (R26, Table 5). -/
def State.forward (s : State) (h f : Nat) (sizes : List Nat) : State :=
  if h = 0 ∧ s.pathCount ≤ 32 then s else sizes.foldl (fun s n => s.d2dPush h (.sect f) n) s

/-- The body of a section under the remaining rows of Table 31 (R114 step 3). -/
def State.takeBody (s : State) (f : Nat) (ctx : Flow) (mu nprb start : Nat) (x : Section) : State :=
  let syms := (List.range x.nsym).map fun i => addSymbols mu i start
  let fwd := fwdOpen mu s.time.count start
  if x.kind = 1 ∨ x.kind = 3 then
    let b := ctrlOf s.pathCount x.body
    let c : CtrlSec := ⟨f, x.kind == 3, x.secid, syms, x.startPrb, x.numPrb, b, sectionSize x, fwd⟩
    if s.ctrlOk ctx b && !s.ctrlOverlaps c then
      ({ s with ctrlSecs := s.ctrlSecs ++ [c] }.accepted f).forward ctx.half f
        (if fwd && x.kind == 1 then [ctrlBits s.pathCount c] else [])
    else s.invalid f 1
  else if x.kind = 2 then
    let lf := byteAt x.body 0
    let lc := byteAt x.body 1
    let bytes := x.body.drop 4
    let d : DataSec := ⟨f, x.secid, start, x.startPrb, x.numPrb, lf, lc, bytes, sectionSize x, fwd⟩
    let tooFar : Bool := match s.boundTo d with
      | some c => decide (c.body.nlayer < lf + lc)
      | none => false
    if lc == 0 || tooFar || s.dataRepeats d then s.invalid f 1
    else
      let bad := badExponents ctx.comp (x.numPrb * lc) bytes
      (({ s with dataSecs := s.dataSecs ++ [d] }.accepted f).invalid f bad).forward ctx.half f
        (if fwd then [8 * d.size] else [])
  else
    let b := soundOf x.body
    if s.soundOk f nprb x b then
      let v := s.solvSt f
      let y : SoundSec := ⟨f, syms, x.startPrb, x.numPrb, b, sectionSize x, v.rxOcc, v.rxNo⟩
      let s := s.mapSolv f fun v =>
        { v with rxOcc := v.rxOcc + b2n b.final, rxNo := v.rxNo + 1
                 secs := v.secs ++ [⟨y.occ, y.no, 0, 0, false, false⟩] }
      { s with soundSecs := s.soundSecs ++ [y] }.accepted f
    else s.invalid f 1

/-- Judge one section of a flow on a half (R77, R106, R107, R114 to R117, R498). The spec does not place two drops in R114's
order: a section on the wrong half counts in SEC_NOFLOW as one without an open flow does, and one of a SHED flow counts in SHED,
both before the rows of Table 31. Table 31 has no row for NSYM outside 1 to 14, NSYM other than 1 on DL_DATA, or NUM_PRB 0: such
a section is INVALID in step 1 (DESIGN CHOICE, log 69). -/
def State.takeSection (h f : Nat) (s : State) (x : Section) : State :=
  let now := s.flowLast f
  let mu0 := if now.dir = 0 then (s.dl now.carrier).scs else (s.ul now.carrier).scs
  let ctx := s.flowAt f (countOf mu0 x.at_)
  if (ctx.state ≠ 1 ∧ ctx.state ≠ 2 ∧ ctx.state ≠ 3) ∨ ctx.dir = 2 ∨ (ctx.half ≠ h ∧ !(s.split && ctx.dir == 0)) then
    s.bump (Rg.C_SEC_NOFLOW h) 1
  else if ctx.state = 2 ∨ (ctx.state = 3 ∧ (s.link ctx.half).shed.contains f) then
    s.mapFlow f fun y => { y with shed := inc32 y.shed 1 }
  else match s.flowCarrier ctx with
  | none => s.invalid f 1
  | some (mu, nprb) =>
    let start := countOf mu { x.at_ with tick := 0 }
    if !kindOk ctx.dir x.kind || !stampOk mu { x.at_ with tick := 0 } || x.numPrb == 0
        || decide (nprb < x.startPrb + x.numPrb) || !lenOk s.pathCount ctx.comp x
        || decide (x.nsym < 1) || decide (14 < x.nsym) || ((x.kind == 2) && !(x.nsym == 1)) then s.invalid f 1
    else
      let w := windowOf s.time.count start ctx.lead
      if w = 1 then s.mapFlow f fun y => { y with early := inc32 y.early 1 }
      else if w = 2 then
        (s.mapFlow f fun y => { y with late := inc32 y.late 1 }).raiseLimited h
          (if ctx.dir = 0 then Ev.DL_LATE else Ev.UL_LATE) f 4915200 1 []
      else if 10485760 < s.secBytes h + sectionSize x then s.bump (Rg.C_SEC_BUFOVF h) 1
      else s.takeBody f ctx mu nprb start x

/-- R108, R114: the sections of an accepted SECTION packet. -/
def execSectionPacketReceived (h : Half) (bytes : List Byte) (s : State) : Host.Outcome State Fault Refusal :=
  let p := hdrOf bytes
  if s.linkUp h.val ∧ p.type = 1 then
    .next ((sectionsOf p.nsec (payload bytes)).foldl (State.takeSection h.val p.flow) s)
  else .next s

/-- R134: the data sections with this identifier and symbol that are still unbound are orphans. -/
def execDataBindingDeadline (_h : Half) (f : FlowNo) (secid start : Nat) (s : State) :
    Host.Outcome State Fault Refusal :=
  let orphan (d : DataSec) : Bool :=
    d.flow == f.val && d.secid == secid && d.sym == start
      && (match s.boundTo d with
        | some c => decide (c.body.nlayer < d.lfirst + d.lcount)
        | none => true)
  let n := (s.dataSecs.filter orphan).length
  .next ({ s with dataSecs := s.dataSecs.filter fun d => !orphan d }.invalid f.val n)

/-- A flow is shed: in SHED, or shed before it began to close (R107). -/
def State.isShed (s : State) (n : Nat) : Bool := (s.flow n).state == 2 || (s.link (s.flow n).half).shed.contains n

/-- Apply one effect of a flow: its new context with the counters kept, or CLOSED (R106). The context it replaces stays for
symbols before it, with SHED in place of CLOSING where the flow is shed; sections whose first symbol lies before a close stay. -/
def State.applyFx (s : State) (n : Nat) (x : FlowFx) : State :=
  let f := s.flow n
  let old : FlowOld := ⟨x.at_, if s.isShed n then { f with state := 2 } else f⟩
  let fresh (o : FlowOld) : Bool := !atLeastUs (ahead o.until_ s.time.count) 1000
  let s : State := { s with
    flowOld := tset (fun _ => []) s.flowOld n ((tget (fun _ => []) s.flowOld n).filter fresh ++ [old]) }
  let s := s.setFlow n (x.apply f)
  match x.ctx with
  | some _ => s
  | none =>
    let keeps (g : Nat) (l : List Nat) : Bool := !(g == n) || decide (ahead (nth l 0 x.at_) x.at_ > 0)
    let s : State := { s with ctrlSecs := s.ctrlSecs.filter fun c => keeps c.flow c.syms
                              dataSecs := s.dataSecs.filter fun c => keeps c.flow [c.sym]
                              soundSecs := s.soundSecs.filter fun c => keeps c.flow c.syms }
    let free (b : SolvBank) : SolvBank := { b with state := 0 }
    let s := s.mapSolv n fun v => { v with x := free v.x, y := free v.y, waiting := false, out := false }
    s.mapLink f.half fun l => { l with shed := l.shed.filter fun y => !(y == n) }

/-- What a closed flow leaves behind: a capture flow discards its queued CAPTURE packets (R362). -/
def State.flowEnd (s : State) (n : Nat) : State :=
  if (s.flow n).state = 0 then
    (s.mapPkt (s.flow n).half fun p => { p with queue := p.queue.filter fun it => !(it.type == 6 && it.flow == n) }).capFlowGone n
  else s

/-- R106: the effects of a flow whose symbol has come, in the order of their commands. -/
def execFlowEffect (f : FlowNo) (s : State) : Host.Outcome State Fault Refusal :=
  let l := tget (fun _ => []) s.flowFx f.val
  let due := l.takeWhile fun x => decide (0 ≤ ahead x.at_ s.time.count)
  let s := due.foldl (fun s x => s.applyFx f.val x) s
  let s : State := { s with flowFx := tset (fun _ => []) s.flowFx f.val (l.drop due.length) }
  .next (s.flowEnd f.val)

/-! ## Uplink sections -/

/-- PRBs of one layer that fit one section of a packet (R174): 9,180 bytes of resource elements. -/
def prbsPerSection (comp : Nat) : Nat := 9180 * 8 / prbBits comp

/-- One UL_DATA section (R174, Table 28). -/
def ulSection (partial_ : Bool) (secid : Nat) (at_ : Stamp) (start n lfirst comp : Nat) (res : List (List Cplx)) : List Byte :=
  let bits := (res.map (packPrb comp)).flatten
  let words := ceilDiv (4 + ceilDiv (n * prbBits comp) 8) 4
  let body := fitBytes (4 * words)
    (beBytes 1 lfirst ++ beBytes 1 1 ++ zeros 2 ++ bytesOfBits (ceilDiv (n * prbBits comp) 8) bits)
  beBytes 1 (64 + 8 * b2n partial_) ++ beBytes 1 1 ++ beBytes 2 secid ++ beBytes 4 (atimeWord at_)
    ++ beBytes 4 (start * 2 ^ 23 + n * 2 ^ 14 + words) ++ body

/-- The sections of one layer: the first takes as many PRBs as fit, the next continues (R174). -/
def layerSections (fuel : Nat) (partial_ : Bool) (secid : Nat) (at_ : Stamp) (start n lfirst comp : Nat)
    (get : Nat → List Cplx) : List (List Byte) :=
  match fuel with
  | 0 => []
  | fuel + 1 =>
    if n = 0 then []
    else
      let k := min n (prbsPerSection comp)
      ulSection partial_ secid at_ start k lfirst comp ((List.range k).map fun i => get (start + i))
        :: layerSections fuel partial_ secid at_ (start + k) (n - k) lfirst comp get

/-- Consecutive sections share a packet while it stays within 9,216 bytes (R174). -/
def packSections : List (List Byte) → Nat → List Byte → List (Nat × List Byte)
  | [], n, acc => if n = 0 then [] else [(n, acc)]
  | x :: r, n, acc =>
    if n = 0 then packSections r 1 x
    else if 20 + acc.length + x.length ≤ 9216 then packSections r (n + 1) (acc ++ x)
    else (n, acc) :: packSections r 1 x

/-- The UL_DATA sections of a control section for a symbol's sums (R119, R174). -/
def ulSections (c : CtrlSec) (u : SumSym) (mu comp : Nat) : List (List Byte) :=
  (c.body.layers.zipIdx.map fun (l, i) =>
    layerSections 274 u.partial_ c.secid (stampOf mu u.sym) c.startPrb c.numPrb i comp fun b =>
      match u.res.find? fun e => e.1 == l && e.2.1 == b with
      | some e => e.2.2
      | none => List.replicate 12 Cplx.zero).flatten

/-- R119, R174: the sums of a symbol leave as UL_DATA sections, each compressed as the context of its control section's first
symbol says (R106); a shed flow sends nothing and counts its sections. -/
def execUlSectionSend (h : Half) (f : FlowNo) (sym : Nat) (s : State) : Host.Outcome State Fault Refusal :=
  match s.sums.find? fun u => u.flow == f.val && u.sym == sym && u.half == h.val with
  | some u =>
    let s := { s with sums := s.sums.filter fun x => !(x == u) }
    let cs := (s.ctrlSecs.filter fun c => c.ul && c.flow == f.val && c.syms.contains sym).map fun c =>
      (c, s.flowAt f.val (nth c.syms 0 sym))
    let made (p : Flow → Bool) : List (List Byte) :=
      ((cs.filter fun c => p c.2).map fun c => ulSections c.1 u (s.ul c.2.carrier).scs c.2.comp).flatten
    if s.isShed f.val then
      .next (s.mapFlow f.val fun y => { y with shed := inc32 y.shed (made fun x => !(x.state == 0)).length })
    else
      let secs := made fun x => x.state == 1 || x.state == 3
      let s := if u.partial_ then s.bump (Rg.C_UL_PARTIAL h.val) secs.length else s
      let stop := addSymbols (s.ul (s.flow f.val).carrier).scs 1 sym + usTicks 80
      .next ((packSections secs 0 []).foldl
        (fun s p => s.queueTx h.val { type := 1, flow := f.val, nsec := p.1, deadline := stop % Config.ticksPerCycle, body := p.2 }) s)
  | none => .next s

end Sys2Proof.Machine
end

