-- ==== Sys2Proof/Machine/Power.lean ====
section
/-! DEFINITION. Voting domains, votes and wake delays (R456 to R465), as several families share them. -/

namespace Sys2Proof.Machine

/-- Domains of a half: eight on H0, seven on H1 (Table 126). -/
def domCount (h : Nat) : Nat := if h = 0 then 8 else 7

/-- The group a domain position stands for (SU_VOTE_OWNER order: ARRAY, ENGINE, four groups, LINK, HOSTIF). -/
def domGroup (h d : Nat) : Option Nat := if 2 ≤ d ∧ d ≤ 5 then some (4 * h + d - 2) else none

/-- A domain is in service: its group is not held off (R5, R457). -/
def State.domIn (s : State) (h d : Nat) : Bool :=
  decide (d < domCount h) && (match domGroup h d with
    | some g => s.groupIn g
    | none => true)

/-- The CTL clock of a half runs: the half is in RUN or IDLE, or a domain of it is on its way there (Table 6, Table 128). -/
def State.ctlRuns (s : State) (h : Nat) : Bool :=
  (List.range (domCount h)).any fun d => s.domIn h d && (decide (s.dom h d ≤ 1) || decide (4 ≤ s.dom h d))

/-- Change a domain's state and raise POWER_STATE (R474); the tick of the change is kept. -/
def State.moveDom (s : State) (h d v : Nat) : State :=
  let old := s.dom h d
  if old = v then s
  else
    let s := s.mapTime fun t => { t with wakeFrom := tset (fun _ => (0, 0)) t.wakeFrom (8 * h + d) (if v = 5 then old else v, t.now) }
    (s.setDom h d v).raise h Ev.POWER_STATE d [h, v, old]

/-- A client's vote on a domain: bit 0 HOST, 1 BASEBAND, 2 SCHEDULE (SU_VOTE_STAT0, R475). -/
def State.vote (s : State) (h d client : Nat) : Bool := bitOf (s.reg (0x0830 + 4 * h)) (4 * d + client)

/-- Set or withdraw a client's vote. -/
def State.setVote (s : State) (h d client : Nat) (on : Bool) : State :=
  s.setReg (0x0830 + 4 * h) (fset (s.reg (0x0830 + 4 * h)) (4 * d + client) 1 (b2n on))

/-- Owner code of a domain in SU_VOTE_OWNER: 0 HOST, 1 BASEBAND, 2 SHARED; reserved counts as the reset value 2 (R9). -/
def State.voteOwner (s : State) (h d : Nat) : Nat :=
  let v := fget (s.reg 0x0028) (16 * h + 2 * d) 2
  if v = 3 then (if h = 0 ∧ d = 7 then 0 else 2) else v

/-- Position in SU_VOTE_OWNER of bit `b` of DOM_H0 and DOM_H1 (Table 38): ARRAY 7, ENGINE 6, groups 2 to 5, LINK 1,
HOSTIF 0. -/
def domOfBit (b : Nat) : Nat :=
  match b with
  | 7 => 0
  | 6 => 1
  | 1 => 6
  | 0 => 7
  | n => n

/-- The domains that a DOM byte marks on a half, in service (R457). -/
def State.markedDoms (s : State) (h : Nat) (byte : Nat) : List Nat :=
  ((List.range 8).filter fun b => byte / 2 ^ b % 2 == 1).map domOfBit |>.filter fun d => s.domIn h d

/-- The WAKE or TIMED hold of a domain. -/
def State.setWakeHold (s : State) (h d : Nat) (on : Bool) : State :=
  s.mapTime fun t => { t with wakeHold := tset (fun _ => false) t.wakeHold (8 * h + d) on }

/-- The domains of SU_PM_WAKEMASK (R464). -/
def State.wakeMask (s : State) : List (Nat × Nat) :=
  ((List.range 8).filter fun d => bitOf (s.reg 0x0824) d).map (fun d => (0, d))
    ++ ((List.range 7).filter fun d => bitOf (s.reg 0x0824) (8 + d)).map (fun d => (1, d))

/-- Wake delay of a domain position from a state, in µs (Table 131). -/
def wakeUs (d st : Nat) : Nat :=
  match st with
  | 1 => 2
  | 2 => if d ≤ 1 then 40 else if d ≤ 5 then 150 else 50
  | 3 => 12000
  | _ => 0

/-- Ticks from a wake instant to RUN for a domain from a state; from DEEP one AON period is added (R458). -/
def wakeTicksOf (d st : Nat) : Nat := usTicks (wakeUs d st) + (if st = 3 then 15000 else 0)

/-- The same for a domain as it stands; one that is waking counts from the state it left. -/
def State.wakeTicks (s : State) (h d : Nat) : Nat :=
  wakeTicksOf d (if s.dom h d = 5 then (tget (fun _ => (0, 0)) s.time.wakeFrom (8 * h + d)).1 else s.dom h d)

/-- The device is in DEEP or OFF as a whole: no domain in service is out of it. -/
def State.deepDown (s : State) : Bool :=
  (List.range 2).all fun h => (List.range (domCount h)).all fun d => !s.domIn h d || s.dom h d == 3 || s.dom h d == 4

end Sys2Proof.Machine
end

