-- ==== Sys2Proof/Machine/Groups.lean ====
section
/-! DEFINITION. What several analogue families share: the TDD schedule (R293, R294), swap and slot boundaries (R216), the
air-time hold (R455), the readiness of a group's LO (R281), blanked windows (R302), heats required (R257), locking and
relaying synthesisers (R277 to R284). -/

namespace Sys2Proof.Machine

/-! ## The schedule -/

/-- Ticks of a slot of the pattern. -/
def patternSlot (x : SchedRec) : Nat := Config.ticksPerSubframe / 2 ^ x.muRef

/-- Code of the pattern's symbol at a count (R294): 0 D, 1 U, 2 G. -/
def Sched.codeAt (x : Sched) (c : Nat) : Nat :=
  let t := (c + Config.ticksPerCycle - x.at_ % Config.ticksPerCycle) % (x.rec_.nslot * patternSlot x.rec_)
  nth x.rec_.slots (t / patternSlot x.rec_) 0 / 4 ^ (symOf x.rec_.muRef (c % Config.ticksPerSubframe) % 14) % 4

/-- The schedule in force; none in the safe state of the schedule (index 0) or of a front-end timing register (1)
(Table 136). -/
def State.schedule (s : State) : Option Sched := if s.isSafe 1 0 || s.isSafe 1 1 then none else s.sched

/-- The pattern's code at a count, if a schedule is in effect. -/
def State.codeAt (s : State) (c : Nat) : Option Nat := s.schedule.map (·.codeAt c)

/-- A count lies in a transmit interval. -/
def State.inTx (s : State) (c : Nat) : Bool := s.codeAt c == some 0

/-- A transmit interval begins at a count: the tick before is not in one (R294). -/
def State.txBegins (s : State) (c : Nat) : Bool := s.inTx c && !s.inTx ((c + Config.ticksPerCycle - 1) % Config.ticksPerCycle)

/-- A symbol overlaps an interval of a code; one that does not lies outside every such interval (R149, R170). -/
def State.touches (s : State) (code start len : Nat) : Bool :=
  match s.schedule with
  | none => false
  | some x => (List.range 16).any fun k =>
      let c := addSymbols x.rec_.muRef k start
      decide (ahead start c < (len : Int)) && x.codeAt c == code

/-- The tick, counted as `now` is, at which a count of the cycle comes or came nearest to now. -/
def State.tickOf (s : State) (c : Nat) : Int := (s.time.now : Int) + ahead s.time.count c

/-! ## Boundaries -/

/-- Largest spacing among a direction's carriers in effect. -/
def State.muMax (s : State) (up : Bool) : Option Nat :=
  ((List.range 4).filter fun c => if up then (s.ul c).en else (s.dl c).en).foldl
    (fun m c => some (max (m.getD 0) (if up then (s.ul c).scs else (s.dl c).scs))) none

/-- The numerology of swap boundaries (R216); with no downlink carrier enabled MU_REF stands in (log 11). -/
def State.swapMu (s : State) : Nat := (s.muMax false).getD s.muRef

/-- The first swap boundary at least `us` µs from now (R216). -/
def State.nextSwap (s : State) (us : Nat) : Nat := nextSlot s.swapMu (s.time.count + usTicks us)

/-- The first boundary of a blanking interval at least `us` µs from now (R216). -/
def State.nextBlank (s : State) (us : Nat) : Nat := addSymbols s.swapMu 1 (s.time.count + usTicks us - 1)

/-- The first slot boundary of the uplink carrier with the largest spacing at least `us` µs from now (R249). -/
def State.nextUlSlot (s : State) (us : Nat) : Nat := nextSlot ((s.muMax true).getD s.muRef) (s.time.count + usTicks us)

/-- A count has come. -/
def State.reached (s : State) (c : Nat) : Bool := decide (0 ≤ ahead c s.time.count)

/-! ## The air-time hold -/

/-- U_max in ticks (R455): from the shortest spacing of both directions' carriers in effect. -/
def State.uMaxTicks (s : State) : Nat :=
  let on (mu : Nat) := (List.range 4).any fun c => ((s.dl c).en && (s.dl c).scs == mu) || ((s.ul c).en && (s.ul c).scs == mu)
  if on 0 then 576 else if on 1 then 288 else 144

/-- U lies above U_max; an invalid counter counts so. -/
def State.tooUncertain (s : State) : Bool :=
  !s.time.valid || decide (s.uMaxTicks * 100000 < s.raw Rg.AT_STAT_UNC * 49152)

/-- A hold begins while U is above U_max (R455). -/
def State.evalHold (s : State) : State :=
  if s.tooUncertain && !s.time.txHeld then (s.mapTime fun t => { t with txHeld := true }).bump (Rg.C_TX_HOLDS 0) 1 else s

/-! ## Groups -/

/-- A group's heat and readiness state. -/
def State.group (s : State) (g : Nat) : GroupSt := tget (fun _ => GroupSt.reset) s.grp g

/-- Change a group's state. -/
def State.mapGroup (s : State) (g : Nat) (f : GroupSt → GroupSt) : State :=
  { s with grp := tset (fun _ => GroupSt.reset) s.grp g (f (s.group g)) }

/-- Set bit `i` of a field. -/
def State.setBit (s : State) (x : Fld) (i : Nat) (b : Bool) : State :=
  let v := s.raw x
  s.setF x (v / 2 ^ (i + 1) * 2 ^ (i + 1) + (if b then 2 ^ i else 0) + v % 2 ^ i)

/-- Bit `i` of a field. -/
def State.bitF (s : State) (x : Fld) (i : Nat) : Bool := s.raw x / 2 ^ i % 2 == 1

/-- Paths of a group. -/
def groupPaths (g : Nat) : List Nat := (List.range 8).map (· + 8 * g)

/-- Paths of a half. -/
def halfPaths (h : Nat) : List Nat := (List.range 32).map (· + 32 * h)

/-- A hop-table entry of a unit; in its safe state it is not VALID (Table 136). -/
def State.hop (s : State) (n e : Nat) : HopEnt :=
  let x := tget (fun _ => HopEnt.reset) s.hops (n * 64 + e)
  if s.isSafe 2 e then { x with valid := false } else x

/-- Change a hop-table entry. -/
def State.mapHop (s : State) (n e : Nat) (f : HopEnt → HopEnt) : State :=
  { s with hops := tset (fun _ => HopEnt.reset) s.hops (n * 64 + e) (f (tget (fun _ => HopEnt.reset) s.hops (n * 64 + e))) }

/-- A group's synthesiser is locked at the entry in use. -/
def State.loLockedG (s : State) (g : Nat) : Bool :=
  match s.loOf g, (s.group g).entry with
  | some n, some e => s.raw (Rg.LO_STAT_STATE n) == 3 && s.raw (Rg.LO_STAT_ENTRY n) == e && (s.hop n e).valid
  | _, _ => false

/-- A group's LO is ready (R281). -/
def State.loReady (s : State) (g : Nat) : Bool :=
  s.loLockedG g && (s.group g).need == 0 && (s.group g).heat == 0

/-- A group's LO is ready (R281), its script done (R304) and no command holds it (R251, R307). -/
def State.groupReady (s : State) (g : Nat) : Bool :=
  let x := s.group g
  s.loLockedG g && x.need == 0 && x.heat == 0 && !x.script && !x.held && !x.retune && s.groupIn g

/-- Bring the READY bits of a group up to date. A group that loses readiness after a clock failure has retired its half's
engines has its paths retired (Table 137). -/
def State.evalReady (s : State) (g : Nat) : State :=
  let r := s.groupReady g
  let lost := s.bitF Rg.FE_STAT_READY g && !r && tget (fun _ => false) s.rel.engGone (g / 4)
  let s := s.setBit Rg.FE_STAT_READY g r
  let s := if lost then (groupPaths g).foldl (fun s p => s.retirePath p 7) s else s
  match s.loOf g with
  | some n => s.setB (Rg.LO_STAT_READY n) r
  | none => s

/-- Change a group's state and bring its readiness up to date. -/
def State.updGroup (s : State) (g : Nat) (f : GroupSt → GroupSt) : State := (s.mapGroup g f).evalReady g

/-- A group's window from `start` is blanked for a reason (R302). -/
def State.blankWindow (s : State) (g reason start : Nat) : State :=
  if s.bitF Rg.FE_STAT_BLANKED g then s
  else
    let s := (s.setBit Rg.FE_STAT_BLANKED g true).bump (Rg.C_FALSE_START (g / 4)) 1
    let m (h : Nat) := if g / 4 = h then maskNat 32 (fun i => i / 8 == g % 4) else 0
    s.raise (g / 4) Ev.FALSE_START 0 [m 0, m 1, reason, atimeWord (stampOf s.muRef start)]

/-- The rest of a transmit interval under way is blanked (R303). -/
def State.blankRest (s : State) (g reason : Nat) : State :=
  match (s.group g).blankAt with
  | some start => if s.inTx s.time.count then s.blankWindow g reason start else s
  | none => s

/-- A path's TX side goes OFF; what it had still to send is discarded (R28, Table 43). -/
def State.txOff (s : State) (p : Nat) : State := s.mapTx p fun t => { t with state := 0, next := none }

/-- A group's LO output is gated, or its paths go OFF for a heat or a hop (R278, R271, R303, Table 76). -/
def State.groupOff (s : State) (g reason : Nat) : State :=
  let s := s.blankRest g reason
  (groupPaths g).foldl (fun s p =>
    let s := s.txOff p
    let st := (s.fep p).state
    if 1 ≤ st ∧ st ≤ 4 then s.feTo p 0 else s) s

/-- An event of Table 65 requires a heat of a group: 1 short, 2 full. A heat that runs grows with it (R257). -/
def State.requireHeat (s : State) (g kind why : Nat) : State :=
  s.updGroup g fun x =>
    if x.heat = 0 then { x with need := max x.need kind, why := why }
    else if x.heat < kind then { x with heat := kind, step := 1, why := why }
    else { x with why := why }

/-- Groups in service. -/
def State.groupsIn (s : State) : List Nat := (List.range 8).filter fun g => s.groupIn g

/-- The sensors beside a group's paths. -/
def groupSensors (g : Nat) : List Nat := (List.range 4).map fun i => if g < 4 then 4 * g + i else 26 + 4 * (g - 4) + i

/-- A sensor's reading, or its estimate once failed (R391), in 1/64 °C. -/
def State.sensTemp (s : State) (n : Nat) : Int :=
  let x := tget (fun _ => SensSt.reset) s.sens n
  if x.failed then x.est else x.reading

/-- A group's mean sensor temperature in 1/64 °C. -/
def State.groupTemp (s : State) (g : Nat) : Int := ((groupSensors g).map s.sensTemp).sum / 4

/-- The sensor of a path. -/
def pathSensor (p : Nat) : Nat := if p < 32 then p / 2 else 26 + (p - 32) / 2

/-! ## Mute slots (R270) -/

/-- The mute ends at the first slot boundary after the mute slot's start at which no heat is required or runs. -/
def State.endMute (s : State) (sym : Nat) : State :=
  match s.ref.muteFrom with
  | some (start, len) =>
    let quiet := s.groupsIn.all fun g => (s.group g).need == 0 && (s.group g).heat == 0
    if quiet ∧ 0 < ahead start sym ∧ ahead start sym % (len : Int) = 0 then
      (List.range 64).foldl (fun s p => s.mapTx p fun t => { t with mute := false })
        { s with ref := { s.ref with muteFrom := none } }
    else s
  | none => s

/-! ## Calibration of a path -/

/-- Calibration of a path. -/
def State.calOf (s : State) (p : Nat) : CalPath := tget (fun _ => CalPath.reset) s.calp p

/-- Change the calibration of a path. -/
def State.mapCal (s : State) (p : Nat) (f : CalPath → CalPath) : State :=
  { s with calp := tset (fun _ => CalPath.reset) s.calp p (f (s.calOf p)) }

/-- A priority background measurement of a path falls due (Table 65). -/
def State.prioMeasure (s : State) (p : Nat) : State := s.mapCal p fun c => { c with prio := true, dueTx := true, dueRx := true }

/-! ## Synthesisers -/

/-- A synthesiser beside its register. -/
def State.lo (s : State) (n : Nat) : LoX := tget (fun _ => LoX.reset) s.lox n

/-- Change a synthesiser. -/
def State.mapLo (s : State) (n : Nat) (f : LoX → LoX) : State := { s with lox := tset (fun _ => LoX.reset) s.lox n (f (s.lo n)) }

/-- The group whose hops a unit follows: the group it serves, or the one it stands by for (R283). -/
def State.loGroup (s : State) (n : Nat) : Nat :=
  if s.on (Rg.LO_STAT_SERVING n) then s.raw (Rg.LO_STAT_GROUP n)
  else if n < 5 then s.f Rg.LO_CFG_STBY_H0 else 4 + s.f Rg.LO_CFG_STBY_H1

/-- The dither seed of a unit (R280). -/
def State.seed (s : State) (n : Nat) : Nat :=
  let b := if s.f Rg.LO_CFG_SEED_BASE = 0 then Rg.LO_CFG_SEED_BASE.rst else s.f Rg.LO_CFG_SEED_BASE
  (b * 2 ^ n) % 2 ^ 24 + b / 2 ^ (24 - n)

/-- Start to lock a unit at an entry: fast if its stored results are valid and near in temperature, else, or when
`search` is forced, by band search (R277). -/
def State.lockLo (s : State) (n e : Nat) (search : Bool) : State :=
  let x := s.hop n e
  let near := decide ((s.groupTemp (s.loGroup n) - 64 * x.temp).natAbs ≤ 20 * 64)
  let fast := x.stored && near && !search
  let h := n / 5
  let s := s.bump (if fast then Rg.C_LO_FAST h else Rg.C_LO_SEARCH h) 1
  let s := s.mapLo n fun l => { l with tries := l.tries + 1, search := !fast }
  let s := s.setF (Rg.LO_STAT_ENTRY n) e
  let s := s.setF (Rg.LO_STAT_STATE n) (if fast then 2 else 1)
  (s.setB (Rg.LO_STAT_FAST n) fast).evalReady (s.loGroup n)

/-- A first attempt. -/
def State.startLo (s : State) (n e : Nat) : State := (s.mapLo n fun l => { l with tries := 0 }).lockLo n e false

/-- The spare unit of a class on a half, numbered as LO, ORX and AE are (Table 3). -/
def spareUnit (h : Nat) : Nat := 5 * h + 4

/-- A synthesiser is declared faulty: the half's spare takes its group, or the group is retired (R279, R284). A faulty
spare is retired without effect on traffic. -/
def State.loFaulty (s : State) (n : Nat) : State :=
  let h := n / 5
  let serving := s.on (Rg.LO_STAT_SERVING n)
  let g := s.raw (Rg.LO_STAT_GROUP n)
  let s := ((s.setF (Rg.LO_STAT_STATE n) 5).setF (Rg.LO_STAT_SERVING n) 0).setF (Rg.LO_STAT_READY n) 0
  let s := s.logFault 3 n
  let sp := spareUnit h
  if !serving then (if n = sp then s.exhaust h 3 else s).evalRel
  else if n ≠ sp ∧ s.raw (Rg.LO_STAT_STATE sp) ≠ 5 ∧ !s.on (Rg.LO_STAT_SERVING sp) then
    let stby := s.loGroup sp
    let s := (s.setF (Rg.LO_STAT_SERVING sp) 1).setF (Rg.LO_STAT_GROUP sp) g
    let s := { s with calSets := s.calSets.filter fun c => !(c.group == g) }
    let s := s.raise h Ev.LO_RELAY g [sp, n]
    let s := (s.spareIn h).exhaust h 3
    let auto := s.on Rg.CAL_CFG_AUTO_FG
    let s := (s.requireHeat g 2 1).updGroup g fun x => { x with held := x.held || !auto }
    match (s.group g).entry with
    | some e => if stby = g ∧ s.raw (Rg.LO_STAT_STATE sp) = 3 ∧ s.raw (Rg.LO_STAT_ENTRY sp) = e then s.evalReady g
                else s.startLo sp e
    | none => s
  else ((groupPaths g).foldl (fun s p => s.retirePath p 7) s).heatRunLeave g false

end Sys2Proof.Machine
end

