-- ==== Sys2Proof/Machine/Pacer.lean ====
section
/-! DEFINITION. The pacer of periodic service work (R337 to R340). -/

namespace Sys2Proof.Machine

/-- The nominal period in µs of a series of Table 87 for a subject. -/
def State.nominalUs (s : State) (series subject : Nat) : Nat :=
  match series with
  | 0 => 1000 * s.f Rg.CAL_CFG_CYCLE
  | 1 => 10000 * s.f Rg.DPD_CFG_PERIOD * (if 1 ≤ s.raw Rg.THERM_STAT_LEVEL then 2 else 1)
      * (if s.sharedOrx.contains (subject / 8) then 2 else 1)
  | 2 => match s.solver subject with
    | some r => 1000 * r.period / 2 ^ (s.ul (s.flow subject).carrier).scs
    | none => 0
  | 3 => 100000 * s.f Rg.FE_CFG_MM_PERIOD
  | 4 => 10000
  | 5 => 1000
  | 6 => 100000
  | 7 => 10000
  | _ => 10000000

/-- The same in ticks. -/
def State.nominalTicks (s : State) (series subject : Nat) : Nat := s.nominalUs series subject * 49152 / 100

/-- The half that a series' subject belongs to. -/
def State.seriesHalf (s : State) (series subject : Nat) : Nat :=
  match series with
  | 2 => (s.flow subject).half
  | 4 => subject
  | 5 => subject
  | 6 => subject
  | 7 => subject / 5
  | 8 => subject
  | _ => subject / 32

/-- What the pacer holds of a series; none before its first instance. -/
def State.paceOf (s : State) (series subject : Nat) : Option Pace := tget (fun _ => none) s.pace (256 * series + subject)

/-- Set it. -/
def State.setPace (s : State) (series subject : Nat) (p : Pace) : State :=
  { s with pace := tset (fun _ => none) s.pace (256 * series + subject) (some p) }

/-- An instance that starts now starts after it fell due (R337). -/
def State.paceLate (s : State) (series subject : Nat) : Bool :=
  match s.paceOf series subject with
  | some p => decide (p.due < s.time.now)
  | none => false

/-- The grid instant of the instance that is due next: after a change of the nominal period the grid is anchored at the
instant at which it falls due under the old one (R339). -/
def Pace.anchor (p : Pace) (nominal : Nat) : Nat := if p.period = nominal then p.grid else p.due

/-- The lag of the instance that is due next, if it starts now or has not started yet: from its grid instant (R337, R340). -/
def State.paceLag (s : State) (series subject : Nat) : Nat :=
  match s.paceOf series subject with
  | some p => if p.due ≤ s.time.now then s.time.now - p.anchor (s.nominalTicks series subject) else 0
  | none => 0

/-- An instance starts (R337, R339): the next falls due a period later, less the lag or a quarter of the period. A lag back at
zero is reported (R340). -/
def State.paceStart (s : State) (series subject : Nat) : State :=
  let t := s.nominalTicks series subject
  let now := s.time.now
  let g := match s.paceOf series subject with
    | some p => p.anchor t
    | none => now
  let lag := now - g
  let s := s.setPace series subject ⟨g + t, now + t - min lag (t / 4), t⟩
  let k := (series, subject)
  if lag = 0 ∧ s.behind.contains k then
    { s with behind := s.behind.filter fun x => !(x == k) }.raise (s.seriesHalf series subject % 2) Ev.PACER_REGAINED subject
      [series, 0]
  else s

/-- An instance that its own chapter declares not run: the grid moves on (R338). -/
def State.paceSkip (s : State) (series subject : Nat) : State :=
  let t := s.nominalTicks series subject
  let g := match s.paceOf series subject with
    | some p => p.anchor t
    | none => s.time.now
  s.setPace series subject ⟨g + t, g + t, t⟩

/-- An instance falls due: the first one anchors its series. -/
def State.paceDue (s : State) (series subject : Nat) : State :=
  if (s.paceOf series subject).isSome then s
  else s.setPace series subject ⟨s.time.now, s.time.now, s.nominalTicks series subject⟩

/-- Start an instance, and count one that starts late. -/
def State.paceRun (s : State) (series subject : Nat) (count : Fld) : State :=
  (if s.paceLate series subject then s.bump count 1 else s).paceStart series subject

/-- R340: the lag of a series exceeds four nominal periods. -/
def execPacerBehind (series : Fin 9) (subject : Nat) (s : State) : Host.Outcome State Fault Refusal :=
  let k := (series.val, subject)
  let h := s.seriesHalf series.val subject % 2
  let lag := s.paceLag series.val subject
  if 4 * s.nominalTicks series.val subject < lag ∧ !s.behind.contains k then
    .next (({ s with behind := k :: s.behind }.bump (Rg.C_PACER_BEHIND h) 1).raise h Ev.PACER_BEHIND subject
      [series.val, lag * 100 / 49152])
  else .next s

end Sys2Proof.Machine
end

