-- ==== Sys2Proof/Machine/Beams.lean ====
section
/-! DEFINITION. Beam weights (ch. 6): rows and entries of the beam table, loads, scrub and repair; the solver's
occasions, solves and banks. -/

namespace Sys2Proof.Machine

/-! ## The beam table -/

/-- An entry. -/
def State.beam (s : State) (id : Nat) : BeamEnt := tget BeamEnt.reset s.beams id

/-- Change an entry. -/
def State.mapBeam (s : State) (id : Nat) (f : BeamEnt → BeamEnt) : State :=
  { s with beams := tset BeamEnt.reset s.beams id (f (s.beam id)) }

/-- A row of a half. -/
def State.row (s : State) (h r : Nat) : BeamRow := tget (fun _ => BeamRow.reset) s.rows (h * 8384 + r)

/-- Change a row. -/
def State.mapRow (s : State) (h r : Nat) (f : BeamRow → BeamRow) : State :=
  { s with rows := tset (fun _ => BeamRow.reset) s.rows (h * 8384 + r) (f (s.row h r)) }

/-- Free staging rows of a half. -/
def State.stageOf (s : State) (h : Nat) : List Nat := tget (fun _ => stageReset) s.stage h

/-- Set the staging pool of a half, and its count in SU_BW_STAT. -/
def State.setStage (s : State) (h : Nat) (l : List Nat) : State :=
  { s with stage := tset (fun _ => stageReset) s.stage h l }.setF
    (if h = 0 then Rg.BW_STAT_STAGE_H0 else Rg.BW_STAT_STAGE_H1) l.length

/-- Spare rows of a half. -/
def State.sparesOf (s : State) (h : Nat) : List Nat := tget (fun _ => spareReset) s.spareRows h

/-- Set the spare pool of a half, and its count in SU_BW_STAT. -/
def State.setSpares (s : State) (h : Nat) (l : List Nat) : State :=
  { s with spareRows := tset (fun _ => spareReset) s.spareRows h l }.setF
    (if h = 0 then Rg.BW_STAT_SPARE_H0 else Rg.BW_STAT_SPARE_H1) l.length

/-- The row of an entry on a half. -/
def BeamEnt.rowOn (e : BeamEnt) (h : Nat) : Option Nat := if h = 0 then e.row0 else e.row1

/-- An entry with another row on a half. -/
def BeamEnt.setRow (e : BeamEnt) (h : Nat) (r : Option Nat) : BeamEnt :=
  if h = 0 then { e with row0 := r } else { e with row1 := r }

/-- Owner of an entry: 0 HOST, 1 BASEBAND, 2 SHARED (R187). -/
def State.beamOwner (s : State) (id : Nat) : Nat := (s.beam id).owner.getD (if s.boot.ownAll then 2 else s.f Rg.BW_CFG_DEF_OWNER)

/-- A party may act on a resource of an owner. -/
def mayAct (owner : Nat) (host : Bool) : Bool := owner == 2 || owner == (if host then 0 else 1)

/-- The weights of an entry's row on a half. -/
def State.rowWeights (s : State) (e : BeamEnt) (h : Nat) : List Cplx :=
  match e.rowOn h with
  | some r => (s.row h r).w
  | none => []

/-- What an entry was for an instant before its last changes, if they came later: the content in force then (R178). -/
def BeamEnt.before (e : BeamEnt) (tick : Int) : Option BeamWas := (e.was.filter fun w => decide (tick < w.until_)).getLast?

/-- The state of an entry now (Table 49): a parity error makes it DAMAGED at a symbol boundary. -/
def State.beamState (s : State) (id : Nat) : Nat :=
  match (s.beam id).before s.time.now with
  | some w => w.state
  | none => (s.beam id).state

/-- Keep what an entry gives to symbols before a tick, ahead of a change. -/
def State.keepBeam (s : State) (id : Nat) (until_ : Int) : State :=
  s.mapBeam id fun e => { e with was := (⟨until_, e.state, s.rowWeights e 0, s.rowWeights e 1⟩ :: e.was).take 4 }

/-- The 32 weights of a half that an entry gives to the symbol that starts at `sym`; none unless VALID then (R178,
R182, R184). -/
def State.beamAt (s : State) (h id sym : Nat) : Option (List Cplx) :=
  let e := s.beam id
  match e.before (s.tickOf sym) with
  | some w => if w.state = 1 then some (if h = 0 then w.w0 else w.w1) else none
  | none =>
    let now := if e.state = 1 then (e.rowOn h).map fun r => (s.row h r).w else none
    match e.load with
    | some l => if 0 ≤ ahead l.at_ sym ∧ e.state ≠ 3 then some (s.row h (if h = 0 then l.row0 else l.row1)).w else now
    | none => now

/-- Start of the first symbol of any enabled carrier at or after a count; MU_REF's symbols with none enabled (log 11). -/
def State.firstSym (s : State) (c : Nat) : Nat :=
  let mus := ((List.range 4).filter fun i => (s.dl i).en).map (fun i => (s.dl i).scs)
    ++ ((List.range 4).filter fun i => (s.ul i).en).map (fun i => (s.ul i).scs)
  let at_ (mu : Nat) := addSymbols mu 1 (c + Config.ticksPerCycle - 1)
  (mus.map at_).foldl (fun m x => if ahead m x < 0 then x else m) (at_ ((mus.head?).getD s.muRef))

/-- Why a load of an entry is refused (Table 51), 0 if it is not; `at_` is its named effect, `single` that it is no bulk
load. -/
def State.loadRefusal (s : State) (host : Bool) (id : Nat) (at_ : Option Nat) (single : Bool) : Nat :=
  if 8191 < id then St.BAD_PARAM
  else if !mayAct (s.beamOwner id) host then St.OWNER
  else if (s.beam id).load.isSome then St.BUSY
  else if (match at_ with
    | some c => !atLeastUs (ahead s.time.count c) 150
    | none => false) then St.TOO_LATE
  else if (s.beam id).state = 3 then St.UNUSABLE
  else if single && (s.stageOf 0 == [] || s.stageOf 1 == []) then St.NOT_READY
  else St.OK

/-- Accept a load into a staging row of each half (R24, R180, R184); the start of the first symbol that uses it. -/
def State.acceptLoad (s : State) (id : Nat) (w : List Cplx) (at_ : Option Nat) : Nat × State :=
  match s.stageOf 0, s.stageOf 1 with
  | r0 :: l0, r1 :: l1 =>
    let eff := s.firstSym (at_.getD (s.time.count + usTicks 150))
    let s := (s.setStage 0 l0).setStage 1 l1
    let s := s.mapRow 0 r0 fun r => { r with w := w.take 32 }
    let s := s.mapRow 1 r1 fun r => { r with w := w.drop 32 }
    (eff, s.mapBeam id fun e => { e with load := some ⟨r0, r1, eff⟩ })
  | _, _ => (0, s)

/-- A row joins the staging pool of a half, unless it is under test or retired. -/
def State.toStage (s : State) (h : Nat) (r : Option Nat) : State :=
  match r with
  | some r => if (s.row h r).testing || (s.row h r).retired then s else s.setStage h (s.stageOf h ++ [r])
  | none => s

/-- Run the bulk loads, the oldest first, until all have ended or a staging pool is empty (R185, R186). -/
def State.bulkRun : Nat → State → State
  | 0, s => s
  | fuel + 1, s =>
    match s.bulk with
    | [] => s
    | b :: others =>
      let done (status detail : Nat) : State :=
        { s with bulk := others }.complete b.cmd 0x60 status { r0 := b.accepted, detail := detail }
      match b.left with
      | [] => State.bulkRun fuel (done St.OK 0)
      | w :: rest =>
        let why := s.loadRefusal true b.next none false
        if why ≠ St.OK then State.bulkRun fuel (done why b.next)
        else if s.stageOf 0 = [] ∨ s.stageOf 1 = [] then s
        else
          let s := (s.acceptLoad b.next w none).2.d2dPush 0 .table 1024
          State.bulkRun fuel
            { s with bulk := { b with next := b.next + 1, accepted := b.accepted + 1, left := rest } :: others }

/-- R180, R184: the entry is remapped to its staging rows on both halves, and its old rows join the pool; symbols that start
earlier keep the old content. An UNUSABLE entry stays so (Table 50): its load lapses. -/
def execBeamEntryEffect (id : Fin 8192) (s : State) : Host.Outcome State Fault Refusal :=
  let e := s.beam id.val
  match e.load with
  | some l =>
    if !s.reached l.at_ then .next s
    else if e.state = 3 then
      .next (((s.mapBeam id.val fun e => { e with load := none }).toStage 0 (some l.row0)).toStage 1 (some l.row1))
    else
      let s := (s.keepBeam id.val (s.tickOf l.at_)).mapBeam id.val fun e =>
        { e with state := 1, row0 := some l.row0, row1 := some l.row1, load := none }
      .next ((s.toStage 0 e.row0).toStage 1 e.row1)
  | none => .next s

/-- R185. -/
def execBeamBulkResume (s : State) : Host.Outcome State Fault Refusal :=
  .next (s.bulkRun ((s.bulk.map fun b => b.left.length + 1).sum + 1))

/-- The entry mapped to a row of a half, among those listed, or the one of its own number. -/
def State.entryOf (s : State) (h r : Nat) : Option Nat :=
  match s.beams.find? fun e => e.2.rowOn h == some r with
  | some e => some e.1
  | none => if r < 8192 ∧ (s.beam r).rowOn h = some r then some r else none

/-- A parity error in a mapped row (R188 steps 1 and 2): it is counted and reported, a VALID entry becomes DAMAGED at the next
symbol boundary, and the row is tested. A row under test is not judged again. -/
def State.rowFault (s : State) (h id : Nat) : State :=
  let e := s.beam id
  match e.rowOn h with
  | some r =>
    if (s.row h r).testing then s
    else
      let s := (s.bump (Rg.C_BEAM_PARITY h) 1).raise h Ev.BEAM_ROW_FAULT id [h]
      let s := if e.state = 1 then
          (s.keepBeam id (s.tickOf (s.firstSym (s.time.count + 1)))).mapBeam id fun e => { e with state := 2 } else s
      s.mapRow h r fun x => { x with testing := true }
  | none => s

/-- The bulk load that gave an entry its load is refused (R188): it stops with NOT_READY at the entry. -/
def State.stopBulk (s : State) (id : Nat) : State :=
  match s.bulk.find? fun b => decide (b.next - b.accepted ≤ id) && decide (id < b.next) with
  | some b => { s with bulk := s.bulk.erase b }.complete b.cmd 0x60 St.NOT_READY { r0 := b.accepted, detail := id }
  | none => s

/-- A parity error in a staging row (R188): a load that waits in it is refused and its other row returns; the row is tested. A
load whose completion has been given lapses (log 76). -/
def State.stageFault (s : State) (h r : Nat) : State :=
  let s := s.setStage h ((s.stageOf h).filter fun x => !(x == r))
  let s := (s.mapRow h r fun x => { x with testing := true }).bump (Rg.C_BEAM_PARITY h) 1
  match s.beams.find? fun e => match e.2.load with
      | some l => (if h = 0 then l.row0 else l.row1) == r
      | none => false with
  | some (id, e) =>
    let s := (s.mapBeam id fun e => { e with load := none }).stopBulk id
    match e.load with
    | some l => s.toStage (1 - h) (some (if h = 0 then l.row1 else l.row0))
    | none => s
  | none => s

/-- A row holds a load not yet in effect, or is free for one. -/
def State.isStaging (s : State) (h r : Nat) : Bool :=
  (s.stageOf h).contains r || s.beams.any fun e => match e.2.load with
    | some l => (if h = 0 then l.row0 else l.row1) == r
    | none => false

/-- Take a spare row of a half; the last one exhausts the class (R188, Table 135 row 9). -/
def State.takeSpare (s : State) (h : Nat) : Option Nat × State :=
  match s.sparesOf h with
  | r :: l =>
    let s := (s.setSpares h l).spareIn h
    (some r, if l = [] then s.exhaust h 9 else s)
  | [] => (none, s)

/-- A row is retired, and a spare row takes its place (R188 steps 3 and 4). -/
def State.retireRow (s : State) (h row : Nat) : State :=
  let s := s.mapRow h row fun x => { x with testing := false, retired := true }
  let mapped := s.entryOf h row
  let s := (s.bump (Rg.C_ROW_RETIRED h) 1).logFault 9 (h * 8384 + row)
  let (r, s) := s.takeSpare h
  match mapped, r with
  | some id, some r => s.mapBeam id fun e => e.setRow h (some r)
  | some id, none => (s.mapBeam id fun e => { e.setRow h none with state := 3 }).raise h Ev.BEAM_UNUSABLE id [h]
  | none, some r => s.setStage h (s.stageOf h ++ [r])
  | none, none => s

/-- R188 steps 2 to 4: a row that fails its test is retired. -/
def execRowTestDone (h : Half) (row : Nat) (pass : Bool) (s : State) : Host.Outcome State Fault Refusal :=
  let h := h.val
  if !(s.row h row).testing then .next s
  else if pass then
    let s := s.mapRow h row fun x => { x with testing := false }
    .next (if (s.entryOf h row).isSome then s else s.toStage h (some row))
  else .next (s.retireRow h row)

/-! ## The solver -/

/-- The bank of a flow that a symbol's start finds ACTIVE (R178, R202). -/
def State.bankAt (s : State) (f sym : Nat) : Option SolvBank :=
  let v := s.solvSt f
  let next (b : SolvBank) : Bool := b.state == 2 && decide (0 ≤ ahead b.effectAt sym)
  let now := if next v.x then some v.x else if next v.y then some v.y
    else if v.x.state = 3 then some v.x else if v.y.state = 3 then some v.y else none
  match v.was with
  | some (t, b) => if s.tickOf sym < t ∧ v.out then (if b.state = 3 then some b else none) else now
  | none => now

/-- Ticks of a slot. -/
def slotTicks (mu : Nat) : Nat := Config.ticksPerSubframe / 2 ^ mu

/-- An instant lies more than a number of slots of a carrier back. -/
def State.olderThan (s : State) (mu n : Nat) (tick : Int) : Bool := decide (((n * slotTicks mu : Nat) : Int) < s.time.now - tick)

/-- Join the entries of half `h`'s paths with those of the other half's, in key order. -/
def joinHalves {α : Type} (h : Nat) (mine other : Tbl α) : Tbl α := if h = 0 then mine ++ other else other ++ mine

/-- R196: the estimates of the half that does not own the flow have not come within 100 µs; its paths fall back to what
they had before. -/
def execEstimateDeadline (f : FlowNo) (present : Bool) (s : State) : Host.Outcome State Fault Refusal :=
  let h := (s.flow f.val).half
  if present && !s.d2dHas (1 - h) (.estimates f.val) then .next s
  else
    .next (s.mapSolv f.val fun v =>
      { v with est := joinHalves h (v.est.filter fun e => e.1 / 512 == h) (v.old.filter fun e => !(e.1 / 512 == h))
               estTick := joinHalves h (v.estTick.filter fun e => e.1 / 32 == h)
                 (v.oldTick.filter fun e => !(e.1 / 32 == h)) })

/-- R200: an update without a new occasion is not run. -/
def execSolverUpdateDue (f : FlowNo) (s : State) : Host.Outcome State Fault Refusal :=
  if (s.solver f.val).isSome then
    let s := s.paceDue 2 f.val
    if (s.solvSt f.val).freshOcc then .next (s.mapSolv f.val fun v => { v with waiting := true })
    else .next ((s.paceSkip 2 f.val).bump (Rg.C_NO_SOUND (s.flow f.val).half) 1)
  else .next s

/-- What the solve of a flow takes of a path (R196): 0 its estimate of the occasion, 1 an older one, 2 nothing. -/
def State.estUse (s : State) (f p : Nat) (r : SolverRec) (mu : Nat) : Nat :=
  match tget (fun _ => none) (s.solvSt f).estTick p with
  | some t => if t = (s.solvSt f).occTick then 0 else if s.olderThan mu r.maxAge t then 2 else 1
  | none => 2

/-- The engines a solve runs on (R199, Table 80): of the owning half's engines in service, first those that serve no
group in service, then the others, each set in group order. -/
def State.solveEngines (s : State) (h n : Nat) : List Nat :=
  let on := ((List.range 4).map (· + 4 * h)).filterMap fun g => (s.aeOf g).map fun a => (g, a)
  ((on.filter fun x => !s.groupIn x.1) ++ (on.filter fun x => s.groupIn x.1)).map (·.2) |>.take n

/-- R201: a solve starts in a FREE bank with the newest complete occasion and the record as it stands (R191); paths without a
usable estimate are held or left out (R196, R197). -/
def execSolveStart (f : FlowNo) (s : State) : Host.Outcome State Fault Refusal :=
  let v := s.solvSt f.val
  let fl := s.flow f.val
  let u := s.ul fl.carrier
  match s.solver f.val with
  | some r =>
    if !v.waiting || !v.freshOcc || !(v.x.state == 0 || v.y.state == 0) then .next s
    else
      let paths := (List.range 64).filter fun p => s.pathIn p
      let held := (paths.filter fun p => s.estUse f.val p r u.scs == 1).length
      let drop := (paths.filter fun p => s.estUse f.val p r u.scs == 2).length
      let s := (s.bump (Rg.C_EST_HELD fl.half) held).bump (Rg.C_EST_DROP fl.half) drop
      let s := s.paceRun 2 f.val (Rg.C_SOLVE_LATE fl.half)
      let b : SolvBank :=
        { state := 1, k := v.occK, ng := ceilDiv u.nprb 4, w := [], occ := v.occ.getD 0, occTick := v.occTick, ill := [],
          sat := false, gov := false, effectAt := 0, engines := s.solveEngines fl.half r.engines
          team := s.solveEngines fl.half r.engines, puts := [], rec_ := some r, conj := u.conj
          paths := paths.filter fun p => !(s.estUse f.val p r u.scs == 2), est := v.est }
      .next (s.mapSolv f.val fun v =>
        let v := { v with waiting := false, freshOcc := false }
        if v.x.state = 0 then { v with x := b } else { v with y := b })
  | none => .next s

/-- R202: a committed bank becomes ACTIVE, and the other, if ACTIVE, goes to FREE; symbols that start earlier keep the other
(R178). -/
def execSolverBankEffect (f : FlowNo) (s : State) : Host.Outcome State Fault Refusal :=
  let due (b : SolvBank) : Bool := b.state == 2 && s.reached b.effectAt
  let off (b : SolvBank) : SolvBank := if b.state = 3 then { b with state := 0 } else b
  .next (s.mapSolv f.val fun v =>
    if due v.x then { v with x := { v.x with state := 3 }, y := off v.y, was := some (s.tickOf v.x.effectAt, v.y) }
    else if due v.y then { v with y := { v.y with state := 3 }, x := off v.x, was := some (s.tickOf v.y.effectAt, v.x) }
    else v)

/-- R204. -/
def execSolverStale (f : FlowNo) (s : State) : Host.Outcome State Fault Refusal :=
  let v := s.solvSt f.val
  let mu := (s.ul (s.flow f.val).carrier).scs
  match s.solver f.val, (if v.x.state = 3 then some v.x else if v.y.state = 3 then some v.y else none) with
  | some r, some b =>
    let age := ceilDiv (s.time.now - b.occTick).toNat (slotTicks mu)
    if s.olderThan mu r.maxAge b.occTick then
      .next (s.raiseOnce (s.flow f.val).half Ev.SOLVER_STALE f.val 4915200 [atimeWord (stampOf s.muRef b.occ), age])
    else .next s
  | _, _ => .next s

end Sys2Proof.Machine
end

