-- ==== Sys2Proof/Machine/Copies.lean ====
section
/-! DEFINITION. The persistent store as bytes (R514 to R517): records, their copies, the rule that decides among them, and
the combiner record (R239). -/

namespace Sys2Proof.Machine

/-- Change the store. -/
def State.mapNv (s : State) (f : NvSt → NvSt) : State := { s with nv := f s.nv }

/-- A byte of a half's store. -/
def State.nvByte (s : State) (h a : Nat) : Byte := tget (fun _ => 0) s.nv.mem (h * 2 ^ 19 + a)

/-- Bytes of a half's store. -/
def State.nvBytes (s : State) (h a n : Nat) : List Byte := (List.range n).map fun i => s.nvByte h (a + i)

/-- Write bytes of a half's store. -/
def State.nvPut (s : State) (h a : Nat) (l : List Byte) : State :=
  s.mapNv fun v => { v with mem := (l.zipIdx).foldl (fun m (b, i) => tset (fun _ => 0) m (h * 2 ^ 19 + a + i) b) v.mem }

/-! ## Records (R515, R516) -/

/-- The header's first twelve bytes (Table 146). -/
def nvHead (type index len seq copy : Nat) : List Byte :=
  leBytes 2 type ++ leBytes 2 index ++ leBytes 4 len ++ leBytes 2 seq ++ leBytes 1 copy ++ zeros 1

/-- A record as it lies in the store: header, body, padding to four bytes. -/
def nvRecord (type index seq copy : Nat) (body : List Byte) : List Byte :=
  let h := nvHead type index body.length seq copy
  h ++ leBytes 4 (crc32 (h ++ zeros 4 ++ body)) ++ body ++ zeros ((4 - body.length % 4) % 4)

/-- A copy as it reads: intact or not, SEQ, body. -/
structure NvCopy where
  good : Bool
  seq : Nat
  body : List Byte
deriving DecidableEq, Repr

/-- Read a copy; its CRC covers header and body, and its header names the record. -/
def State.readCopy (s : State) (x : NvLoc) : NvCopy :=
  let h := s.nvBytes x.half x.loc 12
  let n := min (leNat ((h.drop 4).take 4)) (2 ^ 19 - x.loc - 16)
  let b := s.nvBytes x.half (x.loc + 16) n
  let crc := leNat (s.nvBytes x.half (x.loc + 12) 4)
  { good := crc == crc32 (h ++ zeros 4 ++ b) && leNat (h.take 2) == x.type && leNat ((h.drop 2).take 2) == x.index
    seq := leNat ((h.drop 8).take 2), body := b }

/-- Copies known of a record. -/
def State.nvLocs (s : State) (type index : Nat) : List NvLoc := s.nv.dir.filter fun x => x.type == type && x.index == index

/-- A is higher than B modulo 2^16 (R517). -/
def seqHigher (a b : Nat) : Bool := decide (1 ≤ (a + 65536 - b) % 65536) && decide ((a + 65536 - b) % 65536 ≤ 32767)

/-- The highest of sequence numbers. -/
def topSeq : List Nat → Nat
  | [] => 0
  | [a] => a
  | a :: r => if seqHigher a (topSeq r) then a else topSeq r

/-- What R517 decides of a record: no intact copy, a value at a step, or undecidable. -/
inductive NvDecision where
  | absent
  | value (body : List Byte) (step : Nat)
  | undecidable
deriving DecidableEq, Repr

/-- The rule of R517 over copies. -/
def decide517 (cs : List NvCopy) : NvDecision :=
  let good := cs.filter (·.good)
  let top := topSeq (good.map (·.seq))
  match good.filter fun c => c.seq == top with
  | [] => .absent
  | c :: r =>
    if r.all fun x => x.body == c.body then .value c.body 3
    else match good.find? fun x => decide (good.length < 2 * (good.filter fun y => y.body == x.body).length) with
      | some x => .value x.body 4
      | none => .undecidable

/-- Decide a record as it stands. -/
def State.decideNv (s : State) (type index : Nat) : NvDecision := decide517 ((s.nvLocs type index).map s.readCopy)

/-- The body of a record that can be decided. -/
def State.nvBody (s : State) (type index : Nat) : Option (List Byte) :=
  match s.decideNv type index with
  | .value b _ => some b
  | _ => none

/-- A path has a branch of the calibration combiner: the combiner record is present and its LOSS is not 0xFFFF (Table 62). -/
def State.hasBranch (s : State) (p : Nat) : Bool :=
  match s.nvBody 3 0 with
  | some b => !(leNat ((b.drop (8 * p + 6)).take 2) == 0xFFFF)
  | none => false

end Sys2Proof.Machine
end

