-- ==== Sys2Proof/Machine/Signal.lean ====
section
/-! DEFINITION. Real functions of the signal path in fixed point (log 73), the transforms of R138, the filters of R141 and of
Tables 41 and 46. -/

namespace Sys2Proof.Machine

/-! ## Rounding -/

/-- A free number within `b` of zero. -/
def within (b : Nat) (x : Int) : Int := x % (2 * b + 1 : Int) - b

/-- A value with `n` fractional bits as a whole number: one of the two nearest, itself where it is whole (log 73). -/
def quantise (v : Int) (n : Nat) (up : Bool) : Int := asr v n + (if v % (2 ^ n : Int) = 0 then 0 else b2n up)

/-! ## Sines, powers and logarithms -/

/-- pi with 60 fractional bits. -/
def piQ60 : Nat := 3622009729038561421

/-- The natural logarithm of 2 with 60 fractional bits. -/
def ln2Q60 : Nat := 799144290325165978

/-- The common logarithm of 2 with 60 fractional bits. -/
def lg2Q60 : Nat := 347063955532709820

/-- An alternating series with 60 fractional bits: each term is the last times `x2` over the next two whole numbers. -/
def altSeries (x2 : Nat) : Nat → Nat → Nat → Int
  | 0, _, t => t
  | n + 1, k, t => t - altSeries x2 n (k + 2) (t * x2 / 2 ^ 60 / ((k + 1) * (k + 2)))

/-- Cosine and sine of `num / den` of a turn, with 48 fractional bits. -/
def cosSin (num den : Nat) : Int × Int :=
  let q := 4 * num / den % 4
  let th := (4 * num % den) * (piQ60 / 2) / den
  let x2 := th * th / 2 ^ 60
  let c := asr (altSeries x2 13 0 (2 ^ 60) + 2 ^ 11) 12
  let s := asr (altSeries x2 13 1 th + 2 ^ 11) 12
  match q with
  | 0 => (c, s)
  | 1 => (-s, c)
  | 2 => (-c, -s)
  | _ => (s, -c)

/-- The exponential series with 60 fractional bits. -/
def expSeries (x : Nat) : Nat → Nat → Nat → Nat
  | 0, _, t => t
  | n + 1, k, t => t + expSeries x n (k + 1) (t * x / 2 ^ 60 / (k + 1))

/-- 10 to the power `num / den`, with 60 fractional bits. -/
def pow10 (num : Int) (den : Nat) : Nat :=
  let y := num * 2 ^ 120 / ((den : Int) * lg2Q60)
  let m := expSeries ((y % (2 ^ 60 : Int)).toNat * ln2Q60 / 2 ^ 60) 24 0 (2 ^ 60)
  let e := y / (2 ^ 60 : Int)
  if 0 ≤ e then m * 2 ^ e.toNat else m / 2 ^ (-e).toNat

/-- The bits of the binary logarithm of a number from 1 to 2 with 60 fractional bits. -/
def logBits : Nat → Nat → Nat → Nat
  | 0, _, acc => acc
  | n + 1, m, acc =>
    let q := m * m / 2 ^ 60
    if 2 ^ 61 ≤ q then logBits n (q / 2) (2 * acc + 1) else logBits n q (2 * acc)

/-- The binary logarithm of a positive number, with 48 fractional bits. -/
def log2Q48 (n : Nat) : Nat := Nat.log2 n * 2 ^ 48 + logBits 48 (n * 2 ^ 60 / 2 ^ Nat.log2 n) 0

/-- 10 log10 of a ratio of two positive numbers in 1/256 dB. -/
def ratioDb (a b : Nat) : Int :=
  let v := ((log2Q48 a : Int) - log2Q48 b) * (2560 * lg2Q60) + 2 ^ 87
  quantise (v / 2 ^ 88 * 2 ^ 88) 108 (Config.roundUp 0 (v / 2 ^ 88))

/-- 10 log10 of a ratio in 1/256 dB; where a number is 0 the spec states no result, and it is free (log 73). -/
def ratioOr (which : Nat) (a b : Nat) : Int := if a = 0 ∨ b = 0 then Config.freeReal which a else ratioDb a b

/-- A complex correction changed by a gain in 0.001 dB and a phase in 0.001 degree, truncated (R248). -/
def rotGain (z : Cplx) (gain phase : Int) : Cplx :=
  let k : Int := pow10 gain 20000
  let (c, s) := cosSin (phase % 360000).toNat 360000
  asrC ⟨(z.re * c - z.im * s) * k + 2 ^ 78, (z.re * s + z.im * c) * k + 2 ^ 78⟩ 108

/-! ## Phasors -/

/-- The phasor of an oscillator from the top 20 bits of its phase: 18 bits with 16 fractional bits (R142, Table 46). -/
def ncoPhasor (w : Nat) : Cplx :=
  let (c, s) := cosSin w (2 ^ 20)
  ⟨quantise c 32 (Config.roundUp 1 w), quantise s 32 (Config.roundUp 2 w)⟩

/-- A sample times an oscillator's phasor, truncated by 16 bits, `ph` the 32-bit phase. -/
def mixC (z : Cplx) (conj : Bool) (ph : Nat) : Cplx :=
  if z = Cplx.zero then Cplx.zero
  else
    let w := ncoPhasor (ph / 4096)
    asrC (mulC z (if conj then conjC w else w)) 16

/-- The symbol phase term of R140 as a 32-bit phase word, before its reduction modulo the turn: LO in kHz, NCO_FREQ, ticks from the
subframe's start to the end of the cyclic prefix. -/
def thetaWord (lo : Nat) (freq : Int) (ticks : Nat) : Int :=
  let n : Nat := lo * ticks * 2 ^ 17
  let up : Nat := if n % 15 = 0 then 0 else b2n (Config.roundUp 3 n)
  (0 : Int) - freq * ticks - (n / 15 + up : Nat)

/-- The 18-bit twiddle with 17 fractional bits that removes the slope of an advanced window (R169): bin, advance, size. -/
def slopeTwiddle (k : Int) (adv n : Nat) : Cplx :=
  let a := (k * adv % (n : Int)).toNat
  let (c, s) := cosSin a n
  satC 18 ⟨quantise c 31 (Config.roundUp 4 a), quantise s 31 (Config.roundUp 5 a)⟩

/-! ## Sounding sequences (R194) -/

/-- A number has a divisor from 2 to `k`. -/
def hasDivisor (n : Nat) : Nat → Bool
  | 0 => false
  | k + 1 => (decide (2 ≤ k + 1) && n % (k + 1) == 0) || hasDivisor n k

/-- The largest prime at most `n`, for `n` of at least 2. -/
def primeBelow : Nat → Nat
  | 0 => 2
  | n + 1 => if hasDivisor (n + 1) (min n 64) then primeBelow n else n + 1

/-- The phase of an element of the base sequence of 3GPP TS 38.211 for a length and group, base number 0, as a fraction of a
turn (PRESUMED, log 74: the clause lies outside the spec); the tabulated sequences are free. -/
def basePhase (len u i : Nat) : Int × Nat :=
  if len = 30 then (-(((u + 1) * (i + 1) * (i + 2) : Nat) : Int), 62)
  else if len < 36 then (Config.basePhase len u i % 8, 8)
  else
    let z := primeBelow (len - 1)
    let q := (2 * z * (u + 1) + 31) / 62
    let m := i % z
    (-((q * m * (m + 1) : Nat) : Int), 2 * z)

/-- Element `i` of the sounding sequence (R194): the base sequence shifted by NCS / n_cs_max of a turn to each element, in
15 fractional bits with amplitude 32,767. -/
def soundingSeq (len u ncs nmax i : Nat) : Cplx :=
  let (a, d) := basePhase len u i
  let n := (a * nmax + ncs * i * d) % ((d * nmax : Nat) : Int)
  let (c, s) := cosSin n.toNat (d * nmax)
  let o : Int := ((len * 32 + u) * 16 + ncs) * 4096 + i
  ⟨quantise (32767 * c) 48 (Config.roundUp 6 o), quantise (32767 * s) 48 (Config.roundUp 7 o)⟩

/-! ## Transforms (R138, R169) -/

/-- One output of the exact transform, with 48 fractional bits: `w` holds the turn in `n` parts. -/
def dftSum (inv : Bool) (n : Nat) (w : Array (Int × Int)) (y : List (Cplx × Nat)) (t : Nat) : Cplx :=
  sumC (y.map fun (z, k) =>
    let (c, s) := w.getD (k * t % n) (0, 0)
    mulC z ⟨c, if inv then s else -s⟩)

/-- A transform of 2^`log2n` values, shifted: within three codes of the exact one, shifted and truncated (R138). -/
def transform (inv : Bool) (log2n shift : Nat) (y : List Cplx) : List Cplx :=
  let n := 2 ^ log2n
  let nz := y.zipIdx.filter fun (z, _) => !(z == Cplx.zero)
  if nz = [] then List.replicate n Cplx.zero
  else
    let w := ((List.range n).map fun i => cosSin i n).toArray
    (List.range n).map fun t =>
      let v := dftSum inv n w nz t
      let dev (im : Bool) : Int := within 3 (Config.transformDev inv log2n shift y t im)
      ⟨asr (v.re + 2 ^ 28) (48 + shift) + dev false, asr (v.im + 2 ^ 28) (48 + shift) + dev true⟩

/-! ## Filters -/

/-- The histories of a stream at each sample, newest first, with what came before it, `n` deep. -/
def historiesOf (n : Nat) (h l : List Cplx) : List (List Cplx) :=
  (l.foldl (fun (acc : List Cplx × List (List Cplx)) z =>
    let h := (z :: acc.1).take n
    (h, h :: acc.2)) (h, [])).2.reverse

/-- A stream's history after `l`, newest first. -/
def pushHist (n : Nat) (h l : List Cplx) : List Cplx := (l.reverse ++ h).take n

/-- Products of real coefficients with a history, summed. -/
def firSum (co : Nat → Int) (n : Nat) (h : List Cplx) : Cplx :=
  sumC ((List.range n).map fun j =>
    let z := nth h j Cplx.zero
    ⟨co j * z.re, co j * z.im⟩)

/-- The coefficients of a half-band stage: 18 bits each, the first such that the stage has unity gain (R141). -/
def halfBandCoef (down : Bool) (stage j : Nat) : Int :=
  let frac := Config.coefFrac (b2n down)
  if j = 0 then
    2 ^ frac - ((List.range (Config.halfBandTaps down stage)).map fun i =>
      if i = 0 then 0 else wrapTo 18 (Config.halfBand down stage i)).sum
  else wrapTo 18 (Config.halfBand down stage j)

/-- One doubling of the rate (R141): of the two outputs for each input, one is an input delayed, the other the sum of the
taps; 20 bits are carried, with four more fractional bits than the input has; the last stage truncates to 16. What it keeps
for the next symbol is the second value. -/
def upStage (stage : Nat) (last : Bool) (mem l : List Cplx) : List Cplx × List Cplx :=
  let n := Config.halfBandTaps false stage
  let fin (z : Cplx) (sh : Nat) : Cplx := if last then satC 16 (asrC z (sh + 4)) else satC 20 (asrC z sh)
  ((historiesOf (n + 1) mem l).flatMap fun h =>
    [fin (nth h (n / 2) Cplx.zero) 0, fin (firSum (halfBandCoef false stage) n h) (Config.coefFrac 0)],
   pushHist (n + 1) mem l)

/-- The stages that raise a carrier from its own rate (R141), from stage `i` of `n`: the samples, and what each keeps. -/
def upStages (n : Nat) : Nat → List (List Cplx) → List Cplx → List Cplx × List (List Cplx)
  | 0, _, l => (l, [])
  | k + 1, mem, l =>
    let (o, m) := upStage (n - (k + 1)) (k == 0) (nth mem 0 []) l
    let (o, ms) := upStages n k (mem.drop 1) o
    (o, m :: ms)

/-- Every second value of a list. -/
def evens {α : Type} : List α → List α
  | x :: _ :: r => x :: evens r
  | l => l

/-- One halving of the rate (Table 46 stage 7): truncated to 24 bits. -/
def downStage (stage : Nat) (mem l : List Cplx) : List Cplx × List Cplx :=
  let n := Config.halfBandTaps true stage
  ((evens (historiesOf n mem l)).map fun h =>
    satC 24 (asrC (firSum (halfBandCoef true stage) n h) (Config.coefFrac 1)), pushHist n mem l)

/-- The `k` halvings of stage 7, from stage `i`: the samples, and what each keeps. -/
def downStages : Nat → Nat → List (List Cplx) → List Cplx → List Cplx × List (List Cplx)
  | 0, _, _, l => (l, [])
  | k + 1, i, mem, l =>
    let (o, m) := downStage i (nth mem 0 []) l
    let (o, ms) := downStages k (i + 1) (mem.drop 1) o
    (o, m :: ms)

/-- A coefficient of a Farrow structure. -/
def farrowCoef (rx : Bool) (df phase j : Nat) : Int := wrapTo 18 (Config.farrow rx df phase j)

/-- Table 41 stage 1: four outputs for each input, 12 of the 48 taps to each, truncated and saturated. -/
def farrowUp (df : Nat) (mem l : List Cplx) : List Cplx :=
  (historiesOf 12 mem l).flatMap fun h => (List.range 4).map fun ph =>
    satC 16 (asrC (firSum (farrowCoef false df ph) 12 h) (Config.coefFrac 2))

/-- Every fourth value of a list. -/
def fourths {α : Type} (l : List α) : List α := evens (evens l)

/-- Table 46 stage 4: one output for each four inputs, from 48 taps, truncated and saturated. -/
def farrowDown (df : Nat) (mem l : List Cplx) : List Cplx :=
  (fourths (historiesOf 48 mem l)).map fun h => satC 16 (asrC (firSum (farrowCoef true df 0) 48 h) (Config.coefFrac 3))

end Sys2Proof.Machine
end

