-- ==== Sys2Proof/Machine/Dpd.lean ====
section
/-! DEFINITION. The arithmetic of the coupled-array predistorter and of crest-factor reduction (R208 to R211, R218), and
the banks' moves that several families share (R214, R215, R232 to R234). -/

namespace Sys2Proof.Machine

/-! ## Records and banks -/

/-- The predistortion of a path. -/
def State.dpdOf (s : State) (p : Nat) : DpdPath := tget DpdPath.reset s.dpd p

/-- Change the predistortion of a path. -/
def State.mapDpd (s : State) (p : Nat) (f : DpdPath → DpdPath) : State :=
  { s with dpd := tset DpdPath.reset s.dpd p (f (s.dpdOf p)) }

/-- The bank in service, and the other. -/
def DpdPath.serving (d : DpdPath) : DpdBank := if d.bServes then d.b else d.a

/-- The bank out of service. -/
def DpdPath.idle (d : DpdPath) : DpdBank := if d.bServes then d.a else d.b

/-- Set the bank in service. -/
def DpdPath.setServing (d : DpdPath) (x : DpdBank) : DpdPath := if d.bServes then { d with b := x } else { d with a := x }

/-- Set the bank out of service. -/
def DpdPath.setIdle (d : DpdPath) (x : DpdBank) : DpdPath := if d.bServes then { d with a := x } else { d with b := x }

/-- The COMMITTED bank: the one in service, or the one a PENDING bank waits beside. -/
def DpdPath.committed (d : DpdPath) : DpdBank := if d.idle.state = 4 then d.idle else d.serving

/-- Positions of the bank that a structure uses (R208, R214). -/
def inStructure (r : DpdRec) (i : Nat) : Bool :=
  if i < 56 then decide (i / 8 < r.kOwn) && decide (i % 8 < r.mOwn)
  else decide ((i - 56) % 4 < r.mX) && (nth r.neigh ((i - 56) / 12) none).isSome

/-- Coefficients of a table that lie in a structure. -/
def clip (r : DpdRec) (c : Tbl Cplx) : Tbl Cplx := c.filter fun e => inStructure r e.1

/-- Neighbour entry `j` in effect: not empty, not skewed, not retired (R210, R211). -/
def State.neighbour (s : State) (p j : Nat) : Option Nat :=
  let d := s.dpdOf p
  if d.skew.contains j then none
  else match nth d.rec_.neigh j none with
    | some q => if s.pathOut q then none else some q
    | none => none

/-- Predistortion is applied on a path (R212, R237, Table 136). -/
def State.dpdOn (s : State) (p : Nat) : Bool := s.on Rg.DPD_CFG_DPD_EN && (s.dpdOf p).rec_.en && !s.isSafe 4 p

/-- Estimation runs on a path. -/
def State.estOn (s : State) (p : Nat) : Bool :=
  s.on Rg.DPD_CFG_EST_EN && s.dpdOn p && (s.dpdOf p).rec_.est && !(s.dpdOf p).halted

/-! ## The arithmetic of R209 -/

/-- Integer square root by bits from `2^k` down. -/
def isqrtFrom : Nat → Nat → Nat → Nat
  | 0, acc, n => if (acc + 1) * (acc + 1) ≤ n then acc + 1 else acc
  | k + 1, acc, n =>
    let t := acc + 2 ^ (k + 1)
    isqrtFrom k (if t * t ≤ n then t else acc) n

/-- Floor of the square root of a number below 2^40. -/
def isqrt (n : Nat) : Nat := isqrtFrom 20 0 n

/-- Squared magnitude. -/
def sqMag (z : Cplx) : Nat := (z.re * z.re + z.im * z.im).toNat

/-- Sum of squared magnitudes. -/
def energy (l : List Cplx) : Nat := (l.map sqMag).sum

/-- A mean power in 1/256 dB below full scale, −32,768 for zeros (Table 93). -/
def meanPower (l : List Cplx) : Int :=
  if energy l = 0 then -32768 else satTo 16 (ratioDb (energy l) (l.length * 32767 * 32767))

/-- A sample holds an over-range code (R158, R359). -/
def isOver (z : Cplx) : Bool := z.re == 32767 || z.re == -32768 || z.im == 32767 || z.im == -32768

/-- A record with the measurements over its samples that its header carries (Table 93). -/
def CapRecord.measured (r : CapRecord) : CapRecord :=
  { r with
    power := meanPower r.samples
    peak := (r.samples.map fun z => isqrt (sqMag z)).foldl max 0
    ovr := min 65535 (r.samples.filter isOver).length }

/-- The magnitude r of R209, unsigned Q16. -/
def dpdMag (z : Cplx) : Nat := min 65535 (isqrt (4 * sqMag z))

/-- The power r^k for k of at least 1, as R209 forms it. -/
def dpdPow (r : Nat) : Nat → Nat
  | 0 => r
  | k + 1 => dpdPow r k * r / 65536

/-- x × r^k as a basis term; the k = 0 basis is x itself. -/
def basisTerm (x : Cplx) (r k : Nat) : Cplx :=
  match k with
  | 0 => x
  | k + 1 => asrC ⟨x.re * dpdPow r k, x.im * dpdPow r k⟩ 16

/-- One sample of the predistorter before saturation: own history newest first, neighbours' histories (R208, R209). -/
def dpdSample (c : Tbl Cplx) (own : List Cplx) (nb : List (List Cplx)) : Cplx :=
  let co (i : Nat) := tget (fun _ => Cplx.zero) c i
  let x (l : List Cplx) (m : Nat) := nth l m Cplx.zero
  let a := (List.range 56).map fun i => mulC (co i) (basisTerm (x own (i % 8)) (dpdMag (x own (i % 8))) (i / 8))
  let b := (List.range 48).map fun i =>
    let q := nth nb (i / 12) []
    let m := i % 4
    let xo := x own m
    let xq := x q m
    mulC (co (56 + i)) (match i / 4 % 3 with
      | 0 => xq
      | 1 => basisTerm xq (dpdMag xo) 2
      | _ => basisTerm xo (dpdMag xq) 2)
  asrC (sumC (a ++ b)) 12

/-- A stream of samples with its history before it, as the histories at each sample, newest first: eight deep, as R208 and
stages 3 and 5 need. -/
def histories (h l : List Cplx) : List (List Cplx) := historiesOf 8 h l

/-- A stream through the predistorter (R208): outputs before saturation. -/
def dpdStream (c : Tbl Cplx) (own : List (List Cplx)) (nb : List (List (List Cplx))) : List Cplx :=
  own.zipIdx.map fun (h, i) => dpdSample c h (nb.map fun q => nth q i [])

/-! ## Crest-factor reduction (R147, R218) -/

/-- The pending downlink record of a carrier that will be in force at a count, if any: the one of the latest boundary, of
several the one accepted last (R132). -/
def State.dlNext (s : State) (c at_ : Nat) : Option PendDl :=
  (tget (fun _ => []) s.dlPend c).foldl (fun m x =>
    if ahead x.at_ at_ < 0 then m
    else match m with
      | some y => if 0 ≤ ahead y.at_ x.at_ then some x else some y
      | none => some x) none

/-- The downlink record in force at a count (R132). -/
def State.dlAt (s : State) (c at_ : Nat) : DlCarrier :=
  match s.dlNext c at_ with
  | some x => if s.isSafe 0 c then s.dl c else x.car
  | none => s.dl c

/-- The T3 back-off of a carrier is in force at a count (R142): also while its end waits for a slot boundary. -/
def State.backedOff (s : State) (c at_ : Nat) : Bool :=
  let on : Bool := tget (fun _ => 0) s.backoff c % 2 == 1
  if s.tickOf at_ < tget (fun _ => (0 : Int)) s.backAt c then !on else on

/-- Effective gain G' of a carrier gain at a count (R142): B is 16,384, or 11,598 under the T3 back-off. -/
def State.effOf (s : State) (c : Nat) (g : Cplx) (at_ : Nat) : Cplx :=
  let b : Int := if s.backedOff c at_ then 11598 else 16384
  asrC ⟨g.re * b, g.im * b⟩ 14

/-- The sum of R218 over the downlink carriers enabled at a count, 10^(POWER / 2,560) |G'|², with 60 fractional bits and |G'| in
Q14. -/
def State.powerSum (s : State) (at_ : Nat) : Nat :=
  (((List.range 4).filter fun c => (s.dlAt c at_).en).map fun c =>
    let r := s.dlAt c at_
    pow10 r.power 2560 * sqMag (s.effOf c r.gain at_)).sum

/-- The configured level of the paths (R218), in 1/256 dBFS; the logarithm of 0, which the spec does not state, is free
(log 73). -/
def State.pcfg (s : State) : Int := ratioOr 0 (s.powerSum s.time.count) (2 ^ 88)

/-- The threshold of a path at a count (R218). -/
def State.cfrThr (s : State) (p at_ : Nat) : Nat :=
  let papr := (s.dpdOf p).rec_.papr
  let sum := s.powerSum at_
  if papr = 0xFFFF then 32767
  else if sum = 0 then min 32767 (Config.freeReal 1 papr).toNat
  else min 32767 (isqrtFrom 45 0 (32767 * 32767 * pow10 papr 100 * sum / 2 ^ 148))

/-- The positions of a stage's peaks (R147, R218): local maxima above the threshold, a sample at least as large as the one
before and larger than the next; `prev` is the sample before the list. -/
def cfrPeaks (t : Nat) : Nat → Cplx → List Cplx → List (Nat × Cplx)
  | _, _, [] => []
  | i, prev, z :: r =>
    let next := sqMag (nth r 0 Cplx.zero)
    let peaks := cfrPeaks t (i + 1) z r
    if t * t < sqMag z ∧ sqMag prev ≤ sqMag z ∧ next < sqMag z then (i, z) :: peaks else peaks

/-- At most one peak in any 32 samples is cancelled, the first (R147): the peaks taken and the number left. -/
def cfrTake : Int → List (Nat × Cplx) → List (Nat × Cplx) × Nat
  | _, [] => ([], 0)
  | last, (i, z) :: r =>
    if (i : Int) < last + 32 then
      let (l, n) := cfrTake last r
      (l, n + 1)
    else
      let (l, n) := cfrTake i r
      ((i, z) :: l, n)

/-- What a peak takes from the sample at pulse tap `w` (R147, R219): the pulse scaled to bring the peak to the threshold, its
rounding within a code (log 73). -/
def cfrPart (t : Nat) (z w : Cplx) : Cplx :=
  let k : Int := 2 ^ 30 - t * 2 ^ 50 / isqrtFrom 40 0 (sqMag z * 2 ^ 40)
  let v := mulC w z
  ⟨asr (v.re * k) 47 + within 1 (Config.cfrDev w.re z t false), asr (v.im * k) 47 + within 1 (Config.cfrDev w.re z t true)⟩

/-- What the cancelled peaks take from the sample at position `n`. -/
def cfrAt (t : Nat) (pulse : List Cplx) (ps : List (Nat × Cplx)) (n : Nat) : Cplx :=
  sumC ((ps.filter fun (i, _) => decide (n ≤ i + 127) && decide (i ≤ n + 127)).map fun (i, z) =>
    cfrPart t z (nth pulse (n + 127 - i) Cplx.zero))

/-- One stage of crest-factor reduction over an interval (R147): outputs, what it keeps, peaks left. -/
def cfrStage (t : Nat) (pulse : List Cplx) (m : CfrMem) (l : List Cplx) : List Cplx × CfrMem × Nat :=
  let (ps, left) := cfrTake (-(m.since : Int)) (cfrPeaks t 0 m.prev l)
  let out := l.zipIdx.map fun (z, n) =>
    let a := addC (cfrAt t pulse ps n) (nth m.tail n Cplx.zero)
    satC 16 ⟨z.re - a.re, z.im - a.im⟩
  let since := match ps.getLast? with
    | some (i, _) => l.length - i
    | none => min 32 (m.since + l.length)
  (out, { prev := l.getLast?.getD m.prev, since := since, tail := (List.range 127).map fun n => cfrAt t pulse ps (l.length + n) }, left)

/-- Crest-factor reduction of a path's samples in the interval from a count (R147): unchanged at full scale, else two stages one after the other. -/
def State.cfr (s : State) (p at_ : Nat) (m : List CfrMem) (l : List Cplx) : List Cplx × List CfrMem × Nat :=
  let t := s.cfrThr p at_
  if t = 32767 then (l, [], 0)
  else
    let pulse := (s.dpdOf p).pulse
    let (a, m0, n0) := cfrStage t pulse (nth m 0 CfrMem.reset) l
    let (b, m1, n1) := cfrStage t pulse (nth m 1 CfrMem.reset) a
    (b, [m0, m1], n0 + n1)

/-! ## Moves of the banks -/

/-- A bank put into service is COMMITTED: its coefficients become the seed of its LO frequency, the most recent first
(R234). -/
def DpdPath.keepSeed (d : DpdPath) (x : DpdBank) : DpdPath :=
  { d with seeds := ((x.loKhz, x.coef) :: d.seeds.filter fun e => !(e.1 == x.loKhz)).take 4 }

/-- Acquisition starts (R233). -/
def State.acquire (s : State) (p : Nat) : State :=
  let n := s.f Rg.DPD_CFG2_ACQ_COUNT
  s.mapDpd p fun d => { d with acq := n }

/-- The coefficients that a new LO frequency brings: the nearest seed within 40 MHz, or the identity (R234). -/
def DpdPath.seedFor (d : DpdPath) (khz : Nat) : Tbl Cplx :=
  let dist (e : Nat × Tbl Cplx) : Nat := if e.1 ≤ khz then khz - e.1 else e.1 - khz
  match d.seeds.foldl (fun (m : Option (Nat × Tbl Cplx)) e =>
      match m with
      | some b => if dist e < dist b then some e else some b
      | none => some e) none with
  | some e => if dist e ≤ 40000 then e.2 else identityCoef
  | none => identityCoef

/-- The seed of an LO frequency is loaded as PENDING with SEED set, for the first transmit interval to come (R234). -/
def DpdPath.loadSeed (d : DpdPath) (khz : Nat) : DpdPath :=
  let x : DpdBank := { DpdBank.reset 1 with coef := clip d.rec_ (d.seedFor khz), seed := true, loKhz := khz }
  { d.setIdle x with direct := true, seedWait := true, swapAt := none }

/-- The bank in service is lost: it becomes FREE, stage 4 passes its input, and a seed is loaded (R483). -/
def DpdPath.lose (d : DpdPath) (khz : Nat) : DpdPath :=
  let d := { d with swapAt := none, revertAt := none, dropDue := false, estimating := false, record := none }
  { (d.setServing { d.serving with state := 0 }).loadSeed khz with ident := true }

/-- Drop a PENDING or TRIAL bank: it becomes FREE and the other COMMITTED (Table 59); a TRIAL bank whose FALLBACK a scrub has
found faulty leaves the identity (R483, log 79); the seed that is to end the identity stays. -/
def DpdPath.drop (d : DpdPath) : DpdPath :=
  let d := { d with dropDue := false }
  if d.serving.state = 2 then
    if d.idle.state = 4 then
      let d := { d with swapAt := none, revertAt := none, direct := false, estimating := false }
      let d := d.setServing { d.serving with state := 0 }
      let d := { d with bServes := !d.bServes }
      d.setServing { d.serving with state := 3 }
    else d.lose d.serving.loKhz
  else if d.idle.state = 1 ∧ !d.ident then
    { d.setIdle { d.idle with state := 0 } with swapAt := none, direct := false }
  else d

/-- An idle bank that a scrub finds faulty becomes FREE (R483). -/
def DpdPath.idleFault (d : DpdPath) : DpdPath :=
  if d.ident then d.loadSeed d.idle.loKhz
  else { d.setIdle { d.idle with state := 0 } with swapAt := none, direct := false, seedWait := false }

/-- Drop at once if no transmit interval is in progress, else at the next swap boundary (Table 59). -/
def State.dropBank (s : State) (p : Nat) : State :=
  let d := s.dpdOf p
  if d.serving.state = 2 ∨ d.idle.state = 1 then
    if s.inTx s.time.count then s.mapDpd p fun d => { d with dropDue := true } else s.mapDpd p DpdPath.drop
  else s

/-- The LO frequency of a group in kHz, 0 without one. -/
def State.loKhz (s : State) (g : Nat) : Nat :=
  match s.loOf g, (s.group g).entry with
  | some n, some e => (s.hop n e).freq
  | _, _ => 0

/-- An LO frequency change of a path's group (R234, R232): the trial bank drops at once, and the seed is loaded as PENDING
with SEED set, for the first transmit interval after lock and calibration. -/
def State.dpdRetune (s : State) (p khz : Nat) : State :=
  s.mapDpd p fun d => { d.drop.loadSeed khz with reverts := 0, halted := false }

/-- A bank of a path moves (R223). -/
def State.dpdMoved (s : State) (p : Nat) : State :=
  let now := s.time.now
  s.mapDpd p fun d => { d with moved := some now }

/-- A slice or a receiver of a group is relayed (R223). -/
def State.relayedIn (s : State) (g : Nat) : State :=
  let now := s.time.now
  (groupPaths g).foldl (fun s p => s.mapDpd p fun d => { d with relayed := some now }) s

/-- A revert with reasons 1 to 4: counted, reported, and estimation halts at REVERT_MAX (R232). -/
def State.dpdRevert (s : State) (p reason : Nat) (dist rhoC rhoComm : Int) : State :=
  let h := p / 32
  let s := s.bump (Rg.C_DPD_REVERT h) 1
  let s := s.raise h Ev.DPD_REVERT p [reason, argInt dist, argInt rhoC, argInt rhoComm]
  let s := s.mapDpd p fun d => { d with reverts := d.reverts + 1, estimating := false }
  if s.f Rg.DPD_CFG_REVERT_MAX ≤ (s.dpdOf p).reverts ∧ !(s.dpdOf p).halted then
    let n := (s.dpdOf p).reverts
    ((s.mapDpd p fun d => { d with halted := true }).bump (Rg.C_DPD_HALT h) 1).raise h Ev.DPD_HALTED p [n]
  else s

end Sys2Proof.Machine
end

