-- ==== Sys2Proof/Machine/Downlink.lean ====
section
/-! DEFINITION. The downlink (ch. 4): carrier records, weighting, iFFT, the elastic buffer, the front-end slice, symbol
blanking and the TX states of the paths. -/

namespace Sys2Proof.Machine

/-! ## Carrier records -/

/-- A downlink record takes effect: a change of gain starts acquisition (R233); a carrier that it enables has samples from
the first symbol begun since it was accepted. -/
def State.putDl (s : State) (c : Nat) (x : PendDl) : State :=
  let old := s.dl c
  let s := { s with dlCar := tset DlCarrier.reset s.dlCar c x.car
                    dlSince := if old.en then s.dlSince else tset (fun _ => none) s.dlSince c (some x.from_) }
  let s := s.clearSafe 0 c
  if old.gain = x.car.gain then s else (List.range 64).foldl (fun s p => s.acquire p) s

/-- An uplink record takes effect. -/
def State.putUl (s : State) (c : Nat) (x : PendUl) : State :=
  { s with ulCar := tset UlCarrier.reset s.ulCar c x.car
           ulWas := tset (fun _ => none) s.ulWas c (some (s.ul c, s.tickOf x.at_)) }.clearSafe 0 (4 + c)

/-- R132, R155: the accepted carrier records whose slot boundary has come take effect as a whole, in the order of their
acceptance; the others wait on. -/
def execCarrierRecordEffect (dir : Fin 2) (c : CarrierNo) (s : State) : Host.Outcome State Fault Refusal :=
  let c := c.val
  if dir = 0 then
    let l := tget (fun _ => []) s.dlPend c
    let due := l.filter fun x => s.reached x.at_
    let s := if due = [] then s else
      { s with dlPend := tset (fun _ => []) s.dlPend c (l.filter fun x => !s.reached x.at_) }
    .next (if due = [] then s else (due.foldl (fun s x => s.putDl c x) s).evalHold)
  else
    let l := tget (fun _ => []) s.ulPend c
    let due := l.filter fun x => s.reached x.at_
    let s := if due = [] then s else
      { s with ulPend := tset (fun _ => []) s.ulPend c (l.filter fun x => !s.reached x.at_) }
    .next (if due = [] then s else (due.foldl (fun s x => s.putUl c x) s).evalHold)

/-- A carrier has samples in an interval: it is enabled there, and the array processor has begun its symbol since it was
(R132, R144). -/
def State.dlNeeds (s : State) (c start : Nat) : Bool :=
  let since := match s.dlNext c start with
    | some x => if (s.dl c).en then none else some x.from_
    | none => tget (fun _ => none) s.dlSince c
  (s.dlAt c start).en && match since with
    | some f => decide (0 ≤ ahead f start)
    | none => true

/-- The largest spacing of the downlink carriers enabled at a count; MU_REF without one (log 11). -/
def State.swapMuAt (s : State) (at_ : Nat) : Nat :=
  (((List.range 4).filter fun c => (s.dlAt c at_).en).foldl
    (fun m c => some (max (m.getD 0) (s.dlAt c at_).scs)) none).getD s.muRef

/-- R26: what the owning half holds for a symbol is forwarded to the other half, as traffic of position 4 (Table 5). -/
def execDlForwardWindowOpen (h : Half) (f : FlowNo) (sym : Nat) (s : State) : Host.Outcome State Fault Refusal :=
  if (s.flow f.val).half = h.val then
    let mineC (c : CtrlSec) : Bool := c.flow == f.val && !c.ul && c.syms.contains sym
    let mineD (d : DataSec) : Bool := d.flow == f.val && d.sym == sym
    let sizes := ((s.ctrlSecs.filter fun c => mineC c && !c.fwd).map fun c => ctrlBits s.pathCount c)
      ++ (s.dataSecs.filter fun d => mineD d && !d.fwd).map fun d => 8 * d.size
    .next ({ s with
      ctrlSecs := s.ctrlSecs.map fun c => if mineC c then { c with fwd := true } else c
      dataSecs := s.dataSecs.map fun d => if mineD d then { d with fwd := true } else d }.forward h.val f.val sizes)
  else .next s

/-! ## Weighting -/

/-- A section of a flow is present on a half: its own, forwarded, or received by each half in split mode (R26, R498). -/
def State.present (s : State) (h f : Nat) (fwd : Bool) : Bool := (s.flow f).half == h || fwd || s.split

/-- The downlink control sections of a carrier that cover a symbol on a half. -/
def State.dlCtrls (s : State) (h c sym : Nat) : List CtrlSec :=
  s.ctrlSecs.filter fun x => !x.ul && (s.flow x.flow).carrier == c && x.syms.contains sym && s.present h x.flow x.fwd

/-- The solver bank that a MODE 2 reference of a half resolves to; none on the other half in split mode (R498). -/
def State.bankFor (s : State) (h f sym : Nat) : Option SolvBank :=
  if s.split && !((s.flow f).half == h) then none else s.bankAt f sym

/-- The weight of the `j`-th listed layer of a section for a path and PRB (R109, R110, R135, R203). -/
def State.weight (s : State) (h : Nat) (c : CtrlSec) (j p b sym : Nat) : Cplx :=
  if !s.pathIn p then Cplx.zero
  else match c.body.mode with
    | 0 => match s.beamAt h (nth c.body.refs j 0) sym with
      | some w => nth w (p % 32) Cplx.zero
      | none => Cplx.zero
    | 1 => nth (nth c.body.weights j []) p Cplx.zero
    | _ => match s.bankFor h c.body.sflow sym with
      | some k => if nth c.body.refs j 0 < k.k ∧ b / 4 < k.ng then
            tget (fun _ => Cplx.zero) k.w ((nth c.body.refs j 0 * 69 + b / 4) * 64 + p) else Cplx.zero
      | none => Cplx.zero

/-- The twelve resource elements of the `j`-th listed layer on a PRB of a symbol; zero where no accepted data section fills
them (R112, R118, R134). -/
def State.resElems (s : State) (h : Nat) (c : CtrlSec) (j b sym : Nat) : List Cplx :=
  match s.dataSecs.find? fun d => d.sym == sym && s.present h d.flow d.fwd && decide (d.startPrb ≤ b)
      && decide (b < d.startPrb + d.numPrb) && decide (d.lfirst ≤ j) && decide (j < d.lfirst + d.lcount)
      && s.boundTo d == some c with
  | some d =>
    let comp := (s.flowAt d.flow sym).comp
    let k := (j - d.lfirst) * d.numPrb + (b - d.startPrb)
    (unpackPrb comp (((bitsMsb d.bytes).drop (k * prbBits comp)).take (prbBits comp))).getD (List.replicate 12 Cplx.zero)
  | none => List.replicate 12 Cplx.zero

/-- A layer's contribution on a PRB is removed for a parity error (R136). -/
def dlHits (e : DlParity) (f l b : Nat) : Bool :=
  match e with
  | .weight f' l' b' => f' == f && l' == l && b' == b
  | .data f' l' b' => f' == f && l' == l && b' == b

/-- The layers that weigh on a PRB of a symbol: section, position in its list (R109). -/
def treatments (cs : List CtrlSec) (errs : List DlParity) (b : Nat) : List (CtrlSec × Nat) :=
  (cs.filter fun c => decide (c.startPrb ≤ b) && decide (b < c.startPrb + c.numPrb)).flatMap fun c =>
    (c.body.layers.zipIdx.filter fun (l, _) => !errs.any fun e => dlHits e c.flow l b).map fun (_, j) => (c, j)

/-- The weighted sums of a path over a carrier's subcarriers, before the shift (R135). -/
def State.wSums (s : State) (h : Nat) (cs : List CtrlSec) (errs : List DlParity) (nprb p sym : Nat) : List Cplx :=
  (List.range nprb).flatMap fun b =>
    let ts := (treatments cs errs b).map fun (c, j) => (s.weight h c j p b sym, s.resElems h c j b sym)
    (List.range 12).map fun n => sumC (ts.map fun (w, x) => mulC w (nth x n Cplx.zero))

/-- Ticks of a carrier's symbol, and ticks per sample of the carrier rate R (R139). -/
def symTicks (mu sym : Nat) : Nat := symLen mu (symOf mu (sym % Config.ticksPerSubframe))

/-- R of R139: ticks per sample at the carrier rate. -/
def ratio (log2n mu : Nat) : Nat := 32768 / 2 ^ (log2n + mu)

/-- The cyclic prefix of a symbol in ticks. -/
def cpTicks (mu sym : Nat) : Nat := symTicks mu sym - 32768 / 2 ^ mu

/-- The NCO phase of a carrier at a tick of its symbol (R140, R168): `l` is the LO frequency in kHz. -/
def ncoPhase (freq : Int) (phcomp : Bool) (l mu sym i : Nat) : Nat :=
  let t := sym % Config.ticksPerSubframe
  let th := if phcomp then thetaWord l freq (t + cpTicks mu sym) else 0
  ((freq * (t + i) + th) % (2 ^ 32 : Int)).toNat

/-- One path's symbol of a carrier from its weighted sums to the products of R142 step 3; what the half-band stages keep;
the saturations after weighting and at the iFFT output. -/
def State.pathSymbol (s : State) (r : DlCarrier) (mem : List (List Cplx)) (c p sym : Nat) (sums : List Cplx) :
    List Cplx × List (List Cplx) × Nat × Nat :=
  let shifted := sums.map fun z => asrC z (15 + r.bfShift)
  let y := shifted.map (satC 16)
  let n := 2 ^ r.log2n
  let bins := (List.range n).map fun k =>
    let i := (k + 6 * r.nprb) % n
    if i < 12 * r.nprb then nth y i Cplx.zero else Cplx.zero
  let raw := transform true r.log2n r.ifftShift bins
  let t := raw.map (satC 16)
  let cp := cpTicks r.scs sym / ratio r.log2n r.scs
  let st := 15 - r.log2n - r.scs
  let (up, mem) := upStages st st mem (t.drop (n - cp) ++ t)
  let g := s.effOf c r.gain sym
  let out := up.zipIdx.map fun (z, i) =>
    mixC (satC 18 (asrC (mulC z g) 14)) false (ncoPhase r.ncoFreq r.phcomp (s.loKhz (p / 8)) r.scs sym i)
  (out, mem, (shifted.map (satHitsC 16)).sum, (raw.map (satHitsC 16)).sum)

/-- Add to what a half's saturation counters have gained since the last event (R152, R176). -/
def addGains (d : List Nat) (k : Nat) (t : Tbl (List Nat)) (l : List Nat) : Tbl (List Nat) :=
  tset (fun _ => d) t k (((tget (fun _ => d) t k).zip l).map fun (a, b) => a + b)

/-- Count saturations of the downlink in the five counters of R152. -/
def State.dlSats (s : State) (h bf ifft sum miss clip : Nat) : State :=
  let s := (((((s.bump (Rg.C_BF_SAT h) bf).bump (Rg.C_IFFT_SAT h) ifft).bump (Rg.C_SUM_SAT h) sum).bump
    (Rg.C_CFR_MISS h) miss).bump (Rg.C_DPD_CLIP h) clip)
  { s with dlSat := addGains [0, 0, 0, 0, 0] h s.dlSat [bf, ifft, sum, miss, clip] }

/-- DL_SATURATE is due: one of the five has increased and 10 ms have passed (R152). -/
def State.evalDlSat (s : State) (h : Nat) : State :=
  let g := tget (fun _ => [0, 0, 0, 0, 0]) s.dlSat h
  let ok := match (s.rate Ev.DL_SATURATE h).last with
    | some t => decide (t + 4915200 ≤ s.time.now)
    | none => true
  if s.on Rg.DL_CFG_SAT_EVT && !(g.sum == 0) && ok then
    let s := { s with dlSat := tset (fun _ => [0, 0, 0, 0, 0]) s.dlSat h [0, 0, 0, 0, 0] }
    s.raiseOnce h Ev.DL_SATURATE h 4915200
      [nth g 0 0, nth g 1 0, nth g 2 0, min (nth g 3 0) 65535 + min (nth g 4 0) 65535 * 65536]
  else s

/-- A weight or a resource element with a parity error (R136, R188, R203, R481). -/
def State.dlParity (s : State) (h : Nat) (cs : List CtrlSec) (e : DlParity) : State :=
  let s := s.bump (Rg.C_DL_PARITY h) 1
  match e with
  | .weight f l b =>
    match cs.find? fun c => c.flow == f && c.body.layers.contains l && decide (c.startPrb ≤ b) && decide (b < c.startPrb + c.numPrb) with
    | some c =>
      let j := c.body.layers.idxOf l
      if c.body.mode = 0 then s.rowFault h (nth c.body.refs j 0)
      else if c.body.mode = 2 then s.bump (Rg.C_SOLVER_PARITY (s.flow c.body.sflow).half) 1 else s
    | none => s
  | .data f l b =>
    let loc := (f * 16 + l) * 512 + b
    let (perm, s) := s.memParity 3 h loc
    if perm then s.fencePage 3 h (loc / 4096) else s

/-- Layer-symbols that name an entry not VALID, and layer-groups that a solver bank does not hold (R182, R203). -/
def State.zeroRefs (s : State) (h : Nat) (cs : List CtrlSec) (sym : Nat) : Nat × Nat :=
  let beams := (cs.filter fun c => c.body.mode == 0).flatMap fun c =>
    (c.body.layers.zipIdx.filter fun (_, j) => (s.beamAt h (nth c.body.refs j 0) sym).isNone)
  let groups := (cs.filter fun c => c.body.mode == 2).flatMap fun c =>
    let gs := (List.range 69).filter fun g => decide (c.startPrb / 4 ≤ g) && decide (g * 4 < c.startPrb + c.numPrb)
    (c.body.layers.zipIdx.flatMap fun (_, j) => gs.filter fun g => match s.bankFor h c.body.sflow sym with
      | some k => !(decide (nth c.body.refs j 0 < k.k) && decide (g < k.ng))
      | none => true)
  (beams.length, groups.length)

/-- Count zeroed references, and raise BEAM_ZERO_SEEN at most once per half in 10 ms (R182, R203, R207). -/
def State.countZero (s : State) (h : Nat) (n : Nat × Nat) : State :=
  let s := (s.bump (Rg.C_BEAM_ZERO h) n.1).bump (Rg.C_MODE2_ZERO h) n.2
  if n.1 ≠ 0 ∧ s.on Rg.BW_CFG_ZERO_EVT then s.raiseLimited h Ev.BEAM_ZERO_SEEN h 4915200 n.1 [] else s

/-- Drop what is held for downlink symbols of a carrier before `sym`. -/
def State.purgeDl (s : State) (c sym : Nat) : State :=
  let old (f : Nat) (l : List Nat) : Bool := (s.flow f).carrier == c && l.all fun x => decide (0 < ahead x sym)
  { s with ctrlSecs := s.ctrlSecs.filter fun x => x.ul || !old x.flow x.syms
           dataSecs := s.dataSecs.filter fun x => !old x.flow [x.sym] }

/-- An enabled carrier has an accepted control section on a half within an interval (R148). -/
def State.hasContent (s : State) (h start len : Nat) : Bool :=
  (List.range 4).any fun c => (s.dlAt c start).en && s.ctrlSecs.any fun x =>
    !x.ul && (s.flow x.flow).carrier == c && s.present h x.flow x.fwd && x.syms.any fun y =>
      let d := ahead y start
      decide (0 ≤ d) && decide (d < symTicks (s.dlAt c start).scs y) || (decide (d < 0) && decide (-d < (len : Int)))

/-- Fix the blankness of an interval for the paths of a half as its work begins (R148). -/
def State.fixBlank (s : State) (h start : Nat) : State :=
  let blank := s.on Rg.DL_CFG_BLANK_EN && !s.hasContent h start (symTicks (s.swapMuAt start) start)
  (halfPaths h).foldl (fun s p => s.mapTx p fun t =>
    { t with blanks := (t.blanks.filter fun e => decide (ahead start e.1 > -1000000)) ++ [(start, blank)] }) s

/-- A carrier's products that fall in the interval from `start`: none if one is missing. -/
def carrierSlice (l : List ElSym) (c start len : Nat) : Option (List Cplx) :=
  match l.find? fun e => e.carrier == c && decide (0 ≤ ahead e.start start) && decide (ahead e.start start < e.len) with
  | some e =>
    let l := (e.samples.drop (ahead e.start start).toNat).take len
    if l.length = len then some l else none
  | none => none

/-- The carriers' products of an interval added (R142 step 4): sums before saturation; none if one is missing. -/
def State.intervalSums (s : State) (p start len : Nat) : Option (List Cplx) :=
  ((List.range 4).filter fun c => s.dlNeeds c start).foldl (fun acc c =>
    match acc, carrierSlice (s.tx p).prods c start len with
    | some a, some l => some ((a.zip l).map fun (x, y) => addC x y)
    | _, _ => none) (some (List.replicate len Cplx.zero))

/-- Samples that a path's elastic buffer holds. -/
def TxPath.held (t : TxPath) : Nat := (t.buf.map fun e => e.2.length).sum

/-- The sums of the intervals whose products are all there are formed, saturated to 16 bits and written into the elastic
buffer, as long as its 36,864 samples have room (R142 step 4, R144). An interval is a symbol of a carrier of the largest
spacing. -/
def State.fillPath (s : State) (p : Nat) : State :=
  (s.tx p).prods.foldl (fun s e =>
    if !((s.dlAt e.carrier e.start).scs == s.swapMuAt e.start) || ((s.tx p).buf.any fun b => b.1 == e.start)
        || decide (36864 < (s.tx p).held + e.len) then s
    else match s.intervalSums p e.start e.len with
      | some l => (s.dlSats (p / 32) 0 0 ((l.map (satHitsC 16)).sum) 0 0).mapTx p fun t =>
          { t with buf := t.buf ++ [(e.start, l.map (satC 16))] }
      | none => s) s

/-- Work out one path's symbol of a carrier (R135 to R142), and write what is complete into its elastic buffer (R144). -/
def State.bufferSymbol (s : State) (h c sym : Nat) (cs : List CtrlSec) (errs : List DlParity) (p : Nat) : State :=
  let r := s.dlAt c sym
  let len := symTicks r.scs sym
  if !s.pathIn p || !s.groupRun (p / 8) then s
  else
    let sums := if cs = [] then List.replicate (12 * r.nprb) Cplx.zero else s.wSums h cs errs r.nprb p sym
    let (out, mem, bf, iff) := s.pathSymbol r (tget (fun _ => []) (s.tx p).up c) c p sym sums
    let s := (s.dlSats h bf iff 0 0 0).mapTx p fun t =>
      { t with
        up := tset (fun _ => []) t.up c mem
        prods := (t.prods.filter fun e => !(e.carrier == c && e.start == sym)) ++ [⟨c, sym, len, out⟩] }
    s.fillPath p

/-- The T3 back-off of a carrier changes at the first slot boundary after the level does (Table 103, R142), which starts
acquisition (R233). -/
def State.resolveBackoff (s : State) (c sym : Nat) : State :=
  let v := tget (fun _ => 0) s.backoff c
  if 2 ≤ v ∧ (stampOf (s.dlAt c sym).scs sym).symbol = 0 then
    (List.range 64).foldl (fun s p => s.acquire p)
      { s with backoff := tset (fun _ => 0) s.backoff c (3 - v), backAt := tset (fun _ => (0 : Int)) s.backAt c (s.tickOf sym) }
  else s

/-- The first symbols of a carrier are long past: what was noted of them is forgotten. -/
def State.settleDl (s : State) (c sym : Nat) : State :=
  match tget (fun _ => none) s.dlSince c with
  | some f => if (Config.ticksPerSubframe : Int) < ahead f sym then { s with dlSince := tset (fun _ => none) s.dlSince c none } else s
  | none => s

/-- What the control sections of a half cover of a carrier's symbol is noted (R222); notes older than 4 ms are forgotten. -/
def State.noteOcc (s : State) (h c sym nprb : Nat) (cs : List CtrlSec) : State :=
  let n := ((List.range nprb).filter fun b => cs.any fun x => decide (x.startPrb ≤ b) && decide (b < x.startPrb + x.numPrb)).length
  { s with dlOcc := ⟨h, c, sym, symTicks (s.dlAt c sym).scs sym, n, nprb⟩ :: s.dlOcc.filter fun e =>
      decide (ahead e.start sym < 4 * Config.ticksPerSubframe) && !(e.half == h && e.carrier == c && e.start == sym) }

/-- PRBs of the enabled carriers that accepted control sections of a half cover in the symbols of a count, and all of them
(R222). -/
def State.occAt (s : State) (h at_ : Nat) : Nat × Nat :=
  (s.dlOcc.filter fun e => e.half == h && decide (0 ≤ ahead e.start at_) && decide (ahead e.start at_ < e.len)).foldl
    (fun n e => (n.1 + e.covered, n.2 + e.nprb)) (0, 0)

/-- R132, R134 to R144, R148, R471: the array processor of a half begins a symbol of a carrier, two symbols before its start,
under the record that will be in force at it. -/
def execDlSymbolStart (h : Half) (c : CarrierNo) (sym : Nat) (errs : List DlParity) (s : State) :
    Host.Outcome State Fault Refusal :=
  let h := h.val
  let c := c.val
  let s := ((s.purgeDl c sym).resolveBackoff c sym).settleDl c sym
  let cs := s.dlCtrls h c sym
  let r := s.dlAt c sym
  if !r.en || s.pathCount = 0 || (h = 1 && s.pathCount ≤ 32) then .next s
  else
  let s := s.noteOcc h c sym r.nprb cs
  if s.dom h 0 ≠ 0 ∨ s.arrDown h then
    .next ((cs.map (·.flow) ++ ((s.dataSecs.filter fun d => d.sym == sym && (s.flow d.flow).carrier == c
        && s.present h d.flow d.fwd).map (·.flow))).foldl
      (fun s f => s.mapFlow f fun y => { y with late := inc32 y.late 1 }) s)
  else
    let s := if r.scs = s.swapMuAt sym then s.fixBlank h sym else s
    let s := errs.foldl (fun s e => s.dlParity h cs e) s
    let s := s.countZero h (s.zeroRefs h cs sym)
    let s := (halfPaths h).foldl (fun s p => s.bufferSymbol h c sym cs errs p) s
    let s := if cs ≠ [] ∧ !s.touches 0 sym (symTicks r.scs sym) then
        s.bump (Rg.C_DL_IN_RX h) ((halfPaths h).filter fun p => s.pathIn p).length else s
    .next (s.evalDlSat h)

/-! ## Release and the slice -/

/-- Whether an interval of a path is blank for content, if that is fixed (R148). -/
def State.contentBlank (s : State) (p start : Nat) : Option Bool :=
  ((s.tx p).blanks.find? fun e => e.1 == start).map (·.2)

/-- A path's samples of an interval are muted: FALSE_START of its group, or TIME_STEP (R148), or a slice's parity fault
(R487). -/
def State.muted (s : State) (p : Nat) : Bool :=
  s.bitF Rg.FE_STAT_BLANKED (p / 8) || (s.tx p).mute || s.sliceMuted p

/-- A path can transmit: the device carries traffic (R6), the path is in service, its group in RUN, its corrections not in their safe state (R149, R471, Table 136). -/
def State.canTx (s : State) (p : Nat) : Bool := s.carries && s.pathIn p && s.groupRun (p / 8) && !s.isSafe 8 p

/-- The path stream of an interval as its elastic buffer holds it; zeros where no carrier has samples there; none if a
sample is missing (R145). -/
def State.buffered (s : State) (p start len : Nat) : Option (List Cplx) :=
  if (List.range 4).any fun c => s.dlNeeds c start then ((s.tx p).buf.find? fun e => e.1 == start).map (·.2)
  else some (List.replicate len Cplx.zero)

/-- Stages 1 to 3 of a path's slice on an interval's stream (R146, R147): outputs, what R147 keeps, peaks left. -/
def State.stage3 (s : State) (p start : Nat) (l : List Cplx) : List Cplx × List CfrMem × Nat :=
  let t := s.tx p
  s.cfr p start t.cfr ((farrowUp t.df t.h1 l).map fun z => satC 16 (asrC (mulC z t.gain) 14))

/-- A neighbour carries a signal of its own over an interval (R211): it will be LIVE and not blank. -/
def State.sends (s : State) (q start : Nat) : Bool :=
  decide (2 ≤ (s.tx q).state) && s.canTx q && s.inTx start && !s.muted q && !(s.contentBlank q start == some true)

/-- What a neighbour gives stage 4 of a path over an interval (R210, R211): its stage-3 samples of the same crossing
instants with those before the interval, whether or not its slice has read the interval yet. -/
def State.neighbourStream (s : State) (p j start len : Nat) : List (List Cplx) :=
  match s.neighbour p j with
  | some q =>
    let t := s.tx q
    if !s.sends q start then []
    else if t.rel = some start then histories t.h3p t.x3
    else match s.buffered q start len with
      | some l => histories t.h3 (s.stage3 q start l).1
      | none => []
  | none => []

/-- Stages 5 and 6 of one sample (Table 41): `h` holds stage-4 outputs newest first. -/
def stage56 (t : TxPath) (h : List Cplx) : Cplx :=
  let x := nth h 0 Cplx.zero
  let corr := sumC (t.iq.zipIdx.map fun (c, k) => mulC c (conjC (nth h k Cplx.zero)))
  satC 16 (addC (satC 16 (addC x (asrC corr 15))) t.loOff)

/-- What a slice makes of an interval (R146): DAC codes, outputs of stages 3 and 4, what R147 keeps, peaks left, components
clipped. -/
structure SliceOut where
  dac : List Cplx
  x3 : List Cplx
  x4 : List Cplx
  cfr : List CfrMem
  miss : Nat
  clipped : Nat
deriving DecidableEq, Repr

/-- A path's stream through its slice (R146). -/
def State.slice (s : State) (p start len : Nat) (l : List Cplx) : SliceOut :=
  let t := s.tx p
  let (x3, cfr, miss) := s.stage3 p start l
  let d := s.dpdOf p
  let raw := if s.dpdOn p && !d.ident then
      dpdStream d.serving.coef (histories t.h3 x3) ((List.range 4).map fun j => s.neighbourStream p j start len) else x3
  let x4 := raw.map (satC 16)
  { dac := (histories t.h4 x4).map (stage56 t), x3 := x3, x4 := x4, cfr := cfr, miss := miss
    clipped := (raw.map (satHitsC 16)).sum }

/-- The interval's ticks of the blanking interval that starts at a count. -/
def State.intervalLen (s : State) (start : Nat) : Nat := symTicks s.swapMu start

/-- The slice has read an interval: the buffer forgets it and what is older, and takes more. -/
def State.consume (s : State) (p sym len : Nat) : State :=
  (s.mapTx p fun t =>
    { t with
      buf := t.buf.filter fun e => decide (0 < ahead sym e.1)
      prods := t.prods.filter fun e => decide (0 < ahead (sym + len) (e.start + e.len)) }).fillPath p

/-- A parity error of the bank in service (R483): the identity from the next interval on, and the seed of the group's LO. -/
def State.bankFault (s : State) (p next : Nat) : State :=
  let khz := s.loKhz (p / 8)
  let at_ := (s.tickOf next).toNat
  s.mapDpd p fun d => { d.lose khz with moved := some at_ }

/-- R145, R146, R481, R483: the slice reads an interval out of the elastic buffer; one with a sample missing is sent as zeros. -/
def execSymbolRelease (p : PathNo) (sym : Nat) (late : Bool) (errs : List Nat) (bank : Bool) (s : State) :
    Host.Outcome State Fault Refusal :=
  let p := p.val
  let h := p / 32
  let len := s.intervalLen sym
  if !s.pathIn p || !s.groupRun (p / 8) || (s.muMax false).isNone || !s.touches 0 sym len then .next (s.consume p sym len)
  else
    let (perm, s) := errs.foldl (fun (acc : Bool × State) loc =>
      let (b, s) := (acc.2.bump (Rg.C_DL_PARITY h) 1).memParity 1 h (p * 65536 + loc)
      (acc.1 || b, s)) (false, s)
    if perm then .next (s.retirePath p 7)
    else
      match (if late then none else s.buffered p sym len) with
      | none =>
        let s := (s.mapTx p fun t => { t with next := some ⟨sym, false, []⟩, underrun := inc32 t.underrun 1 }).bump
          (Rg.C_SYM_UNDERRUN h) 1
        .next ((s.raiseLimited h Ev.TX_UNDERRUN p 4915200 1 []).consume p sym len)
      | some l =>
        let l := l.zipIdx.map fun (z, i) => if errs.contains i then Cplx.zero else z
        let o := s.slice p sym len l
        let s := s.dlSats h 0 0 0 o.miss o.clipped
        let s := if bank ∧ s.dpdOn p ∧ !(s.dpdOf p).ident then s.bankFault p (sym + len) else s
        .next ((s.mapTx p fun t =>
          { t with
            next := some ⟨sym, true, o.dac⟩
            h1 := pushHist 12 t.h1 l
            h3 := pushHist 8 t.h3 o.x3
            h4 := pushHist 8 t.h4 o.x4
            cfr := o.cfr, rel := some sym, x3 := o.x3, x4 := o.x4, h3p := t.h3
            was := t.rel.map fun r => ⟨r, t.x3, t.x4⟩ }).consume p sym len)

/-! ## The TX states (R148, R149) -/

/-- A path is blank in an interval: for content, or muted (R148). -/
def State.blank (s : State) (p start : Nat) : Bool := s.contentBlank p start == some true || s.muted p

/-- R149: 1,024 ticks before the first interval that is not blank, also for the first one of a transmit interval
(log 12). -/
def execTxWarmingStart (p : PathNo) (sym : Nat) (s : State) : Host.Outcome State Fault Refusal :=
  let p := p.val
  let st := (s.tx p).state
  let ok := s.canTx p && s.inTx sym && !s.blank p sym
  if ok ∧ s.groupReady (p / 8) ∧ (st = 1 ∨ (st = 0 ∧ s.txBegins sym)) then .next (s.mapTx p fun t => { t with state := 2 })
  else .next s

/-- A path with its sections on becomes LIVE, or ZERO, when an interval starts (Table 43). -/
def TxPath.cross (t : TxPath) (live : Bool) (now : Nat) : TxPath :=
  { t with
    state := if live then 3 else 4
    warmEnd := if t.state = 2 then some now else t.warmEnd
    liveSince := if live ∧ t.state ≠ 3 then some now else t.liveSince }

/-- R148, R149, R270: an interval starts; its samples cross the balls, or zeros do. -/
def execTxIntervalStart (p : PathNo) (sym : Nat) (s : State) : Host.Outcome State Fault Refusal :=
  let p := p.val
  let h := p / 32
  let s := s.endMute sym
  let t := s.tx p
  let now := s.time.now
  if !s.canTx p || !s.inTx sym then
    let rx := s.codeAt sym == some 1
    .next (s.mapTx p fun t => { t with next := none, state := if s.canTx p && !rx then t.state else 0 })
  else
    let s := if t.state = 0 ∧ s.txBegins sym then s.mapTx p fun t => { t with state := 1 } else s
    let s := s.mapTx p fun t => { t with next := none }
    if s.muted p then
      let s := (s.mapTx p fun t => { t with muted := inc32 t.muted 1 }).bump (Rg.C_SYM_MUTED h) 1
      .next (if t.state < 2 then s else (s.mapTx p fun t => t.cross true now).emit (.txSamples p sym none))
    else if t.state < 2 then .next s
    else if s.contentBlank p sym = some true then
      .next ((s.mapTx p fun t => t.cross true now).emit (.txSamples p sym none))
    else
      match t.next with
      | some n =>
        if n.complete ∧ n.start = sym then
          .next ((s.mapTx p fun t => t.cross true now).emit (.txSamples p sym (some n.dac)))
        else .next ((s.mapTx p fun t => t.cross false now).emit (.txSamples p sym none))
      | none => .next ((s.mapTx p fun t => t.cross false now).emit (.txSamples p sym none))

/-- Ticks of the intervals that follow a blank one and count as blank: each interval of the transmit interval does, unless it
is fixed as not blank (R148). -/
def State.blankAfter (s : State) (p : Nat) : Nat → Nat → Nat
  | 0, _ => 0
  | fuel + 1, sym =>
    if !s.inTx sym || s.contentBlank p sym == some false then 0
    else s.intervalLen sym + s.blankAfter p fuel (addSymbols s.swapMu 1 sym)

/-- Ticks of the run of blank intervals that starts with the blank interval `sym` (R148). -/
def State.blankRun (s : State) (p sym : Nat) : Nat :=
  s.intervalLen sym + s.blankAfter p 1200 (addSymbols s.swapMu 1 sym)

/-- R148, R149: a run long enough gates the path's analogue sections; the end of the transmit interval turns it OFF. -/
def execTxGate (p : PathNo) (sym : Nat) (endOfTx : Bool) (s : State) : Host.Outcome State Fault Refusal :=
  let p := p.val
  let st := (s.tx p).state
  if endOfTx then .next (if st = 0 then s else s.txOff p)
  else if (st = 3 ∨ st = 4) ∧ s.on Rg.DL_CFG_BLANK_EN ∧ s.inTx sym ∧ s.blank p sym
      ∧ max (s.f Rg.DL_CFG_BLANK_MIN * 256) 1088 ≤ s.blankRun p sym then
    .next (s.mapTx p fun t => { t with state := 1 })
  else .next s

end Sys2Proof.Machine
end

