-- ==== Sys2Proof/Machine/Flags.lean ====
section
/-! DEFINITION. The arithmetic slot of the adaptation engines (Table 83) with its overflow handling and sticky flags (R323
to R326): each opcode as a function of the task's registers and the bundle's fields. -/

namespace Sys2Proof.Machine

/-! ## Words and overflow -/

/-- The complex 16+16 pair in a D register: I in [31:16], Q in [15:0] (R14). -/
def cOfW (w : Word) : Cplx := ⟨(w.extractLsb' 16 16).toInt, (w.extractLsb' 0 16).toInt⟩

/-- A complex pair as a D register; each component to 16 bits. -/
def wOfC (z : Cplx) : Word := BitVec.ofInt 16 z.re ++ BitVec.ofInt 16 z.im

/-- What overflow handling leaves: the value, and whether SAT or GOV sets. -/
structure Fit where
  v : Int
  sat : Bool
  gov : Bool
deriving DecidableEq, Repr

/-- A result brought to `w` bits: clipped with SAT when S is set; else wrapped, with GOV if an accumulator takes part
(R324, R325). -/
def fit (w : Nat) (s acc : Bool) (v : Int) : Fit :=
  if satTo w v = v then ⟨v, false, false⟩
  else if s then ⟨satTo w v, true, false⟩
  else ⟨wrapTo w v, false, acc⟩

/-- What the arithmetic slot writes: nothing, D[RD], AC[RD], P[RD] or K[RD]. -/
inductive Dest where
  | none_
  | d (v : Word)
  | ac (z : Cplx)
  | p (v : Word)
  | k (v : Word)
deriving DecidableEq, Repr

/-- The outcome of the arithmetic slot: its write, and the sticky flags it sets. -/
structure Arith where
  dest : Dest
  sat : Bool := false
  gov : Bool := false
deriving DecidableEq, Repr

/-- D register `i` of a task. -/
def EngTask.dr (t : EngTask) (i : Nat) : Word := (t.d[i]?).getD 0

/-- Accumulator RD = n; a bundle with n above 3 is reserved (R322). -/
def EngTask.acr (t : EngTask) (i : Nat) : Cplx := (t.ac[i % 4]?).getD Cplx.zero

/-- Pointer register `i`. -/
def EngTask.pr (t : EngTask) (i : Nat) : Word := (t.p[i % 8]?).getD 0

/-- Offset register `i`. -/
def EngTask.kr (t : EngTask) (i : Nat) : Word := (t.k[i % 8]?).getD 0

/-- An accumulator result, component by component (R325). -/
def toAcc (b : Bundle) (z : Cplx) : Arith :=
  let re := fit 40 b.s true z.re
  let im := fit 40 b.s true z.im
  ⟨.ac ⟨re.v, im.v⟩, re.sat || im.sat, re.gov || im.gov⟩

/-- A 32-bit result; `acc` says that an accumulator is read (R324, R325). -/
def toD (b : Bundle) (acc : Bool) (v : Int) : Arith :=
  let x := fit 32 b.s acc v
  ⟨.d (BitVec.ofInt 32 x.v), x.sat, x.gov⟩

/-- A 16+16 result. -/
def toD16 (b : Bundle) (acc : Bool) (z : Cplx) : Arith :=
  let re := fit 16 b.s acc z.re
  let im := fit 16 b.s acc z.im
  ⟨.d (wOfC ⟨re.v, im.v⟩), re.sat || im.sat, re.gov || im.gov⟩

/-- A D result that cannot overflow. -/
def plainD (v : Word) : Arith := ⟨.d v, false, false⟩

/-- The exact complex product. -/
def cmulX (a b : Cplx) : Cplx := ⟨a.re * b.re - a.im * b.im, a.re * b.im + a.im * b.re⟩

/-- The exact product with the conjugate of the second operand. -/
def cmulcX (a b : Cplx) : Cplx := cmulX a ⟨b.re, -b.im⟩

/-- A component-wise arithmetic shift right. -/
def shrC (z : Cplx) (n : Nat) : Cplx := ⟨asr z.re n, asr z.im n⟩

/-- Component-wise sum. -/
def addX (a b : Cplx) : Cplx := ⟨a.re + b.re, a.im + b.im⟩

/-- Component-wise difference. -/
def subX (a b : Cplx) : Cplx := ⟨a.re - b.re, a.im - b.im⟩

/-- Both components of `z` shifted left by `n` fit in 40 bits. -/
def fits40 (z : Cplx) (n : Nat) : Bool :=
  decide (satTo 40 (z.re * 2 ^ n) = z.re * 2 ^ n) && decide (satTo 40 (z.im * 2 ^ n) = z.im * 2 ^ n)

/-- The headroom of NORM: the largest n of 0 to 39 that fits. -/
def headroom (z : Cplx) : Nat := ((List.range 40).filter (fits40 z)).getLastD 0

/-- The flags as RDF reads them. -/
def EngTask.flagsWord (t : EngTask) : Nat := b2n t.sat + 2 * b2n t.gov + 4 * b2n t.par

/-! ## Table 83 -/

/-- Da and Db of a bundle as complex pairs. -/
def EngTask.ca (t : EngTask) (b : Bundle) : Cplx := cOfW (t.dr b.ra.val)
/-- See `EngTask.ca`. -/
def EngTask.cb (t : EngTask) (b : Bundle) : Cplx := cOfW (t.dr b.rb.val)

/-- Da and Db as 32-bit integers. -/
def EngTask.ia (t : EngTask) (b : Bundle) : Int := (t.dr b.ra.val).toInt
/-- See `EngTask.ia`. -/
def EngTask.ib (t : EngTask) (b : Bundle) : Int := (t.dr b.rb.val).toInt

/-- ACd and ACa. -/
def EngTask.acd (t : EngTask) (b : Bundle) : Cplx := t.acr b.rd.val
/-- See `EngTask.acd`. -/
def EngTask.aca (t : EngTask) (b : Bundle) : Cplx := t.acr b.ra.val

/-- 0x00 NOP. -/
def opNop (_ : EngTask) (_ : Bundle) : Arith := ⟨.none_, false, false⟩
/-- 0x01 CMAC. -/
def opCmac (t : EngTask) (b : Bundle) : Arith := toAcc b (addX (t.acd b) (shrC (cmulX (t.ca b) (t.cb b)) b.sh.val))
/-- 0x02 CMACC. -/
def opCmacc (t : EngTask) (b : Bundle) : Arith := toAcc b (addX (t.acd b) (shrC (cmulcX (t.ca b) (t.cb b)) b.sh.val))
/-- 0x03 CMSB. -/
def opCmsb (t : EngTask) (b : Bundle) : Arith := toAcc b (subX (t.acd b) (shrC (cmulX (t.ca b) (t.cb b)) b.sh.val))
/-- 0x04 CMUL: cannot overflow. -/
def opCmul (t : EngTask) (b : Bundle) : Arith := toAcc b (shrC (cmulX (t.ca b) (t.cb b)) b.sh.val)
/-- 0x05 CMULC: cannot overflow. -/
def opCmulc (t : EngTask) (b : Bundle) : Arith := toAcc b (shrC (cmulcX (t.ca b) (t.cb b)) b.sh.val)
/-- 0x06 CPOW. -/
def opCpow (t : EngTask) (b : Bundle) : Arith :=
  let a := t.ca b
  toAcc b (addX (t.acd b) ⟨asr (a.re * a.re + a.im * a.im) b.sh.val, 0⟩)
/-- 0x07 DMAC. -/
def opDmac (t : EngTask) (b : Bundle) : Arith :=
  let x := t.ca b
  let y := t.cb b
  toAcc b (addX (t.acd b) (shrC ⟨x.re * y.re, x.im * y.im⟩ b.sh.val))
/-- 0x08 ACLR. -/
def opAclr (_ : EngTask) (_ : Bundle) : Arith := ⟨.ac Cplx.zero, false, false⟩
/-- 0x09 AADD. -/
def opAadd (t : EngTask) (b : Bundle) : Arith := toAcc b (addX (t.acd b) (t.aca b))
/-- 0x0A ASUB. -/
def opAsub (t : EngTask) (b : Bundle) : Arith := toAcc b (subX (t.acd b) (t.aca b))
/-- 0x0B ASHR: cannot overflow. -/
def opAshr (t : EngTask) (b : Bundle) : Arith := toAcc b (shrC (t.acd b) b.sh.val)
/-- 0x0C ASHL. -/
def opAshl (t : EngTask) (b : Bundle) : Arith :=
  let z := t.acd b
  toAcc b ⟨z.re * 2 ^ b.sh.val, z.im * 2 ^ b.sh.val⟩
/-- 0x0D EXT. -/
def opExt (t : EngTask) (b : Bundle) : Arith := toD16 b true (shrC (t.aca b) b.sh.val)
/-- 0x0E EXTR. -/
def opExtr (t : EngTask) (b : Bundle) : Arith := toD b true (asr (t.aca b).re b.sh.val)
/-- 0x0F EXTI. -/
def opExti (t : EngTask) (b : Bundle) : Arith := toD b true (asr (t.aca b).im b.sh.val)
/-- 0x10 ADD. -/
def opAdd (t : EngTask) (b : Bundle) : Arith := toD b false (t.ia b + t.ib b)
/-- 0x11 SUB. -/
def opSub (t : EngTask) (b : Bundle) : Arith := toD b false (t.ia b - t.ib b)
/-- 0x12 CADD. -/
def opCadd (t : EngTask) (b : Bundle) : Arith := toD16 b false (addX (t.ca b) (t.cb b))
/-- 0x13 CSUB. -/
def opCsub (t : EngTask) (b : Bundle) : Arith := toD16 b false (subX (t.ca b) (t.cb b))
/-- 0x14 AND. -/
def opAnd (t : EngTask) (b : Bundle) : Arith := plainD (t.dr b.ra.val &&& t.dr b.rb.val)
/-- 0x15 OR. -/
def opOr (t : EngTask) (b : Bundle) : Arith := plainD (t.dr b.ra.val ||| t.dr b.rb.val)
/-- 0x16 XOR. -/
def opXor (t : EngTask) (b : Bundle) : Arith := plainD (t.dr b.ra.val ^^^ t.dr b.rb.val)
/-- 0x17 SHR. -/
def opShr (t : EngTask) (b : Bundle) : Arith := plainD (BitVec.ofInt 32 (asr (t.ia b) b.sh.val))
/-- 0x18 SHL. -/
def opShl (t : EngTask) (b : Bundle) : Arith := toD b false (t.ia b * 2 ^ b.sh.val)
/-- 0x19 CONJ: overflows for a Q of -32,768. -/
def opConj (t : EngTask) (b : Bundle) : Arith :=
  let z := t.ca b
  toD16 b false ⟨z.re, -z.im⟩
/-- 0x1A SWAP. -/
def opSwap (t : EngTask) (b : Bundle) : Arith :=
  let z := t.ca b
  plainD (wOfC ⟨z.im, z.re⟩)
/-- 0x1B MUL: the exact 32 by 32 product shifted. -/
def opMul (t : EngTask) (b : Bundle) : Arith := toD b false (asr (t.ia b * t.ib b) b.sh.val)
/-- 0x1C CMULD. -/
def opCmuld (t : EngTask) (b : Bundle) : Arith := toD16 b false (shrC (cmulX (t.ca b) (t.cb b)) b.sh.val)
/-- 0x1D NORM. -/
def opNorm (t : EngTask) (b : Bundle) : Arith := plainD (BitVec.ofNat 32 (headroom (t.aca b)))
/-- 0x1E ABS: overflows for -2^31. -/
def opAbs (t : EngTask) (b : Bundle) : Arith := toD b false (t.ia b).natAbs
/-- 0x1F MIN. -/
def opMin (t : EngTask) (b : Bundle) : Arith := plainD (if t.ia b ≤ t.ib b then t.dr b.ra.val else t.dr b.rb.val)
/-- 0x20 MAX. -/
def opMax (t : EngTask) (b : Bundle) : Arith := plainD (if t.ia b ≤ t.ib b then t.dr b.rb.val else t.dr b.ra.val)
/-- 0x21 RDP. -/
def opRdp (t : EngTask) (b : Bundle) : Arith := plainD (t.pr b.ra.val)
/-- 0x22 WRP. -/
def opWrp (t : EngTask) (b : Bundle) : Arith := ⟨.p (t.dr b.ra.val), false, false⟩
/-- 0x23 RDK. -/
def opRdk (t : EngTask) (b : Bundle) : Arith := plainD (t.kr b.ra.val)
/-- 0x24 WRK. -/
def opWrk (t : EngTask) (b : Bundle) : Arith := ⟨.k (t.dr b.ra.val), false, false⟩
/-- 0x25 RDF. -/
def opRdf (t : EngTask) (_ : Bundle) : Arith := plainD (BitVec.ofNat 32 t.flagsWord)

end Sys2Proof.Machine
end

