-- ==== Sys2Proof/Machine/Predistortion.lean ====
section
/-! DEFINITION. The predistortion commands (ch. 7): restructure, swaps, estimates, captures, verification and the relay of
an observation receiver. -/

namespace Sys2Proof.Machine

/-- R213: with one COMMITTED and one FREE bank, the bank in service is copied with every position outside the new
structure zero, and waits for the next swap boundary. -/
def execDpdRestructure (p : PathNo) (s : State) : Host.Outcome State Fault Refusal :=
  let p := p.val
  let d := s.dpdOf p
  match d.struct_ with
  | some r =>
    if d.serving.state = 3 ∧ d.idle.state = 0 then
      let at_ := s.nextSwap 0
      .next (s.mapDpd p fun d =>
        { d.setIdle { d.serving with state := 1, coef := clip r d.serving.coef } with
          swapAt := some at_, direct := true, seedWait := false })
    else .next s
  | none => .next s

/-- A PENDING bank goes into service (Table 59): as TRIAL beside a FALLBACK, or COMMITTED at once for a seed, identity or
structure change. -/
def DpdPath.swapIn (d : DpdPath) (at_ : Nat) : DpdPath :=
  let old := d.serving
  let new := { d.idle with at_ := at_ }
  let d := { d with bServes := !d.bServes, swapAt := none, revertAt := none, ident := false, record := none }
  if d.direct then
    ({ (d.setServing { new with state := 3 }).setIdle { old with state := 0 } with direct := false, seedWait := false }).keepSeed
      { new with state := 3 }
  else (d.setServing { new with state := 2 }).setIdle { old with state := 4 }

/-- The soft part of a record (EN, EST, CFR_PAPR) takes effect (R213); EN cleared drops a PENDING or TRIAL bank. -/
def DpdPath.applySoft (d : DpdPath) : DpdPath :=
  match d.soft with
  | some r =>
    let d := { d with soft := none, rec_ := { d.rec_ with en := r.en, est := r.est, papr := r.papr } }
    if r.en then d else d.drop
  | none => d

/-- Integer advances of a path and a neighbour differ by more than 16 ticks (R210). -/
def State.skewed (s : State) (p q : Nat) : Bool :=
  decide (16 < (((s.tx p).adv : Int) - (s.tx q).adv).natAbs)

/-- Neighbour entries treated as empty from this boundary, and those restored (R210). -/
def State.evalSkew (s : State) (p : Nat) : State :=
  ((s.dpdOf p).rec_.neigh.zipIdx).foldl (fun s (q, j) =>
    match q with
    | some q =>
      let was := (s.dpdOf p).skew.contains j
      if s.skewed p q && !was then
        ((s.mapDpd p fun d => { d with skew := j :: d.skew }).bump (Rg.C_NEIGH_SKEW (p / 32)) 1).raise (p / 32)
          Ev.NEIGHBOUR_SKEW p [q]
      else if was && !s.skewed p q then s.mapDpd p fun d => { d with skew := d.skew.filter fun i => !(i == j) }
      else s
    | none => s) s

/-- R216: at a swap boundary, pending banks, structure changes, drops and records take effect. -/
def execDpdSwap (p : PathNo) (s : State) : Host.Outcome State Fault Refusal :=
  let p := p.val
  let was := (s.dpdOf p).bServes
  let s := if (s.dpdOf p).dropDue then s.mapDpd p DpdPath.drop else s
  let s := s.mapDpd p DpdPath.applySoft
  let d := s.dpdOf p
  let due : Bool := match d.swapAt with
    | some c => s.reached c
    | none => false
  let at_ := atimeWord s.stamp
  let s := if d.idle.state = 1 ∧ due ∧ !d.seedWait then
      if d.direct then
        match d.struct_ with
        | some r =>
          let s := s.mapDpd p fun d =>
            let d := d.swapIn at_
            { d.setServing { d.serving with coef := clip r d.serving.coef } with
              rec_ := { r with en := d.rec_.en, est := d.rec_.est, papr := d.rec_.papr }, struct_ := none, halted := false,
              reverts := 0 }
          s.acquire p
        | none => (s.mapDpd p fun d => d.swapIn at_).acquire p
      else s.mapDpd p fun d => d.swapIn at_
    else s
  let s := if (s.dpdOf p).bServes = was then s else s.dpdMoved p
  .next (s.evalSkew p)

/-- R216, R231: at the revert instant the TRIAL bank becomes FREE and the FALLBACK bank COMMITTED. -/
def execDpdRevertSwap (p : PathNo) (s : State) : Host.Outcome State Fault Refusal :=
  match (s.dpdOf p.val).revertAt with
  | some c => .next (if s.reached c then (s.mapDpd p.val DpdPath.drop).dpdMoved p.val else s)
  | none => .next s

/-- R219. -/
def execCfrPulseSwap (p : PathNo) (s : State) : Host.Outcome State Fault Refusal :=
  .next (s.mapDpd p.val fun d => match d.newPulse with
    | some x => { d with pulse := x, newPulse := none }
    | none => d)

/-- R227: an estimate falls due; a due one still frozen and the next become one (R228); under an EXCL capture it waits
(R351). -/
def execDpdEstimateDue (p : PathNo) (s : State) : Host.Outcome State Fault Refusal :=
  let p := p.val
  let d := s.dpdOf p
  if !s.estOn p || !(s.pathIn p && s.groupRun (p / 8)) then .next s
  else if d.estDue then .next (s.paceSkip 1 p)
  else
    let s := s.paceRun 1 p (Rg.C_DPD_LATE (p / 32))
    let s := if s.exclArmed (p / 32) then s.bump (Rg.C_SVC_WAIT (p / 32)) 1 else s
    .next (s.mapDpd p fun d => { d with estDue := true })

/-! ## Captures and residuals (R222, R223, R228, R230, R231) -/

/-- Outputs of stages 3 and 4 of a path from a count, `n` of each, of the intervals its slice has run last (R222). -/
def TxPath.span (t : TxPath) (first n : Nat) : Option (List Cplx × List Cplx) :=
  let last : List TxSnap := match t.rel with
    | some r => [⟨r, t.x3, t.x4⟩]
    | none => []
  let all : List TxSnap := match t.was with
    | some w => (if t.rel = some ((w.start + w.x3.length / 4) % Config.ticksPerCycle) then [⟨w.start, w.x3 ++ t.x3, w.x4 ++ t.x4⟩]
        else [w]) ++ last
    | none => last
  let from_ (w : TxSnap) : Nat := 4 * (ahead w.start first).toNat
  match all.find? fun w => decide (0 ≤ ahead w.start first) && decide (from_ w + n ≤ w.x3.length) with
  | some w => some ((w.x3.drop (from_ w)).take n, (w.x4.drop (from_ w)).take n)
  | none => none

/-- An instant lies within the capture span that starts at a tick. -/
def inSpan (at_ : Int) (x : Option Nat) : Bool := match x with
  | some t => decide (at_ ≤ (t : Int)) && decide ((t : Int) < at_ + 512)
  | none => false

/-- An instant lies no more than `d` ticks before a tick. -/
def sinceBy (at_ : Int) (d : Nat) (x : Option Nat) : Bool := match x with
  | some t => decide ((t : Int) + d ≤ at_)
  | none => true

/-- A capture is eligible (R223). -/
def State.capEligible (s : State) (p first : Nat) : Bool :=
  let t := s.tx p
  let at_ := s.tickOf first
  let nb := (List.range 4).filterMap fun j => s.neighbour p j
  t.state == 3 && sinceBy at_ 0 t.liveSince && sinceBy at_ (usTicks 20) t.warmEnd
    && !(p :: nb).any (fun q => inSpan at_ (s.dpdOf q).moved) && !inSpan at_ (s.dpdOf p).relayed

/-- The observation stream of a capture whose span starts at a count would overlap that of the half's last one: 2,688 samples at
2,457.6 MSPS are 537.6 ticks (R222, R350). -/
def State.svcBusy (s : State) (h first : Nat) : Bool := match tget (fun _ => none) s.svcAt h with
  | some t => decide ((s.tickOf first - t).natAbs < 538)
  | none => false

/-- The stage-3 outputs of a neighbour over a span: zeros while its amplifier carries no signal (R211, R222). -/
def State.nbSpan (s : State) (p j first : Nat) : List Cplx :=
  match s.neighbour p j with
  | some q => if (s.tx q).state = 3 then (((s.tx q).span first 2048).getD ([], [])).1 else []
  | none => []

/-- The capture of a path (R222, R350): its record has the header of Table 93 with SERVICE set, the observation samples, and the
snapshot buffers after them (log 79). -/
def State.dpdCapture (s : State) (p first : Nat) (x y obs : List Cplx) : DpdRecord :=
  let h := p / 32
  let at_ := stampOf s.muRef (first + Config.ticksPerCycle - 13)
  let (n, all) := s.occAt h first
  let r : CapRecord :=
    { number := tget (fun _ => 0) s.capNum h, ctx := 128 + 4 * h, source := 0x80, path := p, short := false, avg := false
      last := true, trunc := false, preReq := 0, preValid := 0, post := obs.length, trigAt := at_, avgN := 1, first := at_
      power := 0, peak := 0, ovr := 0, occ := if all = 0 then 0 else n * 10000 / all, rate := 2457600, missed := 0, samples := obs }
  let nb := (List.range 4).map fun j => s.nbSpan p j first
  { x := x, y := y, nb := nb, obs := obs, bytes := r.measured.bytes false ++ ((x ++ y ++ nb.flatten).map leCplx).flatten }

/-- The observed power over the span, referred to the predistorter input by the last alignment gain (R222, R228). -/
def observedDb (align : Int × Cplx) (obs : List Cplx) : Int :=
  let l := (obs.drop 64).take 2560
  if energy l = 0 then -32768 else ratioOr 2 (energy l * sqMag align.2) (l.length * 32767 * 32767 * 2 ^ 28)

/-- A capture is frozen (R228). -/
def State.capFrozen (s : State) (p first : Nat) (obs : List Cplx) : Bool :=
  let (n, all) := s.occAt (p / 32) first
  decide (observedDb (s.dpdOf p).align obs < s.pcfg - 256 * (s.f Rg.DPD_CFG_FREEZE_DB : Int))
    || decide (n * 100 < s.f Rg.DPD_CFG_OCC_MIN * all)

/-- An alignment as DPD_COMMIT gives it (Table 83): delay in 1/65,536 sample, complex gain in Q14. -/
def alignOf (l : List Byte) : Int × Cplx :=
  ((BitVec.ofNat 32 (leNat (l.take 4))).toInt, cOfW (BitVec.ofNat 32 (leNat ((l.drop 4).take 4))))

/-- The observation aligned and resampled (R228). -/
def aligned (align : Int × Cplx) (obs : List Cplx) : List Cplx :=
  (List.range 2048).map fun i =>
    satC 16 (asrC (mulC ⟨satTo 16 (Config.resample align.1 obs i false), satTo 16 (Config.resample align.1 obs i true)⟩ align.2) 14)

/-- Samples of a list minus those of another. -/
def subList (a b : List Cplx) : List Cplx := (a.zip b).map fun (x, y) => subX x y

/-- The outputs of a bank for a signal and a record's neighbours, before saturation (R230). -/
def bankOut (c : Tbl Cplx) (k : DpdRecord) (l : List Cplx) : List Cplx :=
  dpdStream c (histories [] l) (k.nb.map fun n => histories [] n)

/-- The residual of a bank on a record, in 1/256 dB (R230). -/
def residualDb (c : Tbl Cplx) (align : Int × Cplx) (k : DpdRecord) : Int :=
  ratioOr 3 (energy (subList k.y ((bankOut c k (aligned align k.obs)).map (satC 16)))) (energy k.y)

/-- A capture of a path is wanted (R225, R228, R231): to verify a TRIAL bank, to refresh RHO, or for the estimate that is due. -/
def State.capWanted (s : State) (p : Nat) : Bool :=
  let d := s.dpdOf p
  (d.serving.state == 2 && d.revertAt.isNone && d.record.isNone) || (d.serving.state == 3 && d.refresh)
    || (d.estDue && d.serving.state == 3 && d.idle.state == 0 && s.estOn p)

/-- R222, R223, R225, R228, R350: a capture ends: discarded, frozen, or used for verification, for RHO alone after a receiver relay,
or for the estimate that is due; at most one attempt in a slot. -/
def execDpdCaptureComplete (p : PathNo) (first : Nat) (obs : List Cplx) (s : State) : Host.Outcome State Fault Refusal :=
  let p := p.val
  let h := p / 32
  let d := s.dpdOf p
  let slot : Stamp := { stampOf s.swapMu first with symbol := 0, tick := 0 }
  let drop (s : State) (x : Fld) : State := (s.mapDpd p fun d => { d with tried := some slot }).bump x 1
  if !s.capWanted p ∨ s.exclArmed h ∨ d.tried = some slot then .next s
  else if s.svcBusy h first then .next (s.bump (Rg.C_SVC_WAIT h) 1)
  else
    let s := { s.bump (Rg.C_SVC_CAPTURES h) 1 with svcAt := tset (fun _ => none) s.svcAt h (some (s.tickOf first)) }
    match (if s.capEligible p first then (s.tx p).span first 2048 else none) with
    | none => .next (drop s (Rg.C_DPD_DISCARD h))
    | some (x, y) =>
      if s.capFrozen p first obs then .next (drop s (Rg.C_DPD_FROZEN h))
      else
        let k := s.dpdCapture p first x y obs
        let n := (tget (fun _ => 0) s.capNum h + 1) % 2 ^ 32
        let s := { s with capNum := tset (fun _ => 0) s.capNum h n }
        if d.serving.state = 2 then .next (s.mapDpd p fun d => { d with record := some k })
        else if d.refresh then
          let (v, s) := s.freeNat
          let rho := wrapTo 16 (residualDb d.serving.coef (alignOf (leBytes 8 v)) k)
          .next (s.mapDpd p fun d => { d.setServing { d.serving with rho := rho } with refresh := false })
        else
          .next ((s.mapDpd p fun d => { d with estDue := false, estimating := true, record := some k }).bump
            (Rg.C_DPD_EST h) 1)

/-- R231, R232: the residual of a TRIAL bank is found on its verification capture; the bank is COMMITTED, or the path reverts. -/
def execDpdVerify (p : PathNo) (align : List Byte) (s : State) : Host.Outcome State Fault Refusal :=
  let p := p.val
  let d := s.dpdOf p
  let b := d.serving
  match d.record with
  | none => .next s
  | some k =>
    if b.state ≠ 2 ∨ d.revertAt.isSome then .next s
    else
      let al := alignOf align
      let rho := residualDb b.coef al k
      if rho * 10 ≤ b.rho * 10 + 256 * (s.f Rg.DPD_CFG2_VERIFY : Int) then
        let khz := s.loKhz (p / 8)
        .next (s.mapDpd p fun d =>
          let x := { b with state := 3, loKhz := khz }
          { ((d.setServing x).setIdle { d.idle with state := 0 }).keepSeed x with reverts := 0, record := none, align := al })
      else
        let at_ := s.nextBlank 20
        .next ((s.mapDpd p fun d => { d with revertAt := some at_, record := none, align := al }).dpdRevert p 4 d.dist rho b.rho)

/-! ## Observation receivers (R225, R226) -/

/-- A receiver works. -/
def State.orxWorks (s : State) (n : Nat) : Bool := !tget (fun _ => false) s.rel.orxRet n

/-- Give a group to a receiver. -/
def State.setOrx (s : State) (g n : Nat) : State :=
  s.mapRel fun r => { r with orxOf := tset (fun g => if g < 4 then g else g + 1) r.orxOf g n }

/-- Groups of a half that a receiver serves. -/
def State.orxGroups (s : State) (n : Nat) : List Nat := ((List.range 4).map (· + 4 * (n / 5))).filter fun g => s.orxOf g == n

/-- Share a working receiver of the half among a pair (R226). -/
def State.shareOrx (s : State) (h g : Nat) : State :=
  let q := if g % 2 = 0 then g + 1 else g - 1
  let other := s.orxOf q
  let free := ((List.range 5).map (· + 5 * h)).find? fun n =>
    s.orxWorks n && !(s.orxGroups n).any fun x => s.sharedOrx.contains x
  match (if s.orxWorks other then some other else free) with
  | some n =>
    let s := (s.setOrx g n).setOrx q n
    let gs := s.orxGroups n
    let s := { s with sharedOrx := gs ++ s.sharedOrx.filter fun x => !gs.contains x }
    s.raise h Ev.ORX_SHARED h [maskNat 8 fun i => gs.contains i, n]
  | none => s

/-- A path served by a retired receiver (R225): a TRIAL bank reverts with reason 5, and the next capture only refreshes
RHO. -/
def State.orxPath (s : State) (p : Nat) : State :=
  let d := s.dpdOf p
  let at_ := s.nextBlank 20
  let s := if d.serving.state = 2 ∧ d.revertAt.isNone then
      (s.mapDpd p fun d => { d with revertAt := some at_ }).raise (p / 32) Ev.DPD_REVERT p
        [5, argInt d.dist, argInt d.serving.rho, argInt d.serving.rho]
    else s
  s.mapDpd p fun d => { d with refresh := true, estimating := false, record := none }

/-- A receiver is retired: the half's spare takes its paths, or receivers are shared (R225, R226, Table 135 row 4). -/
def State.retireOrx (s : State) (n captures : Nat) : State :=
  if !s.orxWorks n then s
  else
    let h := n / 5
    let gs := s.orxGroups n
    let s := (s.mapRel fun r => { r with orxRet := tset (fun _ => false) r.orxRet n true }).logFault 4 n
    let s := s.bump (Rg.C_DPD_DISCARD h) captures
    let s := gs.foldl (fun s g => ((groupPaths g).foldl (fun s p => s.orxPath p) s).relayedIn g) s
    let sp := 5 * h + 4
    if gs = [] then (s.exhaust h 4).evalRel
    else if s.orxWorks sp ∧ s.orxGroups sp = [] then
      ((gs.foldl (fun s g => s.setOrx g sp) s).spareIn h).exhaust h 4
    else gs.foldl (fun s g => if s.orxOf g = n then s.shareOrx h g else s) s.evalRel

/-- R225, R226. -/
def execOrxRelay (n : UnitNo) (captures : Nat) (s : State) : Host.Outcome State Fault Refusal :=
  .next (s.retireOrx n.val captures)

/-! ## The scrub of R188 -/

/-- R188, R483: a scrub of a half's mapped and staging rows, and of its idle predistortion banks. -/
def execBeamScrub (h : Half) (bad : List Nat) (banks : List PathNo) (s : State) : Host.Outcome State Fault Refusal :=
  if s.on Rg.BW_CFG_SCRUB_EN then
    let s := s.paceStart 6 h.val
    let s := bad.foldl (fun s r =>
      if s.isStaging h.val r then s.stageFault h.val r
      else match s.entryOf h.val r with
        | some id => s.rowFault h.val id
        | none => s) s
    .next (banks.foldl (fun s p => s.mapDpd p.val DpdPath.idleFault) s)
  else .next s

end Sys2Proof.Machine
end

