-- ==== Sys2Proof/Machine/Uplink.lean ====
section
/-! DEFINITION. The uplink (ch. 5) and the sounding estimates (R192 to R196): converters, gain control, the slice in the
receive direction, FFT, combining, the halves' sums. -/

namespace Sys2Proof.Machine

/-! ## Converters -/

/-- Number of a converter. -/
def convKey : Conv → Nat
  | .rx p q => 2 * p.val + b2n q
  | .orx n q => 128 + 2 * n.val + b2n q

/-- A converter. -/
def State.convOf (s : State) (v : Conv) : ConvSt := tget (fun _ => ConvSt.reset) s.conv (convKey v)

/-- Change a converter. -/
def State.mapConv (s : State) (v : Conv) (f : ConvSt → ConvSt) : State :=
  { s with conv := tset (fun _ => ConvSt.reset) s.conv (convKey v) (f (s.convOf v)) }

/-- Exchange the resting slice with the next one in cyclic order: the correction found while it rested takes effect as it
enters service (R156). -/
def ConvSt.rotate (c : ConvSt) : ConvSt :=
  let corr := match tget (fun _ => none) c.found c.resting with
    | some x => tset (fun _ => ⟨0, 0, 0⟩) c.corr c.resting x
    | none => c.corr
  { c with resting := c.next, next := (c.next + 1) % 9, due := none, corr := corr
           found := tset (fun _ => none) c.found c.resting none }

/-- A converter rotates: ROT_EN is set and no slice is retired (R156, R157). -/
def State.rotates (s : State) (v : Conv) : Bool := s.on Rg.UL_CFG_ROT_EN && (s.convOf v).retired.isEmpty

/-- An exchange must wait: the path is in a receive interval, or the receiver in a capture span (R156, R224). -/
def State.rotateWaits (s : State) (v : Conv) (inSpan : Bool) : Bool :=
  match v with
  | .rx _ _ => s.codeAt s.time.count == some 1
  | .orx _ _ => inSpan

/-- R156, R224: an exchange falls due, or one that waits finds its instant. -/
def execAdcSliceRotate (v : Conv) (inSpan : Bool) (s : State) : Host.Outcome State Fault Refusal :=
  if !s.rotates v then .next s
  else if s.rotateWaits v inSpan then
    let now := s.time.now
    .next (s.mapConv v fun c => { c with due := some (c.due.getD now) })
  else .next (s.mapConv v ConvSt.rotate)

/-- R156: 10 ms after an exchange fell due it is made at the next sample boundary, but never in a capture span (R224). -/
def execAdcRotateForce (v : Conv) (inSpan : Bool) (s : State) : Host.Outcome State Fault Refusal :=
  match (s.convOf v).due, v with
  | some t, .rx _ _ => .next (if s.rotates v && decide (t + 4915200 ≤ s.time.now) then s.mapConv v ConvSt.rotate else s)
  | some t, .orx _ _ =>
    .next (if s.rotates v && decide (t + 4915200 ≤ s.time.now) && !inSpan then s.mapConv v ConvSt.rotate else s)
  | none, _ => .next s

/-- A second slice of a converter fails: its path or receiver is retired (R157, R224). -/
def State.secondSlice (s : State) (v : Conv) : State :=
  match v with
  | .rx p _ => s.retirePath p.val 3
  | .orx n _ => s.retireOrx n.val 0

/-- Half of a converter. -/
def convHalf : Conv → Nat
  | .rx p _ => p.val / 32
  | .orx n _ => n.val / 5

/-- A slice is retired: counted in the class of Table 135 row 0, reported for a path (R157). -/
def State.retireConvSlice (s : State) (v : Conv) (slice : Nat) : State :=
  let s := (s.mapConv v fun c => { c with retired := slice :: c.retired }).logFault 0 (convKey v * 16 + slice)
  let s := match v with
    | .rx p q => ((s.raise (p.val / 32) Ev.ADC_SLICE_RETIRED p.val [b2n q + 2 * slice]).prioMeasure p.val).relayedIn (p.val / 8)
    | .orx n _ => (s.orxGroups n.val).foldl (fun s g => s.relayedIn g) s
  (s.exhaust (convHalf v) 0).evalRel

/-- R156, R157, R224: the resting slice's calibration ends; its correction waits for the slice to enter service. A slice that
fails on two consecutive rests is retired; with a retired slice the corrections stay frozen. -/
def execAdcSliceCalDone (v : Conv) (pass : Bool) (corr : SliceCorr) (s : State) : Host.Outcome State Fault Refusal :=
  let c := s.convOf v
  if pass then
    .next (s.mapConv v fun c =>
      { c with failed := c.failed.filter fun i => !(i == c.resting)
               found := if c.retired = [] then tset (fun _ => none) c.found c.resting (some corr) else c.found })
  else if !c.failed.contains c.resting then .next (s.mapConv v fun c => { c with failed := c.resting :: c.failed })
  else if c.retired = [] then .next (s.retireConvSlice v c.resting)
  else .next (s.secondSlice v)

/-! ## Gain control -/

/-- The gain state of a path as its gain table numbers it: attenuation, plus 32 with the LNA bypassed (R162). -/
def RxPath.gainState (r : RxPath) : Nat := r.att + 32 * b2n r.bypass

/-- An attenuation or bypass change reaches the ADC. -/
def State.setGain (s : State) (p att : Nat) (byp : Bool) : State :=
  let old := (s.rx p).gainState
  let now := s.time.now
  s.mapRx p fun r =>
    let r := { r with att := att, bypass := byp }
    if r.gainState = old then r else { r with gains := ((now, old, r.gainState) :: r.gains).take 32 }

/-- The gain state in force at a tick (R162). -/
def RxPath.gainAt (r : RxPath) (tick : Nat) : Nat :=
  match r.gains.find? fun e => decide (e.1 ≤ tick) with
  | some e => e.2.2
  | none => match r.gains.getLast? with
    | some e => e.2.1
    | none => r.gainState

/-- The estimators of a path run (R163): AGC_EN, a receive interval, no receive measurement of a heat. -/
def State.agcRuns (s : State) (p c : Nat) : Bool :=
  s.on Rg.UL_AGC_AGC_EN && s.codeAt c == some 1 && !((s.fep p).state == 4)

/-- One sprint step (R160). -/
def State.sprint (s : State) (p : Nat) : State :=
  let r := s.rx p
  let top := s.f Rg.UL_AGC_ATT_MAX
  if s.on Rg.UL_AGC_SPRINT_EN && s.agcRuns p s.time.count && decide (r.att < top) then
    let s := s.setGain p (min (r.att + s.f Rg.UL_AGC_SPRINT_STEP) top) r.bypass
    let now := s.time.now
    (s.mapRx p fun r =>
      { r with sprintNow := true, sprints := inc32 r.sprints 1, sprintTicks := (now :: r.sprintTicks).take 64 }).bump
      (Rg.C_SPRINT (p / 32)) 1
  else s

/-- An over-range code (R158). -/
def overCode (v : Int) : Bool := v == 32767 || v == -32768

/-- R158, R160, R176: codes with an over-range one set the path's bit; the transition counts an onset and starts the
sprint path. -/
def execAdcOverrange (p : PathNo) (i q : Int) (s : State) : Host.Outcome State Fault Refusal :=
  let p := p.val
  if !(overCode i || overCode q) then .next (s.mapRx p fun r => { r with ovr := false })
  else
    let s := if p < 32 then s.setBit Rg.UL_OVL0_OVL p true else s.setBit Rg.UL_OVL1_OVL (p - 32) true
    if (s.rx p).ovr then .next s
    else
      let s := (s.mapRx p fun r => { r with ovr := true, onsets := inc32 r.onsets 1 }).bump (Rg.C_ADC_OVL (p / 32)) 1
      let s := if s.on Rg.UL_CFG_OVL_EVT then s.raiseLimited (p / 32) Ev.UL_OVERLOAD p 4915200 1 []
        else s.countLimited Ev.UL_OVERLOAD p 1
      .next (s.sprint p)

/-- R160: over-range codes continue 30 ns after a step. -/
def execSprintStep (p : PathNo) (s : State) : Host.Outcome State Fault Refusal :=
  .next (if (s.rx p.val).ovr then s.sprint p.val else s)

/-- A path's calibrated bypass step in dB: at most 18 (R162). -/
def bypassStep (p : Nat) : Nat := min (Config.bypassStep p) 18

/-- A pending bypass change comes one boundary nearer, and takes effect at the second (R161). -/
def State.bypassBoundary (s : State) (p : Nat) : State :=
  let r := s.rx p
  match r.pendBypass with
  | some (b, n) =>
    if 1 < n then s.mapRx p fun r => { r with pendBypass := some (b, n - 1) }
    else
      let step := bypassStep p
      let att := if b = r.bypass then r.att else if b then r.att - step else min (r.att + step) (s.f Rg.UL_AGC_ATT_MAX)
      (s.mapRx p fun r => { r with pendBypass := none }).setGain p att b
  | none => s

/-- How far the power measured in an interval lies above the target of DIST_TGT, in dB with 20 fractional bits: rms against a
full scale of 32,767 (R130, R161). No power at all lies below every target. -/
def State.aboveTarget (s : State) (r : RxPath) : Int :=
  if r.energy = 0 then -(2 ^ 40)
  else
    let lg := (log2Q48 r.energy : Int) - log2Q48 (r.codes * (32767 * 32767))
    lg * (10 * lg2Q60) / 2 ^ 88 + s.f Rg.UL_AGC_DIST_TGT * 2 ^ 18

/-- The attenuation and bypass that the distance path sets after an interval whose level lay `ovr` above the target, in dB with
20 fractional bits (R161): the difference is rounded to whole dB, halves up. -/
def State.distance (s : State) (p : Nat) (ovr : Int) : State :=
  let r := s.rx p
  let top := s.f Rg.UL_AGC_ATT_MAX
  let hyst := s.f Rg.UL_AGC_DIST_HYST
  if ovr.natAbs ≤ 2 ^ 19 * hyst then s
  else
    let want := (r.att : Int) + (ovr + 2 ^ 19) / 2 ^ 20
    let clipped := if want < 0 then 0 else if (top : Int) < want then top else want.toNat
    let att := if r.att ≤ clipped then clipped
      else if r.sprintNow || r.sprintLast then r.att
      else max clipped (r.att - s.f Rg.UL_AGC_DIST_UP)
    let s := s.setGain p att r.bypass
    if !s.on Rg.UL_AGC_BYPASS_EN || r.pendBypass.isSome then s
    else if !r.bypass && decide ((top : Int) < want) then s.mapRx p fun r => { r with pendBypass := some (true, 2) }
    else if r.bypass && decide (2 * (want + bypassStep p) ≤ 2 * (top : Int) - hyst) then
      s.mapRx p fun r => { r with pendBypass := some (false, 2) }
    else s

/-! ## Filters -/

/-- The filter banks of a carrier. -/
def State.filtOf (s : State) (c : Nat) : FiltSt := tget (fun _ => FiltSt.reset) s.filt c

/-- Change the filter banks of a carrier. -/
def State.mapFilt (s : State) (c : Nat) (f : FiltSt → FiltSt) : State :=
  { s with filt := tset (fun _ => FiltSt.reset) s.filt c (f (s.filtOf c)) }

/-- R167: the tick of a swap: what is stamped at or after the named tick takes the other bank. -/
def execFilterSwapTick (c : CarrierNo) (s : State) : Host.Outcome State Fault Refusal :=
  match (s.filtOf c.val).swapAt with
  | some t =>
    if s.reached t then
      let at_ := s.tickOf t
      .next (s.mapFilt c.val fun f => { f with bankB := !f.bankB, swapAt := none, swaps := (at_ :: f.swaps).take 8 })
    else .next s
  | none => .next s

/-- The load that has gone furthest is in its bank, the one out of service (R166, R167). -/
def FiltSt.loaded (f : FiltSt) : FiltSt :=
  match f.loading with
  | l :: r => if f.bankB then { f with a := some l, loading := r } else { f with b := some l, loading := r }
  | [] => f

/-- Coefficients of the bank that serves a sample stamped at a tick (R166, R167): each swap named for a later tick is undone,
and one still to come for a tick not after the stamp is made; `pend` is the tick of the pending swap. -/
def FiltSt.coefAt (f : FiltSt) (pend : Option Int) (tick : Int) : Nat → Int :=
  let undone := (f.swaps.filter fun t => decide (tick < t)).length
  let ahead := match pend with
    | some t => b2n (decide (t ≤ tick))
    | none => 0
  let b := if (undone + ahead) % 2 = 1 then !f.bankB else f.bankB
  match (if b then f.b else f.a) with
  | some l => fun i => nth l i 0
  | none => fun i => wrapTo 18 (Config.defaultFilter i)

/-! ## The slice in the receive direction (Table 46) -/

/-- What a half's uplink saturation counters gain (R176). -/
def State.addUlSat (s : State) (h : Nat) (l : List Nat) : State := { s with ulSat := addGains [0, 0, 0] h s.ulSat l }

/-- Count saturations at the FFT and in the sums (R176). -/
def State.ulSats (s : State) (h fft comb : Nat) : State :=
  ((s.bump (Rg.C_FFT_SAT h) fft).bump (Rg.C_COMB_SAT h) comb).addUlSat h [0, fft, comb]

/-- One component of the DC blocker (R165): its output and its new estimate. -/
def dcStep (k : Nat) (frozen : Bool) (d x : Int) : Int × Int :=
  let d := if frozen then d else wrapTo 32 (d + asr (x * 65536 - d) k)
  (satTo 16 (x - asr d 16), d)

/-- What the DC blocker carries from sample to sample: the estimates, samples since an over-range code, outputs newest
first. -/
structure DcAcc where
  i : Int
  q : Int
  since : Nat
  out : List Cplx
deriving DecidableEq, Repr

/-- A path's DC estimate is frozen at a tick for a reason other than an over-range code (R165). -/
def State.dcFrozen (s : State) (p : Nat) (tick : Int) (count : Nat) : Bool :=
  s.on Rg.UL_CFG_DC_FREEZE || !(s.codeAt count == some 1) || (s.fep p).state == 4
    || match (s.rx p).gains.find? fun e => decide ((e.1 : Int) ≤ tick) with
      | some e => decide (tick < e.1 + 64 * s.f Rg.UL_CFG_DC_HOLD)
      | none => false

/-- Stage 2 over codes of which the first is converted at count `first`. -/
def State.dcBlock (s : State) (p first : Nat) (l : List Cplx) : DcAcc :=
  let k := s.f Rg.UL_CFG_DC_K
  let r := s.rx p
  let tick := s.tickOf first
  l.zipIdx.foldl (fun a (x, n) =>
    let ov := overCode x.re || overCode x.im
    let since := if ov then 0 else min 64 (a.since + 1)
    let fr := decide (since < 64) || s.dcFrozen p (tick + (n / 4 : Nat)) ((first + n / 4) % Config.ticksPerCycle)
    let (i, di) := dcStep k fr a.i x.re
    let (q, dq) := dcStep k fr a.q x.im
    ⟨di, dq, since, ⟨i, q⟩ :: a.out⟩) ⟨r.dcI, r.dcQ, r.since, []⟩

/-- Stage 3: I/Q correction with the path's receive coefficients, newest sample first. -/
def rxIq (c : List Cplx) (h : List Cplx) : Cplx :=
  let corr := sumC (c.zipIdx.map fun (z, k) => mulC z (conjC (nth h k Cplx.zero)))
  satC 16 (addC (nth h 0 Cplx.zero) (asrC corr 15))

/-- The phase of a carrier's NCO at a stamp (R168): zero at the start of the subframe, less the phase term of the symbol that
holds the stamp. -/
def ulPhase (u : UlCarrier) (l stamp : Nat) : Nat :=
  let t := stamp % Config.ticksPerSubframe
  let sym := stamp - t + symStart u.scs (symOf u.scs t)
  let th := if u.phcomp then thetaWord l u.ncoFreq (sym % Config.ticksPerSubframe + cpTicks u.scs sym) else 0
  ((u.ncoFreq * t - th) % (2 ^ 32 : Int)).toNat

/-- The gain-table entry of a path for a gain state (R162); unity where calibration has set none. -/
def RxPath.entry (r : RxPath) (g : Nat) : Cplx := tget (fun _ => ⟨4096, 0⟩) r.table g

/-- The gain state in force at a tick, counted as `now` is. -/
def RxPath.gainOn (r : RxPath) (tick : Int) : Nat := r.gainAt tick.toNat

/-- The uplink record that was in force at a count (R155). -/
def State.ulAt (s : State) (c sym : Nat) : UlCarrier :=
  match tget (fun _ => none) s.ulWas c with
  | some (u, t) => if s.tickOf sym < t && !s.isSafe 0 (4 + c) then u else s.ul c
  | none => s.ul c

/-- The stamp of the first tick of a run of codes (R168): from the instant at which a carrier of rate `r` leaves the slice,
254 + 64 R ticks after the balls and so 74 + 64 R after the converters, the chain latency and the path's integer delay
correction are subtracted; DF is the decimator's fraction. -/
def RxPath.stamp (x : RxPath) (first r : Nat) : Nat :=
  ((first : Int) + (74 + 64 * r : Nat) - (254 + 64 * r : Nat) - x.dly).toNat % Config.ticksPerCycle

/-- Write samples of a carrier into a path's elastic buffer (R169), behind those it holds; beyond its 36,864 samples they are
lost, and their windows incomplete. -/
def RxPath.put (r : RxPath) (b : UlBuf) : RxPath :=
  if 36864 < (r.buf.map fun e => e.x.length).sum + b.x.length then r
  else
    let joins (e : UlBuf) : Bool :=
      e.carrier == b.carrier && e.step == b.step && (e.start + e.x.length * e.step) % Config.ticksPerCycle == b.start
    if r.buf.any joins then { r with buf := r.buf.map fun e => if joins e then { e with x := e.x ++ b.x } else e }
    else { r with buf := r.buf ++ [b] }

/-- Stages 6 to 8 of a path for one carrier (R164 to R168): `z` are stage-5 outputs, one to a tick, of which the first is
converted at count `first`. Samples are taken on the carrier's own grid of stamps; their group delay, which the spec gives
only as part of the latency, is free (log 73). -/
def State.feedCarrier (s : State) (p first : Nat) (z : List Cplx) (c : Nat) : State :=
  let r := s.rx p
  let u := s.ulAt c first
  let k := ratio u.log2n u.scs
  let at_ := r.stamp first k
  let l := s.loKhz (p / 8)
  let mixed := z.zipIdx.map fun (x, i) =>
    let t := (at_ + i) % Config.ticksPerCycle
    satC 24 (mixC x true (ulPhase (s.ulAt c t) l t))
  let car := tget (fun _ => RxCar.reset) r.cars c
  let skip := (k - at_ % k) % k
  let (from_, all, car) := if car.next = some at_ then
      ((at_ + Config.ticksPerCycle - car.rest.length) % Config.ticksPerCycle, car.rest ++ mixed, car)
    else ((at_ + skip) % Config.ticksPerCycle, mixed.drop skip, RxCar.reset)
  let n := all.length / k * k
  let (z7, half) := downStages (14 - u.log2n - u.scs) 0 car.half (all.take n)
  let g := Config.groupDelay k * k
  let start := (from_ + (g / Config.ticksPerCycle + 1) * Config.ticksPerCycle - g) % Config.ticksPerCycle
  let pend := (s.filtOf c).swapAt.map s.tickOf
  let raw := (evens (historiesOf 96 car.filt z7)).zipIdx.map fun (h, i) =>
    asrC (firSum ((s.filtOf c).coefAt pend (s.tickOf ((start + i * k) % Config.ticksPerCycle))) 96 h) (17 + u.filtShift)
  let car : RxCar :=
    { next := some ((at_ + z.length) % Config.ticksPerCycle), rest := all.drop n, half := half, filt := pushHist 96 car.filt z7 }
  ((s.bump (Rg.C_FILT_SAT (p / 32)) ((raw.map (satHitsC 16)).sum)).mapRx p fun r =>
    { r with cars := tset (fun _ => RxCar.reset) r.cars c car }.put ⟨c, start, k, raw.map (satC 16)⟩).addUlSat (p / 32)
      [(raw.map (satHitsC 16)).sum, 0, 0]

/-- Energy and number of the codes of a run that count for R161: those of the interval but for its last 128 ticks. -/
def State.measured (s : State) (run : AdcRun) : Nat × Nat :=
  let mu := (s.muMax true).getD s.muRef
  run.codes.zipIdx.foldl (fun a (x, n) =>
    let t := (run.first + n / 4) % Config.ticksPerCycle
    if 128 < ahead t (addSymbols mu 1 t) then (a.1 + sqMag x, a.2 + 1) else a) (0, 0)

/-- Codes go through the slice of a path (R164): stages 2 to 5 once, stages 6 to 8 for every enabled carrier. -/
def State.feed (s : State) (p : Nat) (run : AdcRun) : State :=
  let r := s.rx p
  let l := run.codes.take (run.codes.length / 4 * 4)
  if l = [] then s
  else
    let dc := s.dcBlock p run.first l
    let on := s.on Rg.UL_CFG_DC_EN
    let z2 := if on then dc.out.reverse else l
    let z3 := (histories r.hist z2).map (rxIq r.iq)
    let tick := s.tickOf run.first
    let z5 := (farrowDown r.df r.hist3 z3).zipIdx.map fun (z, i) =>
      satC 24 (asrC (mulC z (r.entry (r.gainOn (tick + i)))) 12)
    let m := s.measured run
    let s := s.mapRx p fun r =>
      { r with
        dcI := if on then dc.i else r.dcI
        dcQ := if on then dc.q else r.dcQ
        since := dc.since
        hist := pushHist 8 r.hist z2
        hist3 := pushHist 48 r.hist3 z3
        energy := r.energy + m.1
        codes := r.codes + m.2 }
    ((List.range 4).filter fun c => (s.ul c).en).foldl (fun s c => s.feedCarrier p run.first z5 c) s

/-- R160 to R164: an interval of a path ends: its last codes go through the slice, and the distance path acts while the
estimators run; else attenuation and bypass are held. -/
def execAgcIntervalEnd (p : PathNo) (run : AdcRun) (s : State) : Host.Outcome State Fault Refusal :=
  let p := p.val
  let last := (s.time.count + Config.ticksPerCycle - 1) % Config.ticksPerCycle
  let s := s.feed p run
  let s := if s.agcRuns p last then (s.bypassBoundary p).distance p (s.aboveTarget (s.rx p)) else s
  let had := (s.rx p).sprintNow
  let s := s.mapRx p fun r =>
    { r with sprintLast := had, sprintNow := false, energy := 0, codes := 0
             sprintSyms := if had then inc32 r.sprintSyms 1 else r.sprintSyms }
  .next (if had then s.bump (Rg.C_SPRINT_SYM (p / 32)) 1 else s)

/-- A symbol window of a path's elastic buffer: the N samples stamped from `start` on, none if one is missing (R169,
R171). -/
def RxPath.window (r : RxPath) (c start n : Nat) : Option (List Cplx) :=
  match r.buf.find? fun e => e.carrier == c && decide (0 ≤ ahead e.start start) && ahead e.start start % (e.step : Int) == 0
      && decide (ahead e.start start < ((e.x.length * e.step : Nat) : Int)) with
  | some e =>
    let l := (e.x.drop ((ahead e.start start).toNat / e.step)).take n
    if l.length = n then some l else none
  | none => none

/-- The samples of a carrier stamped before a count leave the elastic buffer. -/
def RxPath.drain (r : RxPath) (c count : Nat) : RxPath :=
  { r with buf := (r.buf.map fun e =>
      if e.carrier = c ∧ 0 < ahead e.start count then
        let k := min (ceilDiv (ahead e.start count).toNat e.step) e.x.length
        { e with start := (e.start + k * e.step) % Config.ticksPerCycle, x := e.x.drop k }
      else e).filter fun e => !e.x.isEmpty }

/-- The FFT of a path's window with the slope removed: the carrier's subcarriers, and saturated components (R169). -/
def ulBins (u : UlCarrier) (x : List Cplx) : List Cplx × Nat :=
  let n := 2 ^ u.log2n
  let raw := transform false u.log2n u.fftShift x
  let out := raw.map (satC 16)
  let flat := (List.range n).map fun k =>
    let k' : Int := if n / 2 ≤ k then (k : Int) - n else k
    asrC (mulC (nth out k Cplx.zero) (slopeTwiddle k' u.fftAdv n)) 17
  ((List.range (12 * u.nprb)).map fun m => nth flat ((m + n - 6 * u.nprb % n) % n) Cplx.zero, (raw.map (satHitsC 16)).sum)

/-! ## Combining (R170, R171, R172) -/

/-- The accepted uplink control sections of a carrier that cover a symbol. -/
def State.ulCtrls (s : State) (c sym : Nat) : List CtrlSec :=
  s.ctrlSecs.filter fun x => x.ul && (s.flow x.flow).carrier == c && x.syms.contains sym

/-- A path's term of a layer and PRB is removed for a parity error (R171). -/
def ulHits (e : UlParity) (p f l b : Nat) : Bool :=
  match e with
  | .weight p' f' l' b' => p' == p && f' == f && l' == l && b' == b
  | .bin p' b' => p' == p && b' == b

/-- A half's partial sum of a layer on a PRB: twelve values (R170). -/
def State.partialSum (s : State) (h : Nat) (u : UlCarrier) (c : CtrlSec) (j l b sym : Nat) (errs : List UlParity)
    (xs : List (Nat × List Cplx)) : List Cplx :=
  (List.range 12).map fun n =>
    asrC (sumC (xs.map fun (p, x) =>
      if errs.any fun e => ulHits e p c.flow l b then Cplx.zero
      else
        let w := s.weight h c j p b sym
        mulC (if u.conj then conjC w else w) (nth x (12 * b + n) Cplx.zero))) (15 + u.combShift)

/-- A half's coded partial sums of a symbol (R172). -/
def State.codedSums (s : State) (h : Nat) (u : UlCarrier) (cs : List CtrlSec) (sym : Nat) (errs : List UlParity)
    (xs : List (Nat × List Cplx)) : List PartSum :=
  cs.flatMap fun c => c.body.layers.zipIdx.flatMap fun (l, j) =>
    (List.range c.numPrb).map fun i =>
      let b := c.startPrb + i
      let z := s.partialSum h u c j l b sym errs xs
      let e := prbExp 16 z
      ⟨c.flow, sym, h, l, b, e, z.map fun v => asrC v e⟩

/-- UL_SATURATE is due (R176). -/
def State.evalUlSat (s : State) (h : Nat) : State :=
  let g := tget (fun _ => [0, 0, 0]) s.ulSat h
  let ok := match (s.rate Ev.UL_SATURATE h).last with
    | some t => decide (t + 4915200 ≤ s.time.now)
    | none => true
  if s.on Rg.UL_CFG_SAT_EVT && !(g.sum == 0) && ok then
    { s with ulSat := tset (fun _ => [0, 0, 0]) s.ulSat h [0, 0, 0] }.raiseOnce h Ev.UL_SATURATE h 4915200 g
  else s

/-! ## Sounding (R194, R195, R196) -/

/-- Comb of a code, and its n_cs_max (Table 53). -/
def combOf (c : Nat) : Nat × Nat := match c with
  | 0 => (2, 8)
  | 1 => (4, 12)
  | _ => (8, 6)

/-- floor(65,536 / NR) for comb 2, 4 or 8 (R195). -/
def combGain (c : Nat) : Int := match c with
  | 0 => 2730
  | 1 => 5461
  | _ => 10922

/-- Steps 1 to 3 of R195 for one port, group and symbol; none if the group holds fewer than NR elements. -/
def groupEst (c : SoundSec) (port : Nat × Nat × Nat) (g : Nat) (y : List Cplx) : Option Cplx :=
  let (comb, nmax) := combOf c.body.comb
  let nr := 48 / comb
  let len := 12 * c.numPrb / comb
  let first := (g - c.startPrb / 4) * nr
  if first + nr ≤ len then
    let sum := sumC ((List.range nr).map fun k =>
      let i := first + k
      mulC (nth y (12 * c.startPrb + port.1 + comb * i) Cplx.zero)
        (conjC (soundingSeq len port.2.2 port.2.1 nmax i)))
    let a := asrC sum 15
    some (asrC ⟨a.re * combGain c.body.comb, a.im * combGain c.body.comb⟩ 16)
  else none

/-- Groups that a sounding section covers. -/
def soundGroups (c : SoundSec) : List Nat := (List.range (ceilDiv c.numPrb 4)).map (· + c.startPrb / 4)

/-- The reciprocity factor of a path (R195, R258). -/
def State.recipOf (s : State) (p : Nat) : Cplx := (s.calOf p).recip

/-- A finished estimate (R195 steps 4 and 5, and DIR). -/
def State.finishEst (s : State) (r : SolverRec) (nsym p : Nat) (z : Cplx) : Cplx :=
  let e := satC 16 (asrC z (Nat.log2 nsym))
  if r.uplink then e else satC 16 (asrC (mulC e (s.recipOf p)) 14)

/-- The finished estimates of a port over a section's groups from their sums (R195): a group of too few elements takes the
estimate of the group below it, `below` before the first. -/
def portEst (fin : Cplx → Cplx) (below : Cplx) (l : List (Option Cplx)) : List Cplx :=
  (l.foldl (fun (a : List Cplx × Cplx) z =>
    let e := match z with
      | some z => fin z
      | none => a.2
    (e :: a.1, e)) ([], below)).1.reverse

/-- Sums of two symbols, group by group. -/
def addEst (a b : List (Option Cplx)) : List (Option Cplx) :=
  (a.zip b).map fun (x, y) => match x, y with
    | some x, some y => some (addC x y)
    | _, _ => none

/-- One symbol of a sounding section on a path: its sums grow, and after the section's last symbol its estimates enter its
occasion, in place of those of an earlier section (R193). -/
def State.soundPath (s : State) (r : SolverRec) (c : SoundSec) (last : Bool) (p : Nat) (y : List Cplx) : State :=
  s.mapSolv c.flow fun v =>
    c.body.ports.zipIdx.foldl (fun v (port, k) =>
      let key := p * 16 + k
      let slot := c.no * 1024 + key
      let at_ (g : Nat) : Nat := (c.occ * 1024 + key) * 69 + g
      let now := (soundGroups c).map fun g => groupEst c port g y
      let sums := match tget (fun _ => []) v.acc slot with
        | [] => now
        | old => addEst old now
      if last then
        let below := (tget (fun _ => (0, Cplx.zero)) v.cur (at_ (c.startPrb / 4 - 1))).2
        { v with
          acc := tset (fun _ => []) v.acc slot []
          cur := ((soundGroups c).zip (portEst (s.finishEst r c.syms.length p) below sums)).foldl (fun t (g, z) =>
            if c.no < (tget (fun _ => (0, Cplx.zero)) t (at_ g)).1 then t
            else tset (fun _ => (0, Cplx.zero)) t (at_ g) (c.no, z)) v.cur }
      else { v with acc := tset (fun _ => []) v.acc slot sums }) v

/-- A half has worked on a section. -/
def SoundMark.isDone (x : SoundMark) (h : Nat) : Bool := if h = 0 then x.done0 else x.done1

/-- Note that a half has worked on a section, whose last symbol started at `sym` and ended at a tick. -/
def SoundMark.mark (x : SoundMark) (h sym : Nat) (tick : Int) : SoundMark :=
  if h = 0 then { x with done0 := true, at_ := sym, tick := tick } else { x with done1 := true, at_ := sym, tick := tick }

/-- An occasion is complete on a half (R193): its FINAL section has come and the half has worked on all its sections. -/
def SolvSt.occDone (v : SolvSt) (h occ : Nat) : Bool :=
  decide (occ < v.rxOcc) && v.secs.all fun x => !(x.occ == occ) || x.isDone h

/-- The last symbol of an occasion: its start and the tick of its end. -/
def SolvSt.occEnd (v : SolvSt) (occ : Nat) : Nat × Int :=
  (v.secs.filter fun x => x.occ == occ).foldl (fun a x => if a.2 < x.tick then (x.at_, x.tick) else a) (0, 0)

/-- The occasion is complete on a half (R193): its usable paths take its estimates, the others keep what they had
(R196). -/
def State.endOccasion (s : State) (h : Nat) (c : SoundSec) : State :=
  let good := (halfPaths h).filter fun p => s.pathIn p && !(s.solvSt c.flow).bad.contains (c.occ * 64 + p)
  let mine (key : Nat) : Bool := key / 1024 == c.occ && key % 1024 / 512 == h
  let n := ((s.solvSt c.flow).cur.filter fun e => mine (e.1 / 69)).length
  let s := if (s.flow c.flow).half = h then s else s.d2dPush h (.estimates c.flow) (32 * n)
  s.mapSolv c.flow fun v =>
    let old := v.est
    let oldTick := v.estTick
    let (at_, endTick) := v.occEnd c.occ
    let est := v.cur.foldl (fun t e =>
      let key := e.1 / 69
      if mine key && good.contains (key % 1024 / 16) then
        let l := match tget (fun _ => []) t (key % 1024) with
          | [] => List.replicate 69 Cplx.zero
          | l => l
        tset (fun _ => []) t (key % 1024) (setNth l (e.1 % 69) e.2.2)
      else t) v.est
    { v with
      est := est
      estTick := good.foldl (fun t p => tset (fun _ => none) t p (some endTick)) v.estTick
      old := joinHalves h (old.filter fun e => e.1 / 512 == h) (v.old.filter fun e => !(e.1 / 512 == h))
      oldTick := joinHalves h (oldTick.filter fun e => e.1 / 32 == h) (v.oldTick.filter fun e => !(e.1 / 32 == h))
      cur := v.cur.filter fun e => !mine (e.1 / 69)
      bad := v.bad.filter fun k => !(k / 64 == c.occ && k % 64 / 32 == h)
      secs := v.secs.filter fun x => decide (c.occ ≤ x.occ + 4)
      occ := if (s.flow c.flow).half = h then some at_ else v.occ
      occTick := if (s.flow c.flow).half = h then endTick else v.occTick
      occK := if (s.flow c.flow).half = h then c.body.ports.length else v.occK
      freshOcc := v.freshOcc || (s.flow c.flow).half == h }

/-- A half's sounding work on a symbol: `ys` holds the FFT outputs of its paths, `bad` the paths whose samples cannot be
used. -/
def State.sound (s : State) (h carrier sym : Nat) (endTick : Int) (ys : List (Nat × List Cplx)) (bad : List Nat) : State :=
  (s.soundSecs.filter fun c => (s.flow c.flow).carrier == carrier && c.syms.contains sym).foldl (fun s c =>
    match s.solver c.flow with
    | some r =>
      let last := c.syms.getLast? == some sym
      let s := s.mapSolv c.flow fun v =>
        { v with bad := (bad.map fun p => c.occ * 64 + p) ++ v.bad.filter fun k => !(bad.contains (k % 64) && k / 64 == c.occ) }
      let s := ys.foldl (fun s (p, y) => s.soundPath r c last p y) s
      let s := if last then
          s.mapSolv c.flow fun v => { v with secs := v.secs.map fun x => if x.no = c.no then x.mark h sym endTick else x } else s
      if last && (s.solvSt c.flow).occDone h c.occ then s.endOccasion h c else s
    | none => s) s

/-! ## The window -/

/-- Drop what is held for uplink symbols of a carrier long past, whose sections have been sent (R118). -/
def State.purgeUl (s : State) (c sym : Nat) : State :=
  let old (f : Nat) (l : List Nat) : Bool := (s.flow f).carrier == c && l.all fun x => atLeastUs (ahead x sym) 1000
  { s with ctrlSecs := s.ctrlSecs.filter fun x => !(x.ul && old x.flow x.syms)
           soundSecs := s.soundSecs.filter fun x => !old x.flow x.syms
           parts := s.parts.filter fun x => !old x.flow [x.sym] }

/-- Parity errors met while combining are counted, and handled by the rule of the memory (R171, R188, R203). -/
def State.ulParityErr (s : State) (h : Nat) (cs : List CtrlSec) (e : UlParity) : State :=
  let s := s.bump (Rg.C_UL_PARITY h) 1
  match e with
  | .weight _ f l b =>
    match cs.find? fun c => c.flow == f && c.body.layers.contains l && decide (c.startPrb ≤ b) && decide (b < c.startPrb + c.numPrb) with
    | some c =>
      if c.body.mode = 0 then s.rowFault h (nth c.body.refs (c.body.layers.idxOf l) 0)
      else if c.body.mode = 2 then s.bump (Rg.C_SOLVER_PARITY (s.flow c.body.sflow).half) 1 else s
    | none => s
  | .bin _ _ => s

/-- A sample of a path's uplink elastic buffer shows a parity error (R171, R481). -/
def State.ulSampleParity (s : State) (x : UlRx) : State :=
  match x.parity with
  | some loc =>
    let (perm, s) := s.memParity 2 (x.path.val / 32) (x.path.val * 65536 + loc)
    if perm then s.retirePath x.path.val 7 else s
  | none => s

/-- A path's samples cannot be used for a symbol although its buffer holds them (R171, R281, R471). -/
def State.ulGap (s : State) (p : Nat) (x : Option UlRx) : Bool :=
  (match x with
    | some x => x.parity.isSome
    | none => false) || s.sliceMuted p || !s.groupRun (p / 8) || !s.loReady (p / 8)

/-- A path stepped its gain within a symbol (R196). -/
def State.sprinted (s : State) (p : Nat) (endTick : Int) (len : Nat) : Bool :=
  (s.rx p).sprintTicks.any fun t => decide (endTick ≤ (t : Int) + len) && decide ((t : Int) < endTick)

/-- One path's window (R169): its FFT, with the saturations counted; none if its samples cannot be used. The buffer gives up
what the window has passed. -/
def State.pathWindow (s : State) (h c sym : Nat) (u : UlCarrier) (rx : List UlRx) (p : Nat) : Option (List Cplx) × State :=
  let x := rx.find? fun x => x.path.val == p
  let s := match x with
    | some x => s.feed p x.run
    | none => s
  let start := (sym + cpTicks u.scs sym - u.fftAdv * ratio u.log2n u.scs) % Config.ticksPerCycle
  let w := if s.ulGap p x then none else (s.rx p).window c start (2 ^ u.log2n)
  let s := s.mapRx p fun r => r.drain c ((sym + symTicks u.scs sym) % Config.ticksPerCycle)
  match w with
  | some l =>
    let (b, fs) := ulBins u l
    (some b, s.ulSats h fs 0)
  | none => (none, s)

/-- A half's sums of a symbol alone, as in split mode or past the cut-off (R29, R173, R498): layer, PRB, values. -/
def State.soleSum (s : State) (f sym h : Nat) : List (Nat × Nat × List Cplx) :=
  (s.parts.filter fun x => x.flow == f && x.sym == sym && x.half == h).map fun x =>
    (x.layer, x.prb, x.res.map fun z => satC 16 (shlC z x.e))

/-- Saturated components of a half's sums alone. -/
def State.soleSat (s : State) (f sym h : Nat) : Nat :=
  ((s.parts.filter fun x => x.flow == f && x.sym == sym && x.half == h).map fun x =>
    (x.res.map fun z => satHitsC 16 (shlC z x.e)).sum).sum

/-- The owning half, or in split mode a half, takes its own sums alone with PARTIAL. -/
def State.takeSole (s : State) (f sym h : Nat) (part : Bool) : State :=
  let res := s.soleSum f sym h
  if res = [] then s
  else
    let s := s.ulSats h 0 (s.soleSat f sym h)
    ({ s with
      sums := s.sums ++ [({ flow := f, sym := sym, half := h, partial_ := part, res := res } : SumSym)]
      parts := s.parts.filter fun x => !(x.flow == f && x.sym == sym && x.half == h) }).evalUlSat h

/-- A half's coded sums of a symbol; those of flows that the other half owns cross to it, 388 bits for a PRB (R172, Table 5). -/
def State.addParts (s : State) (h sym : Nat) (l : List PartSum) : State :=
  ((l.map (·.flow)).eraseDups.filter fun f => !((s.flow f).half == h)).foldl
    (fun s f => s.d2dPush h (.sums f sym) (388 * (l.filter fun x => x.flow == f).length)) { s with parts := s.parts ++ l }

/-- R164 to R172, R194 to R196, R471: a symbol's window on a half. -/
def execUlSymbolWindow (h : Half) (c : CarrierNo) (sym : Nat) (rx : List UlRx) (errs : List UlParity) (s : State) :
    Host.Outcome State Fault Refusal :=
  let h := h.val
  let c := c.val
  let s := s.purgeUl c sym
  let u := s.ulAt c sym
  let cs := s.ulCtrls c sym
  let len := symTicks u.scs sym
  if !u.en || !s.carries || s.pathCount = 0 || (h = 1 && s.pathCount ≤ 32) then .next s
  else if s.dom h 0 ≠ 0 ∨ s.arrDown h then
    .next (((cs.map (·.flow)) ++ ((s.soundSecs.filter fun x => (s.flow x.flow).carrier == c && x.syms.contains sym).map (·.flow))).foldl
      (fun s f => if (s.flow f).half = h then s.mapFlow f fun y => { y with late := inc32 y.late 1 } else s) s)
  else
    let (ys, gaps, s) := ((halfPaths h).filter fun p => s.pathIn p).foldl
      (fun (a : List (Nat × List Cplx) × List Nat × State) p =>
        let (w, s) := a.2.2.pathWindow h c sym u rx p
        match w with
        | some b => (a.1 ++ [(p, b)], a.2.1, s)
        | none => (a.1, a.2.1 ++ [p], s)) ([], [], s)
    let s := s.bump (Rg.C_UL_GAP h) gaps.length
    let s := (rx.filter fun x => x.path.val / 32 == h).foldl (fun s x => s.ulSampleParity x) s
    let outside := !s.touches 1 sym len
    let s := if outside then s.bump (Rg.C_UL_IN_TX h) ((halfPaths h).filter fun p => s.pathIn p).length else s
    let s := s.countZero h (s.zeroRefs h cs sym)
    let s := s.addParts h sym (s.codedSums h u cs sym errs (if outside then [] else ys))
    let s := errs.foldl (fun s e => s.ulParityErr h cs e) s
    let endTick := s.tickOf ((sym + len) % Config.ticksPerCycle)
    let bad := gaps ++ ((halfPaths h).filter fun p => s.sprinted p endTick len)
      ++ errs.filterMap fun e => match e with
        | .bin p _ => some p
        | .weight _ _ _ _ => none
    let s := s.sound h c sym endTick ys bad
    let s := if s.split then
        (cs.map (·.flow)).eraseDups.foldl (fun s f => s.takeSole f sym h true) s else s
    .next (s.evalUlSat h)

/-- A half carries paths and so takes part in the sums (R173). -/
def State.sumHalf (s : State) (h : Nat) : Bool := h == 0 || decide (32 < s.pathCount)

/-- Both halves' sums of a layer and PRB added (R173): the values and the saturated components. -/
def addSums (a b : PartSum) : List Cplx × Nat :=
  let l := (a.res.zip b.res).map fun (x, y) => addC (shlC x a.e) (shlC y b.e)
  (l.map (satC 16), (l.map (satHitsC 16)).sum)

/-- R173: the owning half adds the coded sums once the other half's have crossed; a configuration without paths on H1 waits for H0's alone. -/
def execUlPartialSumsReady (f : FlowNo) (sym : Nat) (s : State) : Host.Outcome State Fault Refusal :=
  let f := f.val
  let own := (s.flow f).half
  let of (h : Nat) := s.parts.filter fun x => x.flow == f && x.sym == sym && x.half == h
  if s.split then .next s
  else if !s.sumHalf 1 then
    let res := s.soleSum f sym 0
    if res = [] then .next s
    else
      let s := s.ulSats own 0 (s.soleSat f sym 0)
      .next (({ s with sums := s.sums ++ [({ flow := f, sym := sym, half := own, partial_ := false, res := res } : SumSym)]
                       parts := s.parts.filter fun x => !(x.flow == f && x.sym == sym) }).evalUlSat own)
  else if of 0 = [] ∨ of 1 = [] ∨ s.d2dHas (1 - own) (.sums f sym) then .next s
  else
    let pairs := (of 0).filterMap fun a => ((of 1).find? fun b => b.layer == a.layer && b.prb == a.prb).map fun b => (a, b)
    let sums := pairs.map fun (a, b) => (a.layer, a.prb, (addSums a b).1)
    let s := s.ulSats own 0 ((pairs.map fun (a, b) => (addSums a b).2).sum)
    .next (({ s with sums := s.sums ++ [({ flow := f, sym := sym, half := own, partial_ := false, res := sums } : SumSym)]
                     parts := s.parts.filter fun x => !(x.flow == f && x.sym == sym) }).evalUlSat own)

/-- R29, R173: at the cut-off without the other half's sums, the owning half goes on alone with PARTIAL. -/
def execPartialSumCutoff (f : FlowNo) (sym : Nat) (s : State) : Host.Outcome State Fault Refusal :=
  let own := (s.flow f.val).half
  if s.split || !s.sumHalf 1 then .next s else .next (s.takeSole f.val sym own true)

end Sys2Proof.Machine
end

