-- ==== Sys2Proof/Machine/Measure.lean ====
section
/-! DEFINITION. The measurements of path calibration (R241 to R247, R258): combs, responses, their fit, the combiner record's
branches, the references and what follows from them for each path's corrections. -/

namespace Sys2Proof.Machine

/-! ## Angles and levels -/

/-- The largest angle in 2^-32 of a turn, from `a` on and below half a turn, by bits, that does not pass the direction of a number
of the upper half plane. -/
def angleBits (z : Cplx) : Nat → Nat → Nat
  | 0, a => a
  | k + 1, a =>
    let b := a + 2 ^ k
    let (c, s) := cosSin b (2 ^ 32)
    if 0 ≤ c * z.im - s * z.re then angleBits z k b else angleBits z k a

/-- The angle of a number in 2^-32 of a turn, rounded down; 0 for zero. -/
def angleQ32 (z : Cplx) : Nat :=
  if z = Cplx.zero then 0
  else if 0 < z.im ∨ (z.im = 0 ∧ 0 < z.re) then angleBits z 31 0
  else 2 ^ 31 + angleBits ⟨-z.re, -z.im⟩ 31 0

/-- A phase in 0.001 degree brought within half a turn of zero. -/
def halfTurn (a : Int) : Int := (a + 180000) % 360000 - 180000

/-- The angle of a number in 0.001 degree. -/
def angleMilli (z : Cplx) : Int := halfTurn ((angleQ32 z * 360000 / 2 ^ 32 : Nat) : Int)

/-- 10 log10 of a ratio of two positive numbers in 0.001 dB, rounded down. -/
def ratioMilliDb (a b : Nat) : Int := ((log2Q48 a : Int) - log2Q48 b) * (10000 * lg2Q60) / 2 ^ 108

/-- A correction's gain in 0.001 dB over `one`, and its phase; zero gives neither. -/
def levelOf (z : Cplx) (one : Nat) : Int × Int :=
  if z = Cplx.zero then (0, 0) else (ratioMilliDb (sqMag z) (one * one), angleMilli z)

/-- A correction of a gain in 0.001 dB over `one` and a phase in 0.001 degree, truncated. -/
def ofLevel (one : Int) (gain phase : Int) : Cplx := rotGain ⟨one, 0⟩ gain phase

/-- The mean of levels in 0.001 dB, taken in magnitude. -/
def meanLevel (l : List Int) : Int :=
  if l = [] then 0 else ratioMilliDb ((l.map fun g => pow10 g 20000).sum ^ 2) ((l.length * 2 ^ 60) ^ 2)

/-- The circular mean of phases in 0.001 degree. -/
def meanPhase (l : List Int) : Int :=
  angleMilli (sumC (l.map fun a =>
    let (c, s) := cosSin (a % 360000).toNat 360000
    ⟨c, s⟩))

/-! ## Combs (R244) -/

/-- The frequency of tone `n` of 100 in units of 480 kHz: TX by the path's position in its group, RX. -/
def toneOf (rx : Bool) (p n : Nat) : Int := (if rx then 1 else (p % 8 : Nat)) + 8 * ((n : Int) - 50)

/-- A TX comb at the input of stage 1 over one period of 1,024 samples: 100 tones that together lie HEAT_LVL dB below the
configured level (R253). -/
def State.txComb (s : State) (p : Nat) : List Cplx :=
  let w := ((List.range 1024).map fun i => cosSin i 1024).toArray
  let a := isqrtFrom 45 0 (32767 * 32767 * s.powerSum s.time.count * pow10 (-(s.f Rg.CAL_CFG_HEAT_LVL : Int)) 10 / (100 * 2 ^ 108))
  (List.range 1024).map fun (k : Nat) =>
    let z := sumC ((List.range 100).map fun n =>
      let (c, si) := w.getD ((toneOf false p n * k) % 1024).toNat (0, 0)
      let (pc, ps) := cosSin (Config.combPhase n % 2 ^ 32) (2 ^ 32)
      mulC ⟨c, si⟩ ⟨pc, ps⟩)
    satC 16 ⟨asr (z.re * a) 116, asr (z.im * a) 116⟩

/-- What the slice makes of its TX comb: it enters stage 1 and passes every correction in effect and the bank in service. -/
def State.combDac (s : State) (p : Nat) : List Cplx := (s.slice p s.time.count 1024 (s.txComb p)).dac

/-- The stage-5 outputs of a path at its 0 dB state for the codes of a measurement: the estimates of the DC blocker rest
(R163, R165). -/
def State.rxResponse (s : State) (p : Nat) (codes : List Cplx) : List Cplx :=
  let r := s.rx p
  let z2 := if s.on Rg.UL_CFG_DC_EN then codes.map fun x => (⟨(dcStep 0 true r.dcI x.re).1, (dcStep 0 true r.dcQ x.im).1⟩ : Cplx)
    else codes
  (farrowDown r.df [] ((histories [] z2).map (rxIq r.iq))).map fun z => satC 24 (asrC (mulC z (r.entry 0)) 12)

/-- Samples of a capture: 5,120 at 2,457.6 MSPS; 4,096 codes for as long. -/
def capLen (rx : Bool) : Nat := if rx then 4096 else 5120

/-- The complex response of a capture at a tone, with 30 fractional bits, against its reference (R245). -/
def response (aerial rx : Bool) (p n : Nat) (w : Array (Int × Int)) (l : List Cplx) : Cplx :=
  let t := (toneOf rx p n % (w.size : Int)).toNat
  mulC (asrC (dftSum false w.size w l.zipIdx t) 48) (Config.calRef aerial rx p n)

/-- Phases of the tones unwrapped: each is taken within half a turn of the one before (log 78). -/
def unwrapFrom : Int → List Nat → List Int
  | _, [] => []
  | prev, a :: r =>
    let b := prev + ((a - prev + 2 ^ 31) % 2 ^ 32 - 2 ^ 31)
    b :: unwrapFrom b r

/-- The fit of R245 over responses and their frequencies: least squares of the phase, weighted by the power, and the rms
magnitude. -/
def fitTones (fs : List Int) (hs : List Cplx) : CalTriple :=
  let ph := unwrapFrom ((hs.map angleQ32).headD 0) (hs.map angleQ32)
  let x := (fs.zip (hs.zip ph)).map fun (f, h, a) => ((sqMag h : Int), f, a)
  let sw := (x.map fun (w, _, _) => w).sum
  let sf := (x.map fun (w, f, _) => w * f).sum
  let sff := (x.map fun (w, f, _) => w * f * f).sum
  let sa := (x.map fun (w, _, a) => w * a).sum
  let sfa := (x.map fun (w, f, a) => w * f * a).sum
  let den := sw * sff - sf * sf
  { gain := if sw = 0 then 0 else ratioMilliDb sw.toNat (hs.length * 2 ^ 60)
    phase := halfTurn ((sff * sa - sf * sfa) * 360000 / (den * 2 ^ 32))
    delay := (sf * sa - sw * sfa) * 10 ^ 14 / (den * 480000 * 2 ^ 32) }

/-- A measurement is valid: its capture is whole, and at least 90 of its 100 tones reach an SNR of 55 dB (R245). -/
def measValid (m : CalMeas) : Bool :=
  decide (capLen m.rx ≤ m.samples.length) && decide (90 ≤ ((m.snr.take 100).filter fun x => decide (55 ≤ x)).length)

/-- An over-range code in a path's RX set (R255). -/
def measOvr (m : CalMeas) : Bool := m.rx && m.samples.any fun z => overCode z.re || overCode z.im

/-! ## Planes (R239 to R241) -/

/-- The aerial plane is in force (R240). -/
def State.aerial (s : State) : Bool := s.on Rg.CAL_CFG_PLANE && !s.on Rg.CAL_STAT_PLANE_FALLBACK

/-- The measurement is taken at the plane in force. -/
def State.atPlane (s : State) (m : CalMeas) : Bool := m.onDie == !s.aerial

/-- The combiner's branch of a path at its group's LO (Table 62): gain, phase and delay. -/
def State.branchOf (s : State) (p : Nat) : CalTriple :=
  match s.nvBody 3 0 with
  | some b =>
    let at_ (off n : Nat) : Nat := leNat ((b.drop (8 * p + off)).take n)
    let d := at_ 0 4
    let i := (BitVec.ofNat 16 (at_ 4 2)).toInt
    { gain := -((at_ 6 2 : Nat) : Int), phase := i * 180000 / 2 ^ 15 - ((d * s.loKhz (p / 8) * 360000 / 64000000000 : Nat) : Int)
      delay := ((d * 100 / 64 : Nat) : Int) }
  | none => ⟨0, 0, 0⟩

/-- What the tie adds to the results of a path of H1 (R243): delta_b to TX, delta_a to RX, as (gain, phase). -/
def State.tieOf (s : State) (p : Nat) (rx : Bool) : Int × Int :=
  if p < 32 ∨ !s.on Rg.CAL_CFG_TIE_EN ∨ s.pathCount ≠ 64 ∨ s.split then (0, 0)
  else match s.tie.val with
    | some v => if rx then (nth v 1 0, nth v 0 0) else (nth v 3 0, nth v 2 0)
    | none => (0, 0)

/-- The response of a measurement as fitted (R244, R245): of the capture, or of the stage-5 outputs for a converter's codes. -/
def State.fitted (s : State) (m : CalMeas) : CalTriple :=
  let p := m.path.val
  let l := (m.samples.take (capLen m.rx))
  let l := if m.rx then s.rxResponse p l else l
  let w := ((List.range l.length).map fun i => cosSin i l.length).toArray
  fitTones ((List.range 100).map (toneOf m.rx p)) ((List.range 100).map fun n => response (!m.onDie) m.rx p n w l)

/-- A fitted response at its reference plane: without the combiner's branch, and referred to CT0 (R239, R243). -/
def State.atFeed (s : State) (m : CalMeas) (r : CalTriple) : CalTriple :=
  let b := if m.onDie then ⟨0, 0, 0⟩ else s.branchOf m.path.val
  let t := s.tieOf m.path.val m.rx
  { gain := r.gain - b.gain + t.1, phase := halfTurn (r.phase - b.phase + t.2), delay := r.delay - b.delay }

/-- A path's own delay correction in 0.01 ps: integer part less DF (R247). -/
def corrDelay (adv df : Nat) : Int := ((adv : Int) * 65536 - df) * 39062500 / (65536 * 192)

/-- A path without its inter-path corrections: gain and phase of the stage-2 gain or of the 0 dB entry taken out, its delay
correction put back. -/
def State.bare (s : State) (p : Nat) (rx : Bool) (r : CalTriple) : CalTriple :=
  let (g, a) := if rx then levelOf ((s.rx p).entry 0) 4096 else levelOf (s.tx p).gain 16384
  let d := if rx then corrDelay (s.rx p).dly (s.rx p).df else corrDelay (s.tx p).adv (s.tx p).df
  { gain := r.gain - g, phase := halfTurn (r.phase - a), delay := r.delay + d }

/-- A path's delay from its balls to its antenna feed: what lies between its aerial and its on-die measurement (R241). -/
def CalPath.external (c : CalPath) (rx : Bool) : Option Int :=
  if rx then c.bareRx.map fun t => t.delay - c.innerRx else c.bareTx.map fun t => t.delay - c.innerTx

/-- The smallest external delay among the paths in service (R241); none at the balls' plane. -/
def State.leastExternal (s : State) (rx : Bool) : Int :=
  if !s.aerial then 0
  else ((((List.range 64).filter s.pathIn).filterMap fun p => (s.calOf p).external rx).foldl
    (fun (m : Option Int) d => some (min d (m.getD d))) none).getD 0

/-- The delay correction that a path requires in 0.01 ps (R241, R247): its measured excess over the nominal chain, with its external
delay less the smallest one among the paths in service. -/
def State.neededDelay (s : State) (p : Nat) (rx : Bool) : Int :=
  match (if rx then (s.calOf p).bareRx else (s.calOf p).bareTx) with
  | some t => t.delay - s.leastExternal rx
  | none => 0

/-- A delay in 0.01 ps as an integer number of ticks and a fraction below one tick, held within 0 to 64 ticks: their difference is
the delay (R242, R247). -/
def splitDelay (d : Int) : Nat × Nat :=
  let total := -((-(d * (65536 * 192))) / 39062500)
  let v := if total < 0 then 0 else if 64 * 65536 < total then 64 * 65536 else total.toNat
  let a := (v + 65535) / 65536
  (a, a * 65536 - v)

/-- A delay in 0.01 ps exceeds 64 ticks. -/
def overRange (d : Int) : Bool := decide (64 * 39062500 < d * 192)

/-! ## References and corrections (R247) -/

/-- The paths in service whose response is known, with it. -/
def State.known (s : State) (ps : List Nat) (rx : Bool) : List (Nat × CalTriple) :=
  (ps.filter s.pathIn).filterMap fun p => (if rx then (s.calOf p).bareRx else (s.calOf p).bareTx).map fun t => (p, t)

/-- The references over the paths in service (R247): TX gain is the weakest path's, RX gain the mean, the phases the circular
means of the half. -/
def State.newRefs (s : State) (h : Nat) : State :=
  let all := List.range 64
  let ph (rx : Bool) (old : Int) : Int := match s.known (halfPaths h) rx with
    | [] => old
    | l => meanPhase (l.map fun x => x.2.phase)
  let set (v : Int × Int) (x : Int) : Int × Int := if h = 0 then (x, v.2) else (v.1, x)
  let tx := (s.known all false).map fun x => x.2.gain
  let rx := (s.known all true).map fun x => x.2.gain
  { s with calRefs :=
             { txGain := match tx with
                 | [] => s.calRefs.txGain
                 | g :: r => r.foldl min g
               txPhase := set s.calRefs.txPhase (ph false (if h = 0 then s.calRefs.txPhase.1 else s.calRefs.txPhase.2))
               rxGain := if rx = [] then s.calRefs.rxGain else meanLevel rx
               rxPhase := set s.calRefs.rxPhase (ph true (if h = 0 then s.calRefs.rxPhase.1 else s.calRefs.rxPhase.2)) } }

/-- The references of a path, as (gain, phase). -/
def State.refOf (s : State) (p : Nat) (rx : Bool) : Int × Int :=
  let side (v : Int × Int) : Int := if p < 32 then v.1 else v.2
  if rx then (s.calRefs.rxGain, side s.calRefs.rxPhase) else (s.calRefs.txGain, side s.calRefs.txPhase)

/-- A path's residual (R245): its corrected response against its references, and its delay against the smallest external
delay. -/
def State.residualOf (s : State) (p : Nat) (rx : Bool) (r : CalTriple) : CalTriple :=
  let (g, a) := s.refOf p rx
  { gain := r.gain - g, phase := halfTurn (r.phase - a), delay := r.delay - s.leastExternal rx }

/-- The inter-path values that a foreground heat gives a path (R247): gain, phase and delay; a short heat holds gain and delay
(R250). -/
def State.interPath (s : State) (p : Nat) (full : Bool) : List CalVal :=
  let side (rx : Bool) : List CalVal :=
    match (if rx then (s.calOf p).bareRx else (s.calOf p).bareTx) with
    | none => []
    | some t =>
      let (g, a) := s.refOf p rx
      let one : Nat := if rx then 4096 else 16384
      let old := levelOf (if rx then (s.rx p).entry 0 else (s.tx p).gain) one
      let z := ofLevel one (if full then g - t.gain else old.1) (a - t.phase)
      let (n, df) := splitDelay (s.neededDelay p rx)
      if rx then .rxEntry 0 z :: (if full then [.rxFrac df, .rxDly n] else [])
      else .txGain z :: (if full then [.txFrac df, .txAdv n] else [])
  side false ++ side true

/-! ## Reciprocity (R258) -/

/-- NCO_FREQ of the uplink carrier of the first enabled solver, the centre at which the factors are taken; the LO without one. -/
def State.solverFreq (s : State) : Int :=
  match (List.range 256).find? fun f => (s.solver f).isSome with
  | some f => (s.ul (s.flow f).carrier).ncoFreq
  | none => 0

/-- Gain and phase of a path's ratio r_p (R258), with m10 / m01 for a path of H1. -/
def State.recipRatio (s : State) (p : Nat) : Int × Int :=
  let c := s.calOf p
  let f := s.solverFreq
  let turn (d : Int) : Int := f * d * 360000 * 49152 / (2 ^ 32 * 10 ^ 10)
  let tie := match s.tie.val with
    | some v => if p < 32 then (0, 0) else (nth v 3 0 - nth v 1 0, nth v 2 0 - nth v 0 0)
    | none => (0, 0)
  (c.rawTx.gain - c.rawRx.gain + tie.1, c.rawTx.phase - c.rawRx.phase - turn (c.rawTx.delay - c.rawRx.delay) + tie.2)

/-- A path's reciprocity factor (R258): its ratio over the mean of the ratios of the paths in service; unity without a combiner
branch. -/
def State.recipFactor (s : State) (p : Nat) : Cplx :=
  if !s.hasBranch p then ⟨16384, 0⟩
  else
    let l := ((List.range 64).filter fun q => s.pathIn q && s.hasBranch q).map s.recipRatio
    let r := s.recipRatio p
    satC 16 (ofLevel 16384 (r.1 - meanLevel (l.map (·.1))) (r.2 - meanPhase (l.map (·.2))))

end Sys2Proof.Machine
end

