-- ==== Sys2Proof/Machine/Calibration.lean ====
section
/-! DEFINITION. Path and array calibration (ch. 8): values and their boundaries, judgement of measurements, heats,
background gaps, the tie. -/

namespace Sys2Proof.Machine

/-! ## Values -/

/-- Put a correction into effect at the stage it belongs to (Table 63). -/
def State.applyCal (s : State) (p : Nat) (v : CalVal) : State :=
  match v with
  | .txGain z => s.mapTx p fun t => { t with gain := z }
  | .txFrac n => s.mapTx p fun t => { t with df := n }
  | .txAdv n => s.mapTx p fun t => { t with adv := n }
  | .txIq l => s.mapTx p fun t => { t with iq := l }
  | .txLo z => s.mapTx p fun t => { t with loOff := z }
  | .rxEntry k z => s.mapRx p fun r => { r with table := tset (fun _ => ⟨4096, 0⟩) r.table k (satC 22 z) }
  | .rxFrac n => s.mapRx p fun r => { r with df := n }
  | .rxDly n => s.mapRx p fun r => { r with dly := n }
  | .rxIq l => s.mapRx p fun r => { r with iq := l }
  | .rxTrim z => s.mapRx p fun r => { r with trim := z }
  | .recip z => s.mapCal p fun c => { c with recip := z }
  | .corner t r => s.mapCal p fun c => { c with cornerTx := t, cornerRx := r }

/-- A transmit value. -/
def isTxVal : CalVal → Bool
  | .txGain _ | .txFrac _ | .txAdv _ | .txIq _ | .txLo _ => true
  | _ => false

/-- The boundary of a new value (R249); none for an integer advance or delay. -/
def State.calBoundary (s : State) (v : CalVal) : Option Nat :=
  match v with
  | .txAdv _ | .rxDly _ => none
  | v => some (if isTxVal v then s.nextSwap 20 else s.nextUlSlot 20)

/-- Two values set the same correction. -/
def sameCal : CalVal → CalVal → Bool
  | .txGain _, .txGain _ | .txFrac _, .txFrac _ | .txAdv _, .txAdv _ | .txIq _, .txIq _ | .txLo _, .txLo _ => true
  | .rxFrac _, .rxFrac _ | .rxDly _, .rxDly _ | .rxIq _, .rxIq _ | .rxTrim _, .rxTrim _ => true
  | .rxEntry a _, .rxEntry b _ => a == b
  | .recip _, .recip _ | .corner _ _, .corner _ _ => true
  | _, _ => false

/-- A value computed and not yet in effect replaces one of its kind. -/
def State.pendCal (s : State) (p : Nat) (v : CalVal) (at_ : Option Nat) : State :=
  s.mapCal p fun c => { c with pend := (c.pend.filter fun x => !sameCal x.val v) ++ [⟨v, at_⟩] }

/-- The reciprocity factor of a path is refreshed when both its measurements are new (R258). -/
def State.refreshRecip (s : State) (p : Nat) (at_ : Option Nat) : State :=
  let c := s.calOf p
  if c.newTx && c.newRx then
    (s.mapCal p fun c => { c with newTx := false, newRx := false }).pendCal p (.recip (s.recipFactor p)) at_
  else s

/-- A value that a calibration service gives outside R247 and R258: the device forms those itself. -/
def serviceVal : CalVal → Bool
  | .txGain _ | .txFrac _ | .txAdv _ | .rxFrac _ | .rxDly _ | .recip _ => false
  | .rxEntry k _ => !(k == 0)
  | .txIq _ | .txLo _ | .rxIq _ | .rxTrim _ | .corner _ _ => true

/-- A heat or a background cycle begins: the measurements of a factor come from one of them (R258). -/
def State.freshMeas (s : State) (p : Nat) : State := s.mapCal p fun c => { c with newTx := false, newRx := false }

/-- A transmit or a receive interval of the schedule starts now. -/
def State.intervalBegins (s : State) (tx : Bool) : Bool :=
  let c := s.time.count
  let before := (c + Config.ticksPerCycle - 1) % Config.ticksPerCycle
  let code := if tx then 0 else 1
  s.codeAt c == some code && !(s.codeAt before == some code)

/-- R249: the values of a path whose boundary has come take effect. -/
def execCalValueEffect (p : PathNo) (s : State) : Host.Outcome State Fault Refusal :=
  let p := p.val
  let due (x : CalPend) : Bool := match x.at_ with
    | some c => s.reached c
    | none => s.intervalBegins (isTxVal x.val)
  let l := (s.calOf p).pend.filter due
  let s := s.mapCal p fun c => { c with pend := c.pend.filter fun x => !due x }
  .next (l.foldl (fun s x => s.applyCal p x.val) s)

/-! ## Judgement of measurements (R256) -/

/-- A measurement with what it gives: the fitted response, that at its plane, the residual. -/
structure CalFit where
  meas : CalMeas
  raw : CalTriple
  at_ : CalTriple
  res : CalTriple
deriving DecidableEq, Repr

/-- The fits of a set of measurements. -/
def State.fitSet (s : State) (ms : List CalMeas) : List CalFit :=
  ms.map fun m =>
    let r := s.fitted m
    let a := s.atFeed m r
    ⟨m, r, a, s.residualOf m.path.val m.rx a⟩

/-- A measurement that counts in the set: no over-range code in it, and its group's LO locked (R255). -/
def State.usable (s : State) (m : CalMeas) : Bool := !measOvr m && s.loLockedG (m.path.val / 8)

/-- The mean residual of a measurement's group over the valid measurements of its set in the same direction: gain, phase. -/
def State.groupMean (s : State) (fs : List CalFit) (m : CalMeas) : Int × Int :=
  let l := fs.filter fun f => f.meas.path.val / 8 == m.path.val / 8 && f.meas.rx == m.rx && f.meas.onDie == m.onDie
    && measValid f.meas && s.usable f.meas
  if l = [] then (0, 0) else ((l.map fun f => f.res.gain).sum / l.length, meanPhase (l.map fun f => f.res.phase))

/-- What is wrong with a measurement: 0 nothing, 1 it fails R245, 2 its residual, 3 its gain. -/
def State.judge (s : State) (fs : List CalFit) (f : CalFit) : Nat :=
  let (g, a) := s.groupMean fs f.meas
  let dev := f.res.gain - g
  if !measValid f.meas then 1
  else if 1000 < dev.natAbs ∨ 1000 * s.f Rg.CAL_CFG2_SUSPECT_DEG < (halfTurn (f.res.phase - a)).natAbs then 2
  else if (500 * s.f Rg.CAL_CFG2_RETIRE_DB : Int) < -dev then 3
  else 0

/-- Every path in service of a group shows the same fault in a set of measurements (R256). -/
def State.groupFault (s : State) (fs : List CalFit) (g : Nat) : Bool :=
  let l := (groupPaths g).filter s.pathIn
  let of (p : Nat) : List Nat := (fs.filter fun f => f.meas.path.val == p && s.usable f.meas).map (s.judge fs)
  match l with
  | [] => false
  | p :: _ => (of p).any fun k => !(k == 0) && l.all fun q => (of q).contains k

/-- The required delay correction of a path exceeds 64 ticks (R242); the event gives it in ticks, rounded up. -/
def State.rangeCheck (s : State) (p : Nat) (rx : Bool) : State :=
  let d := s.neededDelay p rx
  if overRange d then
    (s.bump (Rg.C_CAL_RANGE (p / 32)) 1).raise (p / 32) Ev.CAL_RANGE p [ceilDiv (d * 192).toNat 39062500]
  else s

/-- A valid measurement at the plane in force is kept: what the path is without its corrections, residuals, age, the path sensor
then (R241, R247, R254, Table 65). Through the on-die network it also gives the delay up to the balls, through the combiner the
response that the factor takes (R258). -/
def State.keepMeas (s : State) (f : CalFit) : State :=
  let m := f.meas
  let p := m.path.val
  let now := s.time.now
  let t := s.sensTemp (pathSensor p)
  let b := s.bare p m.rx f.at_
  let l := [f.res.gain, f.res.phase, f.res.delay]
  let s := s.mapCal p fun c =>
    if m.onDie then (if m.rx then { c with innerRx := b.delay } else { c with innerTx := b.delay })
    else if m.rx then { c with rawRx := f.raw, newRx := true } else { c with rawTx := f.raw, newTx := true }
  if !s.atPlane m then s
  else s.mapCal p fun c =>
    if m.rx then { c with bareRx := some b, resRx := l, lastRx := some now, temp := t, dueRx := false, putRx := true }
    else { c with bareTx := some b, resTx := l, lastTx := some now, temp := t, dueTx := false, putTx := true }

/-- The verdict on a path for a fault `k` of R256 (0 none): suspect on the first fault and measured again ahead of other
work, retired on the second unless its whole group shows the fault, cleared otherwise. -/
def State.verdict (s : State) (p : Nat) (rx : Bool) (k : Nat) (whole : Bool) : State :=
  if k = 0 then s.mapCal p fun c => { c with suspect := false, prio := c.dueTx || c.dueRx }
  else if !(s.calOf p).suspect then
    ((s.mapCal p fun c => { c with suspect := true, prio := true, dueTx := c.dueTx || !rx, dueRx := c.dueRx || rx }).bump
      (Rg.C_PATH_SUSPECT (p / 32)) 1).raise (p / 32) Ev.PATH_SUSPECT p [k]
  else if whole then s
  else s.retirePath p 1

/-- A path whose corrections are in their safe state (Table 136): a valid measurement ends it; a failed one calls for a
full heat of its group, and within that heat retires the path. -/
def State.corrupted (s : State) (p : Nat) (valid background : Bool) : State :=
  if !s.isSafe 8 p then s
  else if valid then s.clearSafe 8 p
  else if background then s.requireHeat (p / 8) 2 2
  else s.retirePath p 7

/-- One measurement of a set: discarded for over-range or lost lock, else judged and kept (R255, R256). -/
def State.takeMeas (fs : List CalFit) (background : Bool) (s : State) (f : CalFit) : State :=
  let m := f.meas
  let p := m.path.val
  let h := p / 32
  if !s.pathIn p then s
  else if !s.usable m then
    (s.bump (Rg.C_MEAS_DISCARD h) 1).mapCal p fun c => { c with dueTx := c.dueTx || !m.rx, dueRx := c.dueRx || m.rx }
  else
    let whole := s.groupFault fs (p / 8)
    let k := s.judge fs f
    let s := if measValid m then
        ((if background then s.bump (Rg.C_BG_MEAS h) 1 else s).keepMeas f).rangeCheck p m.rx
      else s.bump (Rg.C_MEAS_DISCARD h) 1
    let s := if k = 0 then s else s.mapCal p fun c => if m.rx then { c with putRx := false } else { c with putTx := false }
    (s.corrupted p (measValid m) background).verdict p m.rx k whole

/-- The measurements of a set. -/
def State.takeSet (s : State) (ms : List CalMeas) (background : Bool) : State :=
  let fs := s.fitSet ms
  fs.foldl (State.takeMeas fs background) s

/-! ## The tie (R243) -/

/-- Two tie results differ by more than 1 degree or 0.1 dB. -/
def tieJump (a b : List Int) : Bool :=
  let d (i : Nat) : Nat := (nth a i 0 - nth b i 0).natAbs
  decide (1000 < d 0) || decide (100 < d 1) || decide (1000 < d 2) || decide (100 < d 3)

/-- delta_a and delta_b of a tie measurement, phase and gain of each (R243). -/
def tieDeltas (t : TieMeas) : List Int :=
  let d := (t.m01.1 - t.m10.1, t.m01.2 - t.m10.2)
  let l := (t.l0.1 - t.l1.1, t.l0.2 - t.l1.2)
  [halfTurn (d.1 + l.1) / 2, (d.2 + l.2) / 2, halfTurn (l.1 - d.1) / 2, (l.2 - d.2) / 2]

/-- A tie measurement. -/
def State.takeTie (s : State) (t : TieMeas) : State :=
  if !s.on Rg.CAL_CFG_TIE_EN || !(s.pathCount == 64) || s.split then s
  else
    let v := tieDeltas t
    let jump : Bool := match s.tie.last with
      | some o => tieJump v o
      | none => false
    let old := s.tie
    if t.snr < 50 ∨ jump then
      let n := old.fails + 1
      let s := { s with tie := { old with last := some v, fails := n } }.bump (Rg.C_TIE_FAIL 0) 1
      if n = 3 then (s.setF Rg.CAL_STAT_TIE_OK 0).raise 0 Ev.TIE_LOST 0 [n] else s
    else { s with tie := { val := some v, last := some v, fails := 0 } }.setF Rg.CAL_STAT_TIE_OK 1

/-! ## Foreground heats -/

/-- The paths of a group enter or leave a front-end state for the heat. -/
def State.groupFe (s : State) (g st : Nat) : State :=
  (groupPaths g).foldl (fun s p => if s.pathIn p then s.feTo p st else s) s

/-- A heat reaches a step: its aerial-plane TX step drives the group's TX enables (R250). -/
def State.heatStep (s : State) (g n : Nat) : State :=
  let s := s.updGroup g fun x => { x with step := n }
  if s.aerial then s.groupFe g (if n = 6 then 3 else 0) else s

/-- R250, R251, R257: a foreground heat of a group starts, of the kind required: its paths go OFF. A group held without
AUTO_FG waits for HEAT_RUN. -/
def execHeatStart (g : GroupNo) (s : State) : Host.Outcome State Fault Refusal :=
  let g := g.val
  let x := s.group g
  if !s.groupIn g || !s.groupRun g || x.need = 0 || x.heat ≠ 0 || x.script || !s.loLockedG g || (x.held && !s.inHeatRun g) then .next s
  else
    let s := s.groupOff g 2
    let s := s.bump (if x.need = 2 then Rg.C_HEAT_FG (g / 4) else Rg.C_HEAT_SHORT (g / 4)) 1
    let s := s.setBit Rg.CAL_STAT_FG_GROUPS g true
    let s := s.updGroup g fun y => { y with heat := y.need, need := 0, drift := y.drift && !(y.need == 2) }
    let s := (groupPaths g).foldl State.freshMeas s
    .next (s.heatStep g (if x.need = 2 then 1 else 6))

/-- The TX sets of a group's paths cross the balls: the comb of each through its slice (R244). -/
def State.sendCombs (s : State) (ms : List CalMeas) : State :=
  let ps := ((ms.filter fun m => !m.rx).map fun m => m.path.val).eraseDups.filter s.pathIn
  ps.foldl (fun s p => s.emit (.txSamples p s.time.count (some (s.combDac p)))) s

/-- R250: a step of a group's heat ends: its measurements are taken in step 6; step 8 forms the references, inter-path values and
factors and gives them, with what the calibration service has found in the other steps, to the group. A short heat measures phase
only. -/
def execHeatStepDone (g : GroupNo) (step : Nat) (res : List CalMeas) (vals : List (PathNo × CalVal)) (tie : Option TieMeas)
    (s : State) : Host.Outcome State Fault Refusal :=
  let g := g.val
  let x := s.group g
  if x.heat = 0 ∨ x.step ≠ step ∨ 8 < step then .next s
  else
    let ms := if step = 6 then res.filter fun m => m.path.val / 8 == g else []
    let s := if ms = [] then s else ((s.bump (Rg.C_SVC_CAPTURES (g / 4)) 1).sendCombs ms).takeSet ms false
    let s := if x.heat = 2 then
        (vals.filter fun v => v.1.val / 8 == g && serviceVal v.2).foldl (fun s v => s.pendCal v.1.val v.2 none) s else s
    let s := match tie with
      | some t => if step = 7 then s.takeTie t else s
      | none => s
    let s := if step = 8 then
        (groupPaths g).foldl (fun s p =>
          if s.pathIn p then
            ((s.interPath p (x.heat == 2)).foldl (fun s v => s.pendCal p v none) s).refreshRecip p none
          else s) (s.newRefs (g / 4)) else s
    .next (s.heatStep g (step + 1))

/-- A path's corrections in effect, as a calibration set stores them (R252). -/
def State.calValues (s : State) (p : Nat) : List (Nat × CalVal) :=
  let t := s.tx p
  let r := s.rx p
  let c := s.calOf p
  let l : List CalVal := [.txGain t.gain, .txFrac t.df, .txAdv t.adv, .txIq t.iq, .txLo t.loOff, .rxFrac r.df,
    .rxDly r.dly, .rxIq r.iq, .rxTrim r.trim, .recip c.recip, .corner c.cornerTx c.cornerRx]
  (l ++ r.table.map (fun e => CalVal.rxEntry e.1 e.2)).map fun v => (p, v)

/-- A full heat stores the group's set for the hop entry in use, in place of an older one (R252). -/
def State.storeSet (s : State) (g : Nat) (temp : Int) : State :=
  match (s.group g).entry with
  | some e =>
    let x : CalSet :=
      { group := g, entry := e, at_ := s.time.count, tick := s.time.now, temp := temp
        vals := (groupPaths g).flatMap fun p => if s.pathIn p then s.calValues p else [] }
    { s with calSets := x :: s.calSets.filter fun y => !(y.group == g && y.entry == e) }
  | none => s

/-- R252, R260: a group's heat completes: its results are applied, a full heat stores them, and the group may be ready.
A group held without AUTO_FG is released by HEAT_RUN (R251). -/
def execHeatComplete (g : GroupNo) (temp : Int) (s : State) : Host.Outcome State Fault Refusal :=
  let g := g.val
  let x := s.group g
  if x.heat = 0 ∨ x.step ≠ 9 then .next s
  else
    let s := (groupPaths g).foldl (fun s p =>
      ((s.calOf p).pend.foldl (fun s v => s.applyCal p v.val) s).mapCal p fun c => { c with pend := [] }) s
    let s := if x.heat = 2 then s.storeSet g temp else s
    let run := s.inHeatRun g
    let s := s.setBit Rg.CAL_STAT_FG_GROUPS g false
    let s := s.updGroup g fun y => { y with heat := 0, step := 0, held := y.held && !run }
    .next (s.heatRunLeave g true)

/-! ## Background heats -/

/-- The lines of a gap's sets: the measured groups go through HEAT_TX, then every path of the half through HEAT_RX
(R253, Table 76). -/
def State.gapLines (s : State) (h : Nat) (ms : List CalMeas) : State :=
  let gs := ((ms.filter fun m => !m.rx).map fun m => m.path.val / 8).eraseDups
  let s := gs.foldl (fun s g => (groupPaths g).foldl (fun s p =>
    let st := (s.fep p).state
    if s.pathIn p && (st == 0 || st == 1 || st == 3) then (s.feTo p 3).feTo p 0 else s) s) s
  if ms.any fun m => m.rx then
    (halfPaths h).foldl (fun s p => if s.pathIn p && (s.fep p).state == 0 then (s.feTo p 4).feTo p 0 else s) s
  else s

/-- R253 to R256: a gap serves its TX sets, its RX set and the tie. -/
def execBackgroundGap (h : Half) (w : GapWork) (s : State) : Host.Outcome State Fault Refusal :=
  if !s.on Rg.CAL_CFG_BG_EN || s.schedule.isNone then .next s
  else if s.exclArmed h.val then .next (s.bump (Rg.C_SVC_WAIT h.val) 1)
  else
    let ms := w.meas.filter fun m => m.path.val / 32 == h.val
    let s := s.sendCombs ms
    let sets := (ms.filterMap fun m => if m.rx then none else some (m.path.val / 8)).eraseDups.length + b2n (ms.any (·.rx))
    let s := (s.gapLines h.val ms).bump (Rg.C_SVC_CAPTURES h.val) sets
    let s := s.takeSet ms true
    .next (match w.tie with
      | some t => s.takeTie t
      | none => s)

/-- R254: a cycle starts: what the last one could not place is late, and every path in service falls due for one TX and
one RX measurement. -/
def execBackgroundCycle (h : Half) (s : State) : Host.Outcome State Fault Refusal :=
  if !s.on Rg.CAL_CFG_BG_EN then .next s
  else
    let ps := (halfPaths h.val).filter fun p => s.pathIn p && s.groupRun (p / 8)
    let late := (ps.map fun p => b2n (s.calOf p).dueTx + b2n (s.calOf p).dueRx).sum
    let s := s.bump (Rg.C_BG_LATE h.val) late
    .next (ps.foldl (fun s p =>
      (s.paceStart 0 p).mapCal p fun c => { c with dueTx := true, dueRx := true, newTx := false, newRx := false }) s)

/-- A path's last valid measurement is older than 100 ms (R254). -/
def State.stale (s : State) (p : Nat) : Bool :=
  let c := s.calOf p
  decide (max (c.lastTx.getD 0) (c.lastRx.getD 0) + 49152000 < s.time.now)

/-- R254. -/
def execCalStaleCheck (h : Half) (s : State) : Host.Outcome State Fault Refusal :=
  let h := h.val
  let m := maskNat 32 fun i => s.pathIn (32 * h + i) && s.stale (32 * h + i)
  .next (if m = 0 then s else s.raise h Ev.CAL_STALE h [m])

end Sys2Proof.Machine
end

