-- ==== Sys2Proof/Machine/Clocks.lean ====
section
/-! DEFINITION. Reference, synthesisers and logic clocks (ch. 9): the reference PLL's states, coast, slew and step, hops,
locks and unlocks. -/

namespace Sys2Proof.Machine

/-! ## The counter moves with the outputs -/

/-- Shift the outputs and the air-time counter by a time in ps (R269, R270, R452). -/
def State.shiftTime (s : State) (ps : Int) : State :=
  let total := (s.time.subPs + ps) * 192
  let ticks := total / 390625
  s.mapTime fun t =>
    { t with
      subPs := (total - ticks * 390625) / 192
      count := (((t.count : Int) + ticks) % (Config.ticksPerCycle : Int)).toNat }

/-- Put U into SU_AT_STAT (R455). -/
def State.setUnc (s : State) (u : Nat) : State := s.setF Rg.AT_STAT_UNC (min u 65534)

/-- A hold of R455 ends when a correction has brought U within U_max. -/
def State.endHold (s : State) : State :=
  if s.time.txHeld && !s.tooUncertain then s.mapTime fun t => { t with txHeld := false } else s.evalHold

/-- A correction from a SET (1) or a TSYNC pulse (2) is complete (R452, R455). -/
def State.corrected (s : State) : State := (s.setUnc 2).endHold

/-- Every path in service is muted from a slot's start (R270). -/
def State.muteAll (s : State) : State :=
  (List.range 64).foldl (fun s p => if s.pathIn p then s.mapTx p fun t => { t with mute := true } else s) s

/-- Units that hold a lock for a group: serving ones, and the spares in standby. -/
def State.loUnits (s : State) : List Nat :=
  (List.range 10).filter fun n => !(s.raw (Rg.LO_STAT_STATE n) == 5)

/-- Every synthesiser re-closes its loop with stored results at the entry in use (R270, R272). -/
def State.relockAll (s : State) : State :=
  s.loUnits.foldl (fun s n =>
    match (s.group (s.loGroup n)).entry with
    | some e => if s.raw (Rg.LO_STAT_STATE n) = 0 then s else s.startLo n e
    | none => s) s

/-- A short heat of every group in service is required (Table 65). -/
def State.shortHeats (s : State) (why : Nat) : State := s.groupsIn.foldl (fun s g => s.requireHeat g 1 why) s

/-- Count a return of the reference in the half that leads it, and in H1 while it locks to REFCLK itself (R292). -/
def State.bumpRef (s : State) (x : Nat → Fld) : State :=
  let s := s.bump (x 0) 1
  if s.on Rg.REF_STAT_LINK_FAIL then s.bump (x 1) 1 else s

/-- The step of R270 at the mute slot that starts now and lasts `len` ticks; none muted when `len` is 0. -/
def State.timeStep (s : State) (j : Int) (len : Nat) : State :=
  let start := s.time.count
  let s := if len = 0 then s else { s.muteAll with ref := { s.ref with muteAt := none, muteFrom := some (start, len) } }
  let at_ := atimeWord (stampOf s.muRef start)
  let s := (s.relockAll.shiftTime j).shortHeats 2
  let s := { s with ref := { s.ref with jump := 0, muteAt := none } }
  (s.bumpRef Rg.C_REF_STEPS).raise 0 Ev.TIME_STEP 0 [argInt j, at_]

/-- The smallest spacing among the enabled downlink carriers. -/
def State.muMin (s : State) : Option Nat :=
  ((List.range 4).filter fun c => (s.dl c).en).foldl
    (fun m c => some (min (m.getD (s.dl c).scs) (s.dl c).scs)) none

/-- SLEW_RATE in ps per second (R269). -/
def State.slewRate (s : State) : Nat :=
  match s.f Rg.REF_CFG_SLEW_RATE with
  | 0 => 1000
  | 1 => 2000
  | _ => 5000

/-- A slew has moved the outputs and the counter by what its rate gives by now (R269). -/
def State.slewTick (s : State) : State :=
  match s.time.corr with
  | some c =>
    if c.step then s
    else
      let n : Int := min c.ps.natAbs (s.slewRate * (s.time.now - c.since) / Config.ticksPerSecond)
      let done := if c.ps < 0 then -n else n
      if done = c.done then s
      else (s.mapTime fun t => { t with corr := some { c with done := done } }).shiftTime (done - c.done)
  | none => s

/-- Slew or step a correction of `ps` from a source (0 the loop's own jump, 1 SET, 2 TSYNC) (R269, R270). -/
def State.startCorr (s : State) (ps : Int) (step : Bool) (src : Nat) : State :=
  let s := s.mapTime fun t => { t with corr := some ⟨ps, step, src, t.now, 0⟩ }
  if step then
    match s.muMin with
    | some mu =>
      let c := nextSlot mu (s.time.count + usTicks 50)
      { s with ref := { s.ref with muteAt := some c } }
    | none =>
      let s := (s.mapTime fun t => { t with corr := none }).timeStep ps 0
      if src = 0 then s else s.corrected
  else
    let big := 100 * s.f Rg.REF_CFG_JUMP_THR < ps.natAbs
    let s := (s.setF Rg.AT_STAT_SLEWING 1).bumpRef Rg.C_REF_SLEWS
    if big then s.raise 0 Ev.REF_SLEW 0 [argInt ps, ceilDiv (1000 * ps.natAbs) s.slewRate] else s

/-! ## The reference PLL (Table 68) -/

/-- The state of the reference PLL. -/
def State.refState (s : State) : Nat := s.raw Rg.REF_STAT_STATE

/-- Put the reference PLL into a state. -/
def State.setRef (s : State) (v : Nat) : State := s.setF Rg.REF_STAT_STATE v

/-- A count of edges over 2 µs lies within 10 % of a rate code 1 to 3 (R262). -/
def rateMatches (edges code : Nat) : Bool :=
  let nom := 12288 * 2 ^ code
  decide (((edges * 100 : Int) - nom).natAbs * 10 ≤ nom)

/-- The ratio K of ticks to AON periods is measured (R467): what the measurement gives is free (log 2). -/
def State.measureK (s : State) : State :=
  let (n, s) := s.freeNat
  s.setReg 0x0810 (BitVec.ofNat 32 n)

/-- R262, R264: rate detection of an acquisition; H1 uses its own only where it locks to REFCLK itself. -/
def execRefRateDetect (h : Half) (edges : Nat) (s : State) : Host.Outcome State Fault Refusal :=
  let forced := s.f Rg.REF_CFG_REF_RATE
  let code := ([1, 2, 3].find? fun c => rateMatches edges c).getD 0
  let ok := code ≠ 0 ∧ (forced = 0 ∨ forced = code)
  if s.deepDown then .next s
  else if h.val = 1 then .next { s with ref := { s.ref with presentH1 := decide ok } }
  else if s.refState ≠ 0 then .next s
  else
    let s := (s.setF Rg.REF_STAT_RATE_DET code).setB Rg.REF_STAT_REF_BAD (!decide ok)
    .next { s with ref := { s.ref with present := decide ok } }

/-- R263, R265, R272: the PLL of a half locks; the LOs re-lock with stored results and a short heat of every group
follows. -/
def execRefPllLock (h : Half) (s : State) : Host.Outcome State Fault Refusal :=
  if h.val = 1 then
    if s.ref.h1Locked || tget (fun _ => false) s.rel.pllRet 1 || (s.on Rg.REF_STAT_LINK_FAIL && !s.ref.presentH1)
        || (!s.on Rg.REF_STAT_LINK_FAIL && !s.refRuns) then .next s
    else .next { s with ref := { s.ref with h1Locked := true } }
  else if s.refState ≠ 0 || !s.ref.present || s.deepDown then .next s
  else
    let s := (s.setRef 1).setF Rg.REF_STAT_CTL_OSC 0
    .next (s.measureK.relockAll.shortHeats 4)

/-- R266: REFCLK is lost: COAST; a pending step is cancelled and a slew of the loop's own jump stops (R269, R273). -/
def execRefclkLost (s : State) : Host.Outcome State Fault Refusal :=
  if s.refState = 1 ∨ s.refState = 3 ∨ s.refState = 4 then
    let now := s.time.now
    let s := (s.slewTick.setRef 2).setF Rg.AT_STAT_SLEWING 0
    let s := { s with ref := { s.ref with lostAt := now, jump := 0, muteAt := none } }
    let s := s.mapTime fun t => { t with corr := none }
    .next ((s.bumpRef Rg.C_REF_LOSS).raise 0 Ev.REF_LOST 0 [])
  else .next s

/-- R268 to R270, R455: REFCLK is qualified: the jump is slewed, or held for a step at a mute slot. -/
def execRefclkQualified (j : Int) (s : State) : Host.Outcome State Fault Refusal :=
  if s.refState ≠ 2 then .next s
  else
    let s := s.setF Rg.REF_STAT_LAST_JUMP (j % 65536).toNat
    let s := if s.time.valid then (s.setUnc (s.raw Rg.AT_STAT_UNC + 1)).evalHold else s
    if j.natAbs ≤ 100 * s.f Rg.REF_CFG_JUMP_THR || !s.on Rg.REF_CFG_JUMP_POL then
      .next ((s.setRef 3).startCorr j false 0)
    else
      let s := { s.setRef 4 with ref := { s.ref with jump := j } }
      let s := s.startCorr j true 0
      .next (if s.time.corr.isNone then s.setRef 1 else s)

/-- R269, R452, R455: the residual of a slew falls below 5 ps. -/
def execSlewComplete (s : State) : Host.Outcome State Fault Refusal :=
  match s.time.corr with
  | some c =>
    if c.step then .next s
    else
      let s := ((s.mapTime fun t => { t with corr := none }).shiftTime (c.ps - c.done)).setF Rg.AT_STAT_SLEWING 0
      let s := if s.refState = 3 then s.setRef 1 else s
      .next (if c.src = 0 then s else s.corrected)
  | none => .next s

/-- R270: the mute slot starts and the step is made. -/
def execTimeStepMute (s : State) : Host.Outcome State Fault Refusal :=
  match s.ref.muteAt, s.time.corr with
  | some c, some k =>
    if !k.step || !s.reached c then .next s
    else
      let len := Config.ticksPerSubframe / 2 ^ s.muMin.getD 0
      let s := (s.mapTime fun t => { t with corr := none }).timeStep k.ps len
      let s := if s.refState = 4 then s.setRef 1 else s
      .next (if k.src = 0 then s else s.corrected)
  | _, _ => .next s

/-- Every synthesiser loses its reference and gates off; no unlock is counted (R271). Every path goes OFF. -/
def State.gateLos (s : State) (ns : List Nat) : State :=
  let s := ns.foldl (fun s n =>
    let v := s.raw (Rg.LO_STAT_STATE n)
    if 1 ≤ v ∧ v ≤ 3 then s.setF (Rg.LO_STAT_STATE n) 4 else s) s
  s.groupsIn.foldl (fun s g => match s.loOf g with
    | some n => if ns.contains n then ((s.mapGroup g fun x => { x with why := 4 }).groupOff g 1).evalReady g else s
    | none => s) s

/-- The outputs of the reference PLL are gated (R271). -/
def State.refGate (s : State) : State :=
  let s := (s.setRef 5).setF Rg.REF_STAT_CTL_OSC 1
  let s := { s with ref := { s.ref with present := false, jump := 0, muteAt := none } }
  let s := s.mapTime fun t => { t with running := false, corr := none }
  (s.setF Rg.AT_STAT_SLEWING 0).gateLos (List.range 10)

/-- R271: the COAST timer expires. -/
def execCoastExpiry (s : State) : Host.Outcome State Fault Refusal :=
  if s.refState ≠ 2 then .next s
  else
    .next ((s.refGate.bumpRef Rg.C_REF_EXPIRE).raise 0 Ev.REF_EXPIRED 0 [])

/-- R272: REFCLK's return after expiry starts ACQUIRE. -/
def execRefclkReturn (s : State) : Host.Outcome State Fault Refusal :=
  .next (if s.refState = 5 ∧ !tget (fun _ => false) s.rel.pllRet 0 then s.setRef 0 else s)

/-- R264: H1 locks to REFCLK directly, and TIE_OK is cleared. -/
def execReferenceLinkFail (s : State) : Host.Outcome State Fault Refusal :=
  let s := (s.setF Rg.REF_STAT_LINK_FAIL 1).setF Rg.CAL_STAT_TIE_OK 0
  .next { s with ref := { s.ref with h1Locked := false } }

/-- AON moves to its on-die oscillator (R290). -/
def State.aonFail (s : State) : State :=
  if s.on Rg.REF_STAT_AON_RC then s else (s.setF Rg.REF_STAT_AON_RC 1).raise 0 Ev.AON_XTAL_FAIL 0 []

/-- R290. -/
def execAonXtalFail (s : State) : Host.Outcome State Fault Refusal := .next s.aonFail

/-! ## Synthesisers -/

/-- A stored calibration set of a group for an entry that is younger than SET_AGE (R251, R252). -/
def State.youngSet (s : State) (g e : Nat) : Option CalSet :=
  s.calSets.find? fun x => x.group == g && x.entry == e
    && decide (s.time.now < x.tick + s.f Rg.CAL_CFG2_SET_AGE * Config.ticksPerSecond)

/-- A group's bus has entries of the channel-change anchor (R304). -/
def State.hasChannelScript (s : State) (g : Nat) : Bool :=
  (List.range 128).any fun i => match tget (fun _ => none) s.scripts (g * 128 + i) with
    | some e => e.anchor == 4 && !s.isSafe 9 (g * 128 + i)
    | none => false

/-- One group's hop takes effect (R276, R304, R234, R251): its paths go OFF, its synthesiser retunes, and the heat that
follows is required. -/
def State.hopGroup (s : State) (g e : Nat) : State :=
  let old := s.loKhz g
  let s := s.groupOff g 3
  let s := s.mapGroup g fun x => { x with entry := some e, hop := none, deferred := false, why := 3 }
  let s := match s.loOf g with
    | some n => s.startLo n e
    | none => s
  let sp := spareUnit (g / 4)
  let s := if !s.on (Rg.LO_STAT_SERVING sp) && s.loGroup sp == g && !(s.raw (Rg.LO_STAT_STATE sp) == 5) then s.startLo sp e else s
  let khz := s.loKhz g
  let s := s.mapGroup g fun x => { x with script := s.hasChannelScript g }
  if old = khz then s.requireHeat g 1 3
  else
    let s := (groupPaths g).foldl (fun s p => s.dpdRetune p khz) s
    let hold := !s.on Rg.CAL_CFG_AUTO_FG
    match s.youngSet g e with
    | some x =>
      let s := x.vals.foldl (fun s v => s.applyCal v.1 v.2) s
      (s.requireHeat g 1 3).updGroup g fun y => { y with held := y.held || hold }
    | none => (s.requireHeat g 2 3).updGroup g fun y => { y with held := y.held || hold }

/-- R273, R276: the effect time of the pending hop of the masked groups; deferred while the reference is in COAST,
STEP_PENDING or EXPIRED. -/
def execLoHopEffect (mask : Nat) (s : State) : Host.Outcome State Fault Refusal :=
  let gs := s.groupsIn.filter fun g => bitOf (BitVec.ofNat 32 mask) g && match (s.group g).hop with
    | some h => (s.group g).deferred || s.reached h.2
    | none => false
  let late := gs.any fun g => (s.group g).deferred
  if gs = [] then .next s
  else if s.refState = 2 ∨ s.refState = 4 ∨ s.refState = 5 ∨ s.refState = 0 then
    let s := if late then s else s.bump (Rg.C_HOP_DEFERRED 0) 1
    .next (gs.foldl (fun s g => s.mapGroup g fun x => { x with deferred := true }) s)
  else
    let s := gs.foldl (fun s g => match (s.group g).hop with
      | some h => s.hopGroup g h.1
      | none => s) s
    let at_ := s.stamp
    .next (s.finishLong (fun x => match x.what with
      | .hop m _ => gs.any fun g => bitOf (BitVec.ofNat 32 m) g
      | _ => false) St.OK fun _ => { at_ := some at_, flags := if late then 4 else 0 })

/-- R277, R280: a synthesiser is locked; after a search its results are stored. -/
def execLoLocked (n : UnitNo) (band mid kdco : Nat) (temp : Int) (s : State) : Host.Outcome State Fault Refusal :=
  let n := n.val
  let st := s.raw (Rg.LO_STAT_STATE n)
  if st = 1 ∨ st = 2 then
    let e := s.raw (Rg.LO_STAT_ENTRY n)
    let s := if (s.lo n).search then
        s.mapHop n e fun x => { x with stored := true, band := band, mid := mid, kdco := kdco, temp := temp } else s
    let seed := s.seed n
    let s := (s.setF (Rg.LO_STAT_STATE n) 3).mapLo n fun l => { l with tries := 0, search := false, lfsr := seed }
    .next (s.evalReady (s.loGroup n))
  else .next s

/-- R277, R279: after LOCK_TMO one further attempt by band search; then the unit is faulty. -/
def execLoLockTimeout (n : UnitNo) (s : State) : Host.Outcome State Fault Refusal :=
  let n := n.val
  let st := s.raw (Rg.LO_STAT_STATE n)
  if st = 1 ∨ st = 2 then
    if 2 ≤ (s.lo n).tries then .next (s.loFaulty n) else .next (s.lockLo n (s.raw (Rg.LO_STAT_ENTRY n)) true)
  else .next s

/-- R278, R279, R255: a detector trips: the output is gated, the group goes OFF and the unit re-locks; the third gating
within 1 s makes it faulty. A foreground heat under way restarts. -/
def execLoUnlock (n : UnitNo) (soft : Bool) (s : State) : Host.Outcome State Fault Refusal :=
  let n := n.val
  let h := n / 5
  if s.raw (Rg.LO_STAT_STATE n) ≠ 3 then .next s
  else
    let now := s.time.now
    let g := s.loGroup n
    let serving := s.on (Rg.LO_STAT_SERVING n)
    let s := s.mapLo n fun l =>
      { l with tries := 0, gates := now :: l.gates.filter fun t => decide (now < t + Config.ticksPerSecond) }
    let s := (s.setF (Rg.LO_STAT_STATE n) 4).bump (Rg.C_LO_UNLOCKS h) 1
    let s := if serving then
        let s := (s.groupOff g 1).requireHeat g 1 1
        if (s.group g).heat = 0 then s
        else ((s.bump (Rg.C_HEAT_RESTART h) 1).updGroup g fun x => { x with step := if x.heat = 2 then 1 else 6 })
      else s
    let s := s.raise h Ev.LO_UNLOCK n [g, b2n soft]
    .next (if 3 ≤ (s.lo n).gates.length then s.loFaulty n else s.startLo n (s.raw (Rg.LO_STAT_ENTRY n)))

end Sys2Proof.Machine
end

