-- ==== Sys2Proof/Machine/FrontEnd.lean ====
section
/-! DEFINITION. Front-end sequencing, RFFE buses and aerials (ch. 10). -/

namespace Sys2Proof.Machine

/-! ## Lines and intervals -/

/-- The schedule's code some ticks from now. -/
def State.codeIn (s : State) (ticks : Nat) : Option Nat := s.codeAt ((s.time.count + ticks) % Config.ticksPerCycle)

/-- The front end of a path may leave IDLE: the device carries traffic (R6), the path is in service, its group in RUN, its corrections not in their safe state, no
thermal shutdown (R296, R492, Table 136). -/
def State.feRuns (s : State) (p : Nat) : Bool :=
  s.carries && s.pathIn p && s.groupRun (p / 8) && !s.isSafe 8 p && !s.shutdown

/-- Outputs of a path and of its group come back from PARKED or HOLD at an interval boundary of the path: any, or a transmit
interval's start (Table 102). A retired path's outputs stay. -/
def State.biasReturn (s : State) (p : Nat) (tx : Bool) : State :=
  let g := p / 8
  (groupOutput g :: pathOutputs p).foldl (fun s n =>
    let b := s.biasOut n
    if (b.returning = 1 ∨ (b.returning = 2 ∧ tx)) ∧ (b.state = 4 ∨ b.state = 5) ∧ s.pathIn p then
      s.mapBias n fun b =>
        let b := if b.state = 4 ∧ b.returning = 1 then b.jump (spanCode b.car.span b.car.park) else b
        { b.go s.time.now (if b.car.pulse && !(s.fep p).biasTx then b.car.rx else b.car.tx) with state := 2, returning := 0 }
    else s) s

/-- R293, R295: the pending schedule replaces the one in force; an interval of the old one in progress ends. -/
def execScheduleEffect (s : State) : Host.Outcome State Fault Refusal :=
  match s.schedPend with
  | some x =>
    if s.reached x.at_ then
      let s := (List.range 64).foldl (fun s p =>
        let st := (s.fep p).state
        if st = 1 ∨ st = 2 then (s.txOff p).feTo p 0 else s) s
      let s := { s with sched := some x, schedPend := none }
      let s := (s.clearSafe 1 0).setF Rg.FE_STAT_SCHED_OK 1
      .next (s.setF Rg.AT_NOW1_MU x.rec_.muRef)
    else .next s
  | none => .next s

/-- The seed or identity bank of a path goes into service before its first transmit interval after lock and calibration
(R234, R216). -/
def State.seedSwap (s : State) (p : Nat) : State :=
  let d := s.dpdOf p
  if d.seedWait && d.idle.state == 1 then
    let at_ := atimeWord s.stamp
    ((s.mapDpd p fun d => d.swapIn at_).acquire p).dpdMoved p
  else s

/-- R297, R301, R234: TX_LEAD ticks before a transmit interval whose window is not blanked. -/
def execFeTxLead (p : PathNo) (s : State) : Host.Outcome State Fault Refusal :=
  let p := p.val
  let g := p / 8
  let lead := s.f Rg.FE_TIME0_TX_LEAD
  if (s.fep p).state = 0 ∧ s.feRuns p ∧ s.codeIn lead = some 0 ∧ !s.bitF Rg.FE_STAT_BLANKED g ∧ s.groupReady g
      ∧ !s.time.txHeld then
    .next (((s.seedSwap p).biasReturn p true).feEnter p 1)
  else .next s

/-- R297, R300, R302: TX_LAG ticks after a transmit interval; a blanked window ends. -/
def execFeTxLag (p : PathNo) (heat : Bool) (s : State) : Host.Outcome State Fault Refusal :=
  let p := p.val
  let g := p / 8
  let st := (s.fep p).state
  let s := if s.inTx s.time.count then s
    else (s.setBit Rg.FE_STAT_BLANKED g false).mapGroup g fun x => { x with blankAt := none }
  let s := s.biasReturn p false
  if st = 1 then .next (if heat then s.feTo p 3 else s.feTo p 0)
  else if st = 5 then .next (s.feTo p 0)
  else .next s

/-- R297: RX_LEAD ticks before a receive interval. -/
def execFeRxLead (p : PathNo) (s : State) : Host.Outcome State Fault Refusal :=
  let p := p.val
  if (s.fep p).state = 0 ∧ s.feRuns p ∧ s.codeIn (s.f Rg.FE_TIME1_RX_LEAD) = some 1 then
    .next ((s.biasReturn p false).feEnter p 2)
  else .next s

/-- The first path in service of a half. -/
def State.firstPath (s : State) (h : Nat) : Option Nat := (halfPaths h).find? fun p => s.pathIn p

/-- R297, R299: RX_LAG ticks after a receive interval; one trimmed for the transmit interval that follows ends while the
schedule still has it. -/
def execFeRxLag (p : PathNo) (s : State) : Host.Outcome State Fault Refusal :=
  let p := p.val
  if (s.fep p).state ≠ 2 then .next s
  else
    let s := if s.codeIn 0 = some 1 ∧ s.firstPath (p / 32) = some p then s.bump (Rg.C_RX_TRIM (p / 32)) 1 else s
    .next (s.feTo p 0)

/-- R301: BYP_LEAD ticks before a bypass change takes effect, the BYP line changes. -/
def execFeBypEdge (p : PathNo) (s : State) : Host.Outcome State Fault Refusal :=
  let p := p.val
  match (s.rx p).pendBypass with
  | some (b, _) =>
    let st := (s.fep p).state
    let old := (s.feLevels p st).2.2
    let s := s.mapFe p fun f => { f with bypSet := b }
    .next (s.driveLine p 2 old (s.feLevels p st).2.2 Rg.FE_CFG_BYP_POL)
  | none => .next s

/-- What the front ends do at a tick (R297, R301): delayed assertions, bias-selects BIAS_LAG after TXEN, and those BIAS_LEAD
before TXEN goes active at the transmit interval to come. -/
def State.feTick (s : State) : State :=
  let due := s.feLater.filter fun e => decide (e.due ≤ s.time.now)
  let s := if due = [] then s else { s with feLater := s.feLater.filter fun e => !decide (e.due ≤ s.time.now) }
  let s := due.foldl (fun s e =>
    if e.what = 9 then s.biasSelect e.path false
    else if (s.fep e.path).state = 0 ∧ s.feRuns e.path then s.feTo e.path e.what
    else s) s
  if s.sched.isSome && s.txBegins ((s.time.count + s.f Rg.FE_TIME0_TX_LEAD + s.f Rg.FE_TIME3_BIAS_LEAD) % Config.ticksPerCycle) then
    (List.range 64).foldl (fun s p =>
      if (s.fep p).state = 0 && s.feRuns p && !s.bitF Rg.FE_STAT_BLANKED (p / 8) && s.groupReady (p / 8) && !s.time.txHeld then
        s.biasSelect p true
      else s) s
  else s

/-! ## Readiness (R302) -/

/-- R302, R307, R455: the window of a group proceeds if its LO is ready and no hold is in force; otherwise it is blanked. -/
def execReadinessDecision (g : GroupNo) (start : Nat) (s : State) : Host.Outcome State Fault Refusal :=
  let g := g.val
  if !s.groupIn g || !s.groupRun g || !s.inTx start then .next s
  else
    let ready := s.groupReady g
    let why := if s.time.txHeld then 4 else if (s.group g).retune then 2 else (s.group g).why
    let s := if (s.group g).retune then (s.requireHeat g 1 2).updGroup g fun x => { x with retune := false } else s
    let s := s.mapGroup g fun x => { x with blankAt := some start }
    if ready && !s.time.txHeld then .next s
    else
      let s := s.blankWindow g why start
      .next ((groupPaths g).foldl (fun s p => if s.pathIn p && (s.fep p).state == 0 then s.feTo p 5 else s) s)

/-! ## RFFE -/

/-- A script entry, skipped in its safe state (Table 136). -/
def State.script (s : State) (bus entry : Nat) : Option ScriptEnt := tget (fun _ => none) s.scripts (bus * 128 + entry)

/-- Row of Table 77 of a script command. -/
def seqOf (cmd : Nat) : Nat := match cmd with
  | 0 => 0
  | 1 => 1
  | 2 => 3
  | _ => 7

/-- The sequences a script entry generates: one, or one for each path position (Table 78). -/
def State.runEntry (s : State) (bus : Nat) (e : ScriptEnt) : State :=
  let bytes := if e.cmd = 3 then [e.mask, e.data] else [e.data]
  (if e.path then List.range 8 else [0]).foldl
    (fun s i => s.emit (.rffe bus (e.usid + i) (seqOf e.cmd) e.addr bytes)) s

/-- The last entry of an anchor on a bus. -/
def State.lastOfAnchor (s : State) (bus anchor : Nat) : Option Nat :=
  (List.range 128).reverse.find? fun i => match s.script bus i with
    | some e => e.anchor == anchor
    | none => false

/-- R306, R307, R302: a script entry of a bus starts. The transmit anchors stay idle in a blanked window; the last entry of
the channel-change anchor completes the script (R304). -/
def execRffeScriptLaunch (bus : GroupNo) (entry : Fin 128) (late : Bool) (readback : Nat) (s : State) :
    Host.Outcome State Fault Refusal :=
  let b := bus.val
  let h := b / 4
  match s.script b entry.val with
  | some e =>
    if !s.groupIn b || (e.anchor ≤ 1 && s.bitF Rg.FE_STAT_BLANKED b) then .next s
    else if s.isSafe 9 (b * 128 + entry.val) then .next (s.bump (Rg.C_RFFE_VERIFY h) 1)
    else
      let s := s.runEntry b e
      let s := if late then s.bump (Rg.C_RFFE_LATE h) 1 else s
      let want := if e.cmd = 3 then e.data &&& e.mask else e.data
      let got := if e.cmd = 3 then readback &&& e.mask else readback
      let s := if e.verify && !(want == got) then
          (s.bump (Rg.C_RFFE_VERIFY h) 1).raise h Ev.RFFE_ERR b [e.usid, e.addr, 1] else s
      .next (if e.anchor = 4 ∧ s.lastOfAnchor b 4 = some entry.val then s.updGroup b fun x => { x with script := false } else s)
  | none => .next s

/-- R304: the channel-change script of a group is incomplete after SCRIPT_TMO; which entry is named is not stated. -/
def execScriptTimeout (g : GroupNo) (s : State) : Host.Outcome State Fault Refusal :=
  let g := g.val
  if (s.group g).script then
    let (u, s) := s.freeNat
    let (a, s) := s.freeNat
    let s := (s.updGroup g fun x => { x with script := false }).bump (Rg.C_RFFE_TMO (g / 4)) 1
    .next (s.raise (g / 4) Ev.RFFE_ERR g [u % 16, a % 256, 2])
  else .next s

/-! ## Aerials (R308, R309) -/

/-- The return loss of two captures in 0.01 dB (R308): the powers' difference and the coupler's offset; with a power of 0 the spec
states no result, and it is free (log 73). -/
def State.lossOf (s : State) (refl fwd : List Cplx) : Int :=
  let off : Int := 25 * (BitVec.ofNat 8 (s.f Rg.FE_TIME2_COUP_OFF)).toInt
  ratioOr 5 (energy fwd * refl.length) (energy refl * fwd.length) * 25 / 64 + off

/-- R308, R309: a measurement of a path falls due; it is taken while the path is LIVE; with too little forward power it is not
taken and stays due, and under an EXCL capture it waits (R351). -/
def execMismatchMeasureDue (p : PathNo) (refl fwd : List Cplx) (s : State) : Host.Outcome State Fault Refusal :=
  let p := p.val
  let h := p / 32
  if !s.on Rg.FE_CFG_MM_EN || !s.pathIn p then .next s
  else
    let s := (s.paceDue 3 p).mapFe p fun f => { f with mmDue := true }
    if s.exclArmed h then .next (s.bump (Rg.C_SVC_WAIT h) 1)
    else if (s.tx p).state ≠ 3 then .next s
    else if observedDb (s.dpdOf p).align fwd < s.pcfg - 256 * (s.f Rg.DPD_CFG_FREEZE_DB : Int) then
      .next ((s.paceSkip 3 p).bump (Rg.C_MM_SKIP h) 1)
    else
      let rl := s.lossOf refl fwd
      .next (((s.paceStart 3 p).mapFe p fun f => { f with rlMeas := some rl }).bump (Rg.C_MM_SCANS h) 1)

/-- A return loss of a path in 0.01 dB (R309): reported below RL_MIN, a fault below RL_TRIP twice running. -/
def State.returnLoss (s : State) (p : Nat) (rl : Int) : State :=
  let h := p / 32
  let s := s.mapFe p fun f => { f with rl := some rl, mmDue := false }
  let s := if rl < 50 * s.f Rg.FE_CFG_RL_MIN then
      (s.bump (Rg.C_MM_LOW h) 1).raiseOnce h Ev.AERIAL_MISMATCH p 4915200000 [argInt rl] else s
  if rl < 50 * s.f Rg.FE_CFG_RL_TRIP then
    let n := (s.fep p).lowRun + 1
    let s := s.mapFe p fun f => { f with lowRun := n }
    if n = 2 then
      let s := s.raise h Ev.AERIAL_FAULT p [argInt rl]
      if s.on Rg.FE_CFG_MM_RETIRE then s.retirePath p 6 else s
    else s
  else s.mapFe p fun f => { f with lowRun := 0 }

end Sys2Proof.Machine
end

