-- ==== Sys2Proof/Machine/Engines.lean ====
section
/-! DEFINITION. The adaptation engines (ch. 11): tasks and preemption, bundles, images' slots, spares and their checks. -/

namespace Sys2Proof.Machine

/-! ## Engines -/

/-- An engine beside its register. -/
def State.engOf (s : State) (e : Nat) : EngSt := tget (fun _ => EngSt.reset) s.eng e

/-- Change an engine. -/
def State.mapEng (s : State) (e : Nat) (f : EngSt → EngSt) : State :=
  { s with eng := tset (fun _ => EngSt.reset) s.eng e (f (s.engOf e)) }

/-- STATE of an engine: 0 IDLE, 1 RUNNING, 2 SHADOW, 3 RELIEF, 4 TEST, 5 REPAIR, 6 RETIRED. -/
def State.aeState (s : State) (e : Nat) : Nat := s.raw (Rg.AE_STAT_STATE e)

/-- A user slot of a half. -/
def State.slotOf (s : State) (h n : Nat) : EngSlot := tget (fun _ => EngSlot.reset) s.slots (h * 4 + n)

/-- Change a user slot, with its bit of SU_ENG_STAT. -/
def State.mapSlot (s : State) (h n : Nat) (f : EngSlot → EngSlot) : State :=
  let x := f (s.slotOf h n)
  { s with slots := tset (fun _ => EngSlot.reset) s.slots (h * 4 + n) x }.setBit
    (if h = 0 then Rg.ENG_STAT_SLOTS_H0 else Rg.ENG_STAT_SLOTS_H1) n x.bound.isSome

/-- What a half keeps of its engines. -/
def State.engH (s : State) (h : Nat) : EngHalf := tget (fun _ => ⟨none, 0, none⟩) s.engHalf h

/-- Change what a half keeps of its engines. -/
def State.mapEngH (s : State) (h : Nat) (f : EngHalf → EngHalf) : State :=
  { s with engHalf := tset (fun _ => ⟨none, 0, none⟩) s.engHalf h (f (s.engH h)) }

/-- A half has a spare engine. -/
def spareFld (h : Nat) : Fld := if h = 0 then Rg.ENG_STAT_SPARE_H0 else Rg.ENG_STAT_SPARE_H1

/-- The spare's window of a half. -/
def windowFld (h : Nat) : Fld := if h = 0 then Rg.ENG_STAT_WINDOW_H0 else Rg.ENG_STAT_WINDOW_H1

/-- Set the task an engine runs, with its mirror in SU_AEn_STAT; the spare's relief state and the states above RUNNING
stay. -/
def State.setRun (s : State) (e : Nat) (t : Option EngTask) : State :=
  let now := s.time.now
  let s := s.mapEng e fun x =>
    { x with
      run := t
      since := if x.run.isNone && t.isSome then now else x.since
      busy := if x.run.isSome && t.isNone then (x.since, now) :: x.busy else x.busy }
  let s := if s.aeState e ≤ 1 then s.setF (Rg.AE_STAT_STATE e) (b2n t.isSome) else s
  match t with
  | some t =>
    ((((s.setF (Rg.AE_STAT_CLASS e) t.desc.cls).setF (Rg.AE_STAT_SLOT e) (t.slot.getD 0)).setB (Rg.AE_STAT_USER e)
      t.slot.isSome).setF (Rg.AE_STAT_FLAGS e) t.flagsWord)
  | none => (((s.setF (Rg.AE_STAT_CLASS e) 0).setF (Rg.AE_STAT_SLOT e) 0).setF (Rg.AE_STAT_USER e) 0).setF
      (Rg.AE_STAT_FLAGS e) 0

/-- LOAD of an engine: the busy share of the last 100 ms, taken every 1 ms (R348, log 80). -/
def State.loadTick (s : State) : State :=
  if s.time.now % Config.ticksPerSubframe = 0 then
    (List.range 10).foldl (fun s e =>
      let x := s.engOf e
      let from_ := s.time.now - 100 * Config.ticksPerSubframe
      let busy := x.busy.filter fun b => decide (from_ < b.2)
      let all := if x.run.isSome then (x.since, s.time.now) :: busy else busy
      let v := (all.map fun b => b.2 - max b.1 from_).sum / Config.ticksPerSubframe
      if busy = x.busy ∧ v = s.raw (Rg.AE_STAT_LOAD e) then s
      else (s.mapEng e fun x => { x with busy := busy }).setF (Rg.AE_STAT_LOAD e) v) s
  else s

/-- A task's registers at its start (R313). -/
def EngTask.fresh (d : TaskDesc) (slot : Option Nat) (budget entry : Nat) : EngTask :=
  { desc := d, slot := slot, budget := budget, pc := entry, d := List.replicate 16 0, ac := List.replicate 4 Cplx.zero,
    p := List.replicate 8 0, k := List.replicate 8 0, sat := false, gov := false, par := false, loops := [], stack := [],
    recs := [], caps := [], waiting := false }

/-- Half of a task's subject and whether a bound slot covers it (R334). -/
def covers (b : EngBind) (d : TaskDesc) : Bool :=
  b.service == d.service && (if b.service = 2 then b.flow == d.subject else b.paths / 2 ^ d.subject % 2 == 1)

/-- The slot that serves a task on a half: the lowest bound one of its service that covers the subject; class-1 work and
other vendor work never runs in a slot (R334, R335). -/
def State.slotFor (s : State) (h : Nat) (d : TaskDesc) : Option (Nat × EngImg × Nat) :=
  if d.cls = 1 ∨ d.service = 0 then none
  else (List.range 4).findSome? fun n =>
    match (s.slotOf h n).img, (s.slotOf h n).bound with
    | some i, some b => if covers b d then some (n, i, b.budget) else none
    | _, _ => none

/-- The task that a description starts on a half, if a program is installed for it. -/
def State.newTask (s : State) (h : Nat) (d : TaskDesc) : Option EngTask :=
  match s.slotFor h d with
  | some (n, i, budget) => some (EngTask.fresh d (some n) budget i.entry)
  | none => (s.engH h).vendor.map fun i => EngTask.fresh d none 0 i.entry

/-- The group position that a half's spare shadows in its present window, if any (R341). -/
def State.shadowed (s : State) (h : Nat) : Option Nat :=
  if s.on Rg.ENG_CFG_SHADOW_EN && s.on (spareFld h) && s.aeState (spareUnit h) == 2 then
    s.aeOf (4 * h + s.raw (windowFld h))
  else none

/-- A preempted task is saved, by class (R314). -/
def saveTask (t : EngTask) (l : List EngTask) : List EngTask := insertBy (fun x => x.desc.cls) t l

/-- The groups whose work an engine does. -/
def State.engGroups (s : State) (e : Nat) : List Nat := ((List.range 4).map (· + 4 * (e / 5))).filter fun g => s.aeOf g == some e

/-- An engine serves only groups that are held off (R5): solver work alone is its (R315, R43, Table 80). -/
def State.solverOnly (s : State) (e : Nat) : Bool := !(s.engGroups e).isEmpty && (s.engGroups e).all fun g => !s.groupIn g

/-- The bank that a flow's solve writes. -/
def State.writing (s : State) (f : Nat) : Option SolvBank :=
  let v := s.solvSt f
  if v.x.state = 1 then some v.x else if v.y.state = 1 then some v.y else none

/-- The nominal period of the periodic work of a service of class 3 or 4 for a subject (Table 87). -/
def State.workPeriod (s : State) (d : TaskDesc) : Nat :=
  s.nominalTicks (match d.service with
    | 1 => 1
    | 3 => 0
    | _ => 3) d.subject

/-- A task falls to an engine (Table 80): solver groups to the engines of the solve, the RX results of a heat to every engine in
service of the half, else to the engine of the path's group; a relief engine takes work of class 3 and 4 that is late by more
than one period (R341). -/
def State.fallsTo (s : State) (e : Nat) (d : TaskDesc) : Bool :=
  if s.aeState e = 3 then
    decide (3 ≤ d.cls) && d.subject / 32 == e / 5 && decide (d.due + s.workPeriod d < s.time.now)
  else if d.cls = 2 then (match s.writing d.subject with
    | some b => b.engines.contains e
    | none => false)
  else if d.cls = 1 ∧ d.service = 3 then d.subject / 32 == e / 5 && (s.engGroups e).any fun g => s.groupIn g
  else s.aeOf (d.subject / 8) == some e

/-- An engine can take a task: its half's engine domain runs, it is idle, running or in relief, the task falls to it, it holds no
other of its class, a program is installed for it, and what runs is of a lower class (R313 to R315). -/
def State.engTakes (s : State) (e : Nat) (d : TaskDesc) : Bool :=
  let x := s.engOf e
  s.dom (e / 5) 1 == 0 && (s.aeState e ≤ 1 || s.aeState e == 3) && x.test == 0 && (d.cls == 2 || !s.solverOnly e)
    && decide (1 ≤ d.cls) && decide (d.cls ≤ 4) && s.fallsTo e d && !(x.saved.any fun t => t.desc.cls == d.cls)
    && (s.newTask (e / 5) d).isSome && (match x.run with
      | some r => decide (d.cls < r.desc.cls)
      | none => true)

/-- One task goes before another: a higher class, then the earlier due instant, then the lower path or flow (R313). -/
def taskBefore (a b : TaskDesc) : Bool :=
  decide (a.cls < b.cls) || (a.cls == b.cls && (decide (a.due < b.due) || (a.due == b.due && decide (a.subject < b.subject))))

/-- The task of those ready that an engine takes first (R313). -/
def State.firstTask (s : State) (e : Nat) (ready : List TaskDesc) : Option TaskDesc :=
  (ready.filter fun d => s.engTakes e d).foldl (fun m d => match m with
    | some x => if taskBefore d x then some d else some x
    | none => some d) none

/-- The spare that shadows an engine has a copy of its X and Y contents (R342). -/
def State.copyXY (s : State) (a b : Nat) : State :=
  let own := (s.engMem.filter fun x => x.1 / 2 ^ 19 == a).map fun x => (x.1 + b * 2 ^ 19 - a * 2 ^ 19, x.2)
  let rest := s.engMem.filter fun x => !(x.1 / 2 ^ 19 == b)
  { s with engMem := own.foldl (fun m x => tset (fun _ => 0) m x.1 x.2) rest }

/-- R313, R314: of the tasks that are ready the first starts on an engine that is idle or runs a lower class, which it preempts;
class 1 is never preempted, and an engine holds one task of each class. -/
def execEngineTaskStart (e : UnitNo) (ready : List TaskDesc) (s : State) : Host.Outcome State Fault Refusal :=
  let e := e.val
  let h := e / 5
  match s.firstTask e ready with
  | none => .next s
  | some d =>
    match s.newTask h d with
    | none => .next s
    | some t =>
      let s := if s.shadowed h = some e then (s.bump (Rg.C_SHADOW_TASKS h) 1).copyXY e (spareUnit h) else s
      match (s.engOf e).run with
      | none => .next (s.setRun e (some t))
      | some r => .next (((s.bump (Rg.C_PREEMPT h) 1).mapEng e fun x => { x with saved := saveTask r x.saved }).setRun e (some t))

/-- The engine goes on with its highest-class saved task, or is idle; a rotation test that waited for a class-1 task starts
(R314, R344). -/
def State.resume (s : State) (e : Nat) : State :=
  if (s.engOf e).test = 3 then (s.setRun e none).setF (Rg.AE_STAT_STATE e) 4
  else match (s.engOf e).saved with
    | t :: r => (s.mapEng e fun x => { x with saved := r }).setRun e (some t)
    | [] => s.setRun e none

/-- What a task that ends leaves behind: its records are released, and an estimate under way ends (R361). -/
def State.taskGone (s : State) (t : EngTask) : State :=
  let s := t.caps.foldl State.capDone s
  if t.desc.service = 1 then s.mapDpd t.desc.subject fun d => { d with estimating := false, record := none } else s

/-! ## Stops (R336) -/

/-- A user slot is unbound after ABORT_MAX consecutive stops. -/
def State.slotStop (s : State) (h n : Nat) : State :=
  let k := (s.slotOf h n).stops + 1
  if s.f Rg.ENG_CFG_ABORT_MAX ≤ k then
    (s.mapSlot h n fun x => { x with stops := 0, bound := none }).raise h Ev.SLOT_DISABLED n [h]
  else s.mapSlot h n fun x => { x with stops := k }

/-- The running task is stopped: a user task for a reason of 0x0807 (1 budget, 2 trap, 3 parity); vendor firmware's trap
only ends its task. -/
def State.stopTask (s : State) (e reason : Nat) : State :=
  match (s.engOf e).run with
  | none => s
  | some t =>
    let h := e / 5
    let s := s.taskGone t
    let s := match t.slot with
      | some n => ((s.bump (Rg.C_USER_ABORT h) 1).raise h Ev.USER_ABORT n [reason, h]).slotStop h n
      | none => s
    s.resume e

/-! ## Memories (R317, R318) -/

/-- Bytes of the memory that a task's pointers reach: its window in a user slot, else 128 KiB. -/
def State.winSize (s : State) (e : Nat) (t : EngTask) (y : Bool) : Nat :=
  match t.slot with
  | some n => match (s.slotOf (e / 5) n).img with
    | some i => if y then i.ywin else i.xwin
    | none => 0
  | none => 131072

/-- Key of a byte of a task's X or Y memory. -/
def memKey (e : Nat) (t : EngTask) (y : Bool) (a : Nat) : Nat :=
  e * 2 ^ 19 + b2n y * 2 ^ 18 + (match t.slot with
    | some n => 2 ^ 17 + n * 2 ^ 15
    | none => 0) + a

/-- A byte of an X or Y memory. -/
def State.memByte (s : State) (k : Nat) : Byte := tget (fun _ => 0) s.engMem k

/-- Write bytes of an X or Y memory from a key on. -/
def State.setMem (s : State) (k : Nat) (l : List Byte) : State :=
  { s with engMem := (l.zipIdx).foldl (fun m (b, i) => tset (fun _ => 0) m (k + i) b) s.engMem }

/-- Bytes of an X or Y memory from a key on. -/
def State.memBytes (s : State) (k n : Nat) : List Byte := (List.range n).map fun i => s.memByte (k + i)

/-- The byte address of the word that a pointer names: bits [16:2], modulo the window in a user slot (R318). -/
def State.wordAt (s : State) (e : Nat) (t : EngTask) (y : Bool) (p : Word) : Nat :=
  let w := p.toNat / 4 % 32768
  match t.slot with
  | some _ => 4 * (w % (s.winSize e t y / 4))
  | none => 4 * w

/-- The word a pointer names. -/
def State.loadWord (s : State) (e : Nat) (t : EngTask) (y : Bool) (p : Word) : Word :=
  BitVec.ofNat 32 (leNat (s.memBytes (memKey e t y (s.wordAt e t y p)) 4))

/-! ## Tests (R341 to R344) -/

/-- A task from its entry again, with the inputs it had. -/
def State.again (s : State) (h : Nat) (t : EngTask) : EngTask := (s.newTask h t.desc).getD t

/-- An engine that comes back from a test runs its interrupted task from its inputs, or goes on with what it saved. -/
def State.backToWork (s : State) (e : Nat) : State :=
  let x := s.engOf e
  let s := (s.mapEng e fun x => { x with test := 0, again := none }).setF (Rg.AE_STAT_STATE e) 0
  match x.again with
  | some t => s.setRun e (some (s.again (e / 5) t))
  | none => s.resume e

/-- An engine is put under test for a reason; `keep` saves the running task's context, else it starts over afterwards. -/
def State.underTest (s : State) (e why : Nat) (keep : Bool) : State :=
  let x := s.engOf e
  let s := s.mapEng e fun x => match x.run with
    | some t => if keep then { x with test := why, saved := saveTask t x.saved } else { x with test := why, again := some t }
    | none => { x with test := why }
  let s := match x.run with
    | some _ => if keep then s.bump (Rg.C_PREEMPT (e / 5)) 1 else s
    | none => s
  (s.setRun e none).setF (Rg.AE_STAT_STATE e) (if why = 5 then 5 else 4)

/-- A shadow comparison fails (R343): the call is withheld, both engines are tested, the task will start over. -/
def State.mismatch (s : State) (e : Nat) : State :=
  let h := e / 5
  let sp := spareUnit h
  ((s.underTest e 1 false).underTest sp 1 false).mapEngH h fun x => { x with mm := some ⟨e, sp, none, none⟩ }

/-! ## Bundles (R319 to R321) -/

/-- The bundle after `pc`, and the loops left: a finished loop goes on behind it, with the loop around it judged next. -/
def loopNext (pc : Nat) : List LoopRec → Nat × List LoopRec
  | [] => (pc + 1, [])
  | l :: r =>
    if pc = l.last then
      if 1 < l.left then (l.first, { l with left := l.left - 1 } :: r) else loopNext pc r
    else (pc + 1, l :: r)

/-- The task goes on behind a bundle at `pc`. -/
def EngTask.after (t : EngTask) (pc : Nat) : EngTask :=
  let (n, l) := loopNext pc t.loops
  { t with pc := n, loops := l }

/-- The task goes on behind its bundle. -/
def EngTask.adv (t : EngTask) : EngTask := t.after t.pc

/-- Write D register `i`. -/
def EngTask.setD (t : EngTask) (i : Nat) (v : Word) : EngTask := { t with d := setNth t.d i v }

/-- The arithmetic slot's write. -/
def EngTask.write (t : EngTask) (rd : Nat) (a : Arith) : EngTask :=
  let t := { t with sat := t.sat || a.sat, gov := t.gov || a.gov }
  match a.dest with
  | .none_ => t
  | .d v => t.setD rd v
  | .ac z => { t with ac := setNth t.ac (rd % 4) z }
  | .p v => { t with p := setNth t.p (rd % 8) v }
  | .k v => { t with k := setNth t.k (rd % 8) v }

/-- The D register that a move slot writes at the end of the bundle, from the task and memory at its start. -/
def State.moveD (s : State) (e : Nat) (t : EngTask) (y : Bool) : Move → Option (Nat × Word)
  | .ld d p _ => some (d.val, s.loadWord e t y (t.pr p.val))
  | .mov d src => some (d.val, t.dr src.val)
  | _ => none

/-- The pointer that a move slot post-modifies, with its new value. -/
def EngTask.moveP (t : EngTask) : Move → Option (Nat × Word)
  | .ld _ p k => some (p.val, t.pr p.val + t.kr k.val)
  | .st _ p k => some (p.val, t.pr p.val + t.kr k.val)
  | _ => none

/-- The word that a move slot stores: its key and value. -/
def State.moveSt (s : State) (e : Nat) (t : EngTask) (y : Bool) : Move → Option (Nat × Word)
  | .st d p _ => some (memKey e t y (s.wordAt e t y (t.pr p.val)), t.dr d.val)
  | _ => none

/-- A move slot is a store. -/
def isSt : Move → Bool
  | .st _ _ _ => true
  | _ => false

/-- A move slot is a load. -/
def isLd : Move → Bool
  | .ld _ _ _ => true
  | _ => false

/-- Apply an optional write of D. -/
def EngTask.optD (t : EngTask) : Option (Nat × Word) → EngTask
  | some (i, v) => t.setD i v
  | none => t

/-- Apply an optional write of P. -/
def EngTask.optP (t : EngTask) : Option (Nat × Word) → EngTask
  | some (i, v) => { t with p := setNth t.p i v }
  | none => t

/-- Apply an optional store. -/
def State.optSt (s : State) : Option (Nat × Word) → State
  | some (k, v) => s.setMem k (leBytes 4 v.toNat)
  | none => s

/-- The pointer that WRP and a post-modification of the same bundle both write: its value is not stated (log 2). -/
def clashP (a : Arith) (rd : Nat) (m : Option (Nat × Word)) : Bool :=
  match a.dest, m with
  | .p _, some (i, _) => i == rd % 8
  | _, _ => false

/-- The task behind a normal bundle: every slot reads at the start, and writes at the end. -/
def State.afterBundle (s : State) (e : Nat) (b : Bundle) (par : Bool) (f : EngTask → Bundle → Arith) (t : EngTask) : EngTask :=
  let a := f t b
  let u := (((t.write b.rd.val a).optD (s.moveD e t false b.x)).optD (s.moveD e t true b.y)).optP (t.moveP b.x) |>.optP
    (t.moveP b.y)
  let u := if clashP a b.rd.val (t.moveP b.x) || clashP a b.rd.val (t.moveP b.y) then
      { u with p := setNth u.p (b.rd.val % 8) (BitVec.ofNat 32 (Config.freeNat s.fresh)) } else u
  let ld := isLd b.x || isLd b.y
  { u with par := u.par || (par && ld) }.adv

/-- R319, R320, R323: a normal bundle of the task that an engine runs. A store that differs from a shadowing spare's is no write:
both engines are tested (R342, R343). -/
def State.normal (s : State) (e : Nat) (b : Bundle) (par : Bool) (f : EngTask → Bundle → Arith) : State :=
  match (s.engOf e).run with
  | some t =>
    if t.waiting then s
    else if b.diff && s.shadowed (e / 5) == some e && (isSt b.x || isSt b.y) then s.mismatch e
    else
      let u := s.afterBundle e b par f t
      let sx := s.moveSt e t false b.x
      let sy := s.moveSt e t true b.y
      let s := if par && (isLd b.x || isLd b.y) then s.bump (Rg.C_DATA_PARITY (e / 5)) 1 else s
      let a := f t b
      let s := if clashP a b.rd.val (t.moveP b.x) || clashP a b.rd.val (t.moveP b.y) then
          { s with fresh := s.fresh + 1 } else s
      ((s.optSt sx).optSt sy).setRun e (some u)
  | none => s

/-! ### Normal bundles, one per opcode of Table 83 -/

/-- R323, opcode 0x00. -/
def execNop (e : UnitNo) (b : Bundle) (par : Bool) (s : State) : Host.Outcome State Fault Refusal := .next (s.normal e.val b par opNop)
/-- R323, opcode 0x01. -/
def execCmac (e : UnitNo) (b : Bundle) (par : Bool) (s : State) : Host.Outcome State Fault Refusal := .next (s.normal e.val b par opCmac)
/-- R323, opcode 0x02. -/
def execCmacc (e : UnitNo) (b : Bundle) (par : Bool) (s : State) : Host.Outcome State Fault Refusal := .next (s.normal e.val b par opCmacc)
/-- R323, opcode 0x03. -/
def execCmsb (e : UnitNo) (b : Bundle) (par : Bool) (s : State) : Host.Outcome State Fault Refusal := .next (s.normal e.val b par opCmsb)
/-- R323, opcode 0x04. -/
def execCmul (e : UnitNo) (b : Bundle) (par : Bool) (s : State) : Host.Outcome State Fault Refusal := .next (s.normal e.val b par opCmul)
/-- R323, opcode 0x05. -/
def execCmulc (e : UnitNo) (b : Bundle) (par : Bool) (s : State) : Host.Outcome State Fault Refusal := .next (s.normal e.val b par opCmulc)
/-- R323, opcode 0x06. -/
def execCpow (e : UnitNo) (b : Bundle) (par : Bool) (s : State) : Host.Outcome State Fault Refusal := .next (s.normal e.val b par opCpow)
/-- R323, opcode 0x07. -/
def execDmac (e : UnitNo) (b : Bundle) (par : Bool) (s : State) : Host.Outcome State Fault Refusal := .next (s.normal e.val b par opDmac)
/-- R323, opcode 0x08. -/
def execAclr (e : UnitNo) (b : Bundle) (par : Bool) (s : State) : Host.Outcome State Fault Refusal := .next (s.normal e.val b par opAclr)
/-- R323, opcode 0x09. -/
def execAadd (e : UnitNo) (b : Bundle) (par : Bool) (s : State) : Host.Outcome State Fault Refusal := .next (s.normal e.val b par opAadd)
/-- R323, opcode 0x0A. -/
def execAsub (e : UnitNo) (b : Bundle) (par : Bool) (s : State) : Host.Outcome State Fault Refusal := .next (s.normal e.val b par opAsub)
/-- R323, opcode 0x0B. -/
def execAshr (e : UnitNo) (b : Bundle) (par : Bool) (s : State) : Host.Outcome State Fault Refusal := .next (s.normal e.val b par opAshr)
/-- R323, opcode 0x0C. -/
def execAshl (e : UnitNo) (b : Bundle) (par : Bool) (s : State) : Host.Outcome State Fault Refusal := .next (s.normal e.val b par opAshl)
/-- R323, opcode 0x0D. -/
def execExt (e : UnitNo) (b : Bundle) (par : Bool) (s : State) : Host.Outcome State Fault Refusal := .next (s.normal e.val b par opExt)
/-- R323, opcode 0x0E. -/
def execExtr (e : UnitNo) (b : Bundle) (par : Bool) (s : State) : Host.Outcome State Fault Refusal := .next (s.normal e.val b par opExtr)
/-- R323, opcode 0x0F. -/
def execExti (e : UnitNo) (b : Bundle) (par : Bool) (s : State) : Host.Outcome State Fault Refusal := .next (s.normal e.val b par opExti)
/-- R324, opcode 0x10. -/
def execAdd (e : UnitNo) (b : Bundle) (par : Bool) (s : State) : Host.Outcome State Fault Refusal := .next (s.normal e.val b par opAdd)
/-- R324, opcode 0x11. -/
def execSub (e : UnitNo) (b : Bundle) (par : Bool) (s : State) : Host.Outcome State Fault Refusal := .next (s.normal e.val b par opSub)
/-- R324, opcode 0x12. -/
def execCadd (e : UnitNo) (b : Bundle) (par : Bool) (s : State) : Host.Outcome State Fault Refusal := .next (s.normal e.val b par opCadd)
/-- R324, opcode 0x13. -/
def execCsub (e : UnitNo) (b : Bundle) (par : Bool) (s : State) : Host.Outcome State Fault Refusal := .next (s.normal e.val b par opCsub)
/-- R323, opcode 0x14. -/
def execAnd (e : UnitNo) (b : Bundle) (par : Bool) (s : State) : Host.Outcome State Fault Refusal := .next (s.normal e.val b par opAnd)
/-- R323, opcode 0x15. -/
def execOr (e : UnitNo) (b : Bundle) (par : Bool) (s : State) : Host.Outcome State Fault Refusal := .next (s.normal e.val b par opOr)
/-- R323, opcode 0x16. -/
def execXor (e : UnitNo) (b : Bundle) (par : Bool) (s : State) : Host.Outcome State Fault Refusal := .next (s.normal e.val b par opXor)
/-- R323, opcode 0x17. -/
def execShr (e : UnitNo) (b : Bundle) (par : Bool) (s : State) : Host.Outcome State Fault Refusal := .next (s.normal e.val b par opShr)
/-- R324, opcode 0x18. -/
def execShl (e : UnitNo) (b : Bundle) (par : Bool) (s : State) : Host.Outcome State Fault Refusal := .next (s.normal e.val b par opShl)
/-- R324, opcode 0x19. -/
def execConj (e : UnitNo) (b : Bundle) (par : Bool) (s : State) : Host.Outcome State Fault Refusal := .next (s.normal e.val b par opConj)
/-- R323, opcode 0x1A. -/
def execSwap (e : UnitNo) (b : Bundle) (par : Bool) (s : State) : Host.Outcome State Fault Refusal := .next (s.normal e.val b par opSwap)
/-- R324, opcode 0x1B. -/
def execMul (e : UnitNo) (b : Bundle) (par : Bool) (s : State) : Host.Outcome State Fault Refusal := .next (s.normal e.val b par opMul)
/-- R324, opcode 0x1C. -/
def execCmuld (e : UnitNo) (b : Bundle) (par : Bool) (s : State) : Host.Outcome State Fault Refusal := .next (s.normal e.val b par opCmuld)
/-- R323, opcode 0x1D. -/
def execNorm (e : UnitNo) (b : Bundle) (par : Bool) (s : State) : Host.Outcome State Fault Refusal := .next (s.normal e.val b par opNorm)
/-- R324, opcode 0x1E. -/
def execAbs (e : UnitNo) (b : Bundle) (par : Bool) (s : State) : Host.Outcome State Fault Refusal := .next (s.normal e.val b par opAbs)
/-- R323, opcode 0x1F. -/
def execMin (e : UnitNo) (b : Bundle) (par : Bool) (s : State) : Host.Outcome State Fault Refusal := .next (s.normal e.val b par opMin)
/-- R323, opcode 0x20. -/
def execMax (e : UnitNo) (b : Bundle) (par : Bool) (s : State) : Host.Outcome State Fault Refusal := .next (s.normal e.val b par opMax)
/-- R323, opcode 0x21. -/
def execRdp (e : UnitNo) (b : Bundle) (par : Bool) (s : State) : Host.Outcome State Fault Refusal := .next (s.normal e.val b par opRdp)
/-- R323, opcode 0x22. -/
def execWrp (e : UnitNo) (b : Bundle) (par : Bool) (s : State) : Host.Outcome State Fault Refusal := .next (s.normal e.val b par opWrp)
/-- R323, opcode 0x23. -/
def execRdk (e : UnitNo) (b : Bundle) (par : Bool) (s : State) : Host.Outcome State Fault Refusal := .next (s.normal e.val b par opRdk)
/-- R323, opcode 0x24. -/
def execWrk (e : UnitNo) (b : Bundle) (par : Bool) (s : State) : Host.Outcome State Fault Refusal := .next (s.normal e.val b par opWrk)
/-- R323, opcode 0x25. -/
def execRdf (e : UnitNo) (b : Bundle) (par : Bool) (s : State) : Host.Outcome State Fault Refusal := .next (s.normal e.val b par opRdf)

/-! ### Control bundles -/

/-- COND of a control bundle holds; codes 8 to 15 are reserved (R322) and never hold. -/
def EngTask.cond (t : EngTask) (c : Ctl) : Bool :=
  let v := t.dr c.rc.val
  match c.cond.val with
  | 0 => true
  | 1 => v == 0
  | 2 => !(v == 0)
  | 3 => decide (v.toInt < 0)
  | 4 => decide (0 ≤ v.toInt)
  | 5 => t.sat
  | 6 => t.gov
  | 7 => t.par
  | _ => false

/-- A control bundle of the task an engine runs: not taken, the task goes on behind it; `f` answers the task behind a taken
one, or a trap. -/
def State.ctl (s : State) (e : Nat) (c : Ctl) (f : EngTask → Option EngTask) : State :=
  match (s.engOf e).run with
  | some t =>
    if t.waiting then s
    else if !t.cond c then s.setRun e (some t.adv)
    else match f t with
      | some u => s.setRun e (some u)
      | none => s.stopTask e 2
  | none => s

/-- R321: JMP. -/
def execJmp (e : UnitNo) (c : Ctl) (target : Fin 8192) (s : State) : Host.Outcome State Fault Refusal :=
  .next (s.ctl e.val c fun t => some { t with pc := target.val })

/-- R321, R322: CALL; the ninth open call traps. -/
def execCall (e : UnitNo) (c : Ctl) (target : Fin 8192) (s : State) : Host.Outcome State Fault Refusal :=
  .next (s.ctl e.val c fun t =>
    if 8 ≤ t.stack.length then none else some { t with pc := target.val, stack := (t.pc + 1) :: t.stack })

/-- R321, R322: RET; an empty stack traps. -/
def execRet (e : UnitNo) (c : Ctl) (s : State) : Host.Outcome State Fault Refusal :=
  .next (s.ctl e.val c fun t => match t.stack with
    | a :: r => some { t with pc := a, stack := r }
    | [] => none)

/-- R321, R322: LOOP; a count of 0 in D[RC] skips the body, and the third open loop traps. -/
def execLoop (e : UnitNo) (c : Ctl) (target : Fin 8192) (count : Fin 65536) (s : State) : Host.Outcome State Fault Refusal :=
  .next (s.ctl e.val c fun t =>
    let n := if count.val = 0 then (t.dr c.rc.val).toNat else count.val
    if n = 0 then some (t.after target.val)
    else if 2 ≤ t.loops.length then none
    else some { t with pc := t.pc + 1, loops := ⟨t.pc + 1, target.val, n⟩ :: t.loops })

/-- R321, R314: EXIT ends the task and reports its code; the highest preempted task goes on. -/
def execExit (e : UnitNo) (c : Ctl) (code : Word) (s : State) : Host.Outcome State Fault Refusal :=
  match (s.engOf e.val).run with
  | some t =>
    if t.waiting then .next s
    else if !t.cond c then .next (s.setRun e.val (some t.adv))
    else
      let h := e.val / 5
      let s := (s.taskGone t).bump (Rg.C_TASKS h) 1
      let s := if s.shadowed h = some e.val then s.copyXY e.val (spareUnit h) else s
      let s := match t.slot with
        | some n => s.mapSlot h n fun x => { x with stops := 0 }
        | none => s
      .next ((s.mapEng e.val fun x => { x with code := code }).resume e.val)
  | none => .next s

/-- REG of a long-immediate bundle: D, P or K (Table 82). -/
def EngTask.setReg (t : EngTask) (r : Nat) (v : Word) : EngTask :=
  if r < 16 then t.setD r v
  else if r < 24 then { t with p := setNth t.p (r - 16) v }
  else { t with k := setNth t.k (r - 24) v }

/-- R319: a long-immediate bundle. -/
def execLongImmediate (e : UnitNo) (reg : Fin 32) (imm : Word) (s : State) : Host.Outcome State Fault Refusal :=
  match (s.engOf e.val).run with
  | some t => .next (if t.waiting then s else s.setRun e.val (some (t.setReg reg.val imm).adv))
  | none => .next s

/-- R336: a user task has run for its BUDGET; vendor firmware has none. -/
def execUserBudgetExpiry (e : UnitNo) (s : State) : Host.Outcome State Fault Refusal :=
  match (s.engOf e.val).run with
  | some t => .next (if t.slot.isSome then s.stopTask e.val 1 else s)
  | none => .next s

/-! ## Checking and repair (R341 to R346) -/

/-- Replace an engine in the solves under way. -/
def State.solveMove (s : State) (a b : Nat) : State :=
  let f (x : SolvBank) : SolvBank := { x with engines := (x.engines.map fun n => if n = a then b else n).eraseDups }
  { s with solv := s.solv.map fun (k, v) => (k, { v with x := f v.x, y := f v.y }) }

/-- Give an engine the tasks of another: each starts over, the highest class first. -/
def State.moveTasks (s : State) (a b : Nat) : State :=
  let x := s.engOf a
  let y := s.engOf b
  let own := (match y.run with
    | some t => [t]
    | none => []) ++ y.saved
  let moved := ((match x.run with
    | some t => [t]
    | none => []) ++ x.saved ++ (match x.again with
    | some t => [t]
    | none => [])).map (s.again (b / 5))
  let s := (s.mapEng a fun x => { x with saved := [], again := none, test := 0 }).setRun a none
  if moved = [] then s
  else match (own ++ moved).foldl (fun l t => saveTask t l) [] with
    | t :: r => (s.mapEng b fun x => { x with saved := r }).setRun b (some t)
    | [] => s

/-- The lowest working engine of a half. -/
def State.lowEngine (s : State) (h : Nat) : Option Nat := ((List.range 5).map (· + 5 * h)).find? fun n =>
  !(s.aeState n == 6) && (s.on (Rg.AE_STAT_SERVING n) || !(s.engGroups n).isEmpty)

/-- An engine without a spare to replace it: its groups' work moves to the paired group's engine, or to the lowest working
one (R345). -/
def State.shareEngine (s : State) (e : Nat) (gs : List Nat) : State :=
  gs.foldl (fun s g =>
    let q := if g % 2 = 0 then g + 1 else g - 1
    let m := match s.aeOf q with
      | some n => if s.aeState n = 6 then s.lowEngine (e / 5) else some n
      | none => s.lowEngine (e / 5)
    match m with
    | some m =>
      let s := { s with engShare := tset (fun _ => none) s.engShare g (some m) }
      ((s.moveTasks e m).solveMove e m).raise (e / 5) Ev.ENGINE_SHARED e [m]
    | none => { s with engShare := tset (fun _ => none) s.engShare g none }) s

/-- The spare itself is found faulty: it is retired (R343). -/
def State.retireSpare (s : State) (h : Nat) : State :=
  let sp := spareUnit h
  let s := (s.mapEng sp fun x => { x with test := 0, again := none, saved := [] }).setRun sp none
  let s := ((s.setF (Rg.AE_STAT_STATE sp) 6).setF (spareFld h) 0).setF (windowFld h) 0
  ((s.logFault 5 sp).exhaust h 5).evalRel

/-- An engine is found faulty: the half's spare takes its groups and tasks, or its work moves (R344, R345). -/
def State.engFaulty (s : State) (e : Nat) : State :=
  let h := e / 5
  let sp := spareUnit h
  if s.aeState e = 6 then s
  else if e = sp ∧ s.on (spareFld h) then s.retireSpare h
  else
    let gs := s.engGroups e
    let own := s.raw (Rg.AE_STAT_GROUP e)
    let s := (((s.setF (Rg.AE_STAT_STATE e) 6).setF (Rg.AE_STAT_SERVING e) 0).logFault 5 e).mapEngH h fun x =>
      { x with mm := none }
    if s.on (spareFld h) then
      let s := ((s.setF (spareFld h) 0).setF (windowFld h) 0).setF (Rg.AE_STAT_STATE sp) 0
      let s := (s.setF (Rg.AE_STAT_SERVING sp) 1).setF (Rg.AE_STAT_GROUP sp) own
      let s := s.mapEng sp fun x => { x with test := 0, again := none }
      let s := { s with engShare := s.engShare.map fun (g, m) => (g, if m = some e then some sp else m) }
      let s := (s.moveTasks e sp).solveMove e sp
      let s := s.setRun sp (s.engOf sp).run
      ((s.raise h Ev.ENGINE_RELAY e [sp]).spareIn h).exhaust h 5
    else
      let s := s.shareEngine e gs
      ((s.mapEng e fun x => { x with saved := [], again := none, test := 0 }).setRun e none).evalRel

/-- R341: a 10 ms window of the half's spare starts: shadow of group positions 0 to 3, test of the spare, relief. -/
def execShadowWindow (h : Half) (s : State) : Host.Outcome State Fault Refusal :=
  let h := h.val
  let sp := spareUnit h
  if !s.on Rg.ENG_CFG_SHADOW_EN || !s.on (spareFld h) then .next s
  else
    let w := s.raw (windowFld h)
    let w := if s.aeState sp = 0 ∧ w = 0 then 0 else (w + 1) % 9
    let s := s.setF (windowFld h) w
    if (s.engOf sp).test ≠ 0 then .next s
    else if w < 4 then .next (s.setF (Rg.AE_STAT_STATE sp) 2)
    else if w = 4 then .next (s.underTest sp 2 true)
    else .next ((s.setF (Rg.AE_STAT_STATE sp) (if s.on Rg.ENG_CFG_RELIEF_EN then 3 else 0)).setRun sp (s.engOf sp).run)

/-- Both results of a mismatch are known (R343). -/
def State.settle (s : State) (h : Nat) (m : Mismatch) (engOk spareOk : Bool) : State :=
  let s := s.mapEngH h fun x => { x with mm := none }
  if !engOk then
    let s := s.raise h Ev.SHADOW_MISMATCH m.eng [m.spare, 1]
    let s := if spareOk then s.backToWork m.spare else s.retireSpare h
    s.engFaulty m.eng
  else if !spareOk then ((s.raise h Ev.SHADOW_MISMATCH m.eng [m.spare, 2]).retireSpare h).backToWork m.eng
  else
    let s := s.bump (Rg.C_SHADOW_MISMATCH h) 1
    let now := s.time.now
    let l := (now :: (s.engOf m.eng).mism.filter fun t => decide (now < t + Config.ticksPerSecond)).take 3
    let s := s.mapEng m.eng fun x => { x with mism := l }
    if 3 ≤ l.length then
      ((s.raise h Ev.SHADOW_MISMATCH m.eng [m.spare, 3]).backToWork m.spare).engFaulty m.eng
    else ((s.raise h Ev.SHADOW_MISMATCH m.eng [m.spare, 0]).backToWork m.spare).backToWork m.eng

/-- R341, R343, R344, R346: a known-answer test of an engine ends. -/
def execKatDone (e : UnitNo) (pass : Bool) (s : State) : Host.Outcome State Fault Refusal :=
  let e := e.val
  let h := e / 5
  let idle := s.shadowed h == some e && (s.engOf e).run.isNone && s.aeState e == 0
  match (s.engOf e).test, (s.engH h).mm with
  | 1, some m =>
    let m := if m.eng = e then { m with engOk := some pass } else { m with spareOk := some pass }
    match m.engOk, m.spareOk with
    | some a, some b => .next (s.settle h m a b)
    | _, _ => .next (s.mapEngH h fun x => { x with mm := some m })
  | 0, _ => .next (if idle && !pass then s.engFaulty e else s)
  | _, _ => .next (if pass then s.backToWork e else s.engFaulty e)

/-- R344: after a relay the working engines of a half are tested in turn; a class-1 task ends first. -/
def execKatRotation (h : Half) (s : State) : Host.Outcome State Fault Refusal :=
  let h := h.val
  if !s.on Rg.ENG_CFG_SHADOW_EN || s.on (spareFld h) then .next s
  else
    let last := (s.engH h).rot
    let order := ((List.range 5).map fun i => 5 * h + (last + 1 + i) % 5).filter fun n => !(s.aeState n == 6)
    match order with
    | [] => .next s
    | n :: _ =>
      let s := s.mapEngH h fun x => { x with rot := n % 5 }
      if (s.engOf n).test ≠ 0 then .next s
      else match (s.engOf n).run with
        | some t => .next (if t.desc.cls = 1 then s.mapEng n fun x => { x with test := 3 } else s.underTest n 3 true)
        | none => .next (s.underTest n 3 true)

/-- A parity error in program memory (R346): the task stops, the memory is rewritten from the image store and tested; a
repair that fails twice within 1 s makes the engine faulty (R344). A user task that meets an error without repair is
stopped (R336). -/
def State.progParity (s : State) (e : Nat) (repaired : Bool) : State :=
  let h := e / 5
  if s.aeState e = 6 then s
  else
    let s := s.bump (Rg.C_PROG_PARITY h) 1
    let user := match (s.engOf e).run with
      | some t => t.slot.isSome
      | none => false
    let s := if user && !repaired then s.stopTask e 3 else s
    let s := s.underTest e 5 false
    if repaired then s
    else
      let now := s.time.now
      let l := now :: (s.engOf e).repairs.filter fun t => decide (now < t + Config.ticksPerSecond)
      let s := s.mapEng e fun x => { x with repairs := l.take 2 }
      if 2 ≤ l.length then s.engFaulty e else s

/-- R346. -/
def execProgParityError (e : UnitNo) (repaired : Bool) (s : State) : Host.Outcome State Fault Refusal :=
  .next (s.progParity e.val repaired)

/-- R342: the scrub of a program memory, every 10 ms; what it finds is treated as R346 says. -/
def execProgScrub (e : UnitNo) (bad repaired : Bool) (s : State) : Host.Outcome State Fault Refusal :=
  if s.on Rg.ENG_CFG_PSCRUB_EN then
    let s := s.paceStart 7 e.val
    .next (if bad then s.progParity e.val repaired else s)
  else .next s

end Sys2Proof.Machine
end

