-- ==== Sys2Proof/Machine/Solve.lean ====
section
/-! DEFINITION. The weights of a PRB group from its estimates (R197, R198). -/

namespace Sys2Proof.Machine

/-- An entry of a matrix held by rows. -/
def mAt (m : List (List Cplx)) (i j : Nat) : Cplx := nth (nth m i []) j Cplx.zero

/-- An `n` by `k` matrix from its entries. -/
def mOf (n k : Nat) (f : Nat → Nat → Cplx) : List (List Cplx) :=
  (List.range n).map fun i => (List.range k).map fun j => f i j

/-- Product of an `n` by `m` and an `m` by `k` matrix. -/
def mMul (n m k : Nat) (a b : List (List Cplx)) : List (List Cplx) :=
  mOf n k fun i j => sumC ((List.range m).map fun x => mulC (mAt a i x) (mAt b x j))

/-- Real part of the trace. -/
def mTrace (n : Nat) (a : List (List Cplx)) : Int := ((List.range n).map fun i => (mAt a i i).re).sum

/-- Sum of the squared magnitudes of the entries. -/
def mPower (a : List (List Cplx)) : Nat := ((a.map fun r => (r.map sqMag).sum)).sum

/-- The adjugate of a Hermitian matrix of whole numbers and its determinant, up to one sign, by the characteristic
polynomial: `m` is the matrix of step `k`. -/
def mAdjFrom (a : List (List Cplx)) (n : Nat) : Nat → Nat → List (List Cplx) → List (List Cplx) × Int
  | 0, _, m => (m, 1)
  | 1, k, m => (m, -(mTrace n (mMul n n n a m)) / k)
  | f + 2, k, m =>
    let am := mMul n n n a m
    let c := -(mTrace n am) / k
    mAdjFrom a n (f + 1) (k + 1) (mOf n n fun i j => if i = j then addC (mAt am i j) ⟨c, 0⟩ else mAt am i j)

/-- The adjugate and the determinant of an `n` by `n` Hermitian matrix. -/
def mAdj (n : Nat) (a : List (List Cplx)) : List (List Cplx) × Int :=
  let (m, c) := mAdjFrom a n n 1 (mOf n n fun i j => if i = j then ⟨1, 0⟩ else Cplx.zero)
  let sg : Int := if n % 2 = 0 then 1 else -1
  (mOf n n fun i j => ⟨-sg * (mAt m i j).re, -sg * (mAt m i j).im⟩, sg * c)

/-- A pivot of the factorisation in layer order, the ratio of two leading minors, falls below 2^-20 of the largest diagonal
element (R198). -/
def pivotFails (n : Nat) (a : List (List Cplx)) : Bool :=
  let top := ((List.range n).map fun i => (mAt a i i).re).foldl max 0
  let minor (k : Nat) : Int := if k = 0 then 1 else (mAdj k a).2
  (List.range n).any fun k => decide (minor (k + 1) * 2 ^ 20 < top * minor k)

/-- G G^H + lambda I with 60 fractional bits, for `k` ports and `n` paths. -/
def gram (k n : Nat) (g : List (List Cplx)) (lam : Nat) : List (List Cplx) :=
  mOf k k fun i j =>
    let z := sumC ((List.range n).map fun p => mulC (mAt g i p) (conjC (mAt g j p)))
    let z : Cplx := ⟨z.re * 2 ^ 60, z.im * 2 ^ 60⟩
    if i = j then addC z ⟨lam, 0⟩ else z

/-- The regularisation of a solve, with 60 fractional bits (R197): REG below the mean diagonal. -/
def lambdaOf (r : SolverRec) (k trace : Nat) : Nat := if r.regular then pow10 (-(r.reg : Int)) 40 * trace / k else 0

/-- A component `v` of a weight scaled so that the largest row power, `top` before, is `norm` × 2^-16, in 15 fractional bits,
truncated (R197). -/
def scaleWeight (norm top : Nat) (v : Int) : Int :=
  let q := v.natAbs * v.natAbs * (2 ^ 14 * norm)
  let r := isqrtFrom 20 0 (q / top)
  if 0 ≤ v then (r : Int) else if r * r * top = q then -(r : Int) else -(r : Int) - 1

/-- The weights of a PRB group, a row for each layer over the paths of G, and whether it is ill-conditioned (R197, R198): `g` holds
the estimates of `k` ports over `n` paths. Within the condition number that R198 names, a weight's error before truncation is
at most 2^-10 of the matrix's Frobenius norm; beyond, its value is free (log 74). -/
def groupWeights (r : SolverRec) (conj : Bool) (k n : Nat) (g : List (List Cplx)) : List (List Cplx) × Bool :=
  let trace := mPower g
  let ill := pivotFails k (gram k n g (lambdaOf r k trace))
  let a := gram k n g (if ill then trace * 2 ^ 60 / (1000 * k) else lambdaOf r k trace)
  let (adj, det) := mAdj k a
  let w := mOf k n fun j p =>
    let z := sumC ((List.range k).map fun i => mulC (conjC (mAt g i p)) (mAt adj i j))
    if conj then conjC z else z
  let top := ((List.range n).map fun p => ((List.range k).map fun j => sqMag (mAt w j p)).sum).foldl max 0
  if top = 0 then (w, ill)
  else
    let near := decide (mPower a * mPower adj ≤ (10000 * 10000) * (det * det).toNat)
    let bound := if near then isqrtFrom 30 0 (r.norm * mPower w / (64 * top)) + 1 else 2 ^ 17
    (mOf k n fun j p =>
      let z := mAt w j p
      let dev (im : Bool) : Int := within bound (Config.solveDev g j p im)
      satC 16 ⟨scaleWeight r.norm top z.re + dev false, scaleWeight r.norm top z.im + dev true⟩, ill)

end Sys2Proof.Machine
end

