-- ==== Sys2Proof/Machine/Services.lean ====
section
/-! DEFINITION. The engines' service calls (R326 to R329, Table 84), the commits they bring about (R219, R230, R201, R248,
R309), and the installation of images (R332, R333). -/

namespace Sys2Proof.Machine

/-! ## Calls -/

/-- A service is permitted to the calling program (Table 84): vendor firmware calls all but USER_NOTE; a user slot the
common ones, USER_NOTE, and those of its own service. -/
def permitted (t : EngTask) (service n : Nat) : Bool :=
  match t.slot with
  | none => !(n == 0x0B)
  | some _ => [0x01, 0x02, 0x03, 0x04, 0x0A, 0x0B].contains n
      || (service == 1 && (n == 0x05 || n == 0x06)) || (service == 2 && (n == 0x07 || n == 0x08))
      || (service == 3 && n == 0x09)

/-- The service that a task's slot was loaded for. -/
def State.slotService (s : State) (e : Nat) (t : EngTask) : Nat :=
  match t.slot with
  | some n => match (s.slotOf (e / 5) n).img with
    | some i => i.service
    | none => 0
  | none => 0

/-- The calls that write a result outside the engine (R328). -/
def isResult (n : Nat) : Bool := [0x06, 0x07, 0x08, 0x09, 0x0C, 0x0D].contains n

/-- R327: SVC n of the task an engine runs. `f` answers D0's status, the task and the state. A call that is not permitted
does nothing; a result call under PAR writes nothing and counts in COMMIT_PAR; one that writes with SAT or GOV set counts in
GOV_COMMITS (R326). A call that differs from a shadowing spare's is withheld, and both engines are tested (R342, R343). -/
def State.svc (s : State) (e : Nat) (c : Ctl) (n : Nat) (f : EngTask → Nat × EngTask × State) : State :=
  match (s.engOf e).run with
  | none => s
  | some t =>
    let h := e / 5
    let back (st : Nat) (t : EngTask) (s : State) : State := s.setRun e (some (t.setD 0 (BitVec.ofNat 32 st)).adv)
    if !t.waiting && !t.cond c then s.setRun e (some t.adv)
    else if c.diff && s.shadowed h == some e then s.mismatch e
    else if !permitted t (s.slotService e t) n then back 1 t s
    else if isResult n && t.par then back 4 t (s.bump (Rg.C_COMMIT_PAR h) 1)
    else
      let (st, t, s) := f t
      if t.waiting then s.setRun e (some t) else back st t s

/-- A result has been written: the commit is marked if SAT or GOV is set (R326). -/
def State.govCommit (s : State) (e : Nat) (t : EngTask) : State :=
  if t.sat || t.gov then s.bump (Rg.C_GOV_COMMITS (e / 5)) 1 else s

/-- A path lies on an engine's half: an engine works on its own half's captures and coefficients (R30); a call for another
path is REFUSED (log 47). -/
def ownPath (e p : Nat) : Bool := p / 32 == e / 5

/-- D register `i` as a number. -/
def EngTask.dn (t : EngTask) (i : Nat) : Nat := (t.dr i).toNat

/-- Bytes at an address of the task's X or Y memory, if they lie within it. -/
def State.readXY (s : State) (e : Nat) (t : EngTask) (y : Bool) (a n : Nat) : Option (List Byte) :=
  if a + n ≤ s.winSize e t y then some (s.memBytes (memKey e t y a) n) else none

/-- Words of bytes as complex pairs. -/
def cplxOfBytes : List Byte → List Cplx
  | a :: b :: c :: d :: r => cOfW (BitVec.ofNat 32 (leNat [a, b, c, d])) :: cplxOfBytes r
  | _ => []

/-- The kind of a task's own service record (R361): 1 predistortion, 2 heat, 3 return loss. -/
def State.ownRecord (s : State) (t : EngTask) : Option (List Byte) :=
  if t.desc.service = 1 ∧ t.dn 0 = 1 then (s.dpdOf t.desc.subject).record.map (·.bytes) else none

/-! ## Records and memory -/

/-- A context's record that waits for an engine under kind 0x10 + context (R361): the context and the record's bytes. -/
def State.engineRecord (s : State) (h kind : Nat) : Option (Nat × List Byte) :=
  if 0x10 ≤ kind ∧ kind < 0x14 then
    let c := 4 * h + (kind - 0x10)
    let x := s.capOf c
    match x.cur, x.hold with
    | some r, some k => if r.dest = 1 ∧ s.capState c = 4 ∧ !x.begun then some (c, k.bytes false) else none
    | _, _ => none
  else none

/-- R327, R361: REC_WAIT; without a record the task waits, and a later REC_WAIT of it may find one. The handle lies outside
the pool's addresses. -/
def execRecWait (e : UnitNo) (c : Ctl) (rec : Option (List Byte)) (s : State) : Host.Outcome State Fault Refusal :=
  .next (s.svc e.val c 0x01 fun t =>
    let (n, s') := s.freeNat
    let hdl := 0x400000 + n % (2 ^ 32 - 0x400000)
    let give (t : EngTask) (b : List Byte) : EngTask :=
      { t.setD 1 (BitVec.ofNat 32 hdl) with recs := (hdl, b) :: t.recs, waiting := false }
    match s.engineRecord (e.val / 5) (t.dn 0) with
    | some (k, b) => (0, { give t b with caps := k :: t.caps }, s'.mapCap k fun x => { x with begun := true })
    | none =>
      let own : Option (List Byte) := match s.ownRecord t with
        | some b => some b
        | none => if t.dn 0 = 2 ∨ t.dn 0 = 3 then rec else none
      match own with
      | some b => (0, give t b, s')
      | none => (0, { t with waiting := true }, s))

/-- The pool byte of a half. -/
def State.poolByte (s : State) (h a : Nat) : Byte := tget (fun _ => 0) s.pool (h * 2 ^ 22 + a)

/-- Bytes of a record or of pool memory at D0 and an offset, if they lie within it. -/
def State.xferSrc (s : State) (h : Nat) (t : EngTask) (a off n : Nat) : Option (List Byte) :=
  if a < 0x400000 then
    if a + off + n ≤ 0x400000 then some ((List.range n).map fun i => s.poolByte h (a + off + i)) else none
  else match t.recs.find? fun r => r.1 == a with
    | some (_, b) => if off + n ≤ b.length then some ((b.drop off).take n) else none
    | none => none

/-- R329: XFER_IN. -/
def execXferIn (e : UnitNo) (c : Ctl) (par : Bool) (s : State) : Host.Outcome State Fault Refusal :=
  let h := e.val / 5
  .next (s.svc e.val c 0x02 fun t =>
    let dst := t.dn 2 % 2 ^ 31
    let y := decide (2 ^ 31 ≤ t.dn 2)
    let n := t.dn 3
    match s.xferSrc h t (t.dn 0) (t.dn 1) n with
    | some b =>
      if n % 4 = 0 ∧ dst + n ≤ s.winSize e.val t y then
        let s := if par then s.bump (Rg.C_DATA_PARITY h) 1 else s
        (0, { t with par := t.par || par }, s.setMem (memKey e.val t y dst) b)
      else (2, t, s)
    | none => (2, t, s))

/-- A range of pool memory that a program may write: its own area in a user slot (Table 81). -/
def poolMayWrite (t : EngTask) (a n : Nat) : Bool :=
  match t.slot with
  | some k => decide (0x380000 + k * 0x20000 ≤ a) && decide (a + n ≤ 0x380000 + (k + 1) * 0x20000)
  | none => decide (a + n ≤ 0x400000)

/-- R329: XFER_OUT. -/
def execXferOut (e : UnitNo) (c : Ctl) (s : State) : Host.Outcome State Fault Refusal :=
  let h := e.val / 5
  .next (s.svc e.val c 0x03 fun t =>
    let a := t.dn 0
    let n := t.dn 2
    match s.readXY e.val t (decide (2 ^ 31 ≤ t.dn 1)) (t.dn 1 % 2 ^ 31) n with
    | some b =>
      if n % 4 = 0 ∧ poolMayWrite t a n then
        (0, t, { s with pool := (b.zipIdx).foldl (fun m (x, i) => tset (fun _ => 0) m (h * 2 ^ 22 + a + i) x) s.pool })
      else (2, t, s)
    | none => (2, t, s))

/-- R327: TASK_INFO; the layout of its 64 bytes is not stated (log 2). -/
def execTaskInfo (e : UnitNo) (c : Ctl) (s : State) : Host.Outcome State Fault Refusal :=
  .next (s.svc e.val c 0x04 fun t =>
    if t.dn 0 + 64 ≤ s.winSize e.val t false then
      let (v, s) := s.freeNat
      (0, t, s.setMem (memKey e.val t false (t.dn 0)) (leBytes 64 v))
    else (2, t, s))

/-- A predistortion bank as 448 bytes (Table 58). -/
def DpdBank.bytes (b : DpdBank) : List Byte :=
  ((List.range 104).map fun i => leCplx (tget (fun _ => Cplx.zero) b.coef i)).flatten ++ leBytes 1 b.state
    ++ leBytes 1 (b2n b.sat + 2 * b2n b.gov + 4 * b2n b.seed) ++ leInt 2 b.rho ++ leBytes 4 b.at_ ++ leBytes 4 b.loKhz
    ++ zeros 20

/-- R327, R214: BANK_READ. -/
def execBankRead (e : UnitNo) (c : Ctl) (s : State) : Host.Outcome State Fault Refusal :=
  .next (s.svc e.val c 0x05 fun t =>
    if 64 ≤ t.dn 0 ∨ s.winSize e.val t false < t.dn 1 + 448 then (2, t, s)
    else if !ownPath e.val (t.dn 0) then (3, t, s)
    else (0, t, s.setMem (memKey e.val t false (t.dn 1)) (s.dpdOf (t.dn 0)).committed.bytes))

/-- R327: AIRTIME; D1 as in Table 28, D2 the tick. -/
def execAirtime (e : UnitNo) (c : Ctl) (s : State) : Host.Outcome State Fault Refusal :=
  .next (s.svc e.val c 0x0A fun t =>
    (0, (t.setD 1 (BitVec.ofNat 32 (atimeWord s.stamp))).setD 2 (BitVec.ofNat 32 s.stamp.tick), s))

/-- R327: USER_NOTE raises USER_EVENT at most once per slot in 1 s; a later call is counted and dropped. -/
def execUserNote (e : UnitNo) (c : Ctl) (s : State) : Host.Outcome State Fault Refusal :=
  let h := e.val / 5
  .next (s.svc e.val c 0x0B fun t =>
    let n := t.slot.getD 0
    let key := n + 4 * h
    let r := s.rate Ev.USER_EVENT key
    let wait : Bool := match r.last with
      | some x => decide (s.time.now < x + Config.ticksPerSecond)
      | none => false
    if wait then (0, t, s.setRate Ev.USER_EVENT key { r with since := r.since + 1 })
    else (0, t, (s.setRate Ev.USER_EVENT key ⟨some s.time.now, 0⟩).raise h Ev.USER_EVENT n [t.dn 0, h]))

/-! ## Predistortion (R229, R230) -/

/-- A candidate as the commit service checks it: positions outside the structure, and of neighbours not in effect, are
zero (R230). -/
def State.candidate (s : State) (p : Nat) (l : List Cplx) : Tbl Cplx :=
  (l.zipIdx.map fun (z, i) => (i, z)).filter fun (i, z) =>
    !(z == Cplx.zero) && inStructure (s.dpdOf p).rec_ i && (decide (i < 56) || (s.neighbour p ((i - 56) / 12)).isSome)

/-- The outcome of Table 60: code in D1, and D, ρ(cand), ρ(comm) in 1/256 dB. -/
structure Decision where
  code : Nat
  dist : Int
  rhoC : Int
  rhoM : Int
deriving DecidableEq, Repr

/-- The commit decision on a candidate (R230, Table 60); an equal candidate has no distance. -/
def State.decide60 (s : State) (p : Nat) (cand : Tbl Cplx) (align : Int × Cplx) (k : DpdRecord) : Decision :=
  let d := s.dpdOf p
  let yc := bankOut cand k k.x
  let ym := (bankOut d.committed.coef k k.x).map (satC 16)
  let num := energy (subList (yc.map (satC 16)) ym)
  let dist := ratioOr 4 num (energy ym)
  let rc := residualDb cand align k
  let rm := residualDb d.committed.coef align k
  let trust := s.f Rg.DPD_CFG2_TRUST
  let bound : Int := if d.acq = 0 then trust else min (s.f Rg.DPD_CFG2_ACQ_TRUST) trust
  let code :=
    if num ≠ 0 ∧ -(64 * bound) < dist then 1
    else if yc.any fun z => satHits 16 z.re + satHits 16 z.im ≠ 0 then 3
    else if rm < rc then 2
    else if 20 * rm - 256 * (s.f Rg.DPD_CFG2_IMPROVE : Int) < 20 * rc then 5
    else 0
  ⟨code, dist, rc, rm⟩

/-- The commit service takes a decision into effect. -/
def State.commitDpd (s : State) (e p : Nat) (t : EngTask) (cand : Tbl Cplx) (k : Decision) : State :=
  let h := p / 32
  let s := s.mapDpd p fun d => { d with acq := d.acq - 1, dist := k.dist, estimating := false, record := none }
  if k.code = 0 then
    let at_ := s.nextSwap 50
    let khz := s.loKhz (p / 8)
    let b : DpdBank :=
      { state := 1, coef := cand, sat := t.sat, gov := t.gov, seed := false, rho := wrapTo 16 k.rhoM, at_ := 0, loKhz := khz }
    let s := s.mapDpd p fun d => { d.setIdle b with swapAt := some at_, direct := false }
    let s := s.bump (Rg.C_DPD_COMMIT h) 1
    let s := s.govCommit e t
    if t.gov then s.raise h Ev.DPD_GOV p [] else s
  else if k.code = 5 then s.bump (Rg.C_DPD_NOCHANGE h) 1
  else s.dpdRevert p k.code k.dist k.rhoC k.rhoM

/-- R230: DPD_COMMIT. -/
def execDpdCommit (e : UnitNo) (c : Ctl) (s : State) : Host.Outcome State Fault Refusal :=
  .next (s.svc e.val c 0x06 fun t =>
    let p := t.dn 0
    match s.readXY e.val t false (t.dn 1) 416, s.readXY e.val t false (t.dn 2) 8 with
    | some b, some al =>
      if 64 ≤ p then (2, t, s)
      else
        let d := s.dpdOf p
        match d.record with
        | some x =>
          if d.idle.state = 0 ∧ d.serving.state = 3 ∧ d.estimating ∧ s.pathIn p ∧ ownPath e.val p then
            let cand := s.candidate p (cplxOfBytes b)
            let k := s.decide60 p cand (alignOf al) x
            let s := s.mapDpd p fun d => { d with align := alignOf al }
            (0, t.setD 1 (BitVec.ofNat 32 k.code), s.commitDpd e.val p t cand k)
          else (3, t, s)
        | none => (3, t, s)
    | _, _ => (2, t, s))

/-! ## Solver (R201, R202) -/

/-- Change the bank that a flow's solve writes; nothing if none does. -/
def State.mapWriting (s : State) (f : Nat) (g : SolvBank → SolvBank) : State :=
  s.mapSolv f fun v => if v.x.state = 1 then { v with x := g v.x } else if v.y.state = 1 then { v with y := g v.y } else v

/-- The estimates of a group: a row for each port over the paths of the solve (R197). -/
def SolvBank.gMatrix (b : SolvBank) (g : Nat) : List (List Cplx) :=
  (List.range b.k).map fun k => b.paths.map fun p => nth (tget (fun _ => []) b.est (p * 16 + k)) g Cplx.zero

/-- The weights that the solver firmware writes for a group, layer-major over the configured paths, zero for paths left out, and
whether the group is ill-conditioned (R197, R198). -/
def SolvBank.solved (b : SolvBank) (g np : Nat) : List Cplx × Bool :=
  match b.rec_ with
  | some r =>
    let (w, ill) := groupWeights r (r.uplink && b.conj) b.k b.paths.length (b.gMatrix g)
    ((List.range b.k).flatMap fun j => (List.range np).map fun p =>
      if b.paths.contains p then mAt w j (b.paths.idxOf p) else Cplx.zero, ill)
  | none => ([], false)

/-- An engine may write a group (R199): it is one of the solve's, no other has written the group, and its share is as even as the
others'. -/
def SolvBank.mayPut (b : SolvBank) (e g : Nat) : Bool :=
  b.engines.contains e && (b.puts.filter fun x => x.2 == g).all (fun x => x.1 == e)
    && decide ((b.puts.filter fun x => x.1 == e && !(x.2 == g)).length < ceilDiv b.ng b.team.length)

/-- R327, R197 to R199: SOLVER_PUT writes a group's weights, layer-major with the configured paths in order; paths left out of the
solve have zero weights. The firmware's program writes the weights of R197; a user program's are what its X memory holds, and
`ill` says that it marks the group. -/
def execSolverPut (e : UnitNo) (c : Ctl) (ill : Bool) (s : State) : Host.Outcome State Fault Refusal :=
  .next (s.svc e.val c 0x07 fun t =>
    let f := t.desc.subject
    let g := t.dn 0
    match s.writing f with
    | some b =>
      let np := s.pathCount
      match s.readXY e.val t false (t.dn 1) (4 * b.k * np) with
      | some l =>
        if b.ng ≤ g then (2, t, s)
        else if !b.mayPut e.val g then (3, t, s)
        else
          let (w, ill) := if t.slot.isNone then b.solved g np else (cplxOfBytes l, ill)
          let put (m : Tbl Cplx) : Tbl Cplx := (w.zipIdx).foldl (fun m (z, i) =>
            tset (fun _ => Cplx.zero) m ((i / np * 69 + g) * 64 + i % np)
              (if b.paths.contains (i % np) then z else Cplx.zero)) m
          let s := s.mapWriting f fun b =>
            { b with w := put b.w, sat := b.sat || t.sat, gov := b.gov || t.gov
                     puts := (e.val, g) :: b.puts.filter fun x => !(x.2 == g)
                     ill := if ill then g :: b.ill.filter fun x => !(x == g) else b.ill }
          let s := if ill then s.bump (Rg.C_ILL_GROUP (s.flow f).half) 1 else s
          let h := (s.flow f).half
          let s := s.d2dPush h (.weights f) (32 * b.k * ((List.range np).filter fun p => !(p / 32 == h)).length)
          (0, t, s.govCommit e.val t)
      | none => (2, t, s)
    | none => (3, t, s))

/-- R201, R202: both halves hold all weights of a solve whose engines have all asked for the commit: the bank is PENDING until the
first slot boundary of the flow's carrier at least 150 µs on. -/
def State.solverCommits (s : State) (f : Nat) : State :=
  let h := (s.flow f).half
  match s.writing f with
  | some b =>
    if b.engines ≠ [] ∨ s.d2dHas h (.weights f) then s
    else
      let at_ := nextSlot (s.ul (s.flow f).carrier).scs (s.time.count + usTicks 150)
      let s := (s.mapWriting f fun b => { b with state := 2, effectAt := at_ }).bump (Rg.C_SOLVE_DONE h) 1
      let s := s.mapSolv f fun v => { v with out := true }
      if b.gov then s.raise h Ev.SOLVER_GOV f [atimeWord (stampOf s.muRef b.occ)] else s
  | none => s

/-- R201: SOLVER_COMMIT; the last engine's makes the bank commit as soon as the other half's weights have crossed. -/
def execSolverCommit (e : UnitNo) (c : Ctl) (s : State) : Host.Outcome State Fault Refusal :=
  .next (s.svc e.val c 0x08 fun t =>
    let f := t.desc.subject
    match s.writing f with
    | some b =>
      if b.engines.contains e.val then
        let s := s.mapWriting f fun b =>
          { b with engines := b.engines.filter fun n => !(n == e.val), sat := b.sat || t.sat, gov := b.gov || t.gov }
        (0, t, (s.govCommit e.val t).solverCommits f)
      else (3, t, s)
    | none => (3, t, s))

/-! ## Calibration (R247, R248) -/

/-- A step clamped to a limit. -/
def clampTo (lim v : Int) : Int := if lim < v then lim else if v < -lim then -lim else v

/-- A delay split into an integer part and a DF of 0 to 65,535 in 1/65,536 tick, from integer and DF less a step in
0.01 ps; held within 0 to 64 ticks (R242, R247). -/
def delaySplit (adv df : Nat) (step : Int) : Nat × Nat :=
  let total : Int := (adv : Int) * 65536 - df + -((-(step * 65536 * 192)) / 39062500)
  let v := if total < 0 then 0 else if 64 * 65536 < total then 64 * 65536 else total.toNat
  let a := (v + 65535) / 65536
  (a, a * 65536 - v)

/-- R248: one background update of a path: 2^-BG_SHIFT of the residual, clamped; the new values wait for their
boundaries. -/
def State.backgroundUpdate (s : State) (p : Nat) (r : CalRes) : State :=
  let h := p / 32
  let sh := s.f Rg.CAL_CFG_BG_SHIFT
  let g := asr r.gain sh
  let a := asr r.phase sh
  let d := asr r.delay sh
  let g' := clampTo 50 g
  let a' := clampTo 500 a
  let d' := clampTo 50 d
  let hit := !(g == g') || !(a == a') || !(d == d')
  let s := if hit then s.bump (Rg.C_STEP_CLAMP h) 1 else s
  let run := if hit then (s.calOf p).clampRun + 1 else 0
  let s := s.mapCal p fun c => { c with clampRun := if run = 3 then 0 else run }
  let s := if run = 3 then
      (s.raise h Ev.CAL_DRIFT p []).updGroup (p / 8) fun x => { x with drift := true } else s
  let vals : List CalVal :=
    if r.rx then
      let x := s.rx p
      let (dly, df) := delaySplit x.dly x.df d'
      [.rxEntry 0 (rotGain (tget (fun _ => ⟨4096, 0⟩) x.table 0) g' a'), .rxFrac df]
        ++ (if dly = x.dly then [] else [.rxDly dly])
    else
      let x := s.tx p
      let (adv, df) := delaySplit x.adv x.df d'
      [.txGain (rotGain x.gain g' a'), .txFrac df] ++ (if adv = x.adv then [] else [.txAdv adv])
  let s := (vals ++ r.vals.filter serviceVal).foldl (fun s v => s.pendCal p v (s.calBoundary v)) s
  s.refreshRecip p (s.calBoundary (.recip Cplx.zero))

/-- The residual record that the vendor firmware gives: the path's last measurement in the record's direction, if it has not been
put yet and was found good. -/
def State.vendorRes (s : State) (p : Nat) (r : CalRes) : Option CalRes :=
  let c := s.calOf p
  let l := if r.rx then c.resRx else c.resTx
  if (if r.rx then c.putRx else c.putTx) then
    some { r with bad := 0, whole := false, gain := nth l 0 0, phase := nth l 1 0, delay := nth l 2 0 }
  else none

/-- R248, R256: CAL_PUT; a faulty measurement marks the path suspect or retires it and updates nothing. The form of the
applied step in D1 is not stated (log 2). -/
def execCalPut (e : UnitNo) (c : Ctl) (r : CalRes) (s : State) : Host.Outcome State Fault Refusal :=
  .next (s.svc e.val c 0x09 fun t =>
    let p := t.dn 0
    if 64 ≤ p ∨ s.winSize e.val t false < t.dn 1 then (2, t, s)
    else if !s.pathIn p || !ownPath e.val p then (3, t, s)
    else match (if t.slot.isNone then s.vendorRes p r else some r) with
    | none => (3, t, s)
    | some r =>
      if r.bad ≠ 0 then (3, t, s.verdict p r.rx r.bad r.whole)
      else
        let s := (s.backgroundUpdate p r).govCommit e.val t
        let s := s.mapCal p fun c => if r.rx then { c with putRx := false } else { c with putTx := false }
        let (v, s) := s.freeNat
        (0, t.setD 1 (BitVec.ofNat 32 v), s))

/-! ## Pulses and return loss -/

/-- R219: PULSE_PUT writes the pulse of the masked paths of the engine's half to the bank out of service. -/
def execPulsePut (e : UnitNo) (c : Ctl) (pulse : List Cplx) (s : State) : Host.Outcome State Fault Refusal :=
  .next (s.svc e.val c 0x0C fun t =>
    let h := e.val / 5
    if s.winSize e.val t false < t.dn 1 then (2, t, s)
    else
      let pulse := (pulse.take 255).map (satC 18)
      let s := ((List.range 32).filter fun i => t.dn 0 / 2 ^ i % 2 == 1).foldl
        (fun s i => s.mapDpd (32 * h + i) fun d => { d with newPulse := some pulse }) s
      (0, t, s.govCommit e.val t))

/-- R308, R309: RL_PUT; the firmware's value is that of the last measurement. -/
def execRlPut (e : UnitNo) (c : Ctl) (s : State) : Host.Outcome State Fault Refusal :=
  .next (s.svc e.val c 0x0D fun t =>
    let p := t.dn 0
    if 64 ≤ p then (2, t, s)
    else if !s.pathIn p || !ownPath e.val p then (3, t, s)
    else
      let rl := if t.slot.isNone then (s.fep p).rlMeas.getD (t.dr 1).toInt else (t.dr 1).toInt
      (0, t, (s.returnLoss p rl).govCommit e.val t))

/-! ## Images (R330 to R333) -/

/-- The bytes of an image at an offset. -/
def imgField (l : List Byte) (off n : Nat) : Nat := leNat ((l.drop off).take n)

/-- What the header of Table 85 says of an image. -/
def imgOf (l : List Byte) : EngImg :=
  { version := imgField l 0x08 4, service := imgField l 0x07 1, n := imgField l 0x0C 2, entry := imgField l 0x0E 2
    xwin := imgField l 0x18 4, ywin := imgField l 0x1C 4 }

/-- The bundles of an image, as little-endian words. -/
def imgBundles (l : List Byte) : List Nat :=
  (List.range (imgField l 0x0C 2)).map fun i => leNat ((l.drop (0x40 + 8 * i)).take 8)

/-- Initial X and Y contents of an image. -/
def imgData (l : List Byte) (y : Bool) : List Byte :=
  let x0 := 0x40 + 8 * imgField l 0x0C 2
  let xl := imgField l 0x10 4
  if y then (l.drop (x0 + xl)).take (imgField l 0x14 4) else (l.drop x0).take xl

/-- A task of a slot (none: of vendor firmware) is under way on a half. -/
def State.slotBusy (s : State) (h : Nat) (slot : Option Nat) : Bool :=
  (List.range 5).any fun i =>
    let x := s.engOf (5 * h + i)
    (match x.run with
      | some t => t.slot == slot
      | none => false) || x.saved.any fun t => t.slot == slot

/-- Write an image into a half's program memories and its engines' data memories. -/
def State.placeImage (s : State) (h : Nat) (slot : Option Nat) (l : List Byte) : State :=
  let base := h * 2 ^ 15 + (match slot with
    | some n => 8192 + n * 2048
    | none => 0)
  let s := { s with prog := (imgBundles l).zipIdx.foldl (fun m (w, i) => tset (fun _ => 0) m (base + i) w) s.prog }
  let t := EngTask.fresh ⟨4, 0, 0, 0⟩ slot 0 0
  (List.range 5).foldl (fun s i =>
    let e := 5 * h + i
    (s.setMem (memKey e t false 0) (imgData l false)).setMem (memKey e t true 0) (imgData l true)) s

/-- Install an image on a half: a user image in its slot, with the binding kept. -/
def State.installOn (s : State) (h slot : Nat) (l : List Byte) : State :=
  if slot = 0xFF then (s.placeImage h none l).mapEngH h fun x => { x with vendor := some (imgOf l) }
  else (s.placeImage h (some slot) l).mapSlot h slot fun x => { x with img := some (imgOf l) }

/-- Halves of a mask. -/
def maskHalves (m : Nat) : List Nat := (List.range 2).filter fun h => m / 2 ^ h % 2 == 1

/-- R332, R333: an image is written: a user image is in its slot on every engine of the named halves while no task of the
slot runs; vendor firmware is installed before the set-up lock, and waits for the next start-up after it. -/
def execImageInstallDone (halves slot : Nat) (s : State) : Host.Outcome State Fault Refusal :=
  let hs := maskHalves halves
  match s.imgLoads.find? fun x => x.halves == halves && x.slot == slot with
  | none => .next s
  | some x =>
    let busy := hs.any fun h => s.slotBusy h (if slot = 0xFF then none else some slot)
    let done (s : State) (r : Res) : State :=
      ({ s with imgLoads := s.imgLoads.erase x }).finishLong (fun y => y.what == LongWhat.image halves slot) St.OK fun _ => r
    if slot = 0xFF ∧ s.locked then
      .next (done (s.setF Rg.ENG_STAT_PENDING_RESET 1) { flags := 1 })
    else if busy then .next s
    else
      let s := hs.foldl (fun s h => s.installOn h slot x.bytes) s
      let v := (imgOf x.bytes).version
      let s := if slot = 0xFF then s.setF Rg.ENG_FWVER_FW_VERSION v else s
      .next (done (s.raise (hs.headD 0) Ev.IMAGE_INSTALLED slot [v, halves]) {})

end Sys2Proof.Machine
end

