-- ==== Sys2Proof/Machine/Capture.lean ====
section
/-! DEFINITION. The capture engine's own moves (ch. 12): triggers, records, delivery and release. -/

namespace Sys2Proof.Machine

/-- Sample rate of a source in kHz (Table 89). -/
def State.capRate (s : State) (r : CaptureRec) : Nat :=
  match r.source with
  | 1 => 491520
  | 5 => 15 * 2 ^ (s.ul r.sel.val).scs * 2 ^ (s.ul r.sel.val).log2n
  | 6 => 2457600
  | _ => 1966080

/-- OCC of a record whose first sample falls at a count (Table 93): of TX sources, in 0.01 %. -/
def State.capOcc (s : State) (r : CaptureRec) (first : Nat) : Nat :=
  let (n, all) := s.occAt (r.path.val / 32) first
  if 1 ≤ r.source ∧ r.source ≤ 3 then (if all = 0 then 0 else n * 10000 / all) else 0xFFFF

/-- Pre-trigger samples that a context holds (R355): those of the source since FILL began, PRE at most. -/
def State.capHeld (s : State) (c : Nat) (r : CaptureRec) : Nat :=
  if s.capState c = 1 then min r.pre ((s.time.now - (s.capOf c).fillAt) * s.capRate r / 491520) else r.pre

/-- A trigger of a context is at its instant (Table 91): IMMEDIATE with PRE samples held, TIME at its time and every period after
it, COMMAND by its command alone. -/
def State.trigNow (s : State) (c : Nat) (r : CaptureRec) : Bool :=
  let d := (s.time.now : Int) - (s.capOf c).trigTick
  match r.trig with
  | 0 => s.capState c == 2
  | 1 => d == 0 || (decide (0 < r.period) && decide (0 < d) && d % (r.period : Int) == 0)
  | 5 => false
  | _ => true

/-- R355: PRE samples are held. -/
def execCapturePreHeld (c : Fin 8) (s : State) : Host.Outcome State Fault Refusal :=
  match (s.capOf c.val).cur with
  | some r => .next (if s.capState c.val = 1 ∧ s.capHeld c.val r = r.pre then s.setCap c.val 2 else s)
  | none => .next s

/-- A trigger of a context: it enters RECORD from FILL, then SHORT, or READY; in RECORD or DELIVER it is missed (R355, R356,
R365). -/
def State.capTrigger (s : State) (c : Nat) : State :=
  let h := c / 4
  match (s.capOf c).cur with
  | none => s
  | some r =>
    let st := s.capState c
    if st = 1 ∨ st = 2 then
      let n := s.capHeld c r
      let at_ := s.stamp
      let first := (s.time.count + Config.ticksPerCycle - ceilDiv (n * 491520) (s.capRate r)) % Config.ticksPerCycle
      let firstAt := stampOf s.muRef first
      let occ := s.capOcc r first
      (s.mapCap c fun x =>
        { x with
          preValid := n, short := decide (st = 1 ∧ n < r.pre), trigAt := if x.acqs = 0 then at_ else x.trigAt
          firstAt := if x.acqs = 0 then firstAt else x.firstAt, occ := if x.acqs = 0 then occ else x.occ }).setCap c 3
    else if st = 3 ∨ st = 4 then
      let s := (s.bump (Rg.C_TRIG_MISSED h) 1).mapCap c fun x => { x with missed := x.missed + 1 }
      if s.on Rg.CAP_CFG_MISS_EVT then s.raiseLimited h Ev.CAPTURE_MISSED c 4915200 1 [] else s
    else s

/-- R355, R356. -/
def execCaptureTriggerSample (c : Fin 8) (s : State) : Host.Outcome State Fault Refusal :=
  match (s.capOf c.val).cur with
  | some r => .next (if s.trigNow c.val r then s.capTrigger c.val else s)
  | none => .next s

/-- Samples added to sums, the longer list giving the length (R358). -/
def addSamples : List Cplx → List Cplx → List Cplx
  | [], l => l
  | l, [] => l
  | a :: r, b :: q => addX a b :: addSamples r q

/-- The header of a context's record over its samples (Table 93), and its number. -/
def State.formRecord (s : State) (c : Nat) (r : CaptureRec) (l : List Cplx) : CapRecord :=
  let x := s.capOf c
  let last : Bool := x.stop || !r.repeat_ || x.left == some 1
  CapRecord.measured
    { number := tget (fun _ => 0) s.capNum (c / 4), ctx := c, source := r.source, path := r.path.val, short := x.short
      avg := decide (0 < r.avg), last := last, trunc := x.trunc, preReq := r.pre, preValid := x.preValid
      post := if x.trunc then l.length - x.preValid else r.post
      trigAt := x.trigAt, avgN := x.acqs + 1, first := x.firstAt
      power := 0, peak := 0, ovr := 0, occ := x.occ, rate := s.capRate r, missed := x.missed, samples := l }

/-! ## Delivery (R361 to R363) -/

/-- Fill posted CAP buffers of given lengths in ring order. -/
def State.capFill (s : State) (c num : Nat) (par : Bool) (b : List Byte) : List Nat → State
  | [] => s
  | n :: r =>
    let off := (s.capOf c).off
    let part := (b.drop off).take n
    let fin := decide (b.length ≤ off + n)
    let s := s.emit (.capBuffer c num off (off == 0) fin par part)
    let s := s.setDevIdx 4 ((s.devIdx 4 + 1) % s.ringSize 4)
    let s := s.mapCap c fun x => { x with begun := true, off := off + part.length }
    if fin then (s.capDone c).irq 3 else s.capFill c num par b r

/-- A record as CAPTURE packets of its flow (Table 37). -/
def capPackets (c flow num : Nat) (b : List Byte) : List TxItem :=
  let parts := pieces 9184 (b.length / 9184 + 1) b
  (parts.zipIdx).map fun (d, i) =>
    { type := 6, flow := flow, nsec := 0, deadline := 0
      body := beBytes 1 (c / 4) ++ beBytes 1 (b2n (i + 1 == parts.length)) ++ zeros 2 ++ beBytes 4 num
        ++ beBytes 4 (i * 9184) ++ d }

/-- Deliver a record as far as it can leave: HOST and NKL; HOLD and ENGINE records wait to be fetched (R360 to R363). -/
def State.capDeliver (s : State) (c : Nat) (par : Bool) (bufs : List Nat) : State :=
  let h := c / 4
  let x := s.capOf c
  match x.cur, x.hold with
  | some r, some k =>
    if s.capState c ≠ 4 ∨ x.done then s
    else
      let count (s : State) : State := if par && (s.capOf c).done then s.bump (Rg.C_CAP_PARITY h) 1 else s
      match r.dest with
      | 2 =>
        if s.ringOn 4 && s.canWriteHost then
          count (s.capFill c k.number par (k.bytes par) (bufs.take (s.ringDist 4 (s.devIdx 4) (s.hostIdx 4))))
        else s
      | 3 =>
        let f := s.flow r.flow.val
        if f.state = 1 ∧ f.dir = 2 then
          let s := (capPackets c r.flow.val k.number (k.bytes par)).foldl (fun s it => s.queueTx f.half it) s
          count (s.capDone c)
        else (s.bump (Rg.C_SHED_DROP h) 1).capNext c
      | _ => s
  | _, _ => s

/-- R358, R359, R361, R362: POST samples are written. An acquisition of an average is added; the last one, or a plain
record, gets its header and is delivered; it crosses to the half from which it leaves (Table 5). -/
def execCaptureRecordDone (c : Fin 8) (samples : List Cplx) (par : Bool) (bufs : List Nat) (s : State) :
    Host.Outcome State Fault Refusal :=
  let c := c.val
  let h := c / 4
  let x := s.capOf c
  match x.cur with
  | none => .next s
  | some r =>
    if s.capState c ≠ 3 then .next s
    else
      let sums := addSamples x.sums samples
      if 0 < r.avg ∧ x.acqs + 1 < 2 ^ r.avg ∧ !x.trunc then
        .next ((s.mapCap c fun x => { x with sums := sums, acqs := x.acqs + 1 }).setCap c 1)
      else
        let l := if 0 < r.avg then sums.map fun z => shrC z r.avg else samples
        let k := s.formRecord c r l
        let s := if k.short then s.bump (Rg.C_SHORT_REC h) 1 else s
        let s := { s with capNum := tset (fun _ => 0) s.capNum h ((k.number + 1) % 2 ^ 32) }
        let s := (s.mapCap c fun x => { x with hold := some k, missed := 0, sums := [], trunc := false }).setCap c 4
        let dst := match r.dest with
          | 2 => 0
          | 3 => (s.flow r.flow.val).half
          | _ => h
        let s := if dst = h then s else s.d2dPush h (.capture c) (8 * (k.bytes par).length)
        .next (s.capDeliver c par bufs)

/-- R361, R363: a record that waits in DELIVER may leave. -/
def execCaptureDeliverResume (c : Fin 8) (par : Bool) (bufs : List Nat) (s : State) : Host.Outcome State Fault Refusal :=
  .next (s.capDeliver c.val par bufs)

/-- R361, Table 92: a delivered record is released. -/
def execCaptureRelease (c : Fin 8) (s : State) : Host.Outcome State Fault Refusal :=
  .next (if s.capState c.val = 4 ∧ (s.capOf c.val).done then s.capNext c.val else s)

end Sys2Proof.Machine
end

