-- ==== Sys2Proof/Machine/AirTime.lean ====
section
/-! DEFINITION. Corrections of the air-time counter (R451, R452, R454). -/

namespace Sys2Proof.Machine

/-- The error in ps between an assigned and an own count, both in 1/256 tick: to the nearest occurrence in the cycle. -/
def errorPs (assigned own : Nat) : Int :=
  let m : Int := 256 * Config.ticksPerCycle
  let d := ((assigned : Int) - own) % m
  let d := if 2 * d < m then d else d - m
  d * 390625 / 49152

/-- A correction under way is dropped: a new one replaces what remains of it, and a pending step of the reference PLL is
cancelled (R452). -/
def State.dropCorr (s : State) : State :=
  let s := (s.slewTick.mapTime fun t => { t with corr := none }).setF Rg.AT_STAT_SLEWING 0
  let s := { s with ref := { s.ref with muteAt := none } }
  if s.refState = 3 ∨ s.refState = 4 then s.setRef 1 else s

/-- How a correction is applied (R452, Table 133): 3 load, 2 step, 1 slew, 0 nothing to do. -/
def State.corrKind (s : State) (e : Int) : Nat :=
  if !s.time.valid then 3
  else if s.time.txHeld then 2
  else if 1000000000 ≤ e.natAbs then 2
  else if e = 0 then 0
  else if e.natAbs ≤ 100 * s.f Rg.REF_CFG_JUMP_THR || !s.on Rg.REF_CFG_JUMP_POL then 1 else 2

/-- Apply an error from a SET (1) or a TSYNC pulse (2) (R452). -/
def State.applyError (s : State) (e : Int) (src : Nat) : State :=
  let kind := s.corrKind e
  let held := s.time.txHeld
  let s := s.dropCorr
  let s := match kind with
    | 3 => ((s.shiftTime e).mapTime fun t => { t with valid := true }).corrected
    | 2 => if held then ((s.shiftTime e).shortHeats 2).corrected else s.startCorr e true src
    | 1 => s.startCorr e false src
    | _ => s.corrected
  (s.setF Rg.AT_STAT_LAST_SRC src).raise 0 Ev.TIME_SYNC 0 [src, argInt e, kind]

/-- A SET has found its anchor, which arrived at a count in 1/64 tick (R451). TSYNC governs the phase of a valid counter: then
only an error of frame number is taken (R454). In split mode H1 corrects its own count (R449). -/
def State.applySet (s : State) (h : Nat) (x : SetRec) (count64 : Nat) : State :=
  let e := errorPs (countOf s.muRef x.stamp * 256 + x.delay) (count64 * 4)
  if s.f Rg.AT_CFG_TSYNC_MODE ≠ 0 ∧ s.time.valid ∧ e.natAbs < 5000000000 then s.bump (Rg.C_SET_IGNORED h) 1
  else if s.split ∧ h = 1 then
    let s := s.mapTime fun t => { t with h1Diff := t.h1Diff + e * 192 / 390625 }
    (s.bump (Rg.C_SET_APPLIED 1) 1).raise 1 Ev.TIME_SYNC 0 [1, argInt e, 2]
  else (s.applyError e 1).bump (Rg.C_SET_APPLIED h) 1

/-- The SET of a half that waits for its anchor. -/
def State.waitingSet (s : State) (h : Nat) : Option SetRec := tget (fun _ => none) s.time.waitSet h

/-- Set or forget it. -/
def State.setWaiting (s : State) (h : Nat) (x : Option SetRec) : State :=
  s.mapTime fun t => { t with waitSet := tset (fun _ => none) t.waitSet h x }

/-- An AM is timestamped (R451): the last 32 are kept, and a SET that waits for it is applied. -/
def State.stampAm (s : State) (h amseq count64 : Nat) : State :=
  let s := s.mapTime fun t =>
    { t with ams := tset (fun _ => []) t.ams h (((amseq, count64) :: tget (fun _ => []) t.ams h).take 32) }
  match s.waitingSet h with
  | some x => if x.amseq = amseq then (s.setWaiting h none).applySet h x count64 else s
  | none => s

end Sys2Proof.Machine
end

