-- ==== Sys2Proof/Machine/Wake.lean ====
section
/-! DEFINITION. Wakes and votes (R457, R464, R465): what starts when a domain leaves a deeper state. -/

namespace Sys2Proof.Machine

/-- The synthesisers of a group lock with stored results at the entry in use (R465, R277): the serving one, and a spare that
stands by for it. -/
def State.wakeLo (s : State) (g : Nat) : State :=
  match (s.group g).entry with
  | none => s
  | some e =>
    let sp := spareUnit (g / 4)
    let s := match s.loOf g with
      | some n => s.startLo n e
      | none => s
    if !s.on (Rg.LO_STAT_SERVING sp) && s.loGroup sp == g && s.raw (Rg.LO_STAT_STATE sp) == 0 then s.startLo sp e else s

/-- The lanes of a half that sleep resume with their stored taps (R67). -/
def State.wakeLanes (s : State) (h : Nat) : State :=
  (halfLanes h).foldl (fun s n =>
    if s.laneState n = 1 ∧ (s.lane n).former.isSome then s.mapLane n fun x => { x with resuming := true, lastAm := none } else s) s

/-- Start the wake of a domain below RUN (R464): it is WAKING until its delay has run; its clocks, its synthesiser and its
lanes come back within that delay (R465). -/
def State.wakeDom (s : State) (h d : Nat) : State :=
  let v := s.dom h d
  if v = 0 ∨ 4 ≤ v ∨ !s.domIn h d then s
  else
    let s := s.moveDom h d 5
    if v = 1 then s
    else if d = 6 then s.wakeLanes h
    else match domGroup h d with
      | some g => s.wakeLo g
      | none => s

/-- An entry under way whose domains a vote, hold or wake source names is refused with reason 6 (R462). -/
def State.disturbEntry (s : State) (h d : Nat) : State :=
  (List.range 2).foldl (fun s k =>
    match tget (fun _ => (none : Option EntryRec)) s.time.entry k with
    | some e =>
      if e.refusal.isNone && e.moves.any fun m => m.1 == h && m.2.1 == d then
        s.mapTime fun t => { t with entry := tset (fun _ => none) t.entry k (some { e with refusal := some (11, 6, h) }) }
      else s
    | none => s) s

/-- AON periods since a domain entered its state, at their nominal length (R467). -/
def State.periodsIn (s : State) (h d : Nat) : Nat :=
  (s.time.now - (tget (fun _ => (0, 0)) s.time.wakeFrom (8 * h + d)).2) / 15000

/-- Wake a list of domains (half, position) on account of a source, its row of Table 130 from 1; every source other
than a vote (7 or 8) places the WAKE hold on what it wakes (R464). Counted and reported if anything woke. Nothing wakes in
thermal shutdown. -/
def State.wake (s : State) (source : Nat) (doms : List (Nat × Nat)) : State :=
  if s.shutdown then s
  else
    let s := doms.foldl (fun s e => s.disturbEntry e.1 e.2) s
    let ds := doms.filter fun e => s.domIn e.1 e.2 && !(s.dom e.1 e.2 == 0) && decide (s.dom e.1 e.2 < 4)
    if ds = [] then s
    else
      let s := if source = 7 ∨ source = 8 then s else ds.foldl (fun s e => s.setWakeHold e.1 e.2 true) s
      let hs := maskNat 2 fun h => ds.any fun e => e.1 == h
      let slept := (ds.map fun e => s.periodsIn e.1 e.2).foldl max 0
      let s := ds.foldl (fun s e => s.wakeDom e.1 e.2) s
      let s := if hs % 2 = 1 then s.bump (Rg.C_WAKES 0) 1 else s
      let s := if hs / 2 % 2 = 1 then s.bump (Rg.C_WAKES 1) 1 else s
      s.raise s.lead Ev.WAKE 0 [source, hs, slept]

/-- Cast a client's vote on marked domains: a vote on a domain below RUN wakes it (R457, R464). -/
def State.castVotes (s : State) (client : Nat) (on : Bool) (doms : List (Nat × Nat)) (source : Nat) : State :=
  let s := doms.foldl (fun s e => s.setVote e.1 e.2 client on) s
  if on then s.wake source doms else s

end Sys2Proof.Machine
end

