-- ==== Sys2Proof/Machine/Lanes.lean ====
section
/-! DEFINITION. Link lanes (ch. 2): block lock, markers, management blocks, training, lane states, relays, shedding, test
patterns, error injection and wake detection. -/

namespace Sys2Proof.Machine

/-! ## Shared lane operations -/

/-- Active lanes A of a half (R46). -/
def State.actCount (s : State) (h : Nat) : Nat := s.f (if h = 0 then Rg.LNK_CFG_ACT_H0 else Rg.LNK_CFG_ACT_H1)

/-- The half keeps a trained spare (R46). -/
def State.keepsSpare (s : State) (h : Nat) : Bool := s.on (if h = 0 then Rg.LNK_CFG_SPARE_H0 else Rg.LNK_CFG_SPARE_H1)

/-- The role R46 gives a lane: its stripe position (0 to 3), 0xE spare, 0xC cold spare, 0xF none. -/
def State.laneRole (s : State) (n : Nat) : Nat :=
  let h := n / 5
  if s.actCount h = 0 then 0xF
  else if n % 5 = 4 then (if s.keepsSpare h then 0xE else 0xF)
  else if n % 5 < s.actCount h then n % 5
  else if s.on Rg.LNK_CFG_COLD_SPARE then 0xC else 0xF

/-- Clear a lane's receiver status. -/
def State.laneUnlock (s : State) (n : Nat) : State :=
  (((s.setF (Rg.LANE_STAT_SIG_DET n) 0).setF (Rg.LANE_STAT_CDR_LOCK n) 0).setF (Rg.LANE_STAT_BLOCK_LOCK n) 0).setF
    (Rg.LANE_STAT_AM_LOCK n) 0

/-- Put a lane into a state of Table 18. -/
def State.setLane (s : State) (n st : Nat) : State := s.setF (Rg.LANE_STAT_STATE n) st

/-- Set a lane's stripe position. -/
def State.setPos (s : State) (n p : Nat) : State := s.setF (Rg.LANE_STAT_POS n) p

/-- Put taps on the line (R63). -/
def State.setTaps (s : State) (n pre main post : Nat) : State :=
  ((s.setF (Rg.LANE_TAPS_PRE n) pre).setF (Rg.LANE_TAPS_MAIN n) main).setF (Rg.LANE_TAPS_POST n) post

/-- The ranges of Table 17 and the two constraints of R63. -/
def tapsOk (pre main post : Nat) : Bool :=
  decide (pre ≤ 16) && decide (32 ≤ main) && decide (main ≤ 64) && decide (post ≤ 24)
    && decide (pre + main + post ≤ 64) && decide (pre + post + 16 ≤ main)

/-- The taps at the entry to TRAIN or TEST: those of SU_LANEn_CTL with FFE_FIXED, else INIT; fixed ones that break the
constraints, which hold at all times (R63), leave INIT in force (log 70). -/
def State.entryTaps (s : State) (n : Nat) : State :=
  let pre := s.f (Rg.LANE_CTL_PRE n)
  let main := s.f (Rg.LANE_CTL_MAIN n)
  let post := s.f (Rg.LANE_CTL_POST n)
  if s.on (Rg.LANE_CTL_FFE_FIXED n) && tapsOk pre main post then s.setTaps n pre main post else s.setTaps n 4 52 8

/-- Enter TRAIN: taps, polarity and FFE_FIXED of SU_LANEn_CTL come into force (R64, R83). -/
def State.enterTrain (s : State) (n : Nat) (fromFault : Bool) : State :=
  let s := (((s.laneUnlock n).setLane n 2).setPos n 0xF).entryTaps n
  let now := s.time.now
  s.mapLane n fun x =>
    { LaneX.reset with
      fromFault := fromFault, reason := x.reason, fcnt := x.fcnt, trainAt := now
      pol := s.on (Rg.LANE_CTL_TX_POL n), fixed := s.on (Rg.LANE_CTL_FFE_FIXED n) }

/-- The lanes that carry a LINK block of a half: every one in ACTIVE or SPARE_READY (R58). -/
def State.linkLanes (s : State) (h : Nat) : List Nat :=
  (halfLanes h).filter fun n => s.laneState n == 5 || s.laneState n == 4

/-- Send a LINK block at one block index on the lanes that carry it (R58, Table 14). -/
def State.putLink (s : State) (h op tag old new pos reason : Nat) : State :=
  s.sendBlocks h ((s.linkLanes h).map fun n => (n, ⟨true, false, linkBytes op tag old new pos reason⟩))

/-- Send a LINK block and wait for its answer (R59). -/
def State.sendLink (s : State) (h op old new pos reason : Nat) : State :=
  let tag := (s.link h).nextTag
  let s := s.mapLink h fun l =>
    { l with nextTag := (l.nextTag + 1) % 256
             out := l.out ++ [⟨op, tag, old, new, pos, reason, 0, 0, false⟩] }
  s.putLink h op tag old new pos reason

/-- Answer a block of the baseband with ACK (R59). REASON of an ACK is not stated: 0 (log 70). -/
def State.sendAck (s : State) (h : Nat) (b : LinkRx) : State := s.putLink h 3 b.tag b.old 0xF b.pos 0

/-- The half's SPARE_READY lane, if any. -/
def State.spareReady (s : State) (h : Nat) : Option Nat := (halfLanes h).find? fun n => s.laneState n == 4

/-- No lane carries a stripe position (R71): none is ACTIVE there, or was before its domain slept (R67). -/
def State.empty (s : State) (h p : Nat) : Bool :=
  !((halfLanes h).any fun n => (s.laneState n == 5 || (s.laneState n == 1 && (s.lane n).former == some 5))
    && s.raw (Rg.LANE_STAT_POS n) == p)

/-- A stripe position that a relay may fill: no ACTIVE lane carries it and no relay is filling it. -/
def State.vacant (s : State) (h p : Nat) : Bool := s.empty h p && !((s.link h).out.any fun b => b.op == 2 && b.pos == p)

/-- Some stripe position of a half has no ACTIVE lane. -/
def State.short (s : State) (h : Nat) : Bool := (List.range (s.actCount h)).any fun p => s.empty h p

/-- The lowest vacant position (R73). -/
def State.lowestVacant (s : State) (h : Nat) : Option Nat := (List.range (s.actCount h)).find? fun p => s.vacant h p

/-- A lane is RETIRED (R65, R74): LANE_RETIRED with ARG0, and the class's exhaustion (Table 135, row 7). -/
def State.retireLane (s : State) (n arg : Nat) : State :=
  let s := ((s.laneUnlock n).setLane n 8).setPos n 0xF
  let s := (s.raise (n / 5) Ev.LANE_RETIRED n [arg]).logFault 7 n
  let can := (halfLanes (n / 5)).any fun m =>
    s.laneState m == 4 || s.laneState m == 2 || s.laneState m == 3 || (s.laneState m == 1 && (s.lane m).former.isNone)
      || (s.laneState m == 6 && decide (0 < s.raw (Rg.LANE_STAT_TRIES_LEFT m)))
  if can then s.evalRel else s.exhaust (n / 5) 7

/-- Train a cold spare when the half has no SPARE_READY lane (R74, Table 19). -/
def State.trainCold (s : State) (h : Nat) : State :=
  if (s.spareReady h).isSome then s
  else match (halfLanes h).find? fun n => s.laneState n == 1 && (s.lane n).former.isNone && s.on (Rg.LANE_CTL_ENABLE n) with
    | some n => s.enterTrain n false
    | none => s

/-- Retire a lane, and train a cold spare if the half is left without a SPARE_READY lane (R74). -/
def State.retireTrained (s : State) (n arg : Nat) : State := (s.retireLane n arg).trainCold (n / 5)

/-- Make the next training attempt of a lane in FAULT: RETRAIN and TRAIN, or RETIRED with none left (R74). RETRAIN's POS is
not stated: 0 (log 70). -/
def State.attempt (s : State) (n arg : Nat) : State :=
  let left := s.raw (Rg.LANE_STAT_TRIES_LEFT n)
  if left = 0 then s.retireTrained n arg
  else
    let s := s.setF (Rg.LANE_STAT_TRIES_LEFT n) (left - 1)
    (s.sendLink (n / 5) 5 n 0xF 0 (s.lane n).reason).enterTrain n true

/-- A lane enters FAULT with TRAIN_TRIES attempts (R74). -/
def State.enterFault (s : State) (n reason : Nat) : State :=
  let s := ((s.laneUnlock n).setLane n 6).setPos n 0xF
  let s := s.setF (Rg.LANE_STAT_TRIES_LEFT n) (s.f Rg.LNK_CFG_TRAIN_TRIES)
  (s.mapLane n fun x => { x with reason := reason, rxReady := false, fromFault := false, marginal := false }).trainCold
    (n / 5)

/-- Start a relay into a position with the half's spare as NEW (R72): the device carries the position at once. -/
def State.startRelay (s : State) (h old new pos reason : Nat) : State := (s.setPos new pos).sendLink h 2 old new pos reason

/-- Removal of a lane is complete: relay if the device may, then train the lane (R71, R72, R74). REASON of such a RELAY is
not stated: 0 (log 70). -/
def State.removalDone (s : State) (h old : Nat) : State :=
  let s := if s.on Rg.LNK_CFG_AUTO_RELAY then
      match s.spareReady h, s.lowestVacant h with
      | some n, some p => s.startRelay h 0xF n p 0
      | _, _ => s
    else s
  if s.laneState old = 6 then s.attempt old (s.lane old).reason else s

/-- Forget an outstanding block. -/
def State.answered (s : State) (h tag : Nat) : State :=
  s.mapLink h fun l => { l with out := l.out.filter fun b => !(b.tag == tag) }

/-- A relay ends without its completion: a LANE_RELAY that waits for it completes with NOT_READY (log 16). -/
def State.relayFailed (s : State) (h tag : Nat) : State :=
  (s.answered h tag).finishLong (fun x => x.what == LongWhat.relay h) St.NOT_READY fun _ => {}

/-- A lane has failed while the half's spare is in TEST: the test ends at once and the spare trains (R73). -/
def State.endSpareTest (s : State) (h : Nat) : State :=
  if (s.spareReady h).isSome then s
  else match (halfLanes h).find? fun m => s.laneState m == 7 && ((s.lane m).testSpare || s.laneRole m == 0xE) with
    | some m => ((s.setF (Rg.LANE_CTL_TEST_MODE m) 0).setF (Rg.LANE_STAT_CHK_LOCK m) 0).enterTrain m false
    | none => s

/-- Stop striping on a lane: FAULT, RELAY_OUT where it had a position, the cancelling of a relay that would bring it in, the
end of the spare's test (R71, R73). -/
def State.dropLane (s : State) (n reason : Nat) : State :=
  let s := match (s.link (n / 5)).out.find? fun b => b.op == 2 && b.new == n with
    | some b => s.relayFailed (n / 5) b.tag
    | none => s
  let s := if s.laneState n = 5 then s.setF (Rg.LANE_EVT_RELAY_OUT n) 1 else s
  (s.enterFault n reason).endSpareTest (n / 5)

/-- The link of a half starts when every position has an ACTIVE lane (R69). -/
def State.tryStart (s : State) (h : Nat) : State :=
  if s.short h then s else s.mapLink h fun l => { l with started := true }

/-- A lane has become ACTIVE at a position: the link may start, and a short half re-admits what fits (R69, R78). -/
def State.laneIn (s : State) (h : Nat) : State :=
  let s := s.tryStart h
  let more := s.short h
  let was := (s.link h).degraded
  let s := s.readmit h
  if was && more then s.mapLink h fun l => { l with degraded := true } else s

/-- A relay is complete (R72, R73): NEW is ACTIVE, an OLD lane goes to FAULT and retrains, a LANE_RELAY command of the half
completes, and a cold spare trains where the last SPARE_READY lane was used (R74). -/
def State.relayDone (s : State) (h : Nat) (b : LinkOut) : State :=
  let s := ((s.setLane b.new 5).setPos b.new b.pos).setF (Rg.LANE_EVT_RELAY_IN b.new) 1
  let s := s.spareIn h
  let s := if b.old < 10 then ((s.dropLane b.old b.reason).attempt b.old b.reason) else s
  let s := match s.cmd.longs.find? fun l => l.what == .relay h with
    | some l =>
      (s.mapCmd fun c => { c with longs := c.longs.filter fun x => !(x == l) }).complete l.cmd l.opcode St.OK {}
    | none => s
  (s.laneIn h).trainCold h

/-- Whether injection acts on a lane: a payload bit in TEST, any type in ACTIVE and SPARE_READY with INJ_ACTIVE (R81). -/
def State.injActs (s : State) (n : Nat) : Bool :=
  let st := s.laneState n
  (st == 7 && s.f (Rg.LANE_INJ_INJ_TYPE n) == 0) || ((st == 5 || st == 4) && s.on (Rg.LANE_INJ_INJ_ACTIVE n))

/-- Inject one error of INJ_TYPE, if injection acts (R81). -/
def State.inject (s : State) (n : Nat) : State :=
  if s.injActs n then s.emit (.injected n (s.f (Rg.LANE_INJ_INJ_TYPE n))) else s

/-- A lane leaves TEST or starts (R82, R83, Table 19). -/
def State.startLane (s : State) (n : Nat) : State :=
  let r := s.laneRole n
  if r ≤ 3 ∨ r = 0xE then s.enterTrain n false
  else if r = 0xC then (s.setLane n 1).mapLane n fun x => { x with former := none } else s

/-- ENABLE may be cleared at once or at the end of a test (R83). -/
def canDisable (st : Nat) : Bool := st == 0 || st == 1 || st == 7 || st == 8

/-- TEST may be entered from this state (R82). -/
def canTest (st : Nat) : Bool := st == 0 || st == 1 || st == 3 || st == 4 || st == 6 || st == 7

/-- Whether a value of SU_LANEn_CTL is refused in a part, by R82 or R83. -/
def State.ctlRefused (s : State) (n : Nat) (v : Word) : Bool :=
  let st := s.laneState n
  let tm := fget v 20 4
  (decide (1 ≤ tm) && decide (tm ≤ 5) && !canTest st)
    || (s.on (Rg.LANE_CTL_ENABLE n) && fget v 0 1 == 0 && !canDisable st)

/-- Apply a value of SU_LANEn_CTL (R82, R83): stored fields, then ENABLE, then TEST_MODE; a refused part keeps its
value and sets TEST_REFUSED. -/
def State.applyCtl (s : State) (n : Nat) (v : Word) : State :=
  let st := s.laneState n
  let tm := if 1 ≤ fget v 20 4 ∧ fget v 20 4 ≤ 5 then fget v 20 4 else 0
  let old := s.on (Rg.LANE_CTL_ENABLE n)
  let new := fget v 0 1 == 1
  let badEn := old && !new && !canDisable st
  let badTm := decide (1 ≤ tm) && !canTest st
  let w := fset (fset v 25 7 0) 0 1 (b2n (new || badEn))
  let s := s.setReg (0x1800 + 0x40 * n) (fset w 20 4 (if badTm then 0 else fget v 20 4))
  let s := if badEn || badTm then s.setF (Rg.LANE_EVT_TEST_REFUSED n) 1 else s
  let s := if old && !new && (st == 0 || st == 1) then (s.laneUnlock n).setLane n 0
    else if !old && new && st == 0 then s.startLane n else s
  if badTm then s
  else if 1 ≤ tm then
    let from_ := s.laneState n
    if from_ = 7 then s
    else
      let s := ((((s.laneUnlock n).setLane n 7).setPos n 0xF).entryTaps n).mapLine n fun x =>
        { x with gen := List.replicate 31 true }
      (s.mapLane n fun x =>
        { x with testFromDisabled := from_ == 0, testSpare := from_ == 4, pol := fget v 1 1 == 1, fixed := fget v 2 1 == 1
                 chkReg := [], chkRun := 0, chkWin := [] }).trainCold (n / 5)
  else if s.laneState n = 7 then
    let s := s.setF (Rg.LANE_STAT_CHK_LOCK n) 0
    if (s.lane n).testFromDisabled || !new then (s.laneUnlock n).setLane n 0 else s.enterTrain n false
  else s

/-! ## Meanings -/

/-- R50. -/
def execBlockLockAcquired (l : LaneNo) (inverted : Bool) (s : State) : Host.Outcome State Fault Refusal :=
  let n := l.val
  let st := s.laneState n
  if st = 2 ∨ st = 3 ∨ st = 4 ∨ st = 5 ∨ (s.lane n).resuming then
    .next ((((s.setF (Rg.LANE_STAT_SIG_DET n) 1).setF (Rg.LANE_STAT_CDR_LOCK n) 1).setF
      (Rg.LANE_STAT_BLOCK_LOCK n) 1).setB (Rg.LANE_STAT_RX_INV n) inverted)
  else .next s

/-- REASON of a hard fault (Table 14). -/
def LaneFault.reason : LaneFault → Nat
  | .los => 0
  | .cdr => 1
  | .block => 2
  | .am => 3

/-- A hard fault is flagged on a lane and the three actions of R71 follow: it leaves the stripe, its blocks count as ERROR while
the REMOVE waits for its answer, and REMOVE goes out on the other lanes; a spare under relay is removed with REASON 6 (R73). -/
def State.hardFault (s : State) (n k : Nat) : State :=
  let h := n / 5
  let s := s.setF ⟨(Rg.LANE_EVT_LOS n).off, k, 1, 0, 1, 0⟩ 1
  let s := s.setF (Rg.LANE_STAT_AM_LOCK n) 0
  let s := if k ≤ 2 then s.setF (Rg.LANE_STAT_BLOCK_LOCK n) 0 else s
  let s := if k ≤ 1 then s.setF (Rg.LANE_STAT_CDR_LOCK n) 0 else s
  let s := if k = 0 then s.setF (Rg.LANE_STAT_SIG_DET n) 0 else s
  let st := s.laneState n
  let pos := s.raw (Rg.LANE_STAT_POS n)
  if st = 5 then (s.dropLane n k).sendLink h 1 n 0xF pos k
  else if st = 4 then
    match (s.link h).out.find? fun b => b.op == 2 && b.new == n with
    | some b => (s.dropLane n k).sendLink h 1 n 0xF b.pos 6
    | none => (s.dropLane n k).sendLink h 1 n 0xF pos k
  else s

/-- R70, R71. -/
def execLaneHardFault (l : LaneNo) (k : LaneFault) (s : State) : Host.Outcome State Fault Refusal :=
  .next (s.hardFault l.val (LaneFault.reason k))

/-- The lanes of a half that carry markers and clock compensation: in ACTIVE, SPARE_READY, ALIGN, or resuming (R52, R55, R67). -/
def State.groupLanes (s : State) (h : Nat) : List Nat :=
  (halfLanes h).filter fun n =>
    s.laneState n == 5 || s.laneState n == 4 || s.laneState n == 3 || (s.laneState n == 1 && (s.lane n).resuming)

/-- R52: after the marker that announced it, one CC block and two IDLE blocks at the same block index on every lane of the
group. -/
def execCcSequenceSend (h : Half) (s : State) : Host.Outcome State Fault Refusal :=
  let h := h.val
  if (s.link h).ccDue ∧ !(s.groupLanes h).isEmpty ∧ !s.boot.core then
    let on (b : Blk) : List (Nat × Blk) := (s.groupLanes h).map fun n => (n, b)
    .next ((s.sendBlocks h (on ccBlk ++ on idleBlk ++ on idleBlk)).mapLink h fun l => { l with ccDue := false })
  else .next s

/-- The ACTIVE lane of a half with the lowest stripe position. -/
def State.lowestLane (s : State) (h : Nat) : Option Nat :=
  (List.range 4).findSome? fun p => (s.activeLanes h).find? fun n => s.raw (Rg.LANE_STAT_POS n) == p

/-- R53: one decision for the group, from the fill of the ACTIVE lane with the lowest position: delete above 18 blocks, insert
below 14, the same on every lane of the group; one block or two is the device's choice (log 2). -/
def execCcSequenceReceived (h : Half) (fill : Nat) (s : State) : Host.Outcome State Fault Refusal :=
  let h := h.val
  match s.lowestLane h with
  | none => .next s
  | some m =>
    let s := s.mapLane m fun x => { x with fill := fill }
    if 18 < fill ∨ fill < 14 then
      let del := decide (18 < fill)
      let (two, s) := s.freeBit
      let k := if two then 2 else 1
      .next (((s.groupLanes h).foldl (fun s n =>
        (s.bump (if del then Rg.LANE_RM_DEL n else Rg.LANE_RM_INS n) k).mapLane n fun x =>
          { x with fill := if del then x.fill - k else x.fill + k }) s).emit (.rateMatch h del k))
    else .next s

/-- R54: every lane of the group takes its position anew at its next marker; the slip is no lane fault. -/
def execEbSlip (l : LaneNo) (s : State) : Host.Outcome State Fault Refusal :=
  let s := s.setF (Rg.LANE_EVT_EB_SLIP l.val) 1
  .next ((s.groupLanes (l.val / 5)).foldl (fun s n => s.mapLane n fun x => { x with realign := true, fill := 16 }) s)

/-- Markers between two clock-compensation sequences (R52). -/
def State.ccEvery (s : State) : Nat := if s.f Rg.LNK_CFG_RATE ≤ 1 then 8 else 16

/-- Blocks from a marker to the next (Table 11). -/
def State.amInterval (s : State) : Nat := if s.f Rg.LNK_CFG_RATE ≤ 1 then 512 else 256

/-- FLAGS of a lane's AM (Table 13). -/
def State.amFlags (s : State) (n : Nat) (cc : Bool) : Nat :=
  128 * b2n cc + 64 * b2n (!s.on (Rg.LANE_STAT_AM_LOCK n) && (s.laneState n == 4 || s.laneState n == 5))
    + 32 * b2n (s.lane n).marginal

/-- R55: AM on every lane of the group, with its lane, position, BIP-8 and FLAGS; CC_NEXT with every eighth or sixteenth. Which
marker is the eighth or sixteenth is not stated: one whose AMSEQ + 1 is a multiple of 8 or 16 (log 70). -/
def execAmSend (h : Half) (s : State) : Host.Outcome State Fault Refusal :=
  let h := h.val
  if (s.groupLanes h).isEmpty ∨ s.boot.core then .next s
  else
    let now := s.time.now
    let q := (s.link h).amseq
    let cc := (q + 1) % s.ccEvery == 0
    let blks := (s.groupLanes h).map fun n =>
      (n, (⟨true, false, amBytes n (s.raw (Rg.LANE_STAT_POS n)) q (s.lineOf n).bip.toNat (s.amFlags n cc)⟩ : Blk))
    .next ((s.sendBlocks h blks).mapLink h fun l => { l with amseq := (q + 1) % 65536, amAt := some now, ccDue := cc })

/-- The POS an AM of the baseband must carry on a lane: the lane's own position, 0xE for a spare, 0xF otherwise. -/
def State.expectPos (s : State) (n : Nat) : Nat :=
  match s.laneState n with
  | 5 => s.raw (Rg.LANE_STAT_POS n)
  | 4 => 0xE
  | _ => 0xF

/-- 1/64 ticks of a number of blocks at the rate in force (Table 11): 66 bits each. -/
def State.blocks64 (s : State) (k : Nat) : Nat := k * 66 * 64 * 49152 / lineRate (s.f Rg.LNK_CFG_RATE)

/-- Arrival counts of two markers, the second `d` markers after the first, differ by no more than 64 blocks of skew (R56). -/
def State.skewWithin (s : State) (a : Nat) (d : Nat) (b : Nat) : Bool :=
  let due := a + s.blocks64 (d * s.amInterval)
  decide (due ≤ b + s.blocks64 64) && decide (b ≤ due + s.blocks64 64)

/-- The lane's marker lies within 64 blocks of those of the group's other aligned lanes, matched by AMSEQ (R56). -/
def State.skewOk (s : State) (n amseq at_ : Nat) : Bool :=
  (s.groupLanes (n / 5)).all fun m => m == n || !s.on (Rg.LANE_STAT_AM_LOCK m) || match (s.lane m).lastAm with
    | some q =>
      let d := (amseq + 65536 - q) % 65536
      if d < 32768 then s.skewWithin (s.lane m).amAt d at_ else s.skewWithin at_ (65536 - d) (s.lane m).amAt
    | none => true

/-- The check that a lane from FAULT passes fails: back to FAULT (Table 19). -/
def State.checkFails (s : State) (n : Nat) : State := ((s.laneUnlock n).setLane n 6).mapLane n fun x => { x with errSeen := true }

/-- An AM fault (R57): a hard fault of a lane in service, noted on one that is still aligning. -/
def State.amFault (s : State) (n : Nat) : State :=
  if s.laneState n = 4 ∨ s.laneState n = 5 then s.hardFault n 3 else s.setF (Rg.LANE_EVT_AM_ERR n) 1

/-- Bits that differ between two bytes. -/
def bitsDiffer (a b : Byte) : Nat := ((List.range 8).filter fun i => a.getLsbD i != b.getLsbD i).length

/-- What a marker interval holds once it is descrambled: the code errors among its blocks (R51), whether its marker is where it
is due (R57), and the marker's fields with the parity of the blocks before it. -/
structure AmSeen where
  codeErrs : Nat
  place : Bool
  am : Option AmBlk
  bip : Byte
deriving DecidableEq, Repr

/-- Look at the blocks of a marker interval of `n` blocks. -/
def amSeen (n : Nat) (l : List Blk) : AmSeen :=
  let isAm (b : Blk) : Bool := match decodeBlk b with
    | .am _ => true
    | _ => false
  { codeErrs := (l.filter codeErr).length
    place := decide (l.length = n) && !(l.dropLast.any isAm)
    am := match l.getLast?.map decodeBlk with
      | some (.am x) => some (amOf x)
      | _ => none
    bip := l.dropLast.foldl (fun b x => bip8 b x.bytes) 0 }

/-- A good marker is taken (R451, R54, R56): it is timestamped on position 0; its far end's fault is noted. -/
def State.takeAm (s : State) (n : Nat) (b : AmBlk) (at_ : Nat) : State :=
  let s := s.mapLane n fun x => { x with crcRun := 0, lastAm := some b.amseq, amAt := at_, realign := false }
  let s := if b.flags / 64 % 2 = 1 then s.setF (Rg.LANE_EVT_RFLT n) 1 else s
  if s.raw (Rg.LANE_STAT_POS n) = 0 ∧ s.laneState n = 5 then s.stampAm (n / 5) b.amseq at_ else s

/-- R49, R51, R54 to R57: the blocks up to the next marker are descrambled, code errors and BIP-8 errors counted, and the marker
checked for position, CRC, LANE, POS, AMSEQ and skew. One CRC failure is tolerated, two in a row are a hard fault; an error
within the 100 ms check fails the lane (Table 19). -/
def execAmReceived (l : LaneNo) (b : AmRx) (s : State) : Host.Outcome State Fault Refusal :=
  let n := l.val
  let st := s.laneState n
  if st = 3 ∨ st = 4 ∨ st = 5 ∨ (st = 1 ∧ (s.lane n).resuming) then
    let (blks, d) := descrBlks (s.lineOf n).descr b.line
    let s := s.mapLine n fun x => { x with descr := d }
    let a := amSeen s.amInterval blks
    let s := s.bump (Rg.LANE_CODEERR_N n) a.codeErrs
    let checking := st == 3 && (s.lane n).fromFault && s.on (Rg.LANE_STAT_AM_LOCK n)
    let placed := a.place || (s.lane n).realign || (s.lane n).lastAm.isNone
    if checking ∧ 0 < a.codeErrs then .next (s.checkFails n)
    else match a.am with
      | none => .next (if (s.lane n).realign then s else s.amFault n)
      | some m =>
        if !placed then .next (s.amFault n)
        else if !m.crcOk then
          let run := (s.lane n).crcRun + 1
          let s := s.mapLane n fun x => { x with crcRun := run, lastAm := x.lastAm.map fun q => (q + 1) % 65536, amAt := b.count64 }
          .next (if 2 ≤ run then s.amFault n else s)
        else
          let locked := s.on (Rg.LANE_STAT_AM_LOCK n)
          let cont := match (s.lane n).lastAm with
            | some q => !locked || m.amseq == (q + 1) % 65536
            | none => true
          let here := st == 3 || st == 1 || m.pos == s.expectPos n
          if m.laneNo ≠ n ∨ !here ∨ !cont ∨ (locked ∧ !s.skewOk n m.amseq b.count64) then
            .next ((s.amFault n).mapLane n fun x => { x with lastAm := some m.amseq, amAt := b.count64 })
          else
            let errs := if (s.lane n).lastAm.isSome && a.place then bitsDiffer a.bip (BitVec.ofNat 8 m.bip) else 0
            let s := (s.takeAm n m b.count64).bump (Rg.LANE_BIPERR_N n) errs
            .next (if checking ∧ 0 < errs then s.checkFails n else s)
  else .next s

/-- The LINK block of an operation among its copies, if it is acted on: a copy is good, no two differ, its TAG is new (R58). -/
def State.linkNew (s : State) (h op : Nat) (copies : List (List Byte)) : Option LinkRx :=
  match (pickCopy 0xC3 copies).map linkOf with
  | some b => if b.op = op ∧ !((s.link h).lastTag == some b.tag) then some b else none
  | none => none

/-- A block of the baseband is acted on: its TAG is remembered (R58). -/
def State.actOn (s : State) (h : Nat) (b : LinkRx) : State := s.mapLink h fun l => { l with lastTag := some b.tag }

/-- R71, R73: REMOVE from the baseband: the three actions of R71 and ACK; for a lane the device is removing it is the ACK. The
device's own REMOVE then needs no answer, since each end takes the other's as its ACK. -/
def execLinkRemove (h : Half) (copies : List (List Byte)) (s : State) : Host.Outcome State Fault Refusal :=
  let h := h.val
  match s.linkNew h 1 copies with
  | none => .next s
  | some b =>
    let s := s.actOn h b
    match (s.link h).out.find? fun o => o.op == 1 && o.old == b.old with
    | some o => .next ((s.answered h o.tag).removalDone h b.old)
    | none =>
      if b.old / 5 = h ∧ b.old < 10 ∧ (s.laneState b.old = 5 ∨ s.laneState b.old = 4) then
        let pos := s.raw (Rg.LANE_STAT_POS b.old)
        let s := s.dropLane b.old b.reason
        let tag := (s.link h).nextTag
        let s := (s.mapLink h fun l => { l with nextTag := (tag + 1) % 256 }).putLink h 1 tag b.old 0xF pos b.reason
        .next ((s.sendAck h b).removalDone h b.old)
      else .next (s.sendAck h b)

/-- R74: RETRAIN from the baseband: a lane in FAULT makes its next attempt; one in service leaves it through FAULT (Table 19). -/
def execLinkRetrain (h : Half) (copies : List (List Byte)) (s : State) : Host.Outcome State Fault Refusal :=
  let h := h.val
  match s.linkNew h 5 copies with
  | none => .next s
  | some b =>
    let s := (s.actOn h b).sendAck h b
    let spend (s : State) : State :=
      let left := s.raw (Rg.LANE_STAT_TRIES_LEFT b.old)
      if left = 0 then s.retireTrained b.old 7
      else (s.setF (Rg.LANE_STAT_TRIES_LEFT b.old) (left - 1)).enterTrain b.old true
    if b.old < 10 ∧ b.old / 5 = h then
      let st := s.laneState b.old
      if st = 6 then .next (spend s)
      else if st = 4 ∨ st = 5 then .next (spend (s.dropLane b.old b.reason))
      else .next s
    else .next s

/-- R71, R72: the answer to REMOVE completes removal; to RELAY, the relay; to RETRAIN, nothing further. -/
def execLinkAck (h : Half) (copies : List (List Byte)) (s : State) : Host.Outcome State Fault Refusal :=
  let h := h.val
  match s.linkNew h 3 copies with
  | none => .next s
  | some b =>
    match (s.link h).out.find? fun o => o.tag == b.tag with
    | some o =>
      let s := (s.actOn h b).answered h o.tag
      if o.op = 1 then
        .next (if o.reason = 6 then (if s.laneState o.old = 6 then s.attempt o.old 6 else s) else s.removalDone h o.old)
      else if o.op = 2 then .next (s.relayDone h o)
      else .next s
    | none => .next s

/-- R73: NACK to RELAY: a resend after 100 µs, and after three NACKs the spare goes to FAULT. -/
def execLinkNack (h : Half) (copies : List (List Byte)) (s : State) : Host.Outcome State Fault Refusal :=
  let h := h.val
  match s.linkNew h 4 copies with
  | none => .next s
  | some b =>
    match (s.link h).out.find? fun o => o.tag == b.tag && o.op == 2 with
    | some o =>
      let s := s.actOn h b
      if 2 ≤ o.nacks then .next (((s.relayFailed h o.tag).enterFault o.new 6).attempt o.new 6)
      else
        .next (s.mapLink h fun l =>
          { l with out := setFirst (fun x => x.tag == o.tag) (fun x => { x with nacks := x.nacks + 1, waitRetry := true }) l.out })
    | none => .next s

/-- R59: the block is repeated; beyond ten times LINK_PEER_TIMEOUT is raised with each repeat. -/
def execLinkAnswerTimeout (h : Half) (tag : Nat) (s : State) : Host.Outcome State Fault Refusal :=
  match (s.link h.val).out.find? fun o => o.tag == tag && !o.waitRetry with
  | some o =>
    let s := s.mapLink h.val fun l =>
      { l with out := setFirst (fun x => x.tag == tag) (fun x => { x with repeats := x.repeats + 1 }) l.out }
    let s := s.putLink h.val o.op o.tag o.old o.new o.pos o.reason
    .next (if 10 ≤ o.repeats then s.raise h.val Ev.LINK_PEER_TIMEOUT (if o.old < 10 then o.old else o.new) [o.op, o.tag]
      else s)
  | none => .next s

/-- A tap after a request: its new step and status (R62, R63). Status 1 UPDATED, 2 AT_MINIMUM, 3 AT_MAXIMUM. `ok` says
whether the taps stay within the ranges and constraints with a value. -/
def tapStep (v req : Nat) (ok : Nat → Bool) : Nat × Nat :=
  if req = 1 then (if ok (v + 1) then (v + 1, 1) else (v, 3))
  else if req = 2 then (if 0 < v ∧ ok (v - 1) then (v - 1, 1) else (v, 2))
  else (v, 0)

/-- The responder's answer for one tap (R62): a status stays until HOLD is seen, one step per request. -/
def respond (v req sts : Nat) (fixed : Bool) (ok : Nat → Bool) : Nat × Nat :=
  if req = 0 ∨ req = 3 then (v, 0)
  else if sts ≠ 0 then (v, sts)
  else if fixed then (v, if req = 1 then 3 else 2)
  else tapStep v req ok

/-- The requester's next request for one tap (R62): HOLD once a status other than NOT_UPDATED is seen. -/
def nextReq (req sts : Nat) : Nat := if sts = 0 then req else 0

/-- The request a lane's next frame carries for one tap: what is under way, else what the receive equaliser asks for, which is
the device's choice (log 2); HOLD with RX_READY set or with fixed taps (R64). -/
def askTap (x : LaneX) (req sts free : Nat) : Nat :=
  if x.rxReady || x.fixed then 0 else if req ≠ 0 then req else if sts = 0 then free % 3 else 0

/-- The REQ and STS bytes of a lane's frame (Table 15). -/
def trnReq (x : LaneX) : Nat := x.reqPre * 64 + x.reqMain * 16 + x.reqPost * 4
def trnSts (x : LaneX) : Nat := x.stsPre * 64 + x.stsMain * 16 + x.stsPost * 4 + 2 * b2n x.rxReady

/-- The lane has sent RX_READY and has seen it in three consecutive valid frames (R64 step 5). -/
def LaneX.met (x : LaneX) : Bool := x.rxReady && decide (3 ≤ x.rxSeen)

/-- A lane in TRAIN sends its next training frame (R61). -/
def State.sendFrame (s : State) (n : Nat) : State :=
  let x := s.lane n
  let s := s.sendBlocks (n / 5) ((trnFrame (trnBytes x.fcnt (trnReq x) (trnSts x) n (s.f Rg.LNK_CFG_RATE))).map fun b => (n, b))
  s.mapLane n fun x => { x with fcnt := (x.fcnt + 1) % 256, frames := x.frames + 1, more := if x.met then x.more + 1 else x.more }

/-- R62, R64, R65: a training frame with a good CRC on a lane with block lock. Requests for several taps in one frame are judged
one after the other, pre, main, post (log 70). -/
def execTrnFrameReceived (l : LaneNo) (b : List Byte) (s : State) : Host.Outcome State Fault Refusal :=
  let n := l.val
  let f := trnOf b
  if s.laneState n = 2 ∧ s.on (Rg.LANE_STAT_BLOCK_LOCK n) ∧ f.crcOk then
    if f.idLane ≠ n ∨ f.idRate ≠ s.f Rg.LNK_CFG_RATE then
      .next ((s.setF (Rg.LANE_EVT_ID_FAIL n) 1).retireTrained n 8)
    else
      let x := s.lane n
      let pre := s.raw (Rg.LANE_TAPS_PRE n)
      let main := s.raw (Rg.LANE_TAPS_MAIN n)
      let post := s.raw (Rg.LANE_TAPS_POST n)
      let seen := if f.rxReady then x.rxSeen + 1 else 0
      let (s, a, b, c) :=
        if (f.preset || f.init) && !x.fixed then
          (if f.preset then s.setTaps n 0 64 0 else s.setTaps n 4 52 8, 1, 1, 1)
        else
          let (p1, a) := respond pre f.preReq x.stsPre x.fixed fun v => tapsOk v main post
          let (m1, b) := respond main f.mainReq x.stsMain x.fixed fun v => tapsOk p1 v post
          let (q1, c) := respond post f.postReq x.stsPost x.fixed fun v => tapsOk p1 m1 v
          (s.setTaps n p1 m1 q1, a, b, c)
      let (k, s) := s.freeNat
      .next (s.mapLane n fun x =>
        { x with stsPre := a, stsMain := b, stsPost := c, rxSeen := min seen 3
                 reqPre := askTap x (nextReq x.reqPre f.preSts) f.preSts k
                 reqMain := askTap x (nextReq x.reqMain f.mainSts) f.mainSts (k / 3)
                 reqPost := askTap x (nextReq x.reqPost f.postSts) f.postSts (k / 9) })
  else .next s

/-- R64 step 4: at least 40 mV (10 steps of 4 mV) and 0.30 UI (39 of 1/128). -/
def execRxReadyReached (l : LaneNo) (eyeW eyeH : Nat) (s : State) : Host.Outcome State Fault Refusal :=
  let n := l.val
  if s.laneState n = 2 then
    let s := (s.setF (Rg.LANE_TAPS_EYE_W n) eyeW).setF (Rg.LANE_TAPS_EYE_H n) eyeH
    if 10 ≤ eyeH ∧ 39 ≤ eyeW then
      .next (s.mapLane n fun x => { x with rxReady := true, reqPre := 0, reqMain := 0, reqPost := 0 })
    else .next s
  else .next s

/-- Send `k` training frames. -/
def State.sendFrames (n : Nat) : Nat → State → State
  | 0, s => s
  | k + 1, s => State.sendFrames n k (s.sendFrame n)

/-- R64 step 5: what is left of the eight further frames goes out, and the lane enters ALIGN. -/
def execTrainComplete (l : LaneNo) (s : State) : Host.Outcome State Fault Refusal :=
  let n := l.val
  if s.laneState n = 2 ∧ (s.lane n).met then
    let s := State.sendFrames n (8 - (s.lane n).more) s
    .next ((s.setLane n 3).mapLink (n / 5) fun k => { k with aligned := true })
  else .next s

/-- A training or alignment attempt fails: FAULT, and RETIRED when no attempt is left (R68, R74). -/
def State.attemptFails (s : State) (n : Nat) : State :=
  let again := (s.lane n).fromFault
  let s := ((s.laneUnlock n).setLane n 6).setPos n 0xF
  let s := if again then s else s.setF (Rg.LANE_STAT_TRIES_LEFT n) (s.f Rg.LNK_CFG_TRAIN_TRIES)
  let s := s.mapLane n fun x => { x with rxReady := false, fromFault := false }
  let s := if s.raw (Rg.LANE_STAT_TRIES_LEFT n) = 0 then s.retireLane n 7 else s
  s.trainCold (n / 5)

/-- R64 step 6. -/
def execTrainTimeout (l : LaneNo) (s : State) : Host.Outcome State Fault Refusal :=
  if s.laneState l.val = 2 then .next ((s.setF (Rg.LANE_EVT_TRAIN_FAIL l.val) 1).attemptFails l.val) else .next s

/-- A lane has become SPARE_READY: it fills a vacant position of a short half (R69, R78). -/
def State.becomeSpare (s : State) (n : Nat) : State :=
  let h := n / 5
  let s := ((s.setLane n 4).setPos n 0xE).mapLane n fun x => { x with fromFault := false }
  match s.lowestVacant h with
  | some p => if (s.link h).started && s.on Rg.LNK_CFG_AUTO_RELAY then s.startRelay h 0xF n p 0 else s
  | none => s

/-- R56, R68: AM lock and deskew within 1 ms; a lane that resumes returns to its role (R67). -/
def execAlignAmLock (l : LaneNo) (s : State) : Host.Outcome State Fault Refusal :=
  let n := l.val
  let h := n / 5
  if s.laneState n = 3 then
    let s := s.setF (Rg.LANE_STAT_AM_LOCK n) 1
    if (s.lane n).fromFault then .next (s.mapLane n fun x => { x with errSeen := false })
    else
      let r := s.laneRole n
      if r ≤ 3 ∧ s.vacant h r then
        .next ((((s.setLane n 5).setPos n r).setF (Rg.LANE_EVT_RELAY_IN n) 1).laneIn h)
      else .next (s.becomeSpare n)
  else match (s.lane n).former with
    | some st =>
      if (s.lane n).resuming && s.on (Rg.LANE_STAT_BLOCK_LOCK n) then
        .next (((s.setF (Rg.LANE_STAT_AM_LOCK n) 1).setLane n st).mapLane n fun x => { x with former := none, resuming := false })
      else .next s
    | none => .next s

/-- R68: no AM lock within 1 ms. -/
def execAlignTimeout (l : LaneNo) (s : State) : Host.Outcome State Fault Refusal :=
  if s.laneState l.val = 3 ∧ (!s.on (Rg.LANE_STAT_AM_LOCK l.val) ∨ (s.lane l.val).errSeen) then
    .next (s.attemptFails l.val)
  else .next s

/-- R74: 100 ms without an error after AM lock. -/
def execSpareCheckComplete (l : LaneNo) (s : State) : Host.Outcome State Fault Refusal :=
  let n := l.val
  if s.laneState n = 3 ∧ (s.lane n).fromFault ∧ s.on (Rg.LANE_STAT_AM_LOCK n) ∧ !(s.lane n).errSeen then
    .next (s.becomeSpare n)
  else .next s

/-- R74. -/
def execFaultRetryTimer (l : LaneNo) (s : State) : Host.Outcome State Fault Refusal :=
  if s.laneState l.val = 6 then .next (s.attempt l.val 7) else .next s

/-- R69: the spare takes the lowest empty position, and the link starts. -/
def execLinkStartTimeout (h : Half) (s : State) : Host.Outcome State Fault Refusal :=
  if (s.link h.val).aligned ∧ !(s.link h.val).started then
    let s := s.mapLink h.val fun l => { l with started := true }
    match s.spareReady h.val, s.lowestVacant h.val with
    | some n, some p => .next (s.startRelay h.val 0xF n p 0)
    | _, _ => .next s
  else .next s

/-- R73: more than 8 BIP-8 or more than 4 code errors in a 1 s window. -/
def execLaneMarginal (l : LaneNo) (bip code : Nat) (s : State) : Host.Outcome State Fault Refusal :=
  let n := l.val
  let h := n / 5
  if (8 < bip ∨ 4 < code) ∧ (s.laneState n = 5 ∨ s.laneState n = 4) then
    let s := (s.setF (Rg.LANE_EVT_MARGINAL n) 1).mapLane n fun x => { x with marginal := true }
    let s := s.raise h Ev.LANE_MARGINAL n [bip, code]
    match s.spareReady h with
    | some m => .next (if s.laneState n = 5 ∧ s.on Rg.LNK_CFG_AUTO_RELAY ∧ !((s.link h).out.any fun o => o.op == 2) then
        s.startRelay h n m (s.raw (Rg.LANE_STAT_POS n)) 4 else s)
    | none => .next s
  else .next s

/-- R73: RELAY again, 100 µs after a NACK, under a new TAG: the far end ignores one it has acted on (R58, log 70). -/
def execRelayNackRetry (h : Half) (tag : Nat) (s : State) : Host.Outcome State Fault Refusal :=
  let h := h.val
  match (s.link h).out.find? fun o => o.tag == tag && o.waitRetry with
  | some o =>
    let new := (s.link h).nextTag
    .next ((s.mapLink h fun l =>
      { l with nextTag := (new + 1) % 256
               out := setFirst (fun x => x.tag == tag) (fun x => { x with waitRetry := false, tag := new }) l.out }).putLink
        h o.op new o.old o.new o.pos o.reason)
  | none => .next s

/-- R76, R77: the half sheds, and what is queued of a flow it sheds is dropped and counted (R107). A later LINK_DEGRADED lists
the flows newly shed (log 70). -/
def execShortOfLanes (h : Half) (s : State) : Host.Outcome State Fault Refusal :=
  if s.short h.val ∧ (s.link h.val).started then
    let before := (s.link h.val).shed
    let s := s.shedFlows h.val
    let new := (s.link h.val).shed.filter fun n => !before.contains n
    let gone (it : TxItem) : Bool := (it.type == 1 || it.type == 6) && new.contains it.flow
    let s := ((s.pkt h.val).queue.filter gone).foldl (fun s it =>
      s.setFlow it.flow { s.flow it.flow with shed := inc32 (s.flow it.flow).shed (max it.nsec 1) }) s
    let s := s.mapPkt h.val fun p => { p with queue := p.queue.filter fun it => !gone it }
    .next ((s.mapLink h.val fun l => { l with degraded := true }).linkNotice h.val false new)
  else .next s

/-- The checker takes one bit (R80): it seeds itself from what it receives and locks after 128 bits in a row that match; locked,
it runs on by itself, counts errors, and loses lock when more than 64 fall within 1,024 bits. -/
def State.checkBit (n mode : Nat) (s : State) (b : Bool) : State :=
  let x := s.lane n
  let want := prbsBit mode x.chkReg
  if s.on (Rg.LANE_STAT_CHK_LOCK n) then
    let bad := b != want
    let win := (bad :: x.chkWin).take 1024
    let s := if bad then s.bump (Rg.LANE_PRBSERR_N n) 1 else s
    if 64 < (win.filter id).length then
      (s.setF (Rg.LANE_STAT_CHK_LOCK n) 0).mapLane n fun x => { x with chkReg := [], chkRun := 0, chkWin := [] }
    else s.mapLane n fun x => { x with chkReg := (want :: x.chkReg).take 31, chkWin := win }
  else
    let run := if (prbsTaps mode).1 ≤ x.chkReg.length ∧ b = want then x.chkRun + 1 else 0
    let s := s.mapLane n fun x => { x with chkReg := (b :: x.chkReg).take 31, chkRun := run }
    if run = 128 then ((s.setF (Rg.LANE_STAT_CHK_LOCK n) 1).setF (Rg.LANE_STAT_SIG_DET n) 1).setF (Rg.LANE_STAT_CDR_LOCK n) 1
    else s

/-- The checker takes bits. -/
def State.checkBits (s : State) (n : Nat) (bits : List Bool) : State :=
  bits.foldl (State.checkBit n (s.raw (Rg.LANE_CTL_TEST_MODE n))) s

/-- R80: bits from the line; with the internal loopback the checker takes the lane's own (R79). -/
def execCheckerLock (l : LaneNo) (bits : List Bool) (s : State) : Host.Outcome State Fault Refusal :=
  let n := l.val
  if s.laneState n = 7 ∧ s.on (Rg.LANE_CTL_CHK_EN n) ∧ s.raw (Rg.LANE_CTL_TEST_MODE n) ≠ 5 then .next (s.checkBits n bits)
  else .next s

/-! ## What a lane sends with time -/

/-- Picoseconds of a training frame of 64 blocks at a rate (Table 11, R61). -/
def framePs (rate : Nat) : Nat := 64 * 66 * 100000000 / lineRate rate

/-- A lane in TRAIN sends a frame when the one before has gone (R61). -/
def State.trainTick (s : State) (n : Nat) : State :=
  let x := s.lane n
  let ps := (s.time.now - x.trainAt) * 1000000000000 / Config.ticksPerSecond
  if x.frames * framePs (s.f Rg.LNK_CFG_RATE) ≤ ps then s.sendFrame n else s

/-- A lane in TEST sends its pattern at the lane rate; mode 5 loops it to the checker with the balls electrically idle (R79). -/
def State.patternTick (s : State) (n : Nat) : State :=
  let mode := s.raw (Rg.LANE_CTL_TEST_MODE n)
  let k := bitsInTick (lineRate (s.f Rg.LNK_CFG_RATE)) s.time.now
  let (bits, reg) := prbsRun mode k (s.lineOf n).gen
  let s := s.mapLine n fun x => { x with gen := reg }
  if mode = 5 then (if s.on (Rg.LANE_CTL_CHK_EN n) then s.checkBits n bits else s) else s.emit (.pattern n bits)

/-- What the lanes send in a tick: training frames and test patterns. -/
def State.lanesTick (s : State) : State :=
  if s.boot.core then s
  else (List.range 10).foldl (fun s n =>
    if s.laneState n = 2 then s.trainTick n else if s.laneState n = 7 then s.patternTick n else s) s

/-! ## Injection, control and wake detection -/

/-- R81: a write of 1 to INJ_ONE; it reads 0 again at once. -/
def execInjOneWrite (l : LaneNo) (s : State) : Host.Outcome State Fault Refusal :=
  .next ((s.inject l.val).setF (Rg.LANE_INJ_INJ_ONE l.val) 0)

/-- R81. -/
def execInjContInject (l : LaneNo) (s : State) : Host.Outcome State Fault Refusal :=
  if s.on (Rg.LANE_INJ_INJ_CONT l.val) then .next (s.inject l.val) else .next s

/-- R83: the register write, before the set-up lock; after it the write is ignored and counted (R12). -/
def execLaneCtlWrite (l : LaneNo) (v : Word) (s : State) : Host.Outcome State Fault Refusal :=
  if s.locked then .next (s.bump Rg.C_RWL_IGNORED 1) else .next (s.applyCtl l.val v)

/-- The lane was ACTIVE or SPARE_READY before its domain slept (R85). -/
def LaneX.wasUp (x : LaneX) : Bool := x.former == some 4 || x.former == some 5

/-- R85, R464: in SLEEP, on a lane that was ACTIVE or SPARE_READY. -/
def execLaneActivity (l : LaneNo) (s : State) : Host.Outcome State Fault Refusal :=
  let n := l.val
  if s.laneState n = 1 ∧ (s.lane n).wasUp ∧ s.dom (n / 5) 6 = 2 then .next (s.wake 1 s.wakeMask) else .next s

/-- R85, R464: in DEEP, with TONE_EN set. -/
def execWakeTone (l : LaneNo) (s : State) : Host.Outcome State Fault Refusal :=
  let n := l.val
  if s.laneState n = 1 ∧ (s.lane n).wasUp ∧ s.dom (n / 5) 6 = 3 ∧ s.on Rg.PM_CFG_TONE_EN then
    .next (s.wake 2 s.wakeMask)
  else .next s

/-- R67: block lock and AM lock were not reached within the resume time. -/
def execResumeTimeout (l : LaneNo) (s : State) : Host.Outcome State Fault Refusal :=
  if (s.lane l.val).resuming then .next (s.enterTrain l.val false) else .next s

end Sys2Proof.Machine
end

