-- ==== Sys2Proof/Machine/Store.lean ====
section
/-! DEFINITION. The persistent store (R514 to R524): the use of a record, places, writes and their queue, scrub and fault
log. -/

namespace Sys2Proof.Machine

/-- Decide a record for use: a bad copy counts in NV_CRC_BAD, a decision at step 4 or 5 in NV_CONFLICT with its event; step 5
takes the default, and a record without one is undecidable, named 6 (R517, R526). -/
def State.useNv (s : State) (type index half : Nat) (hasDefault : Bool) : NvDecision × State :=
  let cs := (s.nvLocs type index).map s.readCopy
  let d := decide517 cs
  let s := s.bump (Rg.C_NV_CRC_BAD half) (cs.filter fun c => !c.good).length
  let step := match d with
    | .value _ 4 => 4
    | .undecidable => if hasDefault then 5 else 6
    | _ => 0
  (d, if step = 0 then s
      else (s.bump (Rg.C_NV_CONFLICT half) 1).raise half Ev.NV_CONFLICT type [half, index, step])

/-- A record type is critical (Table 147). -/
def nvCritical (type : Nat) : Bool := decide (type < 0x32)

/-- The half a record belongs to: that of its output, H0 for a device-wide record (R516). -/
def nvHome (type index : Nat) : Nat := if type = 0x20 then outputHalf index else 0

/-! ## Places -/

/-- Region of a record type (Table 145): first address and end. -/
def nvRegion (type : Nat) : Nat × Nat :=
  if type = 2 ∨ type = 3 then (0x20000, 0x24000)
  else if type = 1 then (0, 0x4000)
  else if 0x30 ≤ type ∧ type ≤ 0x32 then (0x3E000, 0x40000)
  else if 0x40 ≤ type then (0x40000, 0x80000)
  else (0x24000, 0x3E000)

/-- The fixed slots of a copy (R519): the eight of the power-fail ring, and one for each copy of the shutdown record, of 48 bytes
each at the end of their region (log 85). -/
def fixedSlots (type copy : Nat) : List Nat :=
  if type = 0x32 then (List.range 8).map fun i => 0x3FE80 + 48 * i else if type = 0x31 then [0x3FDF0 + 48 * copy] else []

/-- Bytes taken of a half's store: address and length of every copy and of every place that failed. -/
def State.nvTaken (s : State) (h : Nat) : List (Nat × Nat) :=
  (s.nv.dir.filter fun x => x.half == h).map (fun x =>
    (x.loc, 16 + (leNat ((s.nvBytes h x.loc 8).drop 4) + 3) / 4 * 4))
    ++ ((s.nv.bad.filter fun x => x.1 == h).map fun x => x.2) ++ [(0x3FDF0, 0x210)]

/-- A fresh place of `n` bytes in a record's region: the lowest behind a place taken, or the region's start. -/
def State.nvPlace (s : State) (h type n : Nat) : Option Nat :=
  let (lo, hi) := nvRegion type
  let taken := s.nvTaken h
  let starts := lo :: (taken.map fun x => x.1 + x.2).filter fun a => decide (lo ≤ a) && decide (a < hi)
  (starts.filter fun a => decide (a + n ≤ hi) && taken.all fun x => decide (x.1 + x.2 ≤ a) || decide (a + n ≤ x.1)).foldl
    (fun (m : Option Nat) a => match m with
      | some b => some (min a b)
      | none => some a) none

/-- The place of a copy of a record of `n` bytes: its fixed slot if it has one that has not failed, in the power-fail ring the one
that its seven newest entries leave; else a fresh place. -/
def State.nvSlot (s : State) (h type copy n : Nat) : Option Nat :=
  let used := if type = 0x32 then ((s.nv.dir.filter fun x => x.half == h && x.type == 0x32).take 7).map (·.loc) else []
  let bad := (s.nv.bad.filter fun x => x.1 == h).map fun x => x.2.1
  match (fixedSlots type copy).find? fun a => !used.contains a && !bad.contains a with
  | some a => some a
  | none => s.nvPlace h type n

/-! ## Writes (R519, R520) -/

/-- Writes queued on a half. -/
def State.nvQueue (s : State) (h : Nat) : List NvJob := tget (fun _ => []) s.nv.queue h

/-- Set a half's queue. -/
def State.setNvQueue (s : State) (h : Nat) (l : List NvJob) : State :=
  s.mapNv fun v => { v with queue := tset (fun _ => []) v.queue h l }

/-- The copies a write makes: two at home and a mirror, none across the halves in split mode; one on a half for another
record. -/
def State.nvCopiesOf (s : State) (half type : Nat) : List (Nat × Nat) :=
  if nvCritical type then [(half, 0), (half, 1)] ++ (if s.split then [] else [(1 - half, 2)]) else [(half, 0)]

/-- Queue the write of named copies (half, copy) of a record on a half; the power-fail record goes ahead of what waits
(R378). -/
def State.nvWriteTo (s : State) (half : Nat) (copies : List (Nat × Nat)) (type index : Nat) (body : List Byte) : State :=
  let j : NvJob := { type := type, index := index, body := body, left := copies, done := 0, seq := none, writing := false }
  let l := s.nvQueue half
  s.setNvQueue half (if type = 0x32 then
    match l with
    | x :: r => if x.writing then x :: j :: r else j :: l
    | [] => [j]
  else l ++ [j])

/-- Queue a record write on a half, of the copies it has (R516). -/
def State.nvWrite (s : State) (half type index : Nat) (body : List Byte) : State :=
  s.nvWriteTo half (s.nvCopiesOf half type) type index body

/-- The value of a record as its last queued write will leave it, else as decided. -/
def State.nvLatest (s : State) (half type index : Nat) : Option (List Byte) :=
  match (s.nvQueue half).reverse.find? fun j => j.type == type && j.index == index with
  | some j => some j.body
  | none => s.nvBody type index

/-- PWRFAIL_N is asserted. -/
def State.powerFail (s : State) : Bool := s.on Rg.RAIL_STAT_PF

/-- The sequence number of a new write: one above the highest of the intact copies (R517). -/
def State.nextSeq (s : State) (type index : Nat) : Nat :=
  match ((s.nvLocs type index).map s.readCopy).filter (·.good) with
  | [] => 0
  | l => (topSeq (l.map (·.seq)) + 1) % 65536

/-- R519, R520: the write at the front of a half's queue starts its next copy; under PWRFAIL_N only the power-fail record
does. A mirror copy crosses to the other half (Table 5). -/
def execNvWriteStart (h : Half) (s : State) : Host.Outcome State Fault Refusal :=
  match s.nvQueue h.val with
  | j :: r =>
    if j.writing || (s.powerFail && !(j.type == 0x32)) then .next s
    else
      let n := j.seq.getD (s.nextSeq j.type j.index)
      let s := match j.left with
        | (half, _) :: _ => if half = h.val then s else s.d2dPush h.val .store (8 * (nvRecord j.type j.index n 2 j.body).length)
        | [] => s
      .next ((s.setNvQueue h.val ({ j with seq := some n, writing := true } :: r)).setF Rg.BOOT_STAT_NV_BUSY 1)
  | [] => .next s

/-- PLANE_FALLBACK follows PLANE and the combiner record (R240); RECIP_BALL says that some path of the configuration gets
no reciprocity factor of its own, having no combiner branch (R258). -/
def State.evalPlane (s : State) : State :=
  let s := s.setB Rg.CAL_STAT_PLANE_FALLBACK (s.on Rg.CAL_CFG_PLANE && (s.nvBody 3 0).isNone)
  s.setB Rg.CAL_STAT_RECIP_BALL ((s.nvBody 3 0).isNone || (List.range s.pathCount).any fun p => !s.hasBranch p)

/-- A combiner record written before the set-up lock takes effect at once: every stored calibration set is discarded (R252),
the plane is taken anew, and every group needs a full heat (Table 65). -/
def State.combinerIn (s : State) : State :=
  if s.locked then s
  else
    let s := { s with calSets := [] }.evalPlane
    s.groupsIn.foldl (fun s g => s.requireHeat g 2 2) s

/-- A write ends: counted, and its command completes. -/
def State.nvDone (s : State) (h : Nat) (j : NvJob) : State :=
  let s := s.setNvQueue h ((s.nvQueue h).drop 1)
  let s := s.bump (Rg.C_NV_WRITES h) 1
  let s := if (List.range 2).any fun i => (s.nvQueue i).any (·.writing) then s else s.setF Rg.BOOT_STAT_NV_BUSY 0
  let s := if j.type = 0x32 then s.mapNv fun v => { v with pfWritten := true } else s
  let s := if j.type = 3 then s.combinerIn else s
  s.finishLong (fun x => x.what == LongWhat.store h j.type j.index) St.OK fun _ => {}

/-- The copy that a write was making is over: placed at an address, or dropped; the next one waits for its start. -/
def State.nvCopyOver (s : State) (h : Nat) (j : NvJob) (placed : Bool) : State :=
  let j := { j with left := j.left.drop 1, done := j.done + b2n placed, writing := false }
  let s := s.setNvQueue h (j :: (s.nvQueue h).drop 1)
  if j.left = [] then s.nvDone h j else s

/-- R519: the copy under way is verified, in a fixed slot or a fresh place, and the copy it supersedes is freed (the eighth in the power-fail ring); or it has
failed three times, and is placed elsewhere. Without a free place it is dropped, with NV_WRITE_FAIL. -/
def execNvCopyVerified (h : Half) (ok : Bool) (s : State) : Host.Outcome State Fault Refusal :=
  let h := h.val
  match s.nvQueue h with
  | [] => .next s
  | j :: _ =>
    match j.left with
    | [] => .next s
    | (half, copy) :: _ =>
      if !j.writing then .next s
      else
        let b := nvRecord j.type j.index (j.seq.getD 0) copy j.body
        match s.nvSlot half j.type copy b.length with
        | none => .next ((s.raise h Ev.NV_WRITE_FAIL j.type [h, j.done]).nvCopyOver h j false)
        | some a =>
          if ok then
            let s := s.nvPut half a b
            let same (x : NvLoc) : Bool := x.half == half && x.type == j.type && x.index == j.index && x.copy == copy
            let ring := if j.type = 0x32 then (s.nv.dir.filter same).take 7 else []
            let rest := ring ++ s.nv.dir.filter fun x => !same x
            let fresh : NvLoc := ⟨half, a, j.type, j.index, copy⟩
            let s := s.mapNv fun v => { v with dir := fresh :: rest }
            .next (s.nvCopyOver h j true)
          else .next (s.mapNv fun v => { v with bad := (half, a, b.length) :: v.bad })

/-- A record that the scrub rewrites: decided at step 3 or 4 with a copy bad or different; none waits in the queue (R524). -/
def State.scrubRecord (s : State) (h type index : Nat) : State :=
  let cs := (s.nvLocs type index).map s.readCopy
  let s := s.bump (Rg.C_NV_CRC_BAD h) (cs.filter fun c => !c.good).length
  match decide517 cs with
  | .value b step =>
    let top := topSeq ((cs.filter (·.good)).map (·.seq))
    let n := (cs.filter fun c => !(c.good && c.body == b && c.seq == top)).length
    let s := if step = 4 then (s.bump (Rg.C_NV_CONFLICT h) 1).raise h Ev.NV_CONFLICT type [h, index, 4] else s
    if n = 0 ∨ (s.nvQueue h).any (fun j => j.type == type && j.index == index) then s
    else (((s.bump (Rg.C_NV_REPAIRED h) 1).raise h Ev.NV_REPAIRED type [h, index, n]).nvWrite h type index b)
  | _ => s

/-- R524: a scrub of a half's critical records. -/
def execNvScrub (h : Half) (s : State) : Host.Outcome State Fault Refusal :=
  let h := h.val
  if !s.on Rg.NV_CFG_NV_SCRUB_EN then .next s
  else
    let s := s.paceRun 8 h (Rg.C_NV_SCRUB_LATE h)
    let recs := ((s.nv.dir.filter fun x => nvCritical x.type && nvHome x.type x.index == h).map fun x =>
      (x.type, x.index)).eraseDups
    .next (recs.foldl (fun s x => s.scrubRecord h x.1 x.2) s)

/-! ## The fault log (R522) -/

/-- Kind of a fault-log entry for a retired unit's class (Table 147), numbered as `State.logFault` does: rows of Table 135,
14 a supervisor, from 16 memory pages. -/
def faultKind (cls : Nat) : Nat :=
  match cls with
  | 0 => 12
  | 1 => 11
  | 2 => 2
  | 3 => 3
  | 4 => 4
  | 5 => 5
  | 6 => 6
  | 7 => 7
  | 8 => 8
  | 9 => 9
  | 10 => 10
  | 11 => 1
  | 14 => 14
  | _ => 13

/-- The entries of a fault-log body. -/
def logWords : List Byte → List Nat
  | a :: b :: c :: d :: r => leNat [a, b, c, d] :: logWords r
  | _ => []

/-- R522: a memory page is numbered by its memory, half and place. The oldest unit that waits is added to the log, unless its kind and number stand there or the log is full. -/
def execFaultLogEntry (s : State) : Host.Outcome State Fault Refusal :=
  match s.rel.logDue with
  | [] => .next s
  | (cls, unit) :: r =>
    let s := s.mapRel fun x => { x with logDue := r }
    let kind := faultKind cls
    let unit := if kind = 13 then 4096 * (cls - 16) + unit else unit
    let cause := if kind = 1 then tget (fun _ => 0) s.rel.pathRet unit else 0
    let body := (s.nvLatest 0 0x30 0).getD []
    let ws := logWords body
    if ws.any fun w => w % 256 == kind && w / 65536 == unit % 65536 then .next s
    else if 1024 ≤ ws.length then .next (s.raise 0 Ev.NV_WRITE_FAIL 0x30 [0, 0])
    else .next (s.nvWrite 0 0x30 0 (body ++ leBytes 4 (kind + 256 * cause + 65536 * (unit % 65536))))

end Sys2Proof.Machine
end

