-- ==== Sys2Proof/Machine/Reset.lean ====
section
/-! DEFINITION. Device reset and its causes (R504 to R508), and the bias boot records (R383). -/

namespace Sys2Proof.Machine

/-- Change the start-up state. -/
def State.mapBoot (s : State) (f : BootSt → BootSt) : State := { s with boot := f s.boot }

/-- The monitor of a half. -/
def State.monOf (s : State) (h : Nat) : MonSt := tget (fun _ => MonSt.reset) s.mon h

/-- Change the monitor of a half. -/
def State.mapMon (s : State) (h : Nat) (f : MonSt → MonSt) : State :=
  { s with mon := tset (fun _ => MonSt.reset) s.mon h (f (s.monOf h)) }

/-- Regions of the store in which a record type lies (Table 145). -/
def inRegion (type a : Nat) : Bool := decide ((nvRegion type).1 ≤ a) && decide (a < (nvRegion type).2)

/-- An intact record that starts at an address of a half's store. Every TYPE has a byte other than 0 at its start. -/
def State.recordAt (s : State) (h a : Nat) : Option NvLoc :=
  let x : NvLoc :=
    { half := h, loc := a, type := leNat (s.nvBytes h a 2), index := leNat (s.nvBytes h (a + 2) 2)
      copy := leNat (s.nvBytes h (a + 10) 1) % 4 }
  if a % 4 = 0 ∧ inRegion x.type a ∧ (s.readCopy x).good then some x else none

/-- What the device finds in its store at a reset: the copies it knew, and records written by NV_WR. -/
def State.nvScan (s : State) : List NvLoc :=
  let found := s.nv.mem.filterMap fun e => s.recordAt (e.1 / 2 ^ 19) (e.1 % 2 ^ 19)
  s.nv.dir ++ found.filter fun x => !(s.nv.dir.any fun y => y.half == x.half && y.loc == x.loc)

/-- A device reset (R506): all but the store, the shutdown latch, the rails as they stand and what the model keeps for
itself. Store writes that waited are lost. -/
def State.deviceReset (s : State) : State :=
  let latch := s.shutdown
  let dir := s.nvScan
  let z : State :=
    { State.reset with
      nv := { NvSt.reset with mem := s.nv.mem, dir := dir }
      boot :=
        { BootSt.reset with
          conds := s.boot.conds, core := true, clearAt := s.boot.clearAt, cause := s.boot.cause, boRail := s.boot.boRail
          timeLost := s.time.valid || s.boot.timeLost }
      time := { TimeSt.reset with now := s.time.now }
      tap := s.tap
      sent := s.sent
      fresh := s.fresh
      pending := s.pending }
  let z := (List.range 2).foldl (fun (z : State) h =>
    z.mapMon h fun m => { m with auxOut := (s.monOf h).auxOut, pfAt := (s.monOf h).pfAt }) z
  let z := z.setF Rg.BOOT_STAT_PHASE 0
  let z := z.setB Rg.RAIL_STAT_PF s.powerFail
  if latch then
    let z := (z.setF Rg.CFG_STAT_SHUTDOWN 1).setF Rg.THERM_STAT_SHUTDOWN 1
    let z := ((z.setF Rg.ALERT_STAT_SHUTDOWN 1).setF Rg.CFG_STAT_SERVICE 1).setF Rg.REL_STAT_SERVICE_N 1
    z.mapRel fun r => { r with serviceN := true }
  else z

/-- The CAUSE of a condition of the core reset (R507, R535). -/
def condCause : Nat → Nat
  | 0 => 0
  | 2 => 2
  | 3 => 3
  | _ => 1

/-- A condition of the core reset arises (R504): the cause that came first is recorded, and one that arrives during start-up
replaces it (R507). -/
def State.assertReset (s : State) (cond rail : Nat) : State :=
  let s := if s.boot.core && !(cond == 0) then s
    else s.mapBoot fun b => { b with cause := condCause cond, boRail := rail }
  (s.mapBoot fun b => 
    { b with conds := if b.conds.contains cond then b.conds else b.conds ++ [cond], clearAt := s.time.now }).deviceReset

/-- A condition of the core reset ends. -/
def State.clearCond (s : State) (cond : Nat) : State :=
  s.mapBoot fun b => { b with conds := b.conds.filter fun c => !(c == cond), clearAt := s.time.now }

/-- The record of an output's boot record body (Table 147). -/
def bootRec (n : Nat) (b : List Byte) : BiasRec :=
  let at_ (i k : Nat) : Nat := leNat ((b.drop i).take k)
  { output := n, span := at_ 0 1, drive := at_ 1 1 % 2 == 1, pulse := false, tx := at_ 2 2, rx := at_ 2 2
    park := (BitVec.ofNat 16 (at_ 4 2)).toInt, slew := 0 }

/-- The boot record of one output is decided (R383). -/
def State.bootOutput (s : State) (n : Nat) : State :=
  let h := outputHalf n
  let (d, s) := s.useNv 0x20 n h false
  match d with
  | .value b _ =>
    let r := bootRec n b
    let ok := !(s.monOf h).auxOut && r.drive
    s.mapBias n fun x =>
      { x with
        boot := some r
        car := r
        state := if ok then 1 else 0
        code := r.tx
        frm := r.tx }
  | .absent => s
  | .undecidable => (s.bump (Rg.C_BIAS_FAULT h) 1).raise h Ev.BIAS_BOOT_FAIL n []

/-- Every boot record is decided, once in a start-up (R383). -/
def State.bootOutputs (s : State) : State :=
  if s.boot.p0 || s.shutdown then s
  else ((List.range 136).foldl (fun s n => s.bootOutput n) s).mapBoot fun b => { b with p0 := true }

/-- VDD_AON falls below its low trip (Table 99, R504): the shutdown latch clears, and P0 decides the boot records if RESET_N
is high. -/
def State.powerCycle (s : State) : State :=
  let s := s.setF Rg.CFG_STAT_SHUTDOWN 0
  let s := s.assertReset 0 0
  if s.boot.conds.contains 1 then s else s.bootOutputs

end Sys2Proof.Machine
end

