-- ==== Sys2Proof/Machine/Monitor.lean ====
section
/-! DEFINITION. Monitor converters, rails, bias drivers, sensors, throttle levels and thermal shutdown (ch. 13). -/

namespace Sys2Proof.Machine

/-! ## Throttle levels (R393 to R396) -/

/-- Threshold of a level in 1/64 °C (Table 103). -/
def threshold : Nat → Int
  | 1 => 6400
  | 2 => 6912
  | _ => 7360

/-- The highest level whose threshold, less `d`, a temperature meets. -/
def levelMet (tj d : Int) : Nat :=
  if 7360 - d ≤ tj then 3 else if 6912 - d ≤ tj then 2 else if 6400 - d ≤ tj then 1 else 0

/-- The level of a half after a round: `first` without a prior level, `est` never relaxed (R393, R396). -/
def nextLevel (old : Nat) (tj : Int) (first est : Bool) : Nat :=
  let up := levelMet tj 0
  if first || decide (old < up) then up
  else if old = 0 || est then old
  else if tj < threshold old - 256 then levelMet tj 256
  else old

/-- LEVEL of a half in SU_THERM_STAT. -/
def levelFld (h : Nat) : Fld := if h = 0 then Rg.THERM_STAT_LEVEL_H0 else Rg.THERM_STAT_LEVEL_H1

/-- ARR of H0 and H1, ENG of H0 and H1: their present frequencies in % of nominal. -/
def clkFld (n : Nat) : Fld := match n with
  | 0 => Rg.CLK_STAT_ARR_H0
  | 1 => Rg.CLK_STAT_ARR_H1
  | 2 => Rg.CLK_STAT_ENG_H0
  | _ => Rg.CLK_STAT_ENG_H1

/-- A logic clock has a setting to ramp to (R286). -/
def State.clkGoal (s : State) (n v : Nat) : State := { s with clkTo := tset (fun _ => 100) s.clkTo n v }

/-- The logic clocks that run ramp by 1 % of nominal, at most once in a µs (R286). -/
def State.rampClocks (s : State) : State :=
  if s.time.now % 492 = 0 then
    (List.range 4).foldl (fun s n =>
      let v := s.raw (clkFld n)
      let aim := tget (fun _ => 100) s.clkTo n
      if v = 0 ∨ v = aim then s else s.setF (clkFld n) (if v < aim then v + 1 else v - 1)) s
  else s

/-- The island of a half runs again, from 50 % as after a wake (R484, log 84). -/
def State.arrTick (s : State) : State :=
  (List.range 2).foldl (fun s h =>
    if tget (fun _ => 0) s.rel.arrAt h = s.time.now ∧ s.raw (clkFld h) = 0 ∧ s.dom h 0 ≤ 1 then s.setF (clkFld h) 50 else s) s

/-- The settings of Table 71 at a level. -/
def State.clkTargets (s : State) (level : Nat) : Nat × Nat :=
  let cap := 5 * s.f Rg.CLK_CFG_ENG_CAP
  (if level < 2 then 100 else 90, min cap (if level = 0 then 100 else if level = 1 then 75 else 50))

/-- ARR and ENG take the settings of the device level. -/
def State.throttleClocks (s : State) : State :=
  let (arr, eng) := s.clkTargets (s.raw Rg.THERM_STAT_LEVEL)
  (((s.clkGoal 0 arr).clkGoal 1 arr).clkGoal 2 eng).clkGoal 3 eng

/-- T3 back-off is ordered on or off for every carrier, at its next slot boundary. -/
def State.orderBackoff (s : State) (on : Bool) : State :=
  (List.range 4).foldl (fun s c =>
    let v := tget (fun _ => 0) s.backoff c
    let w := if on then (if v = 0 then 2 else if v = 3 then 1 else v) else if v = 1 then 3 else if v = 2 then 0 else v
    { s with backoff := tset (fun _ => 0) s.backoff c w }) s

/-- REDUCE_LOAD as message and as event (R394). -/
def State.reduceLoad (s : State) (level : Nat) : State :=
  let n := if 2 ≤ level then s.f Rg.THERM_CFG_REDUCE_STREAMS else 64
  ((s.sendMsg s.msgHalf 0x0003 (beBytes 1 level ++ zeros 1 ++ beBytes 2 n)).raise s.lead Ev.REDUCE_LOAD 0 [level, n]).mapMon 0 fun m =>
    { m with reduceAt := if 2 ≤ level then some s.time.now else none }

/-- A half's Tj as an event argument. -/
def State.tjArg (s : State) (h : Nat) : Nat := argInt ((s.monOf h).tj.getD 0)

/-- The device level follows the halves' (R33), with its actions (Table 103). -/
def State.deviceLevel (s : State) : State :=
  let old := s.raw Rg.THERM_STAT_LEVEL
  let new := max (s.raw Rg.THERM_STAT_LEVEL_H0) (s.raw Rg.THERM_STAT_LEVEL_H1)
  if new = old then s
  else
    let s := s.setF Rg.THERM_STAT_LEVEL new
    let s := if old < new then s.bump (Rg.C_THROTTLE_UP 0) 1 else s
    let s := s.raise s.lead Ev.THROTTLE 0 [new, s.tjArg 0, s.tjArg 1]
    let s := s.throttleClocks
    let s := if 2 ≤ new then s.alert Rg.ALERT_STAT_THERM else s.setF Rg.ALERT_STAT_THERM 0
    let s := if new = 3 then s.orderBackoff true else if old = 3 then s.orderBackoff false else s
    if 2 ≤ new ∨ 2 ≤ old then s.reduceLoad new else s

/-! ## Converters (R368 to R375) -/

/-- A sensor. -/
def State.sensor (s : State) (n : Nat) : SensSt := tget (fun _ => SensSt.reset) s.sens n

/-- Change a sensor. -/
def State.mapSens (s : State) (n : Nat) (f : SensSt → SensSt) : State :=
  { s with sens := tset (fun _ => SensSt.reset) s.sens n (f (s.sensor n)) }

/-- A conversion (R368): its code and OVER, from its input in codes before saturation. -/
def adcCode (x : Int) : Nat × Bool := if x < 0 then (0, true) else if 262143 < x then (0x3FFFF, true) else (x.toNat, false)

/-- The round value of a channel from its 2^OVS conversions, and how many of them set OVER (R370): the sum shifted right, or the
saturated code. -/
def roundValue (ovs : Nat) (l : List Int) : Nat × Nat :=
  let cs := (List.range (2 ^ ovs)).map fun i => adcCode (nth l i 0)
  match cs.filter (·.2) with
  | [] => ((cs.map (·.1)).sum >>> ovs, 0)
  | o => ((o.headD (0, true)).1, o.length)

/-- The value of a code of a channel in the unit of Table 96: a sensor's through its two-point trim, a rail's through its
divider, a readback's over ±6.0 V, and the others' over 0 to 2.5 V. -/
def State.chanValue (s : State) (h ch code : Nat) : Int :=
  let full (v : Int) : Int := asr (v * code) 18
  if ch < 26 then
    let x := s.sensor (26 * h + ch)
    if x.c1 = x.c0 then x.t0 else x.t0 + ((code : Int) - x.c0) * (x.t1 - x.t0) / (x.c1 - x.c0)
  else if 32 ≤ ch ∧ ch ≤ 47 then full (nth (s.monOf h).div (ch - 32) 0)
  else if 112 ≤ ch ∧ ch ≤ 179 then full 12000000 - 6000000
  else full 2500000

/-- Raise an event at most once per key in `ticks`, where its subject alone does not tell the items apart. -/
def State.raiseKeyed (s : State) (half code subject key ticks : Nat) (args : List Nat) : State :=
  match (s.rate code key).last with
  | some t => if s.time.now < t + ticks then s else (s.setRate code key ⟨some s.time.now, 0⟩).raise half code subject args
  | none => (s.setRate code key ⟨some s.time.now, 0⟩).raise half code subject args

/-- Conversions of a channel set OVER (R368). -/
def State.monOver (s : State) (h ch n : Nat) : State :=
  if n = 0 then s
  else (s.bump (Rg.C_MON_OVER h) n).raiseKeyed h Ev.MON_OVER ch (h * 256 + ch) Config.ticksPerSecond [h]

/-- Retire a converter; the resting one takes its place at once (R375). -/
def State.retireMc (s : State) (h i : Nat) : State :=
  if tget (fun _ => false) s.rel.mcRet (3 * h + i) then s
  else
    let s := s.mapRel fun r => { r with mcRet := tset (fun _ => false) r.mcRet (3 * h + i) true }
    let m := s.monOf h
    let served := m.inService.contains i
    let rest := m.inService.filter fun x => !(x == i)
    let s := s.mapMon h fun m => { m with inService := rest ++ m.resting.toList.filter (fun x => !(x == i)), resting := none }
    let s := (s.bump (Rg.C_MC_RETIRED h) 1).raise h Ev.MC_RETIRED (3 * h + i) []
    let s := if served && m.resting.isSome then s.spareIn h else s
    let s := ((s.exhaust h 6).logFault 6 (3 * h + i)).evalRel
    if (s.monOf h).inService = [] then ((s.mapMon h fun m => { m with hot := true }).setF (levelFld h) 3).deviceLevel else s

/-- A converter's results for channels 26 and 27 and the test DAC stand more than 0.02 % of full scale from the factory values
(R374). -/
def State.katBad (s : State) (h : Nat) (l : List Int) : Bool :=
  let m := s.monOf h
  [(0, 0), (1, 1), (2, 2 + m.dacK)].any fun x =>
    decide (2 * 262144 < 10000 * (((adcCode (nth l x.1 0)).1 : Int) - nth m.ref x.2 0).natAbs)

/-- The check of a round (R374), at the test-DAC codes in rotation: two failing rounds running retire a converter; both failing
at once retire neither. -/
def State.monCheck (s : State) (h : Nat) (l : List (Nat × List Int)) : State :=
  if !s.on Rg.MON_CFG_KAT_EN then s
  else
    let ins := (s.monOf h).inService
    let bad := ins.filter fun i => s.katBad h (((l.find? fun x => x.1 == i).map (·.2)).getD [])
    let s := s.mapMon h fun m => { m with dacK := (m.dacK + 1) % 8 }
    if decide (2 ≤ ins.length) && ins.all bad.contains then s.raise h Ev.MON_REF_FAULT h []
    else
      ins.foldl (fun s i =>
        let n := if bad.contains i then tget (fun _ => 0) (s.monOf h).katRun i + 1 else 0
        let s := s.mapMon h fun m => { m with katRun := tset (fun _ => 0) m.katRun i n }
        if 2 ≤ n then s.retireMc h i else s) s

/-- The end of a rest (R373): a converter whose calibration fails on two rests running is retired. -/
def State.restResult (s : State) (h i : Nat) (fail : Bool) : State :=
  let n := if fail then tget (fun _ => 0) (s.monOf h).restRun i + 1 else 0
  let s := s.mapMon h fun m => { m with restRun := tset (fun _ => 0) m.restRun i n }
  if 2 ≤ n then s.retireMc h i else s

/-- The exchange at the end of a round (R373): the converter that has rested enters service with its new trims. -/
def State.monRotate (s : State) (h : Nat) (trim : Option (List Int)) : State :=
  match (s.monOf h).resting with
  | some r =>
    if !s.on Rg.MON_CFG_ROT_EN then s
    else
      let s := s.restResult h r trim.isNone
      match (s.monOf h).resting, (s.monOf h).inService with
      | some r, x :: l => s.mapMon h fun m =>
          { m with inService := l ++ [r], resting := some x, trim := tset (fun _ => []) m.trim r (trim.getD (tget (fun _ => []) m.trim r)) }
      | _, _ => s
  | none => s

/-! ## Rails (R377) -/

/-- Rail, in SU_RAIL_STAT order, and nominal mV of each rail point (Table 97). -/
def railPoints : List (Nat × Int) := [0, 0, 0, 0, 1, 1, 2, 2, 3, 4, 5, 5, 6, 7, 8, 9].zip railNominal

/-- Rail points outside 3 % of nominal warn; the register shows both halves' last rounds. -/
def State.railWarn (s : State) (h : Nat) (mv : List Int) : State :=
  let out := (railPoints.zip mv).filter fun x => decide (3 * x.1.2.natAbs < 100 * (x.2 - x.1.2).natAbs)
  let mask := maskNat 10 fun i => out.any fun x => x.1.1 == i
  let s := s.mapMon h fun m => { m with warn := mask }
  let s := s.setF Rg.RAIL_STAT_WARN (Nat.lor (s.monOf 0).warn (s.monOf 1).warn)
  out.foldl (fun s x => (s.bump (Rg.C_RAIL_WARN h) 1).raiseOnce h Ev.RAIL_WARN x.1.1 Config.ticksPerSecond [argInt x.2]) s

/-! ## Sensors (R389 to R392) -/

/-- The sensors of a half. -/
def halfSensors (h : Nat) : List Nat := (List.range 26).map (· + 26 * h)

/-- The greatest of a list. -/
def maxInt : List Int → Option Int
  | [] => none
  | x :: r => match maxInt r with
    | some y => some (if x < y then y else x)
    | none => some x

/-- M_s: the maximum reading of the healthy neighbours. -/
def State.neighMax (s : State) (n : Nat) : Option Int :=
  maxInt (((s.sensor n).neigh.filter fun k => !(s.sensor k).failed).map fun k => (s.sensor k).reading)

/-- T_s - M_s - o_s in 1/4,096 °C; none without a healthy neighbour. -/
def State.deviation (s : State) (n : Nat) : Option Int :=
  (s.neighMax n).map fun m => 64 * ((s.sensor n).reading - m) - (s.sensor n).offset

/-- The disagreement of a sensor (R390); 0 where it has no healthy neighbour. -/
def State.disagree (s : State) (n : Nat) : Nat := ((s.deviation n).getD 0).natAbs

/-- The FAILED bit of a sensor. -/
def State.setFailBit (s : State) (n : Nat) (b : Bool) : State :=
  if n < 32 then s.setBit Rg.SENS_FAIL0_FAILED n b else s.setBit Rg.SENS_FAIL1_FAILED (n - 32) b

/-- A sensor's self-check (R390): the ratio of its readings at the two bias currents lies outside its window. -/
def State.selfFails (s : State) (h n : Nat) (pairs : List (Nat × Nat)) : Bool :=
  let x := s.sensor n
  let (a, b) := nth pairs (n - 26 * h) (0, 0)
  decide (65536 * a < x.lo * b) || decide (x.hi * b < 65536 * a)

/-- Judge one healthy sensor (R390): 6 °C is 24,576. -/
def State.judgeSensor (s : State) (h n : Nat) (pairs : List (Nat × Nat)) : State :=
  let run := if 24576 < s.disagree n then (s.sensor n).badRun + 1 else 0
  let s := s.mapSens n fun x => { x with badRun := run }
  let why := if 2 ≤ run then 1 else if s.selfFails h n pairs then 2 else 0
  if why = 0 then s
  else
    let s := (s.mapSens n fun x => { x with failed := true, okRun := 0 }).setFailBit n true
    ((s.bump (Rg.C_SENS_FAIL h) 1).raise h Ev.SENSOR_FAIL n [why]).evalRel

/-- The sensor of greatest disagreement among some. -/
def State.worst (s : State) : List Nat → Option Nat
  | [] => none
  | n :: r => match s.worst r with
    | some k => some (if s.disagree n < s.disagree k then k else n)
    | none => some n

/-- Judge sensors in order of decreasing disagreement, each failed one removed before the next is judged (R390). -/
def judgeSensors (h : Nat) (pairs : List (Nat × Nat)) : Nat → List Nat → State → State
  | 0, _, s => s
  | k + 1, l, s => match s.worst l with
    | some n => judgeSensors h pairs k (l.filter fun x => !(x == n)) (s.judgeSensor h n pairs)
    | none => s

/-- Learn a healthy sensor's offset (R389): 1/64 of the deviation, within 10 °C. -/
def State.learn (s : State) (n : Nat) : State :=
  match s.deviation n with
  | some d =>
    if d.natAbs ≤ 24576 then s.mapSens n fun x => { x with offset := clampTo 40960 (x.offset + asr d 6) } else s
  | none => s

/-- A failed sensor whose self-check passes and that agrees within 3 °C for 100 rounds is restored (R391). -/
def State.restoreSensor (s : State) (h n : Nat) (pairs : List (Nat × Nat)) : State :=
  let ok := !s.selfFails h n pairs && (match s.deviation n with
    | some d => decide (d.natAbs ≤ 12288)
    | none => false)
  let run := if ok then (s.sensor n).okRun + 1 else 0
  let s := s.mapSens n fun x => { x with okRun := run }
  if 100 ≤ run then
    ((s.mapSens n fun x => { x with failed := false, okRun := 0, badRun := 0 }).setFailBit n false).evalRel
  else s

/-- A half has a healthy sensor. -/
def State.anyHealthy (s : State) (h : Nat) : Bool := (halfSensors h).any fun n => !(s.sensor n).failed

/-- Estimate a failed sensor (R391). -/
def State.estimate (s : State) (h n : Nat) : State :=
  match s.neighMax n with
  | some m => s.mapSens n fun x => { x with est := m + asr x.offset 6 + 192 }
  | none =>
    match maxInt (((halfSensors h).filter fun k => !(s.sensor k).failed).map fun k => (s.sensor k).reading) with
    | some m => s.mapSens n fun x => { x with est := m + 384 }
    | none => s

/-- A path whose sensor has moved more than 5 °C since its last measurement is measured again with priority (Table 65). -/
def State.movedPaths (s : State) (h : Nat) : State :=
  (halfPaths h).foldl (fun s p =>
    let c := s.calOf p
    if s.pathIn p && (c.lastTx.isSome || c.lastRx.isSome) && !c.prio
        && decide (320 < (s.sensTemp (pathSensor p) - c.temp).natAbs) then s.prioMeasure p else s) s

/-- The sensors of a half in a round: readings, failures, offsets, restorations, estimates and Tj. -/
def State.sensorRound (s : State) (h : Nat) (temps : List Int) (pairs : List (Nat × Nat)) : State :=
  let s := (temps.zipIdx.take 26).foldl (fun s x => s.mapSens (26 * h + x.2) fun y => { y with reading := x.1 }) s
  let gone := (halfSensors h).filter fun n => (s.sensor n).failed
  let s := judgeSensors h pairs 26 ((halfSensors h).filter fun n => !(s.sensor n).failed) s
  let s := (halfSensors h).foldl (fun s n => if (s.sensor n).failed then s else s.learn n) s
  let s := gone.foldl (fun s n => s.restoreSensor h n pairs) s
  let s := (halfSensors h).foldl (fun s n => if (s.sensor n).failed then s.estimate h n else s) s
  let est := (halfSensors h).any fun n => (s.sensor n).failed
  let s := s.setB (if h = 0 then Rg.THERM_STAT_EST_H0 else Rg.THERM_STAT_EST_H1) est
  let tj := if s.anyHealthy h then maxInt ((halfSensors h).map s.sensTemp)
    else (s.monOf (1 - h)).tj.map (· + 640)
  s.mapMon h fun m => { m with tj := tj }

/-! ## Levels of a round and thermal shutdown (R392 to R397) -/

/-- The level of a half at the end of a round. -/
def State.levelRound (s : State) (h : Nat) (first : Bool) : State :=
  let est := s.on (if h = 0 then Rg.THERM_STAT_EST_H0 else Rg.THERM_STAT_EST_H1)
  let none_ := !s.anyHealthy 0 && !s.anyHealthy 1
  let s := if none_ then (s.mapMon 0 fun m => { m with hot := true }).mapMon 1 fun m => { m with hot := true } else s
  let old := s.raw (levelFld h)
  let lvl := match (s.monOf h).tj with
    | some t => nextLevel old t first est
    | none => old
  let s := s.setF (levelFld h) (if (s.monOf h).hot then 3 else lvl)
  let s := if none_ then s.setF (levelFld (1 - h)) 3 else s
  let tj := maxInt ((s.monOf 0).tj.toList ++ (s.monOf 1).tj.toList)
  (s.setF Rg.THERM_STAT_TJ (((tj.getD 0) % 65536).toNat)).deviceLevel

/-- The body of the shutdown record (Table 148). -/
def State.shutdownBody (s : State) (sensor : Nat) (temp : Int) (est : Bool) : List Byte :=
  leBytes 4 (atimeWord s.stamp) ++ leBytes 2 s.stamp.tick ++ leBytes 1 sensor ++ leBytes 1 (b2n est + 2 * b2n s.time.valid)
    ++ leInt 2 temp ++ leInt 2 ((s.monOf 0).tj.getD 0) ++ leInt 2 ((s.monOf 1).tj.getD 0) ++ zeros 18

/-- Send a packet at once, where the half may send one that consumes SEQ (R93, R99). -/
def State.sendNow (s : State) (h : Nat) (it : TxItem) : State :=
  if s.linkUp h && !(s.txLanes h).isEmpty && s.maySend h it then s.startNew h it false else s

/-- Thermal shutdown for a sensor: its seven steps (R397). -/
def State.thermalShutdown (s : State) (sensor : Nat) (temp : Int) (est : Bool) : State :=
  if s.shutdown then s
  else
    let body := s.shutdownBody sensor temp est
    let s := (List.range 64).foldl (fun s p =>
      (s.mapTx p fun t => { t with state := 0, buf := [], next := none }).mapFe p fun f => { f with state := if f.state = 6 then 6 else 0 }) s
    let s := { s with linesOn := false }
    let s := (List.range 136).foldl (fun s n => s.mapBias n fun b => b.stop 0 0) s
    let h := s.lead
    let s := s.raise h Ev.THERMAL_SHUTDOWN sensor [argInt temp]
    let s := match s.cmd.history with
      | e :: _ => if e.code = Ev.THERMAL_SHUTDOWN then s.sendNow (if s.split then h else s.msgHalf) (msgItem 0x0005 e.bytes) else s
      | [] => s
    let s := (List.range 10).foldl (fun s n => if s.laneState n = 8 then s else s.setLane n 0) s
    let s := s.nvWrite h 0x31 0 body
    let s := (s.setF Rg.CFG_STAT_SHUTDOWN 1).setF Rg.THERM_STAT_SHUTDOWN 1
    let s := s.alert Rg.ALERT_STAT_SHUTDOWN
    let s := if s.rel.serviceN then s
      else ((s.mapRel fun r => { r with serviceN := true }).setF Rg.REL_STAT_SERVICE_N 1).irq 5
    let s := s.setF Rg.CFG_STAT_SERVICE 1
    let s := (List.range 10).foldl (fun s n => (s.setF (Rg.LO_STAT_STATE n) (if s.raw (Rg.LO_STAT_STATE n) = 5 then 5 else 0)).setF
      (Rg.LO_STAT_READY n) 0) s
    let s := (s.setReg 0x2110 0).mapTime fun t => { t with running := false }
    (s.failLongs St.NOT_READY).evalHold

/-- Shutdown at the end of a round: the hottest healthy reading or estimate of the half at 125 °C or above. -/
def State.shutdownRound (s : State) (h : Nat) : State :=
  match (halfSensors h).find? fun n =>
      decide (8000 ≤ s.sensTemp n) && (halfSensors h).all fun k => decide (s.sensTemp k ≤ s.sensTemp n) with
  | some n => s.thermalShutdown n (s.sensTemp n) (s.sensor n).failed
  | none => s

/-! ## Bias drivers (R386, R388) -/

/-- The driver in service of an output is declared faulty (reason 1 sense, 2 readback): the twin takes the output; without
one it is UNDRIVEN and its paths are retired. -/
def State.biasDriver (s : State) (n reason : Nat) : State :=
  let h := outputHalf n
  let twin := tget (fun _ => false) s.rel.onTwin n
  let b := s.biasOut n
  if b.state = 0 ∨ tget (fun _ => false) s.rel.biasDead n then s
  else if !twin && !b.twinRet then
    let s := s.mapRel fun r => { r with onTwin := tset (fun _ => false) r.onTwin n true }
    let s := (s.mapBias n fun b => { b with missRun := 0 }).bump (Rg.C_BIAS_TWIN h) 1
    (((s.raise h Ev.BIAS_TWIN n [reason]).exhaust h 10).spareIn h).logFault 10 n
  else
    let s := s.mapRel fun r => { r with biasDead := tset (fun _ => false) r.biasDead n true }
    let s := (s.mapBias n fun b => { b.stop 0 0 with missRun := 0, twinRet := b.twinRet || twin }).evalRel
    match outputPath n with
    | some p => s.retirePath p 5
    | none => (groupPaths (outputGroup n)).foldl (fun s p => s.retirePath p 5) s

/-- What a round measures at an output, in the unit of its code: the readback in a voltage span; in a current span the measured
current, if there is one (log 81). -/
def biasSeen (span n : Nat) (readback : Int) (amps : List (Nat × Int)) : Option Int :=
  if isCurrent span then (amps.find? fun x => x.1 == n).map (·.2) else some readback

/-- One output's readback in a round: kept, compared (R386), and used for the trims (R388): a quarter of the error, at most
0.005 % of span, split between offset and gain as the free value says. A flagged external fault ends once the current is back
(R387). -/
def State.biasRound (s : State) (n : Nat) (readback : Int) (ovr : Bool) (amps : List (Nat × Int)) : State :=
  let now := s.time.now
  let s := s.mapBias n fun b => { b with readback := readback }
  let b := s.biasOut n
  let width := spanWidth b.car.span
  match b.level now, biasSeen b.car.span n readback amps with
  | some want, some seen =>
    let err := want - seen
    let miss := decide (width < 2000 * err.natAbs)
    let s := s.mapBias n fun b =>
      { b with missRun := if miss then b.missRun + 1 else 0, ext := b.ext && decide (width < 200 * err) }
    let s := if s.on Rg.BIAS_CFG_TRIM_EN ∧ (b.state = 1 ∨ b.state = 2) ∧ !b.slewing now ∧ !ovr then
        let step := clampTo (width / 20000) (asr err 2)
        let g := Config.trimGain n b.code step
        s.mapBias n fun b => { b with trimOff := b.trimOff + (step - g), trimGain := b.trimGain + g }
      else s
    if 2 ≤ (s.biasOut n).missRun then s.biasDriver n 2 else s
  | _, _ => s.mapBias n fun b => { b with missRun := 0 }

/-! ## The round -/

/-- R370: a half's housekeeping round, in its order: conversions, converters, rails, sensors, throttle level, shutdown, bias
trims; then the exchange of R373. There is none while CTL does not run (Table 6) or the half's supervisor
stands still (R485). -/
def execHousekeepingRound (h : Half) (r : RoundIn) (s : State) : Host.Outcome State Fault Refusal :=
  let h := h.val
  if s.shutdown || (s.monOf h).inService.isEmpty || !s.ctlRuns h || tget (fun _ => false) s.rel.supStop h then .next s
  else
    let first := (s.monOf h).tj.isNone
    let s := s.paceRun 4 h (Rg.C_HK_LATE h)
    let vals := (List.range 192).map fun ch => roundValue (s.f Rg.MON_CFG_OVS) (nth r.inputs ch [])
    let value (ch : Nat) : Int := s.chanValue h ch (nth vals ch (0, 0)).1
    let temps := (List.range 26).map value
    let rails := (List.range 16).map fun i => value (32 + i)
    let backs := (List.range 68).map fun i => (68 * h + i, value (112 + i), !((nth vals (112 + i) (0, 0)).2 == 0))
    let s := (vals.zipIdx).foldl (fun s x => s.monOver h x.2 x.1.2) s
    let s := (s.monCheck h r.kat).railWarn h rails
    let s := (s.sensorRound h temps r.pairs).movedPaths h
    let s := (s.levelRound h first).shutdownRound h
    let s := if (s.monOf h).inService.isEmpty || s.shutdown then s
      else backs.foldl (fun s m => s.biasRound m.1 m.2.1 m.2.2 r.amps) s
    let s := s.monRotate h r.rest
    .next ((s.mapMon h fun m => { m with noRound := false, ovr := [] }).bump (Rg.C_HK_ROUNDS h) 1)

/-! ## Injected conversions (R371, R372, R376) -/

/-- A result word of Table 98. -/
def convWord (code : Nat) (ovr late rep : Bool) (conv ch : Nat) : Nat :=
  code % 2 ^ 18 + 2 ^ 18 * b2n ovr + 2 ^ 19 * b2n late + 2 ^ 20 * b2n rep + 2 ^ 21 * conv + 2 ^ 24 * ch

/-- The code of the test DAC at 0x400 (`0`) or 0xC00, between the factory values of its neighbouring codes (R374, R376). -/
def State.dacCode (s : State) (h k : Nat) : Int :=
  let r (i : Nat) : Int := ((nth (s.monOf h).ref (2 + i) 0 : Nat) : Int)
  if k = 0 then r 1 + (r 2 - r 1) * 0x140 / 0x1C0 else r 6 + (r 7 - r 6) * 0x80 / 0x1C0

/-- What a MON_TEST infers (R376): OPEN where the input follows the DAC within 1 %, and the source resistance in Ω behind the
on-die 10 kΩ; the largest DETAIL can hold where the input moves as much as the DAC. -/
def State.monTestDetail (s : State) (h : Nat) (a b : Int) : Nat :=
  let d0 := s.dacCode h 0
  let d1 := s.dacCode h 1
  let near (v d : Int) : Bool := decide (100 * (v - d).natAbs ≤ d.natAbs)
  let ohms : Nat := if d1 - d0 ≤ b - a then 2 ^ 31 - 1 else min (2 ^ 31 - 1) (10000 * (b - a) / (d1 - d0 - (b - a))).toNat
  ohms + 2 ^ 31 * b2n (near a d0 && near b d1)

/-- An injected conversion runs and its command, if it has one, completes; a MON_TEST is a pair of them. -/
def State.convert (s : State) (h : Nat) (q : InjReq) (late : Bool) (c : ConvRes) : State :=
  let ins := (s.monOf h).inService
  let conv := if ins.contains c.conv then c.conv else ins.headD 0
  let rep := (s.monOf h).ovr.contains conv
  let (code, ov) := adcCode c.x
  let (code2, over2) := adcCode c.x2
  let last := if q.src = 2 then over2 else ov
  let s := s.mapMon h fun m =>
    { m with inj := m.inj.erase q, ovr := (m.ovr.filter fun x => !(x == conv)) ++ (if last then [conv] else []) }
  let s := s.bump (Rg.C_INJ_DONE h) (if q.src = 2 then 2 else 1)
  let s := if late then s.bump (Rg.C_INJ_LATE h) 1 else s
  let s := s.monOver h q.ch (b2n ov + (if q.src = 2 then b2n over2 else 0))
  let value := s.chanValue h q.ch code
  let w := convWord code ov late rep conv q.ch
  let s := if q.src = 0 then
      s.finishLong (fun x => x.what == LongWhat.inject h q.ch q.at_.isSome) St.OK fun _ => { r0 := w, r1 := argInt value }
    else if q.src = 2 then
      let detail := s.monTestDetail h code code2
      s.finishLong (fun x => x.what == LongWhat.monTest h q.ch) St.OK fun _ =>
        { r0 := w, r1 := convWord code2 over2 false ov conv q.ch, detail := detail }
    else s
  if q.ch < 26 ∧ 8000 ≤ value then s.thermalShutdown (26 * h + q.ch) value false else s

/-- R372: the first untimed request of a half's injected queue. -/
def execInjectedConversionStart (h : Half) (c : ConvRes) (s : State) : Host.Outcome State Fault Refusal :=
  let m := s.monOf h.val
  if s.shutdown || m.inService.isEmpty then .next s
  else match m.inj.find? (·.at_.isNone) with
    | some q => .next (s.convert h.val q false c)
    | none => .next s

/-- R372: the timed request whose tick came first; LATE where it starts more than 1 µs after its tick. -/
def execTimedConversion (h : Half) (c : ConvRes) (s : State) : Host.Outcome State Fault Refusal :=
  let m := s.monOf h.val
  let due : List InjReq := (m.inj.filter fun q => match q.at_ with
    | some t => s.reached t
    | none => false)
  let age (q : InjReq) : Nat := (ahead (q.at_.getD 0) s.time.count).toNat
  let oldest := due.find? fun q => due.all fun r => decide (age r ≤ age q)
  if s.shutdown || m.inService.isEmpty then .next s
  else match oldest with
    | some q => .next (s.convert h.val q (decide (491 < age q)) c)
    | none => .next s

/-- R375: with two converters working, one is calibrated in place while its half's injected queue is empty; a failure on two
calibrations running retires it, as on two rests. -/
def execMcCalibrateInPlace (h : Half) (conv : Fin 3) (trim : Option (List Int)) (s : State) : Host.Outcome State Fault Refusal :=
  let m := s.monOf h.val
  if s.shutdown || m.resting.isSome || !m.inService.contains conv.val || !m.inj.isEmpty then .next s
  else
    let s := match trim with
      | some l => s.mapMon h.val fun m => { m with trim := tset (fun _ => []) m.trim conv.val l }
      | none => s
    .next (s.restResult h.val conv.val trim.isNone)

/-! ## Trips and the power-fail warning (R377, R378) -/

/-- Every bias output of a half is UNDRIVEN. -/
def State.undriveHalf (s : State) (h : Nat) : State :=
  ((List.range 136).filter fun n => outputHalf n == h).foldl
    (fun s n => s.mapBias n fun b => b.stop 0 0) s

/-- R377: Table 99. -/
def execRailTrip (h : Half) (rail : Fin 10) (high : Bool) (s : State) : Host.Outcome State Fault Refusal :=
  let i := rail.val
  let s := s.setBit Rg.RAIL_STAT_TRIPPED i true
  if 8 ≤ i then
    let s := (s.undriveHalf h.val).mapMon h.val fun m => { m with auxOut := true }
    .next (s.raise h.val Ev.RAIL_TRIP i [b2n high])
  else if high then .next (s.raise h.val Ev.RAIL_TRIP i [1])
  else if i = 7 then .next s.powerCycle
  else .next ((s.assertReset 2 i).setBit Rg.RAIL_STAT_TRIPPED i true)

/-- R377, R383: both auxiliary rails of a half are good again: outputs that were driven return to PARKED, on their way to LIVE;
one that waits for its boot value takes it. -/
def execAuxRailRecover (h : Half) (s : State) : Host.Outcome State Fault Refusal :=
  if !(s.monOf h.val).auxOut || s.shutdown then .next s
  else
    let s := s.mapMon h.val fun m => { m with auxOut := false }
    .next (((List.range 136).filter fun n => outputHalf n == h.val).foldl (fun s n =>
      let b := s.biasOut n
      if b.state ≠ 0 ∨ !b.car.drive ∨ tget (fun _ => false) s.rel.biasDead n then s
      else if b.boot = some b.car then s.mapBias n fun b => { b.jump b.car.tx with state := 1 }
      else
        let stays := match outputPath n with
          | some p => s.pathOut p
          | none => (groupPaths (outputGroup n)).all s.pathOut
        s.mapBias n fun b => { b with state := 4, returning := if stays then 0 else 1 }) s)

/-- The body of the power-fail record (Table 148). -/
def State.pfBody (s : State) (rails : List Int) : List Byte :=
  leBytes 4 (atimeWord s.stamp) ++ leBytes 2 s.stamp.tick ++ leBytes 1 (s.raw Rg.THERM_STAT_LEVEL)
    ++ leBytes 1 (1 + 128 * b2n s.time.valid) ++ ((List.range 10).map fun i => leInt 2 (nth rails i 0)).flatten ++ zeros 4

/-- The half sleeps: its ARRAY domain is in SLEEP or DEEP, and so is all of it (R461). -/
def State.asleep (s : State) : Bool := (List.range 2).all fun h => s.dom h 0 == 2 || s.dom h 0 == 3

/-- R378: PWRFAIL_N. In SLEEP and DEEP only the record follows; in OFF it is ignored. -/
def execPwrfailAssert (rails : List Int) (s : State) : Host.Outcome State Fault Refusal :=
  if s.powerFail || s.shutdown || s.dom 0 0 == 4 then .next s
  else
    let body := s.pfBody rails
    let quiet := s.asleep
    let s := (s.setF Rg.RAIL_STAT_PF 1).mapMon 0 fun m => { m with pfAt := s.time.now }
    let s := if quiet then s
      else
        let s := (s.alert Rg.ALERT_STAT_PF).raise s.lead Ev.PWR_WARN 0 []
        let s := (List.range 2).foldl (fun s h =>
          s.mapMon h fun m =>
            { m with inj := (m.inj ++ (List.range 16).map fun i => (⟨32 + i, none, 1⟩ : InjReq)).take 16 }) s
        s.bump (Rg.C_PF_ASSERT 0) 1
    .next ((s.nvWrite 0 0x32 0 body).nvWrite 1 0x32 0 body)

/-- R378, Table 102: the release; outputs parked under PF_PARK go to LIVE at a transmit-interval start, with RX_CODE in force until
then. -/
def execPwrfailRelease (s : State) : Host.Outcome State Fault Refusal :=
  if !s.powerFail then .next s
  else
    let parked := s.on Rg.RAIL_STAT_PARKED
    let s := ((s.setF Rg.RAIL_STAT_PF 0).setF Rg.ALERT_STAT_PF 0).setF Rg.RAIL_STAT_PARKED 0
    let s := if s.asleep then s else s.raise s.lead Ev.PWR_RESTORED 0 []
    if !parked then .next s
    else .next ((List.range 136).foldl (fun s n =>
      let b := s.biasOut n
      if b.state = 4 ∧ b.returning = 3 then s.mapBias n fun b =>
        { (b.jump (spanCode b.car.span b.car.park)).go s.time.now b.car.rx with returning := 2 } else s) s)

/-- R378: the hold of PF_PARK has passed and a blanking-interval boundary comes: every driven output is PARKED. -/
def execPfParkTimeout (s : State) : Host.Outcome State Fault Refusal :=
  if !s.on Rg.PWR_CFG_PF_PARK || !s.powerFail || s.on Rg.RAIL_STAT_PARKED
      || decide (s.time.now < (s.monOf 0).pfAt + 49152 * s.f Rg.PWR_CFG_PF_HOLD) then .next s
  else
    let s := s.setF Rg.RAIL_STAT_PARKED 1
    .next ((List.range 136).foldl (fun s n =>
      let b := s.biasOut n
      if b.state = 0 ∨ b.state = 4 then s else s.mapBias n fun b => b.stop 4 3) s)

/-! ## Bias outputs -/

/-- R385: the main core has settled in the new span and the output slews to its new value. -/
def execBiasChangeoverDone (n : Fin 136) (s : State) : Host.Outcome State Fault Refusal :=
  let n := n.val
  let b := s.biasOut n
  match b.pend with
  | some r =>
    if b.state ≠ 3 then .next s
    else
      let tx := match outputPath n with
        | some p => !r.pulse || (s.fep p).biasTx
        | none => true
      let b := { b with car := r, pend := none, state := 2 }.jump (spanCode r.span r.park)
      .next (s.mapBias n fun _ => b.go s.time.now (if tx then r.tx else r.rx))
  | none => .next s

/-- R386: an output's own sense stands more than 0.2 % of span from its code, outside a slew and a flagged external fault. -/
def execBiasDriverFault (n : Fin 136) (sense : Int) (s : State) : Host.Outcome State Fault Refusal :=
  let b := s.biasOut n.val
  let off := match b.level s.time.now with
    | some v => decide (spanWidth b.car.span < 500 * (sense - v).natAbs)
    | none => false
  .next (if off && !b.slewing s.time.now && !b.ext then s.biasDriver n.val 1 else s)

/-- R387: an output in a current span at its compliance limit: an open loop with less than half the set current, else a compliance
fault where the current is short by more than 0.5 % of span. The output keeps its setting. -/
def execBiasExternalFault (n : Fin 136) (amp : Int) (s : State) : Host.Outcome State Fault Refusal :=
  let n := n.val
  let b := s.biasOut n
  let h := outputHalf n
  match b.level s.time.now with
  | some set =>
    let isOpen := decide (2 * amp < set)
    if !isCurrent b.car.span || (!isOpen && !decide (spanWidth b.car.span < 200 * (set - amp))) then .next s
    else
      let s := (s.mapBias n fun b => { b with ext := true }).bump (Rg.C_BIAS_FAULT h) 1
      .next (s.raiseOnce h (if isOpen then Ev.BIAS_OPEN else Ev.BIAS_COMPLIANCE) n Config.ticksPerSecond [])
  | none => .next s

/-- R394: a second has passed at T2 or above. -/
def execReduceLoadRepeat (s : State) : Host.Outcome State Fault Refusal :=
  let l := s.raw Rg.THERM_STAT_LEVEL
  let due := match (s.monOf 0).reduceAt with
    | some t => decide (t + Config.ticksPerSecond ≤ s.time.now)
    | none => false
  if due && decide (2 ≤ l) && !s.shutdown then .next (s.reduceLoad l) else .next s

end Sys2Proof.Machine
end

