-- ==== Sys2Proof/Machine/Holds.lean ====
section
/-! DEFINITION. The internal holds of Table 127, and registers as they are read (R404, R407, R408, R450). -/

namespace Sys2Proof.Machine

/-! ## Holds (Table 127) -/

/-- ENGINE: a task is in progress on the half, or a committed result awaits its swap instant. -/
def State.engineHold (s : State) (h : Nat) : Bool :=
  ((List.range 5).any fun i => (s.engOf (5 * h + i)).run.isSome)
    || (halfPaths h).any (fun p => (s.dpdOf p).swapAt.isSome || !(s.calOf p).pend.isEmpty)
    || s.solv.any fun x => (s.flow x.1).half == h && (x.2.x.state == 2 || x.2.y.state == 2)

/-- CAPTURE: a context of the half is not IDLE; for a group, its PATH is in the group. -/
def State.captureHold (s : State) (h : Nat) (group : Option Nat) : Bool :=
  (List.range 4).any fun i => !(s.capState (4 * h + i) == 0) && (match group, (s.capOf (4 * h + i)).cur with
    | some g, some r => r.path.val / 8 == g
    | some _, none => false
    | none, _ => true)

/-- LINK: unacknowledged packets, a queued response or message, a lane in TRAIN, a relay. -/
def State.linkHold (s : State) (h : Nat) : Bool :=
  !(s.pkt h).held.isEmpty || !(s.pkt h).queue.isEmpty || (halfLanes h).any (fun n => s.laneState n == 2)
    || (s.link h).out.any fun b => b.op == 2

/-- HEAT: a foreground heat of a group. -/
def State.heatHold (s : State) (g : Nat) : Bool := !((s.group g).heat == 0)

/-- The groups of a half in service. -/
def State.halfGroups (s : State) (h : Nat) : List Nat := ((List.range 4).map (· + 4 * h)).filter s.groupIn

/-- GROUP: a group domain of the half is in RUN. -/
def State.groupHold (s : State) (h : Nat) : Bool := (s.halfGroups h).any s.groupRun

/-- An internal hold other than GROUP is on a domain. -/
def State.heldBut (s : State) (h d : Nat) : Bool :=
  tget (fun _ => false) s.time.wakeHold (8 * h + d) || tget (fun _ => false) s.time.timedHold (8 * h + d)
    || (match d with
      | 0 => s.captureHold h none
      | 1 => s.engineHold h || (s.halfGroups h).any s.heatHold
      | 6 => s.linkHold h
      | 7 => false
      | n => s.captureHold h (some (4 * h + n - 2)) || s.heatHold (4 * h + n - 2))

/-- An internal hold is on a domain. -/
def State.held (s : State) (h d : Nat) : Bool := s.heldBut h d || (decide (d ≤ 1) && s.groupHold h)

/-- A vote is on a domain. -/
def State.voted (s : State) (h d : Nat) : Bool := s.vote h d 0 || s.vote h d 1 || s.vote h d 2

/-! ## Reading registers -/

/-- The bits of a register whose content lives on H1 (R408). -/
def h1Bits (off : Nat) : Word :=
  match off with
  | 0x082C | 0x0834 | 0x251C => 0xFFFFFFFF
  | 0x2110 => 0xFF00FF00
  | 0x2510 => 0x000000B0
  | 0x2404 => 0x02FFF000
  | 0x1E04 => 0x3F80FF00
  | 0x2304 => 0x0003C2F0
  | 0x1008 => 0xFFFF0000
  | 0x2518 => 0xFC000000
  | 0x2214 => 0x0000F0F0
  | _ =>
    match regRow? off with
    | some r =>
      let i := if r.stride = 0 then 0 else (off - r.base) / r.stride
      if (r.count = 2 ∧ i = 1) ∨ (r.count = 10 ∧ 5 ≤ i) then 0xFFFFFFFF else 0
    | none => 0

/-- H1 does not answer: split mode, or its supervisor has stopped (R408). -/
def State.h1Out (s : State) : Bool := s.split || tget (fun _ => false) s.rel.supStop 1

/-- The word of a register now, with what is computed: the count (R448), the hold bits of the votes (R475). -/
def State.regNow (s : State) (off : Nat) : Word :=
  match off with
  | 0x0808 => BitVec.ofNat 32 (atimeWord s.stamp)
  | 0x0830 => (List.range 8).foldl (fun w d => fset w (4 * d + 3) 1 (b2n (s.held 0 d))) (s.reg off)
  | 0x0834 => (List.range 7).foldl (fun w d => fset w (4 * d + 3) 1 (b2n (s.held 1 d))) (s.reg off)
  | _ => s.reg off

/-- RC fields return to their reset values. -/
def State.clearRc (s : State) (off : Nat) : State :=
  match regRow? off with
  | some r => s.setReg off (r.fields.foldl (fun w f => match f.acc with
    | .rc => fset w f.lo f.w f.rst
    | _ => w) (s.reg off))
  | none => s

/-- Read a register of MW0 (R10, R407, R408): the count latches SU_AT_NOW1 (R450). -/
def State.readReg (s : State) (off : Nat) : Word × State :=
  let m := h1Bits off
  let v := s.regNow off
  let s := if off = 0x0808 then
      ((s.setF Rg.AT_NOW1_TICK s.stamp.tick).setB Rg.AT_NOW1_VALID s.time.valid).setB Rg.AT_NOW1_TX_HELD s.time.txHeld
    else s
  if m = 0 then (v, s.clearRc off)
  else if s.h1Out then (v &&& ~~~m, s.setF Rg.CFG_STAT_H1_UNREACH 1)
  else (v, (s.clearRc off).setF Rg.CFG_STAT_H1_UNREACH 0)

end Sys2Proof.Machine
end

