-- ==== Sys2Proof/Machine/Summary.lean ====
section
/-! DEFINITION. Records as bytes, and the PHOTO_FINISH summary with its extension pages (Tables 121 to 124). -/

namespace Sys2Proof.Machine

/-! ## Records -/

/-- A downlink carrier record (Table 39). -/
def dlBytes (c : DlCarrier) : List Byte :=
  leBytes 1 c.carrier ++ leBytes 1 (b2n c.en + 2 * b2n c.phcomp) ++ leBytes 1 c.scs ++ leBytes 1 c.log2n ++ leBytes 2 c.nprb
    ++ leBytes 1 c.bfShift ++ leBytes 1 c.ifftShift ++ leInt 4 c.ncoFreq ++ leInt 2 c.gain.re ++ leInt 2 c.gain.im
    ++ leInt 2 c.power ++ zeros 14

/-- An uplink carrier record (Table 45). -/
def ulBytes (c : UlCarrier) : List Byte :=
  leBytes 1 c.carrier ++ leBytes 1 (b2n c.en + 2 * b2n c.phcomp + 4 * b2n c.conj) ++ leBytes 1 c.scs ++ leBytes 1 c.log2n
    ++ leBytes 2 c.nprb ++ leBytes 1 c.combShift ++ leBytes 1 c.fftShift ++ leInt 4 c.ncoFreq ++ leBytes 1 c.filtShift
    ++ zeros 1 ++ leBytes 2 c.fftAdv ++ zeros 16

/-- A solver record (Table 52). -/
def solverBytes (r : SolverRec) : List Byte :=
  leBytes 1 r.flow ++ leBytes 1 (b2n r.en + 2 * b2n r.uplink + 4 * b2n r.regular) ++ leBytes 1 r.reg ++ leBytes 1 r.engines
    ++ leBytes 1 r.period ++ leBytes 1 r.maxAge ++ leBytes 2 r.offset ++ leBytes 2 r.norm ++ zeros 22

/-- Bytes 0x01 to 0x04 of a flow context (Table 26). -/
def Flow.head (f : Flow) : List Byte :=
  leBytes 1 f.state ++ leBytes 1 (f.dir + 4 * f.half + 8 * b2n f.sheddable + 16 * f.prio) ++ leBytes 1 f.owner
    ++ leBytes 1 f.carrier

/-- A flow context (Table 26). -/
def Flow.bytes (f : Flow) (n : Nat) : List Byte :=
  leBytes 1 n ++ f.head ++ leBytes 1 f.comp ++ leBytes 2 f.layers ++ leBytes 2 f.lead ++ leBytes 2 f.rsv
    ++ leBytes 4 f.accepted ++ leBytes 4 f.late ++ leBytes 4 f.early ++ leBytes 4 f.invalid ++ leBytes 4 f.shed

/-- A bias output record (Table 101). -/
def biasBytes (r : BiasRec) : List Byte :=
  leBytes 2 r.output ++ leBytes 1 r.span ++ leBytes 1 (b2n r.drive + 2 * b2n r.pulse) ++ leBytes 2 r.tx ++ leBytes 2 r.rx
    ++ leInt 2 r.park ++ leBytes 2 r.slew ++ zeros 4

/-- The air time of an entry's stored calibration set for a group; 0 for none. -/
def State.calSetTime (s : State) (g e : Nat) : Nat :=
  match s.calSets.find? fun x => x.group == g && x.entry == e with
  | some x => x.at_
  | none => 0

/-- A hop-table entry of a unit (Table 69). -/
def State.hopBytes (s : State) (n e : Nat) : List Byte :=
  let x := s.hop n e
  leBytes 4 x.freq ++ leBytes 1 (b2n x.valid + 2 * b2n x.stored) ++ leBytes 1 x.band ++ leBytes 1 x.mid ++ leInt 1 x.temp
    ++ leBytes 2 x.kdco ++ zeros 2 ++ leBytes 4 (s.calSetTime (s.loGroup n) e)

/-- A beam-table entry as stored (Table 48): the weights of H0's row, then of H1's. -/
def State.beamBytes (s : State) (id : Nat) : List Byte :=
  let half (h : Nat) : List Byte := fitBytes 128 (match (s.beam id).rowOn h with
    | some r => ((s.row h r).w.map leCplx).flatten
    | none => [])
  half 0 ++ half 1

/-- Owner of a capture context in force. -/
def State.capOwner (s : State) (c : Nat) : Nat := (s.capOf c).owner.getD (if s.boot.ownAll then 2 else s.f Rg.CAP_CFG_DEF_OWNER)

/-- Owner of a bias output in force. -/
def State.biasOwner (s : State) (n : Nat) : Nat := (s.biasOut n).owner.getD (if s.boot.ownAll then 2 else s.f Rg.BIAS_CFG_DEF_OWNER)

/-! ## The path entry (Table 123) -/

/-- Milliseconds since a tick, as TX_AGE has them. -/
def State.ageMs (s : State) (t : Option Nat) : Nat :=
  match t with
  | some x => min ((s.time.now - x) / 491520) 65535
  | none => 65535

/-- A path is held off by the path configuration (R5). -/
def State.heldOff (s : State) (p : Nat) : Bool := !(s.raw Rg.CFG_STAT_PATHCFG == 0) && !s.groupIn (p / 8)

/-- The converter of a path has lost a slice. -/
def State.convBad (s : State) (p : Nat) (q : Bool) : Bool :=
  !(s.convOf (.rx (Fin.ofNat 64 p) q)).retired.isEmpty

/-- The path entry of Table 123, 496 bytes. -/
def State.pathEntry (s : State) (p : Nat) : List Byte :=
  let t := s.tx p
  let r := s.rx p
  let c := s.calOf p
  let d := s.dpdOf p
  let b := d.serving
  leBytes 1 p
    ++ leBytes 1 (b2n (s.pathOut p) + 2 * b2n c.suspect + 4 * b2n (s.heldOff p) + 8 * b2n (s.convBad p false)
      + 16 * b2n (s.convBad p true) + 32 * b2n t.mute)
    ++ leBytes 1 t.state ++ leBytes 1 (s.fep p).state ++ leBytes 1 (s.sliceOf p) ++ leBytes 1 r.att
    ++ leBytes 1 (b2n r.bypass + 2 * s.cellsLeft p false + 16 * s.cellsLeft p true) ++ zeros 1
    ++ (([t.underrun, t.muted, r.onsets, r.sprints, r.sprintSyms].map fun n => leBytes 4 (min n (2 ^ 32 - 1))).flatten)
    ++ zeros 4 ++ leCplx t.gain ++ leBytes 1 t.adv ++ leBytes 1 r.dly ++ leBytes 2 t.df ++ leBytes 2 r.df ++ zeros 2
    ++ leCplx t.loOff ++ leCplx c.recip ++ ((c.resTx ++ c.resRx).map (leInt 2)).flatten
    ++ leBytes 2 (s.ageMs c.lastTx) ++ leBytes 2 (s.ageMs c.lastRx) ++ leInt 2 c.temp ++ zeros 2
    ++ fitBytes 32 (t.iq.map leCplx).flatten ++ fitBytes 32 (r.iq.map leCplx).flatten
    ++ leBytes 1 d.a.state ++ leBytes 1 d.b.state ++ leBytes 1 d.reverts
    ++ leBytes 1 (b2n b.sat + 2 * b2n b.gov + 4 * b2n b.seed + 8 * b2n d.halted)
    ++ leInt 2 d.committed.rho ++ zeros 2 ++ leBytes 4 b.at_
    ++ ((List.range 4).map fun j => leBytes 1 ((s.neighbour p j).getD 255)).flatten
    ++ leInt 2 ((s.fep p).rl.getD 32767) ++ zeros 342

/-! ## Extension pages (R445) -/

/-- A page of 4,096 bytes: the header of Table 122, then its content; the CRC covers the whole page. -/
def State.page (s : State) (n : Nat) (content : List Byte) : List Byte :=
  let head := leBytes 4 0x58454650 ++ leBytes 1 n ++ zeros 3 ++ leBytes 4 s.cmd.snap ++ leBytes 4 (atimeWord s.stamp)
    ++ leBytes 2 s.stamp.tick ++ zeros 106
  let body := fitBytes 3968 content
  head ++ leBytes 4 (crc32 (head ++ zeros 4 ++ body)) ++ body

/-- A sensor entry (Table 124). -/
def State.sensorEntry (s : State) (n : Nat) : List Byte :=
  let x := s.sensor n
  leBytes 1 n ++ leBytes 1 (3 * b2n x.failed) ++ leInt 2 (s.sensTemp n) ++ leInt 2 (asr x.offset 6) ++ zeros 2
    ++ ((List.range 4).map fun i => leBytes 1 (nth x.neigh i 255)).flatten ++ zeros 4

/-- A bias entry (Table 124). -/
def State.biasEntry (s : State) (n : Nat) : List Byte :=
  let b := s.biasOut n
  leBytes 2 n ++ leBytes 1 b.car.span
    ++ leBytes 1 (b.state + 8 * b2n (tget (fun _ => false) s.rel.onTwin n) + 16 * b2n b.twinRet + 32 * s.biasOwner n)
    ++ leBytes 2 b.car.tx ++ leBytes 2 b.car.rx ++ leInt 2 b.car.park ++ zeros 2 ++ leInt 4 b.readback

/-- An extension page, 1 to 11. -/
def State.extPage (s : State) (n : Nat) : List Byte :=
  if n ≤ 8 then s.page n ((groupPaths (n - 1)).map s.pathEntry).flatten
  else if n = 9 then
    s.page 9 (((List.range 52).map s.sensorEntry).flatten ++ ((List.range 136).map s.biasEntry).flatten)
  else
    let nib (k : Nat) : Nat := (s.beam k).state + 4 * s.beamOwner k
    s.page n ((List.range 2048).map fun i =>
      BitVec.ofNat 8 (nib (4096 * (n - 10) + 2 * i) + 16 * nib (4096 * (n - 10) + 2 * i + 1)))

/-! ## The summary (R444, Table 121) -/

/-- A set of `n` items as `m` bytes, item 0 in bit 0. -/
def maskBytes (m n : Nat) (p : Nat → Bool) : List Byte := leBytes m (maskNat n p)

/-- A domain's byte of DOM_H0 and DOM_H1. -/
def State.domByte (s : State) (h d : Nat) : Nat :=
  if d < domCount h then
    s.dom h d + 8 * b2n (s.vote h d 0) + 16 * b2n (s.vote h d 1) + 32 * b2n (s.vote h d 2) + 64 * b2n (s.held h d)
  else 0

/-- The solver flow of an uplink carrier. -/
def State.carrierSolver (s : State) (c : Nat) : Option Nat :=
  (List.range 256).find? fun f => (s.solver f).isSome && (s.flow f).carrier == c

/-- The BANKS entry of an uplink carrier. -/
def State.bankBytes (s : State) (c : Nat) : List Byte :=
  match s.carrierSolver c with
  | some f =>
    let v := s.solvSt f
    let act : Option SolvBank := if v.x.state = 3 then some v.x else if v.y.state = 3 then some v.y else none
    leBytes 1 v.x.state ++ leBytes 1 v.y.state ++ (match act with
      | some b => leBytes 1 (b2n b.sat + 2 * b2n b.gov) ++ zeros 1 ++ leBytes 4 (atimeWord (stampOf s.muRef b.occ))
      | none => zeros 6)
  | none => zeros 8

/-- A list of 4-byte entries in 128 bytes, unused ones filled with a byte. -/
def entries4 (fill : Byte) (l : List (List Byte)) : List Byte := (l.flatten ++ List.replicate 128 fill).take 128

/-- The body of a record as it can be decided, in 32 bytes; zero for none. -/
def State.recordBytes (s : State) (type : Nat) : List Byte := fitBytes 32 ((s.nvBody type 0).getD [])

/-- The first 4,092 bytes of the summary that half `me` gives on a route; `both` says that the other half answers. -/
def State.summaryBody (s : State) (me route : Nat) (both : Bool) : List Byte :=
  let has (h : Nat) : Bool := both || h == me
  let hasP (p : Nat) : Bool := has (p / 32)
  let on (b : Bool) (n : Nat) : Nat := if b then n else 0
  let unit (n : Nat) : Bool := has (n / 5)
  let beams := s.beams
  let own (o : Nat) : Nat := (beams.filter fun e => s.beamOwner e.1 == o).length
    + (if s.f Rg.BW_CFG_DEF_OWNER = o then 8192 - beams.length else 0)
  let st (k : Nat) : Nat := (beams.filter fun e => e.2.state == k).length
  let sched := s.sched
  leBytes 4 0x48534650 ++ leBytes 2 1 ++ leBytes 2 11 ++ leBytes 4 s.cmd.snap ++ leBytes 4 (atimeWord s.stamp)
    ++ leBytes 2 s.stamp.tick ++ leBytes 1 (b2n s.time.valid + 2 * b2n s.time.txHeld) ++ leBytes 1 route
    ++ leBytes 4 (s.reg 0).toNat ++ leBytes 4 (s.reg 4).toNat ++ leBytes 4 (s.raw Rg.ENG_FWVER_FW_VERSION)
    ++ leBytes 4 (s.reg 8).toNat ++ leBytes 4 (s.raw Rg.BATON_EPOCH_EPOCH)
    ++ leBytes 1 (if s.on Rg.REL_STAT_DISPUTE then 255 else s.lead)
    ++ leBytes 1 (b2n (s.nvBody 0x31 0).isSome + 2 * b2n s.nv.pfWritten + 4 * b2n (!both) + 8 * b2n (s.on Rg.CFG_STAT_TEST))
    ++ leBytes 2 (s.raw Rg.REL_STAT_WHY) ++ zeros 20
    ++ ((List.range 6).map fun r => leBytes 1 (s.raw (Rg.RING_CTL_STATE r)) ++ leBytes 1 (s.raw (Rg.RING_CTL_ERR r))
      ++ leBytes 2 (s.devIdx r) ++ leBytes 2 (s.hostIdx r)).flatten
    ++ leBytes 4 (if s.split && me == 1 then s.cmd.seqH1 else s.cmd.seq) ++ leBytes 4 s.cmd.evtWritten
    ++ leBytes 1 s.host.exec.length ++ leBytes 1 s.cmd.txns.length ++ zeros 2
    ++ (([0, 1, 5].map fun r => leBytes 2 (tget (fun _ => 0) s.cmd.lastTag r)).flatten) ++ zeros 10
    ++ ((List.range 8).map fun d => leBytes 1 (on (has 0) (s.domByte 0 d))).flatten
    ++ ((List.range 8).map fun d => leBytes 1 (on (has 1) (s.domByte 1 d))).flatten
    ++ leBytes 1 (s.raw Rg.REF_STAT_STATE) ++ leBytes 1 (fget (s.reg 0x2510) 0 8) ++ leBytes 2 (s.raw Rg.THERM_STAT_TJ)
    ++ leBytes 2 (s.raw Rg.REF_STAT_LAST_JUMP) ++ leBytes 2 (s.raw Rg.AT_STAT_UNC) ++ leBytes 4 (s.reg 0x2514).toNat
    ++ leBytes 4 (s.reg 0x0014).toNat
    ++ leBytes 4 (fget (s.reg 0x2214) 0 17 + 2 ^ 17 * s.muRef + 2 ^ 19 * (match sched with
      | some x => x.rec_.nslot
      | none => 0))
    ++ leBytes 4 (match sched with
      | some x => atimeWord x.rec_.effect
      | none => 0)
    ++ leBytes 4 (s.reg 0x2008).toNat
    ++ ((List.range 8).map fun g => leBytes 1 (on (has (g / 4)) ((s.group g).entry.getD 255))).flatten ++ zeros 12
    ++ maskBytes 8 64 (fun p => hasP p && s.pathOut p) ++ maskBytes 8 64 (fun p => hasP p && (s.calOf p).suspect)
    ++ maskBytes 8 64 (fun p => hasP p && s.heldOff p) ++ zeros 8
    ++ maskBytes 16 68 (fun n => has (n / 34) && tget (fun _ => false) s.rel.sliceRet n)
    ++ maskBytes 2 10 (fun n => unit n && s.raw (Rg.LO_STAT_STATE n) == 5)
    ++ maskBytes 2 10 (fun n => unit n && tget (fun _ => false) s.rel.orxRet n)
    ++ maskBytes 2 10 (fun n => unit n && s.aeState n == 6)
    ++ maskBytes 1 6 (fun n => has (n / 3) && tget (fun _ => false) s.rel.mcRet n) ++ zeros 1
    ++ maskBytes 2 10 (fun n => unit n && s.laneState n == 8)
    ++ leBytes 1 (tget (fun _ => 0) s.rel.wires 0) ++ leBytes 1 (tget (fun _ => 0) s.rel.wires 1)
    ++ leBytes 1 (on (has 0) (s.raw Rg.BW_STAT_SPARE_H0)) ++ leBytes 1 (on (has 1) (s.raw Rg.BW_STAT_SPARE_H1)) ++ zeros 2
    ++ maskBytes 8 52 (fun n => has (n / 26) && (s.sensor n).failed)
    ++ maskBytes 17 136 (fun n => has (outputHalf n) && tget (fun _ => false) s.rel.onTwin n) ++ zeros 7
    ++ maskBytes 17 136 (fun n => has (outputHalf n) && tget (fun _ => false) s.rel.biasDead n) ++ zeros 15
    ++ leBytes 2 (on (has 0) (s.raw Rg.REL_EXHAUST_H0)) ++ leBytes 2 (on (has 1) (s.raw Rg.REL_EXHAUST_H1)) ++ zeros 12
    ++ ((List.range 8).map fun g => leBytes 1 (on (has (g / 4)) ((s.loOf g).getD 255))).flatten
    ++ ((List.range 8).map fun g => leBytes 1 (on (has (g / 4)) (s.orxOf g))).flatten
    ++ ((List.range 8).map fun g => leBytes 1 (on (has (g / 4)) ((s.aeOf g).getD 255))).flatten
    ++ ((List.range 10).map fun n =>
      leBytes 1 (on (unit n) (s.laneState n + 16 * s.raw (Rg.LANE_STAT_POS n)))).flatten ++ zeros 14
    ++ ((List.range 64).map fun p => leBytes 1 (on (hasP p)
      (if tget (fun _ => false) s.rel.sliceRet (s.sliceOf p) then 255 else s.sliceOf p))).flatten ++ zeros 64
    ++ ((List.range 4).map fun c => dlBytes (s.dl c)).flatten ++ ((List.range 4).map fun c => ulBytes (s.ul c)).flatten
    ++ ((List.range 4).map fun c => match (s.carrierSolver c).bind s.solver with
      | some r => solverBytes r
      | none => zeros 32).flatten
    ++ ((List.range 4).map s.bankBytes).flatten
    ++ ((List.range 8).map fun c =>
      if has (c / 4) then
        leBytes 1 (s.capState c) ++ leBytes 1 (s.capOwner c) ++ (match (s.capOf c).cur with
          | some r => leBytes 1 r.source ++ leBytes 1 r.path.val
          | none => zeros 2) ++ leBytes 4 (s.capOf c).records
      else zeros 8).flatten ++ zeros 32
    ++ ((List.range 256).map fun f => if has (s.flow f).half then (s.flow f).head else zeros 4).flatten
    ++ ((List.range 136).map fun n =>
      leBytes 1 (on (has (outputHalf n)) ((s.biasOut n).state + 8 * s.biasOwner n))).flatten ++ zeros 120
    ++ leBytes 2 (own 0) ++ leBytes 2 (own 1) ++ leBytes 2 (own 2) ++ leBytes 2 (st 1) ++ leBytes 2 (st 2) ++ leBytes 2 (st 3)
    ++ leBytes 4 (s.reg 0x0028).toNat ++ zeros 240
    ++ fitBytes 512 (s.cmd.history.map Event.bytes).flatten
    ++ entries4 255 (s.host.exec.map fun x => leBytes 1 x.ring ++ leBytes 1 x.opcode ++ leBytes 2 x.tag)
    ++ entries4 255 (s.cmd.txns.map fun x => leBytes 1 x.ring ++ leBytes 1 x.opcode ++ leBytes 2 x.tag)
    ++ entries4 0 (s.cmd.txnDone.map fun x =>
      leBytes 2 x.tag ++ leBytes 1 x.status ++ leBytes 1 (x.half + 2 * b2n x.discarded))
    ++ s.recordBytes 0x31 ++ s.recordBytes 0x32 ++ zeros 572

/-- The summary, 4,096 bytes. -/
def State.summary (s : State) (me route : Nat) : List Byte :=
  let both := !s.split && !tget (fun _ => false) s.rel.supStop (1 - me)
  let b := s.summaryBody me route both
  b ++ leBytes 4 (crc32 b)

/-- A snapshot is taken: SNAP counts it (R444). -/
def State.newSnap (s : State) : State := s.mapCmd fun c => { c with snap := (c.snap + 1) % 2 ^ 32 }

end Sys2Proof.Machine
end

