-- ==== Sys2Proof/Machine/Host.lean ====
section
/-! DEFINITION. Host attachment (ch. 14): register writes, the set-up lock, rings and doorbells, host resets, the SPI port;
the path configuration (R3 to R5). -/

namespace Sys2Proof.Machine

/-! ## The path configuration (R4, R5) -/

/-- Domains in service of both halves. -/
def State.domsIn (s : State) : List (Nat × Nat) :=
  (((List.range 8).map fun d => (0, d)) ++ (List.range 7).map fun d => (1, d)).filter fun e => s.domIn e.1 e.2

/-- After start-up the host, or in standalone service the baseband, votes for every domain in service (R459). -/
def State.firstVotes (s : State) : State :=
  s.domsIn.foldl (fun s e => s.setVote e.1 e.2 (b2n s.standalone) true) s

/-- The unit that serves a group at first: its own, or the half's spare where that one is retired. -/
def firstUnit (bad : Nat → Bool) (used : Nat → Bool) (g : Nat) : Option Nat :=
  if !bad (defUnit g) then some (defUnit g)
  else if !bad (spareUnit (g / 4)) && !used (spareUnit (g / 4)) then some (spareUnit (g / 4)) else none

/-- Synthesiser and engine of every group in service (Table 3): the half's spare where its own unit is retired; a group left
without a synthesiser is retired (R284), one without an engine shares (R345). -/
def State.assignUnits (s : State) : State :=
  s.groupsIn.foldl (fun s g =>
    let h := g / 4
    let sp := spareUnit h
    let s := match firstUnit (fun n => s.raw (Rg.LO_STAT_STATE n) == 5) (fun n => s.on (Rg.LO_STAT_SERVING n)) g with
      | some n =>
        let s := (s.setF (Rg.LO_STAT_SERVING n) 1).setF (Rg.LO_STAT_GROUP n) g
        if n = sp then (s.spareIn h).exhaust h 3 else s
      | none => (groupPaths g).foldl (fun s p => s.retirePath p 7) s
    match firstUnit (fun n => s.aeState n == 6) (fun n => s.on (Rg.AE_STAT_SERVING n)) g with
    | some n =>
      let s := (s.setF (Rg.AE_STAT_SERVING n) 1).setF (Rg.AE_STAT_GROUP n) g
      if n = sp then (((s.setF (spareFld h) 0).setF (windowFld h) 0).spareIn h).exhaust h 5 else s
    | none => s.shareEngine (defUnit g) [g]) s

/-- The engines of groups held off serve them as units that take solver work only (R315, Table 80); none replaces a retired
one. -/
def State.assignHeldOff (s : State) : State :=
  ((List.range 8).filter fun g => !s.groupIn g).foldl (fun s g =>
    let n := defUnit g
    if s.aeState n = 6 ∨ s.on (Rg.AE_STAT_SERVING n) then s
    else (s.setF (Rg.AE_STAT_SERVING n) 1).setF (Rg.AE_STAT_GROUP n) g) s

/-- The path configuration is fixed: units are assigned, and the groups held off are voted off (R4, R5); their paths are
not counted as retired (R492). -/
def State.fixPaths (s : State) (cfg : Nat) : State :=
  let s := s.setF Rg.CFG_STAT_PATHCFG cfg
  let s := s.mapRel fun r => { r with pathRet := r.pathRet.filter fun e => s.groupIn (e.1 / 8) }
  let s := (s.setF Rg.REL_STAT_RETIRED s.retiredPaths).assignUnits.assignHeldOff.evalPlane
  let s := (List.range 8).foldl (fun s g => if s.groupIn g then s else s.moveDom (g / 4) (2 + g % 4) 1) s
  let s := (List.range 136).foldl (fun s n =>
    if s.groupIn (outputGroup n) then s else s.mapBias n fun b => b.stop 0 0) s
  if s.ready then s.firstVotes else s

/-- The configuration that the store gives; none without a record that can be decided, or with a reserved value. -/
def State.storedPaths (s : State) : Option Nat × State :=
  let (d, s) := s.useNv 0x10 0 0 true
  (match d with
    | .value b _ => if 1 ≤ leNat (b.take 1) ∧ leNat (b.take 1) ≤ 3 then some (leNat (b.take 1)) else none
    | _ => none, s)

/-! ## Front-end lines driven (R296) -/

/-- Every line of a group in service is driven from now on. -/
def State.driveAll (s : State) : State :=
  if s.linesOn || s.shutdown then s
  else
    let s := { s with linesOn := true }
    (List.range 64).foldl (fun s p =>
      if s.groupIn (p / 8) then
        let (t, r, b) := s.feLevels p (s.fep p).state
        ((s.emit (.line p 0 (t != s.on Rg.FE_CFG_TXEN_POL))).emit (.line p 1 (r != s.on Rg.FE_CFG_RXEN_POL))).emit
          (.line p 2 (b != s.on Rg.FE_CFG_BYP_POL))
      else s) s

/-! ## Rings -/

/-- A ring is HALTED. -/
def State.ringHalted (s : State) (r : Nat) : Bool := s.raw (Rg.RING_CTL_STATE r) == 2

/-- RING_HALT of the alert register follows the rings (R412). -/
def State.evalHalt (s : State) : State :=
  if (List.range 6).any s.ringHalted then s.alert Rg.ALERT_STAT_RING_HALT else s.setF Rg.ALERT_STAT_RING_HALT 0

/-- A ring halts with a cause (R418, R419). -/
def State.haltRing (s : State) (r err : Nat) : State :=
  let s := ((s.setF (Rg.RING_CTL_STATE r) 2).setF (Rg.RING_CTL_ERR r) err).bump Rg.C_RING_HALTS 1
  ((s.raise 0 Ev.RING_HALTED r [err]).evalHalt).irq 6

/-- A write of 1 to ENABLE (R414): `v` carries the size, written while ENABLE is 0. -/
def State.enableRing (s : State) (r : Nat) (v : Word) : State :=
  if s.on (Rg.RING_CTL_ENABLE r) then s.bump Rg.C_BAD_ACCESS 1
  else
    let s := s.setF (Rg.RING_CTL_SIZE_LOG2 r) (fget v 1 5)
    if s.raw (Rg.RING_BASE_LO_BASE r) % 4096 = 0 ∧ ¬ (s.reg 0x0020 = 0 ∧ s.reg 0x0024 = 0) then
      let moved := !(s.devIdx r == 0)
      let s := ((s.setF (Rg.RING_CTL_ENABLE r) 1).setF (Rg.RING_CTL_STATE r) 1).setF (Rg.RING_IDX_HOST_IDX r) 0
      let s := s.setF (Rg.RING_IDX_DEV_IDX r) 0
      let s := if r = 3 then s.mapHost fun h => { h with evtEver := true } else s
      if moved then s.writeStatus else s
    else s.setF (Rg.RING_CTL_ERR r) 5

/-- A write of 0 to ENABLE (R415). -/
def State.disableRing (s : State) (r : Nat) : State :=
  ((s.setF (Rg.RING_CTL_ENABLE r) 0).setF (Rg.RING_CTL_STATE r) 0).evalHalt

/-- A write to a ring's CTL. -/
def State.writeRingCtl (s : State) (r : Nat) (v : Word) : State :=
  if bitOf v 0 then s.enableRing r v
  else if s.on (Rg.RING_CTL_ENABLE r) then s.disableRing r
  else s.setF (Rg.RING_CTL_SIZE_LOG2 r) (fget v 1 5)

/-- A write to the status-block address (R422). -/
def State.writeStatusBase (s : State) (high : Bool) (v : Word) : State :=
  if s.anyRing then s.bump Rg.C_BAD_ACCESS 1
  else
    (s.setReg (if high then 0x0024 else 0x0020) (if high then v else fset v 0 6 0)).mapHost fun h => { h with writes := 0 }

/-- A write to a doorbell or release offset (R416 to R418). -/
def State.writeMw2 (s : State) (r : Nat) (v : Word) (release : Bool) : State :=
  let s := s.mapHost fun h => { h with mw2 := tset (fun _ => 0) h.mw2 r v }
  let i := fget v 0 16
  if !s.ringOn r then s.bump Rg.C_DB_IGNORED 1
  else if s.ringSize r ≤ i then s.haltRing r 1
  else
    let bad := if release then decide (s.ringDist r (s.hostIdx r) (s.devIdx r) < s.ringDist r (s.hostIdx r) i)
      else decide (s.ringDist r (s.devIdx r) i < s.ringDist r (s.devIdx r) (s.hostIdx r))
    if bad then s.haltRing r 2 else s.setF (Rg.RING_IDX_HOST_IDX r) i

/-! ## Set-up lock and test mode -/

/-- A write of 1 to LOCK (R410, R7, R296). -/
def State.lockWrite (s : State) : State :=
  if s.locked then s
  else if !(s.ringOn 0 && s.ringOn 2 && s.ringOn 3) || (s.reg 0x0020 == 0 && s.reg 0x0024 == 0) then
    s.setF Rg.CFG_STAT_LOCK_ERR 1
  else
    let s := if s.raw Rg.CFG_STAT_PATHCFG = 0 then
        let (c, s) := s.storedPaths
        s.fixPaths (c.getD 1)
      else s
    let s := ((s.setF Rg.LOCK_LOCK 1).setF Rg.CFG_STAT_LOCKED 1).setF Rg.CFG_STAT_STANDALONE 0
    s.driveAll

/-- A write to SU_TEST (R411). -/
def State.writeTest (s : State) (v : Word) : State :=
  let s := if !bitOf v 0 then s
    else if s.raw Rg.TEST_KEY = 0x7E57 ∧ !s.locked then
      (((s.setF Rg.TEST_TEST 1).setF Rg.CFG_STAT_TEST 1).setF Rg.REL_STAT_COVERED 0).mapBoot fun b => { b with entered := true }
    else s.bump Rg.C_BAD_ACCESS 1
  if s.locked then s.bump Rg.C_RWL_IGNORED 1 else s.setF Rg.TEST_KEY (fget v 16 16)

/-! ## Register writes -/

/-- Fields whose write of 0 takes effect only in test mode: offset, bit. -/
def testOnly : List (Nat × Nat) :=
  [(0x1000, 0), (0x1000, 1), (0x1000, 2), (0x1404, 0), (0x1E00, 0), (0x2000, 0), (0x2300, 0), (0x2300, 2), (0x2500, 0), (0x2500, 1)]

/-- A register after a write under its access codes (Table 2). -/
def State.written (s : State) (off : Nat) (r : RegRow) (v : Word) : Word :=
  r.fields.foldl (fun w f =>
    let old := fget (s.reg off) f.lo f.w
    let new := fget v f.lo f.w
    let out := match f.acc with
      | .rw => new
      | .ro => old
      | .rc => old
      | .w1c => maskNat f.w fun i => old / 2 ^ i % 2 == 1 && new / 2 ^ i % 2 == 0
      | .w1s => Nat.lor old new
      | .rwl => if s.locked then old
        else if testOnly.contains (off, f.lo) && new == 0 && !s.on Rg.CFG_STAT_TEST then old else new
    fset w f.lo f.w out) (s.reg off)

/-- A row holds an RWL field. -/
def RegRow.hasRwl (r : RegRow) : Bool := r.fields.any fun f => f.acc == .rwl

/-- A write under the access codes, ignored and counted for RWL fields after the lock (R12, R410). -/
def State.plainWrite (s : State) (off : Nat) (r : RegRow) (v : Word) : State :=
  let s := if s.locked && r.hasRwl then s.bump Rg.C_RWL_IGNORED 1 else s
  s.setReg off (s.written off r v)

/-- The standby synthesiser of a half follows its group (R283). -/
def State.restandby (s : State) (h : Nat) : State :=
  let n := spareUnit h
  if s.on (Rg.LO_STAT_SERVING n) ∨ s.raw (Rg.LO_STAT_STATE n) = 5 ∨ s.raw (Rg.LO_STAT_STATE n) = 0 then s
  else match (s.group (s.loGroup n)).entry with
    | some e => s.startLo n e
    | none => s

/-- A vector is unmasked: its pending message is sent (R426). -/
def State.unmask (s : State) (v : Nat) : State :=
  if !s.on (Rg.MSIX_MASK v) && s.raw Rg.MSIX_PBA / 2 ^ v % 2 == 1 && !s.host.d3hot then
    (s.setBit Rg.MSIX_PBA v false).emit (.msix v)
  else s

/-- What a plain write brings about beyond the register. -/
def State.afterWrite (s : State) (off : Nat) (old v : Word) : State :=
  if off = 0x1D00 ∧ !bitOf old 0 ∧ bitOf (s.reg off) 0 then
    (List.range 64).foldl (fun s p => s.mapRx p fun r => { r with dcI := 0, dcQ := 0 }) s
  else if off = 0x2108 then
    let s := if fget old 2 2 = fget (s.reg off) 2 2 then s else s.restandby 0
    if fget old 4 2 = fget (s.reg off) 4 2 then s else s.restandby 1
  else if off = 0x210C then s.throttleClocks
  else if off = 0x2000 then s.evalPlane
  else if 0x3000 ≤ off ∧ off < 0x3100 ∧ off % 16 = 12 then s.unmask ((off - 0x3000) / 16)
  else if 0x1800 ≤ off ∧ off < 0x1A80 ∧ off % 0x40 = 4 ∧ bitOf v 0 then
    (s.inject ((off - 0x1800) / 0x40)).setF (Rg.LANE_INJ_INJ_ONE ((off - 0x1800) / 0x40)) 0
  else s

/-- A write of a whole aligned DWORD to MW0 by host software (R10, R407, R408, R511). Before the end of P1 the fields do
not accept it. -/
def State.writeReg (s : State) (off : Nat) (v : Word) : State :=
  if s.raw Rg.BOOT_STAT_PHASE < 2 then s
  else match regRow? off with
  | none => s.bump Rg.C_BAD_ACCESS 1
  | some r =>
    if !(h1Bits off == 0) && s.h1Out && r.fields.any fun f => f.acc == .rw || f.acc == .rwl || f.acc == .w1s || f.acc == .w1c then
      s.bump Rg.C_BAD_ACCESS 1
    else if off = 0x000C then (if bitOf v 0 then s.lockWrite else s)
    else if off = 0x0010 then s.writeTest v
    else if off = 0x0020 ∨ off = 0x0024 then s.writeStatusBase (decide (off = 0x0024)) v
    else if 0x0100 ≤ off ∧ off < 0x01C0 then
      let n := (off - 0x0100) / 0x20
      if off % 0x20 = 8 then s.writeRingCtl n v
      else if off % 0x20 < 8 ∧ s.on (Rg.RING_CTL_ENABLE n) then s.bump Rg.C_BAD_ACCESS 1
      else s.plainWrite off r v
    else if 0x1800 ≤ off ∧ off < 0x1A80 ∧ off % 0x40 = 0 then
      if s.locked then s.bump Rg.C_RWL_IGNORED 1 else s.applyCtl ((off - 0x1800) / 0x40) v
    else if off = 0x0028 then
      let s := if !s.locked ∧ fget v 14 2 ≠ 0 then s.bump Rg.C_BAD_ACCESS 1 else s
      s.plainWrite off r (fset v 14 2 0)
    else
      let old := s.reg off
      (s.plainWrite off r v).afterWrite off old v

/-- R410. -/
def execSetupLock (s : State) : Host.Outcome State Fault Refusal := .next (s.writeReg 0x000C 1)

/-- R411. -/
def execTestModeEnter (v : Word) (s : State) : Host.Outcome State Fault Refusal := .next (s.writeReg 0x0010 (fset v 0 1 1))

/-- R414. -/
def execRingEnable (r : Fin 6) (v : Word) (s : State) : Host.Outcome State Fault Refusal :=
  .next (s.writeReg (0x0108 + 0x20 * r.val) (fset v 0 1 1))

/-- R415. -/
def execRingDisable (r : Fin 6) (s : State) : Host.Outcome State Fault Refusal :=
  .next (if s.on (Rg.RING_CTL_ENABLE r.val) then s.disableRing r.val else s)

/-- A write to MW2; other than an aligned DWORD it is ignored and counted (R404). -/
def State.mw2Write (s : State) (r : Nat) (v : Word) (whole : Bool) : State :=
  if whole then s.writeMw2 r v (r == 2 || r == 3) else s.bump Rg.C_BAD_ACCESS 1

/-- R416, R418. -/
def execDoorbell (r : Fin 6) (v : Word) (whole : Bool) (s : State) : Host.Outcome State Fault Refusal :=
  .next (s.mw2Write r.val v whole)

/-- R417, R418. -/
def execReleaseWrite (r : Fin 6) (v : Word) (whole : Bool) (s : State) : Host.Outcome State Fault Refusal :=
  .next (s.mw2Write r.val v whole)

/-- R422. -/
def execStatusBaseWrite (high : Bool) (v : Word) (s : State) : Host.Outcome State Fault Refusal :=
  .next (s.writeReg (if high then 0x0024 else 0x0020) v)

/-- R10, R404. -/
def execRegisterWrite (off : Nat) (v : Word) (whole : Bool) (s : State) : Host.Outcome State Fault Refusal :=
  .next (if whole ∧ off % 4 = 0 then s.writeReg off v else s.bump Rg.C_BAD_ACCESS 1)

/-- The device serves register accesses: out of reset, from the end of P1 on (R2, Table 144). -/
def State.served (s : State) : Bool := !s.boot.core && decide (2 ≤ s.raw Rg.BOOT_STAT_PHASE)

/-- A read by host software; a device that is held in reset answers none. MW2 lies from 0x4000 on and gives the value last written
to a doorbell (R404). -/
def State.hostRead (s : State) (off : Nat) : State :=
  if s.served then
    let (v, s) := if off < 0x4000 then s.readReg off
      else (if (off - 0x4000) % 0x40 = 0 then tget (fun _ => 0) s.host.mw2 ((off - 0x4000) / 0x40) else 0, s)
    s.emit (.regRead off v)
  else s

/-- R10, R11: the value returned, and the RC fields cleared. An event in the same cycle is queued behind the read (log 72). -/
def execCounterRead (off : Nat) (s : State) : Host.Outcome State Fault Refusal := .next (s.hostRead off)

/-- R450. -/
def execAtNowRead (s : State) : Host.Outcome State Fault Refusal := .next (s.hostRead 0x0808)

/-- The Revision ID that the silicon revision's letters map to (R403). -/
def State.revisionId (s : State) : Nat :=
  26 * (s.raw Rg.REV_REV_HI - 0x41) + (s.raw Rg.REV_REV_LO - 0x41)

/-- The identity of the configuration header (Table 107): vendor, device, class code, revision, subsystem vendor, subsystem. -/
def State.pciIdentity (s : State) : List Nat := [0x1F6D, 0x6408, 0x118000, s.revisionId, s.host.svid, s.host.ssid]

/-! ## Fetching (R420) -/

/-- A ring holds an entry that a doorbell has covered. -/
def State.ringHas (s : State) (r : Nat) : Bool := s.ringOn r && !(s.devIdx r == s.hostIdx r)

/-- F - E > n. -/
def State.roomAbove (s : State) (n : Nat) : Bool := s.ringOn 2 && decide (n + s.host.exec.length < s.ringFree 2)

/-- The ring from which the next descriptor is fetched: CMD_U first, CMD_N and BULK in turn while F - E > 8. -/
def State.fetchRing (s : State) : Option Nat :=
  if 32 ≤ s.host.exec.length ∨ !s.canWriteHost then none
  else if s.ringHas 1 then (if s.roomAbove 0 then some 1 else none)
  else if !s.roomAbove 8 then none
  else
    let first := if s.host.lastBulk then 0 else 5
    if s.ringHas first then some first else if s.ringHas (5 - first) then some (5 - first) else none

/-- Opcodes of Table 118. -/
def opcodes : List Nat :=
  [0x01, 0x02, 0x03, 0x04, 0x05, 0x10, 0x11, 0x12, 0x13, 0x14, 0x15, 0x20, 0x21, 0x22, 0x23, 0x24, 0x25, 0x26, 0x27, 0x28, 0x29,
   0x2A, 0x2B, 0x2C, 0x2D, 0x2E, 0x30, 0x31, 0x32, 0x33, 0x34, 0x35, 0x36, 0x37, 0x38, 0x40, 0x41, 0x42, 0x43, 0x44, 0x45, 0x46,
   0x60, 0x61, 0x62, 0x63]

/-- The common fields of a command on a route of which only the tag matters. -/
def bareCmd (r : Route) (tag : Nat) : Cmd :=
  { route := r, tag := tag, flags := 0, dlen := 0, daddr := 0, given := 0, readErr := false, tie := false }

/-- OPCODE and TAG of a descriptor (Table 115). -/
def descOp (d : FetchedDesc) : Nat := leNat (d.bytes.take 1)
def descTag (d : FetchedDesc) : Nat := leNat ((d.bytes.drop 2).take 2)

/-- The route of a ring. -/
def ringRoute : Nat → Route
  | 0 => .n
  | 1 => .u
  | _ => .b

/-- R32, R420: the next descriptor is fetched, passed to H1 if that leads, and its command is in execution; a reserved opcode completes with BAD_OP
(R439). -/
def execCommandFetch (d : FetchedDesc) (s : State) : Host.Outcome State Fault Refusal :=
  match s.fetchRing with
  | some r =>
    let s := s.setDevIdx r ((s.devIdx r + 1) % s.ringSize r)
    let s := s.mapHost fun h =>
      { h with lastBulk := if r = 1 then h.lastBulk else r == 5, exec := h.exec ++ [⟨r, descOp d, descTag d⟩] }
    let s := if s.lead = 1 then s.d2dPush 0 .command (Config.d2dBits 1) else s
    .next (if opcodes.contains (descOp d) then s else s.complete (bareCmd (ringRoute r) (descTag d)) (descOp d) St.BAD_OP {})
  | none => .next s

/-! ## Errors, interrupts and resets of the interface -/

/-- A host-memory read for a command has failed (R419): its ring halts with ERR 3, the error goes to AER, and the command
completes with HOST_READ. -/
def State.readFailed (s : State) (r : Nat) : State := (s.haltRing r 3).alert Rg.ALERT_STAT_AER_UNCORR

/-- R419. -/
def execHostReadError (r : Fin 6) (d : Option FetchedDesc) (s : State) : Host.Outcome State Fault Refusal :=
  let s := s.readFailed r.val
  match d with
  | some d =>
    let mine (c : Cmd) : Bool := c.tag == descTag d && ringCode c.route == r.val
    let s := { s with bulk := s.bulk.filter fun b => !mine b.cmd }
    let s := s.mapCmd fun m => { m with longs := m.longs.filter fun x => !(mine x.cmd && x.opcode == descOp d) }
    .next (s.complete (bareCmd (ringRoute r.val) (descTag d)) (descOp d) St.HOST_READ {})
  | none => .next s

/-- R419. -/
def execHostWriteError (r : Fin 6) (s : State) : Host.Outcome State Fault Refusal := .next (s.haltRing r.val 4)

/-- TIME µs of a source have passed since its first pending entry (R427). -/
def State.withheld (s : State) (since time : Nat) : Bool := decide (49152 * time ≤ 100 * (s.time.now - since))

/-- R427: TIME has passed since the first pending entry. -/
def execIrqModerationTimeout (evt : Bool) (s : State) : Host.Outcome State Fault Refusal :=
  if evt then
    .next (if 0 < s.host.pendEvt ∧ s.withheld s.host.evtAt (s.f Rg.IRQ_MOD_EVT_TIME) then
        (s.irq 2).mapHost fun h => { h with pendEvt := 0 } else s)
  else
    .next (if 0 < s.host.pendCpl ∧ s.withheld s.host.cplAt (s.f Rg.IRQ_MOD_CPLN_TIME) then
        (s.irq 0).mapHost fun h => { h with pendCpl := 0 } else s)

/-- R421: the lost-events event. -/
def execEventsLostWrite (s : State) : Host.Outcome State Fault Refusal :=
  .next (if s.canWriteHost then s.flushLost else s)

/-- Writes that waited for HOSTIF or for D0 are made, oldest first (R406, R464). -/
def State.flushDue (s : State) : State :=
  if !s.canWriteHost then s
  else
    let l := s.host.due
    l.foldl (fun s w => match w with
      | .evt e => s.writeEvt e
      | .cpl c data => s.putCpl c data) (s.mapHost fun h => { h with due := [] })

/-- The registers that a reset of the host interface returns to their reset values (R405). -/
def hostRegs : List Nat :=
  ((List.range 48).map fun i => 0x0100 + 4 * i) ++ [0x0018, 0x0020, 0x0024, 0x0200, 0x0204, 0x3800]
    ++ (List.range 64).map fun i => 0x3000 + 4 * i

/-- A reset of the host interface alone (R405): what was due to the host is discarded and counted. -/
def State.hostReset (s : State) (linkStays : Bool) : State :=
  let due := s.host.due
  let s := hostRegs.foldl (fun s off => s.setReg off (regReset off)) s
  let s := s.mapHost fun h =>
    { HostSt.reset with
      linkUp := h.linkUp && linkStays, svid := h.svid, ssid := h.ssid, exec := h.exec, evtEver := h.evtEver, lost := h.lost, lostSeq := h.lostSeq
      spiErr := h.spiErr, pfReady := h.pfReady, pfBuf := h.pfBuf, nvUnlocked := h.nvUnlocked }
  let s := due.foldl (fun s w => match w with
    | .evt e => s.dropEvt e
    | .cpl _ _ => s.bump Rg.C_CPL_DISCARD 1) s
  s.evalHalt

/-- R405. -/
def execHostReset (linkStays : Bool) (s : State) : Host.Outcome State Fault Refusal := .next (s.hostReset linkStays)

/-- R406. -/
def execD3hot (s : State) : Host.Outcome State Fault Refusal := .next (s.mapHost fun h => { h with d3hot := true })

/-- R406. -/
def execD0Restore (s : State) : Host.Outcome State Fault Refusal :=
  .next (s.mapHost fun h => { h with d3hot := false }).flushDue

/-- R43. -/
def execPcieLinkUp (s : State) : Host.Outcome State Fault Refusal := .next (s.mapHost fun h => { h with linkUp := true })

/-- R412. -/
def execAerUncorrectableError (s : State) : Host.Outcome State Fault Refusal := .next (s.alert Rg.ALERT_STAT_AER_UNCORR)

/-! ## The SPI port (R432 to R434) -/

/-- Status codes of R433. -/
def Spi.ok : Nat := 0
def Spi.notReady : Nat := 1
def Spi.lockedOut : Nat := 2
def Spi.badParam : Nat := 3
def Spi.crc : Nat := 4
def Spi.busy : Nat := 5
def Spi.timeout : Nat := 7

/-- The start byte comes within 256 wait bytes. -/
def spiInTime (x : SpiFrame) : Bool := decide (x.wait ≤ 256)

/-- The CRC-8 that ends a request with data is right (R433, Table 13). -/
def spiCrcOk (x : SpiFrame) : Bool := crc8 x.bytes.dropLast == ((x.bytes.getLast?).getD 0).toNat

/-- A field of a request, least significant byte first. -/
def spiNum (x : SpiFrame) (i n : Nat) : Nat := leNat ((x.bytes.drop i).take n)

/-- The response of a frame: its wait bytes, the start byte, data, status and CRC-8 (R433). -/
def spiAnswer (x : SpiFrame) (data : List Byte) (status : Nat) : List Byte :=
  let l := data ++ leBytes 1 status
  zeros x.wait ++ [0xA5] ++ l ++ leBytes 1 (crc8 l)

/-- End a frame with a status; an error is kept for RD_STATUS. -/
def State.spiEnd (s : State) (x : SpiFrame) (status : Nat) (data : List Byte) : State :=
  (s.emit (.spi (spiAnswer x data status))).mapHost fun h => { h with spiErr := if status = 0 then h.spiErr else status }

/-- A frame: lost without a start byte in time; NOT_READY before the end of P1, while CTL does not run (R432), and in thermal
shutdown unless it is served then; a bad CRC where the request carries data; else as `f` says. -/
def State.spiFrame (s : State) (x : SpiFrame) (served data : Bool) (f : State → State) : State :=
  if !spiInTime x then s.mapHost fun h => { h with spiErr := Spi.timeout }
  else if !s.served || !s.ctlRuns 0 || (s.shutdown && !served) then s.spiEnd x Spi.notReady []
  else if data && !spiCrcOk x then s.spiEnd x Spi.crc []
  else f s

/-- R433: RD_STATUS, always served. -/
def execRdStatus (f : SpiFrame) (s : State) : Host.Outcome State Fault Refusal :=
  .next (if !spiInTime f then s.mapHost fun h => { h with spiErr := Spi.timeout }
    else s.spiEnd f Spi.ok (leBytes 1 (b2n s.ready + 2 * b2n s.locked + 4 * b2n s.host.pfReady
      + 8 * b2n (s.on Rg.BOOT_STAT_NV_BUSY) + 16 * b2n s.shutdown + 32 * (s.host.spiErr % 8))))

/-- The words of a read, one register after another. -/
def State.readWords : Nat → Nat → State → List Byte × State
  | 0, _, s => ([], s)
  | n + 1, off, s =>
    let (v, s) := s.readReg off
    let (l, s) := s.readWords n (off + 4)
    (leBytes 4 v.toNat ++ l, s)

/-- R434: RD_REG: an offset and a number of words. -/
def execRdReg (f : SpiFrame) (s : State) : Host.Outcome State Fault Refusal :=
  let off := spiNum f 0 2
  let n := spiNum f 2 1
  .next (s.spiFrame f true false fun s =>
    if off % 4 ≠ 0 ∨ n = 0 ∨ 64 < n ∨ f.bytes.length ≠ 3 then s.spiEnd f Spi.badParam []
    else
      let (l, s) := s.readWords n off
      s.spiEnd f Spi.ok l)

/-- R434: WR_REG: an offset and a word. -/
def execWrReg (f : SpiFrame) (s : State) : Host.Outcome State Fault Refusal :=
  .next (s.spiFrame f false true fun s =>
    if s.locked then s.spiEnd f Spi.lockedOut []
    else if spiNum f 0 2 % 4 ≠ 0 ∨ f.bytes.length ≠ 7 then s.spiEnd f Spi.badParam []
    else (s.writeReg (spiNum f 0 2) (BitVec.ofNat 32 (spiNum f 2 4))).spiEnd f Spi.ok [])

/-- R434: PF_SNAP: the summary and the eleven pages. -/
def execPfSnap (f : SpiFrame) (s : State) : Host.Outcome State Fault Refusal :=
  .next (s.spiFrame f true false fun s =>
    let s := s.newSnap
    let l := s.summary s.lead 4 ++ ((List.range 11).map fun i => s.extPage (i + 1)).flatten
    (s.mapHost fun h => { h with pfReady := true, pfBuf := l }).spiEnd f Spi.ok [])

/-- R434: PF_READ: a page, an offset in it and a count of bytes. -/
def execPfRead (f : SpiFrame) (s : State) : Host.Outcome State Fault Refusal :=
  let page := spiNum f 0 1
  let off := spiNum f 1 2
  let count := spiNum f 3 2
  .next (s.spiFrame f true false fun s =>
    if 11 < page ∨ off % 4 ≠ 0 ∨ count % 4 ≠ 0 ∨ count < 4 ∨ 4096 < off + count ∨ f.bytes.length ≠ 5 then
      s.spiEnd f Spi.badParam []
    else if !s.host.pfReady then s.spiEnd f Spi.notReady []
    else s.spiEnd f Spi.ok ((s.host.pfBuf.drop (4096 * page + off)).take count))

/-- R434: NV_RD: a half, an address and a count. -/
def execNvRd (f : SpiFrame) (s : State) : Host.Outcome State Fault Refusal :=
  let half := spiNum f 0 1
  let addr := spiNum f 1 3
  let count := spiNum f 4 2
  .next (s.spiFrame f false false fun s =>
    if 1 < half ∨ count = 0 ∨ 4096 < count ∨ 2 ^ 19 < addr + count ∨ f.bytes.length ≠ 6 then s.spiEnd f Spi.badParam []
    else s.spiEnd f Spi.ok (s.nvBytes half addr count))

/-- R434, R514: NV_WR: a half, an address, a count and as many bytes. -/
def execNvWr (f : SpiFrame) (s : State) : Host.Outcome State Fault Refusal :=
  let half := spiNum f 0 1
  let addr := spiNum f 1 3
  let count := spiNum f 4 2
  .next (s.spiFrame f false true fun s =>
    if !s.host.nvUnlocked ∨ s.locked then s.spiEnd f Spi.lockedOut []
    else if 1 < half ∨ count = 0 ∨ 256 < count ∨ 2 ^ 19 < addr + count ∨ addr < 0x20000 ∨ f.bytes.length ≠ count + 7 then
      s.spiEnd f Spi.badParam []
    else if s.on Rg.BOOT_STAT_NV_BUSY then s.spiEnd f Spi.busy []
    else (s.nvPut half addr ((f.bytes.drop 6).take count)).spiEnd f Spi.ok [])

/-- R434: NV_UNLOCK. -/
def execNvUnlock (f : SpiFrame) (s : State) : Host.Outcome State Fault Refusal :=
  .next (s.spiFrame f false true fun s =>
    if f.bytes.take 4 = [0x4E, 0x56, 0x57, 0x52] ∧ f.bytes.length = 5 then
      (s.mapHost fun h => { h with nvUnlocked := true }).spiEnd f Spi.ok []
    else s.spiEnd f Spi.badParam [])

end Sys2Proof.Machine
end

