-- ==== Sys2Proof/Machine/CmdOps.lean ====
section
/-! DEFINITION. What every command of Table 118 shares (R435 to R439, R443, R499, R511): its parameters as bytes, when it
starts, the checks in their fixed order. -/

namespace Sys2Proof.Machine

/-! ## Parameters -/

/-- The `n` bytes at a descriptor offset; `p` holds PARAM, which starts at 0x10 (Table 115). -/
def argBytes (p : List Byte) (off n : Nat) : List Byte := fitBytes n (p.drop (off - 16))

/-- The unsigned parameter of `n` bytes at a descriptor offset. -/
def arg (p : List Byte) (off n : Nat) : Nat := leNat (argBytes p off n)

/-- A number of `n` bytes as two's complement. -/
def signed (n v : Nat) : Int := (BitVec.ofNat (8 * n) v).toInt

/-- The signed parameter of `n` bytes at a descriptor offset. -/
def argS (p : List Byte) (off n : Nat) : Int := signed n (arg p off n)

/-- The 16+16 parameter at a descriptor offset: I in the more significant half (R14). -/
def argC (p : List Byte) (off : Nat) : Cplx := ⟨argS p (off + 2) 2, argS p off 2⟩

/-- A flag of a one-byte parameter. -/
def argB (p : List Byte) (off bit : Nat) : Bool := decide (arg p off 1 / 2 ^ bit % 2 = 1)

/-- The air-time stamp at a descriptor offset: ATIME, and TICK behind it. -/
def argStamp (p : List Byte) (off : Nat) : Stamp := stampOfWord (arg p off 4) (arg p (off + 4) 2)

/-- The symbol stamp at a descriptor offset. -/
def argSym (p : List Byte) (off : Nat) : Stamp := stampOfWord (arg p off 4) 0

/-- The first of a list of conditions that holds, as the DETAIL of a refusal (Table 116). -/
def firstBad : List (Bool × Nat) → Option Nat
  | [] => none
  | (b, off) :: r => if b then some off else firstBad r

/-- The positions of the bits set in a mask of `n` bits. -/
def maskList (n m : Nat) : List Nat := (List.range n).filter fun i => decide (m / 2 ^ i % 2 = 1)

/-! ## Table 118 -/

/-- Opcodes accepted on CMD_U. -/
def opsU : List Nat := [0x02, 0x05, 0x12, 0x14, 0x23, 0x29, 0x32, 0x33, 0x37, 0x42, 0x43, 0x44]

/-- Opcodes of the BULK ring. -/
def opsB : List Nat := [0x60, 0x61, 0x62, 0x63]

/-- Opcodes of CMD_N that no transaction carries. -/
def opsNotT : List Nat := [0x01, 0x04, 0x25, 0x36, 0x40, 0x46]

/-- Opcodes marked (H). -/
def opsH : List Nat :=
  [0x01, 0x03, 0x04, 0x14, 0x15, 0x20, 0x21, 0x22, 0x25, 0x27, 0x2A, 0x2C, 0x2E, 0x30, 0x31, 0x32, 0x36, 0x40, 0x46, 0x61,
   0x63]

/-- Opcodes executed before the path configuration is fixed (R437). -/
def opsEarly : List Nat := [0x01, 0x02, 0x03, 0x04, 0x25, 0x2C, 0x2D, 0x36, 0x46, 0x62, 0x63]

/-- Opcodes with input data. -/
def opsIn : List Nat := [0x23, 0x30, 0x31, 0x60, 0x61, 0x62, 0x63]

/-- Opcodes with output data. -/
def opsOut : List Nat := [0x02, 0x13, 0x24, 0x28, 0x2B, 0x2D, 0x32, 0x34, 0x45]

/-- Opcodes of order L; the others are of order O. -/
def opsL : List Nat := [0x2A, 0x2E, 0x35, 0x38, 0x60, 0x61, 0x62, 0x63]

/-- Opcodes beyond those marked (H) that set policy, which in standalone service only the baseband does (R43, Table 10). -/
def opsPolicy : List Nat :=
  [0x05, 0x10, 0x11, 0x12, 0x23, 0x26, 0x29, 0x33, 0x35, 0x41, 0x42, 0x43, 0x44, 0x60, 0x62]

/-- The command comes from the host. -/
def fromHost (r : Route) : Bool := !viaTxn r

/-- The half that receives a command: the host's interface is H0's (R19). -/
def recvHalf : Route → Nat
  | .t h _ _ => h.val
  | _ => 0

/-- The ring, or the half, on which FENCE and the completion order count (R435, R438). -/
def sameRing (x y : Route) : Bool := ringCode x == ringCode y

/-- Commands that start in the order of their arrival: those of a ring, the normal and the urgent ones of a half (R124,
R420). -/
def sameStream (x y : Route) : Bool :=
  match x, y with
  | .t h u _, .t h' u' _ => h == h' && u == u'
  | _, _ => ringCode x == ringCode y

/-- An opcode is accepted on a route (Table 118, R443). -/
def routeOk (op : Nat) (r : Route) : Bool :=
  opcodes.contains op && match r with
  | .n => !opsB.contains op
  | .u => opsU.contains op
  | .b => opsB.contains op
  | .t _ u _ => !opsB.contains op && !opsNotT.contains op && (!u || opsU.contains op)

/-! ## Starting -/

/-- The records of commands in execution on the route's ring or half that came before the command's own. -/
def State.earlier (s : State) (c : Cmd) (op : Nat) : List ExecRec :=
  match c.route with
  | .t h _ g => (s.cmd.txns.takeWhile fun x => !(x == ⟨h.val, op, g⟩)).filter fun x => x.ring == h.val
  | r => (s.host.exec.takeWhile fun x => !(x == ⟨ringCode r, op, c.tag⟩)).filter fun x => x.ring == ringCode r

/-- A command may start now: from the end of P1 for PHOTO_FINISH, which waits for nothing else (R444); for others READY
(R511), a lead half (R496), no power transaction (R461), the commands that FENCE names, and the earlier ones of order O
before one of order O completes (R438). -/
def State.mayStart (s : State) (c : Cmd) (op : Nat) : Bool :=
  if op = 0x02 then decide (2 ≤ s.raw Rg.BOOT_STAT_PHASE)
  else
    (s.ready || s.shutdown) && !s.leaderless
      && (List.range 2).all (fun h => (tget (fun _ => (none : Option EntryRec)) s.time.entry h).isNone)
      && (!c.fence || (s.earlier c op).isEmpty)
      && (opsL.contains op || !(s.cmd.longs.any fun x => sameRing x.cmd.route c.route && !opsL.contains x.opcode))

/-- The first held command that may start: no earlier one of its stream is held. -/
def State.pickHeld (s : State) (seen : List HeldCmd) : List HeldCmd → Option (HeldCmd × List HeldCmd)
  | [] => none
  | x :: r =>
    if s.mayStart x.cmd x.opcode && !(seen.any fun y => sameStream y.cmd.route x.cmd.route) then some (x, r)
    else match State.pickHeld s (seen ++ [x]) r with
      | some (y, r') => some (y, x :: r')
      | none => none

/-- The held command that starts next, and those that stay. -/
def State.nextHeld (s : State) : Option (HeldCmd × List HeldCmd) := s.pickHeld [] s.cmd.held

/-- A command that arrives now waits: it may not start, or an earlier one of its stream waits, or one that waited starts
first. PHOTO_FINISH waits for no command. -/
def State.mustWait (s : State) (c : Cmd) (op : Nat) : Bool :=
  !s.mayStart c op
    || (!(op == 0x02) && ((s.cmd.held.any fun y => sameStream y.cmd.route c.route) || s.nextHeld.isSome))

/-- The command is in execution (Table 121, HOST_CMDS and TXN_CMDS): it has been fetched, or arrives now. -/
def State.enterExec (s : State) (c : Cmd) (op : Nat) : State :=
  match c.route with
  | .t h _ g =>
    let x : ExecRec := ⟨h.val, op, g⟩
    if s.cmd.txns.contains x then s else s.mapCmd fun m => { m with txns := m.txns ++ [x] }
  | r =>
    let x : ExecRec := ⟨ringCode r, op, c.tag⟩
    if s.host.exec.contains x then s else s.mapHost fun m => { m with exec := m.exec ++ [x] }

/-! ## The checks (R437) -/

/-- What the common checks need of a command: whether the issuer may act on the resource; whether the item is SHARED; the
offset of the first parameter at fault; the bytes of data the opcode needs; the halves whose resources it concerns (both for
one that R499 lists); the domains it needs in RUN (half, position). -/
structure CmdArgs where
  may : Bool := true
  shared : Bool := false
  bad : Option Nat := none
  need : Nat := 0
  halves : List Nat := [0, 1]
  doms : List (Nat × Nat) := []
deriving DecidableEq, Repr

/-- The first check that a command fails: its status and DETAIL. -/
def State.refusal (s : State) (c : Cmd) (op : Nat) (a : CmdArgs) : Option (Nat × Nat) :=
  let host := fromHost c.route
  let data := opsIn.contains op || opsOut.contains op
  if !routeOk op c.route then some (St.BAD_OP, 0)
  else if op = 0x02 then
    (if host && c.misaligned then some (St.BAD_PARAM, 0x08)
     else match a.bad with
       | some d => some (St.BAD_PARAM, d)
       | none => if c.dlen < a.need then some (St.LEN_RANGE, 0x04) else none)
  else if s.shutdown then some (St.NOT_READY, 0)
  else if s.raw Rg.CFG_STAT_PATHCFG = 0 ∧ !opsEarly.contains op then some (St.NOT_READY, 0)
  else if s.split ∧ !(a.halves.all fun h => h == recvHalf c.route) then some (St.NOT_READY, 0)
  else if !host ∧ opsH.contains op ∧ !s.standalone then some (St.OWNER, 0)
  else if host ∧ s.standalone ∧ !(op == 0x01) ∧ (opsH.contains op || opsPolicy.contains op) then some (St.OWNER, 0)
  else if !a.may then some (St.OWNER, 0)
  else if host && data && c.misaligned then some (St.BAD_PARAM, 0x08)
  else if !host && opsIn.contains op && c.short then some (St.BAD_PARAM, 0x04)
  else match a.bad with
    | some d => some (St.BAD_PARAM, d)
    | none =>
      if host && c.tie && a.shared then some (St.BUSY, 0)
      else if c.dlen < a.need then some (St.LEN_RANGE, 0x04)
      else if host && opsIn.contains op && c.readErr then some (St.HOST_READ, 0)
      else if a.doms.any fun d => !(s.dom d.1 d.2 == 0) then some (St.NOT_READY, 0)
      else none

/-- A command: it waits, is refused by the common checks, or goes on to those of its owning rule and its effect. -/
def State.command (s : State) (i : Instr) (c : Cmd) (op : Nat) (a : State → CmdArgs) (f : State → State) : State :=
  let drained := s.cmd.draining
  let s := (s.mapCmd fun m => { m with draining := false }).enterExec c op
  if !drained && s.mustWait c op then s.mapCmd fun m => { m with held := m.held ++ [⟨c, op, i⟩] }
  else match s.refusal c op (a s) with
    | some (st, d) => (if st = St.HOST_READ then s.readFailed (ringCode c.route) else s).refuse c op st d
    | none => f s

/-- A command of order L begins its work. -/
def State.beginLong (s : State) (c : Cmd) (op : Nat) (w : LongWhat) : State :=
  s.mapCmd fun m => { m with longs := m.longs ++ [⟨c, op, w⟩] }

/-- Complete with OK and nothing to report. -/
def State.done (s : State) (c : Cmd) (op : Nat) : State := s.complete c op St.OK {}

/-- Complete with OK, reporting the air time of an effect that lies at a count, in a numerology. -/
def State.doneAt (s : State) (c : Cmd) (op mu at_ flags : Nat) : State :=
  s.complete c op St.OK { at_ := some (stampOf mu at_), flags := flags }

/-- The group domains of a half that a group mask names, as (half, position) (Table 126). -/
def groupDoms (gs : List Nat) : List (Nat × Nat) := gs.map fun g => (g / 4, 2 + g % 4)

end Sys2Proof.Machine
end

