-- ==== Sys2Proof/Machine/Records.lean ====
section
/-! DEFINITION. The records that commands and the standalone radio record carry (Tables 39, 45, 52, 57, 69, 74, 78): how
their bytes read, what refuses them, how they are taken. A record's bytes stand at descriptor offset 0x10. -/

namespace Sys2Proof.Machine

/-! ## Carriers (R131, R132, R154, R155) -/

/-- A downlink carrier record from its bytes (Table 39). -/
def dlArg (p : List Byte) : DlCarrier :=
  { carrier := arg p 0x10 1 % 4, en := argB p 0x11 0, phcomp := argB p 0x11 1, scs := arg p 0x12 1 % 4, log2n := arg p 0x13 1
    nprb := arg p 0x14 2, bfShift := arg p 0x16 1, ifftShift := arg p 0x17 1, ncoFreq := argS p 0x18 4
    gain := ⟨argS p 0x1C 2, argS p 0x1E 2⟩, power := argS p 0x20 2 }

/-- An uplink carrier record from its bytes (Table 45). -/
def ulArg (p : List Byte) : UlCarrier :=
  { carrier := arg p 0x10 1 % 4, en := argB p 0x11 0, phcomp := argB p 0x11 1, conj := argB p 0x11 2, scs := arg p 0x12 1 % 4
    log2n := arg p 0x13 1, nprb := arg p 0x14 2, combShift := arg p 0x16 1, fftShift := arg p 0x17 1, ncoFreq := argS p 0x18 4
    filtShift := arg p 0x1C 1, fftAdv := arg p 0x1E 2 }

/-- Spacing in Hz. -/
def scsHz (mu : Nat) : Nat := 15000 * 2 ^ mu

/-- Most PRBs of a carrier (R131). -/
def maxPrb (mu : Nat) : Nat :=
  match mu with
  | 0 => 270
  | 1 => 273
  | _ => 135

/-- The offset of a carrier in Hz, times 2^32. -/
def offsetHz (freq : Int) : Int := freq * 491520000

/-- Half the occupied span of a carrier in Hz, times 2^32. -/
def spanHz (mu nprb : Nat) : Int := (6 * nprb * scsHz mu * 2 ^ 32 : Nat)

/-- The first field of a carrier record at fault, of those both directions have (R131): `last` is the bound of the field at
0x17. -/
def carrierBad (scs log2n nprb sh6 sh7 : Nat) (freq : Int) : Option Nat :=
  firstBad [(decide (2 < scs), 0x12), (decide (log2n < 8) || decide (12 < log2n) || decide (245760000 < 2 ^ log2n * scsHz scs), 0x13),
    (nprb == 0 || decide (maxPrb scs < nprb) || decide (82 * 2 ^ log2n < 1200 * nprb), 0x14), (decide (4 < sh6), 0x16),
    (decide (12 < sh7), 0x17), (decide (200000000 * 2 ^ 32 < (offsetHz freq).natAbs + (spanHz scs nprb).natAbs), 0x18)]

/-- The spans of two carriers overlap. -/
def spansOverlap (f g : Int) (a b : Int) : Bool := decide ((offsetHz f - offsetHz g).natAbs < (a + b).natAbs)

/-- The record that a downlink carrier has or has been given. -/
def State.dlLatest (s : State) (c : Nat) : DlCarrier :=
  match (tget (fun _ => ([] : List PendDl)) s.dlPend c).getLast? with
  | some x => x.car
  | none => s.dl c

/-- The record that an uplink carrier has or has been given. -/
def State.ulLatest (s : State) (c : Nat) : UlCarrier :=
  match (tget (fun _ => ([] : List PendUl)) s.ulPend c).getLast? with
  | some x => x.car
  | none => s.ul c

/-- R131: the first field of a downlink record at fault. -/
def State.dlBad (s : State) (r : DlCarrier) : Option Nat :=
  (carrierBad r.scs r.log2n r.nprb r.bfShift r.ifftShift r.ncoFreq).orElse fun _ =>
    firstBad [(r.en && (List.range 4).any (fun c => !(c == r.carrier) && (s.dlLatest c).en
      && spansOverlap r.ncoFreq (s.dlLatest c).ncoFreq (spanHz r.scs r.nprb) (spanHz (s.dlLatest c).scs (s.dlLatest c).nprb)), 0x18)]

/-- R154: the first field of an uplink record at fault. -/
def State.ulBad (s : State) (r : UlCarrier) : Option Nat :=
  (carrierBad r.scs r.log2n r.nprb r.combShift r.fftShift r.ncoFreq).orElse fun _ =>
    firstBad [(r.en && (List.range 4).any (fun c => !(c == r.carrier) && (s.ulLatest c).en
      && spansOverlap r.ncoFreq (s.ulLatest c).ncoFreq (spanHz r.scs r.nprb) (spanHz (s.ulLatest c).scs (s.ulLatest c).nprb)), 0x18),
      (decide (8 < r.filtShift), 0x1C), (decide (2304 < r.fftAdv * (2 ^ r.scs * ratio r.log2n r.scs)), 0x1E)]

/-- A flow in OPEN, SHED or CLOSING uses a carrier. -/
def State.carrierUsed (s : State) (dir c : Nat) : Bool := s.openFlows.any fun e => e.2.dir == dir && e.2.carrier == c

/-- R132: a change of a field other than GAIN, POWER and PHCOMP while a flow uses the carrier. -/
def State.dlInUse (s : State) (r : DlCarrier) : Bool :=
  let o := s.dlLatest r.carrier
  s.carrierUsed 0 r.carrier && !({ r with gain := o.gain, power := o.power, phcomp := o.phcomp } == o)

/-- R155: a change of a field other than PHCOMP, CONJ and FFT_ADV while a flow uses the carrier. -/
def State.ulInUse (s : State) (r : UlCarrier) : Bool :=
  let o := s.ulLatest r.carrier
  s.carrierUsed 1 r.carrier && !({ r with phcomp := o.phcomp, conj := o.conj, fftAdv := o.fftAdv } == o)

/-- The first slot boundary of a numerology that follows this instant. -/
def State.slotAfter (s : State) (mu : Nat) : Nat := nextSlot mu (s.time.count + 1)

/-- A downlink record waits for its slot, behind those that wait (R132). -/
def State.setDl (s : State) (r : DlCarrier) : State :=
  let before := (s.time.count + Config.ticksPerCycle - 1) % Config.ticksPerCycle
  let waiting := tget (fun _ => []) s.dlPend r.carrier
  { s with dlPend := tset (fun _ => []) s.dlPend r.carrier
             (waiting ++ [⟨r, s.slotAfter r.scs, addSymbols r.scs 3 before⟩]) }

/-- An uplink record waits for its slot, behind those that wait (R155). -/
def State.setUl (s : State) (r : UlCarrier) : State :=
  let waiting := tget (fun _ => []) s.ulPend r.carrier
  { s with ulPend := tset (fun _ => []) s.ulPend r.carrier
             (waiting ++ [⟨r, s.slotAfter r.scs⟩]) }

/-! ## The schedule (R293 to R295) -/

/-- A schedule record from its bytes (Table 74). -/
def schedArg (d : List Byte) : SchedRec :=
  { muRef := arg d 0x10 1 % 4, nslot := arg d 0x11 1, effect := stampOfWord (arg d 0x14 4) 0
    slots := (List.range (arg d 0x11 1)).map fun i => arg d (0x20 + 4 * i) 4 % 2 ^ 28 }

/-- Bytes of a schedule record. -/
def schedLen (d : List Byte) : Nat := 16 + 4 * arg d 0x11 1

/-- Symbol codes of the pattern over one subframe's worth of repeats, each with its ticks. -/
def patternSyms (x : SchedRec) : List (Nat × Nat) :=
  (List.range (14 * x.nslot * 2 ^ x.muRef)).map fun k =>
    (nth x.slots (k / 14 % x.nslot) 0 / 4 ^ (k % 14) % 4, symLen x.muRef (k % (14 * 2 ^ x.muRef)))

/-- Scan symbols: a U after a D with fewer than `need` ticks of G between. `last` is the last code other than G. -/
def gapBad (need : Nat) (last : Option Nat) (g : Nat) : List (Nat × Nat) → Bool
  | [] => false
  | (c, n) :: r =>
    if c = 2 then gapBad need last (g + n) r
    else (c == 1 && last == some 0 && (g == 0 || decide (g < need))) || gapBad need (some c) 0 r

/-- R295: a schedule is refused with BAD_PARAM. -/
def State.schedBad (s : State) (x : SchedRec) : Bool :=
  decide (2 < x.muRef) || decide (x.nslot < 1) || decide (80 < x.nslot) || !(20 * 2 ^ x.muRef % x.nslot == 0)
    || !(x.effect == ⟨x.effect.sfn, 0, 0, 0, 0⟩) || !(x.effect.sfn % 2 == 0)
    || (patternSyms x).any (fun e => e.1 == 3)
    || gapBad (s.f Rg.FE_TIME0_TX_LAG + s.f Rg.FE_TIME2_DEAD + s.f Rg.FE_TIME1_RX_LEAD) none 0 (patternSyms x ++ patternSyms x)
    || decide (6400 < s.f Rg.FE_TIME0_TX_LEAD + s.f Rg.FE_TIME2_DEAD + s.f Rg.FE_TIME1_RX_LAG)

/-- Start of a schedule as a count. -/
def schedAt (x : SchedRec) : Nat := countOf x.muRef x.effect

/-- R295: EFFECT lies less than 2 ms away. -/
def State.schedLate (s : State) (x : SchedRec) : Bool := !atLeastUs (ahead s.time.count (schedAt x)) 2000

/-- A schedule waits for its EFFECT, in place of one that waited. -/
def State.setSched (s : State) (x : SchedRec) : State := { s with schedPend := some ⟨x, schedAt x⟩ }

/-! ## Hop tables (R275) -/

/-- Whether an entry is in use by a group, or by a pending hop. -/
def State.hopInUse (s : State) (e : Nat) : Bool :=
  (List.range 8).any fun g => (s.group g).entry == some e || (match (s.group g).hop with
    | some h => h.1 == e
    | none => false)

/-- A frequency in kHz that the synthesisers do not make. -/
def freqBad (khz : Nat) : Bool := decide (khz < 3300000) || decide (7125000 < khz)

/-- The entry of every synthesiser is written, its stored results cleared and its calibration sets discarded. -/
def State.setHop (s : State) (e freq : Nat) (valid : Bool) : State :=
  let s := (List.range 10).foldl (fun s n => s.mapHop n e fun _ => { HopEnt.reset with freq := freq, valid := valid }) s
  { s with calSets := s.calSets.filter fun x => !(x.entry == e) }.clearSafe 2 e

/-! ## Predistortion (R212, R213) -/

/-- A predistortion record from its bytes (Table 57). -/
def dpdArg (p : List Byte) : DpdRec :=
  { path := arg p 0x10 1, en := argB p 0x11 0, est := argB p 0x11 1, kOwn := arg p 0x12 1, mOwn := arg p 0x13 1, mX := arg p 0x14 1
    papr := arg p 0x16 2
    neigh := (List.range 4).map fun i => if arg p (0x18 + i) 1 = 0xFF then none else some (arg p (0x18 + i) 1) }

/-- R212: the first field of a predistortion record at fault. -/
def dpdBad (r : DpdRec) : Option Nat :=
  let l := r.neigh.filterMap id
  firstBad [(decide (63 < r.path), 0x10), (decide (r.kOwn < 1) || decide (7 < r.kOwn), 0x12),
    (decide (r.mOwn < 1) || decide (8 < r.mOwn), 0x13), (decide (4 < r.mX), 0x14),
    (!(r.papr == 0xFFFF) && (decide (r.papr < 40) || decide (120 < r.papr)), 0x16),
    (l.any (fun q => decide (63 < q) || !(q / 32 == r.path / 32) || q == r.path) || !decide l.Nodup, 0x18)]

/-- The structure of a record: what R213 names. -/
def dpdShape (r : DpdRec) : Nat × Nat × Nat × List (Option Nat) := (r.kOwn, r.mOwn, r.mX, r.neigh)

/-- R213: a structure change waits for the banks, a change of EN, EST or CFR_PAPR for a swap boundary. -/
def State.setDpdRec (s : State) (r : DpdRec) : State :=
  (s.mapDpd r.path fun d =>
    { d with struct_ := if dpdShape r = dpdShape d.rec_ then none else some r
             soft := if r.en = d.rec_.en ∧ r.est = d.rec_.est ∧ r.papr = d.rec_.papr then none else some r }).clearSafe 4 r.path

/-! ## Solvers (R190, R191) -/

/-- Owner of a context: as the open that waits sets it, else as it holds. -/
def State.flowOwner (s : State) (n : Nat) : Nat := if (s.flow n).state = 0 then (s.flowLast n).owner else (s.flow n).owner

/-- A solver record from its bytes (Table 52). -/
def solverArg (p : List Byte) : SolverRec :=
  { flow := arg p 0x10 1, en := argB p 0x11 0, uplink := argB p 0x11 1, regular := argB p 0x11 2, reg := arg p 0x12 1
    engines := arg p 0x13 1, period := arg p 0x14 1, maxAge := arg p 0x15 1, offset := arg p 0x16 2, norm := arg p 0x18 2 }

/-- R191: the first field of a solver record at fault. -/
def State.solverBad (s : State) (r : SolverRec) : Option Nat :=
  let f := s.flowLast r.flow
  firstBad [(f.state == 0 || !(f.dir == 1), 0x10), (decide (r.engines < 1) || decide (4 < r.engines), 0x13),
    (decide (r.period < 1) || decide (80 < r.period), 0x14), (r.maxAge == 0, 0x15), (decide (999 < r.offset), 0x16), (r.norm == 0, 0x18)]

/-- The solver record of a flow, as last set. -/
def State.solverOf (s : State) (f : Nat) : Option SolverRec := tget (fun _ => none) s.solvRec f

/-- The enabled solvers beside a flow's. -/
def State.otherSolvers (s : State) (f : Nat) : List SolverRec :=
  (s.solvRec.filterMap fun e => e.2).filter fun r => r.en && !(r.flow == f) && !((s.flowLast r.flow).state == 0)

/-- K_max × NG / T of a solver per second, as a fraction. -/
def State.solverLoad (s : State) (r : SolverRec) : Nat × Nat :=
  let u := s.ul (s.flowLast r.flow).carrier
  (16 * ceilDiv u.nprb 4 * (1000 * 2 ^ u.scs), r.period)

/-- R191: IN_USE for a second solver on a carrier, or for a change that EN forbids; CAPACITY above 3,800,000 per second. -/
def State.solverRefusal (s : State) (r : SolverRec) : Nat :=
  let others := s.otherSolvers r.flow
  let fixed (x : SolverRec) : Bool × Nat × Nat := (x.uplink, x.engines, x.period)
  let locked : Bool := match s.solverOf r.flow with
    | some o => o.en && r.en && !(fixed o == fixed r)
    | none => false
  let load := (r :: others).foldl (fun (a : Nat × Nat) x =>
    let b := s.solverLoad x
    (a.1 * b.2 + b.1 * a.2, a.2 * b.2)) (0, 1)
  if r.en ∧ others.any (fun o => (s.flowLast o.flow).carrier == (s.flowLast r.flow).carrier) then St.IN_USE
  else if locked then St.IN_USE
  else if r.en ∧ 3800000 * load.2 < load.1 then St.CAPACITY
  else St.OK

/-- A solver record is taken; with EN clear the flow has no solver output. -/
def State.setSolver (s : State) (r : SolverRec) : State :=
  let s := { s with solvRec := tset (fun _ => none) s.solvRec r.flow (some r) }.clearSafe 5 r.flow
  if r.en then s
  else
    let free (b : SolvBank) : SolvBank := { b with state := 0 }
    s.mapSolv r.flow fun v => { v with x := free v.x, y := free v.y, waiting := false, out := false }

/-! ## Scripts (R306) -/

/-- A script entry from its eight bytes (Table 78). -/
def scriptArg (l : List Byte) : ScriptEnt :=
  let b (i n : Nat) : Nat := leNat (fitBytes n (l.drop i))
  { usid := b 0 1 % 16, verify := decide (128 ≤ b 0 1), cmd := b 1 1 % 4, anchor := b 1 1 / 16 % 8, path := decide (128 ≤ b 1 1)
    addr := b 2 1, data := b 3 1, mask := b 4 1, offset := signed 2 (b 6 2) }

/-- The entries of a script's bytes. -/
def scriptArgs (n : Nat) (l : List Byte) : List ScriptEnt := (List.range n).map fun i => scriptArg (l.drop (8 * i))

/-- SCLK cycles of an entry (Table 77), eight sequences with PATH and a register read behind each with VERIFY. -/
def scriptCycles (e : ScriptEnt) : Nat :=
  let one := match e.cmd with
    | 0 => 16
    | 1 => 25
    | 2 => 34
    | _ => 43
  (one + (if e.verify then 26 else 0)) * (if e.path then 8 else 1)

/-- SCLK in MHz. -/
def State.sclk (s : State) : Nat := 13 * 2 ^ s.f Rg.FE_CFG_RFFE_RATE

/-- Two entries of one anchor overlap at a bus rate: the one that launches first still runs at the other's tick. -/
def scriptClash (mhz : Nat) (a b : ScriptEnt) : Bool :=
  a.anchor == b.anchor && decide ((b.offset - a.offset) * (100 * mhz) < ((scriptCycles a * 49152 : Nat) : Int))
    && decide ((a.offset - b.offset) * (100 * mhz) < ((scriptCycles b * 49152 : Nat) : Int))

/-- Some two entries of a list overlap. -/
def anyClash (mhz : Nat) : List ScriptEnt → Bool
  | [] => false
  | e :: r => r.any (scriptClash mhz e) || anyClash mhz r

/-- Entries are written into a bus's script memory. -/
def State.putScript (s : State) (bus first : Nat) (l : List ScriptEnt) : State :=
  l.zipIdx.foldl (fun s (e, i) =>
    { s with scripts := tset (fun _ => none) s.scripts (bus * 128 + first + i) (some e) }.clearSafe 9 (bus * 128 + first + i)) s

/-- A load would leave entries of one anchor overlapping. -/
def State.scriptOver (s : State) (bus first : Nat) (l : List ScriptEnt) : Bool :=
  let t := s.putScript bus first l
  anyClash s.sclk ((List.range 128).filterMap fun i => tget (fun _ => none) t.scripts (bus * 128 + i))

/-! ## Event routing (R442) -/

/-- Set the ROUTE byte of a class, or of every class, in the table of a half. -/
def State.setRoute (s : State) (half cls route : Nat) : State :=
  let l := if cls = 255 then (List.range 14).map (· + 1) else [cls]
  let up := 256 * b2n (s.split && half == 1)
  s.mapCmd fun m => { m with route := l.foldl (fun t k => tset (fun _ => 1) t (k + up) (route % 64)) m.route }

/-- A class of EVT_ROUTE outside its range. -/
def classBad (cls : Nat) : Bool := cls == 0 || (decide (14 < cls) && !(cls == 255))

end Sys2Proof.Machine
end

