-- ==== Sys2Proof/Machine/CmdLink.lean ====
section
/-! DEFINITION. Commands on the device, flows and lanes (Table 118, 0x01 to 0x15), and transactions (R123 to R125). -/

namespace Sys2Proof.Machine

/-! ## Transactions -/

/-- Answer a request that is not executed: TSTAT, without a completion (Table 36). -/
def State.rejectTxn (s : State) (h tag tstat : Nat) : State :=
  (rspItems tag tstat (zeros 32) [[]]).foldl (fun s it => s.queueTx h it) s

/-- R123, R124: a request is refused, or its command is in execution from now on; a reserved opcode completes with BAD_OP
(R439). -/
def execTxnReq (h : Half) (b : List Byte) (s : State) : Host.Outcome State Fault Refusal :=
  let tag := beNat b 0 2
  let op := beNat b 2 1
  let d : FetchedDesc := ⟨(b.drop 4).take 64⟩
  if !s.linkUp h.val then .next s
  else if !(s.on Rg.PKT_CFG_TUNNEL_EN || s.standalone) then .next (s.rejectTxn h.val tag 2)
  else if op ≠ 1 ∧ op ≠ 2 then .next (s.rejectTxn h.val tag 3)
  else if 32 ≤ s.cmd.txns.length then .next ((s.rejectTxn h.val tag 1).bump (Rg.C_TXN_BUSY h.val) 1)
  else
    let s := s.mapCmd fun m => { m with txns := m.txns ++ [⟨h.val, descOp d, tag⟩] }
    .next (if opcodes.contains (descOp d) then s
      else s.complete (bareCmd (.t h (op == 2) tag) (descTag d)) (descOp d) St.BAD_OP {})

/-! ## The device -/

/-- R4: fix the path configuration. -/
def execPathConfig (c : Cmd) (p : List Byte) (s : State) : Host.Outcome State Fault Refusal :=
  let cfg := arg p 0x10 1
  .next (s.command (.pathConfig c p) c 0x01 (fun _ => { bad := firstBad [(cfg == 0 || decide (3 < cfg), 0x10)] }) fun s =>
    if s.raw Rg.CFG_STAT_PATHCFG ≠ 0 then s.refuse c 0x01 St.ALREADY 0 else (s.fixPaths cfg).done c 0x01)

/-- R444, R445: the summary and its extension pages, of the half that received the command in split mode or in a dispute,
and of the lead half otherwise. -/
def execPhotoFinish (c : Cmd) (p : List Byte) (s : State) : Host.Outcome State Fault Refusal :=
  let first := arg p 0x10 1
  let n := arg p 0x11 1
  .next (s.command (.photoFinish c p) c 0x02
    (fun _ => { bad := firstBad [(decide (0 < n) && first == 0, 0x10), (decide (11 < n), 0x11), (decide (0 < n) && decide (12 < first + n), 0x11)],
                need := 4096 * (1 + n), halves := [recvHalf c.route] })
    fun s =>
      let s := s.newSnap
      let me := if s.split || s.leaderless then recvHalf c.route else s.lead
      let route : Nat := match c.route with
        | .u => 1
        | .t h _ _ => 2 + h.val
        | _ => 0
      let l := s.summary me route ++ ((List.range n).map fun i => s.extPage (first + i)).flatten
      s.complete c 0x02 St.OK { r0 := s.cmd.snap, data := l })

/-- R442: the routing of one class, or of every class; in split mode of the half that receives the command. -/
def execEvtRoute (c : Cmd) (p : List Byte) (s : State) : Host.Outcome State Fault Refusal :=
  let cls := arg p 0x10 1
  .next (s.command (.evtRoute c p) c 0x03
    (fun _ => { bad := firstBad [(classBad cls, 0x10)], halves := [recvHalf c.route] })
    fun s => (s.setRoute (recvHalf c.route) cls (arg p 0x11 1)).done c 0x03)

/-- R429: the owner of a domain's power votes; HOSTIF holds HOST. -/
def execVoteOwner (c : Cmd) (p : List Byte) (s : State) : Host.Outcome State Fault Refusal :=
  let h := arg p 0x10 1
  let d := arg p 0x11 1
  let o := arg p 0x12 1
  .next (s.command (.voteOwner c p) c 0x04
    (fun _ => { bad := firstBad [(decide (1 < h), 0x10), (decide (domCount h ≤ d), 0x11), (decide (2 < o), 0x12)] })
    fun s =>
      if h = 0 ∧ d = 7 then (if o = 0 then s else s.bump Rg.C_BAD_ACCESS 1).done c 0x04
      else (s.setReg 0x0028 (fset (s.reg 0x0028) (16 * h + 2 * d) 2 o)).done c 0x04)

/-- Bit of DOM_H0 or DOM_H1 of a domain position (Table 38). -/
def bitOfDom (d : Nat) : Nat :=
  match d with
  | 0 => 7
  | 1 => 6
  | 6 => 1
  | 7 => 0
  | n => n

/-- The domains in RUN: [7:0] as DOM_H0, [15:8] as DOM_H1. -/
def State.runMask (s : State) : Nat :=
  ((s.domsIn.filter fun e => s.dom e.1 e.2 == 0).map fun e => 2 ^ (8 * e.1 + bitOfDom e.2)).sum

/-- Domains that a pair of DOM bytes marks, in service (R457). -/
def State.voteDoms (s : State) (h0 h1 : Nat) : List (Nat × Nat) :=
  ((s.markedDoms 0 h0).map fun d => (0, d)) ++ (s.markedDoms 1 h1).map fun d => (1, d)

/-- Bit mask of domain positions of a half. -/
def domMask (h : Nat) (ds : List (Nat × Nat)) : Nat := ((ds.filter fun e => e.1 == h).map fun e => 2 ^ e.2).sum

/-- A timed vote waits for its air time, in time order (R458). -/
def State.addTimed (s : State) (v : TimedVote) : State :=
  let key (x : TimedVote) : Nat := (x.at_ + Config.ticksPerCycle - s.time.count) % Config.ticksPerCycle
  s.mapTime fun t => { t with timed := insertBy key v t.timed }

/-- A timed vote that may be held (R458): the CAPACITY and TOO_LATE refusals. -/
def State.timedRefusal (s : State) (ds : List (Nat × Nat)) (at_ : Nat) : Nat :=
  let wake := (ds.map fun e => s.wakeTicks e.1 e.2).foldl max 0
  if 16 ≤ s.time.timed.length then St.CAPACITY
  else if ahead s.time.count at_ * 100 < ((20 * 49152 + wake * 100 : Nat) : Int) then St.TOO_LATE else St.OK

/-- R457, R458: the issuer's vote on the marked domains, or with TIMED the SCHEDULE client's at an air time. -/
def execPowerVote (c : Cmd) (p : List Byte) (s : State) : Host.Outcome State Fault Refusal :=
  let on := arg p 0x12 1 == 1
  .next (s.command (.powerVote c p) c 0x05
    (fun s =>
      let ds := s.voteDoms (arg p 0x10 1) (arg p 0x11 1)
      { may := ds.all fun e => mayAct (s.voteOwner e.1 e.2) (fromHost c.route)
        shared := ds.any fun e => s.voteOwner e.1 e.2 == 2
        bad := firstBad [(!(arg p 0x12 1 == 1 || arg p 0x12 1 == 2), 0x12), (c.timed && !stampOk s.muRef (argStamp p 0x14), 0x14)]
        halves := ds.map (·.1) })
    fun s =>
      let ds := s.voteDoms (arg p 0x10 1) (arg p 0x11 1)
      if c.timed then
        let at_ := countOf s.muRef (argStamp p 0x14)
        let st := s.timedRefusal ds at_
        if st ≠ St.OK then s.refuse c 0x05 st 0
        else
          let s := s.addTimed { doms0 := domMask 0 ds, doms1 := domMask 1 ds, on := on, at_ := at_, waking := false }
          s.complete c 0x05 St.OK { r0 := s.runMask }
      else
        let s := s.castVotes (b2n (!fromHost c.route)) on ds 7
        s.complete c 0x05 St.OK { r0 := s.runMask })

/-! ## Flows -/

/-- The context that a flow command carries (Table 26). -/
def flowArg (p : List Byte) : Flow :=
  let k := arg p 0x12 1
  { state := 1, dir := k % 4, half := k / 4 % 2, sheddable := k % 4 == 0 && k / 8 % 2 == 1, prio := k / 16 % 8,
    owner := arg p 0x13 1 % 4, carrier := arg p 0x14 1 % 4, comp := arg p 0x15 1 % 16, layers := arg p 0x16 2,
    lead := arg p 0x18 2, rsv := arg p 0x1A 2, accepted := 0, late := 0, early := 0, invalid := 0, shed := 0 }

/-- Numerology of a flow's stamps: its carrier's, or MU_REF for a capture flow (R448). -/
def State.flowMu (s : State) (f : Flow) : Nat :=
  if f.dir = 0 then (s.dl f.carrier).scs else if f.dir = 1 then (s.ul f.carrier).scs else s.muRef

/-- The minimum lead of a downlink flow (Table 40). -/
def minLead (mu : Nat) : Nat :=
  match mu with
  | 0 => 150
  | 1 => 80
  | _ => 60

/-- A LEAD outside its range: 60 to 500, and for a downlink flow at least the minimum of its carrier (R103, R133). -/
def State.leadBad (s : State) (f : Flow) : Bool :=
  decide (f.lead < 60) || decide (500 < f.lead)
    || (f.dir == 0 && (match s.flowCarrier f with
      | some (mu, _) => decide (f.lead < minLead mu)
      | none => false))

/-- The first parameter of a flow's context that is reserved or out of range; `host` sets OWNER. -/
def State.flowBad (s : State) (p : List Byte) (f : Flow) (host timed : Bool) : Option Nat :=
  firstBad [(decide (3 < arg p 0x11 1), 0x11), (f.dir == 3, 0x12), (host && f.owner == 3, 0x13),
    (decide (1 ≤ f.comp) && decide (f.comp ≤ 7), 0x15), (s.leadBad f, 0x18),
    (timed && !stampOk (s.flowMu f) (argSym p 0x30), 0x30)]

/-- Layers of a mask. -/
def layerCount (m : Nat) : Nat := (maskList 16 m).length

/-- The minimum RSV_RATE of a flow (R104), in units of 10 Mbit/s. -/
def minRate (f : Flow) (mu nprb : Nat) : Nat :=
  ceilDiv (layerCount f.layers * nprb * prbBits f.comp * (14000 * 2 ^ mu) * 103) 1000000000

/-- The checks of Table 27 that apply to new values: LAYER_CONFLICT, STREAMS, RATE_LOW and CAPACITY, beside the open flows
other than `n`. -/
def State.flowRefusal (s : State) (n : Nat) (f : Flow) : Nat :=
  let others := s.openFlows.filter fun e => !(e.1 == n)
  let same := others.filter fun e => e.2.dir == f.dir
  let up (x : Flow) : Bool := !(x.dir == 0)
  if f.dir ≤ 1 ∧ same.any (fun e => e.2.carrier == f.carrier && !(Nat.land e.2.layers f.layers == 0)) then St.LAYER_CONFLICT
  else if f.dir ≤ 1 ∧ 64 < layerCount f.layers + (same.map fun e => layerCount e.2.layers).sum then St.STREAMS
  else if (match s.flowCarrier f with
      | some (mu, nprb) => decide (f.dir ≤ 1) && decide (f.rsv < minRate f mu nprb)
      | none => false) then St.RATE_LOW
  else if !fits (s.f Rg.LNK_CFG_RATE) (s.activeLanes f.half).length
      (f.rsv + ((others.filter fun e => up e.2 == up f && s.flowOn f.half e.2).map fun e => e.2.rsv).sum) then St.CAPACITY
  else St.OK

/-- Start of the first symbol at or after a count. -/
def symAtOrAfter (mu c : Nat) : Nat :=
  let c := c % Config.ticksPerCycle
  let t := c % Config.ticksPerSubframe
  let k := symOf mu t
  if symStart mu k = t then c else (c - t + symStart mu (k + 1)) % Config.ticksPerCycle

/-- The acceptance window of a symbol has opened (R116): S - LEAD - 125 µs has come. -/
def State.windowOpen (s : State) (start lead : Nat) : Bool := !decide ((lead + 125) * 49152 < ahead s.time.count start * 100)

/-- The first symbol whose window has not opened. -/
def State.firstEffect (s : State) (mu lead : Nat) : Nat := symAtOrAfter mu (s.time.count + (lead + 125) * 49152 / 100 + 1)

/-- The effect symbol of a flow command (R106): the one it names, or the first whose window under `lead` has not opened;
moved to that of an earlier command of the flow that lies later, with DEFERRED. None where the window has opened. -/
def State.effectAt (s : State) (n mu lead : Nat) (named : Option Nat) : Option (Nat × Nat) :=
  let base : Option Nat := match named with
    | some a => if s.windowOpen a lead then none else some a
    | none => some (s.firstEffect mu lead)
  match base, (tget (fun _ => []) s.flowFx n).getLast? with
  | some a, some x => if ahead x.at_ a < 0 then some (x.at_, 4) else some (a, 0)
  | some a, none => some (a, 0)
  | none, _ => none

/-- An effect of a flow waits for its symbol. -/
def State.addFx (s : State) (n : Nat) (x : FlowFx) : State :=
  { s with flowFx := tset (fun _ => []) s.flowFx n (tget (fun _ => []) s.flowFx n ++ [x]) }

/-- The solver records of the standalone radio record that wait for a flow take effect when it opens, unless R191 refuses
them (Table 164). -/
def State.takeDueSolver (s : State) (n : Nat) : State :=
  let due := s.boot.solvDue.filter fun e => e.1 == n
  let s := s.mapBoot fun b => { b with solvDue := b.solvDue.filter fun e => !(e.1 == n) }
  due.foldl (fun s e =>
    let r := solverArg e.2
    if (s.solverBad r).isNone && s.solverRefusal r == St.OK then s.setSolver r else s) s

/-- R103 to R106: open a flow. Its counters are cleared when the command is accepted, so that sections accepted ahead of the effect
symbol count; R102 does not say at which of the two instants (DESIGN CHOICE, log 17). -/
def execFlowOpen (c : Cmd) (p : List Byte) (s : State) : Host.Outcome State Fault Refusal :=
  let n := arg p 0x10 1
  let host := fromHost c.route
  let f : Flow := if host then flowArg p else { flowArg p with owner := (s.flow n).owner }
  .next (s.command (.flowOpen c p) c 0x10
    (fun s =>
      { may := host || mayAct (s.flowOwner n) false, shared := s.flowOwner n == 2, bad := s.flowBad p f host c.timed
        halves := [f.half], doms := [(f.half, 6)] })
    fun s =>
      if (s.flowLast n).state ≠ 0 then s.refuse c 0x10 St.IN_USE 0
      else if f.dir ≤ 1 ∧ (s.flowCarrier f).isNone then s.refuse c 0x10 St.NOT_READY 0
      else if s.actCount f.half = 0 then s.refuse c 0x10 St.HALF_DOWN 0
      else
        let st := s.flowRefusal n f
        if st ≠ St.OK then s.refuse c 0x10 st 0
        else match s.effectAt n (s.flowMu f) f.lead (if c.timed then some (countOf (s.flowMu f) (argSym p 0x30)) else none) with
          | none => s.refuse c 0x10 St.TOO_LATE 0x30
          | some (a, fl) =>
            let s := s.mapFlow n fun x => x.keepCounts Flow.reset
            ((s.addFx n ⟨a, some f⟩).takeDueSolver n).doneAt c 0x10 (s.flowMu f) a fl)

/-- R105, R106, R440: change LAYERS, COMP, LEAD, RSV_RATE, PRIO and SHEDDABLE of an OPEN flow; the host also OWNER. Where a
change of LEAD names its symbol, R106 does not say which LEAD judges TOO_LATE: the old one does (DESIGN CHOICE, log 17). -/
def execFlowModify (c : Cmd) (p : List Byte) (s : State) : Host.Outcome State Fault Refusal :=
  let n := arg p 0x10 1
  let host := fromHost c.route
  let x := flowArg p
  .next (s.command (.flowModify c p) c 0x11
    (fun s =>
      let old := s.flowLast n
      let moved (b : Bool) : Bool := old.state == 1 && b
      { may := mayAct (s.flowOwner n) host, shared := s.flowOwner n == 2
        bad := (s.flowBad p x host c.timed).orElse fun _ => firstBad [(moved (!(x.dir == old.dir) || !(x.half == old.half)), 0x12),
          (moved (decide (old.dir ≤ 1) && !(x.carrier == old.carrier)), 0x14)]
        halves := [old.half], doms := [(old.half, 6)] })
    fun s =>
      let old := s.flowLast n
      let f : Flow := { old with layers := x.layers, comp := x.comp, lead := x.lead, rsv := x.rsv, prio := x.prio
                                 sheddable := x.sheddable, owner := if host then x.owner else old.owner }
      if old.state ≠ 1 then s.refuse c 0x11 St.NOT_READY 0
      else
        let st := s.flowRefusal n f
        if st ≠ St.OK then s.refuse c 0x11 st 0
        else
          let mu := s.flowMu f
          let named := if c.timed then some (countOf mu (argSym p 0x30)) else none
          match s.effectAt n mu (if c.timed then old.lead else max old.lead f.lead) named with
          | none => s.refuse c 0x11 St.TOO_LATE 0x30
          | some (a, fl) => (s.addFx n ⟨a, some f⟩).doneAt c 0x11 mu a fl)

/-- R105, R106, R440: close a flow in OPEN or SHED; it is CLOSING until its effect symbol. -/
def execFlowClose (c : Cmd) (p : List Byte) (s : State) : Host.Outcome State Fault Refusal :=
  let n := arg p 0x10 1
  .next (s.command (.flowClose c p) c 0x12
    (fun s =>
      let f := s.flowLast n
      { may := mayAct (s.flowOwner n) (fromHost c.route), shared := s.flowOwner n == 2
        bad := firstBad [(c.timed && decide (1 ≤ f.state) && !stampOk (s.flowMu f) (argSym p 0x30), 0x30)]
        halves := [f.half], doms := [(f.half, 6)] })
    fun s =>
      let f := s.flowLast n
      let mu := s.flowMu f
      if f.state = 0 ∨ f.state = 3 then s.refuse c 0x12 St.NOT_READY 0
      else match s.effectAt n mu f.lead (if c.timed then some (countOf mu (argSym p 0x30)) else none) with
        | none => s.refuse c 0x12 St.TOO_LATE 0x30
        | some (a, fl) =>
          let closing (x : FlowFx) : FlowFx := match x.ctx with
            | some g => { x with ctx := some { g with state := 3 } }
            | none => x
          let s : State := { s with flowFx := tset (fun _ => []) s.flowFx n ((tget (fun _ => []) s.flowFx n).map closing) }
          let s := if (s.flow n).state = 0 then s else s.setFlow n { s.flow n with state := 3 }
          (s.addFx n ⟨a, none⟩).doneAt c 0x12 mu a fl)

/-- R102: a flow's context. -/
def execFlowQuery (c : Cmd) (p : List Byte) (s : State) : Host.Outcome State Fault Refusal :=
  let n := arg p 0x10 1
  .next (s.command (.flowQuery c p) c 0x13 (fun s => { need := 32, halves := [(s.flow n).half] }) fun s =>
    s.complete c 0x13 St.OK { data := (s.flow n).bytes n })

/-! ## Lanes -/

/-- R73, R440: a planned relay of OLD to NEW; it completes when the relay does. -/
def execLaneRelay (c : Cmd) (p : List Byte) (s : State) : Host.Outcome State Fault Refusal :=
  let old := arg p 0x10 1
  let new := arg p 0x11 1
  let h := old / 5
  .next (s.command (.laneRelay c p) c 0x14
    (fun _ => { bad := firstBad [(decide (9 < old), 0x10), (decide (9 < new) || !(new / 5 == h), 0x11)], halves := [h]
                doms := [(h, 6)] })
    fun s =>
      if s.laneState old ≠ 5 ∨ s.laneState new ≠ 4 then s.refuse c 0x14 St.NOT_READY 0
      else if (s.link h).out.any fun b => b.op == 2 && (b.new == new || b.old == old) then s.refuse c 0x14 St.BUSY 0
      else (s.startRelay h old new (s.raw (Rg.LANE_STAT_POS old)) 4).beginLong c 0x14 (.relay h))

/-- R82, R83, R440: the test and control fields of a lane; refused in any part, it changes nothing. -/
def execLaneTest (c : Cmd) (p : List Byte) (s : State) : Host.Outcome State Fault Refusal :=
  let n := arg p 0x10 1
  let v := BitVec.ofNat 32 (arg p 0x14 4)
  let inj := BitVec.ofNat 32 (arg p 0x18 4)
  .next (s.command (.laneTest c p) c 0x15
    (fun _ =>
      { bad := firstBad [(decide (9 < n), 0x10),
          (decide (16 < fget v 3 5) || decide (fget v 8 7 < 32) || decide (64 < fget v 8 7) || decide (24 < fget v 15 5)
            || decide (5 < fget v 20 4), 0x14),
          (fget inj 6 2 == 3, 0x18)]
        halves := [n / 5], doms := [(n / 5, 6)] })
    fun s =>
      if s.ctlRefused n v then s.refuse c 0x15 St.IN_USE 0
      else
        let s := s.applyCtl n v
        let off := 0x1804 + 0x40 * n
        let s := s.setReg off (fset (s.reg off) 1 8 (fget inj 1 8))
        let s := if bitOf inj 0 then s.inject n else s
        s.complete c 0x15 St.OK { r0 := (s.reg (0x1808 + 0x40 * n)).toNat })

end Sys2Proof.Machine
end

