-- ==== Sys2Proof/Machine/CmdRadio.lean ====
section
/-! DEFINITION. Commands on carriers, beams, solvers, predistortion, heats, hop tables and the front end (Table 118, 0x20 to
0x32, 0x60, 0x61). -/

namespace Sys2Proof.Machine

/-! ## Carriers and filters -/

/-- R131, R132. -/
def execDlCarrierSet (c : Cmd) (p : List Byte) (s : State) : Host.Outcome State Fault Refusal :=
  let r := dlArg p
  .next (s.command (.dlCarrierSet c p) c 0x20 (fun s => { bad := s.dlBad r }) fun s =>
    if s.dlInUse r then s.refuse c 0x20 St.IN_USE 0 else (s.setDl r).doneAt c 0x20 r.scs (s.slotAfter r.scs) 0)

/-- R154, R155. -/
def execUlCarrierSet (c : Cmd) (p : List Byte) (s : State) : Host.Outcome State Fault Refusal :=
  let r := ulArg p
  .next (s.command (.ulCarrierSet c p) c 0x21 (fun s => { bad := s.ulBad r }) fun s =>
    if s.ulInUse r then s.refuse c 0x21 St.IN_USE 0 else (s.setUl r).doneAt c 0x21 r.scs (s.slotAfter r.scs) 0)

/-- R167: a swap of an uplink carrier's filter banks at a tick. -/
def execUlFilterSwap (c : Cmd) (p : List Byte) (s : State) : Host.Outcome State Fault Refusal :=
  let k := arg p 0x10 1 % 4
  .next (s.command (.ulFilterSwap c p) c 0x22
    (fun s => { bad := firstBad [(!stampOk (s.ul k).scs (argStamp p 0x14), 0x14)] })
    fun s =>
      let at_ := countOf (s.ul k).scs (argStamp p 0x14)
      if (s.filtOf k).loading ≠ [] then s.refuse c 0x22 St.NOT_READY 0
      else if ahead s.time.count at_ < 64 then s.refuse c 0x22 St.TOO_LATE 0x14
      else if (s.filtOf k).swapAt.isSome then s.refuse c 0x22 St.BUSY 0
      else (s.mapFilt k fun f => { f with swapAt := some at_ }).done c 0x22)

/-- The 96 coefficients of a load: 18 bits each, 17 of them fractional. -/
def filterArg (d : List Byte) : List Int :=
  (List.range 96).map fun i => (BitVec.ofNat 18 (leNat (fitBytes 4 (d.drop (4 * i))))).toInt

/-- R166, R167: coefficients into the bank out of service; the load is complete a tick later (log 75). -/
def execFilterLoad (c : Cmd) (p d : List Byte) (s : State) : Host.Outcome State Fault Refusal :=
  let k := arg p 0x10 1
  .next (s.command (.filterLoad c p d) c 0x61 (fun _ => { bad := firstBad [(decide (3 < k), 0x10)], need := 384 }) fun s =>
    if (s.filtOf k).swapAt.isSome then s.refuse c 0x61 St.BUSY 0
    else (s.mapFilt k fun f => { f with loading := f.loading ++ [filterArg d] }).beginLong c 0x61 (.filter k))

/-! ## Beam table -/

/-- The ARRAY domains of both halves, whose shares of the beam table a command uses (Table 126). -/
def arrayDoms : List (Nat × Nat) := [(0, 0), (1, 0)]

/-- The 64 weights of an entry's 256 bytes (Table 48). -/
def weightArg (d : List Byte) : List Cplx := cplxOfBytes (fitBytes 256 d)

/-- R183, R184, R186: one entry; `lost` names a half whose staging row shows a parity error before the completion (R188). -/
def execBeamLoad (c : Cmd) (p d : List Byte) (lost : Option Half) (s : State) : Host.Outcome State Fault Refusal :=
  let id := arg p 0x10 2
  .next (s.command (.beamLoad c p d lost) c 0x23
    (fun s =>
      { may := mayAct (s.beamOwner id) (fromHost c.route), shared := s.beamOwner id == 2
        bad := firstBad [(decide (8191 < id), 0x10), (c.timed && !stampOk s.muRef (argStamp p 0x14), 0x14)]
        need := 256, doms := arrayDoms })
    fun s =>
      let at_ := if c.timed then some (countOf s.muRef (argStamp p 0x14)) else none
      let why := s.loadRefusal (fromHost c.route) id at_ true
      if why ≠ St.OK then s.refuse c 0x23 why (if why = St.TOO_LATE then 0x14 else 0)
      else
        let (eff, s) := s.acceptLoad id (weightArg d) at_
        let s := s.d2dPush (recvHalf c.route) .table 1024
        match lost, (s.beam id).load with
        | some h, some l => (s.stageFault h.val (if h = 0 then l.row0 else l.row1)).refuse c 0x23 St.NOT_READY 0
        | _, _ => s.doneAt c 0x23 s.muRef eff 0)

/-- R185 to R187: consecutive entries, one by one; it waits while a staging pool is empty, and behind bulk loads that wait. A
baseband request for its first entry in the same cycle wins if the entry is SHARED. -/
def execBeamBulk (c : Cmd) (p d : List Byte) (s : State) : Host.Outcome State Fault Refusal :=
  let first := arg p 0x10 2
  let n := arg p 0x12 2
  .next (s.command (.beamBulk c p d) c 0x60
    (fun s =>
      { shared := s.beamOwner first == 2
        bad := firstBad [(decide (8191 < first), 0x10), (n == 0 || decide (8192 < first + n), 0x12)], need := 256 * n
        doms := arrayDoms })
    fun s =>
      let l := (List.range n).map fun i => weightArg (d.drop (256 * i))
      let b : BulkSt := { cmd := c, next := first, accepted := 0, left := l }
      if s.bulk = [] then State.bulkRun (n + 1) { s with bulk := [b] } else { s with bulk := s.bulk ++ [b] })

/-- R187: an entry's content in effect, with its state and owner. -/
def execBeamRead (c : Cmd) (p : List Byte) (s : State) : Host.Outcome State Fault Refusal :=
  let id := arg p 0x10 2
  .next (s.command (.beamRead c p) c 0x24
    (fun s =>
      { may := mayAct (s.beamOwner id) (fromHost c.route), shared := s.beamOwner id == 2
        bad := firstBad [(decide (8191 < id), 0x10)], need := 256, doms := arrayDoms })
    fun s => s.complete c 0x24 St.OK { r0 := s.beamState id + 4 * s.beamOwner id, data := s.beamBytes id })

/-- R187: the owner of a range of entries, changed at one instant. -/
def execBeamOwner (c : Cmd) (p : List Byte) (s : State) : Host.Outcome State Fault Refusal :=
  let first := arg p 0x10 2
  let n := arg p 0x12 2
  let o := arg p 0x14 1
  .next (s.command (.beamOwner c p) c 0x25
    (fun _ => { bad := firstBad [(decide (8191 < first), 0x10), (n == 0 || decide (8192 < first + n), 0x12), (decide (2 < o), 0x14)] })
    fun s => ((List.range n).foldl (fun s i => s.mapBeam (first + i) fun e => { e with owner := some o }) s).done c 0x25)

/-! ## Solver -/

/-- R190, R191. -/
def execSolverSet (c : Cmd) (p : List Byte) (s : State) : Host.Outcome State Fault Refusal :=
  let r := solverArg p
  .next (s.command (.solverSet c p) c 0x26
    (fun s =>
      { may := mayAct (s.flowOwner r.flow) (fromHost c.route), shared := s.flowOwner r.flow == 2, bad := s.solverBad r })
    fun s =>
      let st := s.solverRefusal r
      if st ≠ St.OK then s.refuse c 0x26 st 0 else (s.setSolver r).done c 0x26)

/-! ## Predistortion and calibration -/

/-- R212, R213. -/
def execDpdPathSet (c : Cmd) (p : List Byte) (s : State) : Host.Outcome State Fault Refusal :=
  let r := dpdArg p
  .next (s.command (.dpdPathSet c p) c 0x27 (fun _ => { bad := dpdBad r, halves := [r.path / 32] }) fun s =>
    (s.setDpdRec r).done c 0x27)

/-- R214: a coefficient bank. -/
def execDpdRead (c : Cmd) (p : List Byte) (s : State) : Host.Outcome State Fault Refusal :=
  let q := arg p 0x10 1
  .next (s.command (.dpdRead c p) c 0x28
    (fun _ => { bad := firstBad [(decide (63 < q), 0x10), (decide (1 < arg p 0x11 1), 0x11)], need := 448, halves := [q / 32] })
    fun s =>
      let d := s.dpdOf q
      s.complete c 0x28 St.OK { data := (if arg p 0x11 1 = 0 then d.a else d.b).bytes })

/-- R232: estimation resumes on the halted paths of a mask; which they were is the result. -/
def execDpdResume (c : Cmd) (p : List Byte) (s : State) : Host.Outcome State Fault Refusal :=
  let ps := maskList 64 (arg p 0x10 8)
  .next (s.command (.dpdResume c p) c 0x29 (fun _ => { halves := ps.map (· / 32) }) fun s =>
    let l := ps.filter fun q => (s.dpdOf q).halted
    let s := l.foldl (fun s q => s.mapDpd q fun d => { d with halted := false, reverts := 0 }) s
    let s := ps.foldl (fun s q => s.acquire q) s
    let m := maskNat 64 (l.contains ·)
    s.complete c 0x29 St.OK { r0 := m % 2 ^ 32, r1 := m / 2 ^ 32 })

/-- A marked group that can be heated: it has a hop entry in use and a synthesiser (R440). -/
def State.canHeat (s : State) (g : Nat) : Bool := (s.group g).entry.isSome && (s.loOf g).isSome

/-- R250, R251, R440: a full or a short heat of every marked group in service that can be heated. -/
def execHeatRun (c : Cmd) (p : List Byte) (s : State) : Host.Outcome State Fault Refusal :=
  let kind := arg p 0x11 1
  .next (s.command (.heatRun c p) c 0x2A
    (fun s =>
      let gs := (maskList 8 (arg p 0x10 1)).filter s.groupIn
      { bad := firstBad [(gs == [], 0x10), (decide (1 < kind), 0x11)], halves := gs.map (· / 4), doms := groupDoms gs })
    fun s =>
      let gs := (maskList 8 (arg p 0x10 1)).filter s.groupIn
      let go := gs.filter s.canHeat
      if gs.any s.inHeatRun then s.refuse c 0x2A St.BUSY 0
      else if go = [] then s.done c 0x2A
      else
        let s := go.foldl (fun s g => s.requireHeat g (if kind = 0 ∨ (s.group g).drift then 2 else 1) 2) s
        s.beginLong c 0x2A (.heat (maskNat 8 (go.contains ·)) 0))

/-- R445: a path's entry of Table 123. -/
def execCalRead (c : Cmd) (p : List Byte) (s : State) : Host.Outcome State Fault Refusal :=
  let q := arg p 0x10 1
  .next (s.command (.calRead c p) c 0x2B
    (fun _ => { bad := firstBad [(decide (63 < q), 0x10)], need := 496, halves := [q / 32] })
    fun s => s.complete c 0x2B St.OK { data := s.pathEntry q })

/-! ## Hop tables -/

/-- R275. -/
def execHopLoad (c : Cmd) (p : List Byte) (s : State) : Host.Outcome State Fault Refusal :=
  let e := arg p 0x10 1
  let khz := arg p 0x14 4 % 2 ^ 23
  .next (s.command (.hopLoad c p) c 0x2C
    (fun _ => { bad := firstBad [(decide (63 < e), 0x10), (freqBad khz, 0x14)] })
    fun s => if s.hopInUse e then s.refuse c 0x2C St.IN_USE 0 else (s.setHop e khz (argB p 0x18 0)).done c 0x2C)

/-- R275. -/
def execHopRead (c : Cmd) (p : List Byte) (s : State) : Host.Outcome State Fault Refusal :=
  let e := arg p 0x10 1
  let n := arg p 0x11 1
  .next (s.command (.hopRead c p) c 0x2D
    (fun _ => { bad := firstBad [(decide (63 < e), 0x10), (decide (9 < n), 0x11)], need := 16, halves := [n / 5] })
    fun s => s.complete c 0x2D St.OK { data := s.hopBytes n e })

/-- The entry is VALID in the synthesiser of every group of a list. -/
def State.hopValid (s : State) (gs : List Nat) (e : Nat) : Bool :=
  gs.all fun g => (s.hop ((s.loOf g).getD (defUnit g)) e).valid

/-- R276, R440: a hop of the masked groups at an effect time; it completes when it takes effect. -/
def execLoHop (c : Cmd) (p : List Byte) (s : State) : Host.Outcome State Fault Refusal :=
  let e := arg p 0x11 1
  .next (s.command (.loHop c p) c 0x2E
    (fun s =>
      let gs := (maskList 8 (arg p 0x10 1)).filter s.groupIn
      { bad := firstBad [(decide (63 < e) || !s.hopValid gs e, 0x11), (gs == [], 0x10), (!stampOk s.muRef (argStamp p 0x14), 0x14)]
        halves := gs.map (· / 4), doms := groupDoms gs })
    fun s =>
      let gs := (maskList 8 (arg p 0x10 1)).filter s.groupIn
      let at_ := countOf s.muRef (argStamp p 0x14)
      if !s.openFlows.isEmpty ∧ s.groupsIn.any (fun g => !gs.contains g) then s.refuse c 0x2E St.IN_USE 0
      else if !atLeastUs (ahead s.time.count at_) 100 then s.refuse c 0x2E St.TOO_LATE 0x14
      else if gs.any fun g => (s.group g).hop.isSome then s.refuse c 0x2E St.BUSY 0
      else
        let s := gs.foldl (fun s g => s.mapGroup g fun x => { x with hop := some (e, at_), deferred := false }) s
        s.beginLong c 0x2E (.hop (maskNat 8 (gs.contains ·)) e))

/-! ## Front end -/

/-- R293, R295. -/
def execFeSchedSet (c : Cmd) (p d : List Byte) (s : State) : Host.Outcome State Fault Refusal :=
  let x := schedArg d
  .next (s.command (.feSchedSet c p d) c 0x30
    (fun s => { bad := firstBad [(s.schedBad x, 0x08)], need := schedLen d })
    fun s =>
      if s.schedLate x then s.refuse c 0x30 St.TOO_LATE 0x08 else (s.setSched x).doneAt c 0x30 x.muRef (schedAt x) 0)

/-- R306. -/
def execRffeScriptLoad (c : Cmd) (p d : List Byte) (s : State) : Host.Outcome State Fault Refusal :=
  let bus := arg p 0x10 1
  let first := arg p 0x11 1
  let n := arg p 0x12 1
  let l := scriptArgs n d
  .next (s.command (.rffeScriptLoad c p d) c 0x31
    (fun _ =>
      { bad := firstBad [(decide (7 < bus), 0x10), (decide (127 < first), 0x11), (n == 0 || decide (128 < first + n), 0x12),
          (l.any (fun e => e.anchor == 7), 0x08)]
        need := 8 * n, halves := [bus / 4] })
    fun s => if s.scriptOver bus first l then s.refuse c 0x31 St.CAPACITY 0 else (s.putScript bus first l).done c 0x31)

/-- Sequences of Table 77, rows from 0, that read, and the bytes they move: one, or the byte count. -/
def seqReads (q : Nat) : Bool := q == 2 || q == 4 || q == 6

/-- Bytes that a sequence of Table 77 moves. -/
def seqBytes (q n : Nat) : Nat := if q = 3 ∨ q = 4 ∨ q = 5 ∨ q = 6 then n else 1

/-- A byte count outside a sequence's range. -/
def seqBad (q n : Nat) : Bool :=
  if q = 3 ∨ q = 4 then n == 0 || decide (16 < n) else if q = 5 ∨ q = 6 then n == 0 || decide (8 < n) else false

/-- R307: an immediate transaction; with RETUNE the group is held from its next decision instant, and a short heat follows. -/
def execRffeXfer (c : Cmd) (p : List Byte) (fails : Fin 4) (got : List Byte) (s : State) : Host.Outcome State Fault Refusal :=
  let bus := arg p 0x10 1
  let usid := arg p 0x11 1
  let q := arg p 0x12 1
  let n := seqBytes q (arg p 0x16 1)
  let reads := seqReads q
  .next (s.command (.rffeXfer c p fails got) c 0x32
    (fun _ =>
      { bad := firstBad [(decide (7 < bus), 0x10), (decide (15 < usid) || (reads && usid == 0), 0x11), (decide (7 < q), 0x12),
          (seqBad q (arg p 0x16 1), 0x16)]
        need := if reads then n else 0, halves := [bus / 4], doms := groupDoms [bus] })
    fun s =>
      let w := (argBytes p 0x18 16).map (·.toNat)
      let out := if reads then [] else if q = 0 then [nth w 0 0 % 128] else if q = 7 then [arg p 0x17 1, nth w 0 0] else w.take n
      let s := s.emit (.rffe bus usid q (arg p 0x14 2) out)
      let s := if reads then s.bump (Rg.C_RFFE_PARITY (bus / 4)) fails.val else s
      let s := if argB p 0x13 0 then
          (if s.schedule.isSome then s.updGroup bus fun x => { x with retune := true } else s.requireHeat bus 1 2) else s
      if reads && fails.val == 3 then s.refuse c 0x32 St.RFFE_PARITY 0
      else s.complete c 0x32 St.OK { data := if reads then fitBytes n got else [] })

end Sys2Proof.Machine
end

