-- ==== Sys2Proof/Machine/Bundles.lean ====
section
/-! DEFINITION. The bundles of an engine program as words (Table 82, Table 83), and what the loader refuses of a program
(R322). -/

namespace Sys2Proof.Machine

/-- A bundle as Table 82 lays it out: an arithmetic slot and two move slots; the control bundles by COPC; a long
immediate. -/
inductive Code where
  | normal (opc : Fin 64) (b : Bundle)
  | jmp (c : Ctl) (target : Fin 8192)
  | call (c : Ctl) (target : Fin 8192)
  | ret (c : Ctl)
  | loop (c : Ctl) (target : Fin 8192) (count : Fin 65536)
  | svc (c : Ctl) (n : Fin 256)
  | exit (c : Ctl) (imm : Fin 4294967296)
  | limm (reg : Fin 32) (imm : Fin 4294967296)
deriving DecidableEq, Repr

/-- The `w` bits of a number from bit `lo`. -/
def bits (v lo w : Nat) : Nat := v / 2 ^ lo % 2 ^ w

/-- The `w` bits of a number from bit `lo`, as a bounded number. -/
def bitsFin (v lo n : Nat) (h : 0 < n) : Fin n := ⟨v / 2 ^ lo % n, Nat.mod_lt _ h⟩

/-! ## Move slots -/

/-- A move slot as 16 bits. -/
def encodeMove : Move → Nat
  | .nop => 0
  | .ld d p k => 1 * 8192 + d.val * 512 + p.val * 64 + k.val * 8
  | .st d p k => 2 * 8192 + d.val * 512 + p.val * 64 + k.val * 8
  | .mov d src => 3 * 8192 + d.val * 512 + src.val * 32

/-- A move slot from its 16 bits; none for a reserved MOP or a reserved field that is not 0. A NOP's D, P and K mean
nothing. -/
def decodeMove (v : Nat) : Option Move :=
  let d := bitsFin v 9 16 (by decide)
  let p := bitsFin v 6 8 (by decide)
  let k := bitsFin v 3 8 (by decide)
  match bits v 13 3 with
  | 0 => if bits v 0 3 = 0 then some .nop else none
  | 1 => if bits v 0 3 = 0 then some (.ld d p k) else none
  | 2 => if bits v 0 3 = 0 then some (.st d p k) else none
  | 3 => if bits v 0 5 = 0 then some (.mov d (bitsFin v 5 16 (by decide))) else none
  | _ => none

/-! ## Bundles -/

/-- Bits [63:45] of a control bundle, in place. -/
def encodeCtl (copc : Nat) (c : Ctl) : Nat :=
  1 * 2 ^ 62 + copc * 2 ^ 56 + c.cond.val * 2 ^ 52 + c.rc.val * 2 ^ 48

/-- The word of a bundle; fields without a meaning in its form are 0. -/
def encodeBundle : Code → Nat
  | .normal opc b =>
    opc.val * 2 ^ 56 + b2n b.s * 2 ^ 55 + b.rd.val * 2 ^ 51 + b.ra.val * 2 ^ 47 + b.rb.val * 2 ^ 43 + b.sh.val * 2 ^ 38
      + encodeMove b.x * 2 ^ 16 + encodeMove b.y
  | .jmp c t => encodeCtl 1 c + t.val * 2 ^ 32
  | .call c t => encodeCtl 2 c + t.val * 2 ^ 32
  | .ret c => encodeCtl 3 c
  | .loop c t n => encodeCtl 4 c + t.val * 2 ^ 32 + n.val
  | .svc c n => encodeCtl 5 c + n.val
  | .exit c v => encodeCtl 6 c + v.val
  | .limm r v => 2 * 2 ^ 62 + r.val * 2 ^ 57 + v.val

/-- A normal bundle's opcode is one of Table 83. -/
def opcOk (opc : Nat) : Bool := decide (opc ≤ 0x25)

/-- A control bundle from its word. -/
def decodeControl (v : Nat) : Option Code :=
  let c : Ctl := ⟨bitsFin v 52 16 (by decide), bitsFin v 48 16 (by decide), false⟩
  let t := bitsFin v 32 8192 (by decide)
  if 8 ≤ c.cond.val ∨ bits v 45 3 ≠ 0 then none
  else match bits v 56 6 with
    | 1 => some (.jmp c t)
    | 2 => some (.call c t)
    | 3 => some (.ret c)
    | 4 => some (.loop c t (bitsFin v 0 65536 (by decide)))
    | 5 => some (.svc c (bitsFin v 0 256 (by decide)))
    | 6 => some (.exit c (bitsFin v 0 4294967296 (by decide)))
    | _ => none

/-- A bundle from its word; none for a reserved format, opcode or field value, and for a reserved field that is not 0
(log 18). -/
def decodeBundle (v : Nat) : Option Code :=
  match bits v 62 2 with
  | 0 =>
    if !opcOk (bits v 56 6) || !(bits v 32 6 == 0) then none
    else match decodeMove (bits v 16 16), decodeMove (bits v 0 16) with
      | some x, some y =>
        some (.normal (bitsFin v 56 64 (by decide))
          { s := bits v 55 1 == 1, rd := bitsFin v 51 16 (by decide), ra := bitsFin v 47 16 (by decide)
            rb := bitsFin v 43 16 (by decide), sh := bitsFin v 38 32 (by decide), x := x, y := y, diff := false })
      | _, _ => none
  | 1 => decodeControl v
  | 2 => if bits v 32 25 = 0 then some (.limm (bitsFin v 57 32 (by decide)) (bitsFin v 0 4294967296 (by decide))) else none
  | _ => none

/-- What a bundle's word admits: an opcode of Table 83, a COND that is not reserved; a word says nothing of a shadowing spare. -/
def Code.wf : Code → Bool
  | .normal opc b => opcOk opc.val && !b.diff
  | .jmp c _ => decide (c.cond.val < 8) && !c.diff
  | .call c _ => decide (c.cond.val < 8) && !c.diff
  | .ret c => decide (c.cond.val < 8) && !c.diff
  | .loop c _ _ => decide (c.cond.val < 8) && !c.diff
  | .svc c _ => decide (c.cond.val < 8) && !c.diff
  | .exit c _ => decide (c.cond.val < 8) && !c.diff
  | .limm _ _ => true

/-! ## What the loader refuses (R322) -/

/-- The opcode writes an accumulator. -/
def destAc (opc : Nat) : Bool := decide (1 ≤ opc) && decide (opc ≤ 0x0C)

/-- The opcode reads an accumulator as RA. -/
def srcAc (opc : Nat) : Bool := [0x09, 0x0A, 0x0D, 0x0E, 0x0F, 0x1D].contains opc

/-- The opcode writes a D register. -/
def destD (opc : Nat) : Bool := decide (0x0D ≤ opc) && decide (opc ≤ 0x25) && !(opc == 0x22) && !(opc == 0x24)

/-- The D register that a move slot writes. -/
def moveDest : Move → Option Nat
  | .ld d _ _ => some d.val
  | .mov d _ => some d.val
  | _ => none

/-- The pointer that a move slot post-modifies. -/
def movePost : Move → Option Nat
  | .ld _ p _ => some p.val
  | .st _ p _ => some p.val
  | _ => none

/-- Two slots write one thing. -/
def clash (x y : Option Nat) : Bool := x.isSome && x == y

/-- A bundle is refused by itself: an accumulator beyond AC3, two slots that write one D register, both move slots
post-modifying one pointer, a target outside an image of `n` bundles. -/
def codeBad (n : Nat) : Code → Bool
  | .normal opc b =>
    (destAc opc.val && decide (3 < b.rd.val)) || (srcAc opc.val && decide (3 < b.ra.val))
      || clash (moveDest b.x) (moveDest b.y)
      || (destD opc.val && (clash (some b.rd.val) (moveDest b.x) || clash (some b.rd.val) (moveDest b.y)))
      || clash (movePost b.x) (movePost b.y)
  | .jmp _ t => decide (n ≤ t.val)
  | .call _ t => decide (n ≤ t.val)
  | .loop _ t _ => decide (n ≤ t.val)
  | _ => false

/-- The bundle is one of those that a LOOP body does not hold but as a permitted nested LOOP. -/
def isCall : Code → Bool
  | .call _ _ => true
  | .svc _ _ => true
  | _ => false

/-- The last bundle of a LOOP's body. -/
def loopEnd : Code → Option Nat
  | .loop _ t _ => some t.val
  | _ => none

/-- The loops that hold bundle `i`, among those open from the innermost on. -/
def openLoops (i : Nat) (l : List Nat) : List Nat := l.filter fun t => decide (i ≤ t)

/-- A program nests its loops as R322 permits: `l` are the ends of the bodies that hold bundle `i`, the innermost first. -/
def loopsOk (i : Nat) (l : List Nat) : List Code → Bool
  | [] => true
  | c :: r =>
    let l := openLoops i l
    match loopEnd c with
    | some t => decide (l.length < 2) && (l.all fun e => decide (t ≤ e)) && loopsOk (i + 1) (t :: l) r
    | none => !(isCall c && !l.isEmpty) && loopsOk (i + 1) l r

/-- The bundles of a program, if none is reserved. -/
def decodeAll : List Nat → Option (List Code)
  | [] => some []
  | w :: r => match decodeBundle w, decodeAll r with
    | some c, some l => some (c :: l)
    | _, _ => none

/-- A program passes R322. -/
def programOk (ws : List Nat) : Bool :=
  match decodeAll ws with
  | some l => l.all (fun c => !codeBad l.length c) && loopsOk 0 [] l
  | none => false

end Sys2Proof.Machine
end

