-- ==== Sys2Proof/Machine/CmdUnits.lean ====
section
/-! DEFINITION. Commands on bias outputs, monitor channels, user slots, capture contexts, images and the store (Table 118,
0x33 to 0x46, 0x62, 0x63). -/

namespace Sys2Proof.Machine

/-! ## Bias outputs (R380 to R385) -/

/-- A park value lies outside a span. -/
def parkOut (span : Nat) (park : Int) : Bool := decide (park < (spanRange span).1) || decide ((spanRange span).2 < park)

/-- A bias record from its bytes (Table 101); an output without a bias-select ignores PULSE (R22). -/
def biasArg (p : List Byte) : BiasRec :=
  let n := arg p 0x10 2 % 256
  { output := n, span := arg p 0x12 1, drive := argB p 0x13 0, pulse := argB p 0x13 1 && (outputPath n).isSome
    tx := arg p 0x14 2, rx := arg p 0x16 2, park := argS p 0x18 2, slew := arg p 0x1A 2 }

/-- R380: the first field of a bias record at fault. -/
def State.biasBad (s : State) (r : BiasRec) : Option Nat :=
  let b := s.biasOut r.output
  firstBad [(decide (135 < r.output), 0x10),
    (decide (5 < r.span) || (!(b.state == 0) && !(isCurrent r.span == isCurrent b.car.span)), 0x12),
    (parkOut r.span r.park, 0x18)]

/-- The record asks for a range change of a driven output (R385). -/
def rangeChange (b : BiasOut) (r : BiasRec) : Bool := (b.state == 1 || b.state == 2) && r.drive && !(r.span == b.car.span)

/-- The code that an output takes for its bias-select. -/
def State.biasCode (s : State) (r : BiasRec) : Nat :=
  match outputPath r.output with
  | some p => if r.pulse && !(s.fep p).biasTx then r.rx else r.tx
  | none => r.tx

/-- The output is PARKED for its corrupt record alone (Table 136): its path is in service. -/
def State.biasSafe (s : State) (n : Nat) : Bool :=
  s.isSafe 7 n && (s.biasOut n).state == 4 && (match outputPath n with
    | some p => s.pathIn p
    | none => true)

/-- R380, R385, Table 102: a bias record is taken; it ends the safe state that a corrupt record put the output in (R482). -/
def State.setBias (s : State) (r : BiasRec) : State :=
  let n := r.output
  let b := s.biasOut n
  let stays := (s.monOf (outputHalf n)).auxOut || tget (fun _ => false) s.rel.biasDead n
  let safe := s.biasSafe n
  let s := s.clearSafe 7 n
  let now := s.time.now
  if !r.drive then s.mapBias n fun _ => { b with car := r, state := 0, pend := none, returning := 0, ext := false }
  else if rangeChange b r then s.mapBias n fun _ => ({ b with pend := some r }.go now (spanCode b.car.span r.park)).settle now
  else if b.state = 0 ∨ safe then
    if stays then s.mapBias n fun _ => { b with car := r, ext := false }
    else s.mapBias n fun _ => { b with car := r, state := 2, ext := false }.jump (s.biasCode r)
  else if b.state = 1 ∨ b.state = 2 then
    s.mapBias n fun _ => { b.go now (if r.pulse then b.code else r.tx) with car := r, state := 2, ext := false }
  else s.mapBias n fun _ => { b with car := r, ext := false }

/-- R380, R381, R385. -/
def execBiasSet (c : Cmd) (p : List Byte) (s : State) : Host.Outcome State Fault Refusal :=
  let r := biasArg p
  .next (s.command (.biasSet c p) c 0x33
    (fun s =>
      { may := mayAct (s.biasOwner r.output) (fromHost c.route), shared := s.biasOwner r.output == 2, bad := s.biasBad r
        halves := [outputHalf r.output], doms := groupDoms [outputGroup r.output] })
    fun s =>
      let b := s.biasOut r.output
      if b.state = 3 ∨ b.pend.isSome then s.refuse c 0x33 St.BUSY 0
      else if rangeChange b r && (b.twinRet || tget (fun _ => false) s.rel.onTwin r.output) then s.refuse c 0x33 St.NOT_READY 0
      else (s.setBias r).done c 0x33)

/-- R381: the record in force, the state and the readback. -/
def execBiasRead (c : Cmd) (p : List Byte) (s : State) : Host.Outcome State Fault Refusal :=
  let n := arg p 0x10 2
  .next (s.command (.biasRead c p) c 0x34
    (fun s =>
      { may := mayAct (s.biasOwner n) (fromHost c.route), shared := s.biasOwner n == 2, bad := firstBad [(decide (135 < n), 0x10)]
        need := 16, halves := [outputHalf n] })
    fun s =>
      let b := s.biasOut n
      s.complete c 0x34 St.OK { r0 := b.state, r1 := argInt b.readback, data := biasBytes b.car })

/-- R382: the boot record of an output into the store. -/
def execBiasBootStore (c : Cmd) (p : List Byte) (s : State) : Host.Outcome State Fault Refusal :=
  let n := arg p 0x10 2
  let span := arg p 0x12 1
  let h := outputHalf n
  .next (s.command (.biasBootStore c p) c 0x35
    (fun s =>
      { may := mayAct (s.biasOwner n) (fromHost c.route), shared := s.biasOwner n == 2
        bad := firstBad [(decide (135 < n), 0x10), (decide (5 < span), 0x12), (parkOut span (argS p 0x16 2), 0x16)] })
    fun s =>
      let body := leBytes 1 span ++ leBytes 1 (b2n (argB p 0x13 0)) ++ argBytes p 0x14 2 ++ argBytes p 0x16 2 ++ zeros 2
      (s.nvWrite h 0x20 n body).beginLong c 0x35 (.store h 0x20 n))

/-- R381: the owner of a range of outputs, changed at one instant. -/
def execBiasOwner (c : Cmd) (p : List Byte) (s : State) : Host.Outcome State Fault Refusal :=
  let first := arg p 0x10 2
  let n := arg p 0x12 2
  let o := arg p 0x14 1
  .next (s.command (.biasOwner c p) c 0x36
    (fun _ =>
      { bad := firstBad [(decide (135 < first), 0x10), (n == 0 || decide (136 < first + n), 0x12), (decide (2 < o), 0x14)]
        halves := ((List.range n).take 136).map fun i => outputHalf (first + i) })
    fun s => ((List.range n).foldl (fun s i => s.mapBias (first + i) fun b => { b with owner := some o }) s).done c 0x36)

/-! ## Monitor channels (R371, R376) -/

/-- A request joins a half's injected queue. -/
def State.addInj (s : State) (h : Nat) (q : InjReq) : State := s.mapMon h fun m => { m with inj := m.inj ++ [q] }

/-- R371, R372. -/
def execMonInject (c : Cmd) (p : List Byte) (s : State) : Host.Outcome State Fault Refusal :=
  let h := arg p 0x10 1
  let ch := arg p 0x11 1
  .next (s.command (.monInject c p) c 0x37
    (fun s =>
      { bad := firstBad [(decide (1 < h), 0x10), (decide (191 < ch) || (decide (29 ≤ ch) && decide (ch ≤ 31)), 0x11),
          (c.timed && !stampOk s.muRef (argStamp p 0x14), 0x14)]
        halves := [h] })
    fun s =>
      if ch < 26 ∧ !(s.monOf h).noRound ∧ !s.on Rg.CFG_STAT_TEST then s.refuse c 0x37 St.NOT_READY 0
      else if 16 ≤ (s.monOf h).inj.length then s.refuse c 0x37 St.BUSY 0
      else
        let at_ := if c.timed then some (countOf s.muRef (argStamp p 0x14)) else none
        (s.addInj h ⟨ch, at_, 0⟩).beginLong c 0x37 (.inject h ch c.timed))

/-- The external inputs of Table 96. -/
def isExternal (ch : Nat) : Bool := (decide (48 ≤ ch) && decide (ch ≤ 111)) || (decide (180 ≤ ch) && decide (ch ≤ 191))

/-- R376. -/
def execMonTest (c : Cmd) (p : List Byte) (s : State) : Host.Outcome State Fault Refusal :=
  let h := arg p 0x10 1
  let ch := arg p 0x11 1
  .next (s.command (.monTest c p) c 0x38
    (fun _ => { bad := firstBad [(decide (1 < h), 0x10), (!isExternal ch, 0x11)], halves := [h] })
    fun s =>
      if 16 ≤ (s.monOf h).inj.length then s.refuse c 0x38 St.BUSY 0
      else (s.addInj h ⟨ch, none, 2⟩).beginLong c 0x38 (.monTest h ch))

/-! ## User slots (R334, Table 86) -/

/-- The halves of bits 1 and 2 of CTRL. -/
def bindHalves (p : List Byte) : List Nat := maskHalves (arg p 0x11 1 / 2 % 4)

/-- R334. -/
def execSlotBind (c : Cmd) (p : List Byte) (s : State) : Host.Outcome State Fault Refusal :=
  let n := arg p 0x10 1 % 4
  let hs := bindHalves p
  let svc := arg p 0x12 1
  let bind := argB p 0x11 0
  .next (s.command (.slotBind c p) c 0x40
    (fun s =>
      let fits (h : Nat) : Bool := match (s.slotOf h n).img with
        | some i => i.service == svc
        | none => false
      { bad := firstBad [(!s.on Rg.ENG_CFG_USER_EN, 0x10), (hs.isEmpty, 0x11), (!hs.all fits, 0x12),
          (bind && arg p 0x1C 2 == 0, 0x1C)]
        halves := hs })
    fun s =>
      let b : Option EngBind := if bind then some ⟨svc, arg p 0x13 1, arg p 0x14 8, arg p 0x1C 2⟩ else none
      (hs.foldl (fun s h => s.mapSlot h n fun x => { x with bound := b }) s).done c 0x40)

/-! ## Capture contexts (R351 to R358) -/

/-- A capture record from its bytes (Table 90). -/
def captureArg (p : List Byte) : CaptureRec :=
  { ctx := Fin.ofNat 8 (arg p 0x10 1), repeat_ := argB p 0x11 0, excl := argB p 0x11 1, source := arg p 0x12 1
    path := Fin.ofNat 64 (arg p 0x13 1), sel := Fin.ofNat 4 (arg p 0x14 1), trig := arg p 0x15 1, avg := arg p 0x16 1
    dest := arg p 0x17 1, bufLen := arg p 0x18 4, pre := arg p 0x1C 4, post := arg p 0x20 4, count := arg p 0x24 2
    flow := Fin.ofNat 256 (arg p 0x26 1), trigAt := argStamp p 0x28, level := arg p 0x2E 2, period := arg p 0x30 4
    event := arg p 0x34 2 }

/-- The context of a CONTEXT byte. -/
def ctxArg (p : List Byte) : Nat := arg p 0x10 1 % 8

/-- R352: the first field of a capture record at fault. -/
def State.captureBad (s : State) (p : List Byte) : Option Nat :=
  let r := captureArg p
  firstBad [(r.source == 0 || decide (6 < r.source), 0x12),
    (decide (63 < arg p 0x13 1) || !(r.path.val / 32 == r.ctx.val / 4), 0x13),
    (!(r.source == 5) && !(r.sel.val == 0), 0x14), (decide (6 < r.trig), 0x15), (decide (8 < r.avg), 0x16),
    (decide (3 < r.dest), 0x17), (!(r.bufLen % 4096 == 0) || decide (7340032 < r.bufLen), 0x18), (r.post == 0, 0x20),
    (!(r.dest == 3) && !(r.flow.val == 0), 0x26), (r.trig == 1 && !stampOk s.muRef r.trigAt, 0x28),
    (r.trig == 2 && (r.level == 0 || decide (46341 < r.level)), 0x2E)]

/-- The record that a context will have at its next arm. -/
def State.capRec (s : State) (c : Nat) : Option CaptureRec :=
  match (s.capOf c).next with
  | some r => some r
  | none => (s.capOf c).cur

/-- BUF_LEN that a context is given, counting pending values. -/
def State.capBuf (s : State) (c : Nat) : Nat :=
  match s.capRec c with
  | some r => r.bufLen
  | none => 0

/-- Bytes of a half's capture memory for contexts: 7 MiB less the pages that are fenced (R352, R481). -/
def State.capRoom (s : State) (h : Nat) : Nat :=
  7340032 - 4096 * (s.rel.fenced.filter fun e => e.1 == 10 + h).length

/-- Who may command a capture context (R353), with what the common checks need of it. -/
def State.capArgs (s : State) (c : Cmd) (p : List Byte) : CmdArgs :=
  let k := ctxArg p
  { may := mayAct (s.capOwner k) (fromHost c.route), shared := s.capOwner k == 2, halves := [k / 4] }

/-- R352, R353: the record applies from the next arm. -/
def execCaptureSet (c : Cmd) (p : List Byte) (s : State) : Host.Outcome State Fault Refusal :=
  let r := captureArg p
  let k := ctxArg p
  .next (s.command (.captureSet c p) c 0x41 (fun s => { s.capArgs c p with bad := s.captureBad p }) fun s =>
    let others := ((List.range 4).map fun i => if i = k % 4 then 0 else s.capBuf (4 * (k / 4) + i)).sum
    if s.capRoom (k / 4) < others + r.bufLen then s.refuse c 0x41 St.CAPACITY 0
    else (s.mapCap k fun x => { x with next := some r }).done c 0x41)

/-- Write rate of a record in kbit/s (R351). -/
def State.writeRate (s : State) (r : CaptureRec) : Nat := 32 * s.capRate r * (if 0 < r.avg then 2 else 1)

/-- The records armed on a half but for one context's. -/
def State.armedOn (s : State) (h k : Nat) : List CaptureRec :=
  ((List.range 4).filter fun i => !(4 * h + i == k) && !(s.capState (4 * h + i) == 0)).filterMap fun i => (s.capOf (4 * h + i)).cur

/-- The write budget of R351 is exceeded with one more record. -/
def State.overBudget (s : State) (h k : Nat) (r : CaptureRec) : Bool :=
  let l := r :: s.armedOn h k
  let sum := (l.map s.writeRate).sum
  decide ((if l.any (·.excl) then 128000000 else 48000000) < sum)

/-- R358: a record that averages is refused. -/
def State.avgRefusal (s : State) (r : CaptureRec) : Nat :=
  if r.avg = 0 then St.OK
  else if r.trig ≠ 1 ∨ r.period = 0 ∨ r.period * s.capRate r < (r.pre + r.post) * 491520 + 256 * s.capRate r then St.BAD_PARAM
  else
    let d := ahead s.time.count (countOf s.muRef r.trigAt)
    if d * 100 * (s.capRate r : Int) < ((r.pre * 49152000 + 49152 * s.capRate r : Nat) : Int) then St.TOO_LATE else St.OK

/-- R354, R358: the checks of an arm, in their order. -/
def State.armRefusal (s : State) (k : Nat) (r : CaptureRec) : Nat :=
  let w := if 0 < r.avg then 8 else 4
  let f := s.flow r.flow.val
  if r.bufLen < w * r.post ∨ r.bufLen < w * (r.pre + r.post) then St.LEN_RANGE
  else if s.overBudget (k / 4) k r then St.CAPACITY
  else if r.excl ∧ !s.on Rg.CAP_CFG_EXCL_ALLOW then St.BAD_PARAM
  else if r.dest = 3 ∧ ¬ (f.state = 1 ∧ f.dir = 2) then St.BAD_PARAM
  else if !s.pathIn r.path.val || !s.groupRun (r.path.val / 8) || !(s.dom (k / 4) 0 == 0) then St.NOT_READY
  else if s.capState k ≠ 0 then St.BUSY
  else s.avgRefusal r

/-- A context is armed with a record (R355): FILL, its buffer empty. -/
def State.arm (s : State) (k : Nat) (r : CaptureRec) : State :=
  let at_ := s.tickOf (countOf s.muRef r.trigAt)
  (s.mapCap k fun x =>
    { x with trigTick := at_, cur := some r, next := none
             left := if r.repeat_ then (if r.count = 0 then none else some r.count) else some 1
             hold := none, begun := false, off := 0, done := false, stop := false, sums := [], acqs := 0, trunc := false
             preValid := 0, short := false }).setCap k 1

/-- R354, R358; a refused arm counts in ARM_REFUSED (R366). -/
def execCaptureArm (c : Cmd) (p : List Byte) (s : State) : Host.Outcome State Fault Refusal :=
  let k := ctxArg p
  .next (s.command (.captureArm c p) c 0x42 (fun s => s.capArgs c p) fun s =>
    match s.capRec k with
    | none => s.refuse c 0x42 St.NOT_READY 0
    | some r =>
      let st := s.armRefusal k r
      if st ≠ St.OK then (s.bump (Rg.C_ARM_REFUSED (k / 4)) 1).refuse c 0x42 st 0 else (s.arm k r).done c 0x42)

/-- R357, Table 92. -/
def execCaptureStop (c : Cmd) (p : List Byte) (s : State) : Host.Outcome State Fault Refusal :=
  let k := ctxArg p
  .next (s.command (.captureStop c p) c 0x43 (fun s => s.capArgs c p) fun s =>
    let x := s.capOf k
    let s := if s.capState k = 0 then s
      else if s.capState k = 4 ∧ x.begun ∧ !x.done then s.mapCap k fun x => { x with stop := true }
      else s.capIdle k
    s.done c 0x43)

/-- R440: the trigger sample is the one stamped at arrival. -/
def execCaptureTrigger (c : Cmd) (p : List Byte) (s : State) : Host.Outcome State Fault Refusal :=
  let k := ctxArg p
  .next (s.command (.captureTrigger c p) c 0x44 (fun s => s.capArgs c p) fun s =>
    let st := s.capState k
    let trig := match (if st = 0 then s.capRec k else (s.capOf k).cur) with
      | some r => r.trig
      | none => 0
    if trig ≠ 5 then s.refuse c 0x44 St.BAD_PARAM 0x10
    else if st = 0 then s.refuse c 0x44 St.NOT_READY 0
    else if st = 3 ∨ st = 4 then (s.capTrigger k).done c 0x44
    else (s.capTrigger k).doneAt c 0x44 s.muRef s.time.count 0)

/-- R440: the record of a context with DEST HOLD, which is released; `par` says a byte failed its parity (R360). -/
def execCaptureRead (c : Cmd) (p : List Byte) (par : Bool) (s : State) : Host.Outcome State Fault Refusal :=
  let k := ctxArg p
  .next (s.command (.captureRead c p par) c 0x45 (fun s => s.capArgs c p) fun s =>
    match s.capRec k with
    | none => s.refuse c 0x45 St.NOT_READY 0
    | some r =>
      let dest := match (if s.capState k = 0 then none else (s.capOf k).cur) with
        | some x => x.dest
        | none => r.dest
      if dest ≠ 0 then s.refuse c 0x45 St.BAD_PARAM 0x10
      else match (if s.capState k = 4 then (s.capOf k).hold else none) with
        | none => s.refuse c 0x45 St.NOT_READY 0
        | some rec =>
          let b := rec.bytes par
          if c.dlen < b.length then s.refuse c 0x45 St.LEN_RANGE 0x04
          else
            let s := if par then s.bump (Rg.C_CAP_PARITY (k / 4)) 1 else s
            ((s.capDone k).capNext k).complete c 0x45 St.OK { r0 := rec.number, data := b })

/-- R353. -/
def execCaptureOwner (c : Cmd) (p : List Byte) (s : State) : Host.Outcome State Fault Refusal :=
  let k := ctxArg p
  let o := arg p 0x11 1
  .next (s.command (.captureOwner c p) c 0x46
    (fun _ => { bad := firstBad [(decide (2 < o), 0x11)], halves := [k / 4] })
    fun s => (s.mapCap k fun x => { x with owner := some o }).done c 0x46)

/-! ## Images (R330 to R333) -/

/-- Bytes of an image as its header gives them (Table 85). -/
def imgLen (l : List Byte) : Nat := 0x40 + 8 * imgField l 0x0C 2 + imgField l 0x10 4 + imgField l 0x14 4

/-- The image is a user slot's. -/
def imgUser (l : List Byte) : Bool := imgField l 6 1 == 1

/-- Services that an image may call, by its KIND and SERVICE (Table 84). -/
def svcAllowed (user : Bool) (service : Nat) : List Nat :=
  if user then
    [0x01, 0x02, 0x03, 0x04, 0x0A, 0x0B]
      ++ (if service = 1 then [0x05, 0x06] else if service = 2 then [0x07, 0x08] else if service = 3 then [0x09] else [])
  else [0x01, 0x02, 0x03, 0x04, 0x05, 0x06, 0x07, 0x08, 0x09, 0x0A, 0x0C, 0x0D]

/-- A window of a user image: a power of two from 1 KiB to 32 KiB. -/
def windowOk (n : Nat) : Bool := [1024, 2048, 4096, 8192, 16384, 32768].contains n

/-- An image passes R330 and R331; `fw` is the installed firmware version. Vendor data fits the vendor's part of X and Y
(Table 81). -/
def imageOk (fw : Nat) (l : List Byte) : Bool :=
  let user := imgUser l
  let n := imgField l 0x0C 2
  let svc := imgField l 7 1
  let x := imgField l 0x10 4
  let y := imgField l 0x14 4
  let xw := imgField l 0x18 4
  let yw := imgField l 0x1C 4
  decide (0x40 ≤ l.length) && decide (imgLen l ≤ l.length)
    && (imgField l 0 4 == 0x524C445A) && (imgField l 4 2 == 1) && decide (imgField l 6 1 ≤ 1)
    && (imgField l 0x3C 4 == crc32 (l.take 0x3C ++ (l.take (imgLen l)).drop 0x40))
    && (if user then decide (1 ≤ svc) && decide (svc ≤ 3) && decide (64 ≤ n) && decide (n ≤ 2048) && (n % 64 == 0)
          && windowOk xw && windowOk yw && decide (x ≤ xw) && decide (y ≤ yw) && decide (imgField l 8 4 ≤ fw)
        else (svc == 0) && decide (1 ≤ n) && decide (n ≤ 6144) && (xw == 0) && (yw == 0) && decide (x ≤ 0x14000)
          && decide (y ≤ 0x14000))
    && decide (imgField l 0x0E 2 < n)
    && ((maskList 32 (imgField l 0x20 4)).all (svcAllowed user svc).contains)
    && programOk (imgBundles l)

/-- The user images of a half but for a slot's, those being written included: bundles, X windows, Y windows. -/
def State.slotUse (s : State) (h slot : Nat) : Nat × Nat × Nat :=
  let l := ((List.range 4).filter fun n => !(n == slot)).filterMap fun n =>
    match s.imgLoads.find? fun x => x.slot == n && (maskHalves x.halves).contains h with
    | some x => some (imgOf x.bytes)
    | none => (s.slotOf h n).img
  ((l.map (·.n)).sum, (l.map (·.xwin)).sum, (l.map (·.ywin)).sum)

/-- R331: a user image finds no room on a half. -/
def State.noRoom (s : State) (h slot : Nat) (l : List Byte) : Bool :=
  let (n, x, y) := s.slotUse h slot
  let i := imgOf l
  decide (2048 < n + i.n) || decide (49152 < x + i.xwin) || decide (49152 < y + i.ywin)

/-- R331 to R333: the checks, then the writing begins; vendor firmware after the set-up lock goes to the store. -/
def execImageLoad (c : Cmd) (p d : List Byte) (s : State) : Host.Outcome State Fault Refusal :=
  let hm := arg p 0x10 1 % 4
  let hs := maskHalves hm
  let user := imgUser d
  let slot := if user then arg p 0x11 1 else 0xFF
  .next (s.command (.imageLoad c p d) c 0x62
    (fun _ =>
      { bad := firstBad [(hm == 0, 0x10), (user && decide (3 < slot), 0x11)], need := 0x40, doms := hs.map fun h => (h, 1) })
    fun s =>
      if !imageOk (s.raw Rg.ENG_FWVER_FW_VERSION) d then s.refuse c 0x62 St.BAD_IMAGE 0
      else if user && hs.any (fun h => s.noRoom h slot d) then s.refuse c 0x62 St.CAPACITY 0
      else if s.imgLoads.any fun x => x.slot == slot && hs.any (maskHalves x.halves).contains then s.refuse c 0x62 St.BUSY 0
      else
        let d := d.take (imgLen d)
        let s := { s with imgLoads := s.imgLoads ++ [(⟨hm, slot, d⟩ : ImgLoad)] }
        let s := if !user && s.locked then s.nvWriteTo (hs.headD 0) (hs.map fun h => (h, 0)) 0x40 0 d else s
        s.beginLong c 0x62 (.image hm slot))

/-! ## The store (R521, R543) -/

/-- Owner codes of a byte: those of its 2-bit fields. -/
def pairsOk (b : Byte) : Bool := (List.range 4).all fun i => !(b.toNat / 4 ^ i % 4 == 3)

/-- A set-up register pair (Table 163) is at fault. -/
def pairBad (b : List Byte) : Bool :=
  let off := leNat (b.take 4)
  !(off % 4 == 0) || decide (off < 0x0800) || decide (0x25BF < off)

/-- LEN that the TAG of a standalone item asks for; none for a reserved TAG (Table 164). -/
def itemLen (tag : Nat) (body : List Byte) : Option Nat :=
  match tag with
  | 1 => some 36
  | 2 => some 36
  | 3 => some (4 + schedLen body)
  | 4 => some 24
  | 5 => some 8
  | 6 => some 36
  | 7 => some 36
  | 8 => some (8 + 8 * leNat ((body.drop 2).take 1))
  | 9 => some 8
  | 10 => some 16
  | _ => none

/-- A field of an item breaks Table 164. -/
def itemBad (tag : Nat) (b : List Byte) : Bool :=
  let f (i : Nat) : Nat := leNat ((b.drop i).take 1)
  match tag with
  | 4 => decide (63 < f 0)
  | 5 => decide (63 < f 1)
  | 8 => decide (7 < f 0) || decide (127 < f 1) || f 2 == 0 || decide (128 < f 1 + f 2)
  | 9 => classBad (f 0)
  | 10 => !(f 2 == 1 || f 2 == 2)
  | _ => false

/-- The items of a standalone radio body, tag and body each: none if they do not fill it exactly. `n` bounds their number. -/
def radioItems : Nat → List Byte → Option (List (Nat × List Byte))
  | _, [] => some []
  | 0, _ => none
  | n + 1, l =>
    let len := leNat ((l.drop 2).take 2)
    if l.length < 4 ∨ len < 4 ∨ len % 4 ≠ 0 ∨ l.length < len then none
    else (radioItems n (l.drop len)).map fun r => (leNat (l.take 2), (l.take len).drop 4) :: r

/-- A standalone radio body is refused: BAD_PARAM for a reserved TAG or a bad field, LEN_RANGE for a LEN that does not match
or items that do not fill it. -/
def radioRefusal (l : List Byte) : Nat :=
  match radioItems (l.length + 1) l with
  | none => St.LEN_RANGE
  | some items =>
    if items.any fun x => (itemLen x.1 x.2).isNone || itemBad x.1 x.2 then St.BAD_PARAM
    else if items.any fun x => !(itemLen x.1 x.2 == some (x.2.length + 4)) then St.LEN_RANGE else St.OK

/-- The body of a record is refused: its length, then its fields (R521, Table 163). -/
def bodyRefusal (type : Nat) (b : List Byte) : Nat :=
  let n := b.length
  match type with
  | 0x02 => if n ≠ 4 then St.LEN_RANGE else St.OK
  | 0x03 => if n ≠ 512 then St.LEN_RANGE else St.OK
  | 0x10 => if n ≠ 4 then St.LEN_RANGE else if leNat (b.take 1) = 0 ∨ 3 < leNat (b.take 1) then St.BAD_PARAM else St.OK
  | 0x11 =>
    if n = 0 ∨ n % 8 ≠ 0 ∨ 8192 < n then St.LEN_RANGE
    else if (List.range (n / 8)).any fun i => pairBad (b.drop (8 * i)) then St.BAD_PARAM else St.OK
  | 0x12 =>
    if n ≠ 2452 then St.LEN_RANGE
    else if (b.take 4).all pairsOk && ((b.take 0x194).drop 4).all (fun x => decide (x.toNat ≤ 2)) && (b.drop 0x194).all pairsOk then St.OK
    else St.BAD_PARAM
  | 0x13 => if n < 4 ∨ 16384 < n then St.LEN_RANGE else radioRefusal b
  | 0x20 => if n ≠ 8 then St.LEN_RANGE else if 5 < leNat (b.take 1) then St.BAD_PARAM else St.OK
  | 0x30 => if n % 4 ≠ 0 ∨ 4096 < n then St.LEN_RANGE else St.OK
  | 0x31 => if n ≠ 32 then St.LEN_RANGE else St.OK
  | 0x32 => if n ≠ 32 then St.LEN_RANGE else St.OK
  | _ => if n ≠ imgLen b then St.LEN_RANGE else St.OK

/-- Record types that NV_LOAD takes; those of the device only in test mode. -/
def nvTypeOk (type : Nat) (test : Bool) : Bool :=
  [0x02, 0x03, 0x10, 0x11, 0x12, 0x13, 0x20, 0x40, 0x41, 0x42, 0x43, 0x44].contains type
    || (test && [0x30, 0x31, 0x32].contains type)

/-- R521, R543: a record body into the store; every copy it has is written by one write. -/
def execNvLoad (c : Cmd) (p d : List Byte) (s : State) : Host.Outcome State Fault Refusal :=
  let type := arg p 0x10 2
  let n := arg p 0x12 2
  let h := nvHome type n
  .next (s.command (.nvLoad c p d) c 0x63
    (fun s =>
      { bad := firstBad [(!nvTypeOk type (s.on Rg.CFG_STAT_TEST), 0x10),
          (if type = 0x20 then decide (135 < n) else !(n == 0), 0x12)] })
    fun s =>
      let st := bodyRefusal type d
      if st ≠ St.OK then s.refuse c 0x63 st (if st = St.LEN_RANGE then 0x04 else 0x08)
      else if s.cmd.longs.any fun x => x.what == LongWhat.store h type n then s.refuse c 0x63 St.BUSY 0
      else
        let copies := if nvCritical type then s.nvCopiesOf h type else [(0, 0), (1, 0)]
        (s.nvWriteTo h copies type n d).beginLong c 0x63 (.store h type n))

end Sys2Proof.Machine
end

