-- ==== Sys2Proof/Machine/TimePower.lean ====
section
/-! DEFINITION. Air time, sleep and wake (ch. 16): the commands that set and check the counter, the entries to deeper states,
the wakes, and what becomes of the counter across DEEP and coast expiry. -/

namespace Sys2Proof.Machine

/-! ## Setting the counter -/

/-- A SET of a half is ignored (R451). -/
def State.setIgnored (s : State) (h : Nat) : State := s.bump (Rg.C_SET_IGNORED h) 1

/-- The SET that a TIMING body carries (Table 33). -/
def setOf (b : List Byte) : SetRec := ⟨beNat b 2 2, stampOfWord (beNat b 4 4) (beNat b 8 2), beNat b 12 4, 0⟩

/-- R451: a SET arrives. Its anchor is sought among the last 32; with FINAL clear it may still come, and a SET that waited
gives way (ignored) to the new one. -/
def execTimingSet (h : Half) (b : List Byte) (s : State) : Host.Outcome State Fault Refusal :=
  let h := h.val
  let x := setOf b
  if !s.linkUp h ∨ byteAt b 0 ≠ 1 then .next s
  else if !s.on Rg.AT_CFG_SET_EN || !stampOk s.muRef x.stamp then .next (s.setIgnored h)
  else
    match (tget (fun _ => ([] : List (Nat × Nat))) s.time.ams h).find? fun e => e.1 == x.amseq with
    | some e => .next (s.applySet h x e.2)
    | none =>
      if byteAt b 1 % 2 = 1 then .next (s.setIgnored h)
      else
        let s := if (s.waitingSet h).isSome then s.setIgnored h else s
        .next (s.setWaiting h (some { x with got := s.time.now }))

/-- R451: the anchor has not come within 2 ms. -/
def execSetAnchorTimeout (h : Half) (s : State) : Host.Outcome State Fault Refusal :=
  match s.waitingSet h.val with
  | some x => .next (if x.got + 983040 ≤ s.time.now then (s.setWaiting h.val none).setIgnored h.val else s)
  | none => .next s

/-- Ticks from a half's last AM to the next one that is still to come: markers follow each other at the interval of Table 11,
to the tick (log 71). -/
def State.nextAm (s : State) (since : Nat) : Nat :=
  let unit := s.amInterval * 66 * 49152
  let rate := lineRate (s.f Rg.LNK_CFG_RATE)
  (since * rate / unit + 1) * unit / rate

/-- A half's own count: H1's copy in split mode (R449). -/
def State.countOn (s : State) (h : Nat) : Nat :=
  if s.split && h == 1 then (((s.time.count : Int) + s.time.h1Diff) % (Config.ticksPerCycle : Int)).toNat else s.time.count

/-- R120, R453: REQUEST is answered with REPORT, whose anchor is the half's next AM, at the count at which it leaves. Before the
half's first AM that count is a free value (log 71). -/
def execTimingRequest (h : Half) (b : List Byte) (s : State) : Host.Outcome State Fault Refusal :=
  let h := h.val
  if !s.linkUp h ∨ byteAt b 0 ≠ 3 then .next s
  else
    let (n, s) := match (s.link h).amAt with
      | some t => (s.countOn h + (t + s.nextAm (s.time.now - t) - s.time.now), s)
      | none => s.freeNat
    let a := stampOf s.muRef (n % Config.ticksPerCycle)
    .next (s.queueTx h
      { type := 2, flow := 0, nsec := 0, deadline := 0
        body := beBytes 1 2 ++ zeros 1 ++ beBytes 2 (s.link h).amseq ++ beBytes 4 (atimeWord a) ++ beBytes 2 a.tick
          ++ zeros 2 ++ zeros 4 })

/-- The error of a TSYNC pulse in ps: the nearest frame boundary of a half's own count minus the pulse (R454). -/
def State.tsyncError (s : State) (h subPs : Nat) : Int :=
  let off := s.f Rg.AT_CFG_TSYNC_OFFSET
  let off : Int := if 2048 ≤ off then (off : Int) - 4096 else off
  let r := ((s.countOn h : Int) + off) % 4915200
  let r := if 2 * r < 4915200 then r else r - 4915200
  Int.neg (ticksPs r + subPs)

/-- A TSYNC correction of a half: in split mode H1 corrects its own copy (R449), as it does for a SET (log 59). -/
def State.applyTsync (s : State) (h : Nat) (e : Int) : State :=
  let s := if h = 1 then
      (s.mapTime fun t => { t with h1Diff := t.h1Diff + e * 192 / 390625 }).raise 1 Ev.TIME_SYNC 0 [2, argInt e, 2]
    else s.applyError e 2
  s.bump (Rg.C_TSYNC_APPLIED h) 1

/-- A TSYNC edge on a half (R454): one of more than 1 µs is applied only when the next gives the same error within 10 ns. -/
def State.tsync (s : State) (h subPs : Nat) : State :=
  let e := s.tsyncError h subPs
  let last := tget (fun _ => none) s.time.tsyncLast h
  let keep (s : State) (x : Option Int) : State := s.mapTime fun t => { t with tsyncLast := tset (fun _ => none) t.tsyncLast h x }
  let same := match last with
    | some p => decide ((e - p).natAbs ≤ 10000)
    | none => false
  let s := match last with
    | some p => if same then s else (s.bump (Rg.C_TSYNC_REJECTED h) 1).raise h Ev.TSYNC_REJECT 0 [argInt p]
    | none => s
  if 1000000 < e.natAbs ∧ !same then keep s (some e) else (keep s none).applyTsync h e

/-- R23, R454: a TSYNC edge feeds both halves: it corrects the device's counter, and in split mode each half's own (R449). -/
def execTsyncPulse (rising : Bool) (subPs : Nat) (s : State) : Host.Outcome State Fault Refusal :=
  if s.f Rg.AT_CFG_TSYNC_MODE = 0 || rising == s.on Rg.AT_CFG_TSYNC_POL || !s.time.valid then .next s
  else
    let s := s.tsync 0 subPs
    .next (if s.split then s.tsync 1 subPs else s)

/-- R449: the supervisors compare the counts; in split mode each half keeps its own. -/
def execAtCompare (diff : Int) (s : State) : Host.Outcome State Fault Refusal :=
  let s := s.d2dPush 0 .airTime (Config.d2dBits 0)
  if s.split ∨ diff = 0 then .next s
  else
    let due := s.time.h1Reload
    let s := s.mapTime fun t => { t with h1Diff := diff, h1Reload := true }
    .next (if due then s else (s.bump (Rg.C_AT_MISMATCH 1) 1).raise 1 Ev.AT_MISMATCH 0 [argInt diff])

/-- R449: H1 loads H0's count at the subframe boundary. -/
def execH1CounterReload (s : State) : Host.Outcome State Fault Refusal :=
  .next (if s.time.h1Reload ∧ !s.split ∧ s.time.count % Config.ticksPerSubframe = 0 then s.mapTime fun t => { t with h1Diff := 0, h1Reload := false } else s)

/-! ## Votes and holds -/

/-- R127, R128, R457: the votes of a WAKE ordered set. A set is acted on once, while LINK runs; a domain whose vote HOST owns
is left out and counted, and R457's domains held off are left out first and not counted: R128 does not say which comes first.
A set with a reserved ACTION, on which the spec is silent, is one acted on that does nothing: its TAG is the last (DESIGN CHOICE,
log 71). In split mode a half votes for its own domains alone. -/
def execWakeOrderedSet (h : Half) (copies : List (List Byte)) (s : State) : Host.Outcome State Fault Refusal :=
  let h := h.val
  match pickCopy 0xA5 copies with
  | none => .next s
  | some b =>
    let tag := byteAt b 4
    let action := byteAt b 3
    if s.shutdown || decide (1 < s.dom h 6) || s.time.lastWake == some tag then .next s
    else
      let s := s.mapTime fun t => { t with lastWake := some tag }
      if action ≠ 1 ∧ action ≠ 2 then .next s
      else
        let marked := (s.markedDoms 0 (byteAt b 1)).map (fun d => (0, d)) ++ (s.markedDoms 1 (byteAt b 2)).map fun d => (1, d)
        let marked := marked.filter fun e => !s.split || e.1 == h
        let owned := marked.filter fun e => s.voteOwner e.1 e.2 == 0
        let s := s.bump (Rg.C_WAKE_REFUSED h) owned.length
        .next (s.castVotes 1 (action == 1) (marked.filter fun e => !(s.voteOwner e.1 e.2 == 0)) 7)

/-- A group's domain is in RUN and stays there. -/
def State.groupStays (s : State) (g : Nat) : Bool :=
  s.groupRun g && (s.voted (g / 4) (2 + g % 4) || s.heldBut (g / 4) (2 + g % 4))

/-- A vote or hold keeps a domain in RUN; GROUP counts as long as a group stays in RUN on account of its own (R459). -/
def State.wanted (s : State) (h d : Nat) : Bool :=
  s.domIn h d && (s.voted h d || s.heldBut h d || (decide (d ≤ 1) && (s.halfGroups h).any s.groupStays))

/-- A half may leave IDLE: no domain is wanted or waking (R460). -/
def State.halfReady (s : State) (h : Nat) : Bool :=
  (List.range (domCount h)).all fun d => !s.wanted h d && !(s.dom h d == 5)

/-- DEPTH of a half as a target: 1 IDLE, 2 SLEEP, 3 DEEP, 4 OFF. -/
def State.depth (s : State) (h : Nat) : Nat := 1 + s.f (if h = 0 then Rg.PM_CFG_DEPTH_H0 else Rg.PM_CFG_DEPTH_H1)

/-- The domains of a timed vote: bit by position in SU_VOTE_OWNER. -/
def TimedVote.doms (v : TimedVote) : List (Nat × Nat) :=
  ((List.range 8).filter fun d => v.doms0 / 2 ^ d % 2 == 1).map (fun d => (0, d))
    ++ ((List.range 7).filter fun d => v.doms1 / 2 ^ d % 2 == 1).map fun d => (1, d)

/-- The deepest target of a half that the pending votes for RUN allow (R458); OFF wakes for none. -/
def State.timedCap (s : State) (h : Nat) : Nat :=
  let votes := s.time.timed.filter fun v => v.on && v.doms.any fun e => e.1 == h
  let fits (k : Nat) : Bool := votes.all fun v =>
    v.doms.all fun e => !(e.1 == h) || decide ((wakeTicksOf e.2 k : Int) ≤ ahead s.time.count v.at_)
  if votes = [] then 4 else if fits 3 then 3 else if fits 2 then 2 else 1

/-- The target of a half that is ready to leave IDLE, and whether it is the device's as a whole (R460). -/
def State.entryLevel (s : State) (h : Nat) : Nat × Bool :=
  let own := min (s.depth h) (s.timedCap h)
  let other := min (s.depth (1 - h)) (s.timedCap (1 - h))
  if 3 ≤ own ∧ 3 ≤ other ∧ s.halfReady (1 - h) then (min own other, true) else (min own 2, false)

/-- Domains of a half in service that a target takes deeper; groups held off stay in IDLE (R5). -/
def State.deeperDoms (s : State) (h target : Nat) : List (Nat × Nat × Nat) :=
  ((List.range (domCount h)).filter fun d => s.domIn h d && decide (s.dom h d < target)).map fun d => (h, d, target)

/-- What an entry of a half would do: the half whose supervisor runs it, the target, the domains that enter. -/
def State.entryPlan (s : State) (h : Nat) : Nat × Nat × List (Nat × Nat × Nat) :=
  if s.halfReady h then
    let (level, whole) := s.entryLevel h
    if whole then (s.lead, level, s.deeperDoms 0 level ++ s.deeperDoms 1 level)
    else (h, level, s.deeperDoms h level)
  else
    (h, 1, ((List.range (domCount h)).filter fun d => s.domIn h d && s.dom h d == 0 && !s.wanted h d).map fun d => (h, d, 1))

/-- Whether a half may try to enter a deeper state. -/
def State.entryDue (s : State) (h : Nat) : Bool := tget (fun _ => false) s.time.due h

/-- Set or clear it. -/
def State.setEntryDue (s : State) (h : Nat) (b : Bool) : State :=
  s.mapTime fun t => { t with due := tset (fun _ => false) t.due h b }

/-- The entry that a half's supervisor runs. -/
def State.halfEntry (s : State) (h : Nat) : Option EntryRec := tget (fun _ => none) s.time.entry h

/-- Start or end it. -/
def State.setEntry (s : State) (h : Nat) (e : Option EntryRec) : State :=
  s.mapTime fun t => { t with entry := tset (fun _ => none) t.entry h e }

/-- Halves that an entry moves. -/
def EntryRec.halves (e : EntryRec) : List Nat := (List.range 2).filter fun h => e.moves.any fun m => m.1 == h

/-- ENTRY of the halves of an entry (SU_PM_STAT0, SU_PM_STAT1). -/
def State.setEntryPhase (s : State) (e : EntryRec) (v : Nat) : State :=
  e.halves.foldl (fun s h => s.setF (if h = 0 then Rg.PM_STAT0_ENTRY else Rg.PM_STAT1_ENTRY) v) s

/-- R459, R460: a domain has lost its last vote and hold: it starts to drop. -/
def execDomainDrop (h : Half) (dom : Fin 8) (s : State) : Host.Outcome State Fault Refusal :=
  let h := h.val
  let d := dom.val
  if s.domIn h d ∧ s.dom h d ≤ 1 ∧ !s.wanted h d then .next (s.setEntryDue h true) else .next s

/-- The refusal that the blocks of a half answer by the state that the model holds (Table 129): a store write, a bias range
change, a lane in TRAIN or in a relay, the reference PLL. -/
def State.blockRefusal (s : State) (h : Nat) (e : EntryRec) : Option (Nat × Nat × Nat) :=
  let mine := e.moves.filter fun m => m.1 == h
  let sleeps := mine.any fun m => decide (2 ≤ m.2.2)
  let deep := mine.any fun m => decide (3 ≤ m.2.2)
  let changing := mine.any fun m => (List.range 136).any fun n =>
    domGroup h m.2.1 == some (outputGroup n) && ((s.biasOut n).state == 3 || (s.biasOut n).pend.isSome)
  let training := (mine.any fun m => m.2.1 == 6) &&
    ((halfLanes h).any (fun n => s.laneState n == 2) || (s.link h).out.any fun b => b.op == 2)
  if sleeps && (s.nvQueue h).any (fun j => j.writing) then some (10, 1, h)
  else if changing then some (7, 2, h)
  else if training then some (8, 3, h)
  else if deep && !(s.refState == 1) then some (12, 7, h)
  else none

/-- PREPARE of a half's entry (R461, R462): the first refusal is kept, those of the model's own state before what the bus
masters and the endpoint answer. -/
def State.prepare (s : State) (h : Nat) (refusals : List (Nat × Nat)) : State :=
  let (key, target, moves) := s.entryPlan h
  if !s.entryDue h || moves.isEmpty || (s.halfEntry 0).isSome || (s.halfEntry 1).isSome then s
  else
    let e : EntryRec := ⟨target, moves, none, s.time.now⟩
    let own := (e.halves.filterMap fun k => s.blockRefusal k e).head?
    let told := ((refusals.filter fun r => r == (5, 2) || r == (14, 4)).map fun r => (r.1, r.2, h)).head?
    let e : EntryRec := { e with refusal := own.orElse fun _ => told }
    (s.setEntry key (some e)).setEntryPhase e 1

/-- R461. -/
def execPowerEntryPrepare (h : Half) (refusals : List (Nat × Nat)) (s : State) : Host.Outcome State Fault Refusal :=
  .next (s.prepare h.val refusals)

/-- R462, R463: a block gives no answer within 50 µs of PREPARE. -/
def execPrepareAnswerTimeout (h : Half) (block : Nat) (s : State) : Host.Outcome State Fault Refusal :=
  .next ((List.range 2).foldl (fun s k => match s.halfEntry k with
    | some e =>
      if e.refusal.isNone ∧ e.moves.any (fun m => m.1 == h.val) ∧ e.at_ + 24576 ≤ s.time.now then
        s.setEntry k (some { e with refusal := some (block, 5, h.val) })
      else s
    | none => s) s)

/-! ## What stops and what is kept (Table 128) -/

/-- A group's paths go OFF, its lines to IDLE levels, and its bias-selects to receive. -/
def State.stopGroup (s : State) (g : Nat) : State :=
  (groupPaths g).foldl (fun s p =>
    let s := s.txOff p
    let st := (s.fep p).state
    (if 1 ≤ st ∧ st ≤ 5 then s.feTo p 0 else s).biasSelect p false) s

/-- The lanes of a half go QUIET, their receivers off, and keep taps, role and position (R67, Tables 18 and 19). -/
def State.quietLanes (s : State) (h : Nat) : State :=
  (halfLanes h).foldl (fun s n =>
    let st := s.laneState n
    if 3 ≤ st ∧ st ≤ 5 then
      let pos := s.raw (Rg.LANE_STAT_POS n)
      (((s.laneUnlock n).setLane n 1).setPos n pos).mapLane n fun x =>
        { x with former := some st, resuming := false, lastAm := none, crcRun := 0, realign := false }
    else s) s

/-- What a half stops in SLEEP and DEEP: lanes, logic clocks, synthesisers; its LIVE bias outputs go to HOLD. -/
def State.stopHalf (s : State) (h : Nat) : State :=
  let s := s.quietLanes h
  let s := (s.setF (clkFld h) 0).setF (clkFld (2 + h)) 0
  let s := (List.range 5).foldl (fun s i =>
    let n := 5 * h + i
    if s.raw (Rg.LO_STAT_STATE n) = 5 then s else (s.setF (Rg.LO_STAT_STATE n) 0).setF (Rg.LO_STAT_READY n) 0) s
  let s := (s.halfGroups h).foldl (fun s g => s.evalReady g) s
  (List.range 136).foldl (fun s n =>
    if outputHalf n = h ∧ (s.biasOut n).state = 2 then s.mapBias n fun b => (b.jump (b.out s.time.now)).stop 5 0 else s) s

/-- The count and K are saved at an AON edge, and the counter stops (R461, R468). -/
def State.saveCount (s : State) (coast : Bool) : State :=
  let s := s.measureK
  let k := s.reg 0x0810
  s.mapTime fun t => { t with saved := some (t.count, k), savedCoast := coast, running := false }

/-- The device enters OFF: only the store is kept; bias outputs are PARKED, lines undriven, and the counter is invalid (R450,
R470, Table 128). The reset of everything else follows within 100 µs. -/
def State.enterOff (s : State) : State :=
  let s := (List.range 136).foldl (fun s n =>
    if (s.biasOut n).state = 0 then s else s.mapBias n fun b => b.stop 4 0) s
  let was := s.time.valid
  let s := { s with linesOn := false }
  let s := (s.mapTime fun t => { t with valid := false, saved := none }).setF Rg.AT_STAT_UNC 0xFFFF
  (if was then s.raise 0 Ev.TIME_INVALID 0 [1] else s).evalHold

/-- COMMIT (R461): each domain enters its state; a half in SLEEP and the device in DEEP or OFF stop what Table 128 names. -/
def State.commitEntry (s : State) (e : EntryRec) : State :=
  let s := e.moves.foldl (fun s m => match domGroup m.1 m.2.1 with
    | some g => if s.dom m.1 m.2.1 = 0 then s.stopGroup g else s
    | none => s) s
  let s := e.moves.foldl (fun s m => s.moveDom m.1 m.2.1 m.2.2) s
  let s := e.halves.foldl (fun s h => s.bump (Rg.C_ENTRIES h) 1) s
  let s := if 2 ≤ e.target then e.halves.foldl (fun s h => s.stopHalf h) s else s
  let s := if 3 ≤ e.target then
      let s := (s.saveCount false).setRef 0
      { s with ref := { s.ref with present := false } }
    else s
  if e.target = 4 then s.enterOff else s

/-- R461, R463: COMMIT once every block has agreed; else the entry is rolled back and reported. One that a vote or wake
source upset is not tried again until the domains drop anew. -/
def execPowerEntryCommit (h : Half) (s : State) : Host.Outcome State Fault Refusal :=
  match s.halfEntry h.val with
  | none => .next s
  | some e =>
    let s := (s.setEntry h.val none).setEntryPhase e 0
    match e.refusal with
    | none => .next ((e.halves.foldl (fun s k => s.setEntryDue k false) s).commitEntry e)
    | some (block, reason, k) =>
      let s := if reason = 6 then e.halves.foldl (fun s k => s.setEntryDue k false) s else s
      let again := s.time.now + (if reason = 5 then 4915200 else 491520)
      let s := s.mapTime fun t => { t with retryAt := e.halves.foldl (fun l i => tset (fun _ => 0) l i again) t.retryAt }
      .next ((s.bump (Rg.C_ABORTS k) 1).raise k Ev.SLEEP_ABORTED block [k, e.target, reason])

/-- R463: an aborted entry is tried again, 1 ms or after no answer 10 ms later at the soonest; a block whose condition has not
cleared refuses it again. -/
def execPowerEntryRetry (h : Half) (s : State) : Host.Outcome State Fault Refusal :=
  .next (if s.time.now < tget (fun _ => 0) s.time.retryAt h.val then s else s.prepare h.val [])

/-! ## Waking -/

/-- R464: WAKE_N has been low for 10 µs; in OFF it ends the reset that OFF holds. -/
def execWakeN (s : State) : Host.Outcome State Fault Refusal :=
  .next (if s.boot.conds.contains 3 then s.clearCond 3 else s.wake 4 s.wakeMask)

/-- R464: a PCI Express L1 exit or a TLP. -/
def execHostifWake (s : State) : Host.Outcome State Fault Refusal := .next (s.wake 5 [(0, 7)])

/-- R464: a write to the host is due. -/
def execHostWriteDueWake (s : State) : Host.Outcome State Fault Refusal :=
  .next (if s.host.due.isEmpty then s else s.wake 6 [(0, 7)])

/-- R464: an SOP block on a LINK domain in IDLE. -/
def execSopWake (h : Half) (s : State) : Host.Outcome State Fault Refusal :=
  .next (if s.dom h.val 6 = 1 then s.wake 3 [(h.val, 6)] else s)

/-- What a group that returns from SLEEP or DEEP needs: its outputs return from HOLD at an interval boundary, and its short
heat is required (Table 65, Table 102). -/
def State.groupReturns (s : State) (g : Nat) : State :=
  let s := (List.range 136).foldl (fun s n =>
    if outputGroup n = g ∧ (s.biasOut n).state = 5 then s.mapBias n fun b => { b with returning := 1 } else s) s
  s.requireHeat g 1 2

/-- A domain enters RUN (R465). -/
def State.enterRun (s : State) (h d : Nat) : State :=
  let from_ := (tget (fun _ => (0, 0)) s.time.wakeFrom (8 * h + d)).1
  let s := s.moveDom h d 0
  let timed := s.time.timed.any fun v => v.on && v.waking && v.doms.contains (h, d)
  let s := if timed then s.mapTime fun t => { t with timedHold := tset (fun _ => false) t.timedHold (8 * h + d) true } else s
  let (arr, eng) := s.clkTargets (s.raw Rg.THERM_STAT_LEVEL)
  let s := if from_ = 3 then s.mapMon h fun m => { m with noRound := true } else s
  match d with
  | 0 => (s.clkGoal h arr).setF (clkFld h) (if from_ = 1 then s.raw (clkFld h) else 50)
  | 1 => (s.clkGoal (2 + h) eng).setF (clkFld (2 + h)) (if from_ = 1 then s.raw (clkFld (2 + h)) else 50)
  | 6 => s
  | 7 => s.flushDue
  | n => if 2 ≤ from_ then s.groupReturns (4 * h + n - 2) else s

/-- A waking domain may enter RUN: its wake delay has run, and from DEEP the reference PLL has locked (R465). -/
def State.mayRun (s : State) (h d : Nat) : Bool :=
  let (st, t) := tget (fun _ => (0, 0)) s.time.wakeFrom (8 * h + d)
  s.dom h d == 5 && decide (t + usTicks (wakeUs d st) ≤ s.time.now)
    && (!(st == 3) || s.refState == 1 || s.refState == 3 || s.refState == 4)

/-- R465: the wake delay of a domain has run. -/
def execDomainEnterRun (h : Half) (dom : Fin 8) (s : State) : Host.Outcome State Fault Refusal :=
  .next (if s.mayRun h.val dom.val then s.enterRun h.val dom.val else s)

/-- R465: the reference PLL locked later than 12 ms after the wake; the lateness is known at lock. -/
def execWakeLateTimeout (h : Half) (dom : Fin 8) (s : State) : Host.Outcome State Fault Refusal :=
  let h := h.val
  let d := dom.val
  let (st, t) := tget (fun _ => (0, 0)) s.time.wakeFrom (8 * h + d)
  let excess := (s.time.now - (t + usTicks (wakeUs d st))) * 100 / 49152
  if s.mayRun h d ∧ st = 3 ∧ 0 < excess then
    .next (((s.bump (Rg.C_WAKE_LATE h) 1).raise h Ev.WAKE_LATE d [h, excess]).enterRun h d)
  else .next s

/-- R458: the wake for pending votes starts so that their domains reach RUN at the effect time. -/
def execTimedVoteWakeStart (s : State) : Host.Outcome State Fault Refusal :=
  let due (v : TimedVote) : List (Nat × Nat) :=
    if v.on then v.doms.filter fun e => s.domIn e.1 e.2 && decide (1 ≤ s.dom e.1 e.2) && decide (s.dom e.1 e.2 ≤ 3)
      && decide (ahead s.time.count v.at_ ≤ (s.wakeTicks e.1 e.2 : Int))
    else []
  let l := s.time.timed
  let s := s.mapTime fun t => { t with timed := t.timed.map fun v => if (due v).isEmpty then v else { v with waking := true } }
  .next (l.foldl (fun s v => if (due v).isEmpty then s else s.wake 8 (due v)) s)

/-- R458: the first pending vote whose air time has come is cast as the SCHEDULE client's; its TIMED holds end. -/
def execTimedVoteCast (s : State) : Host.Outcome State Fault Refusal :=
  match s.time.timed with
  | v :: rest =>
    if !s.reached v.at_ then .next s
    else
      let doms := v.doms.filter fun e => s.domIn e.1 e.2
      let s := s.mapTime fun t => { t with timed := rest }
      let s := s.castVotes 2 v.on doms 8
      let free := doms.filter fun e => !(rest.any fun w => w.on && w.waking && w.doms.contains e)
      .next (s.mapTime fun t =>
        { t with timedHold := free.foldl (fun l e => tset (fun _ => false) l (8 * e.1 + e.2) false) t.timedHold })
  | [] => .next s

/-- R459, Table 127: WAKE_HOLD has run for the domains of a half. -/
def execWakeHoldExpiry (h : Half) (s : State) : Host.Outcome State Fault Refusal :=
  .next ((List.range (domCount h.val)).foldl (fun s d =>
    if s.dom h.val d = 0 ∧ (tget (fun _ => (0, 0)) s.time.wakeFrom (8 * h.val + d)).2 + 491520 * s.f Rg.PM_CFG_WAKE_HOLD ≤ s.time.now then
      s.setWakeHold h.val d false
    else s) s)

/-! ## The counter across DEEP and expiry -/

/-- Growth of U over an elapsed time in ticks, in ns rounded up: AON_DRIFT in 0.01 ppm, or 500 ppm on the on-die oscillator
(R455, R469). -/
def State.driftNs (s : State) (ticks : Nat) : Nat :=
  let w := if s.on Rg.REF_STAT_AON_RC then 50000 else s.f Rg.AT_CFG_AON_DRIFT
  ceilDiv (ticks * 100000 * w) (49152 * 100000000)

/-- R468, R469: the counter is loaded at the first AON edge after lock, or made invalid when the AON count is lost. -/
def execCounterRebuild (n : Nat) (countLost : Bool) (s : State) : Host.Outcome State Fault Refusal :=
  match s.time.saved with
  | none => .next s
  | some (a0, k) =>
    if s.refState ≠ 1 ∨ s.time.running then .next s
    else
      let coast := s.time.savedCoast
      let s := s.mapTime fun t => { t with saved := none, savedCoast := false, running := true }
      if countLost then
        let was := s.time.valid
        let s := (s.mapTime fun t => { t with valid := false }).setF Rg.AT_STAT_UNC 0xFFFF
        .next (if was then (s.raise 0 Ev.TIME_INVALID 0 [3]).evalHold else s)
      else
        let elapsed := n * k.toNat / 2 ^ 18
        let s := s.mapTime fun t => { t with count := (a0 + elapsed) % Config.ticksPerCycle }
        let s := (s.bump (Rg.C_REBUILDS 0) 1).setF Rg.AT_STAT_LAST_SRC 3
        let s := if s.time.valid then s.setUnc (s.raw Rg.AT_STAT_UNC + 16 + b2n coast + s.driftNs elapsed) else s
        let s := s.evalHold
        .next (s.raise 0 Ev.TIME_REBUILT 0 [s.raw Rg.AT_STAT_UNC, n, b2n s.time.txHeld])

/-- R469: the count and K are saved at the first AON edge after coast expiry. -/
def execCoastCountSave (s : State) : Host.Outcome State Fault Refusal :=
  .next (if s.refState = 5 ∧ s.time.saved.isNone then s.saveCount true else s)

end Sys2Proof.Machine
end

