-- ==== Sys2Proof/Machine/Startup.lean ====
section
/-! DEFINITION. Resets and start-up (ch. 18): the conditions of the core reset, the phases P0 to P3, what each takes from the
persistent store, the fault log, standalone service. -/

namespace Sys2Proof.Machine

/-! ## Resets (R504 to R507) -/

/-- R504: VDD_AON falls below its low trip. -/
def execPowerOnReset (s : State) : Host.Outcome State Fault Refusal := .next s.powerCycle

/-- R506: RESET_N has been low for 1 µs. -/
def execResetNAssert (s : State) : Host.Outcome State Fault Refusal := .next (s.assertReset 1 0)

/-- R504, R383: RESET_N returns high; the boot records are decided now if the power-on has not done so yet. -/
def execResetNRelease (s : State) : Host.Outcome State Fault Refusal :=
  if !s.boot.conds.contains 1 then .next s
  else
    let s := s.clearCond 1
    .next (if s.boot.conds.contains 0 then s else s.bootOutputs)

/-- R505: every rail has been back in its window for 1 ms. -/
def execBrownOutEnd (s : State) : Host.Outcome State Fault Refusal := .next (s.clearCond 2)

/-- R504: 100 µs after the COMMIT of OFF, the core reset is asserted. -/
def execOffCoreReset (s : State) : Host.Outcome State Fault Refusal :=
  .next (if s.dom 0 0 = 4 ∧ !s.boot.core ∧ (tget (fun _ => (0, 0)) s.time.wakeFrom 0).2 + 49152 ≤ s.time.now then
      s.assertReset 3 0 else s)

/-- The core reset is released: P1 begins and CAUSE is recorded (R507, R510). -/
def State.coreRelease (s : State) : State :=
  let now := s.time.now
  let s := s.mapBoot fun b => { b with core := false, conds := [], p1At := now }
  let s := (s.setF Rg.BOOT_STAT_PHASE 1).setF Rg.BOOT_STAT_CAUSE s.boot.cause
  s.setF Rg.BOOT_STAT_BO_RAIL (if s.boot.cause = 2 then s.boot.boRail else 0)

/-- R504, R507, R510: the core reset is released 1 ms after its conditions have cleared; P1 begins. VDD_AON's condition ends
with its own return, which nothing else reports. -/
def execCoreResetRelease (s : State) : Host.Outcome State Fault Refusal :=
  .next (if !s.boot.core || s.boot.conds.any (fun c => !(c == 0)) || decide (s.time.now < s.boot.clearAt + 491520) then s
    else s.coreRelease)

/-- PHASE of start-up. -/
def State.phase (s : State) : Nat := s.raw Rg.BOOT_STAT_PHASE

/-- R510: P0 ends: every boot record is handled. -/
def execStartUpP0End (s : State) : Host.Outcome State Fault Refusal :=
  .next (if s.boot.conds.contains 1 then s else s.bootOutputs)

/-! ## P1: records (R510, R543, R7) -/

/-- Set-up register pairs are written in their order (R543). -/
def State.writePairs (s : State) (b : List Byte) : State :=
  (List.range (b.length / 8)).foldl (fun s i =>
    let off := leNat ((b.drop (8 * i)).take 4)
    if 0x0800 ≤ off ∧ off ≤ 0x25BF ∧ off % 4 = 0 then s.writeReg off (BitVec.ofNat 32 (leNat ((b.drop (8 * i + 4)).take 4)))
    else s) s

/-- An owner of the ownership record; the reserved value leaves the reset value (R9). -/
def ownerOf (n : Nat) : Option Nat := if n ≤ 2 then some n else none

/-- The ownership record takes effect (Table 163); HOSTIF holds HOST (R429), and the reserved bits read 0 (R9). -/
def State.takeOwners (s : State) (b : List Byte) : State :=
  let byte (i : Nat) : Nat := leNat ((b.drop i).take 1)
  let s := s.setReg 0x0028 (fset (fset (BitVec.ofNat 32 (leNat (b.take 4))) 14 2 0) 30 2 0)
  let s := (List.range 8).foldl (fun s c => s.mapCap c fun x => { x with owner := ownerOf (byte (4 + c)) }) s
  let s := (List.range 136).foldl (fun s n => s.mapBias n fun x => { x with owner := ownerOf (byte (0x0C + n)) }) s
  let s := (List.range 256).foldl (fun s f => s.setFlow f { s.flow f with owner := (ownerOf (byte (0x94 + f))).getD 0 }) s
  (List.range 8192).foldl (fun s k => s.mapBeam k fun e => { e with owner := ownerOf (byte (0x194 + k / 4) / 4 ^ (k % 4) % 4) }) s

/-- Without an ownership record every owner is SHARED in standalone service, but HOST of HOSTIF (R543). -/
def State.shareAll (s : State) : State :=
  let s := (s.setReg 0x0028 0x2AAA2AAA).mapBoot fun b => { b with ownAll := true }
  (List.range 256).foldl (fun s f => s.setFlow f { s.flow f with owner := 2 }) s

/-- What the factory records say of the sensors and of the halves' monitors (R367, R374, R389, R390). -/
def State.takeFactory (s : State) (l : List SensFact) (mons : List MonFact) : State :=
  let s := l.foldl (fun s x => if x.n < 52 then s.mapSens x.n fun v =>
    { v with neigh := x.neigh, offset := x.offset, c0 := x.c0, t0 := x.t0, c1 := x.c1, t1 := x.t1, lo := x.lo, hi := x.hi } else s) s
  ((mons.take 2).zipIdx).foldl (fun s x => s.mapMon x.2 fun m => { m with div := x.1.div, ref := x.1.ref }) s

/-- A factory record that is undecidable on a half (R514). -/
def State.factoryCheck (s : State) (h : Nat) (ok : Bool) : State := if ok then s else s.raise h Ev.FACTORY_BAD h []

/-- The value of a decision. -/
def NvDecision.body : NvDecision → Option (List Byte)
  | .value b _ => some b
  | _ => none

/-- The decision on standalone service (R7): the 16-path configuration is fixed and the standalone radio record can be
decided; its body is applied in P3. -/
def State.decideStandalone (s : State) : State :=
  let (cfg, s) := s.useNv 0x10 0 0 true
  let (radio, s) := s.useNv 0x13 0 0 false
  match cfg.body, radio.body with
  | some c, some _ => if leNat (c.take 1) = 1 then (s.setF Rg.CFG_STAT_STANDALONE 1).fixPaths 1 else s
  | _, _ => s

/-- R510, R514, R543, R7, R450: P1 ends. The board and configuration records are decided; register writes are taken from now
on, those of the set-up register record first; PCI Express is served; the hold of the invalid counter begins. -/
def execStartUpP1End (factory0 factory1 : Bool) (sensors : List SensFact) (mons : List MonFact) (s : State) :
    Host.Outcome State Fault Refusal :=
  if s.boot.core ∨ s.phase ≠ 1 then .next s
  else
    let s := (s.setF Rg.BOOT_STAT_PHASE 2).setF Rg.D2D_STAT_LINK_UP 1
    let s := s.setB Rg.BOOT_STAT_FACTORY_OK (factory0 && factory1)
    let s := ((s.factoryCheck 0 factory0).factoryCheck 1 factory1).takeFactory sensors mons
    let s := s.bump (Rg.C_TX_HOLDS 0) 1
    let s := if s.boot.timeLost then s.raise 0 Ev.TIME_INVALID 0 [2] else s
    let s := s.bootOutputs
    let (sub, s) := s.useNv 2 0 0 true
    let s := match sub.body with
      | some b => s.mapHost fun h => { h with svid := leNat (b.take 2), ssid := leNat ((b.drop 2).take 2) }
      | none => s
    let s := (s.useNv 3 0 0 true).2
    let (regs, s) := s.useNv 0x11 0 0 true
    let s := s.writePairs (regs.body.getD [])
    let s := s.decideStandalone
    let (own, s) := s.useNv 0x12 0 0 true
    let s := match own.body with
      | some b => s.takeOwners b
      | none => if s.standalone then s.shareAll else s
    .next s.evalPlane

/-! ## P2: the fault log (R513) -/

/-- A slice is retired at start-up: a spare takes its path, or the path is retired (R487). -/
def State.bootSlice (s : State) (n : Nat) : State :=
  let h := n / 34
  let retired (s : State) (k : Nat) : Bool := tget (fun _ => false) s.rel.sliceRet k
  if retired s n then s
  else
    let s := (s.mapRel fun r => { r with sliceRet := tset (fun _ => false) r.sliceRet n true }).logFault 2 n
    let spares := [34 * h + 32, 34 * h + 33].filter fun k => !retired s k && !((halfPaths h).any fun p => s.sliceOf p == k)
    let s := match (halfPaths h).find? fun p => s.sliceOf p == n with
      | none => s
      | some p =>
        match spares with
        | k :: _ =>
          (s.mapRel fun r => { r with sliceOf := tset (fun p => if p < 32 then p else p + 2) r.sliceOf p k }).spareIn h
        | [] => s.retirePath p 2
    if spares.length ≤ 1 then s.exhaust h 2 else s.evalRel

/-- A synthesiser is retired at start-up: relayed where its group is assigned, else left out of the assignment. -/
def State.bootLo (s : State) (n : Nat) : State := if s.raw (Rg.LO_STAT_STATE n) = 5 then s else s.loFaulty n

/-- An engine likewise. -/
def State.bootEngine (s : State) (n : Nat) : State :=
  if s.on (Rg.AE_STAT_SERVING n) then s.engFaulty n
  else if s.aeState n = 6 then s
  else if n % 5 = 4 then s.retireSpare (n / 5)
  else ((s.setF (Rg.AE_STAT_STATE n) 6).logFault 5 n).evalRel

/-- A spare wire of a direction is used up. -/
def State.wireSpare (s : State) (dir : Nat) : Nat := s.raw (if dir = 0 then Rg.D2D_STAT_SPARES_01 else Rg.D2D_STAT_SPARES_10)

/-- A wire of a direction, by direction * 32 + wire, is replaced by a spare wire (R490, R478). -/
def State.wireOut (s : State) (unit : Nat) : State :=
  let dir := unit / 32 % 2
  let left := s.wireSpare dir
  if left = 0 then s
  else
    let s := s.setF (if dir = 0 then Rg.D2D_STAT_SPARES_01 else Rg.D2D_STAT_SPARES_10) (left - 1)
    let s := s.mapRel fun r => { r with wires := tset (fun _ => 0) r.wires dir (tget (fun _ => 0) r.wires dir + 1) }
    let s := (s.logFault 8 unit).spareIn dir
    if left = 1 then s.exhaust dir 8 else s

/-- A DAC cell, by (path * 2 + Q) * 256 + cell, is replaced, or its path retired (R488). -/
def State.cellOut (s : State) (unit : Nat) : State :=
  let p := unit / 512
  let q := unit / 256 % 2 == 1
  let left := s.cellsLeft p q
  if left = 0 then s.retirePath p 4
  else
    let s := s.mapRel fun r => { r with cells := tset (fun _ => 4) r.cells (2 * p + b2n q) (left - 1) }
    let s := (s.logFault 1 unit).spareIn (p / 32)
    if left = 1 then s.exhaust (p / 32) 1 else s

/-- A converter by its key. -/
def convOfKey (k : Nat) : Option Conv :=
  let q := k % 2 == 1
  if h : k / 2 < 64 then some (.rx ⟨k / 2, h⟩ q)
  else if h : k / 2 - 64 < 10 then some (.orx ⟨k / 2 - 64, h⟩ q) else none

/-- A converter slice, by key * 16 + slice, is retired (R157). -/
def State.bootConvSlice (s : State) (unit : Nat) : State :=
  match convOfKey (unit / 16) with
  | none => s
  | some v =>
    let c := s.convOf v
    if c.retired.contains (unit % 16) then s
    else if c.retired = [] then s.retireConvSlice v (unit % 16) else s.secondSlice v

/-- A bias output runs on its twin. -/
def State.bootTwin (s : State) (n : Nat) : State :=
  let h := outputHalf n
  let s := s.mapRel fun r => { r with onTwin := tset (fun _ => false) r.onTwin n true }
  ((s.exhaust h 10).spareIn h).logFault 10 n

/-- A supervisor stays retired: its half's paths are retired and its lanes DISABLED (R485). -/
def State.supRetire (s : State) (h : Nat) : State :=
  let s := (s.mapRel fun r => { r with
    supRet := tset (fun _ => false) r.supRet h true, supStop := tset (fun _ => false) r.supStop h true }).logFault 14 h
  ((halfLanes h).foldl (fun s n => if s.laneState n = 8 then s else s.setLane n 0) (s.retireHalf h)).evalRel

/-- Take a unit out of service as its kind's rule does (R513): kind and unit number as in Table 147. -/
def State.takeOut (s : State) (kind cause unit : Nat) : State :=
  match kind with
  | 1 => s.retirePath (unit % 64) (if cause = 0 then 7 else cause)
  | 2 => s.bootSlice (unit % 68)
  | 3 => s.bootLo (unit % 10)
  | 4 => s.retireOrx (unit % 10) 0
  | 5 => s.bootEngine (unit % 10)
  | 6 => s.retireMc (unit / 3 % 2) (unit % 3)
  | 7 => if s.laneState (unit % 10) = 8 then s else s.retireLane (unit % 10) 7
  | 8 => s.wireOut (unit % 64)
  | 9 => s.retireRow (unit / 8384 % 2) (unit % 8384)
  | 10 => s.bootTwin (unit % 136)
  | 11 => s.cellOut (unit % 32768)
  | 12 => s.bootConvSlice unit
  | 13 => s.fencePage (unit / 8192 % 8) (unit / 4096 % 2) (unit % 4096)
  | 14 => s.supRetire (unit % 2)
  | _ => s

/-- R510, R513, R476: P2 ends: the fault log has been applied, and the self-test's findings; lanes start to train, a cold
spare too, as no lane is SPARE_READY yet (Table 19). -/
def execStartUpP2End (bad : List (Nat × Nat)) (s : State) : Host.Outcome State Fault Refusal :=
  if s.boot.core ∨ s.phase ≠ 2 ∨ s.shutdown then .next s
  else
    let (log, s) := s.useNv 0x30 0 0 true
    let ws := logWords (log.body.getD [])
    let s := ws.foldl (fun s w => s.takeOut (w % 256) (w / 256 % 256) (w / 65536)) s
    let s := s.mapBoot fun b => { b with applied := ws.length }
    let s := bad.foldl (fun s x => s.takeOut x.1 7 x.2) s
    let s := s.setF Rg.BOOT_STAT_PHASE 3
    let s := (List.range 10).foldl (fun s n =>
      if s.laneState n = 0 ∧ s.on (Rg.LANE_CTL_ENABLE n) ∧ !tget (fun _ => false) s.rel.supRet (n / 5) then s.startLane n else s) s
    .next ((s.trainCold 0).trainCold 1)

/-! ## P3: images and standalone items (R510, R518, R543) -/

/-- The newest good copy of an image on a half, unless its cells have failed. -/
def State.imageCopy (s : State) (type half : Nat) (bad : List (Nat × Nat)) : Option (List Byte) :=
  let slot := if type = 0x40 then 0xFF else type - 0x41
  if bad.contains (half, slot) then none
  else
    let l := ((s.nvLocs type 0).filter fun x => x.half == half).map s.readCopy
    match l.filter fun c => c.good with
    | c :: _ => some c.body
    | [] => none

/-- A half's image of a slot (0xFF: vendor firmware) is installed: its own copy, else the other half's, else for vendor
firmware the factory image (R518). -/
def State.bootImage (s : State) (h slot : Nat) (factory : List Byte) (bad : List (Nat × Nat)) : State :=
  let type := if slot = 0xFF then 0x40 else 0x41 + slot
  let stored := (s.nvLocs type 0).any fun x => x.half == h
  match s.imageCopy type h bad, s.imageCopy type (1 - h) bad with
  | some b, _ => s.installOn h slot b
  | none, some b => if stored then (s.installOn h slot b).raise h Ev.IMAGE_FALLBACK slot [h, 1] else
      if slot = 0xFF then (s.installOn h slot factory).setF Rg.BOOT_STAT_FW_FALLBACK 1 else s
  | none, none =>
    if slot = 0xFF then
      let s := (s.installOn h slot factory).setF Rg.BOOT_STAT_FW_FALLBACK 1
      if stored then s.raise h Ev.IMAGE_FALLBACK slot [h, 2] else s
    else s

/-- Every image of both halves (R331, R332); the version of H0's firmware is the installed one. -/
def State.bootImages (s : State) (factory : List Byte) (bad : List (Nat × Nat)) : State :=
  let s := (List.range 2).foldl (fun s h =>
    [0xFF, 0, 1, 2, 3].foldl (fun s slot => s.bootImage h slot factory bad) s) s
  match (s.engH 0).vendor with
  | some i => s.setF Rg.ENG_FWVER_FW_VERSION i.version
  | none => s

/-- PARAM bytes of an item's record, as its command would carry them. -/
def itemParam (b : List Byte) : List Byte := fitBytes 48 b

/-- A hop at once of the masked groups in service: as an LO_HOP whose effect time is its application (Table 164). -/
def State.hopNow (s : State) (mask e : Nat) : State :=
  let gs := (maskList 8 mask).filter s.groupIn
  if e ≤ 63 && s.hopValid gs e then gs.foldl (fun s g => s.hopGroup g e) s else s

/-- An initial vote (Table 164): cast at once as the BASEBAND client's, or kept as a timed vote (R458, R459). -/
def State.initialVote (s : State) (b : List Byte) : State :=
  let f (i n : Nat) : Nat := leNat ((b.drop i).take n)
  let ds := s.voteDoms (f 0 1) (f 1 1)
  let on := f 2 1 == 1
  if !(f 2 1 == 1 || f 2 1 == 2) then s
  else if f 4 4 = 0 then s.castVotes 1 on ds 7
  else
    let a := stampOfWord (f 4 4) (f 8 2)
    let at_ := countOf s.muRef a
    if stampOk s.muRef a ∧ s.timedRefusal ds at_ = St.OK then
      s.addTimed { doms0 := domMask 0 ds, doms1 := domMask 1 ds, on := on, at_ := at_, waking := false }
    else s

/-- Apply one item of the standalone radio record, unless the rule that owns its content refuses it (R543). -/
def State.radioItem (s : State) (tag : Nat) (b : List Byte) : State :=
  let p := itemParam b
  let f (i n : Nat) : Nat := leNat ((b.drop i).take n)
  match tag with
  | 1 => if (s.dlBad (dlArg p)).isNone && !s.dlInUse (dlArg p) then s.setDl (dlArg p) else s
  | 2 => if (s.ulBad (ulArg p)).isNone && !s.ulInUse (ulArg p) then s.setUl (ulArg p) else s
  | 3 => if s.schedBad (schedArg b) || s.schedLate (schedArg b) then s else s.setSched (schedArg b)
  | 4 =>
    let khz := f 4 4 % 2 ^ 23
    if f 0 1 ≤ 63 && !freqBad khz && !s.hopInUse (f 0 1) then s.setHop (f 0 1) khz (f 8 1 % 2 == 1) else s
  | 5 => s.hopNow (f 0 1) (f 1 1)
  | 6 => if (dpdBad (dpdArg p)).isNone then s.setDpdRec (dpdArg p) else s
  | 7 => s.mapBoot fun x => { x with solvDue := (x.solvDue.filter fun e => !(e.1 == f 0 1)) ++ [(f 0 1, p)] }
  | 8 =>
    let l := scriptArgs (f 2 1) (b.drop 4)
    if itemBad 8 b || l.any (fun e => e.anchor == 7) || s.scriptOver (f 0 1) (f 1 1) l then s else s.putScript (f 0 1) (f 1 1) l
  | 9 => if classBad (f 0 1) then s else s.setRoute 0 (f 0 1) (f 1 1)
  | 10 => s.initialVote b
  | _ => s

/-- The items of the stored standalone radio record. -/
def State.radioRecord (s : State) : List (Nat × List Byte) :=
  match s.nvBody 0x13 0 with
  | some b => (radioItems (b.length + 1) b).getD []
  | none => []

/-- R510, R511, R526, R459: P3 ends once the reference PLL is locked: images are in, standalone items are applied in body
order and the lines driven, READY sets, and the first votes are cast. -/
def execStartUpP3End (factoryImage : List Byte) (badImages : List (Nat × Nat)) (s : State) : Host.Outcome State Fault Refusal :=
  if s.boot.core ∨ s.phase ≠ 3 ∨ s.shutdown ∨ s.refState ≠ 1 then .next s
  else
    let s := s.bootImages factoryImage badImages
    let (arr, eng) := s.clkTargets (s.raw Rg.THERM_STAT_LEVEL)
    let s := (((s.setF (clkFld 0) arr).setF (clkFld 1) arr).setF (clkFld 2) eng).setF (clkFld 3) eng
    let s := s.throttleClocks
    let s := (s.setF Rg.BOOT_STAT_PHASE 4).setF Rg.BOOT_STAT_READY 1
    let s := s.firstVotes
    let s := if s.standalone then (s.radioRecord.foldl (fun s x => s.radioItem x.1 x.2) s).driveAll else s
    let ms := (s.time.now - s.boot.p1At) / Config.ticksPerSubframe
    .next (s.raise s.lead Ev.BOOT_DONE 0 [s.raw Rg.BOOT_STAT_CAUSE, ms, s.boot.applied])

end Sys2Proof.Machine
end

