-- ==== Sys2Proof/Machine/Reliability.lean ====
section
/-! DEFINITION. Spares, fault coverage, halves and the baton (ch. 17): the configuration scrub and its safe states, clock and
supervisor failures, slices, DAC cells, die-to-die wires, the baton and split mode. -/

namespace Sys2Proof.Machine

/-! ## Configuration (R482) -/

/-- Value of a register in the set-up register record: that of its last pair. -/
def State.recordReg (s : State) (off : Nat) : Option Word :=
  let b := (s.nvBody 0x11 0).getD []
  ((List.range (b.length / 8)).reverse.find? fun i => leNat ((b.drop (8 * i)).take 4) == off).map fun i =>
    BitVec.ofNat 32 (leNat ((b.drop (8 * i + 4)).take 4))

/-- The RW and RWL fields of a register take the values of a word. -/
def State.reloadFields (s : State) (off : Nat) (v : Word) : State :=
  match regRow? off with
  | some r => s.setReg off (r.fields.foldl (fun w f => match f.acc with
    | .rw => fset w f.lo f.w (fget v f.lo f.w)
    | .rwl => fset w f.lo f.w (fget v f.lo f.w)
    | _ => w) (s.reg off))
  | none => s

/-- A function enters its safe state (Table 136). -/
def State.enterSafe (s : State) (row idx : Nat) : State :=
  let s := if s.isSafe row idx then s else s.mapRel fun r => { r with safe := (row, idx) :: r.safe }
  match row with
  | 1 => (List.range 64).foldl (fun s p =>
      let st := (s.fep p).state
      if st = 1 ∨ st = 2 then (s.txOff p).feTo p 0 else s) s
  | 2 => s.groupsIn.foldl (fun s g => if (s.group g).entry = some idx then s.evalReady g else s) s
  | 3 => ({ s with flowFx := tset (fun _ => []) s.flowFx idx [] }.applyFx idx { at_ := s.time.count, ctx := none }).flowEnd idx
  | 6 => s.capIdle idx
  | 7 => if (s.biasOut idx).state = 0 then s else s.mapBias idx fun b => b.stop 4 0
  | 8 =>
    let st := (s.fep idx).state
    (if 1 ≤ st ∧ st ≤ 4 then (s.txOff idx).feTo idx 0 else s.txOff idx).prioMeasure idx
  | _ => s

/-- An item of the standalone radio record that holds a function of Table 136. -/
def itemHolds (row idx tag : Nat) (b : List Byte) : Bool :=
  let f (i n : Nat) : Nat := leNat ((b.drop i).take n)
  match row, tag with
  | 0, 1 => (dlArg (itemParam b)).carrier == idx
  | 0, 2 => (ulArg (itemParam b)).carrier + 4 == idx
  | 1, 3 => true
  | 2, 4 => f 0 1 == idx
  | 4, 6 => f 0 1 == idx
  | 5, 7 => f 0 1 == idx
  | 9, 8 => decide (f 0 1 * 128 + f 1 1 ≤ idx) && decide (idx < f 0 1 * 128 + f 1 1 + f 2 1)
  | _, _ => false

/-- The record of a function is reloaded from the store, where standalone service holds it there (R482). -/
def State.reloadFunc (s : State) (row idx : Nat) : State :=
  if !s.standalone then s
  else match (s.radioRecord.filter fun x => itemHolds row idx x.1 x.2).getLast? with
    | none => s
    | some x =>
      let b := x.2
      match row with
      | 2 => (s.setHop idx (leNat ((b.drop 4).take 4) % 2 ^ 23) (leNat ((b.drop 8).take 1) % 2 == 1)).relockAll
      | 5 => s.setSolver (solverArg (itemParam b))
      | _ => s.radioItem x.1 b

/-- One field whose three copies differ: its safe state, CFG_CORRUPT, and the reload (R482, Table 136). A register takes its
stored value, else its reset value; a front-end timing register without a stored one idles every group. -/
def State.cfgCorrupt (s : State) (h : Nat) (x : CfgFault) : State :=
  let s := s.bump (Rg.C_CFG_CORRUPT h) 1
  match x with
  | .func row idx => ((s.enterSafe row.val idx).raise h Ev.CFG_CORRUPT row.val [h, idx]).reloadFunc row.val idx
  | .reg off =>
    let timing := off = 0x2204 ∨ off = 0x2208 ∨ off = 0x220C
    let stored := s.recordReg off
    let s := if timing ∧ stored.isNone then s.enterSafe 1 1 else s
    (s.reloadFields off (stored.getD (regReset off))).raise h Ev.CFG_CORRUPT (if timing then 1 else 10) [h, off]

/-- Two copies of a field agree: the third is rewritten (R482). -/
def copiesAgree (x : CfgCopies) : Bool := x.a == x.b || x.b == x.c || x.a == x.c

/-- R482: where two copies agree the third is rewritten, and the value in use, their majority, stays; else the field is corrupt. -/
def execConfigScrub (h : Half) (found : List CfgCopies) (s : State) : Host.Outcome State Fault Refusal :=
  let h := h.val
  if !s.on Rg.REL_CFG_CFG_SCRUB_EN then .next s
  else
    let s := s.paceRun 5 h (Rg.C_CFG_SCRUB_LATE h)
    let fixed := (found.filter fun x => copiesAgree x && !(x.a == x.b && x.b == x.c)).length
    let s := if fixed = 0 then s else s.bump (Rg.C_CFG_FIXED h) fixed
    .next ((found.filter fun x => !copiesAgree x).foldl (fun s x => s.cfgCorrupt h x.field) s)

/-! ## The baton (R494 to R496) -/

/-- What a supervisor holds of the baton. -/
def State.baton (s : State) (h : Nat) : BatonSt := tget BatonSt.reset s.rel.baton h

/-- Change it. -/
def State.mapBaton (s : State) (h : Nat) (f : BatonSt → BatonSt) : State :=
  s.mapRel fun r => { r with baton := tset BatonSt.reset r.baton h (f (s.baton h)) }

/-- A supervisor has stopped, or is retired. -/
def State.supDown (s : State) (h : Nat) : Bool := tget (fun _ => false) s.rel.supStop h

/-- A lead half acts again: events are numbered in the order raised, completions written (R496). -/
def State.leadActs (s : State) : State :=
  if s.leaderless then s
  else
    let ev := s.cmd.evtQ
    let cp := s.cmd.cplQ
    let s := s.mapCmd fun c => { c with evtQ := [], cplQ := [] }
    let s := ev.foldl (fun s x => s.raiseNow x.1 x.2.1 x.2.2.1 x.2.2.2) s
    cp.foldl (fun s x => s.deliver x.1 x.2.1 x.2.2) s

/-- A half becomes the lead half (R32, Table 110). -/
def State.setLead (s : State) (h : Nat) : State :=
  let was := s.lead
  let s := (s.setF Rg.CFG_STAT_LEAD h).setF Rg.REL_STAT_HOLDER h
  let s := s.setF Rg.BATON_EPOCH_EPOCH (s.baton h).epoch
  if was = h then s else s.irq 7

/-- A broadcast received within 250 µs. -/
def State.heard (s : State) (h : Nat) : Option (Nat × Bool × Bool) :=
  match (s.baton h).rx with
  | some (e, c, k, t) => if s.time.now ≤ t + usTicks 250 then some (e, c, k) else none
  | none => none

/-- The other half has been silent for 300 µs, and held the baton as far as this one knows. -/
def State.silent (s : State) (h : Nat) : Bool :=
  match (s.baton h).rx with
  | some (_, c, _, t) => c && decide (t + usTicks 300 ≤ s.time.now)
  | none => h == 1 && decide (usTicks 300 ≤ s.time.now)

/-- This half wins a dispute: by the claim, else by EPOCH, else H0. -/
def disputeWinner (h own other : Nat) : Nat := if other < own then h else if own < other then 1 - h else 0

/-- The rules of R496 at a half's broadcast instant. -/
def State.batonRules (s : State) (h : Nat) : State :=
  let b := s.baton h
  let o := 1 - h
  if b.fresh.isSome then s
  else if !b.claim ∧ s.silent h ∧ s.on Rg.D2D_STAT_LINK_UP then
    let e := (max b.epoch (s.reg 0x100C).toNat + 1) % 2 ^ 32
    let s := (s.mapBaton h fun b => { b with claim := true, epoch := e }).setLead h
    let s := (s.setF Rg.REL_STAT_DISPUTE 0).mapRel fun r => { r with dispute := none }
    (s.raise h Ev.BATON_MOVED h [e, if tget (fun _ => false) s.rel.supRet o then 2 else 1]).leadActs
  else match s.heard h with
    | none => s
    | some (e, c, k) =>
      if b.claim ≠ c ∨ b.copying ∨ k then s
      else
        let w := disputeWinner h b.epoch e
        let kind := if c then 1 else 2
        let now := s.time.now
        let le := if w = h then e else b.epoch
        let s := if s.rel.dispute.isSome then s
          else (s.setF Rg.REL_STAT_DISPUTE 1).mapRel fun r => { r with dispute := some (now, 1 - w, le, kind) }
        if w = h then
          if c then s else s.mapBaton h fun b => { b with claim := true, epoch := (max b.epoch e + 1) % 2 ^ 32 }
        else s.mapBaton h fun b => { b with claim := false, copying := true }

/-- The loser's first broadcast with CLAIM and COPYING clear and the winner's EPOCH ends a dispute (R496). -/
def State.disputeEnd (s : State) (h : Nat) : State :=
  match s.rel.dispute with
  | none => s
  | some (since, loser, le, kind) =>
    let w := 1 - loser
    let b := s.baton h
    if h ≠ loser ∨ b.claim ∨ b.copying ∨ b.epoch ≠ (s.baton w).epoch then s
    else
      let us := (s.time.now - since) * 100 / 49152
      let s := (s.setF Rg.REL_STAT_DISPUTE 0).mapRel fun r => { r with dispute := none }
      let s := (s.setLead w).bump (Rg.C_BATON_CONFLICT w) 1
      (s.raise w Ev.BATON_CONFLICT w [(s.baton w).epoch, le, kind, us]).leadActs

/-- A broadcast as bytes: EPOCH, CLAIM and COPYING, CRC-8 (R494; the order is the model's, log 84). -/
def batonBytes (epoch : Nat) (claim copying : Bool) : List Byte :=
  let l := beBytes 4 epoch ++ beBytes 1 (b2n claim + 2 * b2n copying)
  l ++ leBytes 1 (crc8 l)

/-- R494, R496: a supervisor that runs applies its rules, and broadcasts. In split mode each half keeps its own baton. -/
def execBatonBroadcast (h : Half) (s : State) : Host.Outcome State Fault Refusal :=
  let h := h.val
  if s.supDown h ∨ s.split then .next s
  else
    let s := s.batonRules h
    let now := s.time.now
    let s := (s.mapBaton h fun b => { b with sent := some (b.epoch, b.claim, b.copying, now) }).d2dPush h .baton 48
    .next (s.disputeEnd h)

/-- R494, R496: the other half's last broadcast arrives; one that fails its CRC is ignored. -/
def execBatonBroadcastReceived (h : Half) (bytes : List Byte) (s : State) : Host.Outcome State Fault Refusal :=
  let h := h.val
  let crcOk := crc8 (bytes.take 5) == leNat ((bytes.drop 5).take 1)
  match (s.baton (1 - h)).sent with
  | none => .next s
  | some (_, _, _, t) =>
    if !crcOk ∨ s.supDown h ∨ s.split then .next s
    else
      let now := s.time.now
      let e := beNat bytes 0 4
      let k := beNat bytes 4 1
      .next (s.mapBaton h fun b =>
        { b with rx := some (e, k % 2 == 1, k / 2 % 2 == 1, now), fresh := match b.fresh with
            | some r => if r ≤ t then none else some r
            | none => none })

/-- R496: the loser has replaced its log and mirrored state, with the winner's EPOCH. -/
def execBatonCopyDone (h : Half) (s : State) : Host.Outcome State Fault Refusal :=
  let h := h.val
  if (s.baton h).copying then
    let e := (s.baton (1 - h)).epoch
    .next (s.mapBaton h fun b => { b with copying := false, epoch := e })
  else .next s

/-! ## Split mode (R497) -/

/-- Enter split mode: 1 no wire left, 2 no clock pair, 3 no valid check period. Each half leads its own units with its own
counter and its own copy of the routing; what waited for a lead half goes out. -/
def State.enterSplit (s : State) (why : Nat) : State :=
  if s.split then s
  else
    let s := (((s.setF Rg.CFG_STAT_SPLIT 1).setF Rg.D2D_STAT_LINK_UP 0).setF Rg.CAL_STAT_TIE_OK 0).setF Rg.REF_STAT_LINK_FAIL 1
    let s := (s.setF Rg.REL_STAT_DISPUTE 0).mapRel fun r => { r with dispute := none }
    let s := (s.mapBaton 0 fun b => { b with claim := true, copying := false }).mapBaton 1 fun b =>
      { b with claim := true, copying := false }
    let s := { s with ref := { s.ref with h1Locked := false } }.d2dDown
    let s := s.mapCmd fun c =>
      { c with seqH1 := c.seq
               route := (c.route.filter fun e => e.1 < 256) ++ ((c.route.filter fun e => e.1 < 256).map fun e => (e.1 + 256, e.2)) }
    let s := ((s.setLead 0).irq 7).leadActs
    let s := (s.linkNotice 0 false []).linkNotice 1 false []
    let s := (s.raise 0 Ev.SPLIT_MODE 0 [why]).raise 1 Ev.SPLIT_MODE 0 [why]
    ((s.evalRel).request 3 0 0).request 3 1 0

/-- R497: a direction has been unusable for 10 µs. -/
def execSplitModeEntry (why : Nat) (s : State) : Host.Outcome State Fault Refusal := .next (s.enterSplit why)

/-! ## Die-to-die wires (R489, R490) -/

/-- R489: a check fails when the CRC-8 is not that of the payload bits: the receiving half asks for a replay from that period on;
four failures within 64 check periods make the wire faulty. -/
def execD2dCheckFail (dir : Half) (wire : Fin 32) (period : Nat) (bits : List Byte) (crc : Byte) (sending : Nat) (s : State) :
    Host.Outcome State Fault Refusal :=
  if crc8 (fitBytes 15 bits) = crc.toNat then .next s
  else
  let key := 32 * dir.val + wire.val
  let s := (s.bump (Rg.C_D2D_REPLAY (1 - dir.val)) 1).d2dReplay dir.val (sending + 1 - period)
  let l := period :: (tget (fun _ => []) s.rel.wireBad key).filter fun p => decide (period < p + 64)
  let s := s.mapRel fun r => { r with wireBad := tset (fun _ => []) r.wireBad key (l.take 4) }
  .next (if 4 ≤ l.length then s.mapRel fun r => { r with wireDue := tset (fun _ => false) r.wireDue key true } else s)

/-- Number of a domain in the order of Table 137. -/
def clkRow : ClkDom → Nat
  | .ref => 0
  | .smp => 1
  | .cnv => 2
  | .obs => 3
  | .arr => 4
  | .eng => 5
  | .lnk _ => 6
  | .hst => 7
  | .ctl => 8
  | .d2d => 9
  | .aon => 10

/-- R490: a spare wire, or the standby clock pair, takes over at the boundary of 16 check periods after the last failure, and the
periods from the first failed one, or since the clock failed, are replayed; without one the device enters split mode. -/
def execD2dWireRelay (dir : Half) (wire : Option (Fin 32)) (s : State) : Host.Outcome State Fault Refusal :=
  let d := dir.val
  match wire with
  | some w =>
    let key := 32 * d + w.val
    if s.split ∨ !tget (fun _ => false) s.rel.wireDue key then .next s
    else
      let failed := tget (fun _ => []) s.rel.wireBad key
      let s := s.mapRel fun r =>
        { r with wireDue := tset (fun _ => false) r.wireDue key false, wireBad := tset (fun _ => []) r.wireBad key [] }
      if s.wireSpare d = 0 then .next (s.enterSplit 1)
      else
        let s := (s.wireOut key).d2dReplay d ((failed.headD 0 / 16 + 1) * 16 - failed.getLastD 0)
        .next (s.raise (1 - d) Ev.D2D_RELAY w.val [d, s.wireSpare d])
  | none =>
    if s.split ∨ !tget (fun _ => false) s.rel.clkDue d then .next s
    else
      let x := if d = 0 then Rg.D2D_STAT_STBY_CLK_01 else Rg.D2D_STAT_STBY_CLK_10
      let s := s.mapRel fun r => { r with clkDue := tset (fun _ => false) r.clkDue d false }
      if s.on x then .next (s.enterSplit 2)
      else
        let s := (((s.setF x 1).logFault 8 (32 * d + 31)).spareIn d).exhaust d 8
        let since := (tget (fun _ => []) s.rel.clkFail (2 * clkRow .d2d + (1 - d))).headD s.time.now
        let s := s.d2dReplay d ((s.time.now - since) * 15625 / 61440 + 1)
        .next (s.raise (1 - d) Ev.D2D_RELAY 0xFF [d, 0])

/-! ## Supervisors and clocks (R484, R485) -/

/-- A supervisor diverges and stops: the third time within 10 s it is retired (R485). -/
def State.diverge (s : State) (h : Nat) : State :=
  if s.supDown h then s
  else
    let now := s.time.now
    let l := now :: (tget (fun _ => []) s.rel.supDiv h).filter fun t => decide (now < t + 10 * Config.ticksPerSecond)
    let s := s.mapRel fun r =>
      { r with supDiv := tset (fun _ => []) r.supDiv h (l.take 3), supStop := tset (fun _ => false) r.supStop h true }
    let gone := decide (3 ≤ l.length)
    let s := (s.bump (Rg.C_SUP_RESTART h) 1).raise h Ev.SUP_RESTART h [l.length, b2n gone]
    if gone then s.supRetire h else s

/-- R485. -/
def execSupervisorDiverge (h : Half) (s : State) : Host.Outcome State Fault Refusal := .next (s.diverge h.val)

/-- R485, R496: the supervisor runs again, with the CLAIM and EPOCH it had. -/
def execSupervisorRestartDone (h : Half) (s : State) : Host.Outcome State Fault Refusal :=
  let h := h.val
  if !s.supDown h || tget (fun _ => false) s.rel.supRet h then .next s
  else
    let now := s.time.now
    let s := s.mapRel fun r => { r with supStop := tset (fun _ => false) r.supStop h false }
    .next (s.mapBaton h fun b => { b with fresh := some now }).leadActs

/-- The reference PLL of a half gates its outputs; when the failure recurs it is retired with the half's paths (Table 137). -/
def State.pllFail (s : State) (h : Nat) (again : Bool) : State :=
  let s := if h = 0 then s.refGate else { s.gateLos ((List.range 5).map (· + 5)) with ref := { s.ref with h1Locked := false } }
  if again then (s.mapRel fun r => { r with pllRet := tset (fun _ => false) r.pllRet h true }).retireHalf h else s

/-- The engines of a half start their tasks over; when the failure recurs they are retired (Table 137). -/
def State.engFail (s : State) (h : Nat) (again : Bool) : State :=
  let es := (List.range 5).map (· + 5 * h)
  if again then
    let s := es.foldl (fun s e =>
      if s.aeState e = 6 then s
      else
        let s := s.mapEng e fun x => { x with saved := [], again := none, test := 0 }
        (((s.setRun e none).setF (Rg.AE_STAT_STATE e) 6).setF (Rg.AE_STAT_SERVING e) 0).logFault 5 e) s
    let s := (s.setF (spareFld h) 0).setF (windowFld h) 0
    ((s.mapRel fun r => { r with engGone := tset (fun _ => false) r.engGone h true }).exhaust h 5).evalRel
  else es.foldl (fun s e => match (s.engOf e).run with
    | some t => s.setRun e (some (s.again h t))
    | none => s) s

/-- R484, R289, R290: a clock monitor's failure, and its third within 1 s. -/
def execClockMonitorFail (h : Half) (d : ClkDom) (s : State) : Host.Outcome State Fault Refusal :=
  let h := h.val
  let now := s.time.now
  let key := (match d with
    | .lnk p => 11 + p.val
    | x => clkRow x) * 2 + h
  let l := now :: (tget (fun _ => []) s.rel.clkFail key).filter fun t => decide (now < t + Config.ticksPerSecond)
  let s := s.mapRel fun r => { r with clkFail := tset (fun _ => []) r.clkFail key (l.take 3) }
  let s := s.bump (Rg.C_CLK_MON h) 1
  let again := decide (3 ≤ l.length)
  let s := s.raise h Ev.CLK_FAIL (clkRow d) [h, l.length, if again then 2 else 1]
  .next (match d with
    | .ref => s.pllFail h again
    | .smp => s.pllFail h again
    | .cnv => s.pllFail h again
    | .obs => s.pllFail h again
    | .arr => if again then s.retireHalf h
      else (s.setF (clkFld h) 0).mapRel fun r => { r with arrAt := tset (fun _ => 0) r.arrAt h (now + usTicks 30) }
    | .eng => s.engFail h again
    | .lnk p => s.hardFault (5 * h + p.val) 1
    | .hst => s.hostReset false
    | .ctl => if s.on Rg.REF_STAT_CTL_OSC then s.diverge h else s.setF Rg.REF_STAT_CTL_OSC 1
    | .d2d => if again then s.enterSplit 2 else s.mapRel fun r => { r with clkDue := tset (fun _ => false) r.clkDue (1 - h) true }
    | .aon => s.aonFail)

/-! ## Front-end digital slices (R486, R487) -/

/-- A slice is retired. -/
def State.sliceOut (s : State) (n : Nat) : Bool := tget (fun _ => false) s.rel.sliceRet n

/-- A spare slice of a half, first or second (Table 3). -/
def spareSlice (h : Nat) (second : Bool) : Nat := 34 * h + 32 + b2n second

/-- A spare slice is available: not retired, serving no path and in no relay. -/
def State.spareFree (s : State) (n : Nat) : Bool :=
  let h := n / 34
  !s.sliceOut n && !((halfPaths h).any fun p => s.sliceOf p == n || (match tget (fun _ => (none : Option SliceRelay)) s.rel.relays p with
    | some r => r.spare == n
    | none => false))

/-- What a spare shadows. -/
def State.shadowOf (s : State) (n : Nat) : Option Nat := tget (fun _ => none) s.rel.shadow n

/-- Set it. -/
def State.setShadow (s : State) (n : Nat) (x : Option Nat) : State :=
  s.mapRel fun r => { r with shadow := tset (fun _ => none) r.shadow n x }

/-- The slices that a spare shadows in turn: half of those in service, or all of them with one spare left. -/
def State.shadowTurn (s : State) (h : Nat) (second : Bool) : List Nat :=
  let both := s.spareFree (spareSlice h false) && s.spareFree (spareSlice h true)
  let ps := (halfPaths h).filter fun p => !both || (decide (16 ≤ p % 32) == second)
  (ps.filter fun p => s.pathIn p).map s.sliceOf

/-- The element after one in a list, cyclically; the first one else. -/
def nextIn (l : List Nat) (x : Option Nat) : Option Nat :=
  match x with
  | none => l.head?
  | some n => match (l.dropWhile fun y => !(y == n)).drop 1 with
    | y :: _ => some y
    | [] => l.head?

/-- R486: a spare slice moves to the next slice of its turn. -/
def execSliceShadowTurn (h : Half) (second : Bool) (s : State) : Host.Outcome State Fault Refusal :=
  let n := spareSlice h.val second
  if !s.on Rg.REL_CFG_SHADOW_EN || !s.spareFree n then .next (s.setShadow n none)
  else .next (s.setShadow n (nextIn (s.shadowTurn h.val second) (s.shadowOf n)))

/-- A spare slice is faulty: it is retired (R486, Table 135 row 2). -/
def State.spareSliceOut (s : State) (n : Nat) : State :=
  if s.sliceOut n then s
  else
    let h := n / 34
    let s := ((s.setShadow n none).mapRel fun r => { r with sliceRet := tset (fun _ => false) r.sliceRet n true }).logFault 2 n
    if s.spareFree (spareSlice h false) || s.spareFree (spareSlice h true) then s.evalRel else s.exhaust h 2

/-- A slice is faulty (R486, R487): a spare is loaded and shadows its path until the switch; with none left the path is retired. -/
def State.sliceFaulty (s : State) (n : Nat) (parity : Bool) : State :=
  let h := n / 34
  if s.sliceOut n then s
  else match (halfPaths h).find? fun p => s.sliceOf p == n with
    | none => s.spareSliceOut n
    | some p =>
      if (tget (fun _ => (none : Option SliceRelay)) s.rel.relays p).isSome then s
      else match [spareSlice h false, spareSlice h true].find? s.spareFree with
        | some k =>
          (s.setShadow k none).mapRel fun r => { r with relays := tset (fun _ => none) r.relays p (some ⟨k, parity⟩) }
        | none =>
          ((s.mapRel fun r => { r with sliceRet := tset (fun _ => false) r.sliceRet n true }).logFault 2 n).retirePath p 2

/-- The verdict on a mismatch (R486): of three, the two that agree are right; 0 without one that stands alone, 1 against the slice,
2 against the spare. Without another spare the test of the idle spare decides. -/
def sliceVerdict (other : Bool) (slice spare third : List Cplx) (pass : Bool) : Nat :=
  if !other then (if pass then 1 else 2)
  else if spare = third ∧ slice ≠ third then 1 else if slice = third ∧ spare ≠ third then 2 else 0

/-- R486: a mismatch is counted and reported with its verdict; a faulty spare is retired, a faulty slice relayed out. -/
def execSliceMismatch (h : Half) (second : Bool) (slice spare third : List Cplx) (pass : Bool) (s : State) :
    Host.Outcome State Fault Refusal :=
  let h := h.val
  let n := spareSlice h second
  match s.shadowOf n with
  | none => .next s
  | some x =>
    if slice = spare then .next s
    else
      let v := sliceVerdict (s.spareFree (spareSlice h (!second))) slice spare third pass
      let s := (s.bump (Rg.C_SLICE_MISMATCH h) 1).raise h Ev.SLICE_MISMATCH x [n, v]
      .next (if v = 2 then s.spareSliceOut n else if v = 1 then s.sliceFaulty x false else s)

/-- R486, R487. -/
def execSliceParityFault (slice : Fin 68) (parity : Bool) (s : State) : Host.Outcome State Fault Refusal :=
  .next (s.sliceFaulty slice.val parity)

/-- R487, R217: the path's outputs switch to the spare slice, which holds the same corrections, banks and filter state. -/
def execSliceRelaySwitch (path : PathNo) (s : State) : Host.Outcome State Fault Refusal :=
  let p := path.val
  let h := p / 32
  match tget (fun _ => (none : Option SliceRelay)) s.rel.relays p with
  | none => .next s
  | some r =>
    let old := s.sliceOf p
    let s := s.mapRel fun x =>
      { x with
        relays := tset (fun _ => none) x.relays p none
        sliceRet := tset (fun _ => false) x.sliceRet old true
        sliceOf := tset (fun p => if p < 32 then p else p + 2) x.sliceOf p r.spare }
    let s := (s.logFault 2 old).bump (Rg.C_SLICE_RELAY h) 1
    let s := (s.raise h Ev.SLICE_RELAY p [r.spare, old, if r.parity then 1 else 2]).spareIn h
    let s := s.relayedIn (p / 8)
    .next (if s.spareFree (spareSlice h false) || s.spareFree (spareSlice h true) then s else s.exhaust h 2)

/-! ## TX DAC cells (R488) -/

/-- A cell's weight lies more than 2 % from nominal. -/
def cellOff (w : Nat) : Bool := decide (200 < ((w : Int) - 10000).natAbs)

/-- R488: a cell that is open, or off on two consecutive measurements, is replaced by a spare cell and the path measured anew; without
one the path is retired. -/
def execDacCellReplace (path : PathNo) (q : Bool) (cell : BitVec 8) (w1 w2 : Nat) (isOpen : Bool) (s : State) :
    Host.Outcome State Fault Refusal :=
  let p := path.val
  let h := p / 32
  if !s.on Rg.REL_CFG_CELL_EN || s.pathOut p || !(isOpen || (cellOff w1 && cellOff w2)) then .next s
  else
    let left := s.cellsLeft p q
    let s := s.cellOut ((2 * p + b2n q) * 256 + cell.toNat)
    .next (if left = 0 then s
      else ((s.bump (Rg.C_DAC_CELL_SWAP h) 1).raise h Ev.DAC_CELL_SWAP p [b2n q + 2 * cell.toNat, left - 1]).prioMeasure p)

/-! ## REPLACE_REQUEST (R493) -/

/-- R493: the last REPLACE_REQUEST message is repeated while SERVICE or SPLIT lasts and the lead half's LINK runs. -/
def execReplaceRequestRepeat (s : State) : Host.Outcome State Fault Refusal :=
  if s.raw Rg.REL_STAT_STATE < 2 ∨ s.f Rg.REL_CFG_REPLACE_REPEAT = 0 ∨ s.dom s.lead 6 ≠ 0
      ∨ s.time.now < s.rel.replAt + Config.ticksPerSecond * s.f Rg.REL_CFG_REPLACE_REPEAT then .next s
  else match s.rel.reported with
    | (k, half) :: _ =>
      .next ((s.sendMsg s.msgHalf 0x0004 (beBytes 2 (k / 16) ++ beBytes 1 half ++ zeros 1)).mapRel fun r => { r with replAt := s.time.now })
    | [] => .next s

end Sys2Proof.Machine
end

