-- ==== Sys2Proof/Machine/Tap.lean ====
section
/-! DEFINITION. The test access port (R535): the two TAPs' instructions, the core reset that five of them hold, TRST_N. -/

namespace Sys2Proof.Machine

/-- The TAP of a half. -/
def State.tapOf (s : State) (h : Half) : Tap := if h = 0 then s.tap.h0 else s.tap.h1

/-- Change the TAP of a half. -/
def State.mapTap (s : State) (h : Half) (f : Tap → Tap) : State :=
  { s with tap := if h = 0 then { s.tap with h0 := f s.tap.h0 } else { s.tap with h1 := f s.tap.h1 } }

/-- Whether an instruction holds the core reset. -/
def TapIr.holds : TapIr → Bool
  | .quiet _ => false
  | .hold _ => true

/-- Whether a TAP holds the core reset. -/
def State.tapHolds (s : State) : Bool := s.tap.h0.ir.holds || s.tap.h1.ir.holds

/-- The identification code of a half. -/
def tapIdcode (h : Half) : Word := if h = 0 then 0x064089AF#32 else 0x064099AF#32

/-- The data register that an instruction selects: 0 bypass, 1 identification, 2 boundary (IEEE 1149.1, log 19). -/
def TapIr.dataReg : TapIr → Nat
  | .quiet .bypass => 0
  | .quiet .idcode => 1
  | .quiet .samplePreload => 2
  | .hold .clamp => 0
  | .hold .highz => 0
  | .hold _ => 2

/-- What a TAP makes of a ball with a boundary cell: its functional level (none), floating (some none), or its preloaded
level. -/
def Tap.ball (t : Tap) (c : BCell) : Option (Option Bool) :=
  match t.ir with
  | .quiet _ => none
  | .hold .highz => some none
  | .hold _ => some (t.preloaded.lookup c)

/-- The last instruction that held the core reset has left: start-up runs from P1 with CAUSE 1, unless something else holds
the core. -/
def State.tapFree (s : State) : State :=
  if s.tapHolds || !s.boot.conds.contains 4 then s
  else
    let s := s.clearCond 4
    if s.boot.conds.isEmpty then (s.mapBoot fun b => { b with cause := 1 }).coreRelease else s

/-- A TAP takes an instruction that does not hold the core; none while TRST_N is low. -/
def State.tapQuiet (s : State) (h : Half) (i : TapQuiet) : State :=
  if s.tap.trstHigh then (s.mapTap h fun t => { t with ir := .quiet i }).tapFree else s

/-- A TAP takes an instruction that holds the core reset; none while TRST_N is low. -/
def State.tapHold (s : State) (h : Half) (i : TapHold) : State :=
  if s.tap.trstHigh then
    let held := s.tapHolds
    let s := s.mapTap h fun t => { t with ir := .hold i }
    if held then s else s.assertReset 4 0
  else s

/-- R535. -/
def execBypass (tap : Half) (s : State) : Host.Outcome State Fault Refusal := .next (s.tapQuiet tap .bypass)

/-- R535. -/
def execIdcode (tap : Half) (s : State) : Host.Outcome State Fault Refusal := .next (s.tapQuiet tap .idcode)

/-- R535: the boundary cells sample their balls and take the levels shifted in. -/
def execSamplePreload (tap : Half) (sample preload : List (BCell × Bool)) (s : State) : Host.Outcome State Fault Refusal :=
  .next (if s.tap.trstHigh then
      (s.mapTap tap fun t => { t with sampled := sample, preloaded := preload }).tapQuiet tap .samplePreload
    else s)

/-- R535. -/
def execExtest (tap : Half) (s : State) : Host.Outcome State Fault Refusal := .next (s.tapHold tap .extest)

/-- R535. -/
def execExtestPulse (tap : Half) (s : State) : Host.Outcome State Fault Refusal := .next (s.tapHold tap .extestPulse)

/-- R535. -/
def execExtestTrain (tap : Half) (s : State) : Host.Outcome State Fault Refusal := .next (s.tapHold tap .extestTrain)

/-- R535. -/
def execClamp (tap : Half) (s : State) : Host.Outcome State Fault Refusal := .next (s.tapHold tap .clamp)

/-- R535. -/
def execHighz (tap : Half) (s : State) : Host.Outcome State Fault Refusal := .next (s.tapHold tap .highz)

/-- A TAP that holds the core takes another instruction. -/
def Tap.leave (t : Tap) (i : TapQuiet) : Tap := if t.ir.holds then { t with ir := .quiet i } else t

/-- R535: the instructions that hold the core leave both TAPs. -/
def execTapRelease (next : TapQuiet) (s : State) : Host.Outcome State Fault Refusal :=
  .next (if s.tapHolds then ((s.mapTap 0 fun t => t.leave next).mapTap 1 fun t => t.leave next).tapFree else s)

/-- A TAP in Test-Logic-Reset; its boundary cells keep what they hold. -/
def Tap.toReset (t : Tap) : Tap := { t with ir := Tap.reset.ir }

/-- R535: TRST_N low puts both TAPs in Test-Logic-Reset and keeps them there. -/
def execTrstN (high : Bool) (s : State) : Host.Outcome State Fault Refusal :=
  .next (if high then { s with tap := { s.tap with trstHigh := true } }
    else { s with tap := ⟨s.tap.h0.toReset, s.tap.h1.toReset, false⟩ }.tapFree)

end Sys2Proof.Machine
end

