-- ==== Sys2Proof/Machine/Dispatch.lean ====
section
/-! DEFINITION. The dispatch: one arm per command, each one direct call of its meaning. -/

namespace Sys2Proof.Machine

def exec (i : Instr) (s : State) : Host.Outcome State Fault Refusal :=
  match i with
  | .blockLockAcquired l inverted => Sys2Proof.Machine.execBlockLockAcquired l inverted s
  | .laneHardFault l k => Sys2Proof.Machine.execLaneHardFault l k s
  | .ccSequenceSend h => Sys2Proof.Machine.execCcSequenceSend h s
  | .ccSequenceReceived h fill => Sys2Proof.Machine.execCcSequenceReceived h fill s
  | .ebSlip l => Sys2Proof.Machine.execEbSlip l s
  | .amSend h => Sys2Proof.Machine.execAmSend h s
  | .amReceived l b => Sys2Proof.Machine.execAmReceived l b s
  | .linkRemove h copies => Sys2Proof.Machine.execLinkRemove h copies s
  | .linkRetrain h copies => Sys2Proof.Machine.execLinkRetrain h copies s
  | .linkAck h copies => Sys2Proof.Machine.execLinkAck h copies s
  | .linkNack h copies => Sys2Proof.Machine.execLinkNack h copies s
  | .linkAnswerTimeout h tag => Sys2Proof.Machine.execLinkAnswerTimeout h tag s
  | .trnFrameReceived l b => Sys2Proof.Machine.execTrnFrameReceived l b s
  | .rxReadyReached l eyeW eyeH => Sys2Proof.Machine.execRxReadyReached l eyeW eyeH s
  | .trainComplete l => Sys2Proof.Machine.execTrainComplete l s
  | .trainTimeout l => Sys2Proof.Machine.execTrainTimeout l s
  | .alignAmLock l => Sys2Proof.Machine.execAlignAmLock l s
  | .alignTimeout l => Sys2Proof.Machine.execAlignTimeout l s
  | .spareCheckComplete l => Sys2Proof.Machine.execSpareCheckComplete l s
  | .faultRetryTimer l => Sys2Proof.Machine.execFaultRetryTimer l s
  | .linkStartTimeout h => Sys2Proof.Machine.execLinkStartTimeout h s
  | .laneMarginal l bip code => Sys2Proof.Machine.execLaneMarginal l bip code s
  | .relayNackRetry h tag => Sys2Proof.Machine.execRelayNackRetry h tag s
  | .shortOfLanes h => Sys2Proof.Machine.execShortOfLanes h s
  | .checkerLock l bits => Sys2Proof.Machine.execCheckerLock l bits s
  | .injOneWrite l => Sys2Proof.Machine.execInjOneWrite l s
  | .injContInject l => Sys2Proof.Machine.execInjContInject l s
  | .laneCtlWrite l v => Sys2Proof.Machine.execLaneCtlWrite l v s
  | .laneActivity l => Sys2Proof.Machine.execLaneActivity l s
  | .wakeTone l => Sys2Proof.Machine.execWakeTone l s
  | .resumeTimeout l => Sys2Proof.Machine.execResumeTimeout l s
  | .packetReceived h rows => Sys2Proof.Machine.execPacketReceived h rows s
  | .nakRepeat h => Sys2Proof.Machine.execNakRepeat h s
  | .llcpNak h ackseq => Sys2Proof.Machine.execLlcpNak h ackseq s
  | .llcpAck h ackseq => Sys2Proof.Machine.execLlcpAck h ackseq s
  | .llcpRsync h seq => Sys2Proof.Machine.execLlcpRsync h seq s
  | .replayTimeout h => Sys2Proof.Machine.execReplayTimeout h s
  | .rsyncRepeat h => Sys2Proof.Machine.execRsyncRepeat h s
  | .packetSend h parity => Sys2Proof.Machine.execPacketSend h parity s
  | .voidReceived h rows => Sys2Proof.Machine.execVoidReceived h rows s
  | .sectionPacketReceived h bytes => Sys2Proof.Machine.execSectionPacketReceived h bytes s
  | .timingSet h b => Sys2Proof.Machine.execTimingSet h b s
  | .timingRequest h b => Sys2Proof.Machine.execTimingRequest h b s
  | .txnReq h b => Sys2Proof.Machine.execTxnReq h b s
  | .msgReceived h => Sys2Proof.Machine.execMsgReceived h s
  | .wakeOrderedSet h copies => Sys2Proof.Machine.execWakeOrderedSet h copies s
  | .flowEffect f => Sys2Proof.Machine.execFlowEffect f s
  | .dataBindingDeadline h f secid start => Sys2Proof.Machine.execDataBindingDeadline h f secid start s
  | .ulSectionSend h f sym => Sys2Proof.Machine.execUlSectionSend h f sym s
  | .carrierRecordEffect dir c => Sys2Proof.Machine.execCarrierRecordEffect dir c s
  | .dlForwardWindowOpen h f sym => Sys2Proof.Machine.execDlForwardWindowOpen h f sym s
  | .dlSymbolStart h c sym errs => Sys2Proof.Machine.execDlSymbolStart h c sym errs s
  | .symbolRelease p sym late errs bank => Sys2Proof.Machine.execSymbolRelease p sym late errs bank s
  | .txWarmingStart p sym => Sys2Proof.Machine.execTxWarmingStart p sym s
  | .txIntervalStart p sym => Sys2Proof.Machine.execTxIntervalStart p sym s
  | .txGate p sym endOfTx => Sys2Proof.Machine.execTxGate p sym endOfTx s
  | .adcSliceRotate v inSpan => Sys2Proof.Machine.execAdcSliceRotate v inSpan s
  | .adcRotateForce v inSpan => Sys2Proof.Machine.execAdcRotateForce v inSpan s
  | .adcSliceCalDone v pass corr => Sys2Proof.Machine.execAdcSliceCalDone v pass corr s
  | .adcOverrange p re im => Sys2Proof.Machine.execAdcOverrange p re im s
  | .sprintStep p => Sys2Proof.Machine.execSprintStep p s
  | .agcIntervalEnd p run => Sys2Proof.Machine.execAgcIntervalEnd p run s
  | .filterSwapTick c => Sys2Proof.Machine.execFilterSwapTick c s
  | .ulSymbolWindow h c sym rx errs => Sys2Proof.Machine.execUlSymbolWindow h c sym rx errs s
  | .ulPartialSumsReady f sym => Sys2Proof.Machine.execUlPartialSumsReady f sym s
  | .partialSumCutoff f sym => Sys2Proof.Machine.execPartialSumCutoff f sym s
  | .beamEntryEffect id => Sys2Proof.Machine.execBeamEntryEffect id s
  | .beamBulkResume => Sys2Proof.Machine.execBeamBulkResume s
  | .beamScrub h bad banks => Sys2Proof.Machine.execBeamScrub h bad banks s
  | .rowTestDone h row pass => Sys2Proof.Machine.execRowTestDone h row pass s
  | .estimateDeadline f present => Sys2Proof.Machine.execEstimateDeadline f present s
  | .solverUpdateDue f => Sys2Proof.Machine.execSolverUpdateDue f s
  | .solveStart f => Sys2Proof.Machine.execSolveStart f s
  | .solverBankEffect f => Sys2Proof.Machine.execSolverBankEffect f s
  | .solverStale f => Sys2Proof.Machine.execSolverStale f s
  | .dpdRestructure p => Sys2Proof.Machine.execDpdRestructure p s
  | .dpdSwap p => Sys2Proof.Machine.execDpdSwap p s
  | .dpdRevertSwap p => Sys2Proof.Machine.execDpdRevertSwap p s
  | .cfrPulseSwap p => Sys2Proof.Machine.execCfrPulseSwap p s
  | .dpdEstimateDue p => Sys2Proof.Machine.execDpdEstimateDue p s
  | .dpdCaptureComplete p first obs => Sys2Proof.Machine.execDpdCaptureComplete p first obs s
  | .dpdVerify p align => Sys2Proof.Machine.execDpdVerify p align s
  | .orxRelay n captures => Sys2Proof.Machine.execOrxRelay n captures s
  | .heatStart g => Sys2Proof.Machine.execHeatStart g s
  | .heatStepDone g step res vals tie => Sys2Proof.Machine.execHeatStepDone g step res vals tie s
  | .heatComplete g temp => Sys2Proof.Machine.execHeatComplete g temp s
  | .backgroundGap h w => Sys2Proof.Machine.execBackgroundGap h w s
  | .backgroundCycle h => Sys2Proof.Machine.execBackgroundCycle h s
  | .calValueEffect p => Sys2Proof.Machine.execCalValueEffect p s
  | .calStaleCheck h => Sys2Proof.Machine.execCalStaleCheck h s
  | .refRateDetect h edges => Sys2Proof.Machine.execRefRateDetect h edges s
  | .refPllLock h => Sys2Proof.Machine.execRefPllLock h s
  | .refclkLost => Sys2Proof.Machine.execRefclkLost s
  | .refclkQualified j => Sys2Proof.Machine.execRefclkQualified j s
  | .slewComplete => Sys2Proof.Machine.execSlewComplete s
  | .timeStepMute => Sys2Proof.Machine.execTimeStepMute s
  | .coastExpiry => Sys2Proof.Machine.execCoastExpiry s
  | .refclkReturn => Sys2Proof.Machine.execRefclkReturn s
  | .loHopEffect mask => Sys2Proof.Machine.execLoHopEffect mask s
  | .loLocked n band mid kdco temp => Sys2Proof.Machine.execLoLocked n band mid kdco temp s
  | .loLockTimeout n => Sys2Proof.Machine.execLoLockTimeout n s
  | .loUnlock n soft => Sys2Proof.Machine.execLoUnlock n soft s
  | .clockMonitorFail h d => Sys2Proof.Machine.execClockMonitorFail h d s
  | .aonXtalFail => Sys2Proof.Machine.execAonXtalFail s
  | .scheduleEffect => Sys2Proof.Machine.execScheduleEffect s
  | .feTxLead p => Sys2Proof.Machine.execFeTxLead p s
  | .feTxLag p heat => Sys2Proof.Machine.execFeTxLag p heat s
  | .feRxLead p => Sys2Proof.Machine.execFeRxLead p s
  | .feRxLag p => Sys2Proof.Machine.execFeRxLag p s
  | .feBypEdge p => Sys2Proof.Machine.execFeBypEdge p s
  | .readinessDecision g start => Sys2Proof.Machine.execReadinessDecision g start s
  | .rffeScriptLaunch bus entry late readback => Sys2Proof.Machine.execRffeScriptLaunch bus entry late readback s
  | .scriptTimeout g => Sys2Proof.Machine.execScriptTimeout g s
  | .mismatchMeasureDue p refl fwd => Sys2Proof.Machine.execMismatchMeasureDue p refl fwd s
  | .engineTaskStart e ready => Sys2Proof.Machine.execEngineTaskStart e ready s
  | .nop e b par => Sys2Proof.Machine.execNop e b par s
  | .cmac e b par => Sys2Proof.Machine.execCmac e b par s
  | .cmacc e b par => Sys2Proof.Machine.execCmacc e b par s
  | .cmsb e b par => Sys2Proof.Machine.execCmsb e b par s
  | .cmul e b par => Sys2Proof.Machine.execCmul e b par s
  | .cmulc e b par => Sys2Proof.Machine.execCmulc e b par s
  | .cpow e b par => Sys2Proof.Machine.execCpow e b par s
  | .dmac e b par => Sys2Proof.Machine.execDmac e b par s
  | .aclr e b par => Sys2Proof.Machine.execAclr e b par s
  | .aadd e b par => Sys2Proof.Machine.execAadd e b par s
  | .asub e b par => Sys2Proof.Machine.execAsub e b par s
  | .ashr e b par => Sys2Proof.Machine.execAshr e b par s
  | .ashl e b par => Sys2Proof.Machine.execAshl e b par s
  | .ext e b par => Sys2Proof.Machine.execExt e b par s
  | .extr e b par => Sys2Proof.Machine.execExtr e b par s
  | .exti e b par => Sys2Proof.Machine.execExti e b par s
  | .add e b par => Sys2Proof.Machine.execAdd e b par s
  | .sub e b par => Sys2Proof.Machine.execSub e b par s
  | .cadd e b par => Sys2Proof.Machine.execCadd e b par s
  | .csub e b par => Sys2Proof.Machine.execCsub e b par s
  | .and e b par => Sys2Proof.Machine.execAnd e b par s
  | .or e b par => Sys2Proof.Machine.execOr e b par s
  | .xor e b par => Sys2Proof.Machine.execXor e b par s
  | .shr e b par => Sys2Proof.Machine.execShr e b par s
  | .shl e b par => Sys2Proof.Machine.execShl e b par s
  | .conj e b par => Sys2Proof.Machine.execConj e b par s
  | .swap e b par => Sys2Proof.Machine.execSwap e b par s
  | .mul e b par => Sys2Proof.Machine.execMul e b par s
  | .cmuld e b par => Sys2Proof.Machine.execCmuld e b par s
  | .norm e b par => Sys2Proof.Machine.execNorm e b par s
  | .abs e b par => Sys2Proof.Machine.execAbs e b par s
  | .min e b par => Sys2Proof.Machine.execMin e b par s
  | .max e b par => Sys2Proof.Machine.execMax e b par s
  | .rdp e b par => Sys2Proof.Machine.execRdp e b par s
  | .wrp e b par => Sys2Proof.Machine.execWrp e b par s
  | .rdk e b par => Sys2Proof.Machine.execRdk e b par s
  | .wrk e b par => Sys2Proof.Machine.execWrk e b par s
  | .rdf e b par => Sys2Proof.Machine.execRdf e b par s
  | .jmp e c target => Sys2Proof.Machine.execJmp e c target s
  | .call e c target => Sys2Proof.Machine.execCall e c target s
  | .ret e c => Sys2Proof.Machine.execRet e c s
  | .loop e c target count => Sys2Proof.Machine.execLoop e c target count s
  | .exit e c code => Sys2Proof.Machine.execExit e c code s
  | .longImmediate e reg imm => Sys2Proof.Machine.execLongImmediate e reg imm s
  | .recWait e c rec => Sys2Proof.Machine.execRecWait e c rec s
  | .xferIn e c par => Sys2Proof.Machine.execXferIn e c par s
  | .xferOut e c => Sys2Proof.Machine.execXferOut e c s
  | .taskInfo e c => Sys2Proof.Machine.execTaskInfo e c s
  | .bankRead e c => Sys2Proof.Machine.execBankRead e c s
  | .dpdCommit e c => Sys2Proof.Machine.execDpdCommit e c s
  | .solverPut e c ill => Sys2Proof.Machine.execSolverPut e c ill s
  | .solverCommit e c => Sys2Proof.Machine.execSolverCommit e c s
  | .calPut e c r => Sys2Proof.Machine.execCalPut e c r s
  | .airtime e c => Sys2Proof.Machine.execAirtime e c s
  | .userNote e c => Sys2Proof.Machine.execUserNote e c s
  | .pulsePut e c pulse => Sys2Proof.Machine.execPulsePut e c pulse s
  | .rlPut e c => Sys2Proof.Machine.execRlPut e c s
  | .userBudgetExpiry e => Sys2Proof.Machine.execUserBudgetExpiry e s
  | .shadowWindow h => Sys2Proof.Machine.execShadowWindow h s
  | .katDone e pass => Sys2Proof.Machine.execKatDone e pass s
  | .katRotation h => Sys2Proof.Machine.execKatRotation h s
  | .progParityError e repaired => Sys2Proof.Machine.execProgParityError e repaired s
  | .progScrub e bad repaired => Sys2Proof.Machine.execProgScrub e bad repaired s
  | .pacerBehind series subject => Sys2Proof.Machine.execPacerBehind series subject s
  | .imageInstallDone halves slot => Sys2Proof.Machine.execImageInstallDone halves slot s
  | .capturePreHeld c => Sys2Proof.Machine.execCapturePreHeld c s
  | .captureTriggerSample c => Sys2Proof.Machine.execCaptureTriggerSample c s
  | .captureRecordDone c samples par bufs => Sys2Proof.Machine.execCaptureRecordDone c samples par bufs s
  | .captureRelease c => Sys2Proof.Machine.execCaptureRelease c s
  | .captureDeliverResume c par bufs => Sys2Proof.Machine.execCaptureDeliverResume c par bufs s
  | .housekeepingRound h r => Sys2Proof.Machine.execHousekeepingRound h r s
  | .injectedConversionStart h c => Sys2Proof.Machine.execInjectedConversionStart h c s
  | .timedConversion h c => Sys2Proof.Machine.execTimedConversion h c s
  | .railTrip h rail high => Sys2Proof.Machine.execRailTrip h rail high s
  | .auxRailRecover h => Sys2Proof.Machine.execAuxRailRecover h s
  | .pwrfailAssert rails => Sys2Proof.Machine.execPwrfailAssert rails s
  | .pwrfailRelease => Sys2Proof.Machine.execPwrfailRelease s
  | .pfParkTimeout => Sys2Proof.Machine.execPfParkTimeout s
  | .biasChangeoverDone n => Sys2Proof.Machine.execBiasChangeoverDone n s
  | .biasDriverFault n sense => Sys2Proof.Machine.execBiasDriverFault n sense s
  | .biasExternalFault n amp => Sys2Proof.Machine.execBiasExternalFault n amp s
  | .reduceLoadRepeat => Sys2Proof.Machine.execReduceLoadRepeat s
  | .hostReset linkStays => Sys2Proof.Machine.execHostReset linkStays s
  | .d3hot => Sys2Proof.Machine.execD3hot s
  | .setupLock => Sys2Proof.Machine.execSetupLock s
  | .testModeEnter v => Sys2Proof.Machine.execTestModeEnter v s
  | .ringEnable r v => Sys2Proof.Machine.execRingEnable r v s
  | .ringDisable r => Sys2Proof.Machine.execRingDisable r s
  | .doorbell r v whole => Sys2Proof.Machine.execDoorbell r v whole s
  | .releaseWrite r v whole => Sys2Proof.Machine.execReleaseWrite r v whole s
  | .statusBaseWrite high v => Sys2Proof.Machine.execStatusBaseWrite high v s
  | .registerWrite off v whole => Sys2Proof.Machine.execRegisterWrite off v whole s
  | .counterRead off => Sys2Proof.Machine.execCounterRead off s
  | .atNowRead => Sys2Proof.Machine.execAtNowRead s
  | .commandFetch d => Sys2Proof.Machine.execCommandFetch d s
  | .hostReadError r d => Sys2Proof.Machine.execHostReadError r d s
  | .hostWriteError r => Sys2Proof.Machine.execHostWriteError r s
  | .irqModerationTimeout evt => Sys2Proof.Machine.execIrqModerationTimeout evt s
  | .eventsLostWrite => Sys2Proof.Machine.execEventsLostWrite s
  | .rdStatus f => Sys2Proof.Machine.execRdStatus f s
  | .rdReg f => Sys2Proof.Machine.execRdReg f s
  | .wrReg f => Sys2Proof.Machine.execWrReg f s
  | .pfSnap f => Sys2Proof.Machine.execPfSnap f s
  | .pfRead f => Sys2Proof.Machine.execPfRead f s
  | .nvRd f => Sys2Proof.Machine.execNvRd f s
  | .nvWr f => Sys2Proof.Machine.execNvWr f s
  | .nvUnlock f => Sys2Proof.Machine.execNvUnlock f s
  | .pathConfig c p => Sys2Proof.Machine.execPathConfig c p s
  | .photoFinish c p => Sys2Proof.Machine.execPhotoFinish c p s
  | .evtRoute c p => Sys2Proof.Machine.execEvtRoute c p s
  | .voteOwner c p => Sys2Proof.Machine.execVoteOwner c p s
  | .powerVote c p => Sys2Proof.Machine.execPowerVote c p s
  | .flowOpen c p => Sys2Proof.Machine.execFlowOpen c p s
  | .flowModify c p => Sys2Proof.Machine.execFlowModify c p s
  | .flowClose c p => Sys2Proof.Machine.execFlowClose c p s
  | .flowQuery c p => Sys2Proof.Machine.execFlowQuery c p s
  | .laneRelay c p => Sys2Proof.Machine.execLaneRelay c p s
  | .laneTest c p => Sys2Proof.Machine.execLaneTest c p s
  | .dlCarrierSet c p => Sys2Proof.Machine.execDlCarrierSet c p s
  | .ulCarrierSet c p => Sys2Proof.Machine.execUlCarrierSet c p s
  | .ulFilterSwap c p => Sys2Proof.Machine.execUlFilterSwap c p s
  | .beamLoad c p d lost => Sys2Proof.Machine.execBeamLoad c p d lost s
  | .beamRead c p => Sys2Proof.Machine.execBeamRead c p s
  | .beamOwner c p => Sys2Proof.Machine.execBeamOwner c p s
  | .solverSet c p => Sys2Proof.Machine.execSolverSet c p s
  | .dpdPathSet c p => Sys2Proof.Machine.execDpdPathSet c p s
  | .dpdRead c p => Sys2Proof.Machine.execDpdRead c p s
  | .dpdResume c p => Sys2Proof.Machine.execDpdResume c p s
  | .heatRun c p => Sys2Proof.Machine.execHeatRun c p s
  | .calRead c p => Sys2Proof.Machine.execCalRead c p s
  | .hopLoad c p => Sys2Proof.Machine.execHopLoad c p s
  | .hopRead c p => Sys2Proof.Machine.execHopRead c p s
  | .loHop c p => Sys2Proof.Machine.execLoHop c p s
  | .feSchedSet c p d => Sys2Proof.Machine.execFeSchedSet c p d s
  | .rffeScriptLoad c p d => Sys2Proof.Machine.execRffeScriptLoad c p d s
  | .rffeXfer c p fails got => Sys2Proof.Machine.execRffeXfer c p fails got s
  | .biasSet c p => Sys2Proof.Machine.execBiasSet c p s
  | .biasRead c p => Sys2Proof.Machine.execBiasRead c p s
  | .biasBootStore c p => Sys2Proof.Machine.execBiasBootStore c p s
  | .biasOwner c p => Sys2Proof.Machine.execBiasOwner c p s
  | .monInject c p => Sys2Proof.Machine.execMonInject c p s
  | .monTest c p => Sys2Proof.Machine.execMonTest c p s
  | .slotBind c p => Sys2Proof.Machine.execSlotBind c p s
  | .captureSet c p => Sys2Proof.Machine.execCaptureSet c p s
  | .captureArm c p => Sys2Proof.Machine.execCaptureArm c p s
  | .captureStop c p => Sys2Proof.Machine.execCaptureStop c p s
  | .captureTrigger c p => Sys2Proof.Machine.execCaptureTrigger c p s
  | .captureRead c p par => Sys2Proof.Machine.execCaptureRead c p par s
  | .captureOwner c p => Sys2Proof.Machine.execCaptureOwner c p s
  | .beamBulk c p d => Sys2Proof.Machine.execBeamBulk c p d s
  | .filterLoad c p d => Sys2Proof.Machine.execFilterLoad c p d s
  | .imageLoad c p d => Sys2Proof.Machine.execImageLoad c p d s
  | .nvLoad c p d => Sys2Proof.Machine.execNvLoad c p d s
  | .setAnchorTimeout half => Sys2Proof.Machine.execSetAnchorTimeout half s
  | .tsyncPulse rising subPs => Sys2Proof.Machine.execTsyncPulse rising subPs s
  | .atCompare diff => Sys2Proof.Machine.execAtCompare diff s
  | .h1CounterReload => Sys2Proof.Machine.execH1CounterReload s
  | .domainDrop half dom => Sys2Proof.Machine.execDomainDrop half dom s
  | .powerEntryPrepare half refusals => Sys2Proof.Machine.execPowerEntryPrepare half refusals s
  | .prepareAnswerTimeout half block => Sys2Proof.Machine.execPrepareAnswerTimeout half block s
  | .powerEntryCommit half => Sys2Proof.Machine.execPowerEntryCommit half s
  | .powerEntryRetry half => Sys2Proof.Machine.execPowerEntryRetry half s
  | .wakeN => Sys2Proof.Machine.execWakeN s
  | .hostifWake => Sys2Proof.Machine.execHostifWake s
  | .hostWriteDueWake => Sys2Proof.Machine.execHostWriteDueWake s
  | .sopWake half => Sys2Proof.Machine.execSopWake half s
  | .domainEnterRun half dom => Sys2Proof.Machine.execDomainEnterRun half dom s
  | .wakeLateTimeout half dom => Sys2Proof.Machine.execWakeLateTimeout half dom s
  | .timedVoteWakeStart => Sys2Proof.Machine.execTimedVoteWakeStart s
  | .timedVoteCast => Sys2Proof.Machine.execTimedVoteCast s
  | .wakeHoldExpiry half => Sys2Proof.Machine.execWakeHoldExpiry half s
  | .counterRebuild n countLost => Sys2Proof.Machine.execCounterRebuild n countLost s
  | .coastCountSave => Sys2Proof.Machine.execCoastCountSave s
  | .configScrub half found => Sys2Proof.Machine.execConfigScrub half found s
  | .supervisorDiverge half => Sys2Proof.Machine.execSupervisorDiverge half s
  | .supervisorRestartDone half => Sys2Proof.Machine.execSupervisorRestartDone half s
  | .sliceShadowTurn half second => Sys2Proof.Machine.execSliceShadowTurn half second s
  | .sliceParityFault slice parity => Sys2Proof.Machine.execSliceParityFault slice parity s
  | .sliceRelaySwitch path => Sys2Proof.Machine.execSliceRelaySwitch path s
  | .dacCellReplace path q cell w1 w2 isOpen => Sys2Proof.Machine.execDacCellReplace path q cell w1 w2 isOpen s
  | .d2dCheckFail dir wire period bits crc sending => Sys2Proof.Machine.execD2dCheckFail dir wire period bits crc sending s
  | .d2dWireRelay dir wire => Sys2Proof.Machine.execD2dWireRelay dir wire s
  | .splitModeEntry why => Sys2Proof.Machine.execSplitModeEntry why s
  | .batonBroadcast half => Sys2Proof.Machine.execBatonBroadcast half s
  | .batonBroadcastReceived half bytes => Sys2Proof.Machine.execBatonBroadcastReceived half bytes s
  | .batonCopyDone half => Sys2Proof.Machine.execBatonCopyDone half s
  | .replaceRequestRepeat => Sys2Proof.Machine.execReplaceRequestRepeat s
  | .powerOnReset => Sys2Proof.Machine.execPowerOnReset s
  | .resetNAssert => Sys2Proof.Machine.execResetNAssert s
  | .coreResetRelease => Sys2Proof.Machine.execCoreResetRelease s
  | .brownOutEnd => Sys2Proof.Machine.execBrownOutEnd s
  | .offCoreReset => Sys2Proof.Machine.execOffCoreReset s
  | .startUpP0End => Sys2Proof.Machine.execStartUpP0End s
  | .startUpP1End factory0 factory1 sensors mons => Sys2Proof.Machine.execStartUpP1End factory0 factory1 sensors mons s
  | .startUpP2End bad => Sys2Proof.Machine.execStartUpP2End bad s
  | .startUpP3End factoryImage badImages => Sys2Proof.Machine.execStartUpP3End factoryImage badImages s
  | .nvWriteStart h => Sys2Proof.Machine.execNvWriteStart h s
  | .nvCopyVerified h ok => Sys2Proof.Machine.execNvCopyVerified h ok s
  | .nvScrub h => Sys2Proof.Machine.execNvScrub h s
  | .faultLogEntry => Sys2Proof.Machine.execFaultLogEntry s
  | .bypass tap => Sys2Proof.Machine.execBypass tap s
  | .idcode tap => Sys2Proof.Machine.execIdcode tap s
  | .samplePreload tap sample preload => Sys2Proof.Machine.execSamplePreload tap sample preload s
  | .extest tap => Sys2Proof.Machine.execExtest tap s
  | .extestPulse tap => Sys2Proof.Machine.execExtestPulse tap s
  | .extestTrain tap => Sys2Proof.Machine.execExtestTrain tap s
  | .clamp tap => Sys2Proof.Machine.execClamp tap s
  | .highz tap => Sys2Proof.Machine.execHighz tap s
  | .tapRelease next => Sys2Proof.Machine.execTapRelease next s
  | .trstN high => Sys2Proof.Machine.execTrstN high s
  | .resetNRelease => Sys2Proof.Machine.execResetNRelease s
  | .pcieLinkUp => Sys2Proof.Machine.execPcieLinkUp s
  | .referenceLinkFail => Sys2Proof.Machine.execReferenceLinkFail s
  | .sliceMismatch half second slice spare third pass => Sys2Proof.Machine.execSliceMismatch half second slice spare third pass s
  | .d0Restore => Sys2Proof.Machine.execD0Restore s
  | .aerUncorrectableError => Sys2Proof.Machine.execAerUncorrectableError s
  | .mcCalibrateInPlace h conv trim => Sys2Proof.Machine.execMcCalibrateInPlace h conv trim s

end Sys2Proof.Machine
end

