-- ==== Sys2Proof/Machine/Idle.lean ====
section
/-! DEFINITION. A step on an empty queue: a held command that may start does so, or a tick passes (log 14). -/

namespace Sys2Proof.Machine

/-- Time passes by one tick of 491.52 MHz; the air-time counter advances while it runs (R448, R450). -/
def State.advance (s : State) : State :=
  s.mapTime fun t =>
    { t with
      now := t.now + 1
      count := if t.running then (t.count + 1) % Config.ticksPerCycle else t.count }

/-- The filter loads of a carrier that are under way end (R167, log 75). -/
def State.filterLoaded (s : State) (k : Nat) : State :=
  if (s.filtOf k).loading = [] then s
  else (s.mapFilt k FiltSt.loaded).finishLong (fun x => x.what == LongWhat.filter k) St.OK fun _ => {}

/-- What the lead half has to mirror: events raised so far, commands in execution (R495). -/
def State.mirrorOf (s : State) : Nat × Nat := (s.cmd.seq, s.host.exec.length + s.cmd.txns.length)

/-- The lead half mirrors what has changed to the other half (R495, Table 5). -/
def State.mirror (s : State) : State :=
  if s.mirrored = s.mirrorOf then s
  else { s with mirrored := s.mirrorOf }.d2dPush s.lead .mirror (Config.d2dBits 2)

/-- What crosses the die-to-die link in a tick, while D2D runs (Table 6), and the solves whose weights have come with it. -/
def State.d2dTick (s : State) (h : Nat) : State :=
  if !s.ctlRuns h then s
  else
    let (done, s) := s.d2dMove h
    done.foldl (fun s x => match x with
      | .weights f => s.solverCommits f
      | _ => s) s

/-- Outputs that a range change has brought to PARK change over (R385). -/
def State.biasTick (s : State) : State := { s with bias := s.bias.map fun e => (e.1, e.2.settle s.time.now) }

/-- COVERED: 500 ms have passed since RESET_N was released, at least 1 ms before the core reset (R476, R504), and test mode has not
been entered. -/
def State.coverTick (s : State) : State :=
  if !s.boot.entered && decide (1 ≤ s.raw Rg.BOOT_STAT_PHASE) && decide (s.boot.p1At + 499 * 491520 ≤ s.time.now)
      && !s.on Rg.REL_STAT_COVERED then s.setF Rg.REL_STAT_COVERED 1 else s

/-- One tick: what the lanes and the halves send in it, filter loads that end, time, what a slew and the ramps of the logic
clocks have come to (R269, R286), and the front ends' delayed edges (R297, R301), the engines' LOAD,
changeovers, islands that relock (R484), and COVERED. -/
def State.tick (s : State) : State :=
  ((List.range 4).foldl State.filterLoaded ((s.lanesTick.mirror.d2dTick 0).d2dTick 1)).advance.slewTick.rampClocks.feTick.loadTick.biasTick.arrTick.coverTick

/-- The step on an empty queue, given how a command is executed. -/
def State.idle (run : Instr → State → Host.Outcome State Fault Refusal) (s : State) : Host.Outcome State Fault Refusal :=
  match s.nextHeld with
  | some (x, rest) => run x.instr (s.mapCmd fun m => { m with held := rest, draining := true })
  | none => .next s.tick

end Sys2Proof.Machine
end

