-- ==== Sys2Proof/Safety.lean ====
section
/-! DEFINITION. The terms in which statements are made: what a command leaves unchanged, that it completes, and the legal
states that every step keeps. -/

namespace Sys2Proof.Machine

/-- The parts of the state beside the register file, for frames. -/
inductive Part where
  /-- What the lanes hold beside their registers. -/
  | lanes
  /-- The links. -/
  | links
  /-- The packet layers. -/
  | pkts
  /-- The flow contexts. -/
  | flows
  /-- The accepted sections. -/
  | sections
  /-- The downlink carriers. -/
  | downlink
  /-- The transmit side of the paths. -/
  | transmit
  /-- The uplink carriers. -/
  | uplink
  /-- Converters and the receive side of the paths. -/
  | receive
  /-- The beam table. -/
  | beams
  /-- The solvers. -/
  | solver
  /-- Predistortion. -/
  | dpd
  /-- Calibration. -/
  | calib
  /-- The groups. -/
  | groups
  /-- The synthesisers. -/
  | synth
  /-- The reference clocks. -/
  | clocks
  /-- The front end. -/
  | frontEnd
  /-- The engines. -/
  | engines
  /-- The engines' memories. -/
  | memories
  /-- The capture contexts. -/
  | captures
  /-- The bias outputs. -/
  | bias
  /-- Sensors and monitors. -/
  | monitor
  /-- The host attachment. -/
  | host
  /-- Commands and events. -/
  | commands
  /-- Air time and power. -/
  | time
  /-- Spares and faults. -/
  | faults
  /-- The persistent store. -/
  | store
  /-- Resets and start-up. -/
  | boot
  /-- The test access port. -/
  | tap
  /-- The die-to-die link. -/
  | d2d
  /-- What has left the device, and the coders of the lanes. -/
  | log
  /-- The free values drawn. -/
  | free
  /-- The queue. -/
  | queue
deriving DecidableEq, Repr

/-- A part holds the same in two states. -/
def Part.Same (s t : State) : Part → Prop
  | .lanes => t.lanes = s.lanes
  | .links => t.links = s.links
  | .pkts => t.pkts = s.pkts
  | .flows => t.flows = s.flows ∧ t.flowFx = s.flowFx ∧ t.flowOld = s.flowOld
  | .sections => t.ctrlSecs = s.ctrlSecs ∧ t.dataSecs = s.dataSecs ∧ t.soundSecs = s.soundSecs
  | .downlink => t.dlCar = s.dlCar ∧ t.dlPend = s.dlPend ∧ t.dlSince = s.dlSince ∧ t.backoff = s.backoff ∧ t.backAt = s.backAt ∧ t.dlOcc = s.dlOcc ∧ t.dlSat = s.dlSat
  | .transmit => t.txp = s.txp
  | .uplink => t.ulCar = s.ulCar ∧ t.ulPend = s.ulPend ∧ t.ulWas = s.ulWas ∧ t.filt = s.filt ∧ t.parts = s.parts ∧ t.sums = s.sums ∧ t.ulSat = s.ulSat
  | .receive => t.conv = s.conv ∧ t.rxp = s.rxp
  | .beams => t.beams = s.beams ∧ t.rows = s.rows ∧ t.stage = s.stage ∧ t.spareRows = s.spareRows ∧ t.bulk = s.bulk
  | .solver => t.solvRec = s.solvRec ∧ t.solv = s.solv
  | .dpd => t.dpd = s.dpd ∧ t.sharedOrx = s.sharedOrx ∧ t.svcAt = s.svcAt
  | .calib => t.calp = s.calp ∧ t.calRefs = s.calRefs ∧ t.calSets = s.calSets ∧ t.tie = s.tie
  | .groups => t.grp = s.grp
  | .synth => t.hops = s.hops ∧ t.lox = s.lox
  | .clocks => t.ref = s.ref ∧ t.clkTo = s.clkTo
  | .frontEnd => t.fe = s.fe ∧ t.feLater = s.feLater ∧ t.linesOn = s.linesOn ∧ t.sched = s.sched ∧ t.schedPend = s.schedPend ∧ t.scripts = s.scripts
  | .engines => t.eng = s.eng ∧ t.slots = s.slots ∧ t.engHalf = s.engHalf ∧ t.engShare = s.engShare ∧ t.imgLoads = s.imgLoads ∧ t.behind = s.behind ∧ t.pace = s.pace
  | .memories => t.engMem = s.engMem ∧ t.pool = s.pool ∧ t.prog = s.prog
  | .captures => t.caps = s.caps ∧ t.capNum = s.capNum
  | .bias => t.bias = s.bias
  | .monitor => t.sens = s.sens ∧ t.mon = s.mon
  | .host => t.host = s.host
  | .commands => t.cmd = s.cmd
  | .time => t.time = s.time
  | .faults => t.rel = s.rel
  | .store => t.nv = s.nv
  | .boot => t.boot = s.boot
  | .tap => t.tap = s.tap
  | .d2d => t.d2d = s.d2d ∧ t.mirrored = s.mirrored
  | .log => t.line = s.line ∧ t.sent = s.sent
  | .free => t.fresh = s.fresh
  | .queue => t.pending = s.pending

/-- Every part but those listed holds the same. -/
def KeepsBut (l : List Part) (s t : State) : Prop := ∀ p, p ∉ l → Part.Same s t p

/-- Every register of MW0 but those at the listed offsets holds the same. -/
def RegsBut (l : List Nat) (s t : State) : Prop := ∀ o, o ∉ l → t.reg o = s.reg o

/-- Nothing changes but the listed parts and registers. -/
def Only (parts : List Part) (offs : List Nat) (s t : State) : Prop := KeepsBut parts s t ∧ RegsBut offs s t

/-- The command has its effect: execution answers a next state, of which something holds. -/
def Runs (i : Instr) (s : State) (P : State → Prop) : Prop := ∃ t, exec i s = .next t ∧ P t

/-- The state in which a command's checks are made: the command is in execution. -/
def State.entered (s : State) (c : Cmd) (op : Nat) : State := (s.mapCmd fun m => { m with draining := false }).enterExec c op

/-- A command starts at once, alone on its resource at this instant, and passes the checks of R437 that every command has:
`need` bytes of data, `halves` whose resources it concerns, `doms` the domains it needs in RUN. The checks on its issuer and
its parameters are its statement's own. -/
abbrev Accepted (s : State) (c : Cmd) (op need : Nat) (halves : List Nat) (doms : List (Nat × Nat)) : Prop :=
  (s.cmd.draining = true ∨ (s.entered c op).mustWait c op = false) ∧ c.tie = false ∧
    (s.entered c op).refusal c op { need := need, halves := halves, doms := doms } = none

/-- A command is refused with a status and DETAIL: nothing changes but that it is no longer in execution, and its completion
leaves. -/
def Refused (i : Instr) (s : State) (c : Cmd) (op status detail : Nat) : Prop :=
  exec i s = .next ((s.entered c op).refuse c op status detail)

/-- A command has its effect on the listed parts and registers alone, and completes with OK, reporting `r`. -/
def Replies (i : Instr) (s : State) (c : Cmd) (op : Nat) (r : State → Res) (parts : List Part) (offs : List Nat) (P : State → Prop) :
    Prop :=
  ∃ u, P u ∧ Only parts offs (s.entered c op) u ∧ exec i s = .next (u.complete c op St.OK (r u))

/-- A command of order L begins its work, and completes when that ends. -/
def Begins (i : Instr) (s : State) (c : Cmd) (op : Nat) (w : LongWhat) (parts : List Part) (offs : List Nat) (P : State → Prop) :
    Prop :=
  ∃ u, P u ∧ Only parts offs (s.entered c op) u ∧ exec i s = .next (u.beginLong c op w)

/-- One block on each of several lanes of a half goes out, scrambled behind what its lane sent before (R49). -/
def Sends (s t : State) (h : Nat) (l : List (Nat × Blk)) : Prop :=
  t.sent = if l = [] then s.sent else .blocks h (l.map fun e => (e.1, (scrBlk (s.lineOf e.1).scr e.2).1)) :: s.sent

/-- The blocks that a half has just sent. -/
def lastBlocks (t : State) (h : Nat) : List (Nat × Blk) :=
  match t.sent with
  | .blocks k c :: _ => if k = h then c else []
  | _ => []

/-- Stream blocks of a half go out in stripe order, each coded behind what its lane sent before (R49, R87). -/
def Streams (s t : State) (h : Nat) (l : List Blk) : Prop :=
  t.sent = .blocks h (s.codeBlocks (stripe (s.txLanes h) (s.pkt h).stripe l)).1 :: s.sent

/-- A half finds one packet in received rows, whose framing, length and CRCs are right (R90 to R92). -/
abbrev GoodPacket (s : State) (h : Nat) (rows : List (List (Nat × Blk))) (l : List Byte) : Prop :=
  (s.rxEvts h rows).1 = [.packet l] ∧ hcrcOk l = true ∧ (hdrOf l).len = l.length ∧ l.length ≤ 9216 ∧ pcrcOk l = true

/-- A control block on each of several lanes. -/
def onLanes (l : List Nat) (f : Nat → List Byte) : List (Nat × Blk) := l.map fun n => (n, ⟨true, false, f n⟩)

/-- A LINK block on the lanes of a half that carry it (R58). -/
def linkOn (s : State) (h op tag old new pos reason : Nat) : List (Nat × Blk) :=
  onLanes (s.linkLanes h) fun _ => linkBytes op tag old new pos reason

/-- The copies of a LINK block of an operation that has not been acted on, and what it says (R58). -/
abbrev LinkBlock (s : State) (h op : Nat) (copies : List (List Byte)) (b : LinkRx) : Prop :=
  (pickCopy 0xC3 copies).map linkOf = some b ∧ b.op = op ∧ (s.link h).lastTag ≠ some b.tag

/-- Parts that raising an event may change. -/
def eventParts : List Part := [.pkts, .host, .commands, .log]

/-- Registers that raising an event may change: the alert status, the MSI-X pending bits, the event ring's indices and the
lost-event counter. -/
def eventRegs : List Nat :=
  [Rg.ALERT_STAT_EVT_LOST.off, Rg.MSIX_PBA.off, (Rg.RING_IDX_DEV_IDX 3).off, Rg.C_EVT_LOST.off]

/-- Parts that completing a command may change. -/
def cplParts : List Part := [.pkts, .host, .commands, .log]

/-- Registers that completing a command may change. -/
def cplRegs : List Nat := [Rg.MSIX_PBA.off, (Rg.RING_IDX_DEV_IDX 2).off, Rg.C_CPL_DISCARD.off]

/-- The registers of the ten synthesisers. -/
def loRegs : List Nat := (List.range 10).map fun n => (Rg.LO_STAT_STATE n).off

/-- Parts that a change of a group's readiness may change: its paths retire with it after their half's engines (R484). -/
def groupParts : List Part := [.transmit, .frontEnd, .bias, .captures, .groups, .faults] ++ eventParts

/-- Registers that a change of a group's readiness may change. -/
def groupRegs : List Nat :=
  [Rg.FE_STAT_READY.off, Rg.CFG_STAT_SERVICE.off, Rg.REL_STAT_STATE.off, Rg.CAP_STAT_EXCL_H0.off] ++ eventRegs ++ cplRegs
    ++ loRegs

/-! ## Engines -/

/-- A result of `w` bits (R324, R325): clipped with S set, else wrapped. -/
def fitted (w : Nat) (s : Bool) (v : Int) : Int := if s then satTo w v else wrapTo w v

/-- A result lies outside `w` bits. -/
def outside (w : Nat) (v : Int) : Bool := !decide (satTo w v = v)

/-- A task that does not wait, is in no loop and has its registers (R316). -/
abbrev EngTask.Plain (t : EngTask) : Prop :=
  t.waiting = false ∧ t.loops = [] ∧ t.d.length = 16 ∧ t.ac.length = 4 ∧ t.p.length = 8 ∧ t.k.length = 8

/-- The engine's task behind a command, with what it says of it; nothing else changes but the listed parts and registers. -/
def TaskThen (i : Instr) (e : UnitNo) (s : State) (parts : List Part) (offs : List Nat) (P : EngTask → State → Prop) : Prop :=
  Runs i s fun r => ∃ u, (r.engOf e.val).run = some u ∧ P u r ∧
    Only (.engines :: parts) ((Rg.AE_STAT_STATE e.val).off :: offs) s r

/-- A bundle whose move slots are empty takes a running task to the next bundle with registers and flags as `P` says. -/
def BundleDoes (mk : UnitNo → Bundle → Bool → Instr) (P : EngTask → Bundle → EngTask → Prop) : Prop :=
  ∀ (e : UnitNo) (b : Bundle) (par : Bool) (t : EngTask) (s : State), (s.engOf e.val).run = some t → t.Plain →
    b.x = .nop → b.y = .nop → TaskThen (mk e b par) e s [] [] fun u _ =>
      u = { t with pc := t.pc + 1, d := u.d, ac := u.ac, p := u.p, k := u.k, sat := u.sat, gov := u.gov } ∧ P t b u

/-- An accumulator takes a result of R325; nothing else changes but SAT and GOV. -/
def AccTakes (f : EngTask → Bundle → Cplx) (t : EngTask) (b : Bundle) (u : EngTask) : Prop :=
  u.acr b.rd.val = ⟨fitted 40 b.s (f t b).re, fitted 40 b.s (f t b).im⟩ ∧
  (∀ i < 4, i ≠ b.rd.val % 4 → u.acr i = t.acr i) ∧ u.d = t.d ∧ u.p = t.p ∧ u.k = t.k ∧
  u.sat = (t.sat || b.s && (outside 40 (f t b).re || outside 40 (f t b).im)) ∧
  u.gov = (t.gov || !b.s && (outside 40 (f t b).re || outside 40 (f t b).im))

/-- A D register takes a value; no other register changes. -/
def DregTakes (v : Word) (t : EngTask) (b : Bundle) (u : EngTask) : Prop :=
  u.dr b.rd.val = v ∧ (∀ i, i ≠ b.rd.val → u.dr i = t.dr i) ∧ u.ac = t.ac ∧ u.p = t.p ∧ u.k = t.k

/-- A D register takes a 32-bit result of R324, or of R325 with an accumulator among the sources. -/
def WordTakes (acc : Bool) (f : EngTask → Bundle → Int) (t : EngTask) (b : Bundle) (u : EngTask) : Prop :=
  DregTakes (BitVec.ofInt 32 (fitted 32 b.s (f t b))) t b u ∧ u.sat = (t.sat || b.s && outside 32 (f t b)) ∧
  u.gov = (t.gov || acc && !b.s && outside 32 (f t b))

/-- A D register takes a 16+16 result of R324 or R325. -/
def PairTakes (acc : Bool) (f : EngTask → Bundle → Cplx) (t : EngTask) (b : Bundle) (u : EngTask) : Prop :=
  DregTakes (wOfC ⟨fitted 16 b.s (f t b).re, fitted 16 b.s (f t b).im⟩) t b u ∧
  u.sat = (t.sat || b.s && (outside 16 (f t b).re || outside 16 (f t b).im)) ∧
  u.gov = (t.gov || acc && !b.s && (outside 16 (f t b).re || outside 16 (f t b).im))

/-- A D register takes a value that cannot overflow. -/
def ExactTakes (f : EngTask → Bundle → Word) (t : EngTask) (b : Bundle) (u : EngTask) : Prop :=
  DregTakes (f t b) t b u ∧ u.sat = t.sat ∧ u.gov = t.gov

/-- The error of a half's last TSYNC edge that waits for the next (R454). -/
abbrev State.lastTsync (s : State) (h : Nat) : Option Int := tget (fun _ => none) s.time.tsyncLast h

/-- What an engine does agrees with a spare that shadows it, if one does (R342). -/
abbrev State.Agrees (s : State) (e : UnitNo) (diff : Bool) : Prop := diff = false ∨ s.shadowed (e.val / 5) ≠ some e.val

/-- A taken service call answers: D0 its status, the rest of the task and what it changes as said. -/
def SvcDoes (i : Instr) (n : Nat) (c : Ctl) (e : UnitNo) (t : EngTask) (s : State) (st : Nat) (parts : List Part)
    (offs : List Nat) (P : EngTask → State → Prop) : Prop :=
  (s.engOf e.val).run = some t → t.Plain → c.cond.val = 0 → s.Agrees e c.diff →
      permitted t (s.slotService e.val t) n = true → t.par = false →
    TaskThen i e s parts offs fun u r => u.dn 0 = st ∧ u.pc = t.pc + 1 ∧
      (∀ j, 3 ≤ j → u.dr j = t.dr j) ∧ u.ac = t.ac ∧ u.p = t.p ∧ u.k = t.k ∧ P u r

/-- The tables that hold the block's memories and registers are in their canonical form. -/
def MemoryWf (s : State) : Prop :=
  Twf regReset s.regs ∧ Twf (fun _ => (0 : BitVec 8)) s.engMem ∧ Twf (fun _ => (0 : BitVec 8)) s.pool

end Sys2Proof.Machine
end

