-- ==== Sys2Proof/Certificates/Slice0/Obligations.lean ====
section
/-! DEFINITION. The statements for the provers. -/

open Sys2Proof Sys2Proof.Machine

/-- Block lock, elastic-buffer slips, clock compensation and markers. BLOCK_LOCK_ACQUIRED on a lane in TRAIN, ALIGN,
SPARE_READY or ACTIVE sets SIG_DET, CDR_LOCK and BLOCK_LOCK and records the inversion. EB_SLIP sets its event bit, and
every lane of the group takes its next marker's position as new. After the marker that announced it, the CC sequence
goes out on every lane of the group; without one nothing goes out. Above 18 blocks of fill one or two IDLE blocks are
deleted, below 14 inserted, in between none. AM_SEND sends the AM block of Table 13 on every lane of the group and
advances AMSEQ by one. Each changes nothing else. (02_link_lanes R50, 02_link_lanes R52, 02_link_lanes R53,
02_link_lanes R54, 02_link_lanes R55). -/
def Obligations.LaneReceiverStatus : Prop :=
  (∀ (l : LaneNo) (inv : Bool) (s : State), s.laneState l.val = 2 ∨ s.laneState l.val = 3 ∨ s.laneState l.val = 4 ∨
      s.laneState l.val = 5 →
    Runs (.blockLockAcquired l inv) s fun t =>
      t.raw (Rg.LANE_STAT_SIG_DET l.val) = 1 ∧ t.raw (Rg.LANE_STAT_CDR_LOCK l.val) = 1 ∧
      t.raw (Rg.LANE_STAT_BLOCK_LOCK l.val) = 1 ∧ t.raw (Rg.LANE_STAT_RX_INV l.val) = b2n inv ∧
      t.laneState l.val = s.laneState l.val ∧ Only [] [(Rg.LANE_STAT_STATE l.val).off] s t) ∧
  (∀ (l : LaneNo) (s : State), Runs (.ebSlip l) s fun t =>
    t.raw (Rg.LANE_EVT_EB_SLIP l.val) = 1 ∧ (∀ n ∈ s.groupLanes (l.val / 5), (t.lane n).realign = true) ∧
    t.laneState l.val = s.laneState l.val ∧ Only [.lanes] [(Rg.LANE_EVT_EB_SLIP l.val).off] s t) ∧
  (∀ (h : Half) (s : State), s.boot.core = false → s.groupLanes h.val ≠ [] → Runs (.ccSequenceSend h) s fun t =>
    ((s.link h.val).ccDue = false → t = s) ∧
    ((s.link h.val).ccDue = true → (t.link h.val).ccDue = false ∧ t.sent.tail = s.sent ∧
      (lastBlocks t h.val).map (·.1) = s.groupLanes h.val ++ s.groupLanes h.val ++ s.groupLanes h.val ∧
      (lastBlocks t h.val).take (s.groupLanes h.val).length =
        ((s.groupLanes h.val).map fun n => (n, (scrBlk (s.lineOf n).scr ccBlk).1)) ∧
      Only [.links, .log] [] s t)) ∧
  (∀ (h : Half) (fill m : Nat) (s : State), s.lowestLane h.val = some m →
    (14 ≤ fill ∧ fill ≤ 18 → Runs (.ccSequenceReceived h fill) s fun t =>
      (t.lane m).fill = fill ∧ t.sent = s.sent ∧ Only [.lanes] [] s t) ∧
    (18 < fill ∨ fill < 14 → Runs (.ccSequenceReceived h fill) s fun t =>
      (t.sent = .rateMatch h.val (decide (18 < fill)) 1 :: s.sent ∨ t.sent = .rateMatch h.val (decide (18 < fill)) 2 :: s.sent) ∧
        Only [.lanes, .log, .free] ((halfLanes h.val).map fun n => (Rg.LANE_RM_INS n).off) s t)) ∧
  (∀ (h : Half) (s : State), s.boot.core = false → s.groupLanes h.val ≠ [] → Runs (.amSend h) s fun t =>
    (t.link h.val).amseq = ((s.link h.val).amseq + 1) % 65536 ∧
    Sends s t h.val (onLanes (s.groupLanes h.val) fun n => amBytes n (s.raw (Rg.LANE_STAT_POS n)) (s.link h.val).amseq
      (s.lineOf n).bip.toNat (s.amFlags n (t.link h.val).ccDue)) ∧
    Only [.links, .log] [] s t)

/-- Training and alignment of a lane. The start-up protocol of a lane: taps set by PRESET, the eye that reaches
RX_READY, TRAIN to ALIGN after eight further frames, the failures that lead to FAULT, the marker lock, the 100 ms check
that ends in SPARE_READY, the next attempt from FAULT, which sends RETRAIN, and the end of a resume that failed.
(02_link_lanes R62, 02_link_lanes R64, 02_link_lanes R67, 02_link_lanes R68, 02_link_lanes R74). -/
def Obligations.LaneTraining : Prop :=
  (∀ (l : LaneNo) (b : List Byte) (s : State), s.laneState l.val = 2 → s.on (Rg.LANE_STAT_BLOCK_LOCK l.val) = true →
      (trnOf b).crcOk = true → (trnOf b).idLane = l.val → (trnOf b).idRate = s.f Rg.LNK_CFG_RATE →
      (s.lane l.val).fixed = false → (trnOf b).preset = true →
    Runs (.trnFrameReceived l b) s fun t =>
      t.raw (Rg.LANE_TAPS_PRE l.val) = 0 ∧ t.raw (Rg.LANE_TAPS_MAIN l.val) = 64 ∧ t.raw (Rg.LANE_TAPS_POST l.val) = 0 ∧
      (t.lane l.val).stsPre = 1 ∧ (t.lane l.val).stsMain = 1 ∧ (t.lane l.val).stsPost = 1 ∧
      Only [.lanes, .free] [(Rg.LANE_TAPS_PRE l.val).off] s t) ∧
  (∀ (l : LaneNo) (w h : Nat) (s : State), s.laneState l.val = 2 → w < 128 → h < 256 →
    Runs (.rxReadyReached l w h) s fun t =>
      t.raw (Rg.LANE_TAPS_EYE_W l.val) = w ∧ t.raw (Rg.LANE_TAPS_EYE_H l.val) = h ∧
      (10 ≤ h → 39 ≤ w → (t.lane l.val).rxReady = true ∧ (t.lane l.val).reqPre = 0 ∧ (t.lane l.val).reqMain = 0 ∧
        (t.lane l.val).reqPost = 0) ∧
      (h < 10 ∨ w < 39 → t.lane l.val = s.lane l.val) ∧ Only [.lanes] [(Rg.LANE_TAPS_PRE l.val).off] s t) ∧
  (∀ (l : LaneNo) (s : State), s.laneState l.val = 2 → (s.lane l.val).rxReady = true → 3 ≤ (s.lane l.val).rxSeen →
    Runs (.trainComplete l) s fun t =>
      t.laneState l.val = 3 ∧ 8 ≤ (t.lane l.val).more ∧ (t.link (l.val / 5)).aligned = true ∧
      Only [.lanes, .links, .log] [(Rg.LANE_STAT_STATE l.val).off] s t) ∧
  (∀ (l : LaneNo) (s : State), s.laneState l.val = 2 → (s.lane l.val).fromFault = false →
      s.f Rg.LNK_CFG_TRAIN_TRIES ≠ 0 →
    Runs (.trainTimeout l) s fun t =>
      t.laneState l.val = 6 ∧ t.raw (Rg.LANE_EVT_TRAIN_FAIL l.val) = 1 ∧
      t.raw (Rg.LANE_STAT_TRIES_LEFT l.val) = s.f Rg.LNK_CFG_TRAIN_TRIES) ∧
  (∀ (l : LaneNo) (s : State), s.laneState l.val = 3 → (s.lane l.val).fromFault = true →
    Runs (.alignAmLock l) s fun t =>
      t.raw (Rg.LANE_STAT_AM_LOCK l.val) = 1 ∧ t.laneState l.val = 3 ∧ (t.lane l.val).errSeen = false ∧
      Only [.lanes] [(Rg.LANE_STAT_STATE l.val).off] s t) ∧
  (∀ (l : LaneNo) (s : State), s.laneState l.val = 3 → (s.lane l.val).fromFault = false →
      s.laneRole l.val ≤ 3 → s.vacant (l.val / 5) (s.laneRole l.val) = true →
    Runs (.alignAmLock l) s fun t =>
      t.laneState l.val = 5 ∧ t.raw (Rg.LANE_STAT_POS l.val) = s.laneRole l.val ∧
      t.raw (Rg.LANE_EVT_RELAY_IN l.val) = 1) ∧
  (∀ (l : LaneNo) (s : State), s.laneState l.val = 3 → s.on (Rg.LANE_STAT_AM_LOCK l.val) = false →
      (s.lane l.val).fromFault = false → s.f Rg.LNK_CFG_TRAIN_TRIES ≠ 0 →
    Runs (.alignTimeout l) s fun t => t.laneState l.val = 6) ∧
  (∀ (l : LaneNo) (s : State), s.laneState l.val = 3 → (s.lane l.val).fromFault = true →
      s.on (Rg.LANE_STAT_AM_LOCK l.val) = true → (s.lane l.val).errSeen = false →
    Runs (.spareCheckComplete l) s fun t => t.laneState l.val = 4 ∧ (t.lane l.val).fromFault = false) ∧
  (∀ (l : LaneNo) (s : State), s.laneState l.val = 6 → s.raw (Rg.LANE_STAT_TRIES_LEFT l.val) ≠ 0 → s.boot.core = false →
    Runs (.faultRetryTimer l) s fun t =>
      t.laneState l.val = 2 ∧ t.raw (Rg.LANE_STAT_TRIES_LEFT l.val) + 1 = s.raw (Rg.LANE_STAT_TRIES_LEFT l.val) ∧
      (t.lane l.val).fromFault = true ∧
      Sends s t (l.val / 5) (linkOn s (l.val / 5) 5 (s.link (l.val / 5)).nextTag l.val 0xF 0 (s.lane l.val).reason)) ∧
  (∀ (l : LaneNo) (s : State), (s.lane l.val).resuming = true →
    Runs (.resumeTimeout l) s fun t => t.laneState l.val = 2 ∧ (t.lane l.val).resuming = false)

/-- The two tap constraints hold through a training frame. If the taps of a lane keep the ranges of Table 17, pre + main
+ post ≤ 64 and main − pre − post ≥ 16, they keep them after any training frame. (02_link_lanes R63, 02_link_lanes R62).
-/
def Obligations.TapConstraintsKept : Prop :=
  ∀ (l : LaneNo) (b : List Byte) (s : State),
    tapsOk (s.raw (Rg.LANE_TAPS_PRE l.val)) (s.raw (Rg.LANE_TAPS_MAIN l.val)) (s.raw (Rg.LANE_TAPS_POST l.val)) = true →
    s.laneState l.val = 2 → (trnOf b).idLane = l.val → (trnOf b).idRate = s.f Rg.LNK_CFG_RATE →
    Runs (.trnFrameReceived l b) s fun t =>
      tapsOk (t.raw (Rg.LANE_TAPS_PRE l.val)) (t.raw (Rg.LANE_TAPS_MAIN l.val)) (t.raw (Rg.LANE_TAPS_POST l.val)) = true

/-- Hard faults, markers and marginal lanes. A hard fault sets its event bit and clears the status it invalidates. A
lane in service goes to FAULT without a position, and REMOVE for it waits for its answer; on an ACTIVE lane RELAY_OUT is
set. The descrambled blocks of a marker interval that end in a good marker on an ACTIVE lane count their code errors and
BIP-8 errors and end a realignment; one marker with a bad CRC is tolerated. More than 8 BIP-8 or more than 4 code errors
make a lane in service marginal, and an ACTIVE one is relayed onto the spare. (02_link_lanes R49, 02_link_lanes R51,
02_link_lanes R57, 02_link_lanes R70, 02_link_lanes R71, 02_link_lanes R72, 02_link_lanes R73). -/
def Obligations.LaneFaultsAndMarkers : Prop :=
  (∀ (l : LaneNo) (k : LaneFault) (s : State), s.laneState l.val ≠ 4 → s.laneState l.val ≠ 5 →
    Runs (.laneHardFault l k) s fun t =>
      t.raw (Rg.LANE_STAT_AM_LOCK l.val) = 0 ∧ t.raw ⟨(Rg.LANE_EVT_LOS l.val).off, (LaneFault.reason k), 1, 0, 1, 0⟩ = 1 ∧
      (k = .los → t.raw (Rg.LANE_STAT_SIG_DET l.val) = 0) ∧ t.laneState l.val = s.laneState l.val ∧
      Only [] [(Rg.LANE_STAT_STATE l.val).off, (Rg.LANE_EVT_LOS l.val).off] s t) ∧
  (∀ (l : LaneNo) (k : LaneFault) (s : State), s.laneState l.val = 4 ∨ s.laneState l.val = 5 →
    Runs (.laneHardFault l k) s fun t =>
      t.laneState l.val = 6 ∧ t.raw (Rg.LANE_STAT_POS l.val) = 0xF ∧
      (s.laneState l.val = 5 → t.raw (Rg.LANE_EVT_RELAY_OUT l.val) = 1) ∧ (t.lane l.val).reason = (LaneFault.reason k) ∧
      ((t.link (l.val / 5)).out.any fun o => o.op == 1 && o.old == l.val) = true) ∧
  (∀ (l : LaneNo) (b : AmRx) (m : AmBlk) (s : State), s.laneState l.val = 5 → s.raw (Rg.LANE_STAT_POS l.val) ≠ 0 →
      (amSeen s.amInterval (descrBlks (s.lineOf l.val).descr b.line).1).am = some m →
      (amSeen s.amInterval (descrBlks (s.lineOf l.val).descr b.line).1).place = true ∨ (s.lane l.val).lastAm = none →
    let a := amSeen s.amInterval (descrBlks (s.lineOf l.val).descr b.line).1
    (m.crcOk = true → m.laneNo = l.val → m.pos = s.raw (Rg.LANE_STAT_POS l.val) →
        (∀ q, (s.lane l.val).lastAm = some q → m.amseq = (q + 1) % 65536) → s.skewOk l.val m.amseq b.count64 = true →
      Runs (.amReceived l b) s fun t =>
        t.raw (Rg.LANE_CODEERR_N l.val) = min (s.raw (Rg.LANE_CODEERR_N l.val) + a.codeErrs) (2 ^ 32 - 1) ∧
        t.raw (Rg.LANE_BIPERR_N l.val) = min (s.raw (Rg.LANE_BIPERR_N l.val) +
          (if (s.lane l.val).lastAm.isSome && a.place then bitsDiffer a.bip (BitVec.ofNat 8 m.bip) else 0)) (2 ^ 32 - 1) ∧
        (t.lane l.val).lastAm = some m.amseq ∧ (t.lane l.val).crcRun = 0 ∧ (t.lane l.val).realign = false ∧
        t.laneState l.val = 5 ∧
        Only [.lanes, .log] [(Rg.LANE_CODEERR_N l.val).off, (Rg.LANE_BIPERR_N l.val).off, (Rg.LANE_EVT_RFLT l.val).off] s t) ∧
    (m.crcOk = false → (s.lane l.val).crcRun = 0 →
      Runs (.amReceived l b) s fun t =>
        (t.lane l.val).crcRun = 1 ∧ t.laneState l.val = 5 ∧ Only [.lanes, .log] [(Rg.LANE_CODEERR_N l.val).off] s t)) ∧
  (∀ (l : LaneNo) (bip code : Nat) (s : State), 8 < bip ∨ 4 < code → s.laneState l.val = 4 →
    Runs (.laneMarginal l bip code) s fun t =>
      t.raw (Rg.LANE_EVT_MARGINAL l.val) = 1 ∧ (t.lane l.val).marginal = true ∧ t.laneState l.val = 4) ∧
  (∀ (l : LaneNo) (bip code m : Nat) (s : State), 8 < bip ∨ 4 < code → s.laneState l.val = 5 →
      s.spareReady (l.val / 5) = some m → s.on Rg.LNK_CFG_AUTO_RELAY = true →
      ((s.link (l.val / 5)).out.any fun o => o.op == 2) = false →
    Runs (.laneMarginal l bip code) s fun t =>
      (t.lane l.val).marginal = true ∧
      ((t.link (l.val / 5)).out.any fun o => o.op == 2 && o.old == l.val && o.new == m &&
        o.pos == s.raw (Rg.LANE_STAT_POS l.val) && o.reason == 4) = true)

/-- Lane management blocks, their answers and repeats. A scrambled block is found again by the descrambler. REMOVE of a
lane out of service is answered with ACK; REMOVE of an ACTIVE lane takes it out of the stripe. RETRAIN of a lane in
FAULT is answered, spends an attempt and trains it. ACK ends the wait for the block it answers: after a RELAY the new
lane is ACTIVE at the position. A first or second NACK makes the RELAY wait for its resend, and the resend sends it
again under a new TAG. Without an answer a block is repeated. After 100 ms without every position the link starts. A
started link with a position that no lane carries is degraded. (02_link_lanes R49, 02_link_lanes R58, 02_link_lanes R59,
02_link_lanes R69, 02_link_lanes R71, 02_link_lanes R72, 02_link_lanes R73, 02_link_lanes R74, 02_link_lanes R77). -/
def Obligations.LinkBlocks : Prop :=
  (∀ (st : BitVec 58) (b : Blk), b.bytes.length = 8 → descrBlk st (scrBlk st b).1 = (b, (scrBlk st b).2)) ∧
  (∀ (h : Half) (l : List (List Byte)) (b : LinkRx) (s : State), LinkBlock s h.val 1 l b → s.boot.core = false →
      ((s.link h.val).out.find? fun o => o.op == 1 && o.old == b.old) = none →
      b.old / 5 = h.val → b.old < 10 → s.laneState b.old ≠ 5 → s.laneState b.old ≠ 4 →
    Runs (.linkRemove h l) s fun t =>
      Sends s t h.val (linkOn s h.val 3 b.tag b.old 0xF b.pos 0) ∧ (t.link h.val).lastTag = some b.tag ∧
      Only [.links, .log] [] s t) ∧
  (∀ (h : Half) (l : List (List Byte)) (b : LinkRx) (s : State), LinkBlock s h.val 1 l b →
      ((s.link h.val).out.find? fun o => o.op == 1 && o.old == b.old) = none →
      b.old / 5 = h.val → b.old < 10 → s.laneState b.old = 5 →
    Runs (.linkRemove h l) s fun t => t.laneState b.old ≠ 5 ∧ t.raw (Rg.LANE_EVT_RELAY_OUT b.old) = 1) ∧
  (∀ (h : Half) (l : List (List Byte)) (b : LinkRx) (s : State), LinkBlock s h.val 5 l b → s.boot.core = false →
      b.old / 5 = h.val → b.old < 10 → s.laneState b.old = 6 → s.raw (Rg.LANE_STAT_TRIES_LEFT b.old) ≠ 0 →
    Runs (.linkRetrain h l) s fun t =>
      t.laneState b.old = 2 ∧ (t.lane b.old).fromFault = true ∧
      t.raw (Rg.LANE_STAT_TRIES_LEFT b.old) + 1 = s.raw (Rg.LANE_STAT_TRIES_LEFT b.old) ∧
      Sends s t h.val (linkOn s h.val 3 b.tag b.old 0xF b.pos 0)) ∧
  (∀ (h : Half) (l : List (List Byte)) (b : LinkRx) (o : LinkOut) (s : State), LinkBlock s h.val 3 l b →
      ((s.link h.val).out.find? fun x => x.tag == b.tag) = some o →
    (o.op = 5 → Runs (.linkAck h l) s fun t =>
      (∀ x ∈ (t.link h.val).out, x.tag ≠ o.tag) ∧ Only [.links] [] s t) ∧
    (o.op = 2 → 10 ≤ o.old → o.new < 10 → o.pos ≤ 3 → Runs (.linkAck h l) s fun t =>
      t.laneState o.new = 5 ∧ t.raw (Rg.LANE_STAT_POS o.new) = o.pos ∧ t.raw (Rg.LANE_EVT_RELAY_IN o.new) = 1)) ∧
  (∀ (h : Half) (l : List (List Byte)) (b : LinkRx) (o : LinkOut) (s : State), LinkBlock s h.val 4 l b →
      ((s.link h.val).out.find? fun x => x.tag == b.tag && x.op == 2) = some o → o.nacks < 2 →
    Runs (.linkNack h l) s fun t =>
      (∃ x ∈ (t.link h.val).out, x.tag = b.tag ∧ x.waitRetry = true) ∧ Only [.links] [] s t) ∧
  (∀ (h : Half) (tag : Nat) (o : LinkOut) (s : State), s.boot.core = false →
      ((s.link h.val).out.find? fun x => x.tag == tag && !x.waitRetry) = some o → o.repeats < 10 →
    Runs (.linkAnswerTimeout h tag) s fun t =>
      Sends s t h.val (linkOn s h.val o.op o.tag o.old o.new o.pos o.reason) ∧ Only [.links, .log] [] s t) ∧
  (∀ (h : Half) (tag : Nat) (o : LinkOut) (s : State), s.boot.core = false →
      ((s.link h.val).out.find? fun x => x.tag == tag && x.waitRetry) = some o →
    Runs (.relayNackRetry h tag) s fun t =>
      Sends s t h.val (linkOn s h.val o.op (s.link h.val).nextTag o.old o.new o.pos o.reason) ∧
      (∃ x ∈ (t.link h.val).out, x.tag = (s.link h.val).nextTag ∧ x.waitRetry = false) ∧ Only [.links, .log] [] s t) ∧
  (∀ (h : Half) (s : State), (s.link h.val).aligned = true → (s.link h.val).started = false →
    Runs (.linkStartTimeout h) s fun t => (t.link h.val).started = true) ∧
  (∀ (h : Half) (s : State), s.short h.val = true → (s.link h.val).started = true →
    Runs (.shortOfLanes h) s fun t => (t.link h.val).degraded = true)

/-- Lane tests, error injection, the control register and wake detection. The checker of a lane in TEST locks at the
128th bit in a row that matches; locked, it counts a bit in error and loses lock when more than 64 fall within 1,024
bits. INJ_ONE injects, in TEST a payload bit alone, and reads 0 again; INJ_CONT injects. A write of SU_LANEn_CTL after
the set-up lock is ignored and counted; before it, a value without a test and with ENABLE as it was is stored. Activity
in SLEEP on a lane that was ACTIVE or SPARE_READY, or the wake tone in DEEP with TONE_EN, wakes the LINK domain; on one
that was in ALIGN neither does. (02_link_lanes R80, 02_link_lanes R81, 02_link_lanes R83, 02_link_lanes R85, 00_scope
R12, 16_time_power R464). -/
def Obligations.LaneTests : Prop :=
  (∀ (l : LaneNo) (b : Bool) (s : State), s.laneState l.val = 7 → s.on (Rg.LANE_CTL_CHK_EN l.val) = true →
      s.raw (Rg.LANE_CTL_TEST_MODE l.val) ≠ 5 →
    let m := s.raw (Rg.LANE_CTL_TEST_MODE l.val)
    let x := s.lane l.val
    let win := ((b != prbsBit m x.chkReg) :: x.chkWin).take 1024
    (s.on (Rg.LANE_STAT_CHK_LOCK l.val) = false → x.chkRun = 127 → (prbsTaps m).1 ≤ x.chkReg.length → b = prbsBit m x.chkReg →
      Runs (.checkerLock l [b]) s fun t =>
        t.raw (Rg.LANE_STAT_CHK_LOCK l.val) = 1 ∧ Only [.lanes] [(Rg.LANE_STAT_CHK_LOCK l.val).off] s t) ∧
    (s.on (Rg.LANE_STAT_CHK_LOCK l.val) = true → b ≠ prbsBit m x.chkReg →
      Runs (.checkerLock l [b]) s fun t =>
        t.raw (Rg.LANE_PRBSERR_N l.val) = min (s.raw (Rg.LANE_PRBSERR_N l.val) + 1) (2 ^ 32 - 1) ∧
        t.on (Rg.LANE_STAT_CHK_LOCK l.val) = decide ((win.filter id).length ≤ 64) ∧
        Only [.lanes] [(Rg.LANE_STAT_CHK_LOCK l.val).off, (Rg.LANE_PRBSERR_N l.val).off] s t)) ∧
  (∀ (l : LaneNo) (s : State), Runs (.injOneWrite l) s fun t =>
    t.raw (Rg.LANE_INJ_INJ_ONE l.val) = 0 ∧
    (s.laneState l.val = 7 → s.f (Rg.LANE_INJ_INJ_TYPE l.val) = 0 → t.sent = .injected l.val 0 :: s.sent) ∧
    (s.laneState l.val = 7 → s.f (Rg.LANE_INJ_INJ_TYPE l.val) ≠ 0 → t.sent = s.sent) ∧
    Only [.log] [(Rg.LANE_INJ_INJ_ONE l.val).off] s t) ∧
  (∀ (l : LaneNo) (s : State), s.on (Rg.LANE_INJ_INJ_CONT l.val) = true → s.laneState l.val = 7 ∨
      (s.laneState l.val = 5 ∧ s.on (Rg.LANE_INJ_INJ_ACTIVE l.val) = true) → s.f (Rg.LANE_INJ_INJ_TYPE l.val) = 0 →
    Runs (.injContInject l) s fun t => t.sent = .injected l.val 0 :: s.sent ∧ Only [.log] [] s t) ∧
  (∀ (l : LaneNo) (v : Word) (s : State), s.locked = true → Runs (.laneCtlWrite l v) s fun t =>
    t.raw Rg.C_RWL_IGNORED = min (s.raw Rg.C_RWL_IGNORED + 1) (2 ^ 32 - 1) ∧ Only [] [Rg.C_RWL_IGNORED.off] s t) ∧
  (∀ (l : LaneNo) (v : Word) (s : State), s.locked = false → fget v 20 4 = 0 → s.laneState l.val ≠ 7 →
      fget v 0 1 = s.raw (Rg.LANE_CTL_ENABLE l.val) →
    Runs (.laneCtlWrite l v) s fun t =>
      t.reg (Rg.LANE_CTL_ENABLE l.val).off = fset v 25 7 0 ∧ Only [] [(Rg.LANE_CTL_ENABLE l.val).off] s t) ∧
  (∀ (l : LaneNo) (s : State), s.laneState l.val = 1 →
      ((s.lane l.val).former = some 4 ∨ (s.lane l.val).former = some 5 →
        (s.dom (l.val / 5) 6 = 2 → Runs (.laneActivity l) s fun t => t = s.wake 1 s.wakeMask) ∧
        (s.dom (l.val / 5) 6 = 3 → s.on Rg.PM_CFG_TONE_EN = true →
          Runs (.wakeTone l) s fun t => t = s.wake 2 s.wakeMask)) ∧
      ((s.lane l.val).former = some 3 → Runs (.laneActivity l) s (fun t => t = s) ∧ Runs (.wakeTone l) s fun t => t = s))

/-- What the receiver does with SEQ. A packet that passes framing and both CRC checks and is no LLCP packet: with SEQ =
E it is accepted and E becomes E + 1; with SEQ in E − 512 to E − 1 it is discarded, counted in RX_DUP, and ACKSEQ = E −
1 is owed again; with any other SEQ it is discarded and counted in RX_SEQ. E changes in the first case only. (R94). -/
def Obligations.RetryReceiver : Prop :=
  ∀ (h : Half) (rows : List (List (Nat × Blk))) (l : List Byte) (s : State), s.linkUp h.val = true →
      GoodPacket s h.val rows l → (hdrOf l).type ≠ 7 → (s.pkt h.val).e < 65536 →
    Runs (.packetReceived h rows) s fun t =>
      ((hdrOf l).seq = (s.pkt h.val).e → (t.pkt h.val).e = ((s.pkt h.val).e + 1) % 65536 ∧ (t.pkt h.val).ackOwed = true ∧
        (t.pkt h.val).nakOut = false ∧
        t.raw (Rg.C_RX_PKT h.val) = min (s.raw (Rg.C_RX_PKT h.val) + 1) (2 ^ (Rg.C_RX_PKT h.val).w - 1)) ∧
      (∀ k, 1 ≤ k → k ≤ 512 → ((hdrOf l).seq + k) % 65536 = (s.pkt h.val).e →
        (t.pkt h.val).e = (s.pkt h.val).e ∧ (t.pkt h.val).ackOwed = true ∧
        t.raw (Rg.C_RX_DUP h.val) = min (s.raw (Rg.C_RX_DUP h.val) + 1) (2 ^ (Rg.C_RX_DUP h.val).w - 1)) ∧
      ((∀ k, k ≤ 512 → ((hdrOf l).seq + k) % 65536 ≠ (s.pkt h.val).e) →
        (t.pkt h.val).e = (s.pkt h.val).e ∧
        t.raw (Rg.C_RX_SEQ h.val) = min (s.raw (Rg.C_RX_SEQ h.val) + 1) (2 ^ (Rg.C_RX_SEQ h.val).w - 1)) ∧
      KeepsBut [.pkts] s t

/-- NAK, acknowledgement, resynchronisation and void packets. NAK_REPEAT repeats a NAK that has had no answer. LLCP_NAK
has every held packet resent. LLCP_ACK releases what ACKSEQ acknowledges. An RSYNC sets E to its SEQ. A replay timeout
resends all held packets, or after RETRY_MAX resends discards them, counts them in RSYNC_LOST and sends an RSYNC with
the next number, which RSYNC_REPEAT repeats. A VOID with SEQ = E advances E, with another SEQ it does not. A MSG packet
is counted in BAD_TYPE. (03_link_packets R95, 03_link_packets R96, 03_link_packets R97, 03_link_packets R98,
03_link_packets R99, 03_link_packets R121). -/
def Obligations.RetryTraffic : Prop :=
  (∀ (h : Half) (s : State), (s.pkt h.val).nakOut = true → Runs (.nakRepeat h) s fun t =>
    (t.pkt h.val).llcp = (s.pkt h.val).llcp ++ [⟨true, none⟩] ∧
    t.raw (Rg.C_NAK_TX h.val) = min (s.raw (Rg.C_NAK_TX h.val) + 1) (2 ^ (Rg.C_NAK_TX h.val).w - 1) ∧
    Only [.pkts] [(Rg.C_NAK_TX h.val).off] s t) ∧
  (∀ (h : Half) (k : Nat) (o : HeldPkt) (r : List HeldPkt) (s : State), s.linkUp h.val = true →
      (s.pkt h.val).held = o :: r → (s.pkt h.val).held.length ≤ (k + 65536 - o.seq) % 65536 →
      (s.pkt h.val).resends < s.f Rg.PKT_CFG_RETRY_MAX →
    Runs (.llcpNak h k) s fun t =>
      (t.pkt h.val).resendLeft = (s.pkt h.val).held.length ∧ (t.pkt h.val).held = (s.pkt h.val).held ∧
      (t.pkt h.val).resends = (s.pkt h.val).resends ∧
      t.raw (Rg.C_NAK_RX h.val) = min (s.raw (Rg.C_NAK_RX h.val) + 1) (2 ^ (Rg.C_NAK_RX h.val).w - 1) ∧
      Only [.pkts] [(Rg.C_NAK_RX h.val).off] s t) ∧
  (∀ (h : Half) (o : HeldPkt) (r : List HeldPkt) (s : State), s.linkUp h.val = true →
      (s.pkt h.val).held = o :: r → o.seq < 65536 →
    Runs (.llcpAck h o.seq) s fun t =>
      (t.pkt h.val).held = r ∧ (t.pkt h.val).ackedSeq = o.seq ∧ (t.pkt h.val).resends = 0 ∧ Only [.pkts] [] s t) ∧
  (∀ (h : Half) (seq : Nat) (s : State), s.linkUp h.val = true → Runs (.llcpRsync h seq) s fun t =>
    (t.pkt h.val).e = seq % 65536 ∧ (t.pkt h.val).ackOwed = true ∧
    (t.pkt h.val).llcp = (s.pkt h.val).llcp ++ [⟨false, none⟩] ∧ Only eventParts eventRegs s t) ∧
  (∀ (h : Half) (s : State), (s.pkt h.val).held ≠ [] →
    ((s.pkt h.val).resends < s.f Rg.PKT_CFG_RETRY_MAX → Runs (.replayTimeout h) s fun t =>
      (t.pkt h.val).resendLeft = (s.pkt h.val).held.length ∧ Only [.pkts] [] s t) ∧
    (s.f Rg.PKT_CFG_RETRY_MAX ≤ (s.pkt h.val).resends → Runs (.replayTimeout h) s fun t =>
      (t.pkt h.val).held = [] ∧ (t.pkt h.val).rsync = some (s.pkt h.val).nextSeq ∧
      (t.pkt h.val).llcp = (s.pkt h.val).llcp ++ [⟨false, some (s.pkt h.val).nextSeq⟩] ∧
      t.raw (Rg.C_RSYNC_LOST h.val) =
        min (s.raw (Rg.C_RSYNC_LOST h.val) + (s.pkt h.val).held.length) (2 ^ (Rg.C_RSYNC_LOST h.val).w - 1))) ∧
  (∀ (h : Half) (q : Nat) (s : State), (s.pkt h.val).rsync = some q → Runs (.rsyncRepeat h) s fun t =>
    (t.pkt h.val).llcp = (s.pkt h.val).llcp ++ [⟨false, some q⟩] ∧ Only [.pkts] [] s t) ∧
  (∀ (h : Half) (rows : List (List (Nat × Blk))) (l : List Byte) (s : State), s.linkUp h.val = true →
      GoodPacket s h.val rows l → (hdrOf l).type = 8 → (hdrOf l).ver = 1 → (s.pkt h.val).e < 65536 →
    ((hdrOf l).seq = (s.pkt h.val).e → Runs (.voidReceived h rows) s fun t =>
      (t.pkt h.val).e = ((s.pkt h.val).e + 1) % 65536 ∧ RegsBut [(Rg.C_RX_PKT h.val).off] s t) ∧
    ((hdrOf l).seq ≠ (s.pkt h.val).e → Runs (.voidReceived h rows) s fun t =>
      (t.pkt h.val).e = (s.pkt h.val).e ∧ t.raw (Rg.C_RX_PKT h.val) = s.raw (Rg.C_RX_PKT h.val))) ∧
  (∀ (h : Half) (s : State), s.linkUp h.val = true →
    Runs (.msgReceived h) s fun t =>
      t.raw (Rg.C_BAD_TYPE h.val) = min (s.raw (Rg.C_BAD_TYPE h.val) + 1) (2 ^ (Rg.C_BAD_TYPE h.val).w - 1) ∧
      Only [] [(Rg.C_BAD_TYPE h.val).off] s t)

/-- What a half sends next. An LLCP packet that is due goes first, with ACKSEQ = E − 1. Otherwise, with nothing to
resend, the packet with the least key of Table 25 goes: it takes the next number, is held until it is acknowledged, and
leaves the queue. It leaves as blocks in stripe order, behind a header and CRCs that are right. No packet of the queue
has a smaller key, and no packet is lost. The framing of the blocks of a packet gives back its bytes. (03_link_packets
R87, 03_link_packets R88, 03_link_packets R90, 03_link_packets R93, 03_link_packets R96, 03_link_packets R101). -/
def Obligations.PacketSending : Prop :=
  (∀ (h : Half) (par : Bool) (l : Llcp) (r : List Llcp) (s : State), s.linkUp h.val = true → s.boot.core = false →
      s.txLanes h.val ≠ [] → (s.pkt h.val).llcp = l :: r →
    Runs (.packetSend h par) s fun t =>
      Streams s t h.val (packetBlks (packetBytes 7 (128 + (64 * b2n l.nak + 32 * b2n l.rsync.isSome)) (l.rsync.getD 0)
        (((s.pkt h.val).e + 65535) % 65536) 0 0 [])) ∧
      (t.pkt h.val).llcp = r ∧ (t.pkt h.val).ackOwed = false ∧ Only [.pkts, .log] [] s t) ∧
  (∀ (h : Half) (it : TxItem) (rest : List TxItem) (s : State), s.linkUp h.val = true → s.boot.core = false →
      s.txLanes h.val ≠ [] → (s.pkt h.val).llcp = [] → (s.pkt h.val).rsync = none → (s.pkt h.val).resendLeft = 0 →
      pickTx s.time.count ((s.takeOver h.val).pkt h.val).queue = some (it, rest) → canHold (s.pkt h.val) it = true →
    Runs (.packetSend h false) s fun t =>
      Streams s t h.val (packetBlks (packetBytes it.type 128 (s.pkt h.val).nextSeq (((s.pkt h.val).e + 65535) % 65536) it.flow
        it.nsec it.body)) ∧
      (t.pkt h.val).queue = rest ∧ (t.pkt h.val).nextSeq = ((s.pkt h.val).nextSeq + 1) % 65536 ∧
      (t.pkt h.val).held = (s.pkt h.val).held ++ [⟨(s.pkt h.val).nextSeq, it, false⟩] ∧ Only [.pkts, .log] [] s t) ∧
  (∀ (now : Nat) (l : List TxItem) (it : TxItem) (rest : List TxItem), pickTx now l = some (it, rest) →
    l.Perm (it :: rest) ∧ ∀ x ∈ rest, keyLt (txKey now x) (txKey now it) = false) ∧
  (∀ l : List Byte, l.length % 4 = 0 → 20 ≤ l.length → l.length ≤ 9216 →
    deframe (none, false) ((packetBlks l).map decodeBlk) = ([.packet l], (none, false)))

/-- Sections, orphans, flow effects and uplink sections. A data section of an open downlink flow that passes the rows of
Table 31 within its window is kept and counted as accepted; one that is late is counted as late and not kept. After the
binding deadline no unbound data section of the identifier and symbol is left. An effect of a flow whose symbol has come
replaces the context of a closed flow; its counters run on. The sums of an uplink flow that is not shed leave as packets
of UL_DATA sections, compressed as the context of the first symbol of each control section says, in the order they are
packed. (03_link_packets R106, 03_link_packets R111, 03_link_packets R114, 03_link_packets R115, 04_downlink R134,
05_uplink R174). -/
def Obligations.SectionsAndFlows : Prop :=
  (∀ (h : Half) (f : FlowNo) (b : List Byte) (x : Section) (s : State) (mu nprb : Nat) (ctx : Flow),
      (hdrOf b).type = 1 → (hdrOf b).flow = f.val → sectionsOf (hdrOf b).nsec (payload b) = [x] →
      s.linkUp h.val = true → (s.flowLast f.val).dir = 0 →
      s.flowAt f.val (countOf (s.dl (s.flowLast f.val).carrier).scs x.at_) = ctx →
      ctx.state = 1 → ctx.dir = 0 → ctx.half = h.val → s.flowCarrier ctx = some (mu, nprb) →
      x.kind = 2 → stampOk mu { x.at_ with tick := 0 } = true → 1 ≤ x.numPrb → x.startPrb + x.numPrb ≤ nprb →
      lenOk s.pathCount ctx.comp x = true → x.nsym = 1 →
    let start := countOf mu { x.at_ with tick := 0 }
    let d : DataSec := ⟨f.val, x.secid, start, x.startPrb, x.numPrb, byteAt x.body 0, byteAt x.body 1, x.body.drop 4,
      sectionSize x, fwdOpen mu s.time.count start⟩
    (windowOf s.time.count start ctx.lead = 0 → s.secBytes h.val + sectionSize x ≤ 10485760 → 1 ≤ d.lcount →
        s.boundTo d = none → s.dataRepeats d = false →
      Runs (.sectionPacketReceived h b) s fun t =>
        t.dataSecs = s.dataSecs ++ [d] ∧ (t.flow f.val).accepted = inc32 (s.flow f.val).accepted 1 ∧
        Only [.flows, .sections, .d2d] [] s t) ∧
    (windowOf s.time.count start ctx.lead = 2 →
      Runs (.sectionPacketReceived h b) s fun t =>
        t.dataSecs = s.dataSecs ∧ (t.flow f.val).late = inc32 (s.flow f.val).late 1 ∧
        (t.flow f.val).accepted = (s.flow f.val).accepted ∧ Only (.flows :: eventParts) eventRegs s t)) ∧
  (∀ (h : Half) (f : FlowNo) (secid start : Nat) (s : State),
    Runs (.dataBindingDeadline h f secid start) s fun t =>
      (∀ d ∈ t.dataSecs, d.flow = f.val → d.secid = secid → d.sym = start → (s.boundTo d).isSome = true) ∧
      (∀ d ∈ s.dataSecs, d.flow ≠ f.val ∨ d.secid ≠ secid ∨ d.sym ≠ start → d ∈ t.dataSecs) ∧
      Only [.flows, .sections] [] s t) ∧
  (∀ (f : FlowNo) (x : FlowFx) (g : Flow) (s : State), tget (fun _ => ([] : List FlowFx)) s.flowFx f.val = [x] →
      0 ≤ ahead x.at_ s.time.count → x.ctx = some g → (s.flow f.val).state = 0 → g.state ≠ 0 →
    Runs (.flowEffect f) s fun t =>
      t.flow f.val = g.keepCounts (s.flow f.val) ∧ tget (fun _ => ([] : List FlowFx)) t.flowFx f.val = [] ∧ Only [.flows] [] s t) ∧
  (∀ (h : Half) (f : FlowNo) (sym : Nat) (u : SumSym) (s : State),
      (s.sums.find? fun u => u.flow == f.val && u.sym == sym && u.half == h.val) = some u → u.partial_ = false →
      s.isShed f.val = false →
    Runs (.ulSectionSend h f sym) s fun t =>
      u ∉ t.sums ∧ ∃ l : List TxItem, (t.pkt h.val).queue = (s.pkt h.val).queue ++ l ∧
        (∀ it ∈ l, it.type = 1 ∧ it.flow = f.val) ∧
        l.map (fun it => (it.nsec, it.body)) = packSections ((((s.ctrlSecs.filter fun c => c.ul && c.flow == f.val &&
          c.syms.contains sym).filter fun c => (s.flowAt f.val (nth c.syms 0 sym)).state == 1 ||
            (s.flowAt f.val (nth c.syms 0 sym)).state == 3).map fun c =>
          ulSections c u (s.ul (s.flowAt f.val (nth c.syms 0 sym)).carrier).scs (s.flowAt f.val (nth c.syms 0 sym)).comp).flatten)
          0 [] ∧ Only [.uplink, .pkts] [] s t)

/-- TIMING packets, WAKE sets and transactions as they arrive. A SET with SET_EN clear is ignored and counted. One whose
anchor is neither known nor final waits. A REQUEST puts a REPORT in the queue, anchored at the half's next AM and, once
one has gone, at the count at which that leaves. A WAKE set with a reserved action only marks its TAG; one for the LINK
domain of H0 casts or withdraws the baseband's vote. A request while the tunnel is off, or with a reserved OP, is
answered and not executed; an accepted one is in execution. (16_time_power R451, 16_time_power R453, 03_link_packets
R123, 03_link_packets R124, 03_link_packets R127). -/
def Obligations.TimeAndRequests : Prop :=
  (∀ (h : Half) (b : List Byte) (s : State), s.linkUp h.val = true → byteAt b 0 = 1 →
    (s.on Rg.AT_CFG_SET_EN = false → Runs (.timingSet h b) s fun t =>
      t.raw (Rg.C_SET_IGNORED h.val) = min (s.raw (Rg.C_SET_IGNORED h.val) + 1) (2 ^ (Rg.C_SET_IGNORED h.val).w - 1) ∧
      Only [] [(Rg.C_SET_IGNORED h.val).off] s t) ∧
    (s.on Rg.AT_CFG_SET_EN = true → stampOk s.muRef (setOf b).stamp = true → s.waitingSet h.val = none →
        ((tget (fun _ => ([] : List (Nat × Nat))) s.time.ams h.val).find? fun e => e.1 == (setOf b).amseq) = none →
        byteAt b 1 % 2 = 0 →
      Runs (.timingSet h b) s fun t =>
        t.waitingSet h.val = some { setOf b with got := s.time.now } ∧ Only [.time] [] s t)) ∧
  (∀ (h : Half) (b : List Byte) (s : State), s.linkUp h.val = true → byteAt b 0 = 3 → Runs (.timingRequest h b) s fun t =>
    ∃ it : TxItem, (t.pkt h.val).queue = (s.pkt h.val).queue ++ [it] ∧ it.type = 2 ∧
      it.body.take 4 = [2, 0] ++ beBytes 2 (s.link h.val).amseq ∧
      (∀ k, (s.link h.val).amAt = some k →
        (it.body.drop 4).take 4 = beBytes 4 (atimeWord (stampOf s.muRef
          ((s.countOn h.val + (k + s.nextAm (s.time.now - k) - s.time.now)) % Config.ticksPerCycle)))) ∧
      Only [.pkts, .free] [] s t) ∧
  (∀ (h : Half) (l : List (List Byte)) (b : List Byte) (s : State), pickCopy 0xA5 l = some b → s.shutdown = false →
      s.dom h.val 6 ≤ 1 → s.time.lastWake ≠ some (byteAt b 4) →
    (byteAt b 3 ≠ 1 → byteAt b 3 ≠ 2 → Runs (.wakeOrderedSet h l) s fun t =>
      t.time.lastWake = some (byteAt b 4) ∧ Only [.time] [] s t) ∧
    (byteAt b 1 = 2 → byteAt b 2 = 0 → s.split = false → s.voteOwner 0 6 ≠ 0 →
      (byteAt b 3 = 2 → Runs (.wakeOrderedSet h l) s fun t => t.vote 0 6 1 = false ∧ t.time.lastWake = some (byteAt b 4) ∧
        Only [.time] [0x0830, (Rg.C_WAKE_REFUSED h.val).off] s t) ∧
      (byteAt b 3 = 1 → s.dom 0 6 = 0 → Runs (.wakeOrderedSet h l) s fun t => t.vote 0 6 1 = true ∧
        Only [.time] [0x0830, (Rg.C_WAKE_REFUSED h.val).off] s t))) ∧
  (∀ (h : Half) (b : List Byte) (s : State), s.linkUp h.val = true →
    (s.on Rg.PKT_CFG_TUNNEL_EN = false → s.standalone = false → Runs (.txnReq h b) s fun t =>
      ∃ l : List TxItem, (t.pkt h.val).queue = (s.pkt h.val).queue ++ l ∧ t.cmd.txns = s.cmd.txns) ∧
    (s.on Rg.PKT_CFG_TUNNEL_EN = true → beNat b 2 1 = 1 ∨ beNat b 2 1 = 2 → s.cmd.txns.length < 32 →
        opcodes.contains (byteAt b 4) = true →
      Runs (.txnReq h b) s fun t =>
        t.cmd.txns = s.cmd.txns ++ [⟨h.val, byteAt b 4, beNat b 0 2⟩] ∧ Only [.commands] [] s t))

/-- Carrier records, forwarding, weighting and release of downlink symbols. A pending carrier record of either direction
takes effect as a whole when its boundary has come. The forwarding window marks the sections of the symbol that its half
owns. The start of a symbol on a running half whose array processor is not down leaves a product of the carrier, as long
as the symbol, on every path in service whose group runs. A late release leaves an incomplete interval and counts an
underrun of the path; one with every sample there leaves a complete interval. (01_architecture R26, 04_downlink R132,
04_downlink R142, 04_downlink R144, 04_downlink R145, 05_uplink R155, 16_time_power R471). -/
def Obligations.DownlinkSymbols : Prop :=
  (∀ (c : CarrierNo) (x : PendDl) (s : State), tget (fun _ => ([] : List PendDl)) s.dlPend c.val = [x] →
      s.reached x.at_ = true →
    Runs (.carrierRecordEffect 0 c) s fun t =>
      tget DlCarrier.reset t.dlCar c.val = x.car ∧ tget (fun _ => ([] : List PendDl)) t.dlPend c.val = [] ∧
      ((s.dl c.val).en = false → tget (fun _ => (none : Option Nat)) t.dlSince c.val = some x.from_) ∧
      t.isSafe 0 c.val = false ∧ t.ulCar = s.ulCar) ∧
  (∀ (c : CarrierNo) (x : PendUl) (s : State), tget (fun _ => ([] : List PendUl)) s.ulPend c.val = [x] →
      s.reached x.at_ = true →
    Runs (.carrierRecordEffect 1 c) s fun t =>
      tget UlCarrier.reset t.ulCar c.val = x.car ∧ tget (fun _ => ([] : List PendUl)) t.ulPend c.val = [] ∧
      t.dlCar = s.dlCar ∧ Only [.uplink, .faults, .time] [(Rg.C_TX_HOLDS 0).off] s t) ∧
  (∀ (h : Half) (f : FlowNo) (sym : Nat) (s : State), (s.flow f.val).half = h.val →
    Runs (.dlForwardWindowOpen h f sym) s fun t =>
      (∀ c ∈ t.ctrlSecs, c.flow = f.val → c.ul = false → c.syms.contains sym = true → c.fwd = true) ∧
      (∀ d ∈ t.dataSecs, d.flow = f.val → d.sym = sym → d.fwd = true) ∧
      t.ctrlSecs.length = s.ctrlSecs.length ∧ t.dataSecs.length = s.dataSecs.length ∧ Only [.sections, .d2d] [] s t) ∧
  (∀ (h : Half) (c : CarrierNo) (sym : Nat) (s : State), (s.dlAt c.val sym).en = true → s.pathCount ≠ 0 →
      h.val = 0 ∨ 32 < s.pathCount → s.dom h.val 0 = 0 → s.arrDown h.val = false → tget (fun _ => 0) s.backoff c.val < 2 →
    Runs (.dlSymbolStart h c sym []) s fun t =>
      ∀ p ∈ halfPaths h.val, s.pathIn p = true → s.groupRun (p / 8) = true →
        ∃ e ∈ (t.tx p).prods, e.carrier = c.val ∧ e.start = sym ∧ e.len = symTicks (s.dlAt c.val sym).scs sym) ∧
  (∀ (p : PathNo) (sym : Nat) (s : State), s.pathIn p.val = true → s.groupRun (p.val / 8) = true →
      (s.muMax false).isSome = true → s.touches 0 sym (s.intervalLen sym) = true →
    Runs (.symbolRelease p sym true [] false) s (fun t =>
      (t.tx p.val).next = some ⟨sym, false, []⟩ ∧ (t.tx p.val).underrun = inc32 (s.tx p.val).underrun 1 ∧
      t.raw (Rg.C_SYM_UNDERRUN (p.val / 32)) =
        min (s.raw (Rg.C_SYM_UNDERRUN (p.val / 32)) + 1) (2 ^ (Rg.C_SYM_UNDERRUN (p.val / 32)).w - 1)) ∧
    ((s.buffered p.val sym (s.intervalLen sym)).isSome = true → Runs (.symbolRelease p sym false [] false) s fun t =>
      (∃ dac, (t.tx p.val).next = some ⟨sym, true, dac⟩) ∧ (t.tx p.val).underrun = (s.tx p.val).underrun ∧
      (t.tx p.val).rel = some sym ∧ KeepsBut [.downlink, .transmit] s t))

/-- The TX states of a path. A GATED path that can transmit warms before its first interval that is not blank. At the
start of an interval a path in WARMING goes LIVE: on a blank interval it sends zeros, on a complete one its samples, on
an incomplete one zeros in ZERO. A LIVE path that is muted stays LIVE, sends zeros and counts. A receive interval or the
end of the transmit interval turns a path OFF. (04_downlink R148, 04_downlink R149). -/
def Obligations.TransmitStates : Prop :=
  (∀ (p : PathNo) (sym : Nat) (s : State), s.canTx p.val = true → s.inTx sym = true → s.muted p.val = false →
      s.contentBlank p.val sym ≠ some true → s.groupReady (p.val / 8) = true → (s.tx p.val).state = 1 →
    Runs (.txWarmingStart p sym) s fun t => (t.tx p.val).state = 2 ∧ Only [.transmit] [] s t) ∧
  (∀ (p : PathNo) (sym : Nat) (s : State), s.canTx p.val = true → s.inTx sym = true → s.muted p.val = false →
      (s.tx p.val).state = 2 → s.ref.muteFrom = none →
    (s.contentBlank p.val sym = some true → Runs (.txIntervalStart p sym) s fun t =>
      (t.tx p.val).state = 3 ∧ (t.tx p.val).next = none ∧ (t.tx p.val).warmEnd = some s.time.now ∧
      t.sent = .txSamples p.val sym none :: s.sent ∧ Only [.transmit, .log] [] s t) ∧
    (∀ dac, s.contentBlank p.val sym ≠ some true → (s.tx p.val).next = some ⟨sym, true, dac⟩ →
      Runs (.txIntervalStart p sym) s fun t =>
        (t.tx p.val).state = 3 ∧ (t.tx p.val).liveSince = some s.time.now ∧
        t.sent = .txSamples p.val sym (some dac) :: s.sent ∧ Only [.transmit, .log] [] s t) ∧
    (s.contentBlank p.val sym ≠ some true → (s.tx p.val).next = some ⟨sym, false, []⟩ →
      Runs (.txIntervalStart p sym) s fun t =>
        (t.tx p.val).state = 4 ∧ t.sent = .txSamples p.val sym none :: s.sent ∧ Only [.transmit, .log] [] s t)) ∧
  (∀ (p : PathNo) (sym : Nat) (s : State), s.canTx p.val = true → s.ref.muteFrom = none → (s.tx p.val).state = 3 →
    (s.inTx sym = true → s.muted p.val = true → Runs (.txIntervalStart p sym) s fun t =>
      (t.tx p.val).state = 3 ∧ (t.tx p.val).muted = inc32 (s.tx p.val).muted 1 ∧
      t.sent = .txSamples p.val sym none :: s.sent ∧
      Only [.transmit, .log] [(Rg.C_SYM_MUTED (p.val / 32)).off] s t) ∧
    (s.codeAt sym = some 1 → Runs (.txIntervalStart p sym) s fun t =>
      (t.tx p.val).state = 0 ∧ (t.tx p.val).next = none ∧ Only [.transmit] [] s t)) ∧
  (∀ (p : PathNo) (sym : Nat) (s : State), (s.tx p.val).state ≠ 0 → Runs (.txGate p sym true) s fun t =>
    (t.tx p.val).state = 0 ∧ (t.tx p.val).next = none ∧ Only [.transmit] [] s t)

/-- Converter rotation, over-range and gain control. The resting slice of a rotating converter is exchanged outside a
receive interval or capture span and waits inside one, until the exchange is forced 10 ms after it fell due; the
correction found while a slice rested is in force as it enters service. A slice that passes its calibration has no
failure on record and its correction waits; the first failure is recorded. The first over-range code counts an onset and
a code in range ends the indication; a sprint step adds its attenuation up to the limit. The end of an interval closes
its sprint record; with gain control off it holds attenuation and bypass, and after an interval without power and
without sprint the distance path takes one upward step off. A filter swap selects the other bank from the named tick on.
(05_uplink R156, 05_uplink R157, 05_uplink R158, 05_uplink R160, 05_uplink R161, 05_uplink R163, 05_uplink R167). -/
def Obligations.ReceiveConverters : Prop :=
  (∀ (v : Conv) (inSpan : Bool) (s : State), s.rotates v = true →
    (s.rotateWaits v inSpan = false → Runs (.adcSliceRotate v inSpan) s fun t =>
      (t.convOf v).resting = (s.convOf v).next ∧ (t.convOf v).due = none ∧
      (∀ x, tget (fun _ => none) (s.convOf v).found (s.convOf v).resting = some x →
        tget (fun _ => ⟨0, 0, 0⟩) (t.convOf v).corr (s.convOf v).resting = x) ∧ Only [.receive] [] s t) ∧
    (s.rotateWaits v inSpan = true → Runs (.adcSliceRotate v inSpan) s fun t =>
      (t.convOf v).due = some ((s.convOf v).due.getD s.time.now) ∧ (t.convOf v).resting = (s.convOf v).resting ∧
      Only [.receive] [] s t) ∧
    (∀ k, (s.convOf v).due = some k → k + 4915200 ≤ s.time.now → Runs (.adcRotateForce v false) s fun t =>
      (t.convOf v).resting = (s.convOf v).next ∧ (t.convOf v).due = none ∧ Only [.receive] [] s t)) ∧
  (∀ (v : Conv) (corr : SliceCorr) (s : State),
    Runs (.adcSliceCalDone v true corr) s (fun t => (t.convOf v).failed.contains (s.convOf v).resting = false ∧
      ((s.convOf v).retired = [] → tget (fun _ => none) (t.convOf v).found (s.convOf v).resting = some corr) ∧
      Only [.receive] [] s t) ∧
    ((s.convOf v).failed.contains (s.convOf v).resting = false → Runs (.adcSliceCalDone v false corr) s fun t =>
      (t.convOf v).failed.contains (s.convOf v).resting = true ∧ (t.convOf v).retired = (s.convOf v).retired ∧
      Only [.receive] [] s t)) ∧
  (∀ (p : PathNo) (i q : Int) (s : State),
    (overCode i = false → overCode q = false → Runs (.adcOverrange p i q) s fun t =>
      (t.rx p.val).ovr = false ∧ Only [.receive] [] s t) ∧
    (overCode i = true → (s.rx p.val).ovr = false → Runs (.adcOverrange p i q) s fun t =>
      (t.rx p.val).ovr = true ∧ (t.rx p.val).onsets = inc32 (s.rx p.val).onsets 1 ∧
      t.raw (Rg.C_ADC_OVL (p.val / 32)) =
        min (s.raw (Rg.C_ADC_OVL (p.val / 32)) + 1) (2 ^ (Rg.C_ADC_OVL (p.val / 32)).w - 1))) ∧
  (∀ (p : PathNo) (s : State), (s.rx p.val).ovr = true → s.on Rg.UL_AGC_SPRINT_EN = true →
      s.agcRuns p.val s.time.count = true → (s.rx p.val).att < s.f Rg.UL_AGC_ATT_MAX →
    Runs (.sprintStep p) s fun t =>
      (t.rx p.val).att = min ((s.rx p.val).att + s.f Rg.UL_AGC_SPRINT_STEP) (s.f Rg.UL_AGC_ATT_MAX) ∧
      (t.rx p.val).sprintNow = true ∧ (t.rx p.val).sprintTicks.head? = some s.time.now ∧
      Only [.receive] [(Rg.C_SPRINT (p.val / 32)).off] s t) ∧
  (∀ (p : PathNo) (run : AdcRun) (s : State), Runs (.agcIntervalEnd p run) s fun t =>
    (t.rx p.val).sprintNow = false ∧ (t.rx p.val).sprintLast = (s.rx p.val).sprintNow ∧
    (t.rx p.val).energy = 0 ∧ (t.rx p.val).codes = 0 ∧
    (s.on Rg.UL_AGC_AGC_EN = false → (t.rx p.val).att = (s.rx p.val).att ∧ (t.rx p.val).bypass = (s.rx p.val).bypass ∧
      (t.rx p.val).pendBypass = (s.rx p.val).pendBypass) ∧
    (s.agcRuns p.val ((s.time.count + Config.ticksPerCycle - 1) % Config.ticksPerCycle) = true → run.codes = [] →
      (s.rx p.val).energy = 0 → (s.rx p.val).pendBypass = none → (s.rx p.val).sprintNow = false →
      (s.rx p.val).sprintLast = false → (t.rx p.val).att = (s.rx p.val).att - s.f Rg.UL_AGC_DIST_UP) ∧
    Only [.receive, .uplink] [(Rg.C_SPRINT_SYM (p.val / 32)).off, (Rg.C_FILT_SAT (p.val / 32)).off] s t) ∧
  (∀ (c : CarrierNo) (k : Nat) (s : State), (s.filtOf c.val).swapAt = some k → s.reached k = true →
    Runs (.filterSwapTick c) s fun t =>
      (t.filtOf c.val).bankB = !(s.filtOf c.val).bankB ∧ (t.filtOf c.val).swapAt = none ∧
      (t.filtOf c.val).swaps.head? = some (s.tickOf k) ∧ Only [.uplink] [] s t)

/-- Symbol windows and the sums of both halves. In a window of a running half every path in service whose elastic buffer
holds none of it is counted as a gap. When both halves' coded sums of a flow's symbol are present and the other half's
have crossed, the owning half adds them and keeps one complete sum. At the cut-off it goes on with its own sums alone,
marked PARTIAL. (01_architecture R29, 05_uplink R169, 05_uplink R171, 05_uplink R173). -/
def Obligations.UplinkSums : Prop :=
  (∀ (h : Half) (c : CarrierNo) (sym : Nat) (s : State), (s.ulAt c.val sym).en = true → s.carries = true → s.pathCount ≠ 0 →
      h.val = 0 ∨ 32 < s.pathCount → s.dom h.val 0 = 0 → s.arrDown h.val = false → s.split = false →
      (∀ p ∈ halfPaths h.val, (s.rx p).buf = []) →
    Runs (.ulSymbolWindow h c sym [] []) s fun t =>
      t.raw (Rg.C_UL_GAP h.val) =
        min (s.raw (Rg.C_UL_GAP h.val) + ((halfPaths h.val).filter fun p => s.pathIn p).length)
          (2 ^ (Rg.C_UL_GAP h.val).w - 1) ∧ t.sums = s.sums ∧
      (s.touches 1 sym (symTicks (s.ulAt c.val sym).scs sym) = true →
        t.raw (Rg.C_UL_IN_TX h.val) = s.raw (Rg.C_UL_IN_TX h.val))) ∧
  (∀ (f : FlowNo) (sym : Nat) (s : State), s.split = false → 32 < s.pathCount →
    let of (h : Nat) := s.parts.filter fun x => x.flow == f.val && x.sym == sym && x.half == h
    of 0 ≠ [] → of 1 ≠ [] → s.d2dHas (1 - (s.flow f.val).half) (.sums f.val sym) = false →
    Runs (.ulPartialSumsReady f sym) s fun t =>
      (∃ u : SumSym, t.sums = s.sums ++ [u] ∧ u.flow = f.val ∧ u.sym = sym ∧ u.half = (s.flow f.val).half ∧
        u.partial_ = false ∧ ∀ x ∈ of 0, ∀ y ∈ of 1,
          ((of 1).find? fun b => b.layer == x.layer && b.prb == x.prb) = some y → (x.layer, x.prb, (addSums x y).1) ∈ u.res) ∧
      ∀ x ∈ t.parts, ¬(x.flow = f.val ∧ x.sym = sym)) ∧
  (∀ (f : FlowNo) (sym : Nat) (s : State), s.split = false → 32 < s.pathCount →
      s.soleSum f.val sym (s.flow f.val).half ≠ [] →
    Runs (.partialSumCutoff f sym) s fun t =>
      ∃ u : SumSym, t.sums = s.sums ++ [u] ∧ u.flow = f.val ∧ u.sym = sym ∧ u.half = (s.flow f.val).half ∧
        u.partial_ = true ∧ u.res = s.soleSum f.val sym (s.flow f.val).half)

/-- Loads, faults and repair of the beam table. When the effect symbol of a load comes, the entry becomes VALID, is
mapped to its staging rows on both halves, and symbols from then on take the loaded weights while earlier ones keep what
the entry gave; on an UNUSABLE entry the load lapses. A bulk load without entries left completes. A scrub that finds the
row of a VALID entry bad makes the entry DAMAGED from the next symbol boundary and tests the row; one that finds an idle
predistortion bank bad makes it FREE. A row that passes its test leaves the test and the table as it was; one that fails
is retired, and a spare row takes its place while one is left. (06_beam_weights R178, 06_beam_weights R180,
06_beam_weights R181, 06_beam_weights R184, 06_beam_weights R185, 06_beam_weights R188, 17_reliability R483). -/
def Obligations.BeamTable : Prop :=
  (∀ (id : Fin 8192) (l : BeamLoad) (s : State), (s.beam id.val).load = some l → s.reached l.at_ = true →
    ((s.beam id.val).state ≠ 3 → (∀ w ∈ (s.beam id.val).was, w.until_ ≤ s.time.now) → Runs (.beamEntryEffect id) s fun t =>
      (t.beam id.val).state = 1 ∧ (t.beam id.val).row0 = some l.row0 ∧ (t.beam id.val).row1 = some l.row1 ∧
      (t.beam id.val).load = none ∧ t.beamAt 0 id.val s.time.count = some (s.row 0 l.row0).w ∧
      t.beamAt 1 id.val s.time.count = some (s.row 1 l.row1).w ∧
      (∀ sym, s.tickOf sym < s.tickOf l.at_ → (s.beam id.val).was = [] → (s.beam id.val).state ≠ 1 →
        t.beamAt 0 id.val sym = none) ∧
      (∀ k, k ≠ id.val → t.beam k = s.beam k) ∧ Only [.beams] [Rg.BW_STAT_STAGE_H0.off, Rg.BW_STAT_STAGE_H1.off] s t) ∧
    ((s.beam id.val).state = 3 → Runs (.beamEntryEffect id) s fun t =>
      (t.beam id.val).state = 3 ∧ (t.beam id.val).load = none ∧
      (∀ k, k ≠ id.val → t.beam k = s.beam k) ∧ Only [.beams] [Rg.BW_STAT_STAGE_H0.off, Rg.BW_STAT_STAGE_H1.off] s t)) ∧
  (∀ (b : BulkSt) (s : State), s.bulk = [b] → b.left = [] → Runs .beamBulkResume s fun t =>
    t.bulk = [] ∧ t.beams = s.beams ∧ Only (.beams :: cplParts) cplRegs s t) ∧
  (∀ (h : Half) (r id : Nat) (s : State), s.on Rg.BW_CFG_SCRUB_EN = true → s.isStaging h.val r = false →
      s.entryOf h.val r = some id → (s.beam id).state = 1 → (s.beam id).rowOn h.val = some r →
      (s.row h.val r).testing = false →
    Runs (.beamScrub h [r] []) s fun t =>
      (t.beam id).state = 2 ∧ (∃ w, (t.beam id).was.head? = some w ∧ w.state = 1 ∧
        w.until_ = s.tickOf (s.firstSym (s.time.count + 1))) ∧ (t.row h.val r).testing = true ∧ (t.row h.val r).w = (s.row h.val r).w ∧
      (∀ k, k ≠ id → t.beam k = s.beam k) ∧
      Only (.beams :: .engines :: eventParts) ((Rg.C_BEAM_PARITY h.val).off :: eventRegs) s t) ∧
  (∀ (h : Half) (p : PathNo) (s : State), s.on Rg.BW_CFG_SCRUB_EN = true → (s.dpdOf p.val).ident = false →
    Runs (.beamScrub h [] [p]) s fun t =>
      (t.dpdOf p.val).idle.state = 0 ∧ (t.dpdOf p.val).serving = (s.dpdOf p.val).serving ∧
      Only (.dpd :: .engines :: eventParts) eventRegs s t) ∧
  (∀ (h : Half) (r : Nat) (s : State), (s.row h.val r).testing = true →
    ((s.entryOf h.val r).isSome = true → Runs (.rowTestDone h r true) s fun t =>
      (t.row h.val r).testing = false ∧ t.beams = s.beams ∧ Only [.beams] [] s t) ∧
    (∀ id q l, s.entryOf h.val r = some id → s.sparesOf h.val = q :: l → l ≠ [] → Runs (.rowTestDone h r false) s fun t =>
      (t.row h.val r).retired = true ∧ (t.beam id).rowOn h.val = some q ∧ t.sparesOf h.val = l))

/-- Solver occasions, solves and banks. Without the other half's estimates within their time, or with them still on the
way, the own half's stay and the others fall back to what they were. An update with a new occasion waits to be solved;
one without is not run and is counted. A solve starts in a FREE bank and uses the occasion up. A committed bank becomes
ACTIVE at its effect slot and the ACTIVE one FREE. An ACTIVE bank within MAX_AGE raises nothing. (06_beam_weights R196,
06_beam_weights R200, 06_beam_weights R201, 06_beam_weights R202, 06_beam_weights R204). -/
def Obligations.SolverUpdates : Prop :=
  (∀ (f : FlowNo) (s : State), Runs (.estimateDeadline f false) s fun t =>
    (∀ e ∈ (t.solvSt f.val).est, e.1 / 512 = (s.flow f.val).half → e ∈ (s.solvSt f.val).est) ∧
    (∀ e ∈ (t.solvSt f.val).est, e.1 / 512 ≠ (s.flow f.val).half → e ∈ (s.solvSt f.val).old) ∧ Only [.solver] [] s t) ∧
  (∀ (f : FlowNo) (s : State), (s.solver f.val).isSome = true →
    ((s.solvSt f.val).freshOcc = true → Runs (.solverUpdateDue f) s fun t =>
      (t.solvSt f.val).waiting = true ∧ Only [.solver, .engines] [] s t) ∧
    ((s.solvSt f.val).freshOcc = false → Runs (.solverUpdateDue f) s fun t =>
      t.raw (Rg.C_NO_SOUND (s.flow f.val).half) =
        min (s.raw (Rg.C_NO_SOUND (s.flow f.val).half) + 1) (2 ^ (Rg.C_NO_SOUND (s.flow f.val).half).w - 1) ∧
      Only [.engines] [(Rg.C_NO_SOUND (s.flow f.val).half).off] s t)) ∧
  (∀ (f : FlowNo) (r : SolverRec) (s : State), s.solver f.val = some r → (s.solvSt f.val).waiting = true →
      (s.solvSt f.val).freshOcc = true → (s.solvSt f.val).x.state = 0 →
    Runs (.solveStart f) s fun t =>
      (t.solvSt f.val).x.state = 1 ∧ (t.solvSt f.val).x.rec_ = some r ∧ (t.solvSt f.val).x.k = (s.solvSt f.val).occK ∧
      (t.solvSt f.val).x.occTick = (s.solvSt f.val).occTick ∧
      (t.solvSt f.val).y = (s.solvSt f.val).y ∧ (t.solvSt f.val).waiting = false ∧ (t.solvSt f.val).freshOcc = false ∧
      KeepsBut (.solver :: .engines :: eventParts) s t) ∧
  (∀ (f : FlowNo) (s : State), (s.solvSt f.val).x.state = 2 → s.reached (s.solvSt f.val).x.effectAt = true →
      (s.solvSt f.val).y.state = 3 →
    Runs (.solverBankEffect f) s fun t =>
      (t.solvSt f.val).x.state = 3 ∧ (t.solvSt f.val).x.w = (s.solvSt f.val).x.w ∧ (t.solvSt f.val).y.state = 0 ∧
      (t.solvSt f.val).was = some (s.tickOf (s.solvSt f.val).x.effectAt, (s.solvSt f.val).y) ∧
      Only [.solver] [] s t) ∧
  (∀ (f : FlowNo) (r : SolverRec) (s : State), s.solver f.val = some r → (s.solvSt f.val).x.state = 3 →
    let old := s.olderThan (s.ul (s.flow f.val).carrier).scs r.maxAge (s.solvSt f.val).x.occTick
    (old = false → Runs (.solverStale f) s fun t => t = s) ∧
    (old = true → Runs (.solverStale f) s fun t => Only eventParts eventRegs s t))

/-- The banks of a predistorter. A structure change copies the bank in service, clipped to the new structure, as
PENDING. At its swap boundary a PENDING bank goes into service as TRIAL with the old one as FALLBACK. A TRIAL bank whose
residual on its verification record is within the allowance of its RHO is COMMITTED and the other FREE; else its path
reverts. At the revert instant the TRIAL bank is FREE and the FALLBACK COMMITTED and in service. A parity error of the
bank in service makes stage 4 pass its input from the next interval on, frees the bank and loads the seed of the LO
frequency. A new crest-factor pulse replaces the old one. (07_predistortion R213, 07_predistortion R216,
07_predistortion R219, 07_predistortion R231, 17_reliability R483). -/
def Obligations.PredistortionBanks : Prop :=
  (∀ (p : PathNo) (r : DpdRec) (s : State), (s.dpdOf p.val).struct_ = some r → (s.dpdOf p.val).serving.state = 3 →
      (s.dpdOf p.val).idle.state = 0 →
    Runs (.dpdRestructure p) s fun t =>
      (t.dpdOf p.val).serving = (s.dpdOf p.val).serving ∧ (t.dpdOf p.val).idle.state = 1 ∧
      (t.dpdOf p.val).idle.coef = clip r (s.dpdOf p.val).serving.coef ∧
      (t.dpdOf p.val).swapAt = some (s.nextSwap 0) ∧ Only [.dpd] [] s t) ∧
  (∀ (p : PathNo) (c : Nat) (s : State), (s.dpdOf p.val).idle.state = 1 → (s.dpdOf p.val).swapAt = some c →
      s.reached c = true → (s.dpdOf p.val).seedWait = false → (s.dpdOf p.val).direct = false →
      (s.dpdOf p.val).dropDue = false → (s.dpdOf p.val).soft = none →
      (∀ q ∈ (s.dpdOf p.val).rec_.neigh, q = none) →
    Runs (.dpdSwap p) s fun t =>
      (t.dpdOf p.val).serving.state = 2 ∧ (t.dpdOf p.val).serving.coef = (s.dpdOf p.val).idle.coef ∧
      (t.dpdOf p.val).idle.state = 4 ∧ (t.dpdOf p.val).idle.coef = (s.dpdOf p.val).serving.coef ∧
      (t.dpdOf p.val).swapAt = none ∧ (t.dpdOf p.val).moved = some s.time.now ∧ Only [.dpd] [] s t) ∧
  (∀ (p : PathNo) (align : List Byte) (k : DpdRecord) (s : State), (s.dpdOf p.val).serving.state = 2 →
      (s.dpdOf p.val).revertAt = none → (s.dpdOf p.val).record = some k →
    let rho := residualDb (s.dpdOf p.val).serving.coef (alignOf align) k
    (rho * 10 ≤ (s.dpdOf p.val).serving.rho * 10 + 256 * (s.f Rg.DPD_CFG2_VERIFY : Int) →
      Runs (.dpdVerify p align) s fun t =>
        (t.dpdOf p.val).serving.state = 3 ∧ (t.dpdOf p.val).serving.coef = (s.dpdOf p.val).serving.coef ∧
        (t.dpdOf p.val).idle.state = 0 ∧ (t.dpdOf p.val).reverts = 0 ∧ (t.dpdOf p.val).record = none ∧
        (t.dpdOf p.val).align = alignOf align ∧ Only [.dpd] [] s t) ∧
    ((s.dpdOf p.val).serving.rho * 10 + 256 * (s.f Rg.DPD_CFG2_VERIFY : Int) < rho * 10 →
      Runs (.dpdVerify p align) s fun t =>
        (t.dpdOf p.val).revertAt = some (s.nextBlank 20) ∧ (t.dpdOf p.val).serving.state = 2 ∧
        (t.dpdOf p.val).reverts = (s.dpdOf p.val).reverts + 1)) ∧
  (∀ (p : PathNo) (c : Nat) (s : State), (s.dpdOf p.val).revertAt = some c → s.reached c = true →
      (s.dpdOf p.val).serving.state = 2 → (s.dpdOf p.val).idle.state = 4 →
    Runs (.dpdRevertSwap p) s fun t =>
      (t.dpdOf p.val).serving.state = 3 ∧ (t.dpdOf p.val).serving.coef = (s.dpdOf p.val).idle.coef ∧
      (t.dpdOf p.val).idle.state = 0 ∧ (t.dpdOf p.val).revertAt = none ∧ (t.dpdOf p.val).moved = some s.time.now ∧
      Only [.dpd] [] s t) ∧
  (∀ (p : PathNo) (sym : Nat) (s : State), s.pathIn p.val = true → s.groupRun (p.val / 8) = true →
      (s.muMax false).isSome = true → s.touches 0 sym (s.intervalLen sym) = true →
      (s.buffered p.val sym (s.intervalLen sym)).isSome = true → s.dpdOn p.val = true → (s.dpdOf p.val).ident = false →
    Runs (.symbolRelease p sym false [] true) s fun t =>
      (t.dpdOf p.val).ident = true ∧ (t.dpdOf p.val).serving.state = 0 ∧ (t.dpdOf p.val).idle.state = 1 ∧
      (t.dpdOf p.val).idle.seed = true ∧
      (t.dpdOf p.val).idle.coef = clip (s.dpdOf p.val).rec_ ((s.dpdOf p.val).seedFor (s.loKhz (p.val / 8))) ∧
      (∃ dac, (t.tx p.val).next = some ⟨sym, true, dac⟩) ∧ KeepsBut [.downlink, .transmit, .dpd] s t) ∧
  (∀ (p : PathNo) (x : List Cplx) (s : State), (s.dpdOf p.val).newPulse = some x → Runs (.cfrPulseSwap p) s fun t =>
    (t.dpdOf p.val).pulse = x ∧ (t.dpdOf p.val).newPulse = none ∧ Only [.dpd] [] s t)

/-- Estimates, captures and receivers of the predistortion service. An estimate that falls due on a path that estimates
is due. A capture that is not wanted, or a second attempt in one slot, changes nothing. One whose stream would overlap
that of the half's last capture waits and is counted. One that is not eligible is counted and discarded, one that is
frozen is counted and dropped; one of a TRIAL bank is kept for verification; one for the estimate that is due starts it.
A receiver that is retired serves no more, and its captures in progress are discarded. (07_predistortion R222,
07_predistortion R223, 07_predistortion R225, 07_predistortion R227, 07_predistortion R228, 12_capture R350). -/
def Obligations.PredistortionEstimates : Prop :=
  (∀ (p : PathNo) (s : State), s.estOn p.val = true → s.pathIn p.val = true →
      s.groupRun (p.val / 8) = true → (s.dpdOf p.val).estDue = false →
    Runs (.dpdEstimateDue p) s fun t =>
      (t.dpdOf p.val).estDue = true ∧
      Only (.dpd :: .engines :: eventParts)
        ((Rg.C_DPD_LATE (p.val / 32)).off :: (Rg.C_SVC_WAIT (p.val / 32)).off :: eventRegs) s t) ∧
  (∀ (p : PathNo) (first : Nat) (obs : List Cplx) (s : State),
    let h := p.val / 32
    let slot : Stamp := { stampOf s.swapMu first with symbol := 0, tick := 0 }
    (s.capWanted p.val = false ∨ s.exclArmed h = true ∨ (s.dpdOf p.val).tried = some slot →
      Runs (.dpdCaptureComplete p first obs) s fun t => t = s) ∧
    (s.capWanted p.val = true → s.exclArmed h = false → (s.dpdOf p.val).tried ≠ some slot → s.svcBusy h first = true →
      Runs (.dpdCaptureComplete p first obs) s fun t =>
        t.raw (Rg.C_SVC_WAIT h) = min (s.raw (Rg.C_SVC_WAIT h) + 1) (2 ^ (Rg.C_SVC_WAIT h).w - 1) ∧
        Only [] [(Rg.C_SVC_WAIT h).off] s t) ∧
    (s.capWanted p.val = true → s.exclArmed h = false → (s.dpdOf p.val).tried ≠ some slot → s.svcBusy h first = false →
      (s.capEligible p.val first = false → Runs (.dpdCaptureComplete p first obs) s fun t =>
        t.raw (Rg.C_DPD_DISCARD h) = min (s.raw (Rg.C_DPD_DISCARD h) + 1) (2 ^ (Rg.C_DPD_DISCARD h).w - 1) ∧
        (t.dpdOf p.val).tried = some slot ∧ (t.dpdOf p.val).record = (s.dpdOf p.val).record ∧
        Only [.dpd] [(Rg.C_SVC_CAPTURES h).off, (Rg.C_DPD_DISCARD h).off] s t) ∧
      (∀ x y, s.capEligible p.val first = true → (s.tx p.val).span first 2048 = some (x, y) →
        (s.capFrozen p.val first obs = true → Runs (.dpdCaptureComplete p first obs) s fun t =>
          t.raw (Rg.C_DPD_FROZEN h) = min (s.raw (Rg.C_DPD_FROZEN h) + 1) (2 ^ (Rg.C_DPD_FROZEN h).w - 1) ∧
          (t.dpdOf p.val).tried = some slot ∧ (t.dpdOf p.val).estDue = (s.dpdOf p.val).estDue ∧
          Only [.dpd] [(Rg.C_SVC_CAPTURES h).off, (Rg.C_DPD_FROZEN h).off] s t) ∧
        (s.capFrozen p.val first obs = false → (s.dpdOf p.val).serving.state = 2 →
          Runs (.dpdCaptureComplete p first obs) s fun t =>
            (∃ k, (t.dpdOf p.val).record = some k ∧ k.x = x ∧ k.y = y ∧ k.obs = obs) ∧
            (t.dpdOf p.val).serving = (s.dpdOf p.val).serving ∧
            Only [.dpd, .captures] [(Rg.C_SVC_CAPTURES h).off] s t) ∧
        (s.capFrozen p.val first obs = false → (s.dpdOf p.val).serving.state = 3 → (s.dpdOf p.val).refresh = false →
          Runs (.dpdCaptureComplete p first obs) s fun t =>
            (t.dpdOf p.val).estDue = false ∧ (t.dpdOf p.val).estimating = true ∧
            (∃ k, (t.dpdOf p.val).record = some k ∧ k.x = x ∧ k.y = y ∧ k.obs = obs) ∧
            Only [.dpd, .captures] [(Rg.C_SVC_CAPTURES h).off, (Rg.C_DPD_EST h).off] s t)))) ∧
  (∀ (n : UnitNo) (k : Nat) (s : State), s.orxWorks n.val = true → Runs (.orxRelay n k) s fun t =>
    t.orxWorks n.val = false ∧
    t.raw (Rg.C_DPD_DISCARD (n.val / 5)) =
      min (s.raw (Rg.C_DPD_DISCARD (n.val / 5)) + k) (2 ^ (Rg.C_DPD_DISCARD (n.val / 5)).w - 1))

/-- Correction values, heats and background cycles. A pending correction whose boundary has come takes effect at its
stage and stops being pending. A heat of a group that needs one starts with the kind required. A step that ends leads to
the next. A heat after its last step is complete: nothing is required any more of its kind, pending corrections are in
effect. A gap under an EXCL capture waits; one with a valid measurement at the plane in force keeps its residuals and
its time, and where it is judged good the path is neither due nor suspect; one with a measurement that is not usable
discards it and leaves it due. A cycle makes every path in service due for both measurements. Paths without a recent
valid measurement are reported. (08_calibration R249, 08_calibration R250, 08_calibration R253, 08_calibration R254,
08_calibration R255, 08_calibration R256, 08_calibration R260). -/
def Obligations.CalibrationValues : Prop :=
  (∀ (p : PathNo) (z : Cplx) (c : Nat) (s : State), (s.calOf p.val).pend = [⟨.txGain z, some c⟩] → s.reached c = true →
    Runs (.calValueEffect p) s fun t =>
      (t.tx p.val).gain = z ∧ (t.calOf p.val).pend = [] ∧ (t.tx p.val).buf = (s.tx p.val).buf ∧
      Only [.calib, .transmit] [] s t) ∧
  (∀ (g : GroupNo) (s : State), s.groupIn g.val = true → s.groupRun g.val = true → (s.group g.val).need ≠ 0 →
      (s.group g.val).heat = 0 → (s.group g.val).script = false → s.loLockedG g.val = true →
      (s.group g.val).held = false →
    Runs (.heatStart g) s fun t =>
      (t.group g.val).heat = (s.group g.val).need ∧ (t.group g.val).need = 0 ∧
      (t.group g.val).step = (if (s.group g.val).need = 2 then 1 else 6) ∧ t.bitF Rg.CAL_STAT_FG_GROUPS g.val = true ∧
      ∀ p ∈ groupPaths g.val, (t.tx p).state = 0) ∧
  (∀ (g : GroupNo) (n : Nat) (s : State), (s.group g.val).heat ≠ 0 → (s.group g.val).step = n → n ≤ 8 →
    Runs (.heatStepDone g n [] [] none) s fun t => (t.group g.val).step = n + 1 ∧ (t.group g.val).heat = (s.group g.val).heat) ∧
  (∀ (g : GroupNo) (temp : Int) (s : State), (s.group g.val).heat ≠ 0 → (s.group g.val).step = 9 →
    Runs (.heatComplete g temp) s fun t =>
      (t.group g.val).heat = 0 ∧ (t.group g.val).step = 0 ∧ t.bitF Rg.CAL_STAT_FG_GROUPS g.val = false ∧
      ∀ p ∈ groupPaths g.val, (t.calOf p).pend = []) ∧
  (∀ (h : Half) (w : GapWork) (s : State), s.on Rg.CAL_CFG_BG_EN = true → s.schedule.isSome = true →
    (s.exclArmed h.val = true → Runs (.backgroundGap h w) s fun t =>
      t.raw (Rg.C_SVC_WAIT h.val) = min (s.raw (Rg.C_SVC_WAIT h.val) + 1) (2 ^ (Rg.C_SVC_WAIT h.val).w - 1) ∧
      Only [] [(Rg.C_SVC_WAIT h.val).off] s t) ∧
    (∀ m, s.exclArmed h.val = false → w.meas = [m] → w.tie = none → m.path.val / 32 = h.val → m.rx = false →
        s.pathIn m.path.val = true →
      let u := ((s.sendCombs [m]).gapLines h.val [m]).bump (Rg.C_SVC_CAPTURES h.val) 1
      (∀ f ∈ u.fitSet [m], measValid m = true → u.usable m = true → u.atPlane m = true →
          (s.calOf m.path.val).suspect = false → s.isSafe 8 m.path.val = false →
        Runs (.backgroundGap h w) s fun t =>
          (t.calOf m.path.val).resTx = [f.res.gain, f.res.phase, f.res.delay] ∧
          (t.calOf m.path.val).lastTx = some s.time.now ∧
          (u.judge (u.fitSet [m]) f = 0 → (t.calOf m.path.val).dueTx = false ∧ (t.calOf m.path.val).suspect = false)) ∧
      (u.usable m = false → Runs (.backgroundGap h w) s fun t =>
        t.raw (Rg.C_MEAS_DISCARD h.val) =
          min (u.raw (Rg.C_MEAS_DISCARD h.val) + 1) (2 ^ (Rg.C_MEAS_DISCARD h.val).w - 1) ∧
        (t.calOf m.path.val).dueTx = true ∧ (t.calOf m.path.val).resTx = (s.calOf m.path.val).resTx))) ∧
  (∀ (h : Half) (s : State), s.on Rg.CAL_CFG_BG_EN = true → Runs (.backgroundCycle h) s fun t =>
    (∀ p ∈ halfPaths h.val, s.pathIn p = true → s.groupRun (p / 8) = true →
      (t.calOf p).dueTx = true ∧ (t.calOf p).dueRx = true) ∧ Only (.calib :: .engines :: eventParts) ((Rg.C_BG_LATE h.val).off :: eventRegs) s t) ∧
  (∀ (h : Half) (s : State),
    ((∀ i < 32, s.pathIn (32 * h.val + i) = true → s.stale (32 * h.val + i) = false) →
      Runs (.calStaleCheck h) s fun t => t = s) ∧
    Runs (.calStaleCheck h) s fun t => Only eventParts eventRegs s t)

/-- States of the reference PLL. A rate count near a rate is taken and REFCLK is present; a count far from every rate
leaves REFCLK absent. The PLL locks from ACQUIRE with REFCLK present; that of H1 locks to the clock that runs over the
link, or to its own REFCLK where the link has failed. A loss counts, drops the jump, a pending step and a correction,
and leaves the synthesisers and the paths as they are. Qualification reports the jump and starts a slew, or waits in
STEP_PENDING for its mute slot. The end of a slew moves the air-time counter by what is left of the correction; a step
is made at the start of the mute slot. Expiry gates the outputs, stops the counter and counts no unlock. REFCLK then
starts ACQUIRE again. (09_synthesis_clocks R262, 09_synthesis_clocks R263, 09_synthesis_clocks R264, 09_synthesis_clocks
R266, 09_synthesis_clocks R268, 09_synthesis_clocks R269, 09_synthesis_clocks R270, 09_synthesis_clocks R271,
09_synthesis_clocks R272). -/
def Obligations.ReferencePll : Prop :=
  (∀ (edges : Nat) (s : State), s.refState = 0 → s.deepDown = false → s.f Rg.REF_CFG_REF_RATE = 0 →
    (∀ c ∈ [1, 2, 3], rateMatches edges c = true → Runs (.refRateDetect 0 edges) s fun t =>
      t.raw Rg.REF_STAT_RATE_DET = c ∧ t.raw Rg.REF_STAT_REF_BAD = 0 ∧ t.ref.present = true ∧
      Only [.clocks] [Rg.REF_STAT_STATE.off] s t) ∧
    ((∀ c ∈ [1, 2, 3], rateMatches edges c = false) → Runs (.refRateDetect 0 edges) s fun t =>
      t.raw Rg.REF_STAT_RATE_DET = 0 ∧ t.raw Rg.REF_STAT_REF_BAD = 1 ∧ t.ref.present = false ∧
      t.raw Rg.REF_STAT_STATE = 0 ∧ Only [.clocks] [Rg.REF_STAT_STATE.off] s t)) ∧
  (∀ s : State, s.refState = 0 → s.ref.present = true → s.deepDown = false → Runs (.refPllLock 0) s fun t =>
    t.raw Rg.REF_STAT_STATE = 1 ∧ t.raw Rg.REF_STAT_CTL_OSC = 0 ∧
    KeepsBut ([.clocks, .synth, .free] ++ groupParts) s t) ∧
  (∀ s : State, s.ref.h1Locked = false → tget (fun _ => false) s.rel.pllRet 1 = false →
      (if s.on Rg.REF_STAT_LINK_FAIL then s.ref.presentH1 else s.refRuns) = true → Runs (.refPllLock 1) s fun t =>
    t.ref.h1Locked = true ∧ Only [.clocks] [] s t) ∧
  (∀ s : State, s.refState = 1 ∨ s.refState = 3 ∨ s.refState = 4 → Runs .refclkLost s fun t =>
    t.raw Rg.REF_STAT_STATE = 2 ∧ t.ref.jump = 0 ∧ t.ref.muteAt = none ∧ t.ref.lostAt = s.time.now ∧
    t.time.corr = none ∧ t.raw Rg.AT_STAT_SLEWING = 0 ∧
    t.raw (Rg.C_REF_LOSS 0) = min (s.raw (Rg.C_REF_LOSS 0) + 1) (2 ^ (Rg.C_REF_LOSS 0).w - 1) ∧
    Only ([.clocks, .time] ++ eventParts)
      ([Rg.REF_STAT_STATE.off, Rg.AT_STAT_SLEWING.off, (Rg.C_REF_LOSS 0).off, (Rg.C_REF_LOSS 1).off] ++ eventRegs) s t) ∧
  (∀ (j : Int) (s : State), s.refState = 2 → j.natAbs ≤ 100 * s.f Rg.REF_CFG_JUMP_THR →
    Runs (.refclkQualified j) s fun t =>
      t.raw Rg.REF_STAT_STATE = 3 ∧ t.raw Rg.REF_STAT_LAST_JUMP = (j % 65536).toNat ∧ t.time.corr = some ⟨j, false, 0, s.time.now, 0⟩ ∧
      t.raw Rg.AT_STAT_SLEWING = 1 ∧ t.time.count = s.time.count ∧
      t.raw (Rg.C_REF_SLEWS 0) = min (s.raw (Rg.C_REF_SLEWS 0) + 1) (2 ^ (Rg.C_REF_SLEWS 0).w - 1)) ∧
  (∀ (j : Int) (mu : Nat) (s : State), s.refState = 2 → 100 * s.f Rg.REF_CFG_JUMP_THR < j.natAbs →
      s.on Rg.REF_CFG_JUMP_POL = true → s.muMin = some mu →
    Runs (.refclkQualified j) s fun t =>
      t.raw Rg.REF_STAT_STATE = 4 ∧ t.ref.jump = j ∧ t.time.corr = some ⟨j, true, 0, s.time.now, 0⟩ ∧
      t.ref.muteAt = some (nextSlot mu (s.time.count + usTicks 50)) ∧ t.time.count = s.time.count ∧
      Only [.clocks, .time] [Rg.REF_STAT_STATE.off, Rg.AT_STAT_UNC.off, (Rg.C_TX_HOLDS 0).off] s t) ∧
  (∀ (k : Corr) (s : State), s.time.corr = some k → k.step = false → Runs .slewComplete s fun t =>
    t.time.corr = none ∧ t.raw Rg.AT_STAT_SLEWING = 0 ∧ (s.refState = 3 → t.raw Rg.REF_STAT_STATE = 1) ∧
    t.time.count =
      (((s.time.count : Int) + (s.time.subPs + (k.ps - k.done)) * 192 / 390625) % (Config.ticksPerCycle : Int)).toNat ∧
    Only [.time] [Rg.REF_STAT_STATE.off, Rg.AT_STAT_UNC.off, (Rg.C_TX_HOLDS 0).off] s t) ∧
  (∀ (c : Nat) (k : Corr) (s : State), s.ref.muteAt = some c → s.time.corr = some k → k.step = true →
      s.reached c = true → s.muMin.getD 0 ≤ 3 →
    Runs .timeStepMute s fun t =>
      t.time.corr = none ∧ t.ref.muteAt = none ∧
      t.ref.muteFrom = some (s.time.count, Config.ticksPerSubframe / 2 ^ s.muMin.getD 0) ∧
      (s.refState = 4 → t.raw Rg.REF_STAT_STATE = 1) ∧
      t.raw (Rg.C_REF_STEPS 0) = min (s.raw (Rg.C_REF_STEPS 0) + 1) (2 ^ (Rg.C_REF_STEPS 0).w - 1) ∧
      KeepsBut ([.clocks, .synth, .time] ++ groupParts) s t) ∧
  (∀ s : State, s.refState = 2 → Runs .coastExpiry s fun t =>
    t.raw Rg.REF_STAT_STATE = 5 ∧ t.raw Rg.REF_STAT_CTL_OSC = 1 ∧ t.time.running = false ∧ t.ref.present = false ∧
    t.raw (Rg.C_REF_EXPIRE 0) = min (s.raw (Rg.C_REF_EXPIRE 0) + 1) (2 ^ (Rg.C_REF_EXPIRE 0).w - 1) ∧
    (∀ h < 2, t.raw (Rg.C_LO_UNLOCKS h) = s.raw (Rg.C_LO_UNLOCKS h)) ∧ t.lox = s.lox ∧
    KeepsBut ([.clocks, .time] ++ groupParts) s t) ∧
  (∀ s : State, s.refState = 5 → tget (fun _ => false) s.rel.pllRet 0 = false → Runs .refclkReturn s fun t =>
    t.raw Rg.REF_STAT_STATE = 0 ∧ Only [] [Rg.REF_STAT_STATE.off] s t)

/-- Hops, locks and unlocks of synthesisers; clock failures. A pending hop whose time has come takes effect with the
reference in LOCKED or SLEW and is deferred and counted otherwise. A lock is reported, and after a search its results
are stored. A timeout leads to one search, then to a faulty unit. An unlock is counted and re-locks; the third within 1
s is a fault. A monitor flag is counted; the crystal's failure moves AON to its oscillator; a failed reference link
clears TIE_OK. (09_synthesis_clocks R264, 09_synthesis_clocks R273, 09_synthesis_clocks R276, 09_synthesis_clocks R277,
09_synthesis_clocks R278, 09_synthesis_clocks R279, 09_synthesis_clocks R289, 09_synthesis_clocks R290). -/
def Obligations.SynthesiserLocks : Prop :=
  (∀ (mask e at_ : Nat) (g : GroupNo) (s : State), s.groupIn g.val = true → bitOf (BitVec.ofNat 32 mask) g.val = true →
      (s.group g.val).hop = some (e, at_) → s.reached at_ = true →
    (s.refState = 1 ∨ s.refState = 3 → Runs (.loHopEffect mask) s fun t =>
      (t.group g.val).entry = some e ∧ (t.group g.val).hop = none ∧ (t.group g.val).deferred = false ∧
      KeepsBut ([.synth, .dpd, .calib, .receive] ++ groupParts) s t) ∧
    (s.refState = 2 ∨ s.refState = 4 ∨ s.refState = 5 → Runs (.loHopEffect mask) s fun t =>
      (t.group g.val).deferred = true ∧ (t.group g.val).entry = (s.group g.val).entry ∧
      (t.group g.val).hop = (s.group g.val).hop ∧ Only [.groups] [(Rg.C_HOP_DEFERRED 0).off] s t)) ∧
  (∀ (n : UnitNo) (band mid kdco : Nat) (temp : Int) (s : State),
      s.raw (Rg.LO_STAT_STATE n.val) = 1 ∨ s.raw (Rg.LO_STAT_STATE n.val) = 2 →
    Runs (.loLocked n band mid kdco temp) s fun t =>
      t.raw (Rg.LO_STAT_STATE n.val) = 3 ∧ (t.lo n.val).tries = 0 ∧ (t.lo n.val).lfsr = s.seed n.val ∧
      ((s.lo n.val).search = true →
        let x := tget (fun _ => HopEnt.reset) t.hops (n.val * 64 + s.raw (Rg.LO_STAT_ENTRY n.val))
        x.stored = true ∧ x.band = band ∧ x.mid = mid ∧ x.kdco = kdco ∧ x.temp = temp) ∧
      ((s.lo n.val).search = false → t.hops = s.hops) ∧ Only ([.synth] ++ groupParts) groupRegs s t) ∧
  (∀ (n : UnitNo) (s : State), s.raw (Rg.LO_STAT_STATE n.val) = 1 ∨ s.raw (Rg.LO_STAT_STATE n.val) = 2 →
    ((s.lo n.val).tries < 2 → Runs (.loLockTimeout n) s fun t =>
      t.raw (Rg.LO_STAT_STATE n.val) = 1 ∧ (t.lo n.val).search = true ∧ (t.lo n.val).tries = (s.lo n.val).tries + 1 ∧
      t.hops = s.hops) ∧
    (2 ≤ (s.lo n.val).tries → Runs (.loLockTimeout n) s fun t =>
      t.raw (Rg.LO_STAT_STATE n.val) = 5 ∧ t.hops = s.hops)) ∧
  (∀ (n : UnitNo) (soft : Bool) (s : State), s.raw (Rg.LO_STAT_STATE n.val) = 3 → s.on (Rg.LO_STAT_SERVING n.val) = true →
      ((s.lo n.val).gates.filter fun k => decide (s.time.now < k + Config.ticksPerSecond)).length < 2 →
    Runs (.loUnlock n soft) s fun t =>
      (t.raw (Rg.LO_STAT_STATE n.val) = 1 ∨ t.raw (Rg.LO_STAT_STATE n.val) = 2) ∧
      t.raw (Rg.LO_STAT_ENTRY n.val) = s.raw (Rg.LO_STAT_ENTRY n.val) ∧
      (∀ p ∈ groupPaths (s.raw (Rg.LO_STAT_GROUP n.val)), (t.tx p).state = 0) ∧
      t.raw (Rg.C_LO_UNLOCKS (n.val / 5)) =
        min (s.raw (Rg.C_LO_UNLOCKS (n.val / 5)) + 1) (2 ^ (Rg.C_LO_UNLOCKS (n.val / 5)).w - 1) ∧
      KeepsBut ([.synth] ++ groupParts) s t) ∧
  (∀ (h : Half) (d : ClkDom) (s : State), Runs (.clockMonitorFail h d) s fun t =>
    t.raw (Rg.C_CLK_MON h.val) = min (s.raw (Rg.C_CLK_MON h.val) + 1) (2 ^ (Rg.C_CLK_MON h.val).w - 1) ∧
    (d = .aon → t.raw Rg.REF_STAT_AON_RC = 1) ∧ t.pending = s.pending) ∧
  (∀ s : State, Runs .aonXtalFail s fun t => t.raw Rg.REF_STAT_AON_RC = 1 ∧
    Only eventParts (Rg.REF_STAT_AON_RC.off :: eventRegs) s t) ∧
  (∀ s : State, Runs .referenceLinkFail s fun t => t.raw Rg.REF_STAT_LINK_FAIL = 1 ∧ t.raw Rg.CAL_STAT_TIE_OK = 0 ∧
    t.ref.h1Locked = false ∧ Only [.clocks] [Rg.REF_STAT_LINK_FAIL.off, Rg.CAL_STAT_TIE_OK.off] s t)

/-- Front-end states around the intervals of the schedule. At the EFFECT of the pending schedule it is in force, and no
path is left in TX or RX. Before a transmit interval a ready path in IDLE goes to TX with its bias-select; an assertion
within DEAD ticks of the last deassertion is counted and delayed by them. After the interval it goes to IDLE, its bias-
select following BIAS_LAG ticks later, or to HEAT_TX. Before a receive interval it goes to RX, and after it to IDLE; an
interval that the schedule still has is trimmed and counted once. The BYP line follows a bypass change. (10_front_end
R293, 10_front_end R295, 10_front_end R297, 10_front_end R299, 10_front_end R300, 10_front_end R301). -/
def Obligations.FrontEndLines : Prop :=
  (∀ (x : Sched) (s : State), s.schedPend = some x → s.reached x.at_ = true → Runs .scheduleEffect s fun t =>
    t.sched = some x ∧ t.schedPend = none ∧ t.raw Rg.FE_STAT_SCHED_OK = 1 ∧
    (∀ p < 64, (t.fep p).state ≠ 1 ∧ (t.fep p).state ≠ 2) ∧
    (∀ p, (s.fep p).state ≠ 1 → (s.fep p).state ≠ 2 → (t.fep p).state = (s.fep p).state ∧ t.tx p = s.tx p) ∧
    Only [.frontEnd, .transmit, .faults, .log] [Rg.FE_STAT_SCHED_OK.off, Rg.AT_NOW1_MU.off] s t) ∧
  (∀ (p : PathNo) (s : State), (s.fep p.val).state = 0 → s.feRuns p.val = true →
      s.codeIn (s.f Rg.FE_TIME0_TX_LEAD) = some 0 → s.bitF Rg.FE_STAT_BLANKED (p.val / 8) = false →
      s.groupReady (p.val / 8) = true → s.time.txHeld = false →
    ((s.fep p.val).lastOff + s.f Rg.FE_TIME2_DEAD ≤ s.time.now → Runs (.feTxLead p) s fun t =>
      (t.fep p.val).state = 1 ∧ (t.fep p.val).biasTx = true ∧ Only [.frontEnd, .bias, .dpd, .log] [] s t) ∧
    (s.time.now < (s.fep p.val).lastOff + s.f Rg.FE_TIME2_DEAD → Runs (.feTxLead p) s fun t =>
      (t.fep p.val).state = 0 ∧ ⟨p.val, 1, (s.fep p.val).lastOff + s.f Rg.FE_TIME2_DEAD⟩ ∈ t.feLater ∧
      t.raw (Rg.C_LINE_HOLD (p.val / 32)) =
        min (s.raw (Rg.C_LINE_HOLD (p.val / 32)) + 1) (2 ^ (Rg.C_LINE_HOLD (p.val / 32)).w - 1) ∧
      Only [.frontEnd, .bias, .dpd] [(Rg.C_LINE_HOLD (p.val / 32)).off] s t)) ∧
  (∀ (p : PathNo) (s : State), (s.fep p.val).state = 1 →
    Runs (.feTxLag p false) s (fun t => (t.fep p.val).state = 0 ∧ (t.fep p.val).lastOff = s.time.now ∧
      (if s.f Rg.FE_TIME3_BIAS_LAG = 0 then (t.fep p.val).biasTx = false
        else ⟨p.val, 9, s.time.now + s.f Rg.FE_TIME3_BIAS_LAG⟩ ∈ t.feLater) ∧
      Only [.frontEnd, .bias, .groups, .log] [Rg.FE_STAT_BLANKED.off] s t) ∧
    Runs (.feTxLag p true) s fun t => (t.fep p.val).state = 3 ∧
      Only [.frontEnd, .bias, .groups, .log] [Rg.FE_STAT_BLANKED.off] s t) ∧
  (∀ (p : PathNo) (heat : Bool) (s : State), s.inTx s.time.count = false → (s.fep p.val).state = 5 →
    Runs (.feTxLag p heat) s fun t =>
      (t.fep p.val).state = 0 ∧ t.bitF Rg.FE_STAT_BLANKED (p.val / 8) = false ∧
      (t.group (p.val / 8)).blankAt = none) ∧
  (∀ (p : PathNo) (s : State), (s.fep p.val).state = 0 → s.feRuns p.val = true →
      s.codeIn (s.f Rg.FE_TIME1_RX_LEAD) = some 1 →
    ((s.fep p.val).lastOff + s.f Rg.FE_TIME2_DEAD ≤ s.time.now → Runs (.feRxLead p) s fun t =>
      (t.fep p.val).state = 2 ∧ Only [.frontEnd, .bias, .log] [] s t) ∧
    (s.time.now < (s.fep p.val).lastOff + s.f Rg.FE_TIME2_DEAD → Runs (.feRxLead p) s fun t =>
      (t.fep p.val).state = 0 ∧ ⟨p.val, 2, (s.fep p.val).lastOff + s.f Rg.FE_TIME2_DEAD⟩ ∈ t.feLater ∧
      Only [.frontEnd, .bias] [(Rg.C_LINE_HOLD (p.val / 32)).off] s t)) ∧
  (∀ (p : PathNo) (s : State), (s.fep p.val).state = 2 → Runs (.feRxLag p) s fun t =>
    (t.fep p.val).state = 0 ∧
    t.raw (Rg.C_RX_TRIM (p.val / 32)) =
      (if s.codeIn 0 = some 1 ∧ s.firstPath (p.val / 32) = some p.val then
        min (s.raw (Rg.C_RX_TRIM (p.val / 32)) + 1) (2 ^ (Rg.C_RX_TRIM (p.val / 32)).w - 1)
      else s.raw (Rg.C_RX_TRIM (p.val / 32))) ∧
    Only [.frontEnd, .log] [(Rg.C_RX_TRIM (p.val / 32)).off] s t) ∧
  (∀ (p : PathNo) (b : Bool) (k : Nat) (s : State), (s.rx p.val).pendBypass = some (b, k) →
    Runs (.feBypEdge p) s fun t => (t.fep p.val).bypSet = b ∧ (t.fep p.val).state = (s.fep p.val).state ∧
      Only [.frontEnd, .log] [] s t)

/-- Readiness decisions, RFFE scripts and aerial measurements. At the decision instant the window of a group that is
ready proceeds and its start is noted; the window of one that is not is blanked and counted. A script entry puts its
sequence on the bus; a late start is counted; a read-back that differs under VERIFY is counted. A script that is not
complete in time is ended and counted. A measurement that falls due waits under an EXCL capture or while the path is not
LIVE; else it is taken and its return loss kept, or skipped and counted below the power bound. (10_front_end R302,
10_front_end R304, 10_front_end R306, 10_front_end R308, 10_front_end R309). -/
def Obligations.ReadinessAndBuses : Prop :=
  (∀ (g : GroupNo) (start : Nat) (s : State), s.groupIn g.val = true → s.groupRun g.val = true → s.inTx start = true →
      (s.group g.val).retune = false →
    (s.groupReady g.val = true → s.time.txHeld = false → Runs (.readinessDecision g start) s fun t =>
      (t.group g.val).blankAt = some start ∧ Only [.groups] [] s t) ∧
    (s.groupReady g.val = false ∨ s.time.txHeld = true → s.bitF Rg.FE_STAT_BLANKED g.val = false →
      Runs (.readinessDecision g start) s fun t =>
        (t.group g.val).blankAt = some start ∧ t.bitF Rg.FE_STAT_BLANKED g.val = true ∧
        t.raw (Rg.C_FALSE_START (g.val / 4)) =
          min (s.raw (Rg.C_FALSE_START (g.val / 4)) + 1) (2 ^ (Rg.C_FALSE_START (g.val / 4)).w - 1) ∧
        (∀ p ∈ groupPaths g.val, s.pathIn p = true → (s.fep p).state = 0 → (t.fep p).state = 5) ∧
        Only ([.groups, .frontEnd] ++ eventParts)
          ([Rg.FE_STAT_BLANKED.off, (Rg.C_FALSE_START (g.val / 4)).off] ++ eventRegs) s t)) ∧
  (∀ (bus : GroupNo) (entry : Fin 128) (late : Bool) (back : Nat) (e : ScriptEnt) (s : State),
      s.script bus.val entry.val = some e → s.groupIn bus.val = true → s.isSafe 9 (bus.val * 128 + entry.val) = false →
      2 ≤ e.anchor → e.anchor ≤ 3 → e.path = false → e.cmd < 3 → (e.verify = true → back = e.data) →
    Runs (.rffeScriptLaunch bus entry late back) s fun t =>
      t.sent = .rffe bus.val e.usid (seqOf e.cmd) e.addr [e.data] :: s.sent ∧
      t.raw (Rg.C_RFFE_LATE (bus.val / 4)) = (if late = true then
        min (s.raw (Rg.C_RFFE_LATE (bus.val / 4)) + 1) (2 ^ (Rg.C_RFFE_LATE (bus.val / 4)).w - 1)
        else s.raw (Rg.C_RFFE_LATE (bus.val / 4))) ∧
      Only [.log] [(Rg.C_RFFE_LATE (bus.val / 4)).off] s t) ∧
  (∀ (bus : GroupNo) (entry : Fin 128) (late : Bool) (back : Nat) (e : ScriptEnt) (s : State),
      s.script bus.val entry.val = some e → s.groupIn bus.val = true → s.isSafe 9 (bus.val * 128 + entry.val) = false →
      2 ≤ e.anchor → e.anchor ≤ 3 → e.cmd < 3 → e.verify = true → back ≠ e.data →
    Runs (.rffeScriptLaunch bus entry late back) s fun t => t.raw (Rg.C_RFFE_VERIFY (bus.val / 4)) =
      min (s.raw (Rg.C_RFFE_VERIFY (bus.val / 4)) + 1) (2 ^ (Rg.C_RFFE_VERIFY (bus.val / 4)).w - 1)) ∧
  (∀ (g : GroupNo) (s : State), (s.group g.val).script = true → Runs (.scriptTimeout g) s fun t =>
    (t.group g.val).script = false ∧ t.raw (Rg.C_RFFE_TMO (g.val / 4)) =
      min (s.raw (Rg.C_RFFE_TMO (g.val / 4)) + 1) (2 ^ (Rg.C_RFFE_TMO (g.val / 4)).w - 1) ∧
    Only (.free :: groupParts) ((Rg.C_RFFE_TMO (g.val / 4)).off :: groupRegs) s t) ∧
  (∀ (p : PathNo) (refl fwd : List Cplx) (s : State), s.on Rg.FE_CFG_MM_EN = true → s.pathIn p.val = true →
    (s.exclArmed (p.val / 32) = true → Runs (.mismatchMeasureDue p refl fwd) s fun t =>
      (t.fep p.val).mmDue = true ∧ (t.fep p.val).rlMeas = (s.fep p.val).rlMeas ∧
      Only [.frontEnd, .engines] [(Rg.C_SVC_WAIT (p.val / 32)).off] s t) ∧
    (s.exclArmed (p.val / 32) = false → (s.tx p.val).state ≠ 3 → Runs (.mismatchMeasureDue p refl fwd) s fun t =>
      (t.fep p.val).mmDue = true ∧ (t.fep p.val).rlMeas = (s.fep p.val).rlMeas ∧ Only [.frontEnd, .engines] [] s t) ∧
    (s.exclArmed (p.val / 32) = false → (s.tx p.val).state = 3 →
      let low := observedDb (s.dpdOf p.val).align fwd < s.pcfg - 256 * (s.f Rg.DPD_CFG_FREEZE_DB : Int)
      (¬low → Runs (.mismatchMeasureDue p refl fwd) s fun t =>
        (t.fep p.val).mmDue = true ∧ (t.fep p.val).rlMeas = some (s.lossOf refl fwd) ∧ t.raw (Rg.C_MM_SCANS (p.val / 32)) =
          min (s.raw (Rg.C_MM_SCANS (p.val / 32)) + 1) (2 ^ (Rg.C_MM_SCANS (p.val / 32)).w - 1) ∧
        Only ([.frontEnd, .engines] ++ eventParts) ((Rg.C_MM_SCANS (p.val / 32)).off :: eventRegs) s t) ∧
      (low → Runs (.mismatchMeasureDue p refl fwd) s fun t =>
        (t.fep p.val).mmDue = true ∧ (t.fep p.val).rlMeas = (s.fep p.val).rlMeas ∧ t.raw (Rg.C_MM_SKIP (p.val / 32)) =
          min (s.raw (Rg.C_MM_SKIP (p.val / 32)) + 1) (2 ^ (Rg.C_MM_SKIP (p.val / 32)).w - 1) ∧
        Only [.frontEnd, .engines] [(Rg.C_MM_SKIP (p.val / 32)).off] s t)))

/-- Opcodes that write an accumulator. Each opcode that writes an accumulator leaves there the result of its row, exact
before the overflow handling: with S it is clipped to 40 bits and SAT sets on a clip, without S it wraps and GOV sets.
The task goes on with the next bundle; nothing else changes. (11_adaptation_engines R319, 11_adaptation_engines R323,
11_adaptation_engines R325). -/
def Obligations.EngineAccumulators : Prop :=
  BundleDoes .cmac (AccTakes fun t b => addX (t.acd b) (shrC (cmulX (t.ca b) (t.cb b)) b.sh.val)) ∧
  BundleDoes .cmacc (AccTakes fun t b => addX (t.acd b) (shrC (cmulcX (t.ca b) (t.cb b)) b.sh.val)) ∧
  BundleDoes .cmsb (AccTakes fun t b => subX (t.acd b) (shrC (cmulX (t.ca b) (t.cb b)) b.sh.val)) ∧
  BundleDoes .cmul (AccTakes fun t b => shrC (cmulX (t.ca b) (t.cb b)) b.sh.val) ∧
  BundleDoes .cmulc (AccTakes fun t b => shrC (cmulcX (t.ca b) (t.cb b)) b.sh.val) ∧
  BundleDoes .cpow (AccTakes fun t b =>
    ⟨(t.acd b).re + asr ((t.ca b).re * (t.ca b).re + (t.ca b).im * (t.ca b).im) b.sh.val, (t.acd b).im⟩) ∧
  BundleDoes .dmac (AccTakes fun t b => ⟨(t.acd b).re + asr ((t.ca b).re * (t.cb b).re) b.sh.val,
    (t.acd b).im + asr ((t.ca b).im * (t.cb b).im) b.sh.val⟩) ∧
  BundleDoes .aclr (AccTakes fun _ _ => Cplx.zero) ∧
  BundleDoes .aadd (AccTakes fun t b => addX (t.acd b) (t.aca b)) ∧
  BundleDoes .asub (AccTakes fun t b => subX (t.acd b) (t.aca b)) ∧
  BundleDoes .ashr (AccTakes fun t b => shrC (t.acd b) b.sh.val) ∧
  BundleDoes .ashl (AccTakes fun t b => ⟨(t.acd b).re * 2 ^ b.sh.val, (t.acd b).im * 2 ^ b.sh.val⟩)

/-- Opcodes that write a D, P or K register. Each opcode that writes a D register leaves there the result of its row:
clipped with S, with SAT on a clip, wrapped without, with GOV only where an accumulator is read; the logic and transfer
opcodes cannot overflow. WRP and WRK write a pointer and an offset, NOP nothing. The task goes on with the next bundle;
nothing else changes. (11_adaptation_engines R319, 11_adaptation_engines R323, 11_adaptation_engines R324,
11_adaptation_engines R325, 11_adaptation_engines R326). -/
def Obligations.EngineResults : Prop :=
  BundleDoes .nop (fun t _ u => u = { t with pc := t.pc + 1 }) ∧
  BundleDoes .ext (PairTakes true fun t b => shrC (t.aca b) b.sh.val) ∧
  BundleDoes .extr (WordTakes true fun t b => asr (t.aca b).re b.sh.val) ∧
  BundleDoes .exti (WordTakes true fun t b => asr (t.aca b).im b.sh.val) ∧
  BundleDoes .add (WordTakes false fun t b => t.ia b + t.ib b) ∧
  BundleDoes .sub (WordTakes false fun t b => t.ia b - t.ib b) ∧
  BundleDoes .cadd (PairTakes false fun t b => addX (t.ca b) (t.cb b)) ∧
  BundleDoes .csub (PairTakes false fun t b => subX (t.ca b) (t.cb b)) ∧
  BundleDoes .and (ExactTakes fun t b => t.dr b.ra.val &&& t.dr b.rb.val) ∧
  BundleDoes .or (ExactTakes fun t b => t.dr b.ra.val ||| t.dr b.rb.val) ∧
  BundleDoes .xor (ExactTakes fun t b => t.dr b.ra.val ^^^ t.dr b.rb.val) ∧
  BundleDoes .shr (ExactTakes fun t b => BitVec.ofInt 32 (asr (t.ia b) b.sh.val)) ∧
  BundleDoes .shl (WordTakes false fun t b => t.ia b * 2 ^ b.sh.val) ∧
  BundleDoes .conj (PairTakes false fun t b => ⟨(t.ca b).re, -(t.ca b).im⟩) ∧
  BundleDoes .swap (ExactTakes fun t b => wOfC ⟨(t.ca b).im, (t.ca b).re⟩) ∧
  BundleDoes .mul (WordTakes false fun t b => asr (t.ia b * t.ib b) b.sh.val) ∧
  BundleDoes .cmuld (PairTakes false fun t b => shrC (cmulX (t.ca b) (t.cb b)) b.sh.val) ∧
  BundleDoes .norm (fun t b u => ∃ n ≤ 39, ExactTakes (fun _ _ => BitVec.ofNat 32 n) t b u ∧
    (fits40 (t.aca b) 0 = true → fits40 (t.aca b) n = true ∧ ∀ m ≤ 39, fits40 (t.aca b) m = true → m ≤ n)) ∧
  BundleDoes .abs (WordTakes false fun t b => (t.ia b).natAbs) ∧
  BundleDoes .min (ExactTakes fun t b => BitVec.ofInt 32 (min (t.ia b) (t.ib b))) ∧
  BundleDoes .max (ExactTakes fun t b => BitVec.ofInt 32 (max (t.ia b) (t.ib b))) ∧
  BundleDoes .rdp (ExactTakes fun t b => t.pr (b.ra.val % 8)) ∧
  BundleDoes .rdk (ExactTakes fun t b => t.kr (b.ra.val % 8)) ∧
  BundleDoes .rdf (ExactTakes fun t _ => BitVec.ofNat 32 (b2n t.sat + 2 * b2n t.gov + 4 * b2n t.par)) ∧
  BundleDoes .wrp (fun t b u => u.pr (b.rd.val % 8) = t.dr b.ra.val ∧
    (∀ i < 8, i ≠ b.rd.val % 8 → u.pr i = t.pr i) ∧ u = { t with pc := t.pc + 1, p := u.p }) ∧
  BundleDoes .wrk (fun t b u => u.kr (b.rd.val % 8) = t.dr b.ra.val ∧
    (∀ i < 8, i ≠ b.rd.val % 8 → u.kr i = t.kr i) ∧ u = { t with pc := t.pc + 1, k := u.k })

/-- Move slots of a bundle. A load leaves the word that its pointer names in its D register and adds the offset to the
pointer; under a parity error PAR sets and the error is counted. A store puts the D register as it was into the four
bytes of that word and changes no other byte. A move copies a D register. A value written in a bundle is not seen in it.
In a user slot the word lies in the slot's window. A store that differs from that of a spare that shadows the engine
writes nothing, and both engines are under test. (11_adaptation_engines R318, 11_adaptation_engines R319,
11_adaptation_engines R320, 11_adaptation_engines R326, 11_adaptation_engines R342, 11_adaptation_engines R343,
11_adaptation_engines R346). -/
def Obligations.EngineMoves : Prop :=
  (∀ (e : UnitNo) (b : Bundle) (par : Bool) (t : EngTask) (s : State), (s.engOf e.val).run = some t → t.Plain →
    (∀ d p k, b.x = .ld d p k → b.y = .nop → Runs (.nop e b par) s fun r => ∃ u, (r.engOf e.val).run = some u ∧
      u.dr d.val = s.loadWord e.val t false (t.pr p.val) ∧ u.pr p.val = t.pr p.val + t.kr k.val ∧
      u.par = (t.par || par) ∧ u = { t with pc := t.pc + 1, d := u.d, p := u.p, par := u.par } ∧
      (par = true → r.raw (Rg.C_DATA_PARITY (e.val / 5)) =
        min (s.raw (Rg.C_DATA_PARITY (e.val / 5)) + 1) (2 ^ (Rg.C_DATA_PARITY (e.val / 5)).w - 1)) ∧
      Only [.engines] [(Rg.AE_STAT_STATE e.val).off, (Rg.C_DATA_PARITY (e.val / 5)).off] s r) ∧
    (∀ d p k, b.x = .nop → b.y = .st d p k → s.Agrees e b.diff → Runs (.nop e b par) s fun r =>
      let a := memKey e.val t true (s.wordAt e.val t true (t.pr p.val))
      (∀ i < 4, r.memByte (a + i) = nth (leBytes 4 (t.dr d.val).toNat) i 0) ∧
      (∀ k, k < a ∨ a + 4 ≤ k → r.memByte k = s.memByte k) ∧ r.pool = s.pool ∧ r.prog = s.prog ∧
      (∃ u, (r.engOf e.val).run = some u ∧ u.pr p.val = t.pr p.val + t.kr k.val ∧
        u = { t with pc := t.pc + 1, p := u.p }) ∧
      Only [.engines, .memories] [(Rg.AE_STAT_STATE e.val).off] s r) ∧
    (∀ d p k, b.x = .nop → b.y = .st d p k → b.diff = true → s.shadowed (e.val / 5) = some e.val →
      Runs (.nop e b par) s fun r => r.engMem = s.engMem ∧ r.pool = s.pool ∧ (r.engOf e.val).test = 1 ∧
        (r.engOf (spareUnit (e.val / 5))).test = 1 ∧ (r.engOf e.val).run = none) ∧
    (∀ d src d2 src2, b.x = .mov d src → b.y = .mov d2 src2 → d ≠ d2 → TaskThen (.nop e b par) e s [] [] fun u _ =>
      u.dr d.val = t.dr src.val ∧ u.dr d2.val = t.dr src2.val ∧ u = { t with pc := t.pc + 1, d := u.d })) ∧
  (∀ (s : State) (e : UnitNo) (t : EngTask) (y : Bool) (p : Word) (n : Nat) (i : EngImg), t.slot = some n →
    (s.slotOf (e.val / 5) n).img = some i → 4 ≤ (if y then i.ywin else i.xwin) →
      s.wordAt e.val t y p < (if y then i.ywin else i.xwin)) ∧
  (∀ (e : UnitNo) (b : Bundle) (par : Bool) (t : EngTask) (s : State), (s.engOf e.val).run = some t → t.waiting = true →
    ∀ mk ∈ [Instr.nop, Instr.cmac, Instr.cmacc, Instr.cmsb, Instr.cmul, Instr.cmulc, Instr.cpow, Instr.dmac, Instr.aclr, Instr.aadd, Instr.asub, Instr.ashr, Instr.ashl, Instr.ext, Instr.extr, Instr.exti, Instr.add, Instr.sub, Instr.cadd, Instr.csub, Instr.and, Instr.or, Instr.xor, Instr.shr, Instr.shl, Instr.conj, Instr.swap, Instr.mul, Instr.cmuld, Instr.norm, Instr.abs, Instr.min, Instr.max, Instr.rdp, Instr.wrp, Instr.rdk, Instr.wrk, Instr.rdf],
      Runs (mk e b par) s fun r => r = s)

/-- Control and long-immediate bundles. A control bundle whose condition does not hold goes on with the next one. A
taken JMP goes to its target; CALL keeps the return address, to a depth of eight; RET goes back; LOOP opens a loop, to a
depth of two, or skips the body for a count of 0; EXIT reports its code, counts the task and goes on with the saved task
of the highest class. A trap of vendor firmware ends its task. A long immediate writes its register.
(11_adaptation_engines R314, 11_adaptation_engines R319, 11_adaptation_engines R321, 11_adaptation_engines R322). -/
def Obligations.EngineControl : Prop :=
  (∀ (e : UnitNo) (c : Ctl) (t : EngTask) (s : State), (s.engOf e.val).run = some t → t.Plain →
    (t.cond c = false → ∀ i ∈ [Instr.jmp e c 5, .call e c 5, .ret e c, .loop e c 5 6, .exit e c 7],
      TaskThen i e s [] [] fun u _ => u = { t with pc := t.pc + 1 }) ∧
    (t.cond c = true →
      (∀ target, TaskThen (.jmp e c target) e s [] [] fun u _ => u = { t with pc := target.val }) ∧
      (∀ target, t.stack.length < 8 → TaskThen (.call e c target) e s [] [] fun u _ =>
        u = { t with pc := target.val, stack := (t.pc + 1) :: t.stack }) ∧
      (∀ a l, t.stack = a :: l → TaskThen (.ret e c) e s [] [] fun u _ => u = { t with pc := a, stack := l }) ∧
      (∀ target count, 0 < count.val → TaskThen (.loop e c target count) e s [] [] fun u _ =>
        u = { t with pc := t.pc + 1, loops := [⟨t.pc + 1, target.val, count.val⟩] }) ∧
      (∀ target count, count.val = 0 → t.dr c.rc.val = 0 → TaskThen (.loop e c target count) e s [] [] fun u _ =>
        u = { t with pc := target.val + 1 }) ∧
      (∀ target code u l, (s.engOf e.val).test ≠ 3 → s.shadowed (e.val / 5) ≠ some e.val → t.desc.service ≠ 1 → t.caps = [] → t.slot = none →
        ((s.engOf e.val).saved = u :: l → TaskThen (.exit e c code) e s [] [(Rg.C_TASKS (e.val / 5)).off] fun v r =>
          v = u ∧ (r.engOf e.val).saved = l ∧ (r.engOf e.val).code = code ∧ r.raw (Rg.C_TASKS (e.val / 5)) =
            min (s.raw (Rg.C_TASKS (e.val / 5)) + 1) (2 ^ (Rg.C_TASKS (e.val / 5)).w - 1)) ∧
        ((s.engOf e.val).saved = [] → (Runs (.exit e c code) s fun r =>
            (r.engOf e.val).run = none ∧ (r.engOf e.val).code = code ∧
            Only [.engines] [(Rg.AE_STAT_STATE e.val).off, (Rg.C_TASKS (e.val / 5)).off] s r) ∧
          (8 ≤ t.stack.length → Runs (.call e c target) s fun r => (r.engOf e.val).run = none ∧
            Only [.engines] [(Rg.AE_STAT_STATE e.val).off] s r) ∧
          (t.stack = [] → Runs (.ret e c) s fun r => (r.engOf e.val).run = none ∧
            Only [.engines] [(Rg.AE_STAT_STATE e.val).off] s r))))) ∧
  (∀ (e : UnitNo) (reg : Fin 32) (imm : Word) (t : EngTask) (s : State), (s.engOf e.val).run = some t → t.Plain →
    TaskThen (.longImmediate e reg imm) e s [] [] fun u _ =>
      u = { t with pc := t.pc + 1, d := u.d, p := u.p, k := u.k } ∧
      (∀ i < 16, u.dr i = if reg.val = i then imm else t.dr i) ∧
      (∀ i < 8, u.pr i = if reg.val = 16 + i then imm else t.pr i) ∧
      (∀ i < 8, u.kr i = if reg.val = 24 + i then imm else t.kr i)) ∧
  (∀ (e : UnitNo) (c : Ctl) (t : EngTask) (r : LoopRec) (s : State), (s.engOf e.val).run = some t → t.waiting = false →
      t.cond c = false → t.loops = [r] → t.pc = r.last →
    TaskThen (.jmp e c 5) e s [] [] fun u _ =>
      u = (if 1 < r.left then { t with pc := r.first, loops := [{ r with left := r.left - 1 }] }
        else { t with pc := t.pc + 1, loops := [] }))

/-- Service calls that are turned away, REC_WAIT, transfers, TASK_INFO, BANK_READ, AIRTIME, USER_NOTE. A call that its
program may not make returns DENIED and does nothing. A result call under PAR returns PARITY, writes nothing and is
counted. REC_WAIT gives a record under a handle outside the pool, or the task waits. XFER_IN copies pool bytes into X or
Y and XFER_OUT copies back, each byte in its place and no other byte; a length that is no multiple of 4 returns RANGE
and moves nothing; a call withheld on a shadow mismatch writes nothing and puts both engines under test. TASK_INFO
writes 64 bytes and BANK_READ the COMMITTED bank of a path of the engine's half. AIRTIME answers the air time. USER_NOTE
is raised once per slot and second. That the handle, and the bytes of TASK_INFO, are otherwise free is the model's
choice (log 2). (11_adaptation_engines R326, 11_adaptation_engines R327, 11_adaptation_engines R329,
11_adaptation_engines R342, 11_adaptation_engines R343, 01_architecture R30). -/
def Obligations.EngineRecordsAndMemory : Prop :=
  (∀ (e : UnitNo) (c : Ctl) (t : EngTask) (r : CalRes) (ill : Bool) (l : List Cplx) (s : State),
      (s.engOf e.val).run = some t → t.Plain → c.cond.val = 0 → s.Agrees e c.diff →
    ∀ x ∈ [(0x05, Instr.bankRead e c), (0x06, .dpdCommit e c), (0x07, .solverPut e c ill), (0x08, .solverCommit e c),
        (0x09, .calPut e c r), (0x0B, .userNote e c), (0x0C, .pulsePut e c l), (0x0D, .rlPut e c)],
      (permitted t (s.slotService e.val t) x.1 = false → TaskThen x.2 e s [] [] fun u _ =>
        u.dn 0 = 1 ∧ u = { t with pc := t.pc + 1, d := u.d } ∧ ∀ j, j ≠ 0 → u.dr j = t.dr j) ∧
      (permitted t (s.slotService e.val t) x.1 = true → t.par = true → isResult x.1 = true →
        TaskThen x.2 e s [] [(Rg.C_COMMIT_PAR (e.val / 5)).off] fun u r =>
          u.dn 0 = 4 ∧ u = { t with pc := t.pc + 1, d := u.d } ∧ r.raw (Rg.C_COMMIT_PAR (e.val / 5)) =
            min (s.raw (Rg.C_COMMIT_PAR (e.val / 5)) + 1) (2 ^ (Rg.C_COMMIT_PAR (e.val / 5)).w - 1))) ∧
  (∀ (e : UnitNo) (c : Ctl) (t : EngTask) (s : State), t.dn 0 = 2 ∨ t.dn 0 = 3 →
    (∀ b, SvcDoes (.recWait e c (some b)) 0x01 c e t s 0 [.free] [] fun u _ =>
      0x400000 ≤ u.dn 1 ∧ u.recs = (u.dn 1, b) :: t.recs ∧ u.waiting = false) ∧
    ((s.engOf e.val).run = some t → t.Plain → c.cond.val = 0 → s.Agrees e c.diff →
      TaskThen (.recWait e c none) e s [] [] fun u _ =>
      u = { t with waiting := true })) ∧
  (∀ (e : UnitNo) (c : Ctl) (t : EngTask) (s : State),
    let y := decide (2 ^ 31 ≤ t.dn 2)
    let dst := memKey e.val t y (t.dn 2 % 2 ^ 31)
    (t.dn 3 % 4 = 0 → t.dn 0 < 0x400000 → t.dn 0 + t.dn 1 + t.dn 3 ≤ 0x400000 →
        t.dn 2 % 2 ^ 31 + t.dn 3 ≤ s.winSize e.val t y →
      SvcDoes (.xferIn e c false) 0x02 c e t s 0 [.memories] [] fun _ r =>
        (∀ i < t.dn 3, r.memByte (dst + i) = s.poolByte (e.val / 5) (t.dn 0 + t.dn 1 + i)) ∧
        (∀ k, k < dst ∨ dst + t.dn 3 ≤ k → r.memByte k = s.memByte k) ∧ r.pool = s.pool ∧ r.prog = s.prog) ∧
    (t.dn 3 % 4 ≠ 0 → SvcDoes (.xferIn e c false) 0x02 c e t s 2 [] [] fun _ _ => True)) ∧
  (∀ (e : UnitNo) (c : Ctl) (t : EngTask) (s : State),
    let y := decide (2 ^ 31 ≤ t.dn 1)
    let src := memKey e.val t y (t.dn 1 % 2 ^ 31)
    let dst := e.val / 5 * 2 ^ 22 + t.dn 0
    (t.dn 2 % 4 = 0 → t.dn 1 % 2 ^ 31 + t.dn 2 ≤ s.winSize e.val t y → poolMayWrite t (t.dn 0) (t.dn 2) = true →
      SvcDoes (.xferOut e c) 0x03 c e t s 0 [.memories] [] fun _ r =>
        (∀ i < t.dn 2, tget (fun _ => 0) r.pool (dst + i) = s.memByte (src + i)) ∧
        (∀ k, k < dst ∨ dst + t.dn 2 ≤ k → tget (fun _ => 0) r.pool k = tget (fun _ => 0) s.pool k) ∧
        r.engMem = s.engMem ∧ r.prog = s.prog) ∧
    (t.dn 2 % 4 ≠ 0 ∨ poolMayWrite t (t.dn 0) (t.dn 2) = false →
      SvcDoes (.xferOut e c) 0x03 c e t s 2 [] [] fun _ _ => True) ∧
    (s.shadowed (e.val / 5) = some e.val → (s.engOf e.val).run = some t → t.Plain → c.cond.val = 0 → c.diff = true →
      Runs (.xferOut e c) s fun r =>
      r.pool = s.pool ∧ r.engMem = s.engMem ∧ (r.engOf e.val).test = 1 ∧ (r.engOf (spareUnit (e.val / 5))).test = 1 ∧
      (r.engOf e.val).run = none)) ∧
  (∀ (e : UnitNo) (c : Ctl) (t : EngTask) (s : State),
    let a := memKey e.val t false (t.dn 0)
    (t.dn 0 + 64 ≤ s.winSize e.val t false → SvcDoes (.taskInfo e c) 0x04 c e t s 0 [.memories, .free] [] fun _ r =>
      (∀ k, k < a ∨ a + 64 ≤ k → r.memByte k = s.memByte k) ∧ r.pool = s.pool ∧ r.prog = s.prog) ∧
    (s.winSize e.val t false < t.dn 0 + 64 → SvcDoes (.taskInfo e c) 0x04 c e t s 2 [] [] fun _ _ => True)) ∧
  (∀ (e : UnitNo) (c : Ctl) (t : EngTask) (s : State),
    let a := memKey e.val t false (t.dn 1)
    t.dn 0 < 64 → t.dn 1 + 448 ≤ s.winSize e.val t false →
      (ownPath e.val (t.dn 0) = false → SvcDoes (.bankRead e c) 0x05 c e t s 3 [] [] fun _ _ => True) ∧
      (ownPath e.val (t.dn 0) = true → SvcDoes (.bankRead e c) 0x05 c e t s 0 [.memories] [] fun _ r =>
        (∀ i < 448, r.memByte (a + i) = nth (s.dpdOf (t.dn 0)).committed.bytes i 0) ∧
        (∀ k, k < a ∨ a + 448 ≤ k → r.memByte k = s.memByte k) ∧ r.pool = s.pool ∧ r.prog = s.prog)) ∧
  (∀ (e : UnitNo) (c : Ctl) (t : EngTask) (s : State), SvcDoes (.airtime e c) 0x0A c e t s 0 [] [] fun u _ =>
    u.dr 1 = BitVec.ofNat 32 (atimeWord s.stamp) ∧ u.dr 2 = BitVec.ofNat 32 s.stamp.tick) ∧
  (∀ (e : UnitNo) (c : Ctl) (t : EngTask) (n : Nat) (s : State), t.slot = some n →
    ((s.rate Ev.USER_EVENT (n + 4 * (e.val / 5))).last = none →
      SvcDoes (.userNote e c) 0x0B c e t s 0 eventParts eventRegs fun _ r =>
        (r.rate Ev.USER_EVENT (n + 4 * (e.val / 5))).last = some s.time.now) ∧
    (∀ k, (s.rate Ev.USER_EVENT (n + 4 * (e.val / 5))).last = some k → s.time.now < k + Config.ticksPerSecond →
      SvcDoes (.userNote e c) 0x0B c e t s 0 [.commands] [] fun _ r =>
        (r.rate Ev.USER_EVENT (n + 4 * (e.val / 5))).since = (s.rate Ev.USER_EVENT (n + 4 * (e.val / 5))).since + 1))

/-- Service calls that write results. A call for a path of the other half is refused. DPD_COMMIT refuses a path without
an estimate at hand; with one it answers the decision of the commit check, and a committed candidate is PENDING for the
first swap boundary at least 50 us on while the bank in service stays. SOLVER_PUT and SOLVER_COMMIT refuse without a
bank in WRITING; a put group of the engine's share stands in the bank, with the weights that the firmware solves or a
user program gives, and the last engine's commit makes it PENDING, all weights having crossed, for the first slot
boundary at least 150 us on. CAL_PUT refuses a path out of service; otherwise values wait for their boundary. PULSE_PUT
writes the pulse of the masked paths of its half only. RL_PUT records the return loss. (07_predistortion R219,
07_predistortion R230, 06_beam_weights R201, 06_beam_weights R202, 08_calibration R248, 08_calibration R249,
10_front_end R309, 11_adaptation_engines R327, 11_adaptation_engines R328). -/
def Obligations.EngineResultCalls : Prop :=
  (∀ (e : UnitNo) (c : Ctl) (t : EngTask) (b al : List Byte) (s : State), t.dn 0 < 64 →
      s.readXY e.val t false (t.dn 1) 416 = some b → s.readXY e.val t false (t.dn 2) 8 = some al →
    ((s.dpdOf (t.dn 0)).record = none → SvcDoes (.dpdCommit e c) 0x06 c e t s 3 [] [] fun _ _ => True) ∧
    (∀ x, (s.dpdOf (t.dn 0)).record = some x → (s.dpdOf (t.dn 0)).idle.state = 0 →
        (s.dpdOf (t.dn 0)).serving.state = 3 → (s.dpdOf (t.dn 0)).estimating = true → s.pathIn (t.dn 0) = true →
        ownPath e.val (t.dn 0) = true →
      let cand := s.candidate (t.dn 0) (cplxOfBytes b)
      let k := s.decide60 (t.dn 0) cand (alignOf al) x
      (k.code = 0 → t.sat = false → t.gov = false →
        SvcDoes (.dpdCommit e c) 0x06 c e t s 0 [.dpd] [(Rg.C_DPD_COMMIT (t.dn 0 / 32)).off] fun u r =>
          u.dn 1 = 0 ∧ (r.dpdOf (t.dn 0)).idle.state = 1 ∧ (r.dpdOf (t.dn 0)).idle.coef = cand ∧
          (r.dpdOf (t.dn 0)).serving = (s.dpdOf (t.dn 0)).serving ∧ (r.dpdOf (t.dn 0)).swapAt = some (s.nextSwap 50) ∧
          (∀ q, q ≠ t.dn 0 → r.dpdOf q = s.dpdOf q)) ∧
      (k.code = 5 → SvcDoes (.dpdCommit e c) 0x06 c e t s 0 [.dpd] [(Rg.C_DPD_NOCHANGE (t.dn 0 / 32)).off] fun u r =>
        u.dn 1 = 5 ∧ (r.dpdOf (t.dn 0)).idle = (s.dpdOf (t.dn 0)).idle ∧
        (r.dpdOf (t.dn 0)).serving = (s.dpdOf (t.dn 0)).serving))) ∧
  (∀ (e : UnitNo) (c : Ctl) (ill : Bool) (t : EngTask) (s : State),
    (s.writing t.desc.subject = none →
      SvcDoes (.solverPut e c ill) 0x07 c e t s 3 [] [] (fun _ _ => True) ∧
      SvcDoes (.solverCommit e c) 0x08 c e t s 3 [] [] fun _ _ => True) ∧
    (∀ l, let b := (s.solvSt t.desc.subject).x
      b.state = 1 → t.dn 0 < b.ng → b.mayPut e.val (t.dn 0) = true → t.sat = false → t.gov = false →
        s.readXY e.val t false (t.dn 1) (4 * b.k * s.pathCount) = some l →
      SvcDoes (.solverPut e c ill) 0x07 c e t s 0 [.solver, .d2d] [(Rg.C_ILL_GROUP (s.flow t.desc.subject).half).off]
        fun _ r =>
        let w := if t.slot.isNone then (b.solved (t.dn 0) s.pathCount).1 else cplxOfBytes l
        (r.solvSt t.desc.subject).x.state = 1 ∧ (r.solvSt t.desc.subject).y = (s.solvSt t.desc.subject).y ∧
        (∀ i < w.length, b.paths.contains (i % s.pathCount) = true →
          tget (fun _ => Cplx.zero) (r.solvSt t.desc.subject).x.w
            ((i / s.pathCount * 69 + t.dn 0) * 64 + i % s.pathCount) = nth w i Cplx.zero)) ∧
    (∀ b, s.writing t.desc.subject = some b → t.dn 0 < b.ng → b.mayPut e.val (t.dn 0) = false →
        t.dn 1 + 4 * b.k * s.pathCount ≤ s.winSize e.val t false →
      SvcDoes (.solverPut e c ill) 0x07 c e t s 3 [] [] fun _ _ => True) ∧
    ((s.solvSt t.desc.subject).x.state = 1 → (s.solvSt t.desc.subject).x.engines = [e.val] →
        (s.solvSt t.desc.subject).x.gov = false → t.sat = false → t.gov = false →
        s.d2dHas (s.flow t.desc.subject).half (.weights t.desc.subject) = false →
      SvcDoes (.solverCommit e c) 0x08 c e t s 0 [.solver] [(Rg.C_SOLVE_DONE (s.flow t.desc.subject).half).off] fun _ r =>
        (r.solvSt t.desc.subject).x.state = 2 ∧ (r.solvSt t.desc.subject).x.effectAt =
          nextSlot (s.ul (s.flow t.desc.subject).carrier).scs (s.time.count + usTicks 150) ∧
        (r.solvSt t.desc.subject).out = true ∧ (r.solvSt t.desc.subject).x.w = (s.solvSt t.desc.subject).x.w)) ∧
  (∀ (e : UnitNo) (c : Ctl) (x : CalRes) (t : EngTask) (s : State), t.dn 0 < 64 → t.dn 1 ≤ s.winSize e.val t false →
    (s.pathIn (t.dn 0) = false ∨ ownPath e.val (t.dn 0) = false → SvcDoes (.calPut e c x) 0x09 c e t s 3 [] [] fun _ _ => True) ∧
    (∀ y, s.pathIn (t.dn 0) = true → ownPath e.val (t.dn 0) = true →
        (if t.slot.isNone then s.vendorRes (t.dn 0) x else some x) = some y → y.bad = 0 →
      (s.engOf e.val).run = some t → t.Plain → c.cond.val = 0 → s.Agrees e c.diff →
        permitted t (s.slotService e.val t) 0x09 = true →
        t.par = false → Runs (.calPut e c x) s fun r =>
          (∃ u, (r.engOf e.val).run = some u ∧ u.dn 0 = 0 ∧ u.pc = t.pc + 1) ∧ (r.calOf (t.dn 0)).pend ≠ [] ∧
          (r.tx (t.dn 0)).gain = (s.tx (t.dn 0)).gain ∧ r.rxp = s.rxp)) ∧
  (∀ (e : UnitNo) (c : Ctl) (pulse : List Cplx) (t : EngTask) (s : State), t.dn 1 ≤ s.winSize e.val t false →
      t.sat = false → t.gov = false →
    SvcDoes (.pulsePut e c pulse) 0x0C c e t s 0 [.dpd] [] fun _ r =>
      ∀ h < 2, ∀ i < 32, (r.dpdOf (32 * h + i)).newPulse =
        (if h = e.val / 5 ∧ t.dn 0 / 2 ^ i % 2 = 1 then some ((pulse.take 255).map (satC 18)) else (s.dpdOf (32 * h + i)).newPulse) ∧
        (r.dpdOf (32 * h + i)).pulse = (s.dpdOf (32 * h + i)).pulse) ∧
  (∀ (e : UnitNo) (c : Ctl) (t : EngTask) (s : State), t.dn 0 < 64 →
    (s.pathIn (t.dn 0) = false ∨ ownPath e.val (t.dn 0) = false → SvcDoes (.rlPut e c) 0x0D c e t s 3 [] [] fun _ _ => True) ∧
    (s.pathIn (t.dn 0) = true → ownPath e.val (t.dn 0) = true → t.sat = false → t.gov = false →
      let rl := if t.slot.isNone then (s.fep (t.dn 0)).rlMeas.getD (t.dr 1).toInt else (t.dr 1).toInt
      (50 * s.f Rg.FE_CFG_RL_MIN : Int) ≤ rl → (50 * s.f Rg.FE_CFG_RL_TRIP : Int) ≤ rl →
      SvcDoes (.rlPut e c) 0x0D c e t s 0 [.frontEnd] [] fun _ r =>
        (r.fep (t.dn 0)).rl = some rl ∧ (r.fep (t.dn 0)).mmDue = false ∧ (r.fep (t.dn 0)).lowRun = 0 ∧
        (r.fep (t.dn 0)).state = (s.fep (t.dn 0)).state))

/-- Task starts, budgets, shadow windows, known-answer tests, parity, the pacer, images. Of the tasks that are ready an
engine takes one that it can take and that none such precedes: an idle engine any, a running one only of a higher class,
whose preempted task is saved and counted. A user task that has run for its budget stops and is counted; the slot is
unbound after ABORT_MAX stops. A new window advances the spare's cycle: shadow, its own test, relief. An engine that
passes its test goes back to work and one that fails is retired. The rotation tests the next working engine. A program
parity error is counted and puts the engine under repair. A series whose lag exceeds four nominal periods is reported
behind once. A user image is installed in its slot. (11_adaptation_engines R313, 11_adaptation_engines R314,
11_adaptation_engines R333, 11_adaptation_engines R336, 11_adaptation_engines R340, 11_adaptation_engines R341,
11_adaptation_engines R343, 11_adaptation_engines R344, 11_adaptation_engines R346). -/
def Obligations.EngineTasksAndChecks : Prop :=
  (∀ (e : UnitNo) (ready : List TaskDesc) (s : State),
    (s.firstTask e.val ready = none → Runs (.engineTaskStart e ready) s fun r => r = s) ∧
    (∀ d, s.firstTask e.val ready = some d → d ∈ ready ∧ s.engTakes e.val d = true ∧
      ∀ x ∈ ready, s.engTakes e.val x = true → taskBefore x d = false) ∧
    (∀ d t, s.firstTask e.val ready = some d → s.newTask (e.val / 5) d = some t → s.shadowed (e.val / 5) ≠ some e.val →
      ((s.engOf e.val).run = none → TaskThen (.engineTaskStart e ready) e s [] [] fun u r =>
        u = t ∧ (r.engOf e.val).saved = (s.engOf e.val).saved) ∧
      (∀ x, (s.engOf e.val).run = some x →
        TaskThen (.engineTaskStart e ready) e s [] [(Rg.C_PREEMPT (e.val / 5)).off] fun u r =>
          u = t ∧ d.cls < x.desc.cls ∧ (r.engOf e.val).saved = saveTask x (s.engOf e.val).saved ∧
          r.raw (Rg.C_PREEMPT (e.val / 5)) =
            min (s.raw (Rg.C_PREEMPT (e.val / 5)) + 1) (2 ^ (Rg.C_PREEMPT (e.val / 5)).w - 1)))) ∧
  (∀ (e : UnitNo) (t : EngTask) (n : Nat) (s : State), (s.engOf e.val).run = some t → t.slot = some n → n < 4 → t.caps = [] →
      (s.engOf e.val).test ≠ 3 → (s.engOf e.val).saved = [] →
    Runs (.userBudgetExpiry e) s fun r =>
      (r.engOf e.val).run = none ∧ r.raw (Rg.C_USER_ABORT (e.val / 5)) =
        min (s.raw (Rg.C_USER_ABORT (e.val / 5)) + 1) (2 ^ (Rg.C_USER_ABORT (e.val / 5)).w - 1) ∧
      ((s.slotOf (e.val / 5) n).stops + 1 < s.f Rg.ENG_CFG_ABORT_MAX →
        (r.slotOf (e.val / 5) n).stops = (s.slotOf (e.val / 5) n).stops + 1 ∧
        (r.slotOf (e.val / 5) n).bound = (s.slotOf (e.val / 5) n).bound) ∧
      (s.f Rg.ENG_CFG_ABORT_MAX ≤ (s.slotOf (e.val / 5) n).stops + 1 →
        (r.slotOf (e.val / 5) n).stops = 0 ∧ (r.slotOf (e.val / 5) n).bound = none) ∧
      KeepsBut ([.engines, .dpd] ++ eventParts) s r) ∧
  (∀ (h : Half) (s : State), s.on Rg.ENG_CFG_SHADOW_EN = true → s.on (spareFld h.val) = true →
      (s.engOf (spareUnit h.val)).test = 0 → s.raw (windowFld h.val) < 9 →
    (∀ w < 8, s.raw (windowFld h.val) = w → 1 ≤ w ∨ s.aeState (spareUnit h.val) ≠ 0 → Runs (.shadowWindow h) s fun r =>
      r.raw (windowFld h.val) = w + 1 ∧ (w + 1 < 4 → r.aeState (spareUnit h.val) = 2) ∧
      (w + 1 = 4 → (r.engOf (spareUnit h.val)).test = 2 ∧ r.aeState (spareUnit h.val) = 4) ∧
      (4 < w + 1 → s.on Rg.ENG_CFG_RELIEF_EN = true → r.aeState (spareUnit h.val) = 3)) ∧
    (s.raw (windowFld h.val) = 8 → Runs (.shadowWindow h) s fun r =>
      r.raw (windowFld h.val) = 0 ∧ r.aeState (spareUnit h.val) = 2)) ∧
  (∀ (e : UnitNo) (s : State), 2 ≤ (s.engOf e.val).test → s.aeState e.val ≠ 6 →
    (Runs (.katDone e true) s fun r => (r.engOf e.val).test = 0 ∧ (r.engOf e.val).again = none ∧
      Only [.engines] [(Rg.AE_STAT_STATE e.val).off] s r) ∧
    Runs (.katDone e false) s fun r => r.aeState e.val = 6) ∧
  (∀ (h : Half) (s : State), s.on Rg.ENG_CFG_SHADOW_EN = true → s.on (spareFld h.val) = false →
    let n := 5 * h.val + ((s.engH h.val).rot + 1) % 5
    s.aeState n ≠ 6 → (s.engOf n).test = 0 → (s.engOf n).run = none → Runs (.katRotation h) s fun r =>
      (r.engOf n).test = 3 ∧ r.aeState n = 4 ∧ (r.engH h.val).rot = n % 5 ∧
      Only [.engines] [(Rg.AE_STAT_STATE n).off] s r) ∧
  (∀ (e : UnitNo) (s : State), s.aeState e.val ≠ 6 →
    (∀ i ∈ [Instr.progParityError e true, .progScrub e true true], s.on Rg.ENG_CFG_PSCRUB_EN = true →
      Runs i s fun r => r.aeState e.val = 5 ∧ (r.engOf e.val).test = 5 ∧ (r.engOf e.val).run = none ∧
        (∀ t, (s.engOf e.val).run = some t → (r.engOf e.val).again = some t) ∧
        r.raw (Rg.C_PROG_PARITY (e.val / 5)) =
          min (s.raw (Rg.C_PROG_PARITY (e.val / 5)) + 1) (2 ^ (Rg.C_PROG_PARITY (e.val / 5)).w - 1) ∧
        Only (.engines :: eventParts)
          ([(Rg.AE_STAT_STATE e.val).off, (Rg.C_PROG_PARITY (e.val / 5)).off] ++ eventRegs) s r) ∧
    ∀ rep, Runs (.progScrub e false rep) s fun r => Only (.engines :: eventParts) eventRegs s r) ∧
  (∀ (series : Fin 9) (subject : Nat) (s : State),
    let h := s.seriesHalf series.val subject % 2
    let far := 4 * s.nominalTicks series.val subject < s.paceLag series.val subject
    (far → (series.val, subject) ∉ s.behind → Runs (.pacerBehind series subject) s fun r =>
      r.behind = (series.val, subject) :: s.behind ∧
      r.raw (Rg.C_PACER_BEHIND h) = min (s.raw (Rg.C_PACER_BEHIND h) + 1) (2 ^ (Rg.C_PACER_BEHIND h).w - 1) ∧
      Only (.engines :: eventParts) ((Rg.C_PACER_BEHIND h).off :: eventRegs) s r) ∧
    (¬far ∨ (series.val, subject) ∈ s.behind → Runs (.pacerBehind series subject) s fun r => r = s)) ∧
  (∀ (slot : Nat) (x : ImgLoad) (s : State), slot < 4 → s.imgLoads = [x] → x.halves = 1 → x.slot = slot →
      s.slotBusy 0 (some slot) = false →
    Runs (.imageInstallDone 1 slot) s fun r =>
      (r.slotOf 0 slot).img = some (imgOf x.bytes) ∧ (r.slotOf 0 slot).bound = (s.slotOf 0 slot).bound ∧
      r.imgLoads = [] ∧ r.pool = s.pool ∧ KeepsBut ([.engines, .memories] ++ eventParts) s r)

/-- Decode and encode of engine bundles agree. For every bundle whose opcode and condition are not reserved, the bundle
decoded from its 64-bit word is the bundle: no field of Table 82 is dropped. (11_adaptation_engines R319,
11_adaptation_engines R322). -/
def Obligations.BundleEncoding : Prop :=
  ∀ c : Code, c.wf = true → decodeBundle (encodeBundle c) = some c ∧ encodeBundle c < 2 ^ 64

/-- Capture contexts: pre-trigger, trigger, record, delivery, release. A context that holds its pre-trigger samples is
READY. A trigger takes it to RECORD, SHORT if fewer samples are held than PRE; in RECORD or DELIVER it is missed and
counted; in IDLE it does nothing. A finished plain record carries its samples and the half's next record number, and
waits in DELIVER; an acquisition of an average that is not the last is added, and the context fills again. A record for
an open capture flow is queued whole. A released record frees its context: IDLE, or FILL with records left. No other
context's state changes. (12_capture R355, 12_capture R356, 12_capture R358, 12_capture R359, 12_capture R361,
12_capture R362, 12_capture R365). -/
def Obligations.CaptureContexts : Prop :=
  (∀ (c : Fin 8) (r : CaptureRec) (s : State), (s.capOf c.val).cur = some r → s.capState c.val = 1 →
    (s.capHeld c.val r = r.pre → Runs (.capturePreHeld c) s fun t => t.capState c.val = 2 ∧
      (∀ d < 8, d ≠ c.val → t.capState d = s.capState d) ∧ Only [] [Rg.CAP_STAT_CTX_STATE.off] s t) ∧
    (s.capHeld c.val r < r.pre → Runs (.capturePreHeld c) s fun t => t = s)) ∧
  (∀ (c : Fin 8) (r : CaptureRec) (s : State), (s.capOf c.val).cur = some r →
    (s.trigNow c.val r = true →
      (s.capState c.val = 2 → Runs (.captureTriggerSample c) s fun t =>
        t.capState c.val = 3 ∧ (t.capOf c.val).preValid = r.pre ∧ (t.capOf c.val).short = false ∧
        (∀ d < 8, d ≠ c.val → t.capState d = s.capState d) ∧ Only [.captures] [Rg.CAP_STAT_CTX_STATE.off] s t) ∧
      (s.capState c.val = 1 → Runs (.captureTriggerSample c) s fun t =>
        t.capState c.val = 3 ∧ (t.capOf c.val).preValid = s.capHeld c.val r ∧
        (t.capOf c.val).short = decide (s.capHeld c.val r < r.pre) ∧
        (∀ d < 8, d ≠ c.val → t.capState d = s.capState d) ∧ Only [.captures] [Rg.CAP_STAT_CTX_STATE.off] s t) ∧
      (s.capState c.val = 3 ∨ s.capState c.val = 4 → s.on Rg.CAP_CFG_MISS_EVT = false →
        Runs (.captureTriggerSample c) s fun t =>
          (t.capOf c.val).missed = (s.capOf c.val).missed + 1 ∧ t.raw (Rg.C_TRIG_MISSED (c.val / 4)) =
            min (s.raw (Rg.C_TRIG_MISSED (c.val / 4)) + 1) (2 ^ (Rg.C_TRIG_MISSED (c.val / 4)).w - 1) ∧
          Only [.captures] [(Rg.C_TRIG_MISSED (c.val / 4)).off] s t)) ∧
    (s.capState c.val = 0 ∨ s.trigNow c.val r = false → Runs (.captureTriggerSample c) s fun t => t = s)) ∧
  (∀ (c : Fin 8) (samples : List Cplx) (par : Bool) (bufs : List Nat) (r : CaptureRec) (s : State),
      (s.capOf c.val).cur = some r → s.capState c.val = 3 →
    (r.avg = 0 → r.dest ≤ 1 → Runs (.captureRecordDone c samples par bufs) s fun t =>
      t.capState c.val = 4 ∧ (∃ k, (t.capOf c.val).hold = some k ∧ k.samples = samples ∧
        k.number = tget (fun _ => 0) s.capNum (c.val / 4) ∧ k.short = (s.capOf c.val).short ∧
        k.occ = (s.capOf c.val).occ ∧ k.trigAt = (s.capOf c.val).trigAt ∧ k.preValid = (s.capOf c.val).preValid ∧
        k.rate = s.capRate r ∧ k.missed = (s.capOf c.val).missed) ∧ (t.capOf c.val).missed = 0 ∧
      tget (fun _ => 0) t.capNum (c.val / 4) = (tget (fun _ => 0) s.capNum (c.val / 4) + 1) % 2 ^ 32 ∧
      Only [.captures] [Rg.CAP_STAT_CTX_STATE.off, (Rg.C_SHORT_REC (c.val / 4)).off] s t) ∧
    (0 < r.avg → (s.capOf c.val).acqs + 1 < 2 ^ r.avg → (s.capOf c.val).trunc = false →
      Runs (.captureRecordDone c samples par bufs) s fun t =>
        t.capState c.val = 1 ∧ (t.capOf c.val).acqs = (s.capOf c.val).acqs + 1 ∧
        (t.capOf c.val).sums = addSamples (s.capOf c.val).sums samples ∧ t.capNum = s.capNum ∧
        Only [.captures] [Rg.CAP_STAT_CTX_STATE.off] s t)) ∧
  (∀ (c : Fin 8) (bufs : List Nat) (r : CaptureRec) (k : CapRecord) (s : State), (s.capOf c.val).cur = some r →
      (s.capOf c.val).hold = some k → s.capState c.val = 4 → (s.capOf c.val).done = false → r.dest = 3 →
      (s.flow r.flow.val).state = 1 → (s.flow r.flow.val).dir = 2 →
    Runs (.captureDeliverResume c false bufs) s fun t =>
      (t.capOf c.val).done = true ∧ (t.capOf c.val).records = (s.capOf c.val).records + 1 ∧
      (t.pkt (s.flow r.flow.val).half).queue = (s.pkt (s.flow r.flow.val).half).queue ++
        capPackets c.val r.flow.val k.number (k.bytes false) ∧
      t.raw (Rg.C_RECORDS (c.val / 4)) = min (s.raw (Rg.C_RECORDS (c.val / 4)) + 1) (2 ^ (Rg.C_RECORDS (c.val / 4)).w - 1) ∧
      Only [.captures, .pkts] [(Rg.C_RECORDS (c.val / 4)).off] s t) ∧
  (∀ (c : Fin 8) (r : CaptureRec) (s : State), (s.capOf c.val).cur = some r → s.capState c.val = 4 →
      (s.capOf c.val).done = true →
    (r.repeat_ = false → Runs (.captureRelease c) s fun t => t.capState c.val = 0 ∧ (t.capOf c.val).hold = none ∧
      Only [.captures] [Rg.CAP_STAT_CTX_STATE.off] s t) ∧
    (r.repeat_ = true → (s.capOf c.val).left = none → (s.capOf c.val).stop = false → Runs (.captureRelease c) s fun t =>
      t.capState c.val = 1 ∧ (t.capOf c.val).hold = none ∧ (t.capOf c.val).done = false ∧
      Only [.captures] [Rg.CAP_STAT_CTX_STATE.off] s t))

/-- Housekeeping rounds, throttle levels, conversions. A round reads the half's sensors from its conversions, counts,
and leaves the half at the level that its temperature gives: it rises at once, falls only 4 degrees below, and not while
a sensor is estimated. REDUCE_LOAD is repeated a second after the last one at T2 and above, and not below. A conversion
leaves the queue and is counted; a timed one runs at its tick, one that starts more than 1 us late is counted. A
converter that passes its calibration in place takes its new trims and has no failure on record; a first failure is only
recorded. (13_monitor_bias_thermal R370, 13_monitor_bias_thermal R371, 13_monitor_bias_thermal R372,
13_monitor_bias_thermal R375, 13_monitor_bias_thermal R393, 13_monitor_bias_thermal R394). -/
def Obligations.HousekeepingAndConversions : Prop :=
  (∀ (h : Half) (r : RoundIn) (s : State), s.shutdown = false → (s.monOf h.val).inService ≠ [] → s.ctlRuns h.val = true →
      tget (fun _ => false) s.rel.supStop h.val = false →
    Runs (.housekeepingRound h r) s fun t =>
      (∀ i < 26, (t.sensor (26 * h.val + i)).reading =
        s.chanValue h.val i (roundValue (s.f Rg.MON_CFG_OVS) (nth r.inputs i [])).1) ∧
      t.raw (Rg.C_HK_ROUNDS h.val) = min (s.raw (Rg.C_HK_ROUNDS h.val) + 1) (2 ^ (Rg.C_HK_ROUNDS h.val).w - 1) ∧
      (t.monOf h.val).noRound = false ∧
      (∀ x, (t.monOf h.val).hot = false → t.anyHealthy h.val = true → (t.monOf h.val).tj = some x →
        t.raw (levelFld h.val) = nextLevel (s.raw (levelFld h.val)) x (s.monOf h.val).tj.isNone
          (t.on (if h.val = 0 then Rg.THERM_STAT_EST_H0 else Rg.THERM_STAT_EST_H1)))) ∧
  (∀ (old : Nat) (x : Int) (est : Bool), old ≤ 3 →
    (levelMet x 0 ≤ old → threshold old - 256 ≤ x → 0 < old → nextLevel old x false est = old) ∧
    (old < levelMet x 0 → nextLevel old x false est = levelMet x 0) ∧
    (0 < old → x < threshold old - 256 → nextLevel old x false false = levelMet x 256 ∧ nextLevel old x false false < old) ∧
    old ≤ nextLevel old x false true) ∧
  (∀ s : State,
    (∀ k, 2 ≤ s.raw Rg.THERM_STAT_LEVEL → s.shutdown = false → (s.monOf 0).reduceAt = some k →
        k + Config.ticksPerSecond ≤ s.time.now → Runs .reduceLoadRepeat s fun t =>
      (s.leaderless = false → t.cmd.history ≠ s.cmd.history) ∧ (t.monOf 0).reduceAt = some s.time.now ∧
      Only (.monitor :: eventParts) eventRegs s t) ∧
    (s.raw Rg.THERM_STAT_LEVEL < 2 ∨ (s.monOf 0).reduceAt = none → Runs .reduceLoadRepeat s fun t => t = s)) ∧
  (∀ (h : Half) (c : ConvRes) (ch : Nat) (s : State), s.shutdown = false → (s.monOf h.val).inService ≠ [] →
      0 ≤ c.x → c.x ≤ 262143 → 26 ≤ ch →
    ((s.monOf h.val).inj = [⟨ch, none, 1⟩] → Runs (.injectedConversionStart h c) s fun t =>
      (t.monOf h.val).inj = [] ∧
      t.raw (Rg.C_INJ_DONE h.val) = min (s.raw (Rg.C_INJ_DONE h.val) + 1) (2 ^ (Rg.C_INJ_DONE h.val).w - 1) ∧
      Only [.monitor] [(Rg.C_INJ_DONE h.val).off] s t) ∧
    (∀ k : Nat, (s.monOf h.val).inj = [⟨ch, some k, 1⟩] →
      (s.reached k = true → Runs (.timedConversion h c) s fun t =>
        (t.monOf h.val).inj = [] ∧
        t.raw (Rg.C_INJ_DONE h.val) = min (s.raw (Rg.C_INJ_DONE h.val) + 1) (2 ^ (Rg.C_INJ_DONE h.val).w - 1) ∧
        t.raw (Rg.C_INJ_LATE h.val) = (if 491 < (ahead k s.time.count).toNat then
          min (s.raw (Rg.C_INJ_LATE h.val) + 1) (2 ^ (Rg.C_INJ_LATE h.val).w - 1) else s.raw (Rg.C_INJ_LATE h.val)) ∧
        Only [.monitor] [(Rg.C_INJ_DONE h.val).off, (Rg.C_INJ_LATE h.val).off] s t) ∧
      (s.reached k = false → Runs (.timedConversion h c) s fun t => t = s))) ∧
  (∀ (h : Half) (conv : Fin 3) (s : State), s.shutdown = false → (s.monOf h.val).resting = none →
      conv.val ∈ (s.monOf h.val).inService → (s.monOf h.val).inj = [] →
    (∀ l : List Int, Runs (.mcCalibrateInPlace h conv (some l)) s fun t =>
      tget (fun _ => 0) (t.monOf h.val).restRun conv.val = 0 ∧ tget (fun _ => []) (t.monOf h.val).trim conv.val = l ∧
      (t.monOf h.val).inService = (s.monOf h.val).inService ∧ Only [.monitor] [] s t) ∧
    (tget (fun _ => 0) (s.monOf h.val).restRun conv.val = 0 → Runs (.mcCalibrateInPlace h conv none) s fun t =>
      tget (fun _ => 0) (t.monOf h.val).restRun conv.val = 1 ∧ (t.monOf h.val).trim = (s.monOf h.val).trim ∧
      (t.monOf h.val).inService = (s.monOf h.val).inService ∧ Only [.monitor] [] s t))

/-- Rail trips, power-fail warning, bias outputs. A trip of an auxiliary rail undrives every output of its half until
both are good again; a trip low of a core rail resets the device, a trip high is only reported. PWRFAIL_N sets PF and is
counted; under PF_PARK, once it has held, every driven output is PARKED, and the release sends those back for the next
transmit interval. A range change ends LIVE with the new record. A driver whose own sense is off relays the output to
its twin; without one the output is UNDRIVEN. An open loop or a compliance fault of a current output is counted and
leaves the output as it is. (13_monitor_bias_thermal R377, 13_monitor_bias_thermal R378, 13_monitor_bias_thermal R385,
13_monitor_bias_thermal R386, 13_monitor_bias_thermal R387). -/
def Obligations.RailsAndBias : Prop :=
  (∀ (h : Half) (rail : Fin 10) (high : Bool) (s : State),
    (8 ≤ rail.val → Runs (.railTrip h rail high) s fun t =>
      (∀ n < 136, outputHalf n = h.val → (t.biasOut n).state = 0) ∧ (t.monOf h.val).auxOut = true ∧
      (∀ n < 136, outputHalf n ≠ h.val → t.biasOut n = s.biasOut n) ∧ t.bitF Rg.RAIL_STAT_TRIPPED rail.val = true ∧
      Only ([.bias, .monitor] ++ eventParts) (Rg.RAIL_STAT_TRIPPED.off :: eventRegs) s t) ∧
    (rail.val < 8 → high = true → Runs (.railTrip h rail high) s fun t =>
      t.bitF Rg.RAIL_STAT_TRIPPED rail.val = true ∧ Only eventParts (Rg.RAIL_STAT_TRIPPED.off :: eventRegs) s t) ∧
    (rail.val < 7 → high = false → Runs (.railTrip h rail high) s fun t =>
      2 ∈ t.boot.conds ∧ t.bitF Rg.RAIL_STAT_TRIPPED rail.val = true ∧ t.tap = s.tap)) ∧
  (∀ (h : Half) (s : State), (s.monOf h.val).auxOut = true → s.shutdown = false → Runs (.auxRailRecover h) s fun t =>
    (t.monOf h.val).auxOut = false ∧
    (∀ n < 136, outputHalf n = h.val → (s.biasOut n).state = 0 → (s.biasOut n).car.drive = true →
      tget (fun _ => false) s.rel.biasDead n = false →
      ((s.biasOut n).boot ≠ some (s.biasOut n).car → (t.biasOut n).state = 4) ∧
      ((s.biasOut n).boot = some (s.biasOut n).car → (t.biasOut n).state = 1 ∧ (t.biasOut n).code = (s.biasOut n).car.tx)) ∧
    (∀ n, outputHalf n ≠ h.val → t.biasOut n = s.biasOut n) ∧ Only [.bias, .monitor] [] s t) ∧
  (∀ (rails : List Int) (s : State), s.powerFail = false → s.shutdown = false → s.dom 0 0 ≠ 4 → s.asleep = false →
    Runs (.pwrfailAssert rails) s fun t => t.raw Rg.RAIL_STAT_PF = 1 ∧
      t.raw (Rg.C_PF_ASSERT 0) = min (s.raw (Rg.C_PF_ASSERT 0) + 1) (2 ^ (Rg.C_PF_ASSERT 0).w - 1) ∧
      (t.monOf 0).pfAt = s.time.now ∧
      (∀ h < 2, (t.monOf h).inj.length = min 16 ((s.monOf h).inj.length + 16)) ∧
      KeepsBut ([.monitor, .store] ++ eventParts) s t) ∧
  (∀ s : State, s.powerFail = true → Runs .pwrfailRelease s fun t =>
    t.raw Rg.RAIL_STAT_PF = 0 ∧ t.raw Rg.RAIL_STAT_PARKED = 0 ∧ t.raw Rg.ALERT_STAT_PF = 0 ∧
    (s.on Rg.RAIL_STAT_PARKED = true → ∀ n < 136, (s.biasOut n).state = 4 → (s.biasOut n).returning = 3 →
      (t.biasOut n).state = 4 ∧ (t.biasOut n).returning = 2 ∧ (t.biasOut n).code = (s.biasOut n).car.rx) ∧
    Only (.bias :: eventParts) ([Rg.RAIL_STAT_PF.off, Rg.ALERT_STAT_PF.off] ++ eventRegs) s t) ∧
  (∀ s : State, s.on Rg.PWR_CFG_PF_PARK = true → s.powerFail = true → s.on Rg.RAIL_STAT_PARKED = false →
    (s.time.now < (s.monOf 0).pfAt + 49152 * s.f Rg.PWR_CFG_PF_HOLD → Runs .pfParkTimeout s fun t => t = s) ∧
    ((s.monOf 0).pfAt + 49152 * s.f Rg.PWR_CFG_PF_HOLD ≤ s.time.now →
      Runs .pfParkTimeout s fun t => t.raw Rg.RAIL_STAT_PARKED = 1 ∧
        (∀ n < 136, (s.biasOut n).state ≠ 0 → (s.biasOut n).state ≠ 4 →
          (t.biasOut n).state = 4 ∧ (t.biasOut n).returning = 3) ∧
        (∀ n, (s.biasOut n).state = 0 ∨ (s.biasOut n).state = 4 → t.biasOut n = s.biasOut n) ∧
        Only [.bias] [Rg.RAIL_STAT_PARKED.off] s t)) ∧
  (∀ (n : Fin 136) (r : BiasRec) (s : State), (s.biasOut n.val).pend = some r → (s.biasOut n.val).state = 3 →
    Runs (.biasChangeoverDone n) s fun t =>
      (t.biasOut n.val).state = 2 ∧ (t.biasOut n.val).car = r ∧ (t.biasOut n.val).pend = none ∧
      (r.pulse = false → (t.biasOut n.val).code = r.tx) ∧ Only [.bias] [] s t) ∧
  (∀ (n : Fin 136) (sense set : Int) (s : State), (s.biasOut n.val).level s.time.now = some set →
      tget (fun _ => false) s.rel.biasDead n.val = false →
    (500 * (sense - set).natAbs ≤ spanWidth (s.biasOut n.val).car.span ∨ (s.biasOut n.val).slewing s.time.now = true ∨
        (s.biasOut n.val).ext = true → Runs (.biasDriverFault n sense) s fun t => t = s) ∧
    (spanWidth (s.biasOut n.val).car.span < 500 * (sense - set).natAbs → (s.biasOut n.val).slewing s.time.now = false →
        (s.biasOut n.val).ext = false →
      (tget (fun _ => false) s.rel.onTwin n.val = false → (s.biasOut n.val).twinRet = false →
        Runs (.biasDriverFault n sense) s fun t =>
          tget (fun _ => false) t.rel.onTwin n.val = true ∧ (t.biasOut n.val).state = (s.biasOut n.val).state ∧
          t.raw (Rg.C_BIAS_TWIN (outputHalf n.val)) =
            min (s.raw (Rg.C_BIAS_TWIN (outputHalf n.val)) + 1) (2 ^ (Rg.C_BIAS_TWIN (outputHalf n.val)).w - 1)) ∧
      (tget (fun _ => false) s.rel.onTwin n.val = true → Runs (.biasDriverFault n sense) s fun t =>
        tget (fun _ => false) t.rel.biasDead n.val = true ∧ (t.biasOut n.val).state = 0))) ∧
  (∀ (n : Fin 136) (amp set : Int) (s : State), (s.biasOut n.val).level s.time.now = some set →
    (isCurrent (s.biasOut n.val).car.span = true →
        2 * amp < set ∨ spanWidth (s.biasOut n.val).car.span < 200 * (set - amp) →
      Runs (.biasExternalFault n amp) s fun t =>
        (t.biasOut n.val).ext = true ∧ (t.biasOut n.val).code = (s.biasOut n.val).code ∧
        (t.biasOut n.val).state = (s.biasOut n.val).state ∧ (∀ m, m ≠ n.val → t.biasOut m = s.biasOut m) ∧
        t.raw (Rg.C_BIAS_FAULT (outputHalf n.val)) =
          min (s.raw (Rg.C_BIAS_FAULT (outputHalf n.val)) + 1) (2 ^ (Rg.C_BIAS_FAULT (outputHalf n.val)).w - 1) ∧
        Only (.bias :: eventParts) ((Rg.C_BIAS_FAULT (outputHalf n.val)).off :: eventRegs) s t) ∧
    (isCurrent (s.biasOut n.val).car.span = false ∨ (set ≤ 2 * amp ∧
        200 * (set - amp) ≤ spanWidth (s.biasOut n.val).car.span) →
      Runs (.biasExternalFault n amp) s fun t => t = s))

/-- Register fields that live on H1. While H1 does not answer, a field whose content lives on H1 reads 0 and H1_UNREACH
sets in SU_CFG_STAT; a write to a register that holds such a field is ignored and counted in BAD_ACCESS. (R408). -/
def Obligations.FieldsOnH1 : Prop :=
  ∀ (off : Nat) (s : State), s.split = true ∨ tget (fun _ => false) s.rel.supStop 1 = true → h1Bits off ≠ 0 →
    (s.served = true → Runs (.counterRead off) s fun t => ∃ v : Word, t.sent = .regRead off v :: s.sent ∧ v &&& h1Bits off = 0 ∧
      (∀ i < 32, (h1Bits off).getLsbD i = false → v.getLsbD i = (s.regNow off).getLsbD i) ∧
      t.raw Rg.CFG_STAT_H1_UNREACH = 1 ∧ Only [.log] [Rg.CFG_STAT_H1_UNREACH.off] s t) ∧
    (∀ (v : Word) (r : RegRow), 2 ≤ s.raw Rg.BOOT_STAT_PHASE → regRow? off = some r → off % 4 = 0 →
        (∃ f ∈ r.fields, f.acc = .rw ∨ f.acc = .rwl ∨ f.acc = .w1s ∨ f.acc = .w1c) →
      Runs (.registerWrite off v true) s fun t =>
        t.raw Rg.C_BAD_ACCESS = min (s.raw Rg.C_BAD_ACCESS + 1) (2 ^ Rg.C_BAD_ACCESS.w - 1) ∧
        Only [] [Rg.C_BAD_ACCESS.off] s t)

/-- Set-up lock, test mode, register reads and writes, resets of the host interface, power states of the function. The
lock write needs CMD_N, CPL and EVT ENABLED and a status-block address; refused, it sets LOCK_ERR. Test mode needs the
KEY and an open set-up. The status-block address is written only while no ring is ENABLED. A plain write follows the
access codes; after the lock RWL fields keep their values and the write is counted. A device out of reset, from the end
of P1 on, answers reads: of a register, with its RC fields cleared then, of the last value written to a doorbell, of the
air time, whose tick it latches. A host reset returns the interface's registers and rings and discards what was due.
D3hot and D0 only stop and release the writes to the host. That writes before the end of P1 are ignored is the model's
choice (log 14). (00_scope R10, 00_scope R11, 00_scope R12, 14_host_rings R404, 14_host_rings R405, 14_host_rings R406,
14_host_rings R407, 14_host_rings R410, 14_host_rings R411, 14_host_rings R412, 14_host_rings R422, 16_time_power R450).
-/
def Obligations.HostRegisters : Prop :=
  (∀ s : State, s.locked = false → 2 ≤ s.raw Rg.BOOT_STAT_PHASE →
    ((s.ringOn 0 = false ∨ s.ringOn 2 = false ∨ s.ringOn 3 = false ∨ (s.reg 0x0020 = 0 ∧ s.reg 0x0024 = 0)) →
      Runs .setupLock s fun t => t.raw Rg.CFG_STAT_LOCK_ERR = 1 ∧ t.locked = false ∧
        t.raw Rg.LOCK_LOCK = s.raw Rg.LOCK_LOCK ∧ Only [] [Rg.CFG_STAT_LOCK_ERR.off] s t) ∧
    (s.ringOn 0 = true → s.ringOn 2 = true → s.ringOn 3 = true → ¬(s.reg 0x0020 = 0 ∧ s.reg 0x0024 = 0) →
        s.raw Rg.CFG_STAT_PATHCFG ≠ 0 →
      Runs .setupLock s fun t => t.locked = true ∧ t.raw Rg.LOCK_LOCK = 1 ∧ t.standalone = false ∧
        t.raw Rg.CFG_STAT_PATHCFG = s.raw Rg.CFG_STAT_PATHCFG ∧ (s.shutdown = false → t.linesOn = true) ∧
        t.fe = s.fe ∧ Only [.frontEnd, .log] [Rg.LOCK_LOCK.off, Rg.CFG_STAT_LOCKED.off] s t)) ∧
  (∀ (v : Word) (s : State), 2 ≤ s.raw Rg.BOOT_STAT_PHASE →
    (s.raw Rg.TEST_KEY = 0x7E57 → s.locked = false → Runs (.testModeEnter v) s fun t =>
      t.raw Rg.TEST_TEST = 1 ∧ t.raw Rg.CFG_STAT_TEST = 1 ∧ t.raw Rg.TEST_KEY = fget v 16 16 ∧
      Only [.boot] [Rg.TEST_TEST.off, Rg.CFG_STAT_TEST.off, Rg.REL_STAT_COVERED.off] s t) ∧
    ((s.raw Rg.TEST_KEY ≠ 0x7E57 ∨ s.locked = true) → Runs (.testModeEnter v) s fun t =>
      t.raw Rg.TEST_TEST = s.raw Rg.TEST_TEST ∧ t.raw Rg.CFG_STAT_TEST = s.raw Rg.CFG_STAT_TEST ∧
      t.raw Rg.C_BAD_ACCESS = min (s.raw Rg.C_BAD_ACCESS + 1) (2 ^ Rg.C_BAD_ACCESS.w - 1) ∧
      Only [] [Rg.TEST_KEY.off, Rg.C_BAD_ACCESS.off, Rg.C_RWL_IGNORED.off] s t)) ∧
  (∀ (high : Bool) (v : Word) (s : State), 2 ≤ s.raw Rg.BOOT_STAT_PHASE →
    (s.anyRing = false → Runs (.statusBaseWrite high v) s fun t =>
      (high = true → t.reg 0x0024 = v) ∧ (high = false → fget (t.reg 0x0020) 0 6 = 0 ∧
        fget (t.reg 0x0020) 6 26 = fget v 6 26) ∧ t.host.writes = 0 ∧
      Only [.host] [if high then 0x0024 else 0x0020] s t) ∧
    (s.anyRing = true → Runs (.statusBaseWrite high v) s fun t =>
      t.raw Rg.C_BAD_ACCESS = min (s.raw Rg.C_BAD_ACCESS + 1) (2 ^ Rg.C_BAD_ACCESS.w - 1) ∧
      Only [] [Rg.C_BAD_ACCESS.off] s t)) ∧
  (∀ (off : Nat) (v : Word) (r : RegRow) (s : State), 2 ≤ s.raw Rg.BOOT_STAT_PHASE → off % 4 = 0 → regRow? off = some r →
      h1Bits off = 0 → off ∉ [0x000C, 0x0010, 0x0020, 0x0024, 0x0028, 0x1D00, 0x2000, 0x2108, 0x210C] →
      ¬(0x0100 ≤ off ∧ off < 0x01C0) → ¬(0x1800 ≤ off ∧ off < 0x1A80) → ¬(0x3000 ≤ off ∧ off < 0x3100) →
    Runs (.registerWrite off v true) s fun t => t.reg off = s.written off r v ∧
      (∀ f ∈ r.fields, (f.acc = .rw → fget (t.reg off) f.lo f.w = fget v f.lo f.w) ∧
        (f.acc = .ro ∨ f.acc = .rc → fget (t.reg off) f.lo f.w = fget (s.reg off) f.lo f.w) ∧
        (f.acc = .rwl → s.locked = true → fget (t.reg off) f.lo f.w = fget (s.reg off) f.lo f.w)) ∧
      ((∃ f ∈ r.fields, f.acc = .rwl) → s.locked = true →
        t.raw Rg.C_RWL_IGNORED = min (s.raw Rg.C_RWL_IGNORED + 1) (2 ^ Rg.C_RWL_IGNORED.w - 1)) ∧
      Only [] (off :: if s.locked && r.hasRwl then [Rg.C_RWL_IGNORED.off] else []) s t) ∧
  (∀ (off : Nat) (v : Word) (whole : Bool) (s : State), whole = false ∨ off % 4 ≠ 0 ∨
      (2 ≤ s.raw Rg.BOOT_STAT_PHASE ∧ regRow? off = none) → Runs (.registerWrite off v whole) s fun t =>
    t.raw Rg.C_BAD_ACCESS = min (s.raw Rg.C_BAD_ACCESS + 1) (2 ^ Rg.C_BAD_ACCESS.w - 1) ∧
    Only [] [Rg.C_BAD_ACCESS.off] s t) ∧
  (∀ (off : Nat) (s : State),
    (s.served = true → h1Bits off = 0 → off ≠ 0x0808 → off < 0x4000 → Runs (.counterRead off) s fun t =>
      t.sent = .regRead off (s.regNow off) :: s.sent ∧
      (∀ r, regRow? off = some r → ∀ f ∈ r.fields, fget (t.reg off) f.lo f.w =
        (if f.acc = .rc then f.rst else fget (s.reg off) f.lo f.w)) ∧ Only [.log] [off] s t) ∧
    (∀ r : Fin 6, s.served = true → off = 0x4000 + 0x40 * r.val → Runs (.counterRead off) s fun t =>
      t.sent = .regRead off (tget (fun _ => 0) s.host.mw2 r.val) :: s.sent ∧ Only [.log] [] s t) ∧
    (s.served = false → Runs (.counterRead off) s fun t => t = s)) ∧
  (∀ s : State,
    (s.served = true → Runs .atNowRead s fun t =>
      t.sent = .regRead 0x0808 (BitVec.ofNat 32 (atimeWord s.stamp)) :: s.sent ∧
      t.raw Rg.AT_NOW1_TICK = s.stamp.tick % 2 ^ Rg.AT_NOW1_TICK.w ∧ t.raw Rg.AT_NOW1_VALID = b2n s.time.valid ∧
      t.raw Rg.AT_NOW1_TX_HELD = b2n s.time.txHeld ∧ t.muRef = s.muRef ∧ Only [.log] [Rg.AT_NOW1_TICK.off] s t) ∧
    (s.served = false → Runs .atNowRead s fun t => t = s)) ∧
  (∀ (stays : Bool) (s : State), (∀ w ∈ s.host.due, ∃ c d, w = .cpl c d) → Runs (.hostReset stays) s fun t =>
    (∀ r < 6, t.ringOn r = false ∧ t.ringHalted r = false ∧ t.devIdx r = 0 ∧ t.hostIdx r = 0) ∧
    (∀ off ∈ hostRegs, t.reg off = regReset off) ∧ t.raw Rg.ALERT_STAT_RING_HALT = 0 ∧ t.host.due = [] ∧
    t.host.exec = s.host.exec ∧ t.host.svid = s.host.svid ∧ t.host.ssid = s.host.ssid ∧ t.host.linkUp = (s.host.linkUp && stays) ∧ t.raw Rg.C_CPL_DISCARD =
      min (s.raw Rg.C_CPL_DISCARD + s.host.due.length) (2 ^ Rg.C_CPL_DISCARD.w - 1) ∧
    Only [.host] (Rg.ALERT_STAT_RING_HALT.off :: Rg.C_CPL_DISCARD.off :: hostRegs) s t) ∧
  (∀ s : State, Runs .d3hot s (fun t => t.host = { s.host with d3hot := true } ∧ Only [.host] [] s t) ∧
    Runs .d0Restore s (fun t => t.host.d3hot = false ∧ (s.dom 0 7 = 0 → t.host.due = []) ∧
      (s.host.due = [] → Only [.host] [] s t) ∧ Only [.host, .commands, .log] (eventRegs ++ cplRegs) s t) ∧
    Runs .pcieLinkUp s (fun t => t.host = { s.host with linkUp := true } ∧ Only [.host] [] s t) ∧
    Runs .aerUncorrectableError s fun t => t.raw Rg.ALERT_STAT_AER_UNCORR = 1 ∧
      Only [.log] [Rg.ALERT_STAT_AER_UNCORR.off, Rg.MSIX_PBA.off] s t)

/-- Rings: enabling, doorbells and releases, fetching, halts, interrupts. A ring is enabled with both indices 0 given an
aligned base and a status block, else ERR becomes 5; disabling stops it. A doorbell or release that is no aligned DWORD
is counted and ignored; one on a ring that is not ENABLED is counted; an index out of range or moved the wrong way halts
the ring with ERR 1 or 2; otherwise it becomes the host index. Read and write errors halt with ERR 3 and 4, and a
command whose read failed completes with HOST_READ. Urgent descriptors are fetched first, the others in turn while more
than eight completion entries are left. A reserved opcode completes with BAD_OP. Moderation raises its vector only with
entries pending and once TIME has passed. The lost-events event is written when an entry is free. (14_host_rings R412,
14_host_rings R413, 14_host_rings R414, 14_host_rings R415, 14_host_rings R416, 14_host_rings R417, 14_host_rings R418,
14_host_rings R419, 14_host_rings R420, 14_host_rings R421, 14_host_rings R427, 15_commands_summary R439). -/
def Obligations.HostRings : Prop :=
  (∀ (r : Fin 6) (v : Word) (s : State), 2 ≤ s.raw Rg.BOOT_STAT_PHASE →
    (s.on (Rg.RING_CTL_ENABLE r.val) = false → s.raw (Rg.RING_BASE_LO_BASE r.val) % 4096 = 0 →
        ¬(s.reg 0x0020 = 0 ∧ s.reg 0x0024 = 0) → Runs (.ringEnable r v) s fun t =>
      t.ringOn r.val = true ∧ t.raw (Rg.RING_CTL_ENABLE r.val) = 1 ∧ t.raw (Rg.RING_CTL_SIZE_LOG2 r.val) = fget v 1 5 ∧
      t.devIdx r.val = 0 ∧ t.hostIdx r.val = 0 ∧ (r.val = 3 → t.host.evtEver = true) ∧
      Only [.host, .log] [(Rg.RING_CTL_STATE r.val).off, (Rg.RING_IDX_DEV_IDX r.val).off] s t) ∧
    (s.on (Rg.RING_CTL_ENABLE r.val) = false → (s.raw (Rg.RING_BASE_LO_BASE r.val) % 4096 ≠ 0 ∨
        (s.reg 0x0020 = 0 ∧ s.reg 0x0024 = 0)) → Runs (.ringEnable r v) s fun t =>
      t.raw (Rg.RING_CTL_ENABLE r.val) = 0 ∧ t.raw (Rg.RING_CTL_ERR r.val) = 5 ∧
      t.raw (Rg.RING_CTL_STATE r.val) = s.raw (Rg.RING_CTL_STATE r.val) ∧ Only [] [(Rg.RING_CTL_STATE r.val).off] s t) ∧
    (s.on (Rg.RING_CTL_ENABLE r.val) = true → Runs (.ringEnable r v) s fun t =>
      t.raw Rg.C_BAD_ACCESS = min (s.raw Rg.C_BAD_ACCESS + 1) (2 ^ Rg.C_BAD_ACCESS.w - 1) ∧
      Only [] [Rg.C_BAD_ACCESS.off] s t)) ∧
  (∀ (r : Fin 6) (s : State), s.on (Rg.RING_CTL_ENABLE r.val) = true → Runs (.ringDisable r) s fun t =>
    t.raw (Rg.RING_CTL_ENABLE r.val) = 0 ∧ t.raw (Rg.RING_CTL_STATE r.val) = 0 ∧
    t.raw Rg.ALERT_STAT_RING_HALT = b2n ((List.range 6).any fun i => decide (i ≠ r.val) && s.ringHalted i) ∧
    Only [.log] [(Rg.RING_CTL_STATE r.val).off, Rg.ALERT_STAT_RING_HALT.off, Rg.MSIX_PBA.off] s t) ∧
  (∀ (r : Fin 6) (v : Word) (s : State), (∀ i ∈ [Instr.doorbell r v false, .releaseWrite r v false], Runs i s fun t =>
      t.raw Rg.C_BAD_ACCESS = min (s.raw Rg.C_BAD_ACCESS + 1) (2 ^ Rg.C_BAD_ACCESS.w - 1) ∧
      Only [] [Rg.C_BAD_ACCESS.off] s t) ∧
    ∀ i ∈ [Instr.doorbell r v true, .releaseWrite r v true],
    let n := fget v 0 16
    let back := if r.val = 2 ∨ r.val = 3 then
        s.ringDist r.val (s.hostIdx r.val) (s.devIdx r.val) < s.ringDist r.val (s.hostIdx r.val) n
      else s.ringDist r.val (s.devIdx r.val) n < s.ringDist r.val (s.devIdx r.val) (s.hostIdx r.val)
    (s.ringOn r.val = false → Runs i s fun t =>
      t.raw Rg.C_DB_IGNORED = min (s.raw Rg.C_DB_IGNORED + 1) (2 ^ Rg.C_DB_IGNORED.w - 1) ∧
      Only [.host] [Rg.C_DB_IGNORED.off] s t) ∧
    (s.ringOn r.val = true → n < s.ringSize r.val → ¬back → Runs i s fun t =>
      t.hostIdx r.val = n ∧ t.devIdx r.val = s.devIdx r.val ∧ Only [.host] [(Rg.RING_IDX_HOST_IDX r.val).off] s t) ∧
    (s.ringOn r.val = true → s.ringSize r.val ≤ n ∨ back → Runs i s fun t =>
      t.raw (Rg.RING_CTL_STATE r.val) = 2 ∧ t.raw (Rg.RING_CTL_ERR r.val) = (if s.ringSize r.val ≤ n then 1 else 2) ∧
      t.hostIdx r.val = s.hostIdx r.val ∧ t.raw Rg.ALERT_STAT_RING_HALT = 1 ∧
      t.raw Rg.C_RING_HALTS = min (s.raw Rg.C_RING_HALTS + 1) (2 ^ Rg.C_RING_HALTS.w - 1) ∧
      Only eventParts ([(Rg.RING_CTL_STATE r.val).off, Rg.C_RING_HALTS.off] ++ eventRegs) s t)) ∧
  (∀ (r : Fin 6) (s : State),
    (Runs (.hostReadError r none) s fun t => t.raw (Rg.RING_CTL_STATE r.val) = 2 ∧ t.raw (Rg.RING_CTL_ERR r.val) = 3 ∧
      t.raw Rg.ALERT_STAT_AER_UNCORR = 1 ∧ t.raw Rg.ALERT_STAT_RING_HALT = 1 ∧
      Only eventParts ([(Rg.RING_CTL_STATE r.val).off, Rg.C_RING_HALTS.off] ++ eventRegs) s t) ∧
    (∀ d, r.val ∈ [0, 1, 5] → s.leaderless = false → s.canWriteHost = true → s.ringOn 2 = true → 0 < s.ringFree 2 →
      Runs (.hostReadError r (some d)) s fun t => t.raw (Rg.RING_CTL_STATE r.val) = 2 ∧
        (∃ p k, Out.cplEntry p k ∈ t.sent ∧ k.tag = descTag d ∧ k.opcode = descOp d ∧ k.status = St.HOST_READ) ∧
        Only (.beams :: eventParts) ([(Rg.RING_CTL_STATE r.val).off, Rg.C_RING_HALTS.off] ++ eventRegs ++ cplRegs) s t) ∧
    Runs (.hostWriteError r) s fun t => t.raw (Rg.RING_CTL_STATE r.val) = 2 ∧ t.raw (Rg.RING_CTL_ERR r.val) = 4 ∧
      t.raw Rg.ALERT_STAT_RING_HALT = 1 ∧ t.raw Rg.ALERT_STAT_AER_UNCORR = s.raw Rg.ALERT_STAT_AER_UNCORR ∧
      Only eventParts ([(Rg.RING_CTL_STATE r.val).off, Rg.C_RING_HALTS.off] ++ eventRegs) s t) ∧
  (∀ (d : FetchedDesc) (s : State),
    (s.fetchRing = none → Runs (.commandFetch d) s fun t => t = s) ∧
    (∀ r, s.fetchRing = some r → opcodes.contains (descOp d) = true → Runs (.commandFetch d) s fun t =>
      t.devIdx r = (s.devIdx r + 1) % s.ringSize r ∧ t.host.exec = s.host.exec ++ [⟨r, descOp d, descTag d⟩] ∧
      (s.lead = 0 → t.d2d = s.d2d) ∧ Only [.host, .log, .d2d] [(Rg.RING_IDX_DEV_IDX r).off] s t) ∧
    (∀ r, s.fetchRing = some r → opcodes.contains (descOp d) = false → s.leaderless = false → Runs (.commandFetch d) s fun t =>
      t.devIdx r = (s.devIdx r + 1) % s.ringSize r ∧
      (∃ k, Out.cplEntry (s.devIdx 2) k ∈ t.sent ∧ k.tag = descTag d ∧ k.status = St.BAD_OP)) ∧
    (s.ringHas 1 = true → s.fetchRing = some 1 ∨ s.fetchRing = none) ∧
    (s.fetchRing = some 1 → 0 + s.host.exec.length < s.ringFree 2) ∧
    (s.fetchRing = some 0 ∨ s.fetchRing = some 5 → 8 + s.host.exec.length < s.ringFree 2 ∧ s.ringHas 1 = false) ∧
    (s.ringHas 0 = true → s.ringHas 5 = true → s.host.lastBulk = true → s.fetchRing ≠ some 5) ∧
    (32 ≤ s.host.exec.length → s.fetchRing = none)) ∧
  (∀ (evt : Bool) (s : State), let pend := if evt then s.host.pendEvt else s.host.pendCpl
    let passed := if evt then s.withheld s.host.evtAt (s.f Rg.IRQ_MOD_EVT_TIME)
      else s.withheld s.host.cplAt (s.f Rg.IRQ_MOD_CPLN_TIME)
    (pend = 0 ∨ passed = false → Runs (.irqModerationTimeout evt) s fun t => t = s) ∧
    (0 < pend → passed = true → Runs (.irqModerationTimeout evt) s fun t => (if evt then t.host.pendEvt else t.host.pendCpl) = 0 ∧
      (s.host.d3hot = true → t.sent = s.sent) ∧
      (∀ v, v = fget (s.reg 0x0200) (if evt then 8 else 0) 4 → s.host.d3hot = false → s.on (Rg.MSIX_MASK v) = false →
        t.sent = .msix v :: s.sent) ∧ Only [.host, .log] [Rg.MSIX_PBA.off] s t)) ∧
  (∀ s : State, (s.host.lost = 0 ∨ s.canWriteHost = false ∨ s.evtSpace = false → Runs .eventsLostWrite s fun t => t = s) ∧
    (0 < s.host.lost → s.canWriteHost = true → s.evtSpace = true → Runs .eventsLostWrite s fun t =>
      t.host.lost = 0 ∧ t.devIdx 3 = (s.devIdx 3 + 1) % s.ringSize 3 ∧
      (∃ e, Out.evtEntry (s.devIdx 3) e ∈ t.sent ∧ e.code = Ev.EVENTS_LOST ∧
        e.args = [s.host.lost % 2 ^ 32, s.host.lostSeq % 2 ^ 32]) ∧
      Only [.host, .commands, .log] [(Rg.RING_IDX_DEV_IDX 3).off, Rg.MSIX_PBA.off] s t))

/-- The SPI maintenance port. A frame whose start byte would come after more than 256 wait bytes is lost, and TIMEOUT is
the last error. RD_STATUS is always served; every other opcode answers NOT_READY while the device serves none, CTL does
not run or, for four of them, in thermal shutdown. A bad CRC of a frame with data answers CRC. RD_REG answers registers,
WR_REG writes as the host does and answers LOCKED after the lock. PF_SNAP fills the port's buffer, PF_READ reads it.
NV_RD reads the store; NV_WR writes it only unlocked, before the lock, outside the factory's region and not during a
store write. An answer is the wait bytes, 0xA5, the data, the status and a CRC-8 of those two. (14_host_rings R432,
14_host_rings R433, 14_host_rings R434, 18_startup_store R514). -/
def Obligations.SpiPort : Prop :=
  (∀ (f : SpiFrame) (s : State),
    (∀ i ∈ [Instr.rdStatus f, .rdReg f, .wrReg f, .pfSnap f, .pfRead f, .nvRd f, .nvWr f, .nvUnlock f], 256 < f.wait →
      Runs i s fun t => t.host = { s.host with spiErr := 7 } ∧ Only [.host] [] s t) ∧
    (∀ i ∈ [Instr.rdReg f, .wrReg f, .pfSnap f, .pfRead f, .nvRd f, .nvWr f, .nvUnlock f], f.wait ≤ 256 →
        s.served = false ∨ s.ctlRuns 0 = false → Runs i s fun t =>
      t.sent = .spi (spiAnswer f [] 1) :: s.sent ∧ t.host = { s.host with spiErr := 1 } ∧ Only [.host, .log] [] s t) ∧
    (∀ i ∈ [Instr.wrReg f, .nvRd f, .nvWr f, .nvUnlock f], f.wait ≤ 256 → s.shutdown = true → Runs i s fun t =>
      t.sent = .spi (spiAnswer f [] 1) :: s.sent ∧ t.host = { s.host with spiErr := 1 } ∧ Only [.host, .log] [] s t) ∧
    (∀ i ∈ [Instr.wrReg f, .nvWr f, .nvUnlock f], f.wait ≤ 256 → spiCrcOk f = false → s.served = true →
        s.ctlRuns 0 = true → s.shutdown = false → Runs i s fun t =>
      t.sent = .spi (spiAnswer f [] 4) :: s.sent ∧ t.host = { s.host with spiErr := 4 } ∧ Only [.host, .log] [] s t)) ∧
  (∀ (f : SpiFrame) (data : List Byte) (st : Nat), spiAnswer f data st =
    List.replicate f.wait 0 ++ [0xA5] ++ data ++ leBytes 1 st ++ leBytes 1 (crc8 (data ++ leBytes 1 st))) ∧
  (∀ (f : SpiFrame) (s : State), f.wait ≤ 256 → Runs (.rdStatus f) s fun t =>
    t.sent = .spi (spiAnswer f [BitVec.ofNat 8 (b2n s.ready + 2 * b2n s.locked + 4 * b2n s.host.pfReady
      + 8 * b2n (s.on Rg.BOOT_STAT_NV_BUSY) + 16 * b2n s.shutdown + 32 * (s.host.spiErr % 8))] 0) :: s.sent ∧
    Only [.log] [] s t) ∧
  (∀ (f : SpiFrame) (s : State), f.wait ≤ 256 → s.served = true → s.ctlRuns 0 = true →
    (let off := spiNum f 0 2
     let n := spiNum f 2 1
     (f.bytes.length = 3 → off % 4 = 0 → 0 < n → n ≤ 64 → Runs (.rdReg f) s fun t =>
        (∃ l, t.sent = .spi (spiAnswer f l 0) :: s.sent ∧ l.length = 4 * n ∧ l.take 4 = leBytes 4 (s.readReg off).1.toNat) ∧
        Only [.log] (Rg.AT_NOW1_TICK.off :: Rg.CFG_STAT_H1_UNREACH.off :: (List.range n).map fun i => off + 4 * i) s t) ∧
     (f.bytes.length ≠ 3 ∨ off % 4 ≠ 0 ∨ n = 0 ∨ 64 < n → Runs (.rdReg f) s fun t =>
        t.sent = .spi (spiAnswer f [] 3) :: s.sent ∧ Only [.host, .log] [] s t)) ∧
    (Runs (.pfSnap f) s fun t => t.host.pfReady = true ∧ t.cmd.snap = (s.cmd.snap + 1) % 2 ^ 32 ∧
      t.sent = .spi (spiAnswer f [] 0) :: s.sent ∧ Only [.host, .commands, .log] [] s t) ∧
    (let page := spiNum f 0 1
     let o := spiNum f 1 2
     let count := spiNum f 3 2
     (f.bytes.length ≠ 5 ∨ 11 < page ∨ o % 4 ≠ 0 ∨ count % 4 ≠ 0 ∨ count < 4 ∨ 4096 < o + count →
        Runs (.pfRead f) s fun t => t.sent = .spi (spiAnswer f [] 3) :: s.sent ∧ Only [.host, .log] [] s t) ∧
     (f.bytes.length = 5 → page ≤ 11 → o % 4 = 0 → count % 4 = 0 → 4 ≤ count → o + count ≤ 4096 → s.host.pfReady = true →
        Runs (.pfRead f) s fun t =>
          t.sent = .spi (spiAnswer f ((s.host.pfBuf.drop (4096 * page + o)).take count) 0) :: s.sent ∧ Only [.log] [] s t))) ∧
  (∀ (f : SpiFrame) (s : State), f.wait ≤ 256 → s.served = true → s.ctlRuns 0 = true → s.shutdown = false →
    (let half := spiNum f 0 1
     let addr := spiNum f 1 3
     let count := spiNum f 4 2
     f.bytes.length = 6 → half ≤ 1 → 0 < count → count ≤ 4096 → addr + count ≤ 2 ^ 19 → Runs (.nvRd f) s fun t =>
       t.sent = .spi (spiAnswer f (s.nvBytes half addr count) 0) :: s.sent ∧ Only [.log] [] s t) ∧
    (spiCrcOk f = true →
      (s.locked = true → Runs (.wrReg f) s fun t => t.sent = .spi (spiAnswer f [] 2) :: s.sent ∧ Only [.host, .log] [] s t) ∧
      (s.locked = false → f.bytes.length = 7 → spiNum f 0 2 % 4 = 0 → Runs (.wrReg f) s fun t => ∃ r,
        exec (.registerWrite (spiNum f 0 2) (BitVec.ofNat 32 (spiNum f 2 4)) true) s = .next r ∧
        t.sent = .spi (spiAnswer f [] 0) :: r.sent ∧ Only [.log] [] r t) ∧
      (s.host.nvUnlocked = false ∨ s.locked = true → Runs (.nvWr f) s fun t =>
        t.sent = .spi (spiAnswer f [] 2) :: s.sent ∧ Only [.host, .log] [] s t) ∧
      (let half := spiNum f 0 1
       let addr := spiNum f 1 3
       let count := spiNum f 4 2
       let bytes := (f.bytes.drop 6).take count
       s.host.nvUnlocked = true → s.locked = false → half ≤ 1 → 0 < count → count ≤ 256 → f.bytes.length = count + 7 →
          addr + count ≤ 2 ^ 19 →
        (addr < 0x20000 → Runs (.nvWr f) s fun t =>
          t.sent = .spi (spiAnswer f [] 3) :: s.sent ∧ Only [.host, .log] [] s t) ∧
        (0x20000 ≤ addr → s.on Rg.BOOT_STAT_NV_BUSY = true → Runs (.nvWr f) s fun t =>
          t.sent = .spi (spiAnswer f [] 5) :: s.sent ∧ Only [.host, .log] [] s t) ∧
        (0x20000 ≤ addr → s.on Rg.BOOT_STAT_NV_BUSY = false → Runs (.nvWr f) s fun t =>
          (∀ i < count, t.nvByte half (addr + i) = nth bytes i 0) ∧
          (∀ k b, b < 2 ^ 19 → ¬(k = half ∧ addr ≤ b ∧ b < addr + count) → t.nvByte k b = s.nvByte k b) ∧
          t.sent = .spi (spiAnswer f [] 0) :: s.sent ∧ Only [.store, .log] [] s t)) ∧
      (f.bytes.length = 5 → f.bytes.take 4 = [0x4E, 0x56, 0x57, 0x52] → Runs (.nvUnlock f) s fun t =>
        t.host.nvUnlocked = true ∧ t.sent = .spi (spiAnswer f [] 0) :: s.sent ∧ Only [.host, .log] [] s t) ∧
      (f.bytes.length = 5 → f.bytes.take 4 ≠ [0x4E, 0x56, 0x57, 0x52] → Runs (.nvUnlock f) s fun t =>
        t.host.nvUnlocked = s.host.nvUnlocked ∧ t.sent = .spi (spiAnswer f [] 3) :: s.sent ∧
        Only [.host, .log] [] s t)))

/-- Every command waits its turn, and its refusals come in the fixed order. For every command of Table 118: one that may
not start yet joins the held commands and changes nothing else; one that starts on a route that its opcode does not have
is refused with BAD_OP before anything else; in thermal shutdown each but PHOTO_FINISH is refused with NOT_READY; before
the path configuration is fixed each but the listed ones is refused with NOT_READY; an opcode marked (H) from the
baseband in a host-managed configuration is refused with OWNER. A refusal changes nothing but that the command is no
longer in execution and its completion leaves. (The waiting itself, and that the host is refused policy commands in
standalone service, are the model's readings, logs 14 and 15.) (15_commands_summary R437, 15_commands_summary R439). -/
def Obligations.CommandChecks : Prop :=
  (∀ (c : Cmd) (p d : List Byte) (fails : Fin 4) (lost : Option Half) (par : Bool) (s : State),
    ∀ x ∈ ([(Instr.pathConfig c p, 1), (.photoFinish c p, 2), (.evtRoute c p, 3), (.voteOwner c p, 4), (.powerVote c p, 5),
      (.flowOpen c p, 16), (.flowModify c p, 17), (.flowClose c p, 18), (.flowQuery c p, 19), (.laneRelay c p, 20),
      (.laneTest c p, 21), (.dlCarrierSet c p, 32), (.ulCarrierSet c p, 33), (.ulFilterSwap c p, 34), (.beamLoad c p d
      lost, 35), (.beamRead c p, 36), (.beamOwner c p, 37), (.solverSet c p, 38), (.dpdPathSet c p, 39), (.dpdRead c
      p, 40), (.dpdResume c p, 41), (.heatRun c p, 42), (.calRead c p, 43), (.hopLoad c p, 44), (.hopRead c p, 45),
      (.loHop c p, 46), (.feSchedSet c p d, 48), (.rffeScriptLoad c p d, 49), (.rffeXfer c p fails d, 50), (.biasSet c
      p, 51), (.biasRead c p, 52), (.biasBootStore c p, 53), (.biasOwner c p, 54), (.monInject c p, 55), (.monTest c
      p, 56), (.slotBind c p, 64), (.captureSet c p, 65), (.captureArm c p, 66), (.captureStop c p, 67),
      (.captureTrigger c p, 68), (.captureRead c p par, 69), (.captureOwner c p, 70), (.beamBulk c p d, 96),
      (.filterLoad c p d, 97), (.imageLoad c p d, 98), (.nvLoad c p d, 99)] : List (Instr × Nat)),
      (s.cmd.draining = false → (s.entered c x.2).mustWait c x.2 = true → Runs x.1 s fun t =>
        t.cmd = { (s.entered c x.2).cmd with held := s.cmd.held ++ [⟨c, x.2, x.1⟩] } ∧ Only [.commands] [] (s.entered c x.2) t) ∧
      (s.cmd.draining = true ∨ (s.entered c x.2).mustWait c x.2 = false →
        (routeOk x.2 c.route = false → Refused x.1 s c x.2 St.BAD_OP 0) ∧
        (routeOk x.2 c.route = true → s.shutdown = true → x.2 ≠ 2 → Refused x.1 s c x.2 St.NOT_READY 0) ∧
        (routeOk x.2 c.route = true → s.shutdown = false → s.raw Rg.CFG_STAT_PATHCFG = 0 →
          x.2 ∉ [1, 2, 3, 4, 0x25, 0x2C, 0x2D, 0x36, 0x46, 0x62, 0x63] → Refused x.1 s c x.2 St.NOT_READY 0) ∧
        (routeOk x.2 c.route = true → s.shutdown = false → s.split = false → s.raw Rg.CFG_STAT_PATHCFG ≠ 0 →
          (viaTxn c.route = true → s.standalone = false →
            x.2 ∈ [3, 0x14, 0x15, 0x20, 0x21, 0x22, 0x27, 0x2A, 0x2C, 0x2E, 0x30, 0x31, 0x32] →
            Refused x.1 s c x.2 St.OWNER 0) ∧
          (viaTxn c.route = false → s.standalone = true → x.2 ∈ opsH ∨ x.2 ∈ opsPolicy → x.2 ≠ 1 →
            Refused x.1 s c x.2 St.OWNER 0)))) ∧
  (∀ (c : Cmd) (op st d : Nat) (s : State), viaTxn c.route = false → s.leaderless = false → s.canWriteHost = true →
    Only cplParts cplRegs s (s.refuse c op st d) ∧
    (s.ringOn 2 = true → 0 < s.ringFree 2 → ∃ k, Out.cplEntry (s.devIdx 2) k ∈ (s.refuse c op st d).sent ∧
      k.opcode = op ∧ k.tag = c.tag ∧ k.status = st ∧ k.ring = ringCode c.route ∧ k.detail = d % 2 ^ 32 ∧ k.olen = 0))

/-- PATH_CONFIG, PHOTO_FINISH, EVT_ROUTE, VOTE_OWNER, POWER_VOTE, LANE_RELAY, LANE_TEST. PATH_CONFIG fixes the path
configuration once. PHOTO_FINISH takes a new snapshot number and returns the summary and the pages asked for. EVT_ROUTE
sets the routing of one class or of all. VOTE_OWNER sets the owner of a domain's votes; HOSTIF keeps HOST, and another
value counts in BAD_ACCESS. POWER_VOTE casts the issuer's vote on the marked domains and reports those in RUN; a timed
one is held, or refused as its checks say. LANE_RELAY refuses lanes not in the states it needs, else starts the relay
and completes with it. LANE_TEST is refused with IN_USE whole, or writes both registers. (00_scope R4,
15_commands_summary R444, 15_commands_summary R442, 14_host_rings R429, 16_time_power R457, 16_time_power R458,
02_link_lanes R73, 02_link_lanes R82, 15_commands_summary R440). -/
def Obligations.DeviceAndLaneCommands : Prop :=
  (∀ (c : Cmd) (p : List Byte) (s : State), Accepted s c 1 0 [0, 1] [] → 1 ≤ arg p 0x10 1 → arg p 0x10 1 ≤ 3 →
    (s.raw Rg.CFG_STAT_PATHCFG ≠ 0 → Refused (.pathConfig c p) s c 1 St.ALREADY 0) ∧
    (s.raw Rg.CFG_STAT_PATHCFG = 0 → ∃ u : State, exec (.pathConfig c p) s = .next (u.complete c 1 St.OK {}) ∧
      u.raw Rg.CFG_STAT_PATHCFG = arg p 0x10 1 ∧ KeepsBut [.bias, .captures, .commands, .engines, .faults, .frontEnd, .host, .log, .pkts, .solver, .time, .transmit] s u)) ∧
  (∀ (c : Cmd) (p : List Byte) (s : State), arg p 0x11 1 ≤ 11 → (arg p 0x11 1 ≠ 0 → 1 ≤ arg p 0x10 1 ∧ arg p 0x10 1 + arg p 0x11 1 ≤ 12) →
    Accepted s c 2 (4096 * (1 + arg p 0x11 1)) [recvHalf c.route] [] →
    let me := if s.split || s.leaderless then recvHalf c.route else s.lead
    let from_ : Nat := match c.route with
      | .u => 1
      | .t h _ _ => 2 + h.val
      | _ => 0
    let pages (u : State) : List Byte := ((List.range (arg p 0x11 1)).map fun i => u.extPage (arg p 0x10 1 + i)).flatten
    Replies (.photoFinish c p) s c 2 (fun u => { r0 := u.cmd.snap, data := u.summary me from_ ++ pages u })
      [.commands] [] fun u => u.cmd.snap = (s.cmd.snap + 1) % 2 ^ 32) ∧
  (∀ (c : Cmd) (p : List Byte) (s : State), Accepted s c 3 0 [recvHalf c.route] [] → classBad (arg p 0x10 1) = false →
    Replies (.evtRoute c p) s c 3 (fun _ => {}) [.commands] [] fun u => ∀ h < 2, ∀ k < 256, u.routeOf h k =
      if (s.split = false ∨ h = recvHalf c.route) ∧ (if arg p 0x10 1 = 255 then 1 ≤ k ∧ k ≤ 14 else k = arg p 0x10 1)
      then arg p 0x11 1 % 64 else s.routeOf h k) ∧
  (∀ (c : Cmd) (p : List Byte) (s : State), let h := arg p 0x10 1; let d := arg p 0x11 1; let o := arg p 0x12 1
    Accepted s c 4 0 [0, 1] [] → h ≤ 1 → d < domCount h → o ≤ 2 →
    (¬(h = 0 ∧ d = 7) → Replies (.voteOwner c p) s c 4 (fun _ => {}) [] [0x0028] fun u => u.voteOwner h d = o ∧
      ∀ k < 2, ∀ x < 8, ¬(k = h ∧ x = d) → u.voteOwner k x = s.voteOwner k x) ∧
    (h = 0 → d = 7 → o = 0 → Replies (.voteOwner c p) s c 4 (fun _ => {}) [] [] fun _ => True) ∧
    (h = 0 → d = 7 → o ≠ 0 → Replies (.voteOwner c p) s c 4 (fun _ => {}) [] [Rg.C_BAD_ACCESS.off] fun u =>
      u.voteOwner 0 7 = s.voteOwner 0 7 ∧ u.raw (Rg.C_BAD_ACCESS) = min (s.raw (Rg.C_BAD_ACCESS) + 1) (2 ^ (Rg.C_BAD_ACCESS).w - 1))) ∧
  (∀ (c : Cmd) (p : List Byte) (s : State), let ds := s.voteDoms (arg p 0x10 1) (arg p 0x11 1)
    Accepted s c 5 0 (ds.map (·.1)) [] → (∀ e ∈ ds, mayAct (s.voteOwner e.1 e.2) (fromHost c.route) = true) →
    (c.timed = false → arg p 0x12 1 = 2 → Replies (.powerVote c p) s c 5 (fun u => { r0 := u.runMask }) [] [0x0830, 0x0834] fun u =>
      (∀ e ∈ ds, u.vote e.1 e.2 (b2n (!fromHost c.route)) = false) ∧
      ∀ h < 2, ∀ d < 8, ∀ k < 4, (h, d) ∉ ds ∨ k ≠ b2n (!fromHost c.route) → u.vote h d k = s.vote h d k) ∧
    (c.timed = false → arg p 0x12 1 = 1 → ∃ u : State, exec (.powerVote c p) s = .next (u.complete c 5 St.OK { r0 := u.runMask }) ∧
      (∀ e ∈ ds, u.vote e.1 e.2 (b2n (!fromHost c.route)) = true) ∧
      (s.shutdown = false → ∀ e ∈ ds, s.dom e.1 e.2 = 1 → u.dom e.1 e.2 = 5) ∧
      ∀ h < 2, ∀ d < 8, ∀ k < 4, (h, d) ∉ ds ∨ k ≠ b2n (!fromHost c.route) → u.vote h d k = s.vote h d k) ∧
    (c.timed = true → arg p 0x12 1 = 1 ∨ arg p 0x12 1 = 2 → stampOk s.muRef (argStamp p 0x14) = true →
      let at_ := countOf s.muRef (argStamp p 0x14)
      (s.timedRefusal ds at_ ≠ St.OK → Refused (.powerVote c p) s c 5 (s.timedRefusal ds at_) 0) ∧
      (s.timedRefusal ds at_ = St.OK → Replies (.powerVote c p) s c 5 (fun u => { r0 := u.runMask }) [.time] [] fun u =>
        ⟨domMask 0 ds, domMask 1 ds, arg p 0x12 1 == 1, at_, false⟩ ∈ u.time.timed ∧ u.time.timed.length = s.time.timed.length + 1))) ∧
  (∀ (c : Cmd) (p : List Byte) (s : State), let old := arg p 0x10 1; let new := arg p 0x11 1
    old ≤ 9 → new ≤ 9 → new / 5 = old / 5 → Accepted s c 0x14 0 [old / 5] [(old / 5, 6)] →
    (s.laneState old ≠ 5 ∨ s.laneState new ≠ 4 → Refused (.laneRelay c p) s c 0x14 St.NOT_READY 0) ∧
    (s.laneState old = 5 → s.laneState new = 4 → (∀ b ∈ (s.link (old / 5)).out, b.op ≠ 2) →
      Begins (.laneRelay c p) s c 0x14 (.relay (old / 5)) [.links, .log] [(Rg.LANE_STAT_POS new).off] fun u =>
        u.raw (Rg.LANE_STAT_POS new) = s.raw (Rg.LANE_STAT_POS old) ∧ u.laneState new = 4 ∧ u.laneState old = 5 ∧
        Sends s u (old / 5) (linkOn s (old / 5) 2 (s.link (old / 5)).nextTag old new (s.raw (Rg.LANE_STAT_POS old)) 4) ∧
        (u.link (old / 5)).out.length = (s.link (old / 5)).out.length + 1)) ∧
  (∀ (c : Cmd) (p : List Byte) (s : State), let n := arg p 0x10 1; let v := BitVec.ofNat 32 (arg p 0x14 4)
    let inj := BitVec.ofNat 32 (arg p 0x18 4)
    n ≤ 9 → fget v 3 5 ≤ 16 → 32 ≤ fget v 8 7 → fget v 8 7 ≤ 64 → fget v 15 5 ≤ 24 → fget v 20 4 ≤ 5 → fget inj 6 2 ≠ 3 →
    Accepted s c 0x15 0 [n / 5] [(n / 5, 6)] →
    (s.ctlRefused n v = true → Refused (.laneTest c p) s c 0x15 St.IN_USE 0) ∧
    (s.ctlRefused n v = false → Replies (.laneTest c p) s c 0x15 (fun u => { r0 := (u.reg (0x1808 + 0x40 * n)).toNat }) [.lanes, .log]
      ((List.range 16).map fun i => 0x1800 + 0x40 * n + 4 * i) fun u =>
        u.reg (0x1800 + 0x40 * n) = fset v 25 7 0 ∧ fget (u.reg (0x1804 + 0x40 * n)) 1 8 = fget inj 1 8))

/-- FLOW_OPEN, FLOW_MODIFY, FLOW_CLOSE, FLOW_QUERY. A flow that is not CLOSED is IN_USE; without a carrier record
NOT_READY, without active lanes HALF_DOWN; a layer that an open flow of the carrier and direction has is LAYER_CONFLICT;
a reserved rate below the minimum is RATE_LOW. An accepted open, modify or close takes effect at the named symbol, or at
the first whose acceptance window has not opened, and reports it; a window that has opened is TOO_LATE; an effect symbol
before that of an earlier command moves to it with DEFERRED. The open of the baseband keeps OWNER; so does its modify.
An accepted open clears the counters of the flow. A close makes the flow CLOSING. FLOW_QUERY returns the context's 32
bytes. (03_link_packets R102, 03_link_packets R103, 03_link_packets R104, 03_link_packets R105, 03_link_packets R106,
15_commands_summary R440). -/
def Obligations.FlowCommands : Prop :=
  (∀ (c : Cmd) (p : List Byte) (s : State), let n := arg p 0x10 1
    let f : Flow := if fromHost c.route then flowArg p else { flowArg p with owner := (s.flow n).owner }
    let mu := s.flowMu f
    Accepted s c 0x10 0 [f.half] [(f.half, 6)] → fromHost c.route = true ∨ mayAct (s.flowOwner n) false = true →
      s.flowBad p f (fromHost c.route) c.timed = none →
    ((s.flowLast n).state ≠ 0 → Refused (.flowOpen c p) s c 0x10 St.IN_USE 0) ∧
    ((s.flowLast n).state = 0 →
      (f.dir ≤ 1 → s.flowCarrier f = none → Refused (.flowOpen c p) s c 0x10 St.NOT_READY 0) ∧
      (f.dir = 2 ∨ s.flowCarrier f ≠ none → s.actCount f.half = 0 → Refused (.flowOpen c p) s c 0x10 St.HALF_DOWN 0) ∧
      (f.dir = 2 ∨ s.flowCarrier f ≠ none → s.actCount f.half ≠ 0 →
        (∀ m, m < 256 → m ≠ n → f.dir ≤ 1 → (s.flowLast m).state ≠ 0 → (s.flowLast m).dir = f.dir → (s.flowLast m).carrier = f.carrier →
          Nat.land (s.flowLast m).layers f.layers ≠ 0 → Refused (.flowOpen c p) s c 0x10 St.LAYER_CONFLICT 0) ∧
        (f.dir ≤ 1 → (∀ m, m < 256 → m ≠ n → (s.flowLast m).state = 0) → (∀ mn, s.flowCarrier f = some mn → f.rsv < minRate f mn.1 mn.2) →
          Refused (.flowOpen c p) s c 0x10 St.RATE_LOW 0) ∧
        (s.flowRefusal n f ≠ St.OK → Refused (.flowOpen c p) s c 0x10 (s.flowRefusal n f) 0) ∧
        (s.flowRefusal n f = St.OK →
          (c.timed = true → s.windowOpen (countOf mu (argSym p 0x30)) f.lead = true → Refused (.flowOpen c p) s c 0x10 St.TOO_LATE 0x30) ∧
          (∀ a, (if c.timed then s.windowOpen (countOf mu (argSym p 0x30)) f.lead = false ∧ a = countOf mu (argSym p 0x30)
              else a = s.firstEffect mu f.lead) → tget (fun _ => []) s.flowFx n = [] →
            Replies (.flowOpen c p) s c 0x10 (fun _ => { at_ := some (stampOf mu a) }) [.flows, .boot, .solver, .faults] [] fun u =>
              u.flow n = { s.flow n with accepted := 0, late := 0, early := 0, invalid := 0, shed := 0 } ∧
              (∀ m, m ≠ n → u.flow m = s.flow m) ∧ tget (fun _ => []) u.flowFx n = [⟨a, some f⟩] ∧
              (∀ m, m ≠ n → tget (fun _ => []) u.flowFx m = tget (fun _ => []) s.flowFx m) ∧
              (s.boot.solvDue = [] → Only [.flows] [] (s.entered c 0x10) u)))))) ∧
  (∀ (c : Cmd) (p : List Byte) (s : State), let n := arg p 0x10 1; let x := flowArg p; let old := s.flowLast n
    let f : Flow := { old with layers := x.layers, comp := x.comp, lead := x.lead, rsv := x.rsv, prio := x.prio, sheddable := x.sheddable, owner := if fromHost c.route then x.owner else old.owner }
    let mu := s.flowMu f
    Accepted s c 0x11 0 [old.half] [(old.half, 6)] → mayAct (s.flowOwner n) (fromHost c.route) = true →
      s.flowBad p x (fromHost c.route) c.timed = none →
    (old.state = 1 → x.dir ≠ old.dir ∨ x.half ≠ old.half → Refused (.flowModify c p) s c 0x11 St.BAD_PARAM 0x12) ∧
    (old.state ≠ 1 → Refused (.flowModify c p) s c 0x11 St.NOT_READY 0) ∧
    (old.state = 1 → x.dir = old.dir → x.half = old.half → old.dir = 2 ∨ x.carrier = old.carrier →
      (s.flowRefusal n f ≠ St.OK → Refused (.flowModify c p) s c 0x11 (s.flowRefusal n f) 0) ∧
      (s.flowRefusal n f = St.OK →
        (c.timed = true → s.windowOpen (countOf mu (argSym p 0x30)) old.lead = true → Refused (.flowModify c p) s c 0x11 St.TOO_LATE 0x30) ∧
        (∀ a, (if c.timed then s.windowOpen (countOf mu (argSym p 0x30)) old.lead = false ∧ a = countOf mu (argSym p 0x30)
            else a = s.firstEffect mu (max old.lead f.lead)) → tget (fun _ => []) s.flowFx n = [] →
          Replies (.flowModify c p) s c 0x11 (fun _ => { at_ := some (stampOf mu a) }) [.flows] [] fun u =>
            u.flows = s.flows ∧ tget (fun _ => []) u.flowFx n = [⟨a, some f⟩] ∧
            (∀ m, m ≠ n → tget (fun _ => []) u.flowFx m = tget (fun _ => []) s.flowFx m))))) ∧
  (∀ (c : Cmd) (p : List Byte) (s : State), let n := arg p 0x10 1; let f := s.flowLast n; let mu := s.flowMu f
    Accepted s c 0x12 0 [f.half] [(f.half, 6)] → mayAct (s.flowOwner n) (fromHost c.route) = true →
    (f.state = 0 ∨ f.state = 3 → c.timed = false → Refused (.flowClose c p) s c 0x12 St.NOT_READY 0) ∧
    (f.state = 1 ∨ f.state = 2 →
      (c.timed = true → stampOk mu (argSym p 0x30) = true → s.windowOpen (countOf mu (argSym p 0x30)) f.lead = true →
        Refused (.flowClose c p) s c 0x12 St.TOO_LATE 0x30) ∧
      (∀ a, (if c.timed then stampOk mu (argSym p 0x30) = true ∧ s.windowOpen (countOf mu (argSym p 0x30)) f.lead = false ∧ a = countOf mu (argSym p 0x30)
          else a = s.firstEffect mu f.lead) →
        (tget (fun _ => []) s.flowFx n = [] →
          Replies (.flowClose c p) s c 0x12 (fun _ => { at_ := some (stampOf mu a) }) [.flows] [] fun u =>
            (u.flow n).state = 3 ∧ tget (fun _ => []) u.flowFx n = [⟨a, none⟩] ∧ ∀ m, m ≠ n → u.flow m = s.flow m ∧
              tget (fun _ => []) u.flowFx m = tget (fun _ => []) s.flowFx m) ∧
        (∀ l x, tget (fun _ => []) s.flowFx n = l ++ [x] → ahead x.at_ a < 0 →
          Replies (.flowClose c p) s c 0x12 (fun _ => { at_ := some (stampOf mu x.at_), flags := 4 }) [.flows] [] fun u =>
            (u.flowLast n).state = 3 ∧ (tget (fun _ => []) u.flowFx n).getLast? = some ⟨x.at_, none⟩ ∧ ∀ m, m ≠ n → u.flow m = s.flow m)))) ∧
  (∀ (c : Cmd) (p : List Byte) (s : State), Accepted s c 0x13 32 [(s.flow (arg p 0x10 1)).half] [] →
    Replies (.flowQuery c p) s c 0x13 (fun _ => { data := (s.flow (arg p 0x10 1)).bytes (arg p 0x10 1) }) [] [] fun _ => True)

/-- DL_CARRIER_SET, UL_CARRIER_SET, UL_FILTER_SWAP, FILTER_LOAD, BEAM_LOAD, BEAM_BULK, BEAM_READ, BEAM_OWNER. A carrier
record out of range is refused, one that a flow in use forbids is IN_USE; else it waits for the next slot, behind those
that wait, and that slot is reported. A filter load begins for the bank out of service, and is BUSY while a swap waits;
a swap needs a loaded bank, 64 ticks, and no other swap. A beam load takes a staging row of each half, puts the weights
there, and reports the first symbol using it; it is BUSY on an entry whose load waits, TOO_LATE within 150 us, UNUSABLE,
or NOT_READY for want of rows. A staging row that shows a parity error before the completion takes the load with it. A
bulk load waits instead, behind earlier ones, and stops at the first entry refused. BEAM_READ returns the content in
effect with state and owner, BEAM_OWNER sets the owner of a range. (04_downlink R131, 04_downlink R132, 05_uplink R154,
05_uplink R155, 05_uplink R166, 05_uplink R167, 06_beam_weights R183, 06_beam_weights R185, 06_beam_weights R186,
06_beam_weights R187). -/
def Obligations.CarrierFilterBeamCommands : Prop :=
  (∀ (c : Cmd) (p : List Byte) (s : State), let r := dlArg p
    Accepted s c 0x20 0 [0, 1] [] →
    (∀ d, s.dlBad r = some d → Refused (.dlCarrierSet c p) s c 0x20 St.BAD_PARAM d) ∧
    (s.dlBad r = none → s.dlInUse r = true → Refused (.dlCarrierSet c p) s c 0x20 St.IN_USE 0) ∧
    (s.dlBad r = none → s.dlInUse r = false →
      Replies (.dlCarrierSet c p) s c 0x20 (fun _ => { at_ := some (stampOf r.scs (nextSlot r.scs (s.time.count + 1))) }) [.downlink] [] fun u =>
        (∃ x : PendDl, tget (fun _ => []) u.dlPend r.carrier = tget (fun _ => []) s.dlPend r.carrier ++ [x] ∧ x.car = r ∧
          x.at_ = nextSlot r.scs (s.time.count + 1)) ∧ u.dlCar = s.dlCar ∧ u.backoff = s.backoff ∧ u.dlSat = s.dlSat ∧
        ∀ k, k ≠ r.carrier → tget (fun _ => []) u.dlPend k = tget (fun _ => []) s.dlPend k)) ∧
  (∀ (c : Cmd) (p : List Byte) (s : State), let r := ulArg p
    Accepted s c 0x21 0 [0, 1] [] →
    (∀ d, s.ulBad r = some d → Refused (.ulCarrierSet c p) s c 0x21 St.BAD_PARAM d) ∧
    (s.ulBad r = none → s.ulInUse r = true → Refused (.ulCarrierSet c p) s c 0x21 St.IN_USE 0) ∧
    (s.ulBad r = none → s.ulInUse r = false →
      Replies (.ulCarrierSet c p) s c 0x21 (fun _ => { at_ := some (stampOf r.scs (nextSlot r.scs (s.time.count + 1))) }) [.uplink] [] fun u =>
        tget (fun _ => []) u.ulPend r.carrier =
          tget (fun _ => []) s.ulPend r.carrier ++ [⟨r, nextSlot r.scs (s.time.count + 1)⟩] ∧ u.ulCar = s.ulCar ∧ u.filt = s.filt ∧
        ∀ k, k ≠ r.carrier → tget (fun _ => []) u.ulPend k = tget (fun _ => []) s.ulPend k)) ∧
  (∀ (c : Cmd) (p : List Byte) (s : State), let k := arg p 0x10 1 % 4; let at_ := countOf (s.ul k).scs (argStamp p 0x14)
    Accepted s c 0x22 0 [0, 1] [] → stampOk (s.ul k).scs (argStamp p 0x14) = true →
    ((s.filtOf k).loading ≠ [] → Refused (.ulFilterSwap c p) s c 0x22 St.NOT_READY 0) ∧
    ((s.filtOf k).loading = [] →
      (ahead s.time.count at_ < 64 → Refused (.ulFilterSwap c p) s c 0x22 St.TOO_LATE 0x14) ∧
      (64 ≤ ahead s.time.count at_ → (s.filtOf k).swapAt ≠ none → Refused (.ulFilterSwap c p) s c 0x22 St.BUSY 0) ∧
      (64 ≤ ahead s.time.count at_ → (s.filtOf k).swapAt = none → Replies (.ulFilterSwap c p) s c 0x22 (fun _ => {}) [.uplink] [] fun u =>
        u.filtOf k = { s.filtOf k with swapAt := some at_ } ∧ u.ulCar = s.ulCar ∧ ∀ j, j ≠ k → u.filtOf j = s.filtOf j))) ∧
  (∀ (c : Cmd) (p d : List Byte) (s : State), let k := arg p 0x10 1
    Accepted s c 0x61 384 [0, 1] [] → k ≤ 3 →
    ((s.filtOf k).swapAt ≠ none → Refused (.filterLoad c p d) s c 0x61 St.BUSY 0) ∧
    ((s.filtOf k).swapAt = none → Begins (.filterLoad c p d) s c 0x61 (.filter k) [.uplink] [] fun u =>
      u.filtOf k = { s.filtOf k with loading := (s.filtOf k).loading ++ [filterArg d] } ∧
      u.ulCar = s.ulCar ∧ ∀ j, j ≠ k → u.filtOf j = s.filtOf j)) ∧
  (∀ (c : Cmd) (p d : List Byte) (s : State), let id := arg p 0x10 2; let at_ := countOf s.muRef (argStamp p 0x14)
    Accepted s c 0x23 256 [0, 1] [(0, 0), (1, 0)] → id ≤ 8191 → mayAct (s.beamOwner id) (fromHost c.route) = true →
      (c.timed = true → stampOk s.muRef (argStamp p 0x14) = true) →
    ((s.beam id).load ≠ none → Refused (.beamLoad c p d none) s c 0x23 St.BUSY 0) ∧
    ((s.beam id).load = none →
      (c.timed = true → atLeastUs (ahead s.time.count at_) 150 = false → Refused (.beamLoad c p d none) s c 0x23 St.TOO_LATE 0x14) ∧
      (c.timed = false ∨ atLeastUs (ahead s.time.count at_) 150 = true →
        ((s.beam id).state = 3 → Refused (.beamLoad c p d none) s c 0x23 St.UNUSABLE 0) ∧
        ((s.beam id).state ≠ 3 → s.stageOf 0 = [] ∨ s.stageOf 1 = [] → Refused (.beamLoad c p d none) s c 0x23 St.NOT_READY 0) ∧
        (∀ r0 l0 r1 l1, (s.beam id).state ≠ 3 → s.stageOf 0 = r0 :: l0 → s.stageOf 1 = r1 :: l1 → r0 < 8384 →
          let eff := s.firstSym (if c.timed then at_ else s.time.count + usTicks 150)
          Replies (.beamLoad c p d none) s c 0x23 (fun _ => { at_ := some (stampOf s.muRef eff) }) [.beams, .d2d]
            [Rg.BW_STAT_STAGE_H0.off, Rg.BW_STAT_STAGE_H1.off] fun u =>
              u.beam id = { s.beam id with load := some ⟨r0, r1, eff⟩ } ∧ (∀ k, k ≠ id → u.beam k = s.beam k) ∧
              (u.row 0 r0).w = (weightArg d).take 32 ∧ (u.row 1 r1).w = (weightArg d).drop 32 ∧
              u.stageOf 0 = l0 ∧ u.stageOf 1 = l1 ∧ u.spareRows = s.spareRows ∧ u.bulk = s.bulk) ∧
        (∀ h r0 l0 r1 l1, (s.beam id).state ≠ 3 → s.stageOf 0 = r0 :: l0 → s.stageOf 1 = r1 :: l1 → r0 < 8384 →
            (∀ e ∈ s.beams, ∀ x, e.2.load = some x → x.row0 ≠ r0 ∧ x.row1 ≠ r1) →
          Runs (.beamLoad c p d (some h)) s fun t => (t.beam id).load = none ∧ (t.beam id).state = (s.beam id).state ∧
            (∀ k, k ≠ id → t.beam k = s.beam k) ∧
            t.raw (Rg.C_BEAM_PARITY h.val) = min (s.raw (Rg.C_BEAM_PARITY h.val) + 1) (2 ^ (Rg.C_BEAM_PARITY h.val).w - 1))))) ∧
  (∀ (c : Cmd) (p d : List Byte) (s : State), let first := arg p 0x10 2; let n := arg p 0x12 2
    Accepted s c 0x60 (256 * n) [0, 1] [(0, 0), (1, 0)] → first ≤ 8191 → n ≠ 0 → first + n ≤ 8192 →
    (s.bulk ≠ [] → Runs (.beamBulk c p d) s fun t =>
      t.bulk = s.bulk ++ [⟨c, first, 0, (List.range n).map fun i => weightArg (d.drop (256 * i))⟩] ∧ t.beams = s.beams ∧
      t.rows = s.rows ∧ t.stage = s.stage ∧ Only [.beams] [] (s.entered c 0x60) t) ∧
    (s.bulk = [] →
      (s.loadRefusal true first none false ≠ St.OK →
        exec (.beamBulk c p d) s = .next ((s.entered c 0x60).complete c 0x60 (s.loadRefusal true first none false) { detail := first })) ∧
      (s.loadRefusal true first none false = St.OK →
        (s.stageOf 0 = [] ∨ s.stageOf 1 = [] → Runs (.beamBulk c p d) s fun t =>
          t.bulk = [⟨c, first, 0, (List.range n).map fun i => weightArg (d.drop (256 * i))⟩] ∧ t.beams = s.beams ∧ t.rows = s.rows ∧
          t.stage = s.stage ∧ Only [.beams] [] (s.entered c 0x60) t) ∧
        (∀ r0 l0 r1 l1, n = 1 → s.stageOf 0 = r0 :: l0 → s.stageOf 1 = r1 :: l1 → r0 < 8384 →
          Replies (.beamBulk c p d) s c 0x60 (fun _ => { r0 := 1 }) [.beams, .d2d] [Rg.BW_STAT_STAGE_H0.off, Rg.BW_STAT_STAGE_H1.off] fun u =>
            (u.beam first).load = some ⟨r0, r1, s.firstSym (s.time.count + usTicks 150)⟩ ∧ (u.row 0 r0).w = (weightArg d).take 32 ∧
            (u.row 1 r1).w = (weightArg d).drop 32 ∧ u.bulk = [] ∧ ∀ k, k ≠ first → u.beam k = s.beam k)))) ∧
  (∀ (c : Cmd) (p : List Byte) (s : State), let id := arg p 0x10 2
    Accepted s c 0x24 256 [0, 1] [(0, 0), (1, 0)] → id ≤ 8191 → mayAct (s.beamOwner id) (fromHost c.route) = true →
    Replies (.beamRead c p) s c 0x24 (fun _ => { r0 := s.beamState id + 4 * s.beamOwner id, data := s.beamBytes id }) [] [] fun _ => True) ∧
  (∀ (c : Cmd) (p : List Byte) (s : State), let first := arg p 0x10 2; let n := arg p 0x12 2; let o := arg p 0x14 1
    Accepted s c 0x25 0 [0, 1] [] → first ≤ 8191 → n ≠ 0 → first + n ≤ 8192 → o ≤ 2 →
    Replies (.beamOwner c p) s c 0x25 (fun _ => {}) [.beams] [] fun u => u.rows = s.rows ∧ u.stage = s.stage ∧
      ∀ id, u.beam id = if first ≤ id ∧ id < first + n then { s.beam id with owner := some o } else s.beam id)

/-- SOLVER_SET, DPD_PATH_SET, DPD_READ, DPD_RESUME, CAL_READ, HEAT_RUN, HOP_LOAD, HOP_READ, LO_HOP. A second enabled
solver on a carrier is IN_USE; an accepted record is the flow's, and one with EN clear ends its output. A predistortion
record waits for the banks if its structure changes, for a swap boundary if EN, EST or CFR_PAPR does. DPD_RESUME ends
the halts of the paths marked and reports them, and acquisition starts on the paths marked. HEAT_RUN is BUSY on a group
under one, leaves out groups that cannot be heated, and requires the heat of the others. HOP_LOAD writes the entry of
every synthesiser and clears its results, unless it is in use. LO_HOP needs all groups in service while a flow is open,
100 us, and no other hop. The reads return the bank, the path's entry, the hop entry. (06_beam_weights R190,
06_beam_weights R191, 07_predistortion R212, 07_predistortion R213, 07_predistortion R232, 08_calibration R250,
08_calibration R251, 09_synthesis_clocks R275, 09_synthesis_clocks R276, 15_commands_summary R440). -/
def Obligations.SolverPathHopCommands : Prop :=
  (∀ (c : Cmd) (p : List Byte) (s : State), let r := solverArg p
    Accepted s c 0x26 0 [0, 1] [] → mayAct (s.flowOwner r.flow) (fromHost c.route) = true →
    (∀ d, s.solverBad r = some d → Refused (.solverSet c p) s c 0x26 St.BAD_PARAM d) ∧
    (s.solverBad r = none →
      (r.en = true → (∃ o ∈ s.otherSolvers r.flow, (s.flowLast o.flow).carrier = (s.flowLast r.flow).carrier) →
        Refused (.solverSet c p) s c 0x26 St.IN_USE 0) ∧
      (s.solverRefusal r ≠ St.OK → Refused (.solverSet c p) s c 0x26 (s.solverRefusal r) 0) ∧
      (s.solverRefusal r = St.OK → Replies (.solverSet c p) s c 0x26 (fun _ => {}) [.solver, .faults] [] fun u =>
        u.solverOf r.flow = some r ∧ (∀ f, f ≠ r.flow → u.solverOf f = s.solverOf f) ∧ u.isSafe 5 r.flow = false ∧
        (r.en = true → u.solv = s.solv) ∧ (r.en = false → (u.solvSt r.flow).waiting = false)))) ∧
  (∀ (c : Cmd) (p : List Byte) (s : State), let r := dpdArg p; let d := s.dpdOf r.path
    Accepted s c 0x27 0 [r.path / 32] [] →
    (∀ x, dpdBad r = some x → Refused (.dpdPathSet c p) s c 0x27 St.BAD_PARAM x) ∧
    (dpdBad r = none → Replies (.dpdPathSet c p) s c 0x27 (fun _ => {}) [.dpd, .faults] [] fun u =>
      u.dpdOf r.path = { d with struct_ := (if dpdShape r = dpdShape d.rec_ then none else some r), soft := (if r.en = d.rec_.en ∧ r.est = d.rec_.est ∧ r.papr = d.rec_.papr then none else some r) } ∧
      u.sharedOrx = s.sharedOrx ∧ (∀ q, q ≠ r.path → u.dpdOf q = s.dpdOf q) ∧ u.isSafe 4 r.path = false)) ∧
  (∀ (c : Cmd) (p : List Byte) (s : State), let q := arg p 0x10 1
    (Accepted s c 0x28 448 [q / 32] [] → q ≤ 63 → arg p 0x11 1 ≤ 1 →
      Replies (.dpdRead c p) s c 0x28 (fun _ => { data := (if arg p 0x11 1 = 0 then (s.dpdOf q).a else (s.dpdOf q).b).bytes }) [] [] fun _ => True) ∧
    (Accepted s c 0x2B 496 [q / 32] [] → q ≤ 63 →
      Replies (.calRead c p) s c 0x2B (fun u => { data := u.pathEntry q }) [] [] fun _ => True)) ∧
  (∀ (c : Cmd) (p : List Byte) (s : State), let ps := maskList 64 (arg p 0x10 8)
    let m := maskNat 64 fun q => ps.contains q && (s.dpdOf q).halted
    Accepted s c 0x29 0 (ps.map (· / 32)) [] →
    Replies (.dpdResume c p) s c 0x29 (fun _ => { r0 := m % 2 ^ 32, r1 := m / 2 ^ 32 }) [.dpd] [] fun u => u.sharedOrx = s.sharedOrx ∧
      ∀ q, u.dpdOf q = if q ∈ ps then
        (if (s.dpdOf q).halted = true then { s.dpdOf q with halted := false, reverts := 0, acq := s.f Rg.DPD_CFG2_ACQ_COUNT }
          else { s.dpdOf q with acq := s.f Rg.DPD_CFG2_ACQ_COUNT }) else s.dpdOf q) ∧
  (∀ (c : Cmd) (p : List Byte) (s : State), let gs := (maskList 8 (arg p 0x10 1)).filter s.groupIn
    gs ≠ [] → arg p 0x11 1 ≤ 1 → Accepted s c 0x2A 0 (gs.map (· / 4)) (groupDoms gs) →
    ((∃ g ∈ gs, s.inHeatRun g = true) → Refused (.heatRun c p) s c 0x2A St.BUSY 0) ∧
    ((∀ g ∈ gs, s.inHeatRun g = false) →
      ((∀ g ∈ gs, s.canHeat g = false) → Replies (.heatRun c p) s c 0x2A (fun _ => {}) [] [] fun _ => True) ∧
      ((∃ g ∈ gs, s.canHeat g = true) →
        Begins (.heatRun c p) s c 0x2A (.heat (maskNat 8 fun g => gs.contains g && s.canHeat g) 0) groupParts groupRegs fun u =>
          ∀ g ∈ gs, s.canHeat g = true → (s.group g).heat = 0 →
            (u.group g).need = max (s.group g).need (if arg p 0x11 1 = 0 ∨ (s.group g).drift = true then 2 else 1)))) ∧
  (∀ (c : Cmd) (p : List Byte) (s : State), let e := arg p 0x10 1; let khz := arg p 0x14 4 % 2 ^ 23
    Accepted s c 0x2C 0 [0, 1] [] → e ≤ 63 → 3300000 ≤ khz → khz ≤ 7125000 →
    ((∃ g < 8, (s.group g).entry = some e) → Refused (.hopLoad c p) s c 0x2C St.IN_USE 0) ∧
    ((∃ g < 8, ∃ a, (s.group g).hop = some (e, a)) → Refused (.hopLoad c p) s c 0x2C St.IN_USE 0) ∧
    ((∀ g < 8, (s.group g).entry ≠ some e ∧ ∀ a, (s.group g).hop ≠ some (e, a)) →
      Replies (.hopLoad c p) s c 0x2C (fun _ => {}) [.synth, .calib, .faults] [] fun u =>
        (∀ n < 10, u.hop n e = ⟨khz, argB p 0x18 0, false, (HopEnt.reset).band, (HopEnt.reset).mid, (HopEnt.reset).temp, (HopEnt.reset).kdco⟩) ∧
        (∀ n < 10, ∀ k < 64, k ≠ e → u.hop n k = s.hop n k) ∧ (∀ x ∈ u.calSets, x.entry ≠ e) ∧
        (∀ x ∈ s.calSets, x.entry ≠ e → x ∈ u.calSets) ∧ u.calp = s.calp ∧ u.lox = s.lox ∧ u.isSafe 2 e = false)) ∧
  (∀ (c : Cmd) (p : List Byte) (s : State), let e := arg p 0x10 1; let n := arg p 0x11 1
    Accepted s c 0x2D 16 [n / 5] [] → e ≤ 63 → n ≤ 9 →
    Replies (.hopRead c p) s c 0x2D (fun _ => { data := s.hopBytes n e }) [] [] fun _ => True) ∧
  (∀ (c : Cmd) (p : List Byte) (s : State), let gs := (maskList 8 (arg p 0x10 1)).filter s.groupIn; let e := arg p 0x11 1
    let at_ := countOf s.muRef (argStamp p 0x14)
    gs ≠ [] → e ≤ 63 → s.hopValid gs e = true → stampOk s.muRef (argStamp p 0x14) = true →
      Accepted s c 0x2E 0 (gs.map (· / 4)) (groupDoms gs) →
    (s.openFlows ≠ [] → (∃ g ∈ s.groupsIn, g ∉ gs) → Refused (.loHop c p) s c 0x2E St.IN_USE 0) ∧
    (s.openFlows = [] ∨ (∀ g ∈ s.groupsIn, g ∈ gs) →
      (atLeastUs (ahead s.time.count at_) 100 = false → Refused (.loHop c p) s c 0x2E St.TOO_LATE 0x14) ∧
      (atLeastUs (ahead s.time.count at_) 100 = true →
        ((∃ g ∈ gs, (s.group g).hop ≠ none) → Refused (.loHop c p) s c 0x2E St.BUSY 0) ∧
        ((∀ g ∈ gs, (s.group g).hop = none) →
          Begins (.loHop c p) s c 0x2E (.hop (maskNat 8 fun g => gs.contains g) e) [.groups] [] fun u =>
            (∀ g ∈ gs, u.group g = { s.group g with hop := some (e, at_), deferred := false }) ∧ ∀ g, g ∉ gs → u.group g = s.group g))))

/-- FE_SCHED_SET, RFFE_SCRIPT_LOAD, RFFE_XFER. A schedule that breaks its rules is refused with BAD_PARAM, one whose
EFFECT is less than 2 ms away is TOO_LATE; else it waits for EFFECT, which is reported, in place of one that waited. A
script load that leaves entries overlapping is refused with CAPACITY; else the entries stand in the script memory of the
bus. RFFE_XFER puts the transaction on the bus at once; a read returns the data, or after three parity failures
RFFE_PARITY, each failure counted; with RETUNE the group is held from its next decision instant. (10_front_end R293,
10_front_end R295, 10_front_end R306, 10_front_end R307). -/
def Obligations.FrontEndCommands : Prop :=
  (∀ (c : Cmd) (p d : List Byte) (s : State), let x := schedArg d
    Accepted s c 0x30 (schedLen d) [0, 1] [] →
    (s.schedBad x = true → Refused (.feSchedSet c p d) s c 0x30 St.BAD_PARAM 0x08) ∧
    (s.schedBad x = false → atLeastUs (ahead s.time.count (schedAt x)) 2000 = false → Refused (.feSchedSet c p d) s c 0x30 St.TOO_LATE 0x08) ∧
    (s.schedBad x = false → atLeastUs (ahead s.time.count (schedAt x)) 2000 = true →
      Replies (.feSchedSet c p d) s c 0x30 (fun _ => { at_ := some (stampOf x.muRef (schedAt x)) }) [.frontEnd] [] fun u =>
        u.schedPend = some ⟨x, schedAt x⟩ ∧ u.sched = s.sched ∧ u.fe = s.fe ∧ u.scripts = s.scripts)) ∧
  (∀ (c : Cmd) (p d : List Byte) (s : State), let bus := arg p 0x10 1; let first := arg p 0x11 1; let n := arg p 0x12 1
    let l := scriptArgs n d
    Accepted s c 0x31 (8 * n) [bus / 4] [] → bus ≤ 7 → first ≤ 127 → n ≠ 0 → first + n ≤ 128 →
    ((∃ e ∈ l, e.anchor = 7) → Refused (.rffeScriptLoad c p d) s c 0x31 St.BAD_PARAM 0x08) ∧
    ((∀ e ∈ l, e.anchor ≠ 7) →
      (s.scriptOver bus first l = true → Refused (.rffeScriptLoad c p d) s c 0x31 St.CAPACITY 0) ∧
      (s.scriptOver bus first l = false → Replies (.rffeScriptLoad c p d) s c 0x31 (fun _ => {}) [.frontEnd, .faults] [] fun u =>
        (∀ i < n, tget (fun _ => none) u.scripts (bus * 128 + first + i) = some (scriptArg (d.drop (8 * i)))) ∧
        (∀ k, k < bus * 128 + first ∨ bus * 128 + first + n ≤ k → tget (fun _ => none) u.scripts k = tget (fun _ => none) s.scripts k) ∧
        u.sched = s.sched ∧ u.fe = s.fe ∧ ∀ i < n, u.isSafe 9 (bus * 128 + first + i) = false))) ∧
  (∀ (c : Cmd) (p : List Byte) (got : List Byte) (s : State), let bus := arg p 0x10 1; let q := arg p 0x12 1
    let w := (argBytes p 0x18 16).map (·.toNat); let n := arg p 0x16 1
    bus ≤ 7 → arg p 0x11 1 ≤ 15 → q ≤ 7 → argB p 0x13 0 = false →
    (∀ (fails : Fin 4) (out : List Nat), Accepted s c 0x32 0 [bus / 4] (groupDoms [bus]) →
      q = 0 ∧ out = [nth w 0 0 % 128] ∨ q = 1 ∧ out = w.take 1 ∨ q = 3 ∧ 1 ≤ n ∧ n ≤ 16 ∧ out = w.take n ∨
        q = 5 ∧ 1 ≤ n ∧ n ≤ 8 ∧ out = w.take n ∨ q = 7 ∧ out = [arg p 0x17 1, nth w 0 0] →
      Replies (.rffeXfer c p fails got) s c 0x32 (fun _ => {}) [.log] [] fun u =>
        u.sent = .rffe bus (arg p 0x11 1) q (arg p 0x14 2) out :: s.sent) ∧
    (∀ (fails : Fin 4) (k : Nat), Accepted s c 0x32 k [bus / 4] (groupDoms [bus]) → arg p 0x11 1 ≠ 0 →
      q = 2 ∧ k = 1 ∨ q = 4 ∧ 1 ≤ n ∧ n ≤ 16 ∧ k = n ∨ q = 6 ∧ 1 ≤ n ∧ n ≤ 8 ∧ k = n →
      (fails ≠ 3 → Replies (.rffeXfer c p fails got) s c 0x32 (fun _ => { data := fitBytes k got }) [.log] [(Rg.C_RFFE_PARITY (bus / 4)).off] fun u =>
        u.sent = .rffe bus (arg p 0x11 1) q (arg p 0x14 2) [] :: s.sent ∧
        u.raw (Rg.C_RFFE_PARITY (bus / 4)) = min (s.raw (Rg.C_RFFE_PARITY (bus / 4)) + fails.val) (2 ^ (Rg.C_RFFE_PARITY (bus / 4)).w - 1)) ∧
      (fails = 3 → ∃ u : State, exec (.rffeXfer c p fails got) s = .next (u.refuse c 0x32 St.RFFE_PARITY 0) ∧
        Only [.log] [(Rg.C_RFFE_PARITY (bus / 4)).off] (s.entered c 0x32) u ∧
        u.raw (Rg.C_RFFE_PARITY (bus / 4)) = min (s.raw (Rg.C_RFFE_PARITY (bus / 4)) + 3) (2 ^ (Rg.C_RFFE_PARITY (bus / 4)).w - 1)))) ∧
  (∀ (c : Cmd) (p : List Byte) (fails : Fin 4) (got : List Byte) (s : State), let bus := arg p 0x10 1
    Accepted s c 0x32 0 [bus / 4] (groupDoms [bus]) → bus ≤ 7 → arg p 0x11 1 ≤ 15 → arg p 0x12 1 = 0 → argB p 0x13 0 = true →
    (s.schedule ≠ none → Replies (.rffeXfer c p fails got) s c 0x32 (fun _ => {}) groupParts groupRegs fun u => (u.group bus).retune = true) ∧
    (s.schedule = none → (s.group bus).heat = 0 → Replies (.rffeXfer c p fails got) s c 0x32 (fun _ => {}) groupParts groupRegs fun u =>
      (u.group bus).need = max (s.group bus).need 1))

/-- BIAS_SET, BIAS_READ, BIAS_BOOT_STORE, BIAS_OWNER, MON_INJECT, MON_TEST, SLOT_BIND, IMAGE_LOAD, NV_LOAD. A bias
record is BUSY while a range change is under way, NOT_READY for a range change without the twin; else DRIVE clear
undrives, a range change moves the output to PARK in the old span and into CHANGEOVER once it is there, BOOT and LIVE
become LIVE with the record and slew to its code, an UNDRIVEN output drives. BIAS_READ reports record, state and
readback; the boot record goes to the store; BIAS_OWNER sets a range. MON_INJECT of a channel of the round needs no
round yet or test mode; it and MON_TEST join the injected queue of at most 16. SLOT_BIND needs an image of the service
in every half named. An image is BAD_IMAGE, or without room CAPACITY, or BUSY; else its writing begins. A store record
is refused with LEN_RANGE or BAD_PARAM, or queued on its half. (13_monitor_bias_thermal R371, 13_monitor_bias_thermal
R376, 13_monitor_bias_thermal R380, 13_monitor_bias_thermal R381, 13_monitor_bias_thermal R382, 13_monitor_bias_thermal
R385, 11_adaptation_engines R331, 11_adaptation_engines R334, 18_startup_store R521). -/
def Obligations.UnitCommands : Prop :=
  (∀ (c : Cmd) (p : List Byte) (s : State), let r := biasArg p; let b := s.biasOut r.output
    Accepted s c 0x33 0 [outputHalf r.output] (groupDoms [outputGroup r.output]) →
      mayAct (s.biasOwner r.output) (fromHost c.route) = true →
    (∀ d, s.biasBad r = some d → Refused (.biasSet c p) s c 0x33 St.BAD_PARAM d) ∧
    (s.biasBad r = none →
      (b.state = 3 ∨ b.pend ≠ none → Refused (.biasSet c p) s c 0x33 St.BUSY 0) ∧
      (b.state ≠ 3 → b.pend = none →
        (rangeChange b r = true → b.twinRet = true ∨ tget (fun _ => false) s.rel.onTwin r.output = true →
          Refused (.biasSet c p) s c 0x33 St.NOT_READY 0) ∧
        (rangeChange b r = false ∨ (b.twinRet = false ∧ tget (fun _ => false) s.rel.onTwin r.output = false) →
          Replies (.biasSet c p) s c 0x33 (fun _ => {}) [.bias, .faults] [] fun u =>
            let v := u.biasOut r.output
            (∀ k, k ≠ r.output → u.biasOut k = s.biasOut k) ∧
            (r.drive = false → v.state = 0 ∧ v.car = r) ∧
            (rangeChange b r = true → v.pend = some r ∧ v.car = b.car ∧ v.code = spanCode b.car.span r.park ∧
              v.state = if v.slewing s.time.now = true then b.state else 3) ∧
            (rangeChange b r = false → r.drive = true →
              (b.state = 1 ∨ b.state = 2 → v.state = 2 ∧ v.car = r ∧ v.code = (if r.pulse then b.code else r.tx) ∧
                v.frm = b.out s.time.now ∧ v.chg = s.time.now) ∧
              (b.state = 0 → (s.monOf (outputHalf r.output)).auxOut = false → tget (fun _ => false) s.rel.biasDead r.output = false →
                v.state = 2 ∧ v.car = r ∧ (r.pulse = false → v.code = r.tx)) ∧
              (b.state = 4 ∨ b.state = 5 → s.isSafe 7 r.output = false → v = { b with car := r, ext := false })))))) ∧
  (∀ (c : Cmd) (p : List Byte) (s : State), let n := arg p 0x10 2; n ≤ 135 → mayAct (s.biasOwner n) (fromHost c.route) = true →
    (Accepted s c 0x34 16 [outputHalf n] [] →
      Replies (.biasRead c p) s c 0x34 (fun _ => { r0 := (s.biasOut n).state, r1 := argInt (s.biasOut n).readback, data := biasBytes (s.biasOut n).car }) [] [] fun _ => True) ∧
    (Accepted s c 0x35 0 [0, 1] [] → arg p 0x12 1 ≤ 5 → parkOut (arg p 0x12 1) (argS p 0x16 2) = false →
      Begins (.biasBootStore c p) s c 0x35 (.store (outputHalf n) 0x20 n) [.store] [] fun u =>
        ∃ j, u.nvQueue (outputHalf n) = s.nvQueue (outputHalf n) ++ [j] ∧ j.type = 0x20 ∧ j.index = n ∧ j.left = s.nvCopiesOf (outputHalf n) 0x20 ∧
          j.body = leBytes 1 (arg p 0x12 1) ++ leBytes 1 (b2n (argB p 0x13 0)) ++ argBytes p 0x14 2 ++ argBytes p 0x16 2 ++ zeros 2)) ∧
  (∀ (c : Cmd) (p : List Byte) (s : State), let first := arg p 0x10 2; let n := arg p 0x12 2; let o := arg p 0x14 1
    Accepted s c 0x36 0 ((List.range n).map fun i => outputHalf (first + i)) [] → first ≤ 135 → n ≠ 0 → first + n ≤ 136 → o ≤ 2 →
    Replies (.biasOwner c p) s c 0x36 (fun _ => {}) [.bias] [] fun u =>
      ∀ k, u.biasOut k = if first ≤ k ∧ k < first + n then { s.biasOut k with owner := some o } else s.biasOut k) ∧
  (∀ (c : Cmd) (p : List Byte) (s : State), let h := arg p 0x10 1; let ch := arg p 0x11 1; h ≤ 1 →
    (Accepted s c 0x37 0 [h] [] → ch ≤ 28 ∨ 32 ≤ ch ∧ ch ≤ 191 → (c.timed = true → stampOk s.muRef (argStamp p 0x14) = true) →
      (ch < 26 → (s.monOf h).noRound = false → s.on Rg.CFG_STAT_TEST = false → Refused (.monInject c p) s c 0x37 St.NOT_READY 0) ∧
      (26 ≤ ch ∨ (s.monOf h).noRound = true ∨ s.on Rg.CFG_STAT_TEST = true →
        (16 ≤ (s.monOf h).inj.length → Refused (.monInject c p) s c 0x37 St.BUSY 0) ∧
        ((s.monOf h).inj.length < 16 → Begins (.monInject c p) s c 0x37 (.inject h ch c.timed) [.monitor] [] fun u =>
          u.monOf h = { s.monOf h with inj := (s.monOf h).inj ++ [⟨ch, if c.timed then some (countOf s.muRef (argStamp p 0x14)) else none, 0⟩] } ∧
          u.monOf (1 - h) = s.monOf (1 - h) ∧ u.sens = s.sens))) ∧
    (Accepted s c 0x38 0 [h] [] →
      (isExternal ch = false → Refused (.monTest c p) s c 0x38 St.BAD_PARAM 0x11) ∧
      (isExternal ch = true → 16 ≤ (s.monOf h).inj.length → Refused (.monTest c p) s c 0x38 St.BUSY 0) ∧
      (isExternal ch = true → (s.monOf h).inj.length < 16 → Begins (.monTest c p) s c 0x38 (.monTest h ch) [.monitor] [] fun u =>
        (u.monOf h).inj = (s.monOf h).inj ++ [⟨ch, none, 2⟩] ∧ u.monOf (1 - h) = s.monOf (1 - h) ∧ u.sens = s.sens))) ∧
  (∀ (c : Cmd) (p : List Byte) (s : State), let n := arg p 0x10 1 % 4; let hs := bindHalves p
    Accepted s c 0x40 0 hs [] → s.on Rg.ENG_CFG_USER_EN = true → hs ≠ [] →
    ((∃ h ∈ hs, ∀ i, (s.slotOf h n).img = some i → i.service ≠ arg p 0x12 1) → Refused (.slotBind c p) s c 0x40 St.BAD_PARAM 0x12) ∧
    ((∀ h ∈ hs, ∃ i, (s.slotOf h n).img = some i ∧ i.service = arg p 0x12 1) →
      (argB p 0x11 0 = true → arg p 0x1C 2 ≠ 0) →
      Replies (.slotBind c p) s c 0x40 (fun _ => {}) [.engines] [Rg.ENG_STAT_SLOTS_H0.off, Rg.ENG_STAT_SLOTS_H1.off] fun u =>
        (∀ h ∈ hs, u.slotOf h n = { s.slotOf h n with bound := if argB p 0x11 0 then some ⟨arg p 0x12 1, arg p 0x13 1, arg p 0x14 8, arg p 0x1C 2⟩ else none }) ∧
        ∀ h < 2, ∀ k < 4, h ∉ hs ∨ k ≠ n → u.slotOf h k = s.slotOf h k)) ∧
  (∀ (c : Cmd) (p d : List Byte) (s : State), let hm := arg p 0x10 1 % 4; let hs := maskHalves hm
    let slot := if imgUser d then arg p 0x11 1 else 0xFF
    Accepted s c 0x62 0x40 [0, 1] (hs.map fun h => (h, 1)) → hm ≠ 0 → imgUser d = false ∨ arg p 0x11 1 ≤ 3 →
    (imageOk (s.raw Rg.ENG_FWVER_FW_VERSION) d = false → Refused (.imageLoad c p d) s c 0x62 St.BAD_IMAGE 0) ∧
    (imageOk (s.raw Rg.ENG_FWVER_FW_VERSION) d = true →
      (imgUser d = true → (∃ h ∈ hs, s.noRoom h slot d = true) → Refused (.imageLoad c p d) s c 0x62 St.CAPACITY 0) ∧
      (imgUser d = false ∨ (∀ h ∈ hs, s.noRoom h slot d = false) →
        ((∃ x ∈ s.imgLoads, x.slot = slot ∧ ∃ h ∈ hs, h ∈ maskHalves x.halves) → Refused (.imageLoad c p d) s c 0x62 St.BUSY 0) ∧
        ((∀ x ∈ s.imgLoads, x.slot = slot → ∀ h ∈ hs, h ∉ maskHalves x.halves) →
          Begins (.imageLoad c p d) s c 0x62 (.image hm slot) [.engines, .store] [] fun u =>
            u.imgLoads = s.imgLoads ++ [⟨hm, slot, d.take (imgLen d)⟩] ∧ u.slots = s.slots ∧ u.eng = s.eng ∧
            (imgUser d = true ∨ s.locked = false → u.nv = s.nv))))) ∧
  (∀ (c : Cmd) (p d : List Byte) (s : State), let type := arg p 0x10 2; let n := arg p 0x12 2; let h := nvHome type n
    Accepted s c 0x63 0 [0, 1] [] → nvTypeOk type (s.on Rg.CFG_STAT_TEST) = true → (if type = 0x20 then n ≤ 135 else n = 0) →
    (type = 2 → d.length ≠ 4 → Refused (.nvLoad c p d) s c 0x63 St.LEN_RANGE 0x04) ∧
    (bodyRefusal type d = St.LEN_RANGE → Refused (.nvLoad c p d) s c 0x63 St.LEN_RANGE 0x04) ∧
    (bodyRefusal type d = St.BAD_PARAM → Refused (.nvLoad c p d) s c 0x63 St.BAD_PARAM 0x08) ∧
    (bodyRefusal type d = St.OK →
      ((∃ x ∈ s.cmd.longs, x.what = .store h type n) → Refused (.nvLoad c p d) s c 0x63 St.BUSY 0) ∧
      ((∀ x ∈ s.cmd.longs, x.what ≠ .store h type n) →
        Begins (.nvLoad c p d) s c 0x63 (.store h type n) [.store] [] fun u => (∃ j ∈ u.nvQueue h, j.type = type ∧ j.index = n ∧ j.body = d) ∧
          (u.nvQueue h).length = (s.nvQueue h).length + 1 ∧ u.nvQueue (1 - h) = s.nvQueue (1 - h))))

/-- CAPTURE_SET, CAPTURE_ARM, CAPTURE_STOP, CAPTURE_TRIGGER, CAPTURE_READ, CAPTURE_OWNER. A capture record applies from
the next arm, or is refused for the memory of its half. An arm refuses a short buffer, the write budget, exclusive mode
that is not allowed, a path that does not run, a context that is not IDLE; else the context is in FILL. A stop returns
it to IDLE, or lets a record being delivered finish. A trigger needs TRIG COMMAND; from FILL or READY it starts RECORD
and reports its sample, in RECORD or DELIVER it counts as missed. A read needs DEST HOLD and a record in DELIVER,
returns it with its number and releases it. (12_capture R351, 12_capture R352, 12_capture R353, 12_capture R354,
12_capture R355, 12_capture R356, 12_capture R357, 15_commands_summary R440). -/
def Obligations.CaptureCommands : Prop :=
  (∀ (c : Cmd) (p : List Byte) (s : State), let k := ctxArg p; let r := captureArg p
    Accepted s c 0x41 0 [k / 4] [] → mayAct (s.capOwner k) (fromHost c.route) = true →
    (∀ d, s.captureBad p = some d → Refused (.captureSet c p) s c 0x41 St.BAD_PARAM d) ∧
    (s.captureBad p = none → let used := ((List.range 4).map fun i => if i = k % 4 then 0 else s.capBuf (4 * (k / 4) + i)).sum
      (s.capRoom (k / 4) < used + r.bufLen → Refused (.captureSet c p) s c 0x41 St.CAPACITY 0) ∧
      (used + r.bufLen ≤ s.capRoom (k / 4) → Replies (.captureSet c p) s c 0x41 (fun _ => {}) [.captures] [] fun u =>
        u.capOf k = { s.capOf k with next := some r } ∧ u.capNum = s.capNum ∧ ∀ j, j ≠ k → u.capOf j = s.capOf j))) ∧
  (∀ (c : Cmd) (p : List Byte) (s : State), let k := ctxArg p
    Accepted s c 0x42 0 [k / 4] [] → mayAct (s.capOwner k) (fromHost c.route) = true →
    (s.capRec k = none → Refused (.captureArm c p) s c 0x42 St.NOT_READY 0) ∧
    (∀ r, s.capRec k = some r →
      let no (st : Nat) : Prop :=
        exec (.captureArm c p) s = .next (((s.entered c 0x42).bump (Rg.C_ARM_REFUSED (k / 4)) 1).refuse c 0x42 st 0)
      (r.bufLen < (if 0 < r.avg then 8 else 4) * (r.pre + r.post) → no St.LEN_RANGE) ∧
      ((if 0 < r.avg then 8 else 4) * (r.pre + r.post) ≤ r.bufLen →
        (s.overBudget (k / 4) k r = true → no St.CAPACITY) ∧
        (s.overBudget (k / 4) k r = false → r.excl = true → s.on Rg.CAP_CFG_EXCL_ALLOW = false →
          no St.BAD_PARAM) ∧
        (s.overBudget (k / 4) k r = false → r.excl = false → r.dest ≠ 3 →
          (s.pathIn r.path.val = false → no St.NOT_READY) ∧
          (s.pathIn r.path.val = true → s.groupRun (r.path.val / 8) = true → s.dom (k / 4) 0 = 0 →
            (s.capState k ≠ 0 → no St.BUSY) ∧
            (s.capState k = 0 → r.avg = 0 → Replies (.captureArm c p) s c 0x42 (fun _ => {}) [.captures] [Rg.CAP_STAT_CTX_STATE.off] fun u =>
              u.capState k = 1 ∧ (u.capOf k).cur = some r ∧ (u.capOf k).next = none ∧ (u.capOf k).hold = none ∧
              (u.capOf k).left = (if r.repeat_ = true then (if r.count = 0 then none else some r.count) else some 1) ∧
              ∀ j, j < 8 → j ≠ k → u.capOf j = s.capOf j ∧ u.capState j = s.capState j)))))) ∧
  (∀ (c : Cmd) (p : List Byte) (s : State), let k := ctxArg p
    Accepted s c 0x43 0 [k / 4] [] → mayAct (s.capOwner k) (fromHost c.route) = true →
    (s.capState k = 0 → Replies (.captureStop c p) s c 0x43 (fun _ => {}) [] [] fun _ => True) ∧
    (s.capState k = 4 → (s.capOf k).begun = true → (s.capOf k).done = false →
      Replies (.captureStop c p) s c 0x43 (fun _ => {}) [.captures] [] fun u =>
        u.capOf k = { s.capOf k with stop := true } ∧ ∀ j, j ≠ k → u.capOf j = s.capOf j) ∧
    (s.capState k ≠ 0 → s.capState k ≠ 4 ∨ (s.capOf k).begun = false ∨ (s.capOf k).done = true →
      Replies (.captureStop c p) s c 0x43 (fun _ => {}) [.captures] [Rg.CAP_STAT_CTX_STATE.off] fun u =>
        u.capState k = 0 ∧ (u.capOf k).hold = none ∧ (u.capOf k).cur = (s.capOf k).cur ∧ (u.capOf k).next = (s.capOf k).next ∧
        ∀ j, j < 8 → j ≠ k → u.capOf j = s.capOf j ∧ u.capState j = s.capState j)) ∧
  (∀ (c : Cmd) (p : List Byte) (s : State), let k := ctxArg p
    Accepted s c 0x44 0 [k / 4] [] → mayAct (s.capOwner k) (fromHost c.route) = true →
    (s.capState k = 0 → ∀ r, s.capRec k = some r →
      (r.trig ≠ 5 → Refused (.captureTrigger c p) s c 0x44 St.BAD_PARAM 0x10) ∧
      (r.trig = 5 → Refused (.captureTrigger c p) s c 0x44 St.NOT_READY 0)) ∧
    (s.capState k ≠ 0 → ∀ r, (s.capOf k).cur = some r →
      (r.trig ≠ 5 → Refused (.captureTrigger c p) s c 0x44 St.BAD_PARAM 0x10) ∧
      (r.trig = 5 → s.capState k = 1 ∨ s.capState k = 2 →
        Replies (.captureTrigger c p) s c 0x44 (fun _ => { at_ := some (stampOf s.muRef s.time.count) }) [.captures] [Rg.CAP_STAT_CTX_STATE.off] fun u =>
          u.capState k = 3 ∧ (u.capOf k).preValid = s.capHeld k r ∧
          (∀ j, j < 8 → j ≠ k → u.capOf j = s.capOf j ∧ u.capState j = s.capState j)) ∧
      (r.trig = 5 → s.capState k = 3 ∨ s.capState k = 4 →
        Replies (.captureTrigger c p) s c 0x44 (fun _ => {}) (.captures :: eventParts) ((Rg.C_TRIG_MISSED (k / 4)).off :: eventRegs) fun u =>
          u.capOf k = { s.capOf k with missed := (s.capOf k).missed + 1 } ∧ u.capState k = s.capState k ∧
          u.raw (Rg.C_TRIG_MISSED (k / 4)) = min (s.raw (Rg.C_TRIG_MISSED (k / 4)) + 1) (2 ^ (Rg.C_TRIG_MISSED (k / 4)).w - 1)))) ∧
  (∀ (c : Cmd) (p : List Byte) (par : Bool) (s : State), let k := ctxArg p
    Accepted s c 0x45 0 [k / 4] [] → mayAct (s.capOwner k) (fromHost c.route) = true →
    (s.capRec k = none → Refused (.captureRead c p par) s c 0x45 St.NOT_READY 0) ∧
    (∀ q, s.capRec k = some q →
      (s.capState k = 0 → q.dest ≠ 0 → Refused (.captureRead c p par) s c 0x45 St.BAD_PARAM 0x10) ∧
      (s.capState k = 0 → q.dest = 0 → Refused (.captureRead c p par) s c 0x45 St.NOT_READY 0) ∧
      (s.capState k ≠ 0 → ∀ r, (s.capOf k).cur = some r →
        (r.dest ≠ 0 → Refused (.captureRead c p par) s c 0x45 St.BAD_PARAM 0x10) ∧
        (r.dest = 0 → s.capState k ≠ 4 → Refused (.captureRead c p par) s c 0x45 St.NOT_READY 0) ∧
        (∀ x, r.dest = 0 → s.capState k = 4 → (s.capOf k).hold = some x →
          (c.dlen < (x.bytes par).length → Refused (.captureRead c p par) s c 0x45 St.LEN_RANGE 0x04) ∧
          ((x.bytes par).length ≤ c.dlen →
            Replies (.captureRead c p par) s c 0x45 (fun _ => { r0 := x.number, data := x.bytes par }) [.captures]
              [Rg.CAP_STAT_CTX_STATE.off, (Rg.C_RECORDS (k / 4)).off, (Rg.C_CAP_PARITY (k / 4)).off] fun u =>
                (u.capOf k).hold = none ∧ (u.capOf k).records = (s.capOf k).records + 1 ∧
                u.capState k = (if r.repeat_ = true ∧ (s.capOf k).stop = false ∧ (s.capOf k).left ≠ some 1 ∧ (s.capOf k).left ≠ some 0 then 1 else 0) ∧
                (∀ j, j < 8 → j ≠ k → u.capOf j = s.capOf j ∧ u.capState j = s.capState j)))))) ∧
  (∀ (c : Cmd) (p : List Byte) (s : State), let k := ctxArg p; Accepted s c 0x46 0 [k / 4] [] →
    (2 < arg p 0x11 1 → Refused (.captureOwner c p) s c 0x46 St.BAD_PARAM 0x11) ∧
    (arg p 0x11 1 ≤ 2 → Replies (.captureOwner c p) s c 0x46 (fun _ => {}) [.captures] [] fun u =>
      u.capOf k = { s.capOf k with owner := some (arg p 0x11 1) } ∧ ∀ j, j ≠ k → u.capOf j = s.capOf j))

/-- TSYNC pulses, comparison of the counters, rebuilding the counter. A SET whose anchor has not come 2 ms after it is
ignored and counted. A TSYNC edge while TSYNC is off, of the other polarity, or while the counter is invalid does
nothing. An error above 1 us waits for the next pulse; one that differs from the pulse before it by more than 10 ns is
counted as rejected and waits in turn; a small error is applied at once; in split mode a pulse corrects each half's own
count. A difference of H1's copy is counted once and H1 loads H0's count at a subframe boundary; in split mode neither
happens. At rebuild the count is A0 + floor(n K), or invalid when the AON count was lost. At coast expiry count and K
are saved and the counter stops. (16_time_power R449, 16_time_power R451, 16_time_power R452, 16_time_power R454,
16_time_power R468, 16_time_power R469). -/
def Obligations.AirTimeCorrections : Prop :=
  (∀ (h : Half) (s : State),
    (s.waitingSet h.val = none → Runs (.setAnchorTimeout h) s fun t => t = s) ∧
    (∀ x, s.waitingSet h.val = some x → s.time.now < x.got + 983040 → Runs (.setAnchorTimeout h) s fun t => t = s) ∧
    (∀ x, s.waitingSet h.val = some x → x.got + 983040 ≤ s.time.now →
      Runs (.setAnchorTimeout h) s fun t => t.waitingSet h.val = none ∧
      t.raw (Rg.C_SET_IGNORED h.val) = min (s.raw (Rg.C_SET_IGNORED h.val) + 1) (2 ^ (Rg.C_SET_IGNORED h.val).w - 1) ∧ Only [.time] [(Rg.C_SET_IGNORED h.val).off] s t)) ∧
  (∀ (rising : Bool) (sub : Nat) (s : State),
    (s.f Rg.AT_CFG_TSYNC_MODE = 0 ∨ rising = s.on Rg.AT_CFG_TSYNC_POL ∨ s.time.valid = false →
      Runs (.tsyncPulse rising sub) s fun t => t = s) ∧
    (s.f Rg.AT_CFG_TSYNC_MODE ≠ 0 → rising = !s.on Rg.AT_CFG_TSYNC_POL → s.time.valid = true → s.split = false →
      (s.lastTsync 0 = none → 1000000 < (s.tsyncError 0 sub).natAbs → Runs (.tsyncPulse rising sub) s fun t =>
        t.lastTsync 0 = some (s.tsyncError 0 sub) ∧ t.lastTsync 1 = s.lastTsync 1 ∧ t.time.count = s.time.count ∧
        t.time.corr = s.time.corr ∧ Only [.time] [] s t) ∧
      (∀ p, s.lastTsync 0 = some p → 10000 < (s.tsyncError 0 sub - p).natAbs → 1000000 < (s.tsyncError 0 sub).natAbs →
        Runs (.tsyncPulse rising sub) s fun t => t.lastTsync 0 = some (s.tsyncError 0 sub) ∧ t.time.count = s.time.count ∧
          t.time.corr = s.time.corr ∧
          t.raw (Rg.C_TSYNC_REJECTED 0) = min (s.raw (Rg.C_TSYNC_REJECTED 0) + 1) (2 ^ (Rg.C_TSYNC_REJECTED 0).w - 1) ∧
          Only (.time :: eventParts) ((Rg.C_TSYNC_REJECTED 0).off :: eventRegs) s t) ∧
      ((s.lastTsync 0 = none ∧ (s.tsyncError 0 sub).natAbs ≤ 1000000 ∨
          ∃ p, s.lastTsync 0 = some p ∧ (s.tsyncError 0 sub - p).natAbs ≤ 10000) →
        s.corrKind (s.tsyncError 0 sub) = 1 → Runs (.tsyncPulse rising sub) s fun t =>
          (∃ c, t.time.corr = some c ∧ c.ps = s.tsyncError 0 sub ∧ c.step = false ∧ c.src = 2) ∧
          t.lastTsync 0 = none ∧ (s.time.corr = none → t.time.count = s.time.count) ∧
          t.raw Rg.AT_STAT_SLEWING = 1 ∧ t.raw Rg.AT_STAT_LAST_SRC = 2 ∧ t.raw (Rg.C_TSYNC_APPLIED 0) = min (s.raw (Rg.C_TSYNC_APPLIED 0) + 1) (2 ^ (Rg.C_TSYNC_APPLIED 0).w - 1) ∧
          KeepsBut (.time :: .clocks :: eventParts) s t)) ∧
    (s.f Rg.AT_CFG_TSYNC_MODE ≠ 0 → rising = !s.on Rg.AT_CFG_TSYNC_POL → s.time.valid = true → s.split = true →
      s.lastTsync 0 = none → s.lastTsync 1 = none → 1000000 < (s.tsyncError 0 sub).natAbs →
      (s.tsyncError 1 sub).natAbs ≤ 1000000 → Runs (.tsyncPulse rising sub) s fun t =>
        t.lastTsync 0 = some (s.tsyncError 0 sub) ∧ t.lastTsync 1 = none ∧ t.time.count = s.time.count ∧
        t.time.h1Diff = s.time.h1Diff + s.tsyncError 1 sub * 192 / 390625 ∧ t.raw (Rg.C_TSYNC_APPLIED 1) = min (s.raw (Rg.C_TSYNC_APPLIED 1) + 1) (2 ^ (Rg.C_TSYNC_APPLIED 1).w - 1) ∧
        Only (.time :: eventParts) ((Rg.C_TSYNC_APPLIED 1).off :: eventRegs) s t)) ∧
  (∀ (diff : Int) (s : State),
    (s.split = true ∨ diff = 0 → Runs (.atCompare diff) s fun t => Only [.d2d] [] s t) ∧
    (s.split = false → diff ≠ 0 →
      (s.time.h1Reload = false → Runs (.atCompare diff) s fun t =>
        t.time = { s.time with h1Diff := diff, h1Reload := true } ∧ t.raw (Rg.C_AT_MISMATCH 1) = min (s.raw (Rg.C_AT_MISMATCH 1) + 1) (2 ^ (Rg.C_AT_MISMATCH 1).w - 1) ∧
        Only (.time :: .d2d :: eventParts) ((Rg.C_AT_MISMATCH 1).off :: eventRegs) s t) ∧
      (s.time.h1Reload = true → Runs (.atCompare diff) s fun t =>
        t.time = { s.time with h1Diff := diff } ∧ Only [.time, .d2d] [] s t)) ∧
    (s.split = false → s.time.h1Reload = true → s.time.count % Config.ticksPerSubframe = 0 →
      Runs .h1CounterReload s fun t => t.time = { s.time with h1Diff := 0, h1Reload := false } ∧ Only [.time] [] s t) ∧
    (s.split = true ∨ s.time.h1Reload = false ∨ s.time.count % Config.ticksPerSubframe ≠ 0 →
      Runs .h1CounterReload s fun t => t = s)) ∧
  (∀ (n : Nat) (lost : Bool) (s : State),
    (s.time.saved = none ∨ s.refState ≠ 1 ∨ s.time.running = true → Runs (.counterRebuild n lost) s fun t => t = s) ∧
    (∀ a0 k, s.time.saved = some (a0, k) → s.refState = 1 → s.time.running = false →
      (Runs (.counterRebuild n false) s fun t =>
        t.time.count = (a0 + n * k.toNat / 2 ^ 18) % Config.ticksPerCycle ∧ t.time.running = true ∧ t.time.saved = none ∧
        t.time.valid = s.time.valid ∧ t.raw Rg.AT_STAT_LAST_SRC = 3 ∧ t.raw (Rg.C_REBUILDS 0) = min (s.raw (Rg.C_REBUILDS 0) + 1) (2 ^ (Rg.C_REBUILDS 0).w - 1) ∧
        Only (.time :: eventParts) ([(Rg.C_REBUILDS 0).off, Rg.AT_STAT_UNC.off, (Rg.C_TX_HOLDS 0).off] ++ eventRegs) s t) ∧
      Runs (.counterRebuild n true) s fun t => t.time.valid = false ∧ t.time.running = true ∧ t.raw Rg.AT_STAT_UNC = 0xFFFF ∧
        t.time.count = s.time.count ∧
        Only (.time :: eventParts) ([Rg.AT_STAT_UNC.off, (Rg.C_TX_HOLDS 0).off] ++ eventRegs) s t)) ∧
  (∀ s : State, (s.refState ≠ 5 ∨ s.time.saved ≠ none → Runs .coastCountSave s fun t => t = s) ∧
    (s.refState = 5 → s.time.saved = none → Runs .coastCountSave s fun t =>
      t.time.saved = some (s.time.count, t.reg 0x0810) ∧ t.time.savedCoast = true ∧ t.time.running = false ∧
      t.time.count = s.time.count ∧ Only [.time, .free] [0x0810] s t))

/-- Entries to deeper states. A domain that has lost its last vote and hold starts to drop. PREPARE starts one entry at
a time, with the target and the domains of the plan, and shows in ENTRY; a retry does the same, no sooner than its delay
allows. A block without an answer in 50 us refuses with reason 5. COMMIT moves the domains when every block has agreed
and counts the entry; SLEEP stops the half's clocks, DEEP the counter and the reference PLL, OFF makes the counter
invalid. A refused entry leaves the domains where they are and is counted in ABORTS. (16_time_power R459, 16_time_power
R460, 16_time_power R461, 16_time_power R462, 16_time_power R463, 16_time_power R468, 16_time_power R470). -/
def Obligations.PowerEntries : Prop :=
  (∀ (h : Half) (d : Fin 8) (s : State),
    (s.domIn h.val d.val = true → s.dom h.val d.val ≤ 1 → s.wanted h.val d.val = false → Runs (.domainDrop h d) s fun t =>
      t.entryDue h.val = true ∧ Only [.time] [] s t) ∧
    (s.domIn h.val d.val = false ∨ 1 < s.dom h.val d.val ∨ s.wanted h.val d.val = true → Runs (.domainDrop h d) s fun t => t = s)) ∧
  (∀ (h : Half) (l : List (Nat × Nat)) (s : State), ∀ i ∈ [Instr.powerEntryPrepare h l, .powerEntryRetry h],
    (s.entryDue h.val = false ∨ (s.entryPlan h.val).2.2 = [] ∨ s.halfEntry 0 ≠ none ∨ s.halfEntry 1 ≠ none →
      Runs i s fun t => t = s) ∧
    (s.entryDue h.val = true → (s.entryPlan h.val).2.2 ≠ [] → s.halfEntry 0 = none → s.halfEntry 1 = none →
        i = .powerEntryPrepare h l ∨ tget (fun _ => 0) s.time.retryAt h.val ≤ s.time.now → Runs i s fun t =>
        (∃ e, t.halfEntry (s.entryPlan h.val).1 = some e ∧ e.target = (s.entryPlan h.val).2.1 ∧ e.at_ = s.time.now ∧
          e.moves = (s.entryPlan h.val).2.2 ∧
          (∀ m ∈ e.moves, m.1 = 0 → t.raw Rg.PM_STAT0_ENTRY = 1) ∧ (∀ m ∈ e.moves, m.1 = 1 → t.raw Rg.PM_STAT1_ENTRY = 1)) ∧
        (∀ k < 2, ∀ d < 8, t.dom k d = s.dom k d) ∧
        Only [.time] [Rg.PM_STAT0_ENTRY.off, Rg.PM_STAT1_ENTRY.off] s t)) ∧
  (∀ (h : Half) (s : State), s.time.now < tget (fun _ => 0) s.time.retryAt h.val →
    Runs (.powerEntryRetry h) s fun t => t = s) ∧
  (∀ (h : Half) (b : Nat) (s : State), (∀ k < 2, ∀ e, s.halfEntry k = some e → s.time.now < e.at_ + 24576) →
    Runs (.prepareAnswerTimeout h b) s fun t => t = s) ∧
  (∀ (h : Half) (b : Nat) (e : EntryRec) (s : State), s.halfEntry h.val = some e → e.refusal = none →
      (∃ m ∈ e.moves, m.1 = h.val) → e.at_ + 24576 ≤ s.time.now → Runs (.prepareAnswerTimeout h b) s fun t =>
    t.halfEntry h.val = some { e with refusal := some (b, 5, h.val) } ∧ Only [.time] [] s t) ∧
  (∀ (h : Half) (s : State),
    (s.halfEntry h.val = none → Runs (.powerEntryCommit h) s fun t => t = s) ∧
    (∀ e b reason k, s.halfEntry h.val = some e → e.refusal = some (b, reason, k) → k < 2 →
      Runs (.powerEntryCommit h) s fun t =>
        t.halfEntry h.val = none ∧ (∀ j < 2, ∀ d < 8, t.dom j d = s.dom j d) ∧ t.raw (Rg.C_ABORTS k) = min (s.raw (Rg.C_ABORTS k) + 1) (2 ^ (Rg.C_ABORTS k).w - 1) ∧
        (reason ≠ 6 → ∀ j < 2, t.entryDue j = s.entryDue j) ∧
        (reason = 6 → ∀ m ∈ e.moves, m.1 < 2 → t.entryDue m.1 = false) ∧
        Only (.time :: eventParts) ([Rg.PM_STAT0_ENTRY.off, Rg.PM_STAT1_ENTRY.off, (Rg.C_ABORTS k).off] ++ eventRegs) s t) ∧
    (∀ e, s.halfEntry h.val = some e → e.refusal = none →
      (∀ d ∈ [0, 1, 6, 7], e.target = 1 → e.moves = [(h.val, d, 1)] → Runs (.powerEntryCommit h) s fun t =>
        t.dom h.val d = 1 ∧ t.halfEntry h.val = none ∧
        (∀ j < 2, ∀ x < 8, ¬(j = h.val ∧ x = d) → t.dom j x = s.dom j x) ∧ t.raw (Rg.C_ENTRIES h.val) = min (s.raw (Rg.C_ENTRIES h.val) + 1) (2 ^ (Rg.C_ENTRIES h.val).w - 1) ∧
        Only (.time :: eventParts) ([Rg.PM_STAT0_ENTRY.off, Rg.PM_STAT1_ENTRY.off, (Rg.C_ENTRIES h.val).off] ++ eventRegs) s t) ∧
      (e.target = 2 → e.moves = [(h.val, 0, 2)] → Runs (.powerEntryCommit h) s fun t => t.dom h.val 0 = 2 ∧
        t.raw (if h.val = 0 then Rg.CLK_STAT_ARR_H0 else Rg.CLK_STAT_ARR_H1) = 0 ∧
        t.raw (if h.val = 0 then Rg.CLK_STAT_ENG_H0 else Rg.CLK_STAT_ENG_H1) = 0 ∧ t.time.running = s.time.running) ∧
      (e.target = 3 → Runs (.powerEntryCommit h) s fun t => t.time.running = false ∧ t.refState = 0 ∧
        t.time.valid = s.time.valid ∧ ∃ k, t.time.saved = some (s.time.count, k)) ∧
      (e.target = 4 → Runs (.powerEntryCommit h) s fun t => t.time.running = false ∧ t.time.valid = false ∧
        t.raw Rg.AT_STAT_UNC = 0xFFFF ∧ t.linesOn = false)))

/-- Wakes, timed votes, wake holds. In thermal shutdown nothing wakes. A wake source puts the domains it names, below
RUN, into WAKING under a WAKE hold, and counts the wake; a host access and a host write due wake HOSTIF, an SOP block
the LINK domain of its half in IDLE, WAKE_N the domains of WAKEMASK, and in OFF it ends the reset. A waking domain
enters RUN when its delay has run, from DEEP only with the reference PLL locked; a late lock is counted. A timed vote
wakes its domains without a WAKE hold and is cast at its time as the SCHEDULE client's. The WAKE holds of domains end
once they have been in RUN for WAKE_HOLD. (16_time_power R457, 16_time_power R458, 16_time_power R464, 16_time_power
R465, 13_monitor_bias_thermal R397). -/
def Obligations.WakesAndHolds : Prop :=
  (∀ (h : Half) (s : State), s.shutdown = true →
    (s.boot.conds.contains 3 = false → Runs .wakeN s fun t => t = s) ∧ (Runs .hostifWake s fun t => t = s) ∧
    (Runs .hostWriteDueWake s fun t => t = s) ∧ Runs (.sopWake h) s fun t => t = s) ∧
  (∀ s : State, s.shutdown = false → 1 ≤ s.dom 0 7 → s.dom 0 7 ≤ 3 →
    ∀ i ∈ [Instr.hostifWake, .hostWriteDueWake], i = .hostifWake ∨ s.host.due ≠ [] → Runs i s fun t =>
      t.dom 0 7 = 5 ∧ tget (fun _ => false) t.time.wakeHold 7 = true ∧
      (tget (fun _ => (0, 0)) t.time.wakeFrom 7).1 = s.dom 0 7 ∧ t.raw (Rg.C_WAKES 0) = min (s.raw (Rg.C_WAKES 0) + 1) (2 ^ (Rg.C_WAKES 0).w - 1) ∧
      Only (.time :: eventParts) ([0x0828, (Rg.C_WAKES 0).off] ++ eventRegs) s t) ∧
  (∀ (h : Half) (s : State),
    (s.dom h.val 6 ≠ 1 → Runs (.sopWake h) s fun t => t = s) ∧
    (s.shutdown = false → s.dom h.val 6 = 1 → Runs (.sopWake h) s fun t => t.dom h.val 6 = 5 ∧
      tget (fun _ => false) t.time.wakeHold (8 * h.val + 6) = true ∧ t.raw (Rg.C_WAKES h.val) = min (s.raw (Rg.C_WAKES h.val) + 1) (2 ^ (Rg.C_WAKES h.val).w - 1) ∧
      Only (.time :: eventParts) ([0x0828 + 4 * h.val, (Rg.C_WAKES h.val).off] ++ eventRegs) s t)) ∧
  (∀ s : State, (s.boot.conds.contains 3 = true → Runs .wakeN s fun t => 3 ∉ t.boot.conds ∧
      (∀ c ≠ 3, (c ∈ t.boot.conds ↔ c ∈ s.boot.conds)) ∧ Only [.boot] [] s t) ∧
    (s.boot.conds.contains 3 = false → s.shutdown = false → Runs .wakeN s fun t =>
      ∀ e ∈ s.wakeMask, s.domIn e.1 e.2 = true → 1 ≤ s.dom e.1 e.2 → s.dom e.1 e.2 ≤ 3 →
        t.dom e.1 e.2 = 5 ∧ tget (fun _ => false) t.time.wakeHold (8 * e.1 + e.2) = true)) ∧
  (∀ (h : Half) (d : Fin 8) (s : State),
    (s.mayRun h.val d.val = false → Runs (.domainEnterRun h d) s fun t => t = s) ∧
    (s.mayRun h.val d.val = true → Runs (.domainEnterRun h d) s fun t => t.dom h.val d.val = 0 ∧
      (d.val = 6 → Only (.time :: .monitor :: eventParts) ((0x0828 + 4 * h.val) :: eventRegs) s t)) ∧
    (∀ k, s.mayRun h.val d.val = true → tget (fun _ => (0, 0)) s.time.wakeFrom (8 * h.val + d.val) = (3, k) →
      (49152 ≤ (s.time.now - (k + usTicks (wakeUs d.val 3))) * 100 → Runs (.wakeLateTimeout h d) s fun t =>
        t.dom h.val d.val = 0 ∧ t.raw (Rg.C_WAKE_LATE h.val) = min (s.raw (Rg.C_WAKE_LATE h.val) + 1) (2 ^ (Rg.C_WAKE_LATE h.val).w - 1)) ∧
      ((s.time.now - (k + usTicks (wakeUs d.val 3))) * 100 < 49152 → Runs (.wakeLateTimeout h d) s fun t => t = s)) ∧
    (s.mayRun h.val d.val = false → Runs (.wakeLateTimeout h d) s fun t => t = s) ∧
    (s.dom h.val d.val = 5 → (tget (fun _ => (0, 0)) s.time.wakeFrom (8 * h.val + d.val)).1 = 3 → s.refState = 0 →
      s.mayRun h.val d.val = false)) ∧
  (∀ (v : TimedVote) (s : State), s.shutdown = false → s.time.timed = [v] → v.on = true → v.doms0 = 2 → v.doms1 = 0 →
      s.dom 0 1 = 1 → ahead s.time.count v.at_ ≤ (s.wakeTicks 0 1 : Int) → Runs .timedVoteWakeStart s fun t =>
    t.dom 0 1 = 5 ∧ t.time.timed = [{ v with waking := true }] ∧ t.time.wakeHold = s.time.wakeHold ∧
    t.raw (Rg.C_WAKES 0) = min (s.raw (Rg.C_WAKES 0) + 1) (2 ^ (Rg.C_WAKES 0).w - 1) ∧ Only (.time :: eventParts) ([0x0828, (Rg.C_WAKES 0).off] ++ eventRegs) s t) ∧
  (∀ (v : TimedVote) (r : List TimedVote) (s : State), s.time.timed = v :: r →
    (s.reached v.at_ = false → Runs .timedVoteCast s fun t => t = s) ∧
    (s.reached v.at_ = true → Runs .timedVoteCast s fun t => t.time.timed = r ∧
      (∀ e ∈ v.doms, s.domIn e.1 e.2 = true → t.vote e.1 e.2 2 = v.on ∧
        ∀ c, c ≠ 2 → c < 3 → t.vote e.1 e.2 c = s.vote e.1 e.2 c) ∧
      (v.on = false → Only [.time] [0x0830, 0x0834] s t))) ∧
  (∀ (h : Half) (s : State), let done (d : Nat) : Prop := s.dom h.val d = 0 ∧
      (tget (fun _ => (0, 0)) s.time.wakeFrom (8 * h.val + d)).2 + 491520 * s.f Rg.PM_CFG_WAKE_HOLD ≤ s.time.now
    Runs (.wakeHoldExpiry h) s fun t =>
      (∀ d < domCount h.val, done d → tget (fun _ => false) t.time.wakeHold (8 * h.val + d) = false) ∧
      (∀ k, (¬∃ d < domCount h.val, k = 8 * h.val + d ∧ done d) →
        tget (fun _ => false) t.time.wakeHold k = tget (fun _ => false) s.time.wakeHold k) ∧ Only [.time] [] s t)

/-- The configuration scrub and its safe states; supervisors that diverge and restart. With the scrub off nothing
happens. Each field of which two copies agree and the third differs is counted as fixed, and a late instance of the
scrub is counted. A function whose three copies differ enters its safe state and is counted: a record of predistortion,
of a solver, of a carrier or of a script only takes its row of Table 136, a bias output is PARKED. A register other than
front-end timing takes its stored or its reset value in every RW and RWL field. A diverging supervisor stops and is
counted, and is retired on the third time within 10 s; one that runs again resumes and applies no rule of the baton
before it hears a broadcast. (17_reliability R482, 17_reliability R485, 17_reliability R496). -/
def Obligations.ConfigurationAndSupervisors : Prop :=
  (∀ (h : Half) (s : State),
    (∀ l, s.on Rg.REL_CFG_CFG_SCRUB_EN = false → Runs (.configScrub h l) s fun t => t = s) ∧
    (s.on Rg.REL_CFG_CFG_SCRUB_EN = true →
      (∀ l : List CfgCopies, (∀ x ∈ l, copiesAgree x = true) → Runs (.configScrub h l) s fun t =>
        t.raw (Rg.C_CFG_FIXED h.val) =
          min (s.raw (Rg.C_CFG_FIXED h.val) + (l.filter fun x => !(x.a == x.b && x.b == x.c)).length)
            (2 ^ (Rg.C_CFG_FIXED h.val).w - 1) ∧
        (s.paceLate 5 h.val = true → t.raw (Rg.C_CFG_SCRUB_LATE h.val) = min (s.raw (Rg.C_CFG_SCRUB_LATE h.val) + 1) (2 ^ (Rg.C_CFG_SCRUB_LATE h.val).w - 1)) ∧
        (s.paceLate 5 h.val = false → t.reg (Rg.C_CFG_SCRUB_LATE h.val).off = s.reg (Rg.C_CFG_SCRUB_LATE h.val).off) ∧
        Only [.engines] [(Rg.C_CFG_SCRUB_LATE h.val).off, (Rg.C_CFG_FIXED h.val).off] s t) ∧
      (∀ (row : Fin 10) (i a b c : Nat), a ≠ b → b ≠ c → a ≠ c → s.standalone = false →
          Runs (.configScrub h [⟨.func row i, a, b, c⟩]) s fun t =>
        t.isSafe row.val i = true ∧ t.raw (Rg.C_CFG_CORRUPT h.val) = min (s.raw (Rg.C_CFG_CORRUPT h.val) + 1) (2 ^ (Rg.C_CFG_CORRUPT h.val).w - 1) ∧
        (row.val = 0 ∨ row.val = 4 ∨ row.val = 5 ∨ row.val = 9 → Only (.faults :: .engines :: eventParts)
          ([(Rg.C_CFG_SCRUB_LATE h.val).off, (Rg.C_CFG_FIXED h.val).off, (Rg.C_CFG_CORRUPT h.val).off] ++ eventRegs) s t) ∧
        (row.val = 7 → (s.biasOut i).state ≠ 0 → (t.biasOut i).state = 4 ∧ ∀ n, n ≠ i → t.biasOut n = s.biasOut n)) ∧
      (∀ (off a b c : Nat) (r : RegRow), a ≠ b → b ≠ c → a ≠ c → regRow? off = some r → off ≠ 0x2204 → off ≠ 0x2208 →
        off ≠ 0x220C → Runs (.configScrub h [⟨.reg off, a, b, c⟩]) s fun t => t.raw (Rg.C_CFG_CORRUPT h.val) = min (s.raw (Rg.C_CFG_CORRUPT h.val) + 1) (2 ^ (Rg.C_CFG_CORRUPT h.val).w - 1) ∧
          (∀ f ∈ r.fields, f.acc = .rw ∨ f.acc = .rwl →
            fget (t.reg off) f.lo f.w = fget ((s.recordReg off).getD (regReset off)) f.lo f.w) ∧ KeepsBut (.engines :: eventParts) s t))) ∧
  (∀ (h : Half) (s : State),
    (s.supDown h.val = true → Runs (.supervisorDiverge h) s fun t => t = s) ∧
    (s.supDown h.val = false → Runs (.supervisorDiverge h) s fun t => t.supDown h.val = true ∧
      t.raw (Rg.C_SUP_RESTART h.val) = min (s.raw (Rg.C_SUP_RESTART h.val) + 1) (2 ^ (Rg.C_SUP_RESTART h.val).w - 1) ∧
      (((tget (fun _ => []) s.rel.supDiv h.val).filter fun k => decide (s.time.now < k + 10 * Config.ticksPerSecond)).length < 2 →
        t.rel.supRet = s.rel.supRet ∧
        Only (.faults :: eventParts) ((Rg.C_SUP_RESTART h.val).off :: eventRegs) s t) ∧
      (2 ≤ ((tget (fun _ => []) s.rel.supDiv h.val).filter fun k =>
          decide (s.time.now < k + 10 * Config.ticksPerSecond)).length → tget (fun _ => false) t.rel.supRet h.val = true)) ∧
    (s.supDown h.val = true → tget (fun _ => false) s.rel.supRet h.val = false → Runs (.supervisorRestartDone h) s fun t =>
      t.supDown h.val = false ∧ (t.baton h.val).fresh = some s.time.now ∧ (t.baton h.val).claim = (s.baton h.val).claim ∧
      (t.baton h.val).epoch = (s.baton h.val).epoch ∧ Only (.faults :: eventParts) (eventRegs ++ cplRegs) s t) ∧
    (s.supDown h.val = false ∨ tget (fun _ => false) s.rel.supRet h.val = true →
      Runs (.supervisorRestartDone h) s fun t => t = s))

/-- Slice shadows and relays, DAC cells, die-to-die wires. A spare slice shadows the next slice of its turn. A mismatch
is counted; where the other spare is free the two of three outputs that agree are right, else the test of the idle spare
decides: a verdict against the spare retires it, one against the slice starts its relay, and without one that stands
alone nothing else happens. A faulty slice gets a free spare, which serves the path from the switch on, with everything
the path holds unchanged; without a spare its path is retired with cause 2. A DAC cell that is open, or more than 2 %
from nominal on two measurements in a row, takes a spare cell and the path is measured anew; without one the path is
retired with cause 4. A check whose CRC-8 is not that of the payload bits is counted and has its direction replay from
that period on; four within 64 periods make a wire due for its relay, which takes a spare wire. A wire without a spare,
or a second clock pair, leads to split mode. (17_reliability R486, 17_reliability R487, 17_reliability R488,
17_reliability R489, 17_reliability R490, 17_reliability R491, 17_reliability R497). -/
def Obligations.SlicesCellsAndWires : Prop :=
  (∀ (h : Half) (second : Bool) (s : State), let n := spareSlice h.val second
    (s.on Rg.REL_CFG_SHADOW_EN = false ∨ s.spareFree n = false → Runs (.sliceShadowTurn h second) s fun t =>
      t.shadowOf n = none ∧ Only [.faults] [] s t) ∧
    (s.on Rg.REL_CFG_SHADOW_EN = true → s.spareFree n = true → Runs (.sliceShadowTurn h second) s fun t =>
      t.shadowOf n = nextIn (s.shadowTurn h.val second) (s.shadowOf n) ∧ t.rel.sliceOf = s.rel.sliceOf ∧
      Only [.faults] [] s t) ∧
    (∀ a b c pass, s.shadowOf n = none ∨ a = b → Runs (.sliceMismatch h second a b c pass) s fun t => t = s) ∧
    (∀ a b c pass, s.shadowOf n ≠ none → a ≠ b → Runs (.sliceMismatch h second a b c pass) s fun t =>
      let other := s.spareFree (spareSlice h.val (!second))
      t.raw (Rg.C_SLICE_MISMATCH h.val) = min (s.raw (Rg.C_SLICE_MISMATCH h.val) + 1) (2 ^ (Rg.C_SLICE_MISMATCH h.val).w - 1) ∧
      ((other = true ∧ a = c ∧ b ≠ c) ∨ (other = false ∧ pass = false) → t.sliceOut n = true) ∧
      (∀ (p : PathNo) k, p.val / 32 = h.val → s.shadowOf n = some (s.sliceOf p.val) → s.sliceOut (s.sliceOf p.val) = false →
        (other = true ∧ b = c ∧ a ≠ c) ∨ (other = false ∧ pass = true) →
        (∀ q < 64, s.sliceOf q = s.sliceOf p.val → q = p.val) →
        tget (fun _ => (none : Option SliceRelay)) s.rel.relays p.val = none →
        (s.sliceOf p.val) / 34 = h.val →
        [spareSlice h.val false, spareSlice h.val true].find? s.spareFree = some k →
          tget (fun _ => none) t.rel.relays p.val = some ⟨k, false⟩ ∧ t.sliceOf p.val = s.sliceOf p.val) ∧
      (other = true → a ≠ c → b ≠ c → t.rel = s.rel ∧
        Only eventParts ((Rg.C_SLICE_MISMATCH h.val).off :: eventRegs) s t))) ∧
  (∀ (n : Fin 68) (par : Bool) (p : PathNo) (s : State), s.sliceOut n.val = false → s.sliceOf p.val = n.val → p.val / 32 = n.val / 34 →
      (∀ q < 64, s.sliceOf q = n.val → q = p.val) → tget (fun _ => (none : Option SliceRelay)) s.rel.relays p.val = none →
    (∀ k, [spareSlice (n.val / 34) false, spareSlice (n.val / 34) true].find? s.spareFree = some k →
      Runs (.sliceParityFault n par) s fun t => tget (fun _ => none) t.rel.relays p.val = some ⟨k, par⟩ ∧
        t.shadowOf k = none ∧ t.sliceOf p.val = n.val ∧ Only [.faults] [] s t) ∧
    (s.spareFree (spareSlice (n.val / 34) false) = false → s.spareFree (spareSlice (n.val / 34) true) = false →
        s.pathIn p.val = true → Runs (.sliceParityFault n par) s fun t => t.sliceOut n.val = true ∧
      tget (fun _ => 0) t.rel.pathRet p.val = 2 ∧ (t.tx p.val).state = 0 ∧ (t.fep p.val).state = 6)) ∧
  (∀ (p : PathNo) (s : State),
    (tget (fun _ => (none : Option SliceRelay)) s.rel.relays p.val = none → Runs (.sliceRelaySwitch p) s fun t => t = s) ∧
    (∀ r : SliceRelay, tget (fun _ => none) s.rel.relays p.val = some r → Runs (.sliceRelaySwitch p) s fun t =>
      t.sliceOf p.val = r.spare ∧ t.sliceOut (s.sliceOf p.val) = true ∧
      tget (fun _ => (none : Option SliceRelay)) t.rel.relays p.val = none ∧
      (∀ q, q ≠ p.val → t.sliceOf q = s.sliceOf q) ∧ t.raw (Rg.C_SLICE_RELAY (p.val / 32)) = min (s.raw (Rg.C_SLICE_RELAY (p.val / 32)) + 1) (2 ^ (Rg.C_SLICE_RELAY (p.val / 32)).w - 1) ∧
      t.dpdOf p.val = { s.dpdOf p.val with relayed := some s.time.now } ∧ (∀ n, n / 8 ≠ p.val / 8 → t.dpdOf n = s.dpdOf n) ∧
      KeepsBut (.faults :: .dpd :: eventParts) s t)) ∧
  (∀ (p : PathNo) (q : Bool) (cell : BitVec 8) (w1 w2 : Nat) (isOpen : Bool) (s : State),
    (s.on Rg.REL_CFG_CELL_EN = false ∨ s.pathOut p.val = true ∨
        (isOpen = false ∧ (9800 ≤ w1 ∧ w1 ≤ 10200 ∨ 9800 ≤ w2 ∧ w2 ≤ 10200)) → Runs (.dacCellReplace p q cell w1 w2 isOpen) s fun t => t = s) ∧
    (s.on Rg.REL_CFG_CELL_EN = true → s.pathIn p.val = true →
        isOpen = true ∨ ((w1 < 9800 ∨ 10200 < w1) ∧ (w2 < 9800 ∨ 10200 < w2)) →
      (0 < s.cellsLeft p.val q → Runs (.dacCellReplace p q cell w1 w2 isOpen) s fun t =>
        t.cellsLeft p.val q = s.cellsLeft p.val q - 1 ∧ t.raw (Rg.C_DAC_CELL_SWAP (p.val / 32)) = min (s.raw (Rg.C_DAC_CELL_SWAP (p.val / 32)) + 1) (2 ^ (Rg.C_DAC_CELL_SWAP (p.val / 32)).w - 1) ∧
        (t.calOf p.val).prio = true ∧ t.pathOut p.val = false ∧ KeepsBut (.faults :: .calib :: eventParts) s t) ∧
      (s.cellsLeft p.val q = 0 → Runs (.dacCellReplace p q cell w1 w2 isOpen) s fun t => tget (fun _ => 0) t.rel.pathRet p.val = 4 ∧
        (t.tx p.val).state = 0 ∧ (t.fep p.val).state = 6))) ∧
  (∀ (d : Half) (w : Fin 32) (k : Nat) (bits : List Byte) (crc : Byte) (now : Nat) (s : State),
    let key := 32 * d.val + w.val
    let old := (tget (fun _ => []) s.rel.wireBad key).filter fun p => decide (k < p + 64)
    (crc8 (fitBytes 15 bits) = crc.toNat → Runs (.d2dCheckFail d w k bits crc now) s fun t => t = s) ∧
    (crc8 (fitBytes 15 bits) ≠ crc.toNat → Runs (.d2dCheckFail d w k bits crc now) s fun t => t.raw (Rg.C_D2D_REPLAY (1 - d.val)) = min (s.raw (Rg.C_D2D_REPLAY (1 - d.val)) + 1) (2 ^ (Rg.C_D2D_REPLAY (1 - d.val)).w - 1) ∧
      (t.d2dOf d.val).owed = (s.d2dOf d.val).owed + 1920 * min (now + 1 - k) 64 ∧
      (t.d2dOf d.val).waiting = (s.d2dOf d.val).waiting ∧ (∀ e, e ≠ d.val → t.d2dOf e = s.d2dOf e) ∧
      (3 ≤ old.length → tget (fun _ => false) t.rel.wireDue key = true) ∧
      (old.length < 3 → t.rel.wireDue = s.rel.wireDue) ∧ Only [.faults, .d2d] [(Rg.C_D2D_REPLAY (1 - d.val)).off] s t) ∧
    (s.split = true ∨ tget (fun _ => false) s.rel.wireDue key = false → Runs (.d2dWireRelay d (some w)) s fun t => t = s) ∧
    (s.split = false → tget (fun _ => false) s.rel.wireDue key = true →
      (0 < s.wireSpare d.val → Runs (.d2dWireRelay d (some w)) s fun t => t.wireSpare d.val = s.wireSpare d.val - 1 ∧
        t.split = false ∧ tget (fun _ => false) t.rel.wireDue key = false ∧
          tget (fun _ => []) t.rel.wireBad key = [] ∧ (t.d2dOf d.val).waiting = (s.d2dOf d.val).waiting ∧
          KeepsBut (.faults :: .d2d :: eventParts) s t) ∧
      (s.wireSpare d.val = 0 → Runs (.d2dWireRelay d (some w)) s fun t => t.split = true)) ∧
    (s.split = false → tget (fun _ => false) s.rel.clkDue d.val = true →
      let x := if d.val = 0 then Rg.D2D_STAT_STBY_CLK_01 else Rg.D2D_STAT_STBY_CLK_10
      (s.on x = false → Runs (.d2dWireRelay d none) s fun t => t.raw x = 1 ∧ t.split = false ∧
        KeepsBut (.faults :: .d2d :: eventParts) s t) ∧
      (s.on x = true → Runs (.d2dWireRelay d none) s fun t => t.split = true)))

/-- The baton, disputes, split mode, repeated REPLACE_REQUEST. A supervisor that runs sends EPOCH, CLAIM and COPYING at
each instant; before that it takes the baton with a higher EPOCH when the holder has been silent, and the loser of a
dispute clears CLAIM and copies. A broadcast that fails its CRC is ignored. A loser that has copied carries the winner's
EPOCH. In split mode each half claims its own baton, the die-to-die link is down, and no dispute is left.
REPLACE_REQUEST is repeated while SERVICE or SPLIT lasts and LINK of the lead half runs. (17_reliability R493,
17_reliability R494, 17_reliability R495, 17_reliability R496, 17_reliability R497, 16_time_power R449). -/
def Obligations.BatonAndSplit : Prop :=
  (∀ (h : Half) (s : State),
    (s.supDown h.val = true ∨ s.split = true → Runs (.batonBroadcast h) s fun t => t = s) ∧
    (s.supDown h.val = false → s.split = false → s.rel.dispute = none →
      ((s.baton h.val).claim = true → s.heard h.val = none → Runs (.batonBroadcast h) s fun t =>
        t.baton h.val = { s.baton h.val with
          sent := some ((s.baton h.val).epoch, true, (s.baton h.val).copying, s.time.now) } ∧
        (s.on Rg.D2D_STAT_LINK_UP = true → (t.d2dOf h.val).waiting = (s.d2dOf h.val).waiting ++ [⟨.baton, 48⟩]) ∧
        Only [.faults, .d2d] [] s t) ∧
      ((s.baton h.val).claim = false → (s.baton h.val).fresh = none → s.silent h.val = true →
          s.on Rg.D2D_STAT_LINK_UP = true → Runs (.batonBroadcast h) s fun t =>
        (t.baton h.val).claim = true ∧ t.lead = h.val ∧
        (t.baton h.val).epoch = (max (s.baton h.val).epoch (s.reg 0x100C).toNat + 1) % 2 ^ 32 ∧
        t.reg 0x100C = BitVec.ofNat 32 (t.baton h.val).epoch ∧ KeepsBut (.faults :: .d2d :: eventParts) s t) ∧
      (∀ e, (s.baton h.val).claim = true → (s.baton h.val).fresh = none → (s.baton h.val).copying = false →
          s.heard h.val = some (e, true, false) →
        (disputeWinner h.val (s.baton h.val).epoch e ≠ h.val → Runs (.batonBroadcast h) s fun t =>
          (t.baton h.val).claim = false ∧ (t.baton h.val).copying = true ∧ t.raw Rg.REL_STAT_DISPUTE = 1 ∧ t.leaderless = true ∧
          Only [.faults, .d2d] [Rg.REL_STAT_DISPUTE.off] s t) ∧
        (disputeWinner h.val (s.baton h.val).epoch e = h.val → Runs (.batonBroadcast h) s fun t =>
          (t.baton h.val).claim = true ∧ t.raw Rg.REL_STAT_DISPUTE = 1 ∧ Only [.faults, .d2d] [Rg.REL_STAT_DISPUTE.off] s t))) ∧
    (∀ own other, other < own → disputeWinner h.val own other = h.val) ∧
    (∀ own other, own < other → disputeWinner h.val own other = 1 - h.val) ∧ (∀ n, disputeWinner h.val n n = 0) ∧
    (∀ l, crc8 (l.take 5) ≠ leNat ((l.drop 5).take 1) ∨ s.supDown h.val = true ∨ s.split = true →
      Runs (.batonBroadcastReceived h l) s fun t => t = s) ∧
    (∀ e c k x, e < 2 ^ 32 → s.supDown h.val = false → s.split = false →
        (s.baton (1 - h.val)).sent = some x → Runs (.batonBroadcastReceived h (batonBytes e c k)) s fun t => (t.baton h.val).rx = some (e, c, k, s.time.now) ∧
        (∀ r, (s.baton h.val).fresh = some r → ((t.baton h.val).fresh = none ↔ r ≤ x.2.2.2)) ∧
        (t.baton h.val).claim = (s.baton h.val).claim ∧ (t.baton h.val).epoch = (s.baton h.val).epoch ∧
        t.baton (1 - h.val) = s.baton (1 - h.val) ∧ Only [.faults] [] s t) ∧
    ((s.baton h.val).copying = true → Runs (.batonCopyDone h) s fun t =>
      t.baton h.val = { s.baton h.val with copying := false, epoch := (s.baton (1 - h.val)).epoch } ∧ Only [.faults] [] s t) ∧
    ((s.baton h.val).copying = false → Runs (.batonCopyDone h) s fun t => t = s)) ∧
  (∀ (why : Nat) (s : State), (s.split = true → Runs (.splitModeEntry why) s fun t => t = s) ∧
    (s.split = false → Runs (.splitModeEntry why) s fun t => t.split = true ∧ t.raw Rg.D2D_STAT_LINK_UP = 0 ∧
      t.raw Rg.CAL_STAT_TIE_OK = 0 ∧ (t.baton 0).claim = true ∧ (t.baton 1).claim = true ∧ t.rel.dispute = none ∧
      t.raw Rg.REL_STAT_DISPUTE = 0 ∧ t.ref.h1Locked = false ∧
      (s.rel.reported.contains (48, 0) = false → t.rel.serviceN = true) ∧
      t.d2d = [] ∧ KeepsBut (.faults :: .clocks :: .d2d :: .free :: eventParts) s t)) ∧
  (∀ s : State,
    (s.raw Rg.REL_STAT_STATE < 2 ∨ s.f Rg.REL_CFG_REPLACE_REPEAT = 0 ∨ s.dom s.lead 6 ≠ 0 ∨
        s.time.now < s.rel.replAt + Config.ticksPerSecond * s.f Rg.REL_CFG_REPLACE_REPEAT →
      Runs .replaceRequestRepeat s fun t => t = s) ∧
    (∀ k half r, 2 ≤ s.raw Rg.REL_STAT_STATE → s.f Rg.REL_CFG_REPLACE_REPEAT ≠ 0 → s.dom s.lead 6 = 0 →
        s.rel.reported = (k, half) :: r →
        s.rel.replAt + Config.ticksPerSecond * s.f Rg.REL_CFG_REPLACE_REPEAT ≤ s.time.now → Runs .replaceRequestRepeat s fun t =>
      (t.pkt s.msgHalf).queue = (s.pkt s.msgHalf).queue ++
        [msgItem 0x0004 (beBytes 2 (k / 16) ++ beBytes 1 half ++ zeros 1)] ∧ t.rel.replAt = s.time.now ∧ Only [.pkts, .faults] [] s t))

/-- Resets of the device and their release. RESET_N and the end of an entry to OFF reset everything but the store, the
shutdown latch, the TAPs and what the model keeps for itself (now, log, queue, free values): every other part and every
register but seven stands at its reset value, the counter is invalid, PHASE is 0. A power-on reset also clears the
latch. The cause that came first is kept until the release, which starts P1 and records it. The end of one condition
leaves the others; 100 µs after the COMMIT of OFF its reset begins, and 1 ms after the last condition ended the core is
released. With all boot records decided P0 does nothing more; deciding them gives each output its record, its drive and
its code, or leaves it. That PHASE reads 0 in reset is the model's choice (log 20). (18_startup_store R504,
18_startup_store R505, 18_startup_store R506, 18_startup_store R507, 18_startup_store R510, 13_monitor_bias_thermal
R383, 13_monitor_bias_thermal R398, 16_time_power R450). -/
def Obligations.DeviceResets : Prop :=
  (∀ s : State, ∀ i ∈ [Instr.resetNAssert, .offCoreReset], i = .resetNAssert ∨
      (s.dom 0 0 = 4 ∧ s.boot.core = false ∧ (tget (fun _ => (0, 0)) s.time.wakeFrom 0).2 + 49152 ≤ s.time.now) →
    Runs i s fun t => t.shutdown = s.shutdown ∧ t.boot.core = true ∧ t.phase = 0 ∧ t.ready = false ∧ t.locked = false ∧
      t.raw Rg.CFG_STAT_PATHCFG = 0 ∧ t.time.valid = false ∧ t.time.now = s.time.now ∧ t.nv.mem = s.nv.mem ∧
      t.nv.queue = [] ∧ t.tap = s.tap ∧ t.pending = s.pending ∧ t.sent = s.sent ∧ t.fresh = s.fresh ∧
      t.boot.cause = (if s.boot.core then s.boot.cause else if i = .resetNAssert then 1 else 3) ∧
      (if i = .resetNAssert then 1 else 3) ∈ t.boot.conds ∧ (∀ c ∈ s.boot.conds, c ∈ t.boot.conds) ∧
      t.boot.clearAt = s.time.now ∧ (∀ h < 2, (t.monOf h).pfAt = (s.monOf h).pfAt) ∧
      KeepsBut [.faults, .monitor, .time, .store, .boot, .tap, .log, .free, .queue] State.reset t ∧
      RegsBut [Rg.BOOT_STAT_PHASE.off, Rg.RAIL_STAT_PF.off, Rg.CFG_STAT_SHUTDOWN.off, Rg.THERM_STAT_SHUTDOWN.off,
        Rg.ALERT_STAT_SHUTDOWN.off, Rg.REL_STAT_SERVICE_N.off] State.reset t) ∧
  (∀ s : State, s.dom 0 0 ≠ 4 ∨ s.boot.core = true ∨
      s.time.now < (tget (fun _ => (0, 0)) s.time.wakeFrom 0).2 + 49152 → Runs .offCoreReset s fun t => t = s) ∧
  (∀ s : State, Runs .powerOnReset s fun t => t.shutdown = false ∧ t.boot.core = true ∧ t.phase = 0 ∧ t.boot.cause = 0 ∧
    0 ∈ t.boot.conds ∧ t.time.valid = false ∧ t.nv.mem = s.nv.mem ∧ t.pending = s.pending ∧ t.tap = s.tap ∧
    (s.boot.conds.contains 1 = true → RegsBut [Rg.BOOT_STAT_PHASE.off, Rg.RAIL_STAT_PF.off] State.reset t)) ∧
  (∀ s : State, (s.boot.conds.contains 1 = false → Runs .resetNRelease s fun t => t = s) ∧
    (s.boot.conds.contains 1 = true → Runs .resetNRelease s fun t => 1 ∉ t.boot.conds ∧
      (∀ c, c ≠ 1 → (c ∈ t.boot.conds ↔ c ∈ s.boot.conds)) ∧ t.boot.core = s.boot.core ∧ t.boot.cause = s.boot.cause ∧
      (s.boot.p0 = true ∨ s.shutdown = true → Only [.boot] [] s t) ∧
      Only (.bias :: .boot :: eventParts) ((List.range 2).flatMap (fun h => [(Rg.C_NV_CRC_BAD h).off, (Rg.C_NV_CONFLICT h).off,
        (Rg.C_BIAS_FAULT h).off]) ++ eventRegs) s t)) ∧
  (∀ s : State, Runs .brownOutEnd s fun t => 2 ∉ t.boot.conds ∧
    (∀ c, c ≠ 2 → (c ∈ t.boot.conds ↔ c ∈ s.boot.conds)) ∧ t.boot.cause = s.boot.cause ∧ Only [.boot] [] s t) ∧
  (∀ s : State, (s.boot.core = false ∨ (∃ c ∈ s.boot.conds, c ≠ 0) ∨ s.time.now < s.boot.clearAt + 491520 →
      Runs .coreResetRelease s fun t => t = s) ∧
    (s.boot.core = true → (∀ c ∈ s.boot.conds, c = 0) → s.boot.cause < 4 → s.boot.boRail < 16 →
        s.boot.clearAt + 491520 ≤ s.time.now →
      Runs .coreResetRelease s fun t => t.boot.core = false ∧ t.boot.conds = [] ∧ t.phase = 1 ∧ t.raw Rg.BOOT_STAT_CAUSE = s.boot.cause ∧
        t.raw Rg.BOOT_STAT_BO_RAIL = (if s.boot.cause = 2 then s.boot.boRail else 0) ∧ t.boot.p1At = s.time.now ∧
        Only [.boot] [Rg.BOOT_STAT_PHASE.off] s t)) ∧
  (∀ s : State,
    (s.boot.conds.contains 1 = true ∨ s.boot.p0 = true ∨ s.shutdown = true → Runs .startUpP0End s fun t => t = s) ∧
    (s.boot.conds.contains 1 = false → s.boot.p0 = false → s.shutdown = false → Runs .startUpP0End s fun t =>
      t.boot.p0 = true ∧ (∀ n < 136, s.decideNv 0x20 n = .absent → t.biasOut n = s.biasOut n) ∧
      (∀ n < 136, ∀ b k, s.decideNv 0x20 n = .value b k → (t.biasOut n).boot = some (bootRec n b) ∧
        (t.biasOut n).car = bootRec n b ∧ (t.biasOut n).code = (bootRec n b).tx ∧ (t.biasOut n).state =
          (if (s.monOf (outputHalf n)).auxOut = false ∧ (bootRec n b).drive = true then 1 else 0)) ∧
      KeepsBut (.bias :: .boot :: eventParts) s t))

/-- Start-up phases P1 to P3. Each phase ends only when it is the phase under way and the core is out of reset. P1 ends
with PHASE 2, FACTORY_OK as found and the die-to-die link up; the factory records give the sensors and the monitors of
both halves their constants; the hold of the invalid counter counts; without records the registers of the host-managed
configurations stay. P2 ends with PHASE 3 and leaves COVERED; a path found faulty is retired with cause 7. P3 needs the
reference PLL LOCKED and ends with PHASE 4, READY and the first votes; without an image the factory firmware is
installed. (18_startup_store R510, 18_startup_store R511, 18_startup_store R513, 18_startup_store R514, 18_startup_store
R518, 18_startup_store R543, 16_time_power R459). -/
def Obligations.StartUpPhases : Prop :=
  (∀ (f0 f1 : Bool) (l : List SensFact) (m : List MonFact) (s : State),
    (s.boot.core = true ∨ s.phase ≠ 1 → Runs (.startUpP1End f0 f1 l m) s fun t => t = s) ∧
    (s.boot.core = false → s.phase = 1 → s.nv.dir = [] → s.boot.p0 = true → Runs (.startUpP1End f0 f1 l m) s fun t =>
      t.phase = 2 ∧ t.raw Rg.BOOT_STAT_FACTORY_OK = b2n (f0 && f1) ∧ t.raw Rg.D2D_STAT_LINK_UP = 1 ∧
      t.raw Rg.CFG_STAT_PATHCFG = s.raw Rg.CFG_STAT_PATHCFG ∧ t.standalone = s.standalone ∧
      (s.standalone = false → t.reg 0x0028 = s.reg 0x0028 ∧ t.flows = s.flows) ∧
      (s.standalone = true → t.voteOwner 0 7 = 0 ∧ ∀ d < 7, t.voteOwner 0 d = 2) ∧ t.raw (Rg.C_TX_HOLDS 0) = min (s.raw (Rg.C_TX_HOLDS 0) + 1) (2 ^ (Rg.C_TX_HOLDS 0).w - 1) ∧
      (∀ x : SensFact, l = [x] → x.n < 52 → let v := t.sensor x.n
        v.neigh = x.neigh ∧ v.offset = x.offset ∧ v.c0 = x.c0 ∧ v.t0 = x.t0 ∧ v.c1 = x.c1 ∧ v.t1 = x.t1 ∧ v.lo = x.lo ∧
          v.hi = x.hi) ∧
      (∀ a b : MonFact, m = [a, b] → (t.monOf 0).div = a.div ∧ (t.monOf 0).ref = a.ref ∧ (t.monOf 1).div = b.div ∧
        (t.monOf 1).ref = b.ref) ∧
      KeepsBut (.flows :: .boot :: .monitor :: eventParts) s t)) ∧
  (∀ (bad : List (Nat × Nat)) (s : State),
    (s.boot.core = true ∨ s.phase ≠ 2 ∨ s.shutdown = true → Runs (.startUpP2End bad) s fun t => t = s) ∧
    (s.boot.core = false → s.phase = 2 → s.shutdown = false → s.nv.dir = [] →
      (Runs (.startUpP2End []) s fun t => t.phase = 3 ∧ t.boot.applied = 0 ∧
        t.raw Rg.REL_STAT_COVERED = s.raw Rg.REL_STAT_COVERED ∧
        (∀ n < 10, s.laneState n ≠ 0 → t.laneState n = s.laneState n) ∧ t.rel = s.rel) ∧
      (∀ p < 64, s.pathIn p = true → Runs (.startUpP2End [(1, p)]) s fun t => t.phase = 3 ∧
        tget (fun _ => 0) t.rel.pathRet p = 7 ∧ (t.fep p).state = 6))) ∧
  (∀ (img : List Byte) (bad : List (Nat × Nat)) (s : State),
    (s.boot.core = true ∨ s.phase ≠ 3 ∨ s.shutdown = true ∨ s.refState ≠ 1 →
      Runs (.startUpP3End img bad) s fun t => t = s) ∧
    (s.boot.core = false → s.phase = 3 → s.shutdown = false → s.refState = 1 → s.nv.dir = [] → s.standalone = false →
      Runs (.startUpP3End img bad) s fun t => t.phase = 4 ∧ t.ready = true ∧ t.raw Rg.BOOT_STAT_FW_FALLBACK = 1 ∧
        (∀ h < 2, (t.engH h).vendor = some (imgOf img)) ∧ (∀ e ∈ s.domsIn, t.vote e.1 e.2 0 = true) ∧
        t.linesOn = s.linesOn ∧ KeepsBut ([.engines, .memories] ++ eventParts) s t))

/-- Records of the persistent store: decision, writes, scrub, fault log. No intact copy: the record is absent. Intact
copies of the highest SEQ that agree decide it. A write interrupted between or within its three copies leaves the old or
the new value. A write starts only while none runs and, under PWRFAIL_N, only the power-fail record; it takes the next
SEQ for all its copies; the mirror crosses the die-to-die link. A verified copy stands in its fixed slot or in a free
place, byte for byte, and no other byte changes; one that fails is placed elsewhere. The last copy is counted. A scrub
of records that agree changes nothing; a copy that is bad or different has its record written anew and is counted. A
unit joins the fault log once, with its kind and, for a path, its cause; a full log is reported. (18_startup_store R515,
18_startup_store R516, 18_startup_store R517, 18_startup_store R519, 18_startup_store R520, 18_startup_store R522,
18_startup_store R524). -/
def Obligations.StoreWrites : Prop :=
  (∀ cs : List NvCopy, (∀ c ∈ cs, c.good = false) → decide517 cs = .absent) ∧
  (∀ (cs : List NvCopy) (c : NvCopy), c ∈ cs → c.good = true → c.seq = topSeq ((cs.filter (·.good)).map (·.seq)) →
    (∀ x ∈ cs, x.good = true → x.seq = c.seq → x.body = c.body) → decide517 cs = .value c.body 3) ∧
  (∀ (n q : Nat) (o w j : List Byte), n < 65536 →
    let old : NvCopy := ⟨true, n, o⟩
    let new : NvCopy := ⟨true, (n + 1) % 65536, w⟩
    let part : NvCopy := ⟨false, q, j⟩
    decide517 [part, old, old] = .value o 3 ∧ decide517 [new, old, old] = .value w 3 ∧
    decide517 [new, part, old] = .value w 3 ∧ decide517 [new, new, old] = .value w 3 ∧
    decide517 [new, new, part] = .value w 3 ∧ decide517 [new, new, new] = .value w 3) ∧
  (∀ (h : Half) (s : State),
    (s.nvQueue h.val = [] → Runs (.nvWriteStart h) s fun t => t = s) ∧
    (∀ j r, s.nvQueue h.val = j :: r →
      (j.writing = true ∨ (s.powerFail = true ∧ j.type ≠ 0x32) → Runs (.nvWriteStart h) s fun t => t = s) ∧
      (j.writing = false → s.powerFail = false ∨ j.type = 0x32 → Runs (.nvWriteStart h) s fun t =>
        t.nvQueue h.val = { j with seq := some (j.seq.getD (s.nextSeq j.type j.index)), writing := true } :: r ∧
        t.raw Rg.BOOT_STAT_NV_BUSY = 1 ∧ t.nv.mem = s.nv.mem ∧
        (∀ c l, j.left = (h.val, c) :: l → t.d2d = s.d2d) ∧
        (∀ c l, j.left = (1 - h.val, c) :: l → s.on Rg.D2D_STAT_LINK_UP = true → (t.d2dOf h.val).waiting =
          (s.d2dOf h.val).waiting ++
            [⟨.store, 8 * (nvRecord j.type j.index (j.seq.getD (s.nextSeq j.type j.index)) 2 j.body).length⟩]) ∧
        Only [.store, .d2d] [Rg.BOOT_STAT_NV_BUSY.off] s t))) ∧
  (∀ (h half : Half) (copy a : Nat) (j : NvJob) (l : List (Nat × Nat)) (r : List NvJob) (s : State),
      s.nvQueue h.val = j :: r → j.left = (half.val, copy) :: l → j.writing = true →
    let rec_ := nvRecord j.type j.index (j.seq.getD 0) copy j.body
    s.nvSlot half.val j.type copy rec_.length = some a →
    (l ≠ [] → Runs (.nvCopyVerified h true) s fun t =>
      (∀ i < rec_.length, t.nvByte half.val (a + i) = nth rec_ i 0) ∧
      (∀ k b, b < 2 ^ 19 → k < 2 → ¬(k = half.val ∧ a ≤ b ∧ b < a + rec_.length) → t.nvByte k b = s.nvByte k b) ∧
      t.nvQueue h.val = { j with left := l, done := j.done + 1, writing := false } :: r ∧
      (⟨half.val, a, j.type, j.index, copy⟩ : NvLoc) ∈ t.nv.dir ∧ Only [.store] [] s t) ∧
    (l = [] → j.type ≠ 3 → Runs (.nvCopyVerified h true) s fun t => t.nvQueue h.val = r ∧
      t.raw (Rg.C_NV_WRITES h.val) = min (s.raw (Rg.C_NV_WRITES h.val) + 1) (2 ^ (Rg.C_NV_WRITES h.val).w - 1) ∧ (∀ i < rec_.length, t.nvByte half.val (a + i) = nth rec_ i 0)) ∧
    Runs (.nvCopyVerified h false) s fun t => t.nvQueue h.val = s.nvQueue h.val ∧ t.nv.mem = s.nv.mem ∧
      t.nv.dir = s.nv.dir ∧ t.nv.bad = (half.val, a, rec_.length) :: s.nv.bad ∧ Only [.store] [] s t) ∧
  (∀ (h : Half) (s : State),
    (s.on Rg.NV_CFG_NV_SCRUB_EN = false → Runs (.nvScrub h) s fun t => t = s) ∧
    (s.on Rg.NV_CFG_NV_SCRUB_EN = true →
      ((∀ x ∈ s.nv.dir, nvCritical x.type = true → nvHome x.type x.index = h.val →
          ∀ c ∈ (s.nvLocs x.type x.index).map s.readCopy, ∀ d ∈ (s.nvLocs x.type x.index).map s.readCopy,
            c.good = true ∧ c = d) → Runs (.nvScrub h) s fun t =>
        (s.paceLate 8 h.val = true → t.raw (Rg.C_NV_SCRUB_LATE h.val) = min (s.raw (Rg.C_NV_SCRUB_LATE h.val) + 1) (2 ^ (Rg.C_NV_SCRUB_LATE h.val).w - 1)) ∧
        (s.paceLate 8 h.val = false → Only [.engines] [] s t) ∧ Only [.engines] [(Rg.C_NV_SCRUB_LATE h.val).off] s t) ∧
      (∀ type index b, ((s.nv.dir.filter fun x => nvCritical x.type && nvHome x.type x.index == h.val).map fun x =>
          (x.type, x.index)).eraseDups = [(type, index)] → s.decideNv type index = .value b 3 →
          (∃ c ∈ (s.nvLocs type index).map s.readCopy, c.good = false) → s.nvQueue h.val = [] →
        Runs (.nvScrub h) s fun t => (∃ j, t.nvQueue h.val = [j] ∧ j.type = type ∧ j.index = index ∧ j.body = b ∧
          j.left = s.nvCopiesOf h.val type) ∧ t.raw (Rg.C_NV_REPAIRED h.val) = min (s.raw (Rg.C_NV_REPAIRED h.val) + 1) (2 ^ (Rg.C_NV_REPAIRED h.val).w - 1) ∧ t.nv.mem = s.nv.mem))) ∧
  (∀ s : State, (s.rel.logDue = [] → Runs .faultLogEntry s fun t => t = s) ∧
    (∀ cls n r, s.rel.logDue = (cls, n) :: r →
      let unit := if faultKind cls = 13 then 4096 * (cls - 16) + n else n
      let cause := if faultKind cls = 1 then tget (fun _ => 0) s.rel.pathRet unit else 0
      let body := (s.nvLatest 0 0x30 0).getD []
      let known := (logWords body).any fun w => w % 256 == faultKind cls && w / 65536 == unit % 65536
      (known = true → Runs .faultLogEntry s fun t => t.rel.logDue = r ∧ Only [.faults] [] s t) ∧
      (known = false → 1024 ≤ (logWords body).length → Runs .faultLogEntry s fun t => t.rel.logDue = r ∧
        Only (.faults :: eventParts) eventRegs s t) ∧
      (known = false → (logWords body).length < 1024 → Runs .faultLogEntry s fun t => t.rel.logDue = r ∧
        (∃ j, t.nvQueue 0 = s.nvQueue 0 ++ [j] ∧ j.type = 0x30 ∧ j.index = 0 ∧
          j.body = body ++ leBytes 4 (faultKind cls + 256 * cause + 65536 * (unit % 65536)) ∧ j.left = s.nvCopiesOf 0 0x30) ∧
        Only [.faults, .store] [] s t)))

/-- The two TAPs. With TRST_N low no instruction is taken. With it high a TAP takes the instruction and the other TAP
keeps its own. One of the five instructions that hold the core reset, taken while none is in force, resets the device
but for the store and the latch; a second one changes only its TAP. When the last one leaves, start-up runs from P1 and
CAUSE records 1, unless another condition holds the core. SAMPLE/PRELOAD takes the cells' levels. TRST_N low puts both
TAPs into Test-Logic-Reset. That Test-Logic-Reset selects IDCODE is the model's choice (log 19). (19_balls_electrical
R535). -/
def Obligations.TapInstructions : Prop :=
  (∀ (h : Half) (a b : List (BCell × Bool)) (s : State), s.tap.trstHigh = false → ∀ i ∈ [Instr.bypass h, .idcode h, .samplePreload h a b, .extest h, .extestPulse h, .extestTrain h, .clamp h, .highz h],
    Runs i s fun t => t = s) ∧
  (∀ (h : Half) (a b : List (BCell × Bool)) (s : State), s.tap.trstHigh = true → s.tapHolds = false →
      s.boot.conds.contains 4 = false →
    (Runs (.bypass h) s fun t => (t.tapOf h).ir = .quiet .bypass ∧ t.tapOf (1 - h) = s.tapOf (1 - h) ∧ Only [.tap] [] s t) ∧
    (Runs (.idcode h) s fun t => (t.tapOf h).ir = .quiet .idcode ∧ t.tapOf (1 - h) = s.tapOf (1 - h) ∧ Only [.tap] [] s t) ∧
    (Runs (.samplePreload h a b) s fun t => t.tapOf h = ⟨.quiet .samplePreload, a, b⟩ ∧
      t.tapOf (1 - h) = s.tapOf (1 - h) ∧ Only [.tap] [] s t) ∧
    (∀ x ∈ [(Instr.extest h, TapHold.extest), (.extestPulse h, .extestPulse), (.extestTrain h, .extestTrain),
        (.clamp h, .clamp), (.highz h, .highz)], Runs x.1 s fun t => (t.tapOf h).ir = .hold x.2 ∧
      t.tapOf (1 - h) = s.tapOf (1 - h) ∧ t.boot.core = true ∧ 4 ∈ t.boot.conds ∧ t.phase = 0 ∧ t.ready = false ∧
      t.shutdown = s.shutdown ∧ t.nv.mem = s.nv.mem ∧ t.time.valid = false ∧ t.pending = s.pending)) ∧
  (∀ (h : Half) (s : State), s.tap.trstHigh = true → s.tapHolds = true →
    ∀ x ∈ [(Instr.extest h, TapHold.extest), (.extestPulse h, .extestPulse), (.extestTrain h, .extestTrain),
        (.clamp h, .clamp), (.highz h, .highz)], Runs x.1 s fun t => (t.tapOf h).ir = .hold x.2 ∧ Only [.tap] [] s t) ∧
  (∀ (h : Half) (a b : List (BCell × Bool)) (q : TapQuiet) (s : State), s.tap.trstHigh = true →
      (s.tapOf h).ir.holds = true → (s.tapOf (1 - h)).ir.holds = false → s.boot.conds = [4] →
    ∀ i ∈ [Instr.bypass h, .idcode h, .samplePreload h a b, .tapRelease q, .trstN false], Runs i s fun t =>
      t.tapHolds = false ∧ t.boot.core = false ∧ t.boot.conds = [] ∧ t.phase = 1 ∧ t.raw Rg.BOOT_STAT_CAUSE = 1 ∧
      Only [.tap, .boot] [Rg.BOOT_STAT_PHASE.off] s t) ∧
  (∀ (q : TapQuiet) (s : State), (s.tapHolds = false → Runs (.tapRelease q) s fun t => t = s) ∧
    Runs (.tapRelease q) s (fun t => t.tapHolds = false ∧ t.tap.trstHigh = s.tap.trstHigh ∧
      t.tap.h0.preloaded = s.tap.h0.preloaded) ∧
    Runs (.trstN true) s (fun t => t.tap = { s.tap with trstHigh := true } ∧ Only [.tap] [] s t) ∧
    Runs (.trstN false) s fun t => t.tap.trstHigh = false ∧ t.tapHolds = false ∧ (t.tapOf 0).ir = .quiet .idcode ∧
      (t.tapOf 1).ir = .quiet .idcode ∧ t.tap.h1.preloaded = s.tap.h1.preloaded) ∧
  (∀ t : Tap, ∀ c : BCell, (t.ir.holds = false → t.ball c = none) ∧ (t.ir = .hold .highz → t.ball c = some none) ∧
    (t.ir = .hold .extest ∨ t.ir = .hold .clamp → t.ball c = some (t.preloaded.lookup c))) ∧
  tapIdcode 0 = 0x064089AF#32 ∧ tapIdcode 1 = 0x064099AF#32

/-- The TAPs hold the core reset exactly while an instruction asks for it. In every state in which the TAPs' condition
of the core reset holds exactly while an instruction of either TAP asks for it, each command of the test access port
leaves it so. (19_balls_electrical R535, 18_startup_store R504). -/
def Obligations.TapHoldsTheCore : Prop :=
  ∀ (h : Half) (a b : List (BCell × Bool)) (q : TapQuiet) (high : Bool) (s : State), s.boot.conds.contains 4 = s.tapHolds →
    ∀ i ∈ [Instr.bypass h, .idcode h, .samplePreload h a b, .extest h, .extestPulse h, .extestTrain h, .clamp h, .highz h] ++ [.tapRelease q, .trstN high],
      Runs i s fun t => t.boot.conds.contains 4 = t.tapHolds

/-- A step executes the command at the front of the queue; every command completes; a tick. A step with a command at the
front of the queue is that command executed on the state with the queue's rest. Each of the 332 commands answers a next
state in every state. On an empty queue a held command that may start does so (its fields taken from the held record,
log 14), else one tick passes: the tick counter, and the air-time counter while it runs and no slew moves it, advance by
one; a slew comes to what its rate gives by then; filter loads end; a logic clock that ramps moves by 1 % of nominal at
its step; LOAD is taken each 1 ms; COVERED is set 500 ms after RESET_N; outputs that wait for PARK change over. With
nothing of that under way nothing else changes. Every step answers a next state. No word of the table spells a command,
since no row has bits. What a tick does on an empty queue is the model's choice (log 14, log 75, log 80). (16_time_power
R448, 15_commands_summary R438, 14_host_rings R420, 09_synthesis_clocks R269, 09_synthesis_clocks R286, 17_reliability
R476). -/
def Obligations.StepTakesTheFront : Prop :=
  (∀ (c : Instr) (s : State), step { s with pending := c :: s.pending } = exec c s) ∧
  (∀ (c : Instr) (s : State), ∃ t, exec c s = .next t) ∧
  (∀ (s : State) (x : HeldCmd) (l : List HeldCmd), s.pending = [] → s.nextHeld = some (x, l) →
    step s = exec x.instr { s with cmd := { s.cmd with held := l, draining := true } }) ∧
  (∀ s : State, s.pending = [] → s.nextHeld = none → ∃ t, step s = .next t ∧ t.pending = [] ∧
    t.time.now = s.time.now + 1 ∧ t.time.running = s.time.running ∧
    ((∀ c, s.time.corr = some c → c.step = true) →
      t.time.count = (if s.time.running = true then (s.time.count + 1) % Config.ticksPerCycle else s.time.count) ∧
        t.time.corr = s.time.corr) ∧
    (∀ c, s.time.corr = some c → c.step = false →
      let n : Int := min c.ps.natAbs (s.slewRate * (s.time.now + 1 - c.since) / Config.ticksPerSecond)
      t.time.corr = some { c with done := if c.ps < 0 then -n else n }) ∧
    (∀ k < 4, t.filtOf k = (s.filtOf k).loaded) ∧
    (∀ n < 4, 2 ≤ n → s.raw (clkFld n) ≠ 0 → s.raw (clkFld n) ≤ 100 → let aim := tget (fun _ => 100) s.clkTo n
      aim ≤ 100 → t.raw (clkFld n) = if (s.time.now + 1) % 492 = 0 then
        (if s.raw (clkFld n) < aim then s.raw (clkFld n) + 1 else if aim < s.raw (clkFld n) then s.raw (clkFld n) - 1 else aim)
        else s.raw (clkFld n)) ∧
    (∀ e < 10, (s.time.now + 1) % Config.ticksPerSubframe = 0 → (∀ h < 2, (s.d2dOf h).waiting = []) →
      let from_ := s.time.now + 1 - 100 * Config.ticksPerSubframe
      let busy := (s.engOf e).busy.filter fun b => decide (from_ < b.2)
      let all := if (s.engOf e).run.isSome then ((s.engOf e).since, s.time.now + 1) :: busy else busy
      t.raw (Rg.AE_STAT_LOAD e) =
        (all.map fun b => b.2 - max b.1 from_).sum / Config.ticksPerSubframe % 2 ^ (Rg.AE_STAT_LOAD e).w) ∧
    t.raw Rg.REL_STAT_COVERED = (if s.boot.entered = false ∧ 1 ≤ s.raw Rg.BOOT_STAT_PHASE ∧
      s.boot.p1At + 499 * 491520 ≤ s.time.now + 1 then 1 else s.raw Rg.REL_STAT_COVERED) ∧
    (s.feLater = [] → s.sched = none → t.bias = s.bias.map fun e => (e.1, e.2.settle (s.time.now + 1))) ∧
    ((∀ n < 10, s.laneState n ≠ 2 ∧ s.laneState n ≠ 7) → s.mirrored = s.mirrorOf → (∀ h < 2, (s.d2dOf h).waiting = []) →
      (∀ k < 4, (s.filtOf k).loading = []) → s.time.corr = none → s.feLater = [] → s.sched = none →
      (∀ e ∈ s.bias, e.2.settle (s.time.now + 1) = e.2) → (s.time.now + 1) % 492 ≠ 0 →
      (s.time.now + 1) % Config.ticksPerSubframe ≠ 0 → (∀ h < 2, tget (fun _ => 0) s.rel.arrAt h ≠ s.time.now + 1) →
      t.time = { s.time with now := t.time.now, count := t.time.count } ∧
        Only [.time, .d2d] [Rg.REL_STAT_COVERED.off] s t)) ∧
  (∀ s : State, ∃ t, step s = .next t) ∧
  (∀ nbits w, decodeTableWord nbits w = none) ∧ ∀ (s : State) (nbits w : Nat), s.withFetchWord nbits w = s

/-- What reset leaves in the registers. After reset the fields named here hold the reset values that the register tables
of the spec give. (02_link_lanes R86, 03_link_packets R129, 05_uplink R177, 06_beam_weights R207, 07_predistortion R237,
08_calibration R261, 09_synthesis_clocks R292, 10_front_end R312, 11_adaptation_engines R348, 13_monitor_bias_thermal
R401, 14_host_rings R428, 16_time_power R475). -/
def Obligations.ResetValues : Prop :=
  (∀ x ∈ [(Rg.LNK_CFG_RATE, 0), (Rg.LNK_CFG_ACT_H0, 4), (Rg.LNK_CFG_ACT_H1, 4), (Rg.LNK_CFG_SPARE_H0, 1), (Rg.LNK_CFG_AUTO_RELAY, 1),
      (Rg.LNK_CFG_TRAIN_TRIES, 3), (Rg.LNK_CFG_TRAIN_TMO, 50), (Rg.PKT_CFG_REPLAY_TMO, 20), (Rg.PKT_CFG_RETRY_MAX, 8),
      (Rg.PKT_CFG_TUNNEL_EN, 1), (Rg.PKT_CFG_NAK_TMO, 10), (Rg.DL_CFG_BLANK_MIN, 8), (Rg.UL_CFG_DC_K, 16), (Rg.UL_AGC_DIST_TGT, 56),
      (Rg.UL_AGC_ATT_MAX, 30), (Rg.BW_STAT_SPARE_H0, 128), (Rg.BW_STAT_STAGE_H1, 64), (Rg.DPD_CFG_PERIOD, 40), (Rg.DPD_CFG2_TRUST, 80),
      (Rg.CAL_CFG_CYCLE, 20), (Rg.CAL_CFG_HEAT_LVL, 20), (Rg.REF_CFG_COAST, 5), (Rg.LO_CFG_SEED_BASE, 0x5AC35E), (Rg.CLK_CFG_ENG_CAP, 20),
      (Rg.FE_TIME0_TX_LEAD, 512), (Rg.FE_TIME1_RX_LEAD, 256), (Rg.FE_TIME2_DEAD, 128), (Rg.FE_TIME3_BIAS_LEAD, 256), (Rg.ENG_CFG_USER_EN, 1),
      (Rg.CAP_CFG_EXCL_ALLOW, 1), (Rg.MON_CFG_OVS, 4), (Rg.PWR_CFG_PF_HOLD, 20), (Rg.THERM_CFG_REDUCE_STREAMS, 48), (Rg.AT_CFG_SET_EN, 1),
      (Rg.AT_STAT_UNC, 0xFFFF), (Rg.AT_NOW1_TX_HELD, 1), (Rg.PM_WAKEMASK_H0, 255), (Rg.PM_WAKEMASK_H1, 127), (Rg.REL_CFG_REPLACE_REPEAT, 60),
      (Rg.CFG_STAT_PATHCFG, 0), (Rg.CFG_STAT_LOCKED, 0), (Rg.BOOT_STAT_READY, 0), (Rg.NV_CFG_NV_SCRUB_EN, 1)], State.reset.raw x.1 = x.2) ∧
  (∀ n < 10, State.reset.raw (Rg.LANE_CTL_ENABLE n) = 1 ∧ State.reset.raw (Rg.LANE_CTL_MAIN n) = 52 ∧ State.reset.raw (Rg.LANE_STAT_STATE n) = 0) ∧
  (∀ h < 2, ∀ d < 8, ¬(h = 0 ∧ d = 7) → ¬(h = 1 ∧ d = 7) → State.reset.voteOwner h d = 2) ∧ State.reset.voteOwner 0 7 = 0
end

