-- ==== Sys2Proof/Laws/State.lean ====
section
/-! SUPPORT. What each update of the state leaves in each field. -/

namespace Sys2Proof.Machine

@[simp] theorem State.setReg_lanes (s : State) (o : Nat) (v : Word) : (s.setReg o v).lanes = s.lanes := rfl
@[simp] theorem State.setReg_links (s : State) (o : Nat) (v : Word) : (s.setReg o v).links = s.links := rfl
@[simp] theorem State.setReg_line (s : State) (o : Nat) (v : Word) : (s.setReg o v).line = s.line := rfl
@[simp] theorem State.setReg_pkts (s : State) (o : Nat) (v : Word) : (s.setReg o v).pkts = s.pkts := rfl
@[simp] theorem State.setReg_flows (s : State) (o : Nat) (v : Word) : (s.setReg o v).flows = s.flows := rfl
@[simp] theorem State.setReg_flowFx (s : State) (o : Nat) (v : Word) : (s.setReg o v).flowFx = s.flowFx := rfl
@[simp] theorem State.setReg_flowOld (s : State) (o : Nat) (v : Word) : (s.setReg o v).flowOld = s.flowOld := rfl
@[simp] theorem State.setReg_ctrlSecs (s : State) (o : Nat) (v : Word) : (s.setReg o v).ctrlSecs = s.ctrlSecs := rfl
@[simp] theorem State.setReg_dataSecs (s : State) (o : Nat) (v : Word) : (s.setReg o v).dataSecs = s.dataSecs := rfl
@[simp] theorem State.setReg_soundSecs (s : State) (o : Nat) (v : Word) : (s.setReg o v).soundSecs = s.soundSecs := rfl
@[simp] theorem State.setReg_dlCar (s : State) (o : Nat) (v : Word) : (s.setReg o v).dlCar = s.dlCar := rfl
@[simp] theorem State.setReg_dlPend (s : State) (o : Nat) (v : Word) : (s.setReg o v).dlPend = s.dlPend := rfl
@[simp] theorem State.setReg_dlSince (s : State) (o : Nat) (v : Word) : (s.setReg o v).dlSince = s.dlSince := rfl
@[simp] theorem State.setReg_backoff (s : State) (o : Nat) (v : Word) : (s.setReg o v).backoff = s.backoff := rfl
@[simp] theorem State.setReg_backAt (s : State) (o : Nat) (v : Word) : (s.setReg o v).backAt = s.backAt := rfl
@[simp] theorem State.setReg_dlOcc (s : State) (o : Nat) (v : Word) : (s.setReg o v).dlOcc = s.dlOcc := rfl
@[simp] theorem State.setReg_txp (s : State) (o : Nat) (v : Word) : (s.setReg o v).txp = s.txp := rfl
@[simp] theorem State.setReg_dlSat (s : State) (o : Nat) (v : Word) : (s.setReg o v).dlSat = s.dlSat := rfl
@[simp] theorem State.setReg_ulCar (s : State) (o : Nat) (v : Word) : (s.setReg o v).ulCar = s.ulCar := rfl
@[simp] theorem State.setReg_ulPend (s : State) (o : Nat) (v : Word) : (s.setReg o v).ulPend = s.ulPend := rfl
@[simp] theorem State.setReg_ulWas (s : State) (o : Nat) (v : Word) : (s.setReg o v).ulWas = s.ulWas := rfl
@[simp] theorem State.setReg_conv (s : State) (o : Nat) (v : Word) : (s.setReg o v).conv = s.conv := rfl
@[simp] theorem State.setReg_rxp (s : State) (o : Nat) (v : Word) : (s.setReg o v).rxp = s.rxp := rfl
@[simp] theorem State.setReg_filt (s : State) (o : Nat) (v : Word) : (s.setReg o v).filt = s.filt := rfl
@[simp] theorem State.setReg_parts (s : State) (o : Nat) (v : Word) : (s.setReg o v).parts = s.parts := rfl
@[simp] theorem State.setReg_sums (s : State) (o : Nat) (v : Word) : (s.setReg o v).sums = s.sums := rfl
@[simp] theorem State.setReg_ulSat (s : State) (o : Nat) (v : Word) : (s.setReg o v).ulSat = s.ulSat := rfl
@[simp] theorem State.setReg_beams (s : State) (o : Nat) (v : Word) : (s.setReg o v).beams = s.beams := rfl
@[simp] theorem State.setReg_rows (s : State) (o : Nat) (v : Word) : (s.setReg o v).rows = s.rows := rfl
@[simp] theorem State.setReg_stage (s : State) (o : Nat) (v : Word) : (s.setReg o v).stage = s.stage := rfl
@[simp] theorem State.setReg_spareRows (s : State) (o : Nat) (v : Word) : (s.setReg o v).spareRows = s.spareRows := rfl
@[simp] theorem State.setReg_bulk (s : State) (o : Nat) (v : Word) : (s.setReg o v).bulk = s.bulk := rfl
@[simp] theorem State.setReg_solvRec (s : State) (o : Nat) (v : Word) : (s.setReg o v).solvRec = s.solvRec := rfl
@[simp] theorem State.setReg_solv (s : State) (o : Nat) (v : Word) : (s.setReg o v).solv = s.solv := rfl
@[simp] theorem State.setReg_dpd (s : State) (o : Nat) (v : Word) : (s.setReg o v).dpd = s.dpd := rfl
@[simp] theorem State.setReg_sharedOrx (s : State) (o : Nat) (v : Word) : (s.setReg o v).sharedOrx = s.sharedOrx := rfl
@[simp] theorem State.setReg_svcAt (s : State) (o : Nat) (v : Word) : (s.setReg o v).svcAt = s.svcAt := rfl
@[simp] theorem State.setReg_calp (s : State) (o : Nat) (v : Word) : (s.setReg o v).calp = s.calp := rfl
@[simp] theorem State.setReg_calRefs (s : State) (o : Nat) (v : Word) : (s.setReg o v).calRefs = s.calRefs := rfl
@[simp] theorem State.setReg_calSets (s : State) (o : Nat) (v : Word) : (s.setReg o v).calSets = s.calSets := rfl
@[simp] theorem State.setReg_grp (s : State) (o : Nat) (v : Word) : (s.setReg o v).grp = s.grp := rfl
@[simp] theorem State.setReg_tie (s : State) (o : Nat) (v : Word) : (s.setReg o v).tie = s.tie := rfl
@[simp] theorem State.setReg_hops (s : State) (o : Nat) (v : Word) : (s.setReg o v).hops = s.hops := rfl
@[simp] theorem State.setReg_lox (s : State) (o : Nat) (v : Word) : (s.setReg o v).lox = s.lox := rfl
@[simp] theorem State.setReg_ref (s : State) (o : Nat) (v : Word) : (s.setReg o v).ref = s.ref := rfl
@[simp] theorem State.setReg_clkTo (s : State) (o : Nat) (v : Word) : (s.setReg o v).clkTo = s.clkTo := rfl
@[simp] theorem State.setReg_fe (s : State) (o : Nat) (v : Word) : (s.setReg o v).fe = s.fe := rfl
@[simp] theorem State.setReg_feLater (s : State) (o : Nat) (v : Word) : (s.setReg o v).feLater = s.feLater := rfl
@[simp] theorem State.setReg_linesOn (s : State) (o : Nat) (v : Word) : (s.setReg o v).linesOn = s.linesOn := rfl
@[simp] theorem State.setReg_sched (s : State) (o : Nat) (v : Word) : (s.setReg o v).sched = s.sched := rfl
@[simp] theorem State.setReg_schedPend (s : State) (o : Nat) (v : Word) : (s.setReg o v).schedPend = s.schedPend := rfl
@[simp] theorem State.setReg_scripts (s : State) (o : Nat) (v : Word) : (s.setReg o v).scripts = s.scripts := rfl
@[simp] theorem State.setReg_eng (s : State) (o : Nat) (v : Word) : (s.setReg o v).eng = s.eng := rfl
@[simp] theorem State.setReg_engMem (s : State) (o : Nat) (v : Word) : (s.setReg o v).engMem = s.engMem := rfl
@[simp] theorem State.setReg_pool (s : State) (o : Nat) (v : Word) : (s.setReg o v).pool = s.pool := rfl
@[simp] theorem State.setReg_prog (s : State) (o : Nat) (v : Word) : (s.setReg o v).prog = s.prog := rfl
@[simp] theorem State.setReg_slots (s : State) (o : Nat) (v : Word) : (s.setReg o v).slots = s.slots := rfl
@[simp] theorem State.setReg_engHalf (s : State) (o : Nat) (v : Word) : (s.setReg o v).engHalf = s.engHalf := rfl
@[simp] theorem State.setReg_engShare (s : State) (o : Nat) (v : Word) : (s.setReg o v).engShare = s.engShare := rfl
@[simp] theorem State.setReg_imgLoads (s : State) (o : Nat) (v : Word) : (s.setReg o v).imgLoads = s.imgLoads := rfl
@[simp] theorem State.setReg_behind (s : State) (o : Nat) (v : Word) : (s.setReg o v).behind = s.behind := rfl
@[simp] theorem State.setReg_pace (s : State) (o : Nat) (v : Word) : (s.setReg o v).pace = s.pace := rfl
@[simp] theorem State.setReg_caps (s : State) (o : Nat) (v : Word) : (s.setReg o v).caps = s.caps := rfl
@[simp] theorem State.setReg_capNum (s : State) (o : Nat) (v : Word) : (s.setReg o v).capNum = s.capNum := rfl
@[simp] theorem State.setReg_bias (s : State) (o : Nat) (v : Word) : (s.setReg o v).bias = s.bias := rfl
@[simp] theorem State.setReg_sens (s : State) (o : Nat) (v : Word) : (s.setReg o v).sens = s.sens := rfl
@[simp] theorem State.setReg_mon (s : State) (o : Nat) (v : Word) : (s.setReg o v).mon = s.mon := rfl
@[simp] theorem State.setReg_host (s : State) (o : Nat) (v : Word) : (s.setReg o v).host = s.host := rfl
@[simp] theorem State.setReg_cmd (s : State) (o : Nat) (v : Word) : (s.setReg o v).cmd = s.cmd := rfl
@[simp] theorem State.setReg_time (s : State) (o : Nat) (v : Word) : (s.setReg o v).time = s.time := rfl
@[simp] theorem State.setReg_rel (s : State) (o : Nat) (v : Word) : (s.setReg o v).rel = s.rel := rfl
@[simp] theorem State.setReg_d2d (s : State) (o : Nat) (v : Word) : (s.setReg o v).d2d = s.d2d := rfl
@[simp] theorem State.setReg_mirrored (s : State) (o : Nat) (v : Word) : (s.setReg o v).mirrored = s.mirrored := rfl
@[simp] theorem State.setReg_nv (s : State) (o : Nat) (v : Word) : (s.setReg o v).nv = s.nv := rfl
@[simp] theorem State.setReg_boot (s : State) (o : Nat) (v : Word) : (s.setReg o v).boot = s.boot := rfl
@[simp] theorem State.setReg_tap (s : State) (o : Nat) (v : Word) : (s.setReg o v).tap = s.tap := rfl
@[simp] theorem State.setReg_sent (s : State) (o : Nat) (v : Word) : (s.setReg o v).sent = s.sent := rfl
@[simp] theorem State.setReg_fresh (s : State) (o : Nat) (v : Word) : (s.setReg o v).fresh = s.fresh := rfl
@[simp] theorem State.setReg_pending (s : State) (o : Nat) (v : Word) : (s.setReg o v).pending = s.pending := rfl

@[simp] theorem State.setF_lanes (s : State) (x : Fld) (v : Nat) : (s.setF x v).lanes = s.lanes := rfl
@[simp] theorem State.setF_links (s : State) (x : Fld) (v : Nat) : (s.setF x v).links = s.links := rfl
@[simp] theorem State.setF_line (s : State) (x : Fld) (v : Nat) : (s.setF x v).line = s.line := rfl
@[simp] theorem State.setF_pkts (s : State) (x : Fld) (v : Nat) : (s.setF x v).pkts = s.pkts := rfl
@[simp] theorem State.setF_flows (s : State) (x : Fld) (v : Nat) : (s.setF x v).flows = s.flows := rfl
@[simp] theorem State.setF_flowFx (s : State) (x : Fld) (v : Nat) : (s.setF x v).flowFx = s.flowFx := rfl
@[simp] theorem State.setF_flowOld (s : State) (x : Fld) (v : Nat) : (s.setF x v).flowOld = s.flowOld := rfl
@[simp] theorem State.setF_ctrlSecs (s : State) (x : Fld) (v : Nat) : (s.setF x v).ctrlSecs = s.ctrlSecs := rfl
@[simp] theorem State.setF_dataSecs (s : State) (x : Fld) (v : Nat) : (s.setF x v).dataSecs = s.dataSecs := rfl
@[simp] theorem State.setF_soundSecs (s : State) (x : Fld) (v : Nat) : (s.setF x v).soundSecs = s.soundSecs := rfl
@[simp] theorem State.setF_dlCar (s : State) (x : Fld) (v : Nat) : (s.setF x v).dlCar = s.dlCar := rfl
@[simp] theorem State.setF_dlPend (s : State) (x : Fld) (v : Nat) : (s.setF x v).dlPend = s.dlPend := rfl
@[simp] theorem State.setF_dlSince (s : State) (x : Fld) (v : Nat) : (s.setF x v).dlSince = s.dlSince := rfl
@[simp] theorem State.setF_backoff (s : State) (x : Fld) (v : Nat) : (s.setF x v).backoff = s.backoff := rfl
@[simp] theorem State.setF_backAt (s : State) (x : Fld) (v : Nat) : (s.setF x v).backAt = s.backAt := rfl
@[simp] theorem State.setF_dlOcc (s : State) (x : Fld) (v : Nat) : (s.setF x v).dlOcc = s.dlOcc := rfl
@[simp] theorem State.setF_txp (s : State) (x : Fld) (v : Nat) : (s.setF x v).txp = s.txp := rfl
@[simp] theorem State.setF_dlSat (s : State) (x : Fld) (v : Nat) : (s.setF x v).dlSat = s.dlSat := rfl
@[simp] theorem State.setF_ulCar (s : State) (x : Fld) (v : Nat) : (s.setF x v).ulCar = s.ulCar := rfl
@[simp] theorem State.setF_ulPend (s : State) (x : Fld) (v : Nat) : (s.setF x v).ulPend = s.ulPend := rfl
@[simp] theorem State.setF_ulWas (s : State) (x : Fld) (v : Nat) : (s.setF x v).ulWas = s.ulWas := rfl
@[simp] theorem State.setF_conv (s : State) (x : Fld) (v : Nat) : (s.setF x v).conv = s.conv := rfl
@[simp] theorem State.setF_rxp (s : State) (x : Fld) (v : Nat) : (s.setF x v).rxp = s.rxp := rfl
@[simp] theorem State.setF_filt (s : State) (x : Fld) (v : Nat) : (s.setF x v).filt = s.filt := rfl
@[simp] theorem State.setF_parts (s : State) (x : Fld) (v : Nat) : (s.setF x v).parts = s.parts := rfl
@[simp] theorem State.setF_sums (s : State) (x : Fld) (v : Nat) : (s.setF x v).sums = s.sums := rfl
@[simp] theorem State.setF_ulSat (s : State) (x : Fld) (v : Nat) : (s.setF x v).ulSat = s.ulSat := rfl
@[simp] theorem State.setF_beams (s : State) (x : Fld) (v : Nat) : (s.setF x v).beams = s.beams := rfl
@[simp] theorem State.setF_rows (s : State) (x : Fld) (v : Nat) : (s.setF x v).rows = s.rows := rfl
@[simp] theorem State.setF_stage (s : State) (x : Fld) (v : Nat) : (s.setF x v).stage = s.stage := rfl
@[simp] theorem State.setF_spareRows (s : State) (x : Fld) (v : Nat) : (s.setF x v).spareRows = s.spareRows := rfl
@[simp] theorem State.setF_bulk (s : State) (x : Fld) (v : Nat) : (s.setF x v).bulk = s.bulk := rfl
@[simp] theorem State.setF_solvRec (s : State) (x : Fld) (v : Nat) : (s.setF x v).solvRec = s.solvRec := rfl
@[simp] theorem State.setF_solv (s : State) (x : Fld) (v : Nat) : (s.setF x v).solv = s.solv := rfl
@[simp] theorem State.setF_dpd (s : State) (x : Fld) (v : Nat) : (s.setF x v).dpd = s.dpd := rfl
@[simp] theorem State.setF_sharedOrx (s : State) (x : Fld) (v : Nat) : (s.setF x v).sharedOrx = s.sharedOrx := rfl
@[simp] theorem State.setF_svcAt (s : State) (x : Fld) (v : Nat) : (s.setF x v).svcAt = s.svcAt := rfl
@[simp] theorem State.setF_calp (s : State) (x : Fld) (v : Nat) : (s.setF x v).calp = s.calp := rfl
@[simp] theorem State.setF_calRefs (s : State) (x : Fld) (v : Nat) : (s.setF x v).calRefs = s.calRefs := rfl
@[simp] theorem State.setF_calSets (s : State) (x : Fld) (v : Nat) : (s.setF x v).calSets = s.calSets := rfl
@[simp] theorem State.setF_grp (s : State) (x : Fld) (v : Nat) : (s.setF x v).grp = s.grp := rfl
@[simp] theorem State.setF_tie (s : State) (x : Fld) (v : Nat) : (s.setF x v).tie = s.tie := rfl
@[simp] theorem State.setF_hops (s : State) (x : Fld) (v : Nat) : (s.setF x v).hops = s.hops := rfl
@[simp] theorem State.setF_lox (s : State) (x : Fld) (v : Nat) : (s.setF x v).lox = s.lox := rfl
@[simp] theorem State.setF_ref (s : State) (x : Fld) (v : Nat) : (s.setF x v).ref = s.ref := rfl
@[simp] theorem State.setF_clkTo (s : State) (x : Fld) (v : Nat) : (s.setF x v).clkTo = s.clkTo := rfl
@[simp] theorem State.setF_fe (s : State) (x : Fld) (v : Nat) : (s.setF x v).fe = s.fe := rfl
@[simp] theorem State.setF_feLater (s : State) (x : Fld) (v : Nat) : (s.setF x v).feLater = s.feLater := rfl
@[simp] theorem State.setF_linesOn (s : State) (x : Fld) (v : Nat) : (s.setF x v).linesOn = s.linesOn := rfl
@[simp] theorem State.setF_sched (s : State) (x : Fld) (v : Nat) : (s.setF x v).sched = s.sched := rfl
@[simp] theorem State.setF_schedPend (s : State) (x : Fld) (v : Nat) : (s.setF x v).schedPend = s.schedPend := rfl
@[simp] theorem State.setF_scripts (s : State) (x : Fld) (v : Nat) : (s.setF x v).scripts = s.scripts := rfl
@[simp] theorem State.setF_eng (s : State) (x : Fld) (v : Nat) : (s.setF x v).eng = s.eng := rfl
@[simp] theorem State.setF_engMem (s : State) (x : Fld) (v : Nat) : (s.setF x v).engMem = s.engMem := rfl
@[simp] theorem State.setF_pool (s : State) (x : Fld) (v : Nat) : (s.setF x v).pool = s.pool := rfl
@[simp] theorem State.setF_prog (s : State) (x : Fld) (v : Nat) : (s.setF x v).prog = s.prog := rfl
@[simp] theorem State.setF_slots (s : State) (x : Fld) (v : Nat) : (s.setF x v).slots = s.slots := rfl
@[simp] theorem State.setF_engHalf (s : State) (x : Fld) (v : Nat) : (s.setF x v).engHalf = s.engHalf := rfl
@[simp] theorem State.setF_engShare (s : State) (x : Fld) (v : Nat) : (s.setF x v).engShare = s.engShare := rfl
@[simp] theorem State.setF_imgLoads (s : State) (x : Fld) (v : Nat) : (s.setF x v).imgLoads = s.imgLoads := rfl
@[simp] theorem State.setF_behind (s : State) (x : Fld) (v : Nat) : (s.setF x v).behind = s.behind := rfl
@[simp] theorem State.setF_pace (s : State) (x : Fld) (v : Nat) : (s.setF x v).pace = s.pace := rfl
@[simp] theorem State.setF_caps (s : State) (x : Fld) (v : Nat) : (s.setF x v).caps = s.caps := rfl
@[simp] theorem State.setF_capNum (s : State) (x : Fld) (v : Nat) : (s.setF x v).capNum = s.capNum := rfl
@[simp] theorem State.setF_bias (s : State) (x : Fld) (v : Nat) : (s.setF x v).bias = s.bias := rfl
@[simp] theorem State.setF_sens (s : State) (x : Fld) (v : Nat) : (s.setF x v).sens = s.sens := rfl
@[simp] theorem State.setF_mon (s : State) (x : Fld) (v : Nat) : (s.setF x v).mon = s.mon := rfl
@[simp] theorem State.setF_host (s : State) (x : Fld) (v : Nat) : (s.setF x v).host = s.host := rfl
@[simp] theorem State.setF_cmd (s : State) (x : Fld) (v : Nat) : (s.setF x v).cmd = s.cmd := rfl
@[simp] theorem State.setF_time (s : State) (x : Fld) (v : Nat) : (s.setF x v).time = s.time := rfl
@[simp] theorem State.setF_rel (s : State) (x : Fld) (v : Nat) : (s.setF x v).rel = s.rel := rfl
@[simp] theorem State.setF_d2d (s : State) (x : Fld) (v : Nat) : (s.setF x v).d2d = s.d2d := rfl
@[simp] theorem State.setF_mirrored (s : State) (x : Fld) (v : Nat) : (s.setF x v).mirrored = s.mirrored := rfl
@[simp] theorem State.setF_nv (s : State) (x : Fld) (v : Nat) : (s.setF x v).nv = s.nv := rfl
@[simp] theorem State.setF_boot (s : State) (x : Fld) (v : Nat) : (s.setF x v).boot = s.boot := rfl
@[simp] theorem State.setF_tap (s : State) (x : Fld) (v : Nat) : (s.setF x v).tap = s.tap := rfl
@[simp] theorem State.setF_sent (s : State) (x : Fld) (v : Nat) : (s.setF x v).sent = s.sent := rfl
@[simp] theorem State.setF_fresh (s : State) (x : Fld) (v : Nat) : (s.setF x v).fresh = s.fresh := rfl
@[simp] theorem State.setF_pending (s : State) (x : Fld) (v : Nat) : (s.setF x v).pending = s.pending := rfl

@[simp] theorem State.setB_lanes (s : State) (x : Fld) (b : Bool) : (s.setB x b).lanes = s.lanes := rfl
@[simp] theorem State.setB_links (s : State) (x : Fld) (b : Bool) : (s.setB x b).links = s.links := rfl
@[simp] theorem State.setB_line (s : State) (x : Fld) (b : Bool) : (s.setB x b).line = s.line := rfl
@[simp] theorem State.setB_pkts (s : State) (x : Fld) (b : Bool) : (s.setB x b).pkts = s.pkts := rfl
@[simp] theorem State.setB_flows (s : State) (x : Fld) (b : Bool) : (s.setB x b).flows = s.flows := rfl
@[simp] theorem State.setB_flowFx (s : State) (x : Fld) (b : Bool) : (s.setB x b).flowFx = s.flowFx := rfl
@[simp] theorem State.setB_flowOld (s : State) (x : Fld) (b : Bool) : (s.setB x b).flowOld = s.flowOld := rfl
@[simp] theorem State.setB_ctrlSecs (s : State) (x : Fld) (b : Bool) : (s.setB x b).ctrlSecs = s.ctrlSecs := rfl
@[simp] theorem State.setB_dataSecs (s : State) (x : Fld) (b : Bool) : (s.setB x b).dataSecs = s.dataSecs := rfl
@[simp] theorem State.setB_soundSecs (s : State) (x : Fld) (b : Bool) : (s.setB x b).soundSecs = s.soundSecs := rfl
@[simp] theorem State.setB_dlCar (s : State) (x : Fld) (b : Bool) : (s.setB x b).dlCar = s.dlCar := rfl
@[simp] theorem State.setB_dlPend (s : State) (x : Fld) (b : Bool) : (s.setB x b).dlPend = s.dlPend := rfl
@[simp] theorem State.setB_dlSince (s : State) (x : Fld) (b : Bool) : (s.setB x b).dlSince = s.dlSince := rfl
@[simp] theorem State.setB_backoff (s : State) (x : Fld) (b : Bool) : (s.setB x b).backoff = s.backoff := rfl
@[simp] theorem State.setB_backAt (s : State) (x : Fld) (b : Bool) : (s.setB x b).backAt = s.backAt := rfl
@[simp] theorem State.setB_dlOcc (s : State) (x : Fld) (b : Bool) : (s.setB x b).dlOcc = s.dlOcc := rfl
@[simp] theorem State.setB_txp (s : State) (x : Fld) (b : Bool) : (s.setB x b).txp = s.txp := rfl
@[simp] theorem State.setB_dlSat (s : State) (x : Fld) (b : Bool) : (s.setB x b).dlSat = s.dlSat := rfl
@[simp] theorem State.setB_ulCar (s : State) (x : Fld) (b : Bool) : (s.setB x b).ulCar = s.ulCar := rfl
@[simp] theorem State.setB_ulPend (s : State) (x : Fld) (b : Bool) : (s.setB x b).ulPend = s.ulPend := rfl
@[simp] theorem State.setB_ulWas (s : State) (x : Fld) (b : Bool) : (s.setB x b).ulWas = s.ulWas := rfl
@[simp] theorem State.setB_conv (s : State) (x : Fld) (b : Bool) : (s.setB x b).conv = s.conv := rfl
@[simp] theorem State.setB_rxp (s : State) (x : Fld) (b : Bool) : (s.setB x b).rxp = s.rxp := rfl
@[simp] theorem State.setB_filt (s : State) (x : Fld) (b : Bool) : (s.setB x b).filt = s.filt := rfl
@[simp] theorem State.setB_parts (s : State) (x : Fld) (b : Bool) : (s.setB x b).parts = s.parts := rfl
@[simp] theorem State.setB_sums (s : State) (x : Fld) (b : Bool) : (s.setB x b).sums = s.sums := rfl
@[simp] theorem State.setB_ulSat (s : State) (x : Fld) (b : Bool) : (s.setB x b).ulSat = s.ulSat := rfl
@[simp] theorem State.setB_beams (s : State) (x : Fld) (b : Bool) : (s.setB x b).beams = s.beams := rfl
@[simp] theorem State.setB_rows (s : State) (x : Fld) (b : Bool) : (s.setB x b).rows = s.rows := rfl
@[simp] theorem State.setB_stage (s : State) (x : Fld) (b : Bool) : (s.setB x b).stage = s.stage := rfl
@[simp] theorem State.setB_spareRows (s : State) (x : Fld) (b : Bool) : (s.setB x b).spareRows = s.spareRows := rfl
@[simp] theorem State.setB_bulk (s : State) (x : Fld) (b : Bool) : (s.setB x b).bulk = s.bulk := rfl
@[simp] theorem State.setB_solvRec (s : State) (x : Fld) (b : Bool) : (s.setB x b).solvRec = s.solvRec := rfl
@[simp] theorem State.setB_solv (s : State) (x : Fld) (b : Bool) : (s.setB x b).solv = s.solv := rfl
@[simp] theorem State.setB_dpd (s : State) (x : Fld) (b : Bool) : (s.setB x b).dpd = s.dpd := rfl
@[simp] theorem State.setB_sharedOrx (s : State) (x : Fld) (b : Bool) : (s.setB x b).sharedOrx = s.sharedOrx := rfl
@[simp] theorem State.setB_svcAt (s : State) (x : Fld) (b : Bool) : (s.setB x b).svcAt = s.svcAt := rfl
@[simp] theorem State.setB_calp (s : State) (x : Fld) (b : Bool) : (s.setB x b).calp = s.calp := rfl
@[simp] theorem State.setB_calRefs (s : State) (x : Fld) (b : Bool) : (s.setB x b).calRefs = s.calRefs := rfl
@[simp] theorem State.setB_calSets (s : State) (x : Fld) (b : Bool) : (s.setB x b).calSets = s.calSets := rfl
@[simp] theorem State.setB_grp (s : State) (x : Fld) (b : Bool) : (s.setB x b).grp = s.grp := rfl
@[simp] theorem State.setB_tie (s : State) (x : Fld) (b : Bool) : (s.setB x b).tie = s.tie := rfl
@[simp] theorem State.setB_hops (s : State) (x : Fld) (b : Bool) : (s.setB x b).hops = s.hops := rfl
@[simp] theorem State.setB_lox (s : State) (x : Fld) (b : Bool) : (s.setB x b).lox = s.lox := rfl
@[simp] theorem State.setB_ref (s : State) (x : Fld) (b : Bool) : (s.setB x b).ref = s.ref := rfl
@[simp] theorem State.setB_clkTo (s : State) (x : Fld) (b : Bool) : (s.setB x b).clkTo = s.clkTo := rfl
@[simp] theorem State.setB_fe (s : State) (x : Fld) (b : Bool) : (s.setB x b).fe = s.fe := rfl
@[simp] theorem State.setB_feLater (s : State) (x : Fld) (b : Bool) : (s.setB x b).feLater = s.feLater := rfl
@[simp] theorem State.setB_linesOn (s : State) (x : Fld) (b : Bool) : (s.setB x b).linesOn = s.linesOn := rfl
@[simp] theorem State.setB_sched (s : State) (x : Fld) (b : Bool) : (s.setB x b).sched = s.sched := rfl
@[simp] theorem State.setB_schedPend (s : State) (x : Fld) (b : Bool) : (s.setB x b).schedPend = s.schedPend := rfl
@[simp] theorem State.setB_scripts (s : State) (x : Fld) (b : Bool) : (s.setB x b).scripts = s.scripts := rfl
@[simp] theorem State.setB_eng (s : State) (x : Fld) (b : Bool) : (s.setB x b).eng = s.eng := rfl
@[simp] theorem State.setB_engMem (s : State) (x : Fld) (b : Bool) : (s.setB x b).engMem = s.engMem := rfl
@[simp] theorem State.setB_pool (s : State) (x : Fld) (b : Bool) : (s.setB x b).pool = s.pool := rfl
@[simp] theorem State.setB_prog (s : State) (x : Fld) (b : Bool) : (s.setB x b).prog = s.prog := rfl
@[simp] theorem State.setB_slots (s : State) (x : Fld) (b : Bool) : (s.setB x b).slots = s.slots := rfl
@[simp] theorem State.setB_engHalf (s : State) (x : Fld) (b : Bool) : (s.setB x b).engHalf = s.engHalf := rfl
@[simp] theorem State.setB_engShare (s : State) (x : Fld) (b : Bool) : (s.setB x b).engShare = s.engShare := rfl
@[simp] theorem State.setB_imgLoads (s : State) (x : Fld) (b : Bool) : (s.setB x b).imgLoads = s.imgLoads := rfl
@[simp] theorem State.setB_behind (s : State) (x : Fld) (b : Bool) : (s.setB x b).behind = s.behind := rfl
@[simp] theorem State.setB_pace (s : State) (x : Fld) (b : Bool) : (s.setB x b).pace = s.pace := rfl
@[simp] theorem State.setB_caps (s : State) (x : Fld) (b : Bool) : (s.setB x b).caps = s.caps := rfl
@[simp] theorem State.setB_capNum (s : State) (x : Fld) (b : Bool) : (s.setB x b).capNum = s.capNum := rfl
@[simp] theorem State.setB_bias (s : State) (x : Fld) (b : Bool) : (s.setB x b).bias = s.bias := rfl
@[simp] theorem State.setB_sens (s : State) (x : Fld) (b : Bool) : (s.setB x b).sens = s.sens := rfl
@[simp] theorem State.setB_mon (s : State) (x : Fld) (b : Bool) : (s.setB x b).mon = s.mon := rfl
@[simp] theorem State.setB_host (s : State) (x : Fld) (b : Bool) : (s.setB x b).host = s.host := rfl
@[simp] theorem State.setB_cmd (s : State) (x : Fld) (b : Bool) : (s.setB x b).cmd = s.cmd := rfl
@[simp] theorem State.setB_time (s : State) (x : Fld) (b : Bool) : (s.setB x b).time = s.time := rfl
@[simp] theorem State.setB_rel (s : State) (x : Fld) (b : Bool) : (s.setB x b).rel = s.rel := rfl
@[simp] theorem State.setB_d2d (s : State) (x : Fld) (b : Bool) : (s.setB x b).d2d = s.d2d := rfl
@[simp] theorem State.setB_mirrored (s : State) (x : Fld) (b : Bool) : (s.setB x b).mirrored = s.mirrored := rfl
@[simp] theorem State.setB_nv (s : State) (x : Fld) (b : Bool) : (s.setB x b).nv = s.nv := rfl
@[simp] theorem State.setB_boot (s : State) (x : Fld) (b : Bool) : (s.setB x b).boot = s.boot := rfl
@[simp] theorem State.setB_tap (s : State) (x : Fld) (b : Bool) : (s.setB x b).tap = s.tap := rfl
@[simp] theorem State.setB_sent (s : State) (x : Fld) (b : Bool) : (s.setB x b).sent = s.sent := rfl
@[simp] theorem State.setB_fresh (s : State) (x : Fld) (b : Bool) : (s.setB x b).fresh = s.fresh := rfl
@[simp] theorem State.setB_pending (s : State) (x : Fld) (b : Bool) : (s.setB x b).pending = s.pending := rfl

@[simp] theorem State.bump_lanes (s : State) (x : Fld) (n : Nat) : (s.bump x n).lanes = s.lanes := rfl
@[simp] theorem State.bump_links (s : State) (x : Fld) (n : Nat) : (s.bump x n).links = s.links := rfl
@[simp] theorem State.bump_line (s : State) (x : Fld) (n : Nat) : (s.bump x n).line = s.line := rfl
@[simp] theorem State.bump_pkts (s : State) (x : Fld) (n : Nat) : (s.bump x n).pkts = s.pkts := rfl
@[simp] theorem State.bump_flows (s : State) (x : Fld) (n : Nat) : (s.bump x n).flows = s.flows := rfl
@[simp] theorem State.bump_flowFx (s : State) (x : Fld) (n : Nat) : (s.bump x n).flowFx = s.flowFx := rfl
@[simp] theorem State.bump_flowOld (s : State) (x : Fld) (n : Nat) : (s.bump x n).flowOld = s.flowOld := rfl
@[simp] theorem State.bump_ctrlSecs (s : State) (x : Fld) (n : Nat) : (s.bump x n).ctrlSecs = s.ctrlSecs := rfl
@[simp] theorem State.bump_dataSecs (s : State) (x : Fld) (n : Nat) : (s.bump x n).dataSecs = s.dataSecs := rfl
@[simp] theorem State.bump_soundSecs (s : State) (x : Fld) (n : Nat) : (s.bump x n).soundSecs = s.soundSecs := rfl
@[simp] theorem State.bump_dlCar (s : State) (x : Fld) (n : Nat) : (s.bump x n).dlCar = s.dlCar := rfl
@[simp] theorem State.bump_dlPend (s : State) (x : Fld) (n : Nat) : (s.bump x n).dlPend = s.dlPend := rfl
@[simp] theorem State.bump_dlSince (s : State) (x : Fld) (n : Nat) : (s.bump x n).dlSince = s.dlSince := rfl
@[simp] theorem State.bump_backoff (s : State) (x : Fld) (n : Nat) : (s.bump x n).backoff = s.backoff := rfl
@[simp] theorem State.bump_backAt (s : State) (x : Fld) (n : Nat) : (s.bump x n).backAt = s.backAt := rfl
@[simp] theorem State.bump_dlOcc (s : State) (x : Fld) (n : Nat) : (s.bump x n).dlOcc = s.dlOcc := rfl
@[simp] theorem State.bump_txp (s : State) (x : Fld) (n : Nat) : (s.bump x n).txp = s.txp := rfl
@[simp] theorem State.bump_dlSat (s : State) (x : Fld) (n : Nat) : (s.bump x n).dlSat = s.dlSat := rfl
@[simp] theorem State.bump_ulCar (s : State) (x : Fld) (n : Nat) : (s.bump x n).ulCar = s.ulCar := rfl
@[simp] theorem State.bump_ulPend (s : State) (x : Fld) (n : Nat) : (s.bump x n).ulPend = s.ulPend := rfl
@[simp] theorem State.bump_ulWas (s : State) (x : Fld) (n : Nat) : (s.bump x n).ulWas = s.ulWas := rfl
@[simp] theorem State.bump_conv (s : State) (x : Fld) (n : Nat) : (s.bump x n).conv = s.conv := rfl
@[simp] theorem State.bump_rxp (s : State) (x : Fld) (n : Nat) : (s.bump x n).rxp = s.rxp := rfl
@[simp] theorem State.bump_filt (s : State) (x : Fld) (n : Nat) : (s.bump x n).filt = s.filt := rfl
@[simp] theorem State.bump_parts (s : State) (x : Fld) (n : Nat) : (s.bump x n).parts = s.parts := rfl
@[simp] theorem State.bump_sums (s : State) (x : Fld) (n : Nat) : (s.bump x n).sums = s.sums := rfl
@[simp] theorem State.bump_ulSat (s : State) (x : Fld) (n : Nat) : (s.bump x n).ulSat = s.ulSat := rfl
@[simp] theorem State.bump_beams (s : State) (x : Fld) (n : Nat) : (s.bump x n).beams = s.beams := rfl
@[simp] theorem State.bump_rows (s : State) (x : Fld) (n : Nat) : (s.bump x n).rows = s.rows := rfl
@[simp] theorem State.bump_stage (s : State) (x : Fld) (n : Nat) : (s.bump x n).stage = s.stage := rfl
@[simp] theorem State.bump_spareRows (s : State) (x : Fld) (n : Nat) : (s.bump x n).spareRows = s.spareRows := rfl
@[simp] theorem State.bump_bulk (s : State) (x : Fld) (n : Nat) : (s.bump x n).bulk = s.bulk := rfl
@[simp] theorem State.bump_solvRec (s : State) (x : Fld) (n : Nat) : (s.bump x n).solvRec = s.solvRec := rfl
@[simp] theorem State.bump_solv (s : State) (x : Fld) (n : Nat) : (s.bump x n).solv = s.solv := rfl
@[simp] theorem State.bump_dpd (s : State) (x : Fld) (n : Nat) : (s.bump x n).dpd = s.dpd := rfl
@[simp] theorem State.bump_sharedOrx (s : State) (x : Fld) (n : Nat) : (s.bump x n).sharedOrx = s.sharedOrx := rfl
@[simp] theorem State.bump_svcAt (s : State) (x : Fld) (n : Nat) : (s.bump x n).svcAt = s.svcAt := rfl
@[simp] theorem State.bump_calp (s : State) (x : Fld) (n : Nat) : (s.bump x n).calp = s.calp := rfl
@[simp] theorem State.bump_calRefs (s : State) (x : Fld) (n : Nat) : (s.bump x n).calRefs = s.calRefs := rfl
@[simp] theorem State.bump_calSets (s : State) (x : Fld) (n : Nat) : (s.bump x n).calSets = s.calSets := rfl
@[simp] theorem State.bump_grp (s : State) (x : Fld) (n : Nat) : (s.bump x n).grp = s.grp := rfl
@[simp] theorem State.bump_tie (s : State) (x : Fld) (n : Nat) : (s.bump x n).tie = s.tie := rfl
@[simp] theorem State.bump_hops (s : State) (x : Fld) (n : Nat) : (s.bump x n).hops = s.hops := rfl
@[simp] theorem State.bump_lox (s : State) (x : Fld) (n : Nat) : (s.bump x n).lox = s.lox := rfl
@[simp] theorem State.bump_ref (s : State) (x : Fld) (n : Nat) : (s.bump x n).ref = s.ref := rfl
@[simp] theorem State.bump_clkTo (s : State) (x : Fld) (n : Nat) : (s.bump x n).clkTo = s.clkTo := rfl
@[simp] theorem State.bump_fe (s : State) (x : Fld) (n : Nat) : (s.bump x n).fe = s.fe := rfl
@[simp] theorem State.bump_feLater (s : State) (x : Fld) (n : Nat) : (s.bump x n).feLater = s.feLater := rfl
@[simp] theorem State.bump_linesOn (s : State) (x : Fld) (n : Nat) : (s.bump x n).linesOn = s.linesOn := rfl
@[simp] theorem State.bump_sched (s : State) (x : Fld) (n : Nat) : (s.bump x n).sched = s.sched := rfl
@[simp] theorem State.bump_schedPend (s : State) (x : Fld) (n : Nat) : (s.bump x n).schedPend = s.schedPend := rfl
@[simp] theorem State.bump_scripts (s : State) (x : Fld) (n : Nat) : (s.bump x n).scripts = s.scripts := rfl
@[simp] theorem State.bump_eng (s : State) (x : Fld) (n : Nat) : (s.bump x n).eng = s.eng := rfl
@[simp] theorem State.bump_engMem (s : State) (x : Fld) (n : Nat) : (s.bump x n).engMem = s.engMem := rfl
@[simp] theorem State.bump_pool (s : State) (x : Fld) (n : Nat) : (s.bump x n).pool = s.pool := rfl
@[simp] theorem State.bump_prog (s : State) (x : Fld) (n : Nat) : (s.bump x n).prog = s.prog := rfl
@[simp] theorem State.bump_slots (s : State) (x : Fld) (n : Nat) : (s.bump x n).slots = s.slots := rfl
@[simp] theorem State.bump_engHalf (s : State) (x : Fld) (n : Nat) : (s.bump x n).engHalf = s.engHalf := rfl
@[simp] theorem State.bump_engShare (s : State) (x : Fld) (n : Nat) : (s.bump x n).engShare = s.engShare := rfl
@[simp] theorem State.bump_imgLoads (s : State) (x : Fld) (n : Nat) : (s.bump x n).imgLoads = s.imgLoads := rfl
@[simp] theorem State.bump_behind (s : State) (x : Fld) (n : Nat) : (s.bump x n).behind = s.behind := rfl
@[simp] theorem State.bump_pace (s : State) (x : Fld) (n : Nat) : (s.bump x n).pace = s.pace := rfl
@[simp] theorem State.bump_caps (s : State) (x : Fld) (n : Nat) : (s.bump x n).caps = s.caps := rfl
@[simp] theorem State.bump_capNum (s : State) (x : Fld) (n : Nat) : (s.bump x n).capNum = s.capNum := rfl
@[simp] theorem State.bump_bias (s : State) (x : Fld) (n : Nat) : (s.bump x n).bias = s.bias := rfl
@[simp] theorem State.bump_sens (s : State) (x : Fld) (n : Nat) : (s.bump x n).sens = s.sens := rfl
@[simp] theorem State.bump_mon (s : State) (x : Fld) (n : Nat) : (s.bump x n).mon = s.mon := rfl
@[simp] theorem State.bump_host (s : State) (x : Fld) (n : Nat) : (s.bump x n).host = s.host := rfl
@[simp] theorem State.bump_cmd (s : State) (x : Fld) (n : Nat) : (s.bump x n).cmd = s.cmd := rfl
@[simp] theorem State.bump_time (s : State) (x : Fld) (n : Nat) : (s.bump x n).time = s.time := rfl
@[simp] theorem State.bump_rel (s : State) (x : Fld) (n : Nat) : (s.bump x n).rel = s.rel := rfl
@[simp] theorem State.bump_d2d (s : State) (x : Fld) (n : Nat) : (s.bump x n).d2d = s.d2d := rfl
@[simp] theorem State.bump_mirrored (s : State) (x : Fld) (n : Nat) : (s.bump x n).mirrored = s.mirrored := rfl
@[simp] theorem State.bump_nv (s : State) (x : Fld) (n : Nat) : (s.bump x n).nv = s.nv := rfl
@[simp] theorem State.bump_boot (s : State) (x : Fld) (n : Nat) : (s.bump x n).boot = s.boot := rfl
@[simp] theorem State.bump_tap (s : State) (x : Fld) (n : Nat) : (s.bump x n).tap = s.tap := rfl
@[simp] theorem State.bump_sent (s : State) (x : Fld) (n : Nat) : (s.bump x n).sent = s.sent := rfl
@[simp] theorem State.bump_fresh (s : State) (x : Fld) (n : Nat) : (s.bump x n).fresh = s.fresh := rfl
@[simp] theorem State.bump_pending (s : State) (x : Fld) (n : Nat) : (s.bump x n).pending = s.pending := rfl

@[simp] theorem State.setDom_lanes (s : State) (h d v : Nat) : (s.setDom h d v).lanes = s.lanes := rfl
@[simp] theorem State.setDom_links (s : State) (h d v : Nat) : (s.setDom h d v).links = s.links := rfl
@[simp] theorem State.setDom_line (s : State) (h d v : Nat) : (s.setDom h d v).line = s.line := rfl
@[simp] theorem State.setDom_pkts (s : State) (h d v : Nat) : (s.setDom h d v).pkts = s.pkts := rfl
@[simp] theorem State.setDom_flows (s : State) (h d v : Nat) : (s.setDom h d v).flows = s.flows := rfl
@[simp] theorem State.setDom_flowFx (s : State) (h d v : Nat) : (s.setDom h d v).flowFx = s.flowFx := rfl
@[simp] theorem State.setDom_flowOld (s : State) (h d v : Nat) : (s.setDom h d v).flowOld = s.flowOld := rfl
@[simp] theorem State.setDom_ctrlSecs (s : State) (h d v : Nat) : (s.setDom h d v).ctrlSecs = s.ctrlSecs := rfl
@[simp] theorem State.setDom_dataSecs (s : State) (h d v : Nat) : (s.setDom h d v).dataSecs = s.dataSecs := rfl
@[simp] theorem State.setDom_soundSecs (s : State) (h d v : Nat) : (s.setDom h d v).soundSecs = s.soundSecs := rfl
@[simp] theorem State.setDom_dlCar (s : State) (h d v : Nat) : (s.setDom h d v).dlCar = s.dlCar := rfl
@[simp] theorem State.setDom_dlPend (s : State) (h d v : Nat) : (s.setDom h d v).dlPend = s.dlPend := rfl
@[simp] theorem State.setDom_dlSince (s : State) (h d v : Nat) : (s.setDom h d v).dlSince = s.dlSince := rfl
@[simp] theorem State.setDom_backoff (s : State) (h d v : Nat) : (s.setDom h d v).backoff = s.backoff := rfl
@[simp] theorem State.setDom_backAt (s : State) (h d v : Nat) : (s.setDom h d v).backAt = s.backAt := rfl
@[simp] theorem State.setDom_dlOcc (s : State) (h d v : Nat) : (s.setDom h d v).dlOcc = s.dlOcc := rfl
@[simp] theorem State.setDom_txp (s : State) (h d v : Nat) : (s.setDom h d v).txp = s.txp := rfl
@[simp] theorem State.setDom_dlSat (s : State) (h d v : Nat) : (s.setDom h d v).dlSat = s.dlSat := rfl
@[simp] theorem State.setDom_ulCar (s : State) (h d v : Nat) : (s.setDom h d v).ulCar = s.ulCar := rfl
@[simp] theorem State.setDom_ulPend (s : State) (h d v : Nat) : (s.setDom h d v).ulPend = s.ulPend := rfl
@[simp] theorem State.setDom_ulWas (s : State) (h d v : Nat) : (s.setDom h d v).ulWas = s.ulWas := rfl
@[simp] theorem State.setDom_conv (s : State) (h d v : Nat) : (s.setDom h d v).conv = s.conv := rfl
@[simp] theorem State.setDom_rxp (s : State) (h d v : Nat) : (s.setDom h d v).rxp = s.rxp := rfl
@[simp] theorem State.setDom_filt (s : State) (h d v : Nat) : (s.setDom h d v).filt = s.filt := rfl
@[simp] theorem State.setDom_parts (s : State) (h d v : Nat) : (s.setDom h d v).parts = s.parts := rfl
@[simp] theorem State.setDom_sums (s : State) (h d v : Nat) : (s.setDom h d v).sums = s.sums := rfl
@[simp] theorem State.setDom_ulSat (s : State) (h d v : Nat) : (s.setDom h d v).ulSat = s.ulSat := rfl
@[simp] theorem State.setDom_beams (s : State) (h d v : Nat) : (s.setDom h d v).beams = s.beams := rfl
@[simp] theorem State.setDom_rows (s : State) (h d v : Nat) : (s.setDom h d v).rows = s.rows := rfl
@[simp] theorem State.setDom_stage (s : State) (h d v : Nat) : (s.setDom h d v).stage = s.stage := rfl
@[simp] theorem State.setDom_spareRows (s : State) (h d v : Nat) : (s.setDom h d v).spareRows = s.spareRows := rfl
@[simp] theorem State.setDom_bulk (s : State) (h d v : Nat) : (s.setDom h d v).bulk = s.bulk := rfl
@[simp] theorem State.setDom_solvRec (s : State) (h d v : Nat) : (s.setDom h d v).solvRec = s.solvRec := rfl
@[simp] theorem State.setDom_solv (s : State) (h d v : Nat) : (s.setDom h d v).solv = s.solv := rfl
@[simp] theorem State.setDom_dpd (s : State) (h d v : Nat) : (s.setDom h d v).dpd = s.dpd := rfl
@[simp] theorem State.setDom_sharedOrx (s : State) (h d v : Nat) : (s.setDom h d v).sharedOrx = s.sharedOrx := rfl
@[simp] theorem State.setDom_svcAt (s : State) (h d v : Nat) : (s.setDom h d v).svcAt = s.svcAt := rfl
@[simp] theorem State.setDom_calp (s : State) (h d v : Nat) : (s.setDom h d v).calp = s.calp := rfl
@[simp] theorem State.setDom_calRefs (s : State) (h d v : Nat) : (s.setDom h d v).calRefs = s.calRefs := rfl
@[simp] theorem State.setDom_calSets (s : State) (h d v : Nat) : (s.setDom h d v).calSets = s.calSets := rfl
@[simp] theorem State.setDom_grp (s : State) (h d v : Nat) : (s.setDom h d v).grp = s.grp := rfl
@[simp] theorem State.setDom_tie (s : State) (h d v : Nat) : (s.setDom h d v).tie = s.tie := rfl
@[simp] theorem State.setDom_hops (s : State) (h d v : Nat) : (s.setDom h d v).hops = s.hops := rfl
@[simp] theorem State.setDom_lox (s : State) (h d v : Nat) : (s.setDom h d v).lox = s.lox := rfl
@[simp] theorem State.setDom_ref (s : State) (h d v : Nat) : (s.setDom h d v).ref = s.ref := rfl
@[simp] theorem State.setDom_clkTo (s : State) (h d v : Nat) : (s.setDom h d v).clkTo = s.clkTo := rfl
@[simp] theorem State.setDom_fe (s : State) (h d v : Nat) : (s.setDom h d v).fe = s.fe := rfl
@[simp] theorem State.setDom_feLater (s : State) (h d v : Nat) : (s.setDom h d v).feLater = s.feLater := rfl
@[simp] theorem State.setDom_linesOn (s : State) (h d v : Nat) : (s.setDom h d v).linesOn = s.linesOn := rfl
@[simp] theorem State.setDom_sched (s : State) (h d v : Nat) : (s.setDom h d v).sched = s.sched := rfl
@[simp] theorem State.setDom_schedPend (s : State) (h d v : Nat) : (s.setDom h d v).schedPend = s.schedPend := rfl
@[simp] theorem State.setDom_scripts (s : State) (h d v : Nat) : (s.setDom h d v).scripts = s.scripts := rfl
@[simp] theorem State.setDom_eng (s : State) (h d v : Nat) : (s.setDom h d v).eng = s.eng := rfl
@[simp] theorem State.setDom_engMem (s : State) (h d v : Nat) : (s.setDom h d v).engMem = s.engMem := rfl
@[simp] theorem State.setDom_pool (s : State) (h d v : Nat) : (s.setDom h d v).pool = s.pool := rfl
@[simp] theorem State.setDom_prog (s : State) (h d v : Nat) : (s.setDom h d v).prog = s.prog := rfl
@[simp] theorem State.setDom_slots (s : State) (h d v : Nat) : (s.setDom h d v).slots = s.slots := rfl
@[simp] theorem State.setDom_engHalf (s : State) (h d v : Nat) : (s.setDom h d v).engHalf = s.engHalf := rfl
@[simp] theorem State.setDom_engShare (s : State) (h d v : Nat) : (s.setDom h d v).engShare = s.engShare := rfl
@[simp] theorem State.setDom_imgLoads (s : State) (h d v : Nat) : (s.setDom h d v).imgLoads = s.imgLoads := rfl
@[simp] theorem State.setDom_behind (s : State) (h d v : Nat) : (s.setDom h d v).behind = s.behind := rfl
@[simp] theorem State.setDom_pace (s : State) (h d v : Nat) : (s.setDom h d v).pace = s.pace := rfl
@[simp] theorem State.setDom_caps (s : State) (h d v : Nat) : (s.setDom h d v).caps = s.caps := rfl
@[simp] theorem State.setDom_capNum (s : State) (h d v : Nat) : (s.setDom h d v).capNum = s.capNum := rfl
@[simp] theorem State.setDom_bias (s : State) (h d v : Nat) : (s.setDom h d v).bias = s.bias := rfl
@[simp] theorem State.setDom_sens (s : State) (h d v : Nat) : (s.setDom h d v).sens = s.sens := rfl
@[simp] theorem State.setDom_mon (s : State) (h d v : Nat) : (s.setDom h d v).mon = s.mon := rfl
@[simp] theorem State.setDom_host (s : State) (h d v : Nat) : (s.setDom h d v).host = s.host := rfl
@[simp] theorem State.setDom_cmd (s : State) (h d v : Nat) : (s.setDom h d v).cmd = s.cmd := rfl
@[simp] theorem State.setDom_time (s : State) (h d v : Nat) : (s.setDom h d v).time = s.time := rfl
@[simp] theorem State.setDom_rel (s : State) (h d v : Nat) : (s.setDom h d v).rel = s.rel := rfl
@[simp] theorem State.setDom_d2d (s : State) (h d v : Nat) : (s.setDom h d v).d2d = s.d2d := rfl
@[simp] theorem State.setDom_mirrored (s : State) (h d v : Nat) : (s.setDom h d v).mirrored = s.mirrored := rfl
@[simp] theorem State.setDom_nv (s : State) (h d v : Nat) : (s.setDom h d v).nv = s.nv := rfl
@[simp] theorem State.setDom_boot (s : State) (h d v : Nat) : (s.setDom h d v).boot = s.boot := rfl
@[simp] theorem State.setDom_tap (s : State) (h d v : Nat) : (s.setDom h d v).tap = s.tap := rfl
@[simp] theorem State.setDom_sent (s : State) (h d v : Nat) : (s.setDom h d v).sent = s.sent := rfl
@[simp] theorem State.setDom_fresh (s : State) (h d v : Nat) : (s.setDom h d v).fresh = s.fresh := rfl
@[simp] theorem State.setDom_pending (s : State) (h d v : Nat) : (s.setDom h d v).pending = s.pending := rfl

@[simp] theorem State.emit_regs (s : State) (o : Out) : (s.emit o).regs = s.regs := rfl
@[simp] theorem State.emit_lanes (s : State) (o : Out) : (s.emit o).lanes = s.lanes := rfl
@[simp] theorem State.emit_links (s : State) (o : Out) : (s.emit o).links = s.links := rfl
@[simp] theorem State.emit_line (s : State) (o : Out) : (s.emit o).line = s.line := rfl
@[simp] theorem State.emit_pkts (s : State) (o : Out) : (s.emit o).pkts = s.pkts := rfl
@[simp] theorem State.emit_flows (s : State) (o : Out) : (s.emit o).flows = s.flows := rfl
@[simp] theorem State.emit_flowFx (s : State) (o : Out) : (s.emit o).flowFx = s.flowFx := rfl
@[simp] theorem State.emit_flowOld (s : State) (o : Out) : (s.emit o).flowOld = s.flowOld := rfl
@[simp] theorem State.emit_ctrlSecs (s : State) (o : Out) : (s.emit o).ctrlSecs = s.ctrlSecs := rfl
@[simp] theorem State.emit_dataSecs (s : State) (o : Out) : (s.emit o).dataSecs = s.dataSecs := rfl
@[simp] theorem State.emit_soundSecs (s : State) (o : Out) : (s.emit o).soundSecs = s.soundSecs := rfl
@[simp] theorem State.emit_dlCar (s : State) (o : Out) : (s.emit o).dlCar = s.dlCar := rfl
@[simp] theorem State.emit_dlPend (s : State) (o : Out) : (s.emit o).dlPend = s.dlPend := rfl
@[simp] theorem State.emit_dlSince (s : State) (o : Out) : (s.emit o).dlSince = s.dlSince := rfl
@[simp] theorem State.emit_backoff (s : State) (o : Out) : (s.emit o).backoff = s.backoff := rfl
@[simp] theorem State.emit_backAt (s : State) (o : Out) : (s.emit o).backAt = s.backAt := rfl
@[simp] theorem State.emit_dlOcc (s : State) (o : Out) : (s.emit o).dlOcc = s.dlOcc := rfl
@[simp] theorem State.emit_txp (s : State) (o : Out) : (s.emit o).txp = s.txp := rfl
@[simp] theorem State.emit_dlSat (s : State) (o : Out) : (s.emit o).dlSat = s.dlSat := rfl
@[simp] theorem State.emit_ulCar (s : State) (o : Out) : (s.emit o).ulCar = s.ulCar := rfl
@[simp] theorem State.emit_ulPend (s : State) (o : Out) : (s.emit o).ulPend = s.ulPend := rfl
@[simp] theorem State.emit_ulWas (s : State) (o : Out) : (s.emit o).ulWas = s.ulWas := rfl
@[simp] theorem State.emit_conv (s : State) (o : Out) : (s.emit o).conv = s.conv := rfl
@[simp] theorem State.emit_rxp (s : State) (o : Out) : (s.emit o).rxp = s.rxp := rfl
@[simp] theorem State.emit_filt (s : State) (o : Out) : (s.emit o).filt = s.filt := rfl
@[simp] theorem State.emit_parts (s : State) (o : Out) : (s.emit o).parts = s.parts := rfl
@[simp] theorem State.emit_sums (s : State) (o : Out) : (s.emit o).sums = s.sums := rfl
@[simp] theorem State.emit_ulSat (s : State) (o : Out) : (s.emit o).ulSat = s.ulSat := rfl
@[simp] theorem State.emit_beams (s : State) (o : Out) : (s.emit o).beams = s.beams := rfl
@[simp] theorem State.emit_rows (s : State) (o : Out) : (s.emit o).rows = s.rows := rfl
@[simp] theorem State.emit_stage (s : State) (o : Out) : (s.emit o).stage = s.stage := rfl
@[simp] theorem State.emit_spareRows (s : State) (o : Out) : (s.emit o).spareRows = s.spareRows := rfl
@[simp] theorem State.emit_bulk (s : State) (o : Out) : (s.emit o).bulk = s.bulk := rfl
@[simp] theorem State.emit_solvRec (s : State) (o : Out) : (s.emit o).solvRec = s.solvRec := rfl
@[simp] theorem State.emit_solv (s : State) (o : Out) : (s.emit o).solv = s.solv := rfl
@[simp] theorem State.emit_dpd (s : State) (o : Out) : (s.emit o).dpd = s.dpd := rfl
@[simp] theorem State.emit_sharedOrx (s : State) (o : Out) : (s.emit o).sharedOrx = s.sharedOrx := rfl
@[simp] theorem State.emit_svcAt (s : State) (o : Out) : (s.emit o).svcAt = s.svcAt := rfl
@[simp] theorem State.emit_calp (s : State) (o : Out) : (s.emit o).calp = s.calp := rfl
@[simp] theorem State.emit_calRefs (s : State) (o : Out) : (s.emit o).calRefs = s.calRefs := rfl
@[simp] theorem State.emit_calSets (s : State) (o : Out) : (s.emit o).calSets = s.calSets := rfl
@[simp] theorem State.emit_grp (s : State) (o : Out) : (s.emit o).grp = s.grp := rfl
@[simp] theorem State.emit_tie (s : State) (o : Out) : (s.emit o).tie = s.tie := rfl
@[simp] theorem State.emit_hops (s : State) (o : Out) : (s.emit o).hops = s.hops := rfl
@[simp] theorem State.emit_lox (s : State) (o : Out) : (s.emit o).lox = s.lox := rfl
@[simp] theorem State.emit_ref (s : State) (o : Out) : (s.emit o).ref = s.ref := rfl
@[simp] theorem State.emit_clkTo (s : State) (o : Out) : (s.emit o).clkTo = s.clkTo := rfl
@[simp] theorem State.emit_fe (s : State) (o : Out) : (s.emit o).fe = s.fe := rfl
@[simp] theorem State.emit_feLater (s : State) (o : Out) : (s.emit o).feLater = s.feLater := rfl
@[simp] theorem State.emit_linesOn (s : State) (o : Out) : (s.emit o).linesOn = s.linesOn := rfl
@[simp] theorem State.emit_sched (s : State) (o : Out) : (s.emit o).sched = s.sched := rfl
@[simp] theorem State.emit_schedPend (s : State) (o : Out) : (s.emit o).schedPend = s.schedPend := rfl
@[simp] theorem State.emit_scripts (s : State) (o : Out) : (s.emit o).scripts = s.scripts := rfl
@[simp] theorem State.emit_eng (s : State) (o : Out) : (s.emit o).eng = s.eng := rfl
@[simp] theorem State.emit_engMem (s : State) (o : Out) : (s.emit o).engMem = s.engMem := rfl
@[simp] theorem State.emit_pool (s : State) (o : Out) : (s.emit o).pool = s.pool := rfl
@[simp] theorem State.emit_prog (s : State) (o : Out) : (s.emit o).prog = s.prog := rfl
@[simp] theorem State.emit_slots (s : State) (o : Out) : (s.emit o).slots = s.slots := rfl
@[simp] theorem State.emit_engHalf (s : State) (o : Out) : (s.emit o).engHalf = s.engHalf := rfl
@[simp] theorem State.emit_engShare (s : State) (o : Out) : (s.emit o).engShare = s.engShare := rfl
@[simp] theorem State.emit_imgLoads (s : State) (o : Out) : (s.emit o).imgLoads = s.imgLoads := rfl
@[simp] theorem State.emit_behind (s : State) (o : Out) : (s.emit o).behind = s.behind := rfl
@[simp] theorem State.emit_pace (s : State) (o : Out) : (s.emit o).pace = s.pace := rfl
@[simp] theorem State.emit_caps (s : State) (o : Out) : (s.emit o).caps = s.caps := rfl
@[simp] theorem State.emit_capNum (s : State) (o : Out) : (s.emit o).capNum = s.capNum := rfl
@[simp] theorem State.emit_bias (s : State) (o : Out) : (s.emit o).bias = s.bias := rfl
@[simp] theorem State.emit_sens (s : State) (o : Out) : (s.emit o).sens = s.sens := rfl
@[simp] theorem State.emit_mon (s : State) (o : Out) : (s.emit o).mon = s.mon := rfl
@[simp] theorem State.emit_host (s : State) (o : Out) : (s.emit o).host = s.host := rfl
@[simp] theorem State.emit_cmd (s : State) (o : Out) : (s.emit o).cmd = s.cmd := rfl
@[simp] theorem State.emit_time (s : State) (o : Out) : (s.emit o).time = s.time := rfl
@[simp] theorem State.emit_rel (s : State) (o : Out) : (s.emit o).rel = s.rel := rfl
@[simp] theorem State.emit_d2d (s : State) (o : Out) : (s.emit o).d2d = s.d2d := rfl
@[simp] theorem State.emit_mirrored (s : State) (o : Out) : (s.emit o).mirrored = s.mirrored := rfl
@[simp] theorem State.emit_nv (s : State) (o : Out) : (s.emit o).nv = s.nv := rfl
@[simp] theorem State.emit_boot (s : State) (o : Out) : (s.emit o).boot = s.boot := rfl
@[simp] theorem State.emit_tap (s : State) (o : Out) : (s.emit o).tap = s.tap := rfl
@[simp] theorem State.emit_fresh (s : State) (o : Out) : (s.emit o).fresh = s.fresh := rfl
@[simp] theorem State.emit_pending (s : State) (o : Out) : (s.emit o).pending = s.pending := rfl

@[simp] theorem State.mapHost_regs (s : State) (f : HostSt → HostSt) : (s.mapHost f).regs = s.regs := rfl
@[simp] theorem State.mapHost_lanes (s : State) (f : HostSt → HostSt) : (s.mapHost f).lanes = s.lanes := rfl
@[simp] theorem State.mapHost_links (s : State) (f : HostSt → HostSt) : (s.mapHost f).links = s.links := rfl
@[simp] theorem State.mapHost_line (s : State) (f : HostSt → HostSt) : (s.mapHost f).line = s.line := rfl
@[simp] theorem State.mapHost_pkts (s : State) (f : HostSt → HostSt) : (s.mapHost f).pkts = s.pkts := rfl
@[simp] theorem State.mapHost_flows (s : State) (f : HostSt → HostSt) : (s.mapHost f).flows = s.flows := rfl
@[simp] theorem State.mapHost_flowFx (s : State) (f : HostSt → HostSt) : (s.mapHost f).flowFx = s.flowFx := rfl
@[simp] theorem State.mapHost_flowOld (s : State) (f : HostSt → HostSt) : (s.mapHost f).flowOld = s.flowOld := rfl
@[simp] theorem State.mapHost_ctrlSecs (s : State) (f : HostSt → HostSt) : (s.mapHost f).ctrlSecs = s.ctrlSecs := rfl
@[simp] theorem State.mapHost_dataSecs (s : State) (f : HostSt → HostSt) : (s.mapHost f).dataSecs = s.dataSecs := rfl
@[simp] theorem State.mapHost_soundSecs (s : State) (f : HostSt → HostSt) : (s.mapHost f).soundSecs = s.soundSecs := rfl
@[simp] theorem State.mapHost_dlCar (s : State) (f : HostSt → HostSt) : (s.mapHost f).dlCar = s.dlCar := rfl
@[simp] theorem State.mapHost_dlPend (s : State) (f : HostSt → HostSt) : (s.mapHost f).dlPend = s.dlPend := rfl
@[simp] theorem State.mapHost_dlSince (s : State) (f : HostSt → HostSt) : (s.mapHost f).dlSince = s.dlSince := rfl
@[simp] theorem State.mapHost_backoff (s : State) (f : HostSt → HostSt) : (s.mapHost f).backoff = s.backoff := rfl
@[simp] theorem State.mapHost_backAt (s : State) (f : HostSt → HostSt) : (s.mapHost f).backAt = s.backAt := rfl
@[simp] theorem State.mapHost_dlOcc (s : State) (f : HostSt → HostSt) : (s.mapHost f).dlOcc = s.dlOcc := rfl
@[simp] theorem State.mapHost_txp (s : State) (f : HostSt → HostSt) : (s.mapHost f).txp = s.txp := rfl
@[simp] theorem State.mapHost_dlSat (s : State) (f : HostSt → HostSt) : (s.mapHost f).dlSat = s.dlSat := rfl
@[simp] theorem State.mapHost_ulCar (s : State) (f : HostSt → HostSt) : (s.mapHost f).ulCar = s.ulCar := rfl
@[simp] theorem State.mapHost_ulPend (s : State) (f : HostSt → HostSt) : (s.mapHost f).ulPend = s.ulPend := rfl
@[simp] theorem State.mapHost_ulWas (s : State) (f : HostSt → HostSt) : (s.mapHost f).ulWas = s.ulWas := rfl
@[simp] theorem State.mapHost_conv (s : State) (f : HostSt → HostSt) : (s.mapHost f).conv = s.conv := rfl
@[simp] theorem State.mapHost_rxp (s : State) (f : HostSt → HostSt) : (s.mapHost f).rxp = s.rxp := rfl
@[simp] theorem State.mapHost_filt (s : State) (f : HostSt → HostSt) : (s.mapHost f).filt = s.filt := rfl
@[simp] theorem State.mapHost_parts (s : State) (f : HostSt → HostSt) : (s.mapHost f).parts = s.parts := rfl
@[simp] theorem State.mapHost_sums (s : State) (f : HostSt → HostSt) : (s.mapHost f).sums = s.sums := rfl
@[simp] theorem State.mapHost_ulSat (s : State) (f : HostSt → HostSt) : (s.mapHost f).ulSat = s.ulSat := rfl
@[simp] theorem State.mapHost_beams (s : State) (f : HostSt → HostSt) : (s.mapHost f).beams = s.beams := rfl
@[simp] theorem State.mapHost_rows (s : State) (f : HostSt → HostSt) : (s.mapHost f).rows = s.rows := rfl
@[simp] theorem State.mapHost_stage (s : State) (f : HostSt → HostSt) : (s.mapHost f).stage = s.stage := rfl
@[simp] theorem State.mapHost_spareRows (s : State) (f : HostSt → HostSt) : (s.mapHost f).spareRows = s.spareRows := rfl
@[simp] theorem State.mapHost_bulk (s : State) (f : HostSt → HostSt) : (s.mapHost f).bulk = s.bulk := rfl
@[simp] theorem State.mapHost_solvRec (s : State) (f : HostSt → HostSt) : (s.mapHost f).solvRec = s.solvRec := rfl
@[simp] theorem State.mapHost_solv (s : State) (f : HostSt → HostSt) : (s.mapHost f).solv = s.solv := rfl
@[simp] theorem State.mapHost_dpd (s : State) (f : HostSt → HostSt) : (s.mapHost f).dpd = s.dpd := rfl
@[simp] theorem State.mapHost_sharedOrx (s : State) (f : HostSt → HostSt) : (s.mapHost f).sharedOrx = s.sharedOrx := rfl
@[simp] theorem State.mapHost_svcAt (s : State) (f : HostSt → HostSt) : (s.mapHost f).svcAt = s.svcAt := rfl
@[simp] theorem State.mapHost_calp (s : State) (f : HostSt → HostSt) : (s.mapHost f).calp = s.calp := rfl
@[simp] theorem State.mapHost_calRefs (s : State) (f : HostSt → HostSt) : (s.mapHost f).calRefs = s.calRefs := rfl
@[simp] theorem State.mapHost_calSets (s : State) (f : HostSt → HostSt) : (s.mapHost f).calSets = s.calSets := rfl
@[simp] theorem State.mapHost_grp (s : State) (f : HostSt → HostSt) : (s.mapHost f).grp = s.grp := rfl
@[simp] theorem State.mapHost_tie (s : State) (f : HostSt → HostSt) : (s.mapHost f).tie = s.tie := rfl
@[simp] theorem State.mapHost_hops (s : State) (f : HostSt → HostSt) : (s.mapHost f).hops = s.hops := rfl
@[simp] theorem State.mapHost_lox (s : State) (f : HostSt → HostSt) : (s.mapHost f).lox = s.lox := rfl
@[simp] theorem State.mapHost_ref (s : State) (f : HostSt → HostSt) : (s.mapHost f).ref = s.ref := rfl
@[simp] theorem State.mapHost_clkTo (s : State) (f : HostSt → HostSt) : (s.mapHost f).clkTo = s.clkTo := rfl
@[simp] theorem State.mapHost_fe (s : State) (f : HostSt → HostSt) : (s.mapHost f).fe = s.fe := rfl
@[simp] theorem State.mapHost_feLater (s : State) (f : HostSt → HostSt) : (s.mapHost f).feLater = s.feLater := rfl
@[simp] theorem State.mapHost_linesOn (s : State) (f : HostSt → HostSt) : (s.mapHost f).linesOn = s.linesOn := rfl
@[simp] theorem State.mapHost_sched (s : State) (f : HostSt → HostSt) : (s.mapHost f).sched = s.sched := rfl
@[simp] theorem State.mapHost_schedPend (s : State) (f : HostSt → HostSt) : (s.mapHost f).schedPend = s.schedPend := rfl
@[simp] theorem State.mapHost_scripts (s : State) (f : HostSt → HostSt) : (s.mapHost f).scripts = s.scripts := rfl
@[simp] theorem State.mapHost_eng (s : State) (f : HostSt → HostSt) : (s.mapHost f).eng = s.eng := rfl
@[simp] theorem State.mapHost_engMem (s : State) (f : HostSt → HostSt) : (s.mapHost f).engMem = s.engMem := rfl
@[simp] theorem State.mapHost_pool (s : State) (f : HostSt → HostSt) : (s.mapHost f).pool = s.pool := rfl
@[simp] theorem State.mapHost_prog (s : State) (f : HostSt → HostSt) : (s.mapHost f).prog = s.prog := rfl
@[simp] theorem State.mapHost_slots (s : State) (f : HostSt → HostSt) : (s.mapHost f).slots = s.slots := rfl
@[simp] theorem State.mapHost_engHalf (s : State) (f : HostSt → HostSt) : (s.mapHost f).engHalf = s.engHalf := rfl
@[simp] theorem State.mapHost_engShare (s : State) (f : HostSt → HostSt) : (s.mapHost f).engShare = s.engShare := rfl
@[simp] theorem State.mapHost_imgLoads (s : State) (f : HostSt → HostSt) : (s.mapHost f).imgLoads = s.imgLoads := rfl
@[simp] theorem State.mapHost_behind (s : State) (f : HostSt → HostSt) : (s.mapHost f).behind = s.behind := rfl
@[simp] theorem State.mapHost_pace (s : State) (f : HostSt → HostSt) : (s.mapHost f).pace = s.pace := rfl
@[simp] theorem State.mapHost_caps (s : State) (f : HostSt → HostSt) : (s.mapHost f).caps = s.caps := rfl
@[simp] theorem State.mapHost_capNum (s : State) (f : HostSt → HostSt) : (s.mapHost f).capNum = s.capNum := rfl
@[simp] theorem State.mapHost_bias (s : State) (f : HostSt → HostSt) : (s.mapHost f).bias = s.bias := rfl
@[simp] theorem State.mapHost_sens (s : State) (f : HostSt → HostSt) : (s.mapHost f).sens = s.sens := rfl
@[simp] theorem State.mapHost_mon (s : State) (f : HostSt → HostSt) : (s.mapHost f).mon = s.mon := rfl
@[simp] theorem State.mapHost_cmd (s : State) (f : HostSt → HostSt) : (s.mapHost f).cmd = s.cmd := rfl
@[simp] theorem State.mapHost_time (s : State) (f : HostSt → HostSt) : (s.mapHost f).time = s.time := rfl
@[simp] theorem State.mapHost_rel (s : State) (f : HostSt → HostSt) : (s.mapHost f).rel = s.rel := rfl
@[simp] theorem State.mapHost_d2d (s : State) (f : HostSt → HostSt) : (s.mapHost f).d2d = s.d2d := rfl
@[simp] theorem State.mapHost_mirrored (s : State) (f : HostSt → HostSt) : (s.mapHost f).mirrored = s.mirrored := rfl
@[simp] theorem State.mapHost_nv (s : State) (f : HostSt → HostSt) : (s.mapHost f).nv = s.nv := rfl
@[simp] theorem State.mapHost_boot (s : State) (f : HostSt → HostSt) : (s.mapHost f).boot = s.boot := rfl
@[simp] theorem State.mapHost_tap (s : State) (f : HostSt → HostSt) : (s.mapHost f).tap = s.tap := rfl
@[simp] theorem State.mapHost_sent (s : State) (f : HostSt → HostSt) : (s.mapHost f).sent = s.sent := rfl
@[simp] theorem State.mapHost_fresh (s : State) (f : HostSt → HostSt) : (s.mapHost f).fresh = s.fresh := rfl
@[simp] theorem State.mapHost_pending (s : State) (f : HostSt → HostSt) : (s.mapHost f).pending = s.pending := rfl

@[simp] theorem State.mapCmd_regs (s : State) (f : CmdSt → CmdSt) : (s.mapCmd f).regs = s.regs := rfl
@[simp] theorem State.mapCmd_lanes (s : State) (f : CmdSt → CmdSt) : (s.mapCmd f).lanes = s.lanes := rfl
@[simp] theorem State.mapCmd_links (s : State) (f : CmdSt → CmdSt) : (s.mapCmd f).links = s.links := rfl
@[simp] theorem State.mapCmd_line (s : State) (f : CmdSt → CmdSt) : (s.mapCmd f).line = s.line := rfl
@[simp] theorem State.mapCmd_pkts (s : State) (f : CmdSt → CmdSt) : (s.mapCmd f).pkts = s.pkts := rfl
@[simp] theorem State.mapCmd_flows (s : State) (f : CmdSt → CmdSt) : (s.mapCmd f).flows = s.flows := rfl
@[simp] theorem State.mapCmd_flowFx (s : State) (f : CmdSt → CmdSt) : (s.mapCmd f).flowFx = s.flowFx := rfl
@[simp] theorem State.mapCmd_flowOld (s : State) (f : CmdSt → CmdSt) : (s.mapCmd f).flowOld = s.flowOld := rfl
@[simp] theorem State.mapCmd_ctrlSecs (s : State) (f : CmdSt → CmdSt) : (s.mapCmd f).ctrlSecs = s.ctrlSecs := rfl
@[simp] theorem State.mapCmd_dataSecs (s : State) (f : CmdSt → CmdSt) : (s.mapCmd f).dataSecs = s.dataSecs := rfl
@[simp] theorem State.mapCmd_soundSecs (s : State) (f : CmdSt → CmdSt) : (s.mapCmd f).soundSecs = s.soundSecs := rfl
@[simp] theorem State.mapCmd_dlCar (s : State) (f : CmdSt → CmdSt) : (s.mapCmd f).dlCar = s.dlCar := rfl
@[simp] theorem State.mapCmd_dlPend (s : State) (f : CmdSt → CmdSt) : (s.mapCmd f).dlPend = s.dlPend := rfl
@[simp] theorem State.mapCmd_dlSince (s : State) (f : CmdSt → CmdSt) : (s.mapCmd f).dlSince = s.dlSince := rfl
@[simp] theorem State.mapCmd_backoff (s : State) (f : CmdSt → CmdSt) : (s.mapCmd f).backoff = s.backoff := rfl
@[simp] theorem State.mapCmd_backAt (s : State) (f : CmdSt → CmdSt) : (s.mapCmd f).backAt = s.backAt := rfl
@[simp] theorem State.mapCmd_dlOcc (s : State) (f : CmdSt → CmdSt) : (s.mapCmd f).dlOcc = s.dlOcc := rfl
@[simp] theorem State.mapCmd_txp (s : State) (f : CmdSt → CmdSt) : (s.mapCmd f).txp = s.txp := rfl
@[simp] theorem State.mapCmd_dlSat (s : State) (f : CmdSt → CmdSt) : (s.mapCmd f).dlSat = s.dlSat := rfl
@[simp] theorem State.mapCmd_ulCar (s : State) (f : CmdSt → CmdSt) : (s.mapCmd f).ulCar = s.ulCar := rfl
@[simp] theorem State.mapCmd_ulPend (s : State) (f : CmdSt → CmdSt) : (s.mapCmd f).ulPend = s.ulPend := rfl
@[simp] theorem State.mapCmd_ulWas (s : State) (f : CmdSt → CmdSt) : (s.mapCmd f).ulWas = s.ulWas := rfl
@[simp] theorem State.mapCmd_conv (s : State) (f : CmdSt → CmdSt) : (s.mapCmd f).conv = s.conv := rfl
@[simp] theorem State.mapCmd_rxp (s : State) (f : CmdSt → CmdSt) : (s.mapCmd f).rxp = s.rxp := rfl
@[simp] theorem State.mapCmd_filt (s : State) (f : CmdSt → CmdSt) : (s.mapCmd f).filt = s.filt := rfl
@[simp] theorem State.mapCmd_parts (s : State) (f : CmdSt → CmdSt) : (s.mapCmd f).parts = s.parts := rfl
@[simp] theorem State.mapCmd_sums (s : State) (f : CmdSt → CmdSt) : (s.mapCmd f).sums = s.sums := rfl
@[simp] theorem State.mapCmd_ulSat (s : State) (f : CmdSt → CmdSt) : (s.mapCmd f).ulSat = s.ulSat := rfl
@[simp] theorem State.mapCmd_beams (s : State) (f : CmdSt → CmdSt) : (s.mapCmd f).beams = s.beams := rfl
@[simp] theorem State.mapCmd_rows (s : State) (f : CmdSt → CmdSt) : (s.mapCmd f).rows = s.rows := rfl
@[simp] theorem State.mapCmd_stage (s : State) (f : CmdSt → CmdSt) : (s.mapCmd f).stage = s.stage := rfl
@[simp] theorem State.mapCmd_spareRows (s : State) (f : CmdSt → CmdSt) : (s.mapCmd f).spareRows = s.spareRows := rfl
@[simp] theorem State.mapCmd_bulk (s : State) (f : CmdSt → CmdSt) : (s.mapCmd f).bulk = s.bulk := rfl
@[simp] theorem State.mapCmd_solvRec (s : State) (f : CmdSt → CmdSt) : (s.mapCmd f).solvRec = s.solvRec := rfl
@[simp] theorem State.mapCmd_solv (s : State) (f : CmdSt → CmdSt) : (s.mapCmd f).solv = s.solv := rfl
@[simp] theorem State.mapCmd_dpd (s : State) (f : CmdSt → CmdSt) : (s.mapCmd f).dpd = s.dpd := rfl
@[simp] theorem State.mapCmd_sharedOrx (s : State) (f : CmdSt → CmdSt) : (s.mapCmd f).sharedOrx = s.sharedOrx := rfl
@[simp] theorem State.mapCmd_svcAt (s : State) (f : CmdSt → CmdSt) : (s.mapCmd f).svcAt = s.svcAt := rfl
@[simp] theorem State.mapCmd_calp (s : State) (f : CmdSt → CmdSt) : (s.mapCmd f).calp = s.calp := rfl
@[simp] theorem State.mapCmd_calRefs (s : State) (f : CmdSt → CmdSt) : (s.mapCmd f).calRefs = s.calRefs := rfl
@[simp] theorem State.mapCmd_calSets (s : State) (f : CmdSt → CmdSt) : (s.mapCmd f).calSets = s.calSets := rfl
@[simp] theorem State.mapCmd_grp (s : State) (f : CmdSt → CmdSt) : (s.mapCmd f).grp = s.grp := rfl
@[simp] theorem State.mapCmd_tie (s : State) (f : CmdSt → CmdSt) : (s.mapCmd f).tie = s.tie := rfl
@[simp] theorem State.mapCmd_hops (s : State) (f : CmdSt → CmdSt) : (s.mapCmd f).hops = s.hops := rfl
@[simp] theorem State.mapCmd_lox (s : State) (f : CmdSt → CmdSt) : (s.mapCmd f).lox = s.lox := rfl
@[simp] theorem State.mapCmd_ref (s : State) (f : CmdSt → CmdSt) : (s.mapCmd f).ref = s.ref := rfl
@[simp] theorem State.mapCmd_clkTo (s : State) (f : CmdSt → CmdSt) : (s.mapCmd f).clkTo = s.clkTo := rfl
@[simp] theorem State.mapCmd_fe (s : State) (f : CmdSt → CmdSt) : (s.mapCmd f).fe = s.fe := rfl
@[simp] theorem State.mapCmd_feLater (s : State) (f : CmdSt → CmdSt) : (s.mapCmd f).feLater = s.feLater := rfl
@[simp] theorem State.mapCmd_linesOn (s : State) (f : CmdSt → CmdSt) : (s.mapCmd f).linesOn = s.linesOn := rfl
@[simp] theorem State.mapCmd_sched (s : State) (f : CmdSt → CmdSt) : (s.mapCmd f).sched = s.sched := rfl
@[simp] theorem State.mapCmd_schedPend (s : State) (f : CmdSt → CmdSt) : (s.mapCmd f).schedPend = s.schedPend := rfl
@[simp] theorem State.mapCmd_scripts (s : State) (f : CmdSt → CmdSt) : (s.mapCmd f).scripts = s.scripts := rfl
@[simp] theorem State.mapCmd_eng (s : State) (f : CmdSt → CmdSt) : (s.mapCmd f).eng = s.eng := rfl
@[simp] theorem State.mapCmd_engMem (s : State) (f : CmdSt → CmdSt) : (s.mapCmd f).engMem = s.engMem := rfl
@[simp] theorem State.mapCmd_pool (s : State) (f : CmdSt → CmdSt) : (s.mapCmd f).pool = s.pool := rfl
@[simp] theorem State.mapCmd_prog (s : State) (f : CmdSt → CmdSt) : (s.mapCmd f).prog = s.prog := rfl
@[simp] theorem State.mapCmd_slots (s : State) (f : CmdSt → CmdSt) : (s.mapCmd f).slots = s.slots := rfl
@[simp] theorem State.mapCmd_engHalf (s : State) (f : CmdSt → CmdSt) : (s.mapCmd f).engHalf = s.engHalf := rfl
@[simp] theorem State.mapCmd_engShare (s : State) (f : CmdSt → CmdSt) : (s.mapCmd f).engShare = s.engShare := rfl
@[simp] theorem State.mapCmd_imgLoads (s : State) (f : CmdSt → CmdSt) : (s.mapCmd f).imgLoads = s.imgLoads := rfl
@[simp] theorem State.mapCmd_behind (s : State) (f : CmdSt → CmdSt) : (s.mapCmd f).behind = s.behind := rfl
@[simp] theorem State.mapCmd_pace (s : State) (f : CmdSt → CmdSt) : (s.mapCmd f).pace = s.pace := rfl
@[simp] theorem State.mapCmd_caps (s : State) (f : CmdSt → CmdSt) : (s.mapCmd f).caps = s.caps := rfl
@[simp] theorem State.mapCmd_capNum (s : State) (f : CmdSt → CmdSt) : (s.mapCmd f).capNum = s.capNum := rfl
@[simp] theorem State.mapCmd_bias (s : State) (f : CmdSt → CmdSt) : (s.mapCmd f).bias = s.bias := rfl
@[simp] theorem State.mapCmd_sens (s : State) (f : CmdSt → CmdSt) : (s.mapCmd f).sens = s.sens := rfl
@[simp] theorem State.mapCmd_mon (s : State) (f : CmdSt → CmdSt) : (s.mapCmd f).mon = s.mon := rfl
@[simp] theorem State.mapCmd_host (s : State) (f : CmdSt → CmdSt) : (s.mapCmd f).host = s.host := rfl
@[simp] theorem State.mapCmd_time (s : State) (f : CmdSt → CmdSt) : (s.mapCmd f).time = s.time := rfl
@[simp] theorem State.mapCmd_rel (s : State) (f : CmdSt → CmdSt) : (s.mapCmd f).rel = s.rel := rfl
@[simp] theorem State.mapCmd_d2d (s : State) (f : CmdSt → CmdSt) : (s.mapCmd f).d2d = s.d2d := rfl
@[simp] theorem State.mapCmd_mirrored (s : State) (f : CmdSt → CmdSt) : (s.mapCmd f).mirrored = s.mirrored := rfl
@[simp] theorem State.mapCmd_nv (s : State) (f : CmdSt → CmdSt) : (s.mapCmd f).nv = s.nv := rfl
@[simp] theorem State.mapCmd_boot (s : State) (f : CmdSt → CmdSt) : (s.mapCmd f).boot = s.boot := rfl
@[simp] theorem State.mapCmd_tap (s : State) (f : CmdSt → CmdSt) : (s.mapCmd f).tap = s.tap := rfl
@[simp] theorem State.mapCmd_sent (s : State) (f : CmdSt → CmdSt) : (s.mapCmd f).sent = s.sent := rfl
@[simp] theorem State.mapCmd_fresh (s : State) (f : CmdSt → CmdSt) : (s.mapCmd f).fresh = s.fresh := rfl
@[simp] theorem State.mapCmd_pending (s : State) (f : CmdSt → CmdSt) : (s.mapCmd f).pending = s.pending := rfl

@[simp] theorem State.mapTime_regs (s : State) (f : TimeSt → TimeSt) : (s.mapTime f).regs = s.regs := rfl
@[simp] theorem State.mapTime_lanes (s : State) (f : TimeSt → TimeSt) : (s.mapTime f).lanes = s.lanes := rfl
@[simp] theorem State.mapTime_links (s : State) (f : TimeSt → TimeSt) : (s.mapTime f).links = s.links := rfl
@[simp] theorem State.mapTime_line (s : State) (f : TimeSt → TimeSt) : (s.mapTime f).line = s.line := rfl
@[simp] theorem State.mapTime_pkts (s : State) (f : TimeSt → TimeSt) : (s.mapTime f).pkts = s.pkts := rfl
@[simp] theorem State.mapTime_flows (s : State) (f : TimeSt → TimeSt) : (s.mapTime f).flows = s.flows := rfl
@[simp] theorem State.mapTime_flowFx (s : State) (f : TimeSt → TimeSt) : (s.mapTime f).flowFx = s.flowFx := rfl
@[simp] theorem State.mapTime_flowOld (s : State) (f : TimeSt → TimeSt) : (s.mapTime f).flowOld = s.flowOld := rfl
@[simp] theorem State.mapTime_ctrlSecs (s : State) (f : TimeSt → TimeSt) : (s.mapTime f).ctrlSecs = s.ctrlSecs := rfl
@[simp] theorem State.mapTime_dataSecs (s : State) (f : TimeSt → TimeSt) : (s.mapTime f).dataSecs = s.dataSecs := rfl
@[simp] theorem State.mapTime_soundSecs (s : State) (f : TimeSt → TimeSt) : (s.mapTime f).soundSecs = s.soundSecs := rfl
@[simp] theorem State.mapTime_dlCar (s : State) (f : TimeSt → TimeSt) : (s.mapTime f).dlCar = s.dlCar := rfl
@[simp] theorem State.mapTime_dlPend (s : State) (f : TimeSt → TimeSt) : (s.mapTime f).dlPend = s.dlPend := rfl
@[simp] theorem State.mapTime_dlSince (s : State) (f : TimeSt → TimeSt) : (s.mapTime f).dlSince = s.dlSince := rfl
@[simp] theorem State.mapTime_backoff (s : State) (f : TimeSt → TimeSt) : (s.mapTime f).backoff = s.backoff := rfl
@[simp] theorem State.mapTime_backAt (s : State) (f : TimeSt → TimeSt) : (s.mapTime f).backAt = s.backAt := rfl
@[simp] theorem State.mapTime_dlOcc (s : State) (f : TimeSt → TimeSt) : (s.mapTime f).dlOcc = s.dlOcc := rfl
@[simp] theorem State.mapTime_txp (s : State) (f : TimeSt → TimeSt) : (s.mapTime f).txp = s.txp := rfl
@[simp] theorem State.mapTime_dlSat (s : State) (f : TimeSt → TimeSt) : (s.mapTime f).dlSat = s.dlSat := rfl
@[simp] theorem State.mapTime_ulCar (s : State) (f : TimeSt → TimeSt) : (s.mapTime f).ulCar = s.ulCar := rfl
@[simp] theorem State.mapTime_ulPend (s : State) (f : TimeSt → TimeSt) : (s.mapTime f).ulPend = s.ulPend := rfl
@[simp] theorem State.mapTime_ulWas (s : State) (f : TimeSt → TimeSt) : (s.mapTime f).ulWas = s.ulWas := rfl
@[simp] theorem State.mapTime_conv (s : State) (f : TimeSt → TimeSt) : (s.mapTime f).conv = s.conv := rfl
@[simp] theorem State.mapTime_rxp (s : State) (f : TimeSt → TimeSt) : (s.mapTime f).rxp = s.rxp := rfl
@[simp] theorem State.mapTime_filt (s : State) (f : TimeSt → TimeSt) : (s.mapTime f).filt = s.filt := rfl
@[simp] theorem State.mapTime_parts (s : State) (f : TimeSt → TimeSt) : (s.mapTime f).parts = s.parts := rfl
@[simp] theorem State.mapTime_sums (s : State) (f : TimeSt → TimeSt) : (s.mapTime f).sums = s.sums := rfl
@[simp] theorem State.mapTime_ulSat (s : State) (f : TimeSt → TimeSt) : (s.mapTime f).ulSat = s.ulSat := rfl
@[simp] theorem State.mapTime_beams (s : State) (f : TimeSt → TimeSt) : (s.mapTime f).beams = s.beams := rfl
@[simp] theorem State.mapTime_rows (s : State) (f : TimeSt → TimeSt) : (s.mapTime f).rows = s.rows := rfl
@[simp] theorem State.mapTime_stage (s : State) (f : TimeSt → TimeSt) : (s.mapTime f).stage = s.stage := rfl
@[simp] theorem State.mapTime_spareRows (s : State) (f : TimeSt → TimeSt) : (s.mapTime f).spareRows = s.spareRows := rfl
@[simp] theorem State.mapTime_bulk (s : State) (f : TimeSt → TimeSt) : (s.mapTime f).bulk = s.bulk := rfl
@[simp] theorem State.mapTime_solvRec (s : State) (f : TimeSt → TimeSt) : (s.mapTime f).solvRec = s.solvRec := rfl
@[simp] theorem State.mapTime_solv (s : State) (f : TimeSt → TimeSt) : (s.mapTime f).solv = s.solv := rfl
@[simp] theorem State.mapTime_dpd (s : State) (f : TimeSt → TimeSt) : (s.mapTime f).dpd = s.dpd := rfl
@[simp] theorem State.mapTime_sharedOrx (s : State) (f : TimeSt → TimeSt) : (s.mapTime f).sharedOrx = s.sharedOrx := rfl
@[simp] theorem State.mapTime_svcAt (s : State) (f : TimeSt → TimeSt) : (s.mapTime f).svcAt = s.svcAt := rfl
@[simp] theorem State.mapTime_calp (s : State) (f : TimeSt → TimeSt) : (s.mapTime f).calp = s.calp := rfl
@[simp] theorem State.mapTime_calRefs (s : State) (f : TimeSt → TimeSt) : (s.mapTime f).calRefs = s.calRefs := rfl
@[simp] theorem State.mapTime_calSets (s : State) (f : TimeSt → TimeSt) : (s.mapTime f).calSets = s.calSets := rfl
@[simp] theorem State.mapTime_grp (s : State) (f : TimeSt → TimeSt) : (s.mapTime f).grp = s.grp := rfl
@[simp] theorem State.mapTime_tie (s : State) (f : TimeSt → TimeSt) : (s.mapTime f).tie = s.tie := rfl
@[simp] theorem State.mapTime_hops (s : State) (f : TimeSt → TimeSt) : (s.mapTime f).hops = s.hops := rfl
@[simp] theorem State.mapTime_lox (s : State) (f : TimeSt → TimeSt) : (s.mapTime f).lox = s.lox := rfl
@[simp] theorem State.mapTime_ref (s : State) (f : TimeSt → TimeSt) : (s.mapTime f).ref = s.ref := rfl
@[simp] theorem State.mapTime_clkTo (s : State) (f : TimeSt → TimeSt) : (s.mapTime f).clkTo = s.clkTo := rfl
@[simp] theorem State.mapTime_fe (s : State) (f : TimeSt → TimeSt) : (s.mapTime f).fe = s.fe := rfl
@[simp] theorem State.mapTime_feLater (s : State) (f : TimeSt → TimeSt) : (s.mapTime f).feLater = s.feLater := rfl
@[simp] theorem State.mapTime_linesOn (s : State) (f : TimeSt → TimeSt) : (s.mapTime f).linesOn = s.linesOn := rfl
@[simp] theorem State.mapTime_sched (s : State) (f : TimeSt → TimeSt) : (s.mapTime f).sched = s.sched := rfl
@[simp] theorem State.mapTime_schedPend (s : State) (f : TimeSt → TimeSt) : (s.mapTime f).schedPend = s.schedPend := rfl
@[simp] theorem State.mapTime_scripts (s : State) (f : TimeSt → TimeSt) : (s.mapTime f).scripts = s.scripts := rfl
@[simp] theorem State.mapTime_eng (s : State) (f : TimeSt → TimeSt) : (s.mapTime f).eng = s.eng := rfl
@[simp] theorem State.mapTime_engMem (s : State) (f : TimeSt → TimeSt) : (s.mapTime f).engMem = s.engMem := rfl
@[simp] theorem State.mapTime_pool (s : State) (f : TimeSt → TimeSt) : (s.mapTime f).pool = s.pool := rfl
@[simp] theorem State.mapTime_prog (s : State) (f : TimeSt → TimeSt) : (s.mapTime f).prog = s.prog := rfl
@[simp] theorem State.mapTime_slots (s : State) (f : TimeSt → TimeSt) : (s.mapTime f).slots = s.slots := rfl
@[simp] theorem State.mapTime_engHalf (s : State) (f : TimeSt → TimeSt) : (s.mapTime f).engHalf = s.engHalf := rfl
@[simp] theorem State.mapTime_engShare (s : State) (f : TimeSt → TimeSt) : (s.mapTime f).engShare = s.engShare := rfl
@[simp] theorem State.mapTime_imgLoads (s : State) (f : TimeSt → TimeSt) : (s.mapTime f).imgLoads = s.imgLoads := rfl
@[simp] theorem State.mapTime_behind (s : State) (f : TimeSt → TimeSt) : (s.mapTime f).behind = s.behind := rfl
@[simp] theorem State.mapTime_pace (s : State) (f : TimeSt → TimeSt) : (s.mapTime f).pace = s.pace := rfl
@[simp] theorem State.mapTime_caps (s : State) (f : TimeSt → TimeSt) : (s.mapTime f).caps = s.caps := rfl
@[simp] theorem State.mapTime_capNum (s : State) (f : TimeSt → TimeSt) : (s.mapTime f).capNum = s.capNum := rfl
@[simp] theorem State.mapTime_bias (s : State) (f : TimeSt → TimeSt) : (s.mapTime f).bias = s.bias := rfl
@[simp] theorem State.mapTime_sens (s : State) (f : TimeSt → TimeSt) : (s.mapTime f).sens = s.sens := rfl
@[simp] theorem State.mapTime_mon (s : State) (f : TimeSt → TimeSt) : (s.mapTime f).mon = s.mon := rfl
@[simp] theorem State.mapTime_host (s : State) (f : TimeSt → TimeSt) : (s.mapTime f).host = s.host := rfl
@[simp] theorem State.mapTime_cmd (s : State) (f : TimeSt → TimeSt) : (s.mapTime f).cmd = s.cmd := rfl
@[simp] theorem State.mapTime_rel (s : State) (f : TimeSt → TimeSt) : (s.mapTime f).rel = s.rel := rfl
@[simp] theorem State.mapTime_d2d (s : State) (f : TimeSt → TimeSt) : (s.mapTime f).d2d = s.d2d := rfl
@[simp] theorem State.mapTime_mirrored (s : State) (f : TimeSt → TimeSt) : (s.mapTime f).mirrored = s.mirrored := rfl
@[simp] theorem State.mapTime_nv (s : State) (f : TimeSt → TimeSt) : (s.mapTime f).nv = s.nv := rfl
@[simp] theorem State.mapTime_boot (s : State) (f : TimeSt → TimeSt) : (s.mapTime f).boot = s.boot := rfl
@[simp] theorem State.mapTime_tap (s : State) (f : TimeSt → TimeSt) : (s.mapTime f).tap = s.tap := rfl
@[simp] theorem State.mapTime_sent (s : State) (f : TimeSt → TimeSt) : (s.mapTime f).sent = s.sent := rfl
@[simp] theorem State.mapTime_fresh (s : State) (f : TimeSt → TimeSt) : (s.mapTime f).fresh = s.fresh := rfl
@[simp] theorem State.mapTime_pending (s : State) (f : TimeSt → TimeSt) : (s.mapTime f).pending = s.pending := rfl

@[simp] theorem State.mapPkt_regs (s : State) (h : Nat) (f : PktSt → PktSt) : (s.mapPkt h f).regs = s.regs := rfl
@[simp] theorem State.mapPkt_lanes (s : State) (h : Nat) (f : PktSt → PktSt) : (s.mapPkt h f).lanes = s.lanes := rfl
@[simp] theorem State.mapPkt_links (s : State) (h : Nat) (f : PktSt → PktSt) : (s.mapPkt h f).links = s.links := rfl
@[simp] theorem State.mapPkt_line (s : State) (h : Nat) (f : PktSt → PktSt) : (s.mapPkt h f).line = s.line := rfl
@[simp] theorem State.mapPkt_flows (s : State) (h : Nat) (f : PktSt → PktSt) : (s.mapPkt h f).flows = s.flows := rfl
@[simp] theorem State.mapPkt_flowFx (s : State) (h : Nat) (f : PktSt → PktSt) : (s.mapPkt h f).flowFx = s.flowFx := rfl
@[simp] theorem State.mapPkt_flowOld (s : State) (h : Nat) (f : PktSt → PktSt) : (s.mapPkt h f).flowOld = s.flowOld := rfl
@[simp] theorem State.mapPkt_ctrlSecs (s : State) (h : Nat) (f : PktSt → PktSt) : (s.mapPkt h f).ctrlSecs = s.ctrlSecs := rfl
@[simp] theorem State.mapPkt_dataSecs (s : State) (h : Nat) (f : PktSt → PktSt) : (s.mapPkt h f).dataSecs = s.dataSecs := rfl
@[simp] theorem State.mapPkt_soundSecs (s : State) (h : Nat) (f : PktSt → PktSt) : (s.mapPkt h f).soundSecs = s.soundSecs := rfl
@[simp] theorem State.mapPkt_dlCar (s : State) (h : Nat) (f : PktSt → PktSt) : (s.mapPkt h f).dlCar = s.dlCar := rfl
@[simp] theorem State.mapPkt_dlPend (s : State) (h : Nat) (f : PktSt → PktSt) : (s.mapPkt h f).dlPend = s.dlPend := rfl
@[simp] theorem State.mapPkt_dlSince (s : State) (h : Nat) (f : PktSt → PktSt) : (s.mapPkt h f).dlSince = s.dlSince := rfl
@[simp] theorem State.mapPkt_backoff (s : State) (h : Nat) (f : PktSt → PktSt) : (s.mapPkt h f).backoff = s.backoff := rfl
@[simp] theorem State.mapPkt_backAt (s : State) (h : Nat) (f : PktSt → PktSt) : (s.mapPkt h f).backAt = s.backAt := rfl
@[simp] theorem State.mapPkt_dlOcc (s : State) (h : Nat) (f : PktSt → PktSt) : (s.mapPkt h f).dlOcc = s.dlOcc := rfl
@[simp] theorem State.mapPkt_txp (s : State) (h : Nat) (f : PktSt → PktSt) : (s.mapPkt h f).txp = s.txp := rfl
@[simp] theorem State.mapPkt_dlSat (s : State) (h : Nat) (f : PktSt → PktSt) : (s.mapPkt h f).dlSat = s.dlSat := rfl
@[simp] theorem State.mapPkt_ulCar (s : State) (h : Nat) (f : PktSt → PktSt) : (s.mapPkt h f).ulCar = s.ulCar := rfl
@[simp] theorem State.mapPkt_ulPend (s : State) (h : Nat) (f : PktSt → PktSt) : (s.mapPkt h f).ulPend = s.ulPend := rfl
@[simp] theorem State.mapPkt_ulWas (s : State) (h : Nat) (f : PktSt → PktSt) : (s.mapPkt h f).ulWas = s.ulWas := rfl
@[simp] theorem State.mapPkt_conv (s : State) (h : Nat) (f : PktSt → PktSt) : (s.mapPkt h f).conv = s.conv := rfl
@[simp] theorem State.mapPkt_rxp (s : State) (h : Nat) (f : PktSt → PktSt) : (s.mapPkt h f).rxp = s.rxp := rfl
@[simp] theorem State.mapPkt_filt (s : State) (h : Nat) (f : PktSt → PktSt) : (s.mapPkt h f).filt = s.filt := rfl
@[simp] theorem State.mapPkt_parts (s : State) (h : Nat) (f : PktSt → PktSt) : (s.mapPkt h f).parts = s.parts := rfl
@[simp] theorem State.mapPkt_sums (s : State) (h : Nat) (f : PktSt → PktSt) : (s.mapPkt h f).sums = s.sums := rfl
@[simp] theorem State.mapPkt_ulSat (s : State) (h : Nat) (f : PktSt → PktSt) : (s.mapPkt h f).ulSat = s.ulSat := rfl
@[simp] theorem State.mapPkt_beams (s : State) (h : Nat) (f : PktSt → PktSt) : (s.mapPkt h f).beams = s.beams := rfl
@[simp] theorem State.mapPkt_rows (s : State) (h : Nat) (f : PktSt → PktSt) : (s.mapPkt h f).rows = s.rows := rfl
@[simp] theorem State.mapPkt_stage (s : State) (h : Nat) (f : PktSt → PktSt) : (s.mapPkt h f).stage = s.stage := rfl
@[simp] theorem State.mapPkt_spareRows (s : State) (h : Nat) (f : PktSt → PktSt) : (s.mapPkt h f).spareRows = s.spareRows := rfl
@[simp] theorem State.mapPkt_bulk (s : State) (h : Nat) (f : PktSt → PktSt) : (s.mapPkt h f).bulk = s.bulk := rfl
@[simp] theorem State.mapPkt_solvRec (s : State) (h : Nat) (f : PktSt → PktSt) : (s.mapPkt h f).solvRec = s.solvRec := rfl
@[simp] theorem State.mapPkt_solv (s : State) (h : Nat) (f : PktSt → PktSt) : (s.mapPkt h f).solv = s.solv := rfl
@[simp] theorem State.mapPkt_dpd (s : State) (h : Nat) (f : PktSt → PktSt) : (s.mapPkt h f).dpd = s.dpd := rfl
@[simp] theorem State.mapPkt_sharedOrx (s : State) (h : Nat) (f : PktSt → PktSt) : (s.mapPkt h f).sharedOrx = s.sharedOrx := rfl
@[simp] theorem State.mapPkt_svcAt (s : State) (h : Nat) (f : PktSt → PktSt) : (s.mapPkt h f).svcAt = s.svcAt := rfl
@[simp] theorem State.mapPkt_calp (s : State) (h : Nat) (f : PktSt → PktSt) : (s.mapPkt h f).calp = s.calp := rfl
@[simp] theorem State.mapPkt_calRefs (s : State) (h : Nat) (f : PktSt → PktSt) : (s.mapPkt h f).calRefs = s.calRefs := rfl
@[simp] theorem State.mapPkt_calSets (s : State) (h : Nat) (f : PktSt → PktSt) : (s.mapPkt h f).calSets = s.calSets := rfl
@[simp] theorem State.mapPkt_grp (s : State) (h : Nat) (f : PktSt → PktSt) : (s.mapPkt h f).grp = s.grp := rfl
@[simp] theorem State.mapPkt_tie (s : State) (h : Nat) (f : PktSt → PktSt) : (s.mapPkt h f).tie = s.tie := rfl
@[simp] theorem State.mapPkt_hops (s : State) (h : Nat) (f : PktSt → PktSt) : (s.mapPkt h f).hops = s.hops := rfl
@[simp] theorem State.mapPkt_lox (s : State) (h : Nat) (f : PktSt → PktSt) : (s.mapPkt h f).lox = s.lox := rfl
@[simp] theorem State.mapPkt_ref (s : State) (h : Nat) (f : PktSt → PktSt) : (s.mapPkt h f).ref = s.ref := rfl
@[simp] theorem State.mapPkt_clkTo (s : State) (h : Nat) (f : PktSt → PktSt) : (s.mapPkt h f).clkTo = s.clkTo := rfl
@[simp] theorem State.mapPkt_fe (s : State) (h : Nat) (f : PktSt → PktSt) : (s.mapPkt h f).fe = s.fe := rfl
@[simp] theorem State.mapPkt_feLater (s : State) (h : Nat) (f : PktSt → PktSt) : (s.mapPkt h f).feLater = s.feLater := rfl
@[simp] theorem State.mapPkt_linesOn (s : State) (h : Nat) (f : PktSt → PktSt) : (s.mapPkt h f).linesOn = s.linesOn := rfl
@[simp] theorem State.mapPkt_sched (s : State) (h : Nat) (f : PktSt → PktSt) : (s.mapPkt h f).sched = s.sched := rfl
@[simp] theorem State.mapPkt_schedPend (s : State) (h : Nat) (f : PktSt → PktSt) : (s.mapPkt h f).schedPend = s.schedPend := rfl
@[simp] theorem State.mapPkt_scripts (s : State) (h : Nat) (f : PktSt → PktSt) : (s.mapPkt h f).scripts = s.scripts := rfl
@[simp] theorem State.mapPkt_eng (s : State) (h : Nat) (f : PktSt → PktSt) : (s.mapPkt h f).eng = s.eng := rfl
@[simp] theorem State.mapPkt_engMem (s : State) (h : Nat) (f : PktSt → PktSt) : (s.mapPkt h f).engMem = s.engMem := rfl
@[simp] theorem State.mapPkt_pool (s : State) (h : Nat) (f : PktSt → PktSt) : (s.mapPkt h f).pool = s.pool := rfl
@[simp] theorem State.mapPkt_prog (s : State) (h : Nat) (f : PktSt → PktSt) : (s.mapPkt h f).prog = s.prog := rfl
@[simp] theorem State.mapPkt_slots (s : State) (h : Nat) (f : PktSt → PktSt) : (s.mapPkt h f).slots = s.slots := rfl
@[simp] theorem State.mapPkt_engHalf (s : State) (h : Nat) (f : PktSt → PktSt) : (s.mapPkt h f).engHalf = s.engHalf := rfl
@[simp] theorem State.mapPkt_engShare (s : State) (h : Nat) (f : PktSt → PktSt) : (s.mapPkt h f).engShare = s.engShare := rfl
@[simp] theorem State.mapPkt_imgLoads (s : State) (h : Nat) (f : PktSt → PktSt) : (s.mapPkt h f).imgLoads = s.imgLoads := rfl
@[simp] theorem State.mapPkt_behind (s : State) (h : Nat) (f : PktSt → PktSt) : (s.mapPkt h f).behind = s.behind := rfl
@[simp] theorem State.mapPkt_pace (s : State) (h : Nat) (f : PktSt → PktSt) : (s.mapPkt h f).pace = s.pace := rfl
@[simp] theorem State.mapPkt_caps (s : State) (h : Nat) (f : PktSt → PktSt) : (s.mapPkt h f).caps = s.caps := rfl
@[simp] theorem State.mapPkt_capNum (s : State) (h : Nat) (f : PktSt → PktSt) : (s.mapPkt h f).capNum = s.capNum := rfl
@[simp] theorem State.mapPkt_bias (s : State) (h : Nat) (f : PktSt → PktSt) : (s.mapPkt h f).bias = s.bias := rfl
@[simp] theorem State.mapPkt_sens (s : State) (h : Nat) (f : PktSt → PktSt) : (s.mapPkt h f).sens = s.sens := rfl
@[simp] theorem State.mapPkt_mon (s : State) (h : Nat) (f : PktSt → PktSt) : (s.mapPkt h f).mon = s.mon := rfl
@[simp] theorem State.mapPkt_host (s : State) (h : Nat) (f : PktSt → PktSt) : (s.mapPkt h f).host = s.host := rfl
@[simp] theorem State.mapPkt_cmd (s : State) (h : Nat) (f : PktSt → PktSt) : (s.mapPkt h f).cmd = s.cmd := rfl
@[simp] theorem State.mapPkt_time (s : State) (h : Nat) (f : PktSt → PktSt) : (s.mapPkt h f).time = s.time := rfl
@[simp] theorem State.mapPkt_rel (s : State) (h : Nat) (f : PktSt → PktSt) : (s.mapPkt h f).rel = s.rel := rfl
@[simp] theorem State.mapPkt_d2d (s : State) (h : Nat) (f : PktSt → PktSt) : (s.mapPkt h f).d2d = s.d2d := rfl
@[simp] theorem State.mapPkt_mirrored (s : State) (h : Nat) (f : PktSt → PktSt) : (s.mapPkt h f).mirrored = s.mirrored := rfl
@[simp] theorem State.mapPkt_nv (s : State) (h : Nat) (f : PktSt → PktSt) : (s.mapPkt h f).nv = s.nv := rfl
@[simp] theorem State.mapPkt_boot (s : State) (h : Nat) (f : PktSt → PktSt) : (s.mapPkt h f).boot = s.boot := rfl
@[simp] theorem State.mapPkt_tap (s : State) (h : Nat) (f : PktSt → PktSt) : (s.mapPkt h f).tap = s.tap := rfl
@[simp] theorem State.mapPkt_sent (s : State) (h : Nat) (f : PktSt → PktSt) : (s.mapPkt h f).sent = s.sent := rfl
@[simp] theorem State.mapPkt_fresh (s : State) (h : Nat) (f : PktSt → PktSt) : (s.mapPkt h f).fresh = s.fresh := rfl
@[simp] theorem State.mapPkt_pending (s : State) (h : Nat) (f : PktSt → PktSt) : (s.mapPkt h f).pending = s.pending := rfl

@[simp] theorem State.mapLink_regs (s : State) (h : Nat) (f : LinkSt → LinkSt) : (s.mapLink h f).regs = s.regs := rfl
@[simp] theorem State.mapLink_lanes (s : State) (h : Nat) (f : LinkSt → LinkSt) : (s.mapLink h f).lanes = s.lanes := rfl
@[simp] theorem State.mapLink_line (s : State) (h : Nat) (f : LinkSt → LinkSt) : (s.mapLink h f).line = s.line := rfl
@[simp] theorem State.mapLink_pkts (s : State) (h : Nat) (f : LinkSt → LinkSt) : (s.mapLink h f).pkts = s.pkts := rfl
@[simp] theorem State.mapLink_flows (s : State) (h : Nat) (f : LinkSt → LinkSt) : (s.mapLink h f).flows = s.flows := rfl
@[simp] theorem State.mapLink_flowFx (s : State) (h : Nat) (f : LinkSt → LinkSt) : (s.mapLink h f).flowFx = s.flowFx := rfl
@[simp] theorem State.mapLink_flowOld (s : State) (h : Nat) (f : LinkSt → LinkSt) : (s.mapLink h f).flowOld = s.flowOld := rfl
@[simp] theorem State.mapLink_ctrlSecs (s : State) (h : Nat) (f : LinkSt → LinkSt) : (s.mapLink h f).ctrlSecs = s.ctrlSecs := rfl
@[simp] theorem State.mapLink_dataSecs (s : State) (h : Nat) (f : LinkSt → LinkSt) : (s.mapLink h f).dataSecs = s.dataSecs := rfl
@[simp] theorem State.mapLink_soundSecs (s : State) (h : Nat) (f : LinkSt → LinkSt) : (s.mapLink h f).soundSecs = s.soundSecs := rfl
@[simp] theorem State.mapLink_dlCar (s : State) (h : Nat) (f : LinkSt → LinkSt) : (s.mapLink h f).dlCar = s.dlCar := rfl
@[simp] theorem State.mapLink_dlPend (s : State) (h : Nat) (f : LinkSt → LinkSt) : (s.mapLink h f).dlPend = s.dlPend := rfl
@[simp] theorem State.mapLink_dlSince (s : State) (h : Nat) (f : LinkSt → LinkSt) : (s.mapLink h f).dlSince = s.dlSince := rfl
@[simp] theorem State.mapLink_backoff (s : State) (h : Nat) (f : LinkSt → LinkSt) : (s.mapLink h f).backoff = s.backoff := rfl
@[simp] theorem State.mapLink_backAt (s : State) (h : Nat) (f : LinkSt → LinkSt) : (s.mapLink h f).backAt = s.backAt := rfl
@[simp] theorem State.mapLink_dlOcc (s : State) (h : Nat) (f : LinkSt → LinkSt) : (s.mapLink h f).dlOcc = s.dlOcc := rfl
@[simp] theorem State.mapLink_txp (s : State) (h : Nat) (f : LinkSt → LinkSt) : (s.mapLink h f).txp = s.txp := rfl
@[simp] theorem State.mapLink_dlSat (s : State) (h : Nat) (f : LinkSt → LinkSt) : (s.mapLink h f).dlSat = s.dlSat := rfl
@[simp] theorem State.mapLink_ulCar (s : State) (h : Nat) (f : LinkSt → LinkSt) : (s.mapLink h f).ulCar = s.ulCar := rfl
@[simp] theorem State.mapLink_ulPend (s : State) (h : Nat) (f : LinkSt → LinkSt) : (s.mapLink h f).ulPend = s.ulPend := rfl
@[simp] theorem State.mapLink_ulWas (s : State) (h : Nat) (f : LinkSt → LinkSt) : (s.mapLink h f).ulWas = s.ulWas := rfl
@[simp] theorem State.mapLink_conv (s : State) (h : Nat) (f : LinkSt → LinkSt) : (s.mapLink h f).conv = s.conv := rfl
@[simp] theorem State.mapLink_rxp (s : State) (h : Nat) (f : LinkSt → LinkSt) : (s.mapLink h f).rxp = s.rxp := rfl
@[simp] theorem State.mapLink_filt (s : State) (h : Nat) (f : LinkSt → LinkSt) : (s.mapLink h f).filt = s.filt := rfl
@[simp] theorem State.mapLink_parts (s : State) (h : Nat) (f : LinkSt → LinkSt) : (s.mapLink h f).parts = s.parts := rfl
@[simp] theorem State.mapLink_sums (s : State) (h : Nat) (f : LinkSt → LinkSt) : (s.mapLink h f).sums = s.sums := rfl
@[simp] theorem State.mapLink_ulSat (s : State) (h : Nat) (f : LinkSt → LinkSt) : (s.mapLink h f).ulSat = s.ulSat := rfl
@[simp] theorem State.mapLink_beams (s : State) (h : Nat) (f : LinkSt → LinkSt) : (s.mapLink h f).beams = s.beams := rfl
@[simp] theorem State.mapLink_rows (s : State) (h : Nat) (f : LinkSt → LinkSt) : (s.mapLink h f).rows = s.rows := rfl
@[simp] theorem State.mapLink_stage (s : State) (h : Nat) (f : LinkSt → LinkSt) : (s.mapLink h f).stage = s.stage := rfl
@[simp] theorem State.mapLink_spareRows (s : State) (h : Nat) (f : LinkSt → LinkSt) : (s.mapLink h f).spareRows = s.spareRows := rfl
@[simp] theorem State.mapLink_bulk (s : State) (h : Nat) (f : LinkSt → LinkSt) : (s.mapLink h f).bulk = s.bulk := rfl
@[simp] theorem State.mapLink_solvRec (s : State) (h : Nat) (f : LinkSt → LinkSt) : (s.mapLink h f).solvRec = s.solvRec := rfl
@[simp] theorem State.mapLink_solv (s : State) (h : Nat) (f : LinkSt → LinkSt) : (s.mapLink h f).solv = s.solv := rfl
@[simp] theorem State.mapLink_dpd (s : State) (h : Nat) (f : LinkSt → LinkSt) : (s.mapLink h f).dpd = s.dpd := rfl
@[simp] theorem State.mapLink_sharedOrx (s : State) (h : Nat) (f : LinkSt → LinkSt) : (s.mapLink h f).sharedOrx = s.sharedOrx := rfl
@[simp] theorem State.mapLink_svcAt (s : State) (h : Nat) (f : LinkSt → LinkSt) : (s.mapLink h f).svcAt = s.svcAt := rfl
@[simp] theorem State.mapLink_calp (s : State) (h : Nat) (f : LinkSt → LinkSt) : (s.mapLink h f).calp = s.calp := rfl
@[simp] theorem State.mapLink_calRefs (s : State) (h : Nat) (f : LinkSt → LinkSt) : (s.mapLink h f).calRefs = s.calRefs := rfl
@[simp] theorem State.mapLink_calSets (s : State) (h : Nat) (f : LinkSt → LinkSt) : (s.mapLink h f).calSets = s.calSets := rfl
@[simp] theorem State.mapLink_grp (s : State) (h : Nat) (f : LinkSt → LinkSt) : (s.mapLink h f).grp = s.grp := rfl
@[simp] theorem State.mapLink_tie (s : State) (h : Nat) (f : LinkSt → LinkSt) : (s.mapLink h f).tie = s.tie := rfl
@[simp] theorem State.mapLink_hops (s : State) (h : Nat) (f : LinkSt → LinkSt) : (s.mapLink h f).hops = s.hops := rfl
@[simp] theorem State.mapLink_lox (s : State) (h : Nat) (f : LinkSt → LinkSt) : (s.mapLink h f).lox = s.lox := rfl
@[simp] theorem State.mapLink_ref (s : State) (h : Nat) (f : LinkSt → LinkSt) : (s.mapLink h f).ref = s.ref := rfl
@[simp] theorem State.mapLink_clkTo (s : State) (h : Nat) (f : LinkSt → LinkSt) : (s.mapLink h f).clkTo = s.clkTo := rfl
@[simp] theorem State.mapLink_fe (s : State) (h : Nat) (f : LinkSt → LinkSt) : (s.mapLink h f).fe = s.fe := rfl
@[simp] theorem State.mapLink_feLater (s : State) (h : Nat) (f : LinkSt → LinkSt) : (s.mapLink h f).feLater = s.feLater := rfl
@[simp] theorem State.mapLink_linesOn (s : State) (h : Nat) (f : LinkSt → LinkSt) : (s.mapLink h f).linesOn = s.linesOn := rfl
@[simp] theorem State.mapLink_sched (s : State) (h : Nat) (f : LinkSt → LinkSt) : (s.mapLink h f).sched = s.sched := rfl
@[simp] theorem State.mapLink_schedPend (s : State) (h : Nat) (f : LinkSt → LinkSt) : (s.mapLink h f).schedPend = s.schedPend := rfl
@[simp] theorem State.mapLink_scripts (s : State) (h : Nat) (f : LinkSt → LinkSt) : (s.mapLink h f).scripts = s.scripts := rfl
@[simp] theorem State.mapLink_eng (s : State) (h : Nat) (f : LinkSt → LinkSt) : (s.mapLink h f).eng = s.eng := rfl
@[simp] theorem State.mapLink_engMem (s : State) (h : Nat) (f : LinkSt → LinkSt) : (s.mapLink h f).engMem = s.engMem := rfl
@[simp] theorem State.mapLink_pool (s : State) (h : Nat) (f : LinkSt → LinkSt) : (s.mapLink h f).pool = s.pool := rfl
@[simp] theorem State.mapLink_prog (s : State) (h : Nat) (f : LinkSt → LinkSt) : (s.mapLink h f).prog = s.prog := rfl
@[simp] theorem State.mapLink_slots (s : State) (h : Nat) (f : LinkSt → LinkSt) : (s.mapLink h f).slots = s.slots := rfl
@[simp] theorem State.mapLink_engHalf (s : State) (h : Nat) (f : LinkSt → LinkSt) : (s.mapLink h f).engHalf = s.engHalf := rfl
@[simp] theorem State.mapLink_engShare (s : State) (h : Nat) (f : LinkSt → LinkSt) : (s.mapLink h f).engShare = s.engShare := rfl
@[simp] theorem State.mapLink_imgLoads (s : State) (h : Nat) (f : LinkSt → LinkSt) : (s.mapLink h f).imgLoads = s.imgLoads := rfl
@[simp] theorem State.mapLink_behind (s : State) (h : Nat) (f : LinkSt → LinkSt) : (s.mapLink h f).behind = s.behind := rfl
@[simp] theorem State.mapLink_pace (s : State) (h : Nat) (f : LinkSt → LinkSt) : (s.mapLink h f).pace = s.pace := rfl
@[simp] theorem State.mapLink_caps (s : State) (h : Nat) (f : LinkSt → LinkSt) : (s.mapLink h f).caps = s.caps := rfl
@[simp] theorem State.mapLink_capNum (s : State) (h : Nat) (f : LinkSt → LinkSt) : (s.mapLink h f).capNum = s.capNum := rfl
@[simp] theorem State.mapLink_bias (s : State) (h : Nat) (f : LinkSt → LinkSt) : (s.mapLink h f).bias = s.bias := rfl
@[simp] theorem State.mapLink_sens (s : State) (h : Nat) (f : LinkSt → LinkSt) : (s.mapLink h f).sens = s.sens := rfl
@[simp] theorem State.mapLink_mon (s : State) (h : Nat) (f : LinkSt → LinkSt) : (s.mapLink h f).mon = s.mon := rfl
@[simp] theorem State.mapLink_host (s : State) (h : Nat) (f : LinkSt → LinkSt) : (s.mapLink h f).host = s.host := rfl
@[simp] theorem State.mapLink_cmd (s : State) (h : Nat) (f : LinkSt → LinkSt) : (s.mapLink h f).cmd = s.cmd := rfl
@[simp] theorem State.mapLink_time (s : State) (h : Nat) (f : LinkSt → LinkSt) : (s.mapLink h f).time = s.time := rfl
@[simp] theorem State.mapLink_rel (s : State) (h : Nat) (f : LinkSt → LinkSt) : (s.mapLink h f).rel = s.rel := rfl
@[simp] theorem State.mapLink_d2d (s : State) (h : Nat) (f : LinkSt → LinkSt) : (s.mapLink h f).d2d = s.d2d := rfl
@[simp] theorem State.mapLink_mirrored (s : State) (h : Nat) (f : LinkSt → LinkSt) : (s.mapLink h f).mirrored = s.mirrored := rfl
@[simp] theorem State.mapLink_nv (s : State) (h : Nat) (f : LinkSt → LinkSt) : (s.mapLink h f).nv = s.nv := rfl
@[simp] theorem State.mapLink_boot (s : State) (h : Nat) (f : LinkSt → LinkSt) : (s.mapLink h f).boot = s.boot := rfl
@[simp] theorem State.mapLink_tap (s : State) (h : Nat) (f : LinkSt → LinkSt) : (s.mapLink h f).tap = s.tap := rfl
@[simp] theorem State.mapLink_sent (s : State) (h : Nat) (f : LinkSt → LinkSt) : (s.mapLink h f).sent = s.sent := rfl
@[simp] theorem State.mapLink_fresh (s : State) (h : Nat) (f : LinkSt → LinkSt) : (s.mapLink h f).fresh = s.fresh := rfl
@[simp] theorem State.mapLink_pending (s : State) (h : Nat) (f : LinkSt → LinkSt) : (s.mapLink h f).pending = s.pending := rfl

@[simp] theorem State.mapLane_regs (s : State) (n : Nat) (f : LaneX → LaneX) : (s.mapLane n f).regs = s.regs := rfl
@[simp] theorem State.mapLane_links (s : State) (n : Nat) (f : LaneX → LaneX) : (s.mapLane n f).links = s.links := rfl
@[simp] theorem State.mapLane_line (s : State) (n : Nat) (f : LaneX → LaneX) : (s.mapLane n f).line = s.line := rfl
@[simp] theorem State.mapLane_pkts (s : State) (n : Nat) (f : LaneX → LaneX) : (s.mapLane n f).pkts = s.pkts := rfl
@[simp] theorem State.mapLane_flows (s : State) (n : Nat) (f : LaneX → LaneX) : (s.mapLane n f).flows = s.flows := rfl
@[simp] theorem State.mapLane_flowFx (s : State) (n : Nat) (f : LaneX → LaneX) : (s.mapLane n f).flowFx = s.flowFx := rfl
@[simp] theorem State.mapLane_flowOld (s : State) (n : Nat) (f : LaneX → LaneX) : (s.mapLane n f).flowOld = s.flowOld := rfl
@[simp] theorem State.mapLane_ctrlSecs (s : State) (n : Nat) (f : LaneX → LaneX) : (s.mapLane n f).ctrlSecs = s.ctrlSecs := rfl
@[simp] theorem State.mapLane_dataSecs (s : State) (n : Nat) (f : LaneX → LaneX) : (s.mapLane n f).dataSecs = s.dataSecs := rfl
@[simp] theorem State.mapLane_soundSecs (s : State) (n : Nat) (f : LaneX → LaneX) : (s.mapLane n f).soundSecs = s.soundSecs := rfl
@[simp] theorem State.mapLane_dlCar (s : State) (n : Nat) (f : LaneX → LaneX) : (s.mapLane n f).dlCar = s.dlCar := rfl
@[simp] theorem State.mapLane_dlPend (s : State) (n : Nat) (f : LaneX → LaneX) : (s.mapLane n f).dlPend = s.dlPend := rfl
@[simp] theorem State.mapLane_dlSince (s : State) (n : Nat) (f : LaneX → LaneX) : (s.mapLane n f).dlSince = s.dlSince := rfl
@[simp] theorem State.mapLane_backoff (s : State) (n : Nat) (f : LaneX → LaneX) : (s.mapLane n f).backoff = s.backoff := rfl
@[simp] theorem State.mapLane_backAt (s : State) (n : Nat) (f : LaneX → LaneX) : (s.mapLane n f).backAt = s.backAt := rfl
@[simp] theorem State.mapLane_dlOcc (s : State) (n : Nat) (f : LaneX → LaneX) : (s.mapLane n f).dlOcc = s.dlOcc := rfl
@[simp] theorem State.mapLane_txp (s : State) (n : Nat) (f : LaneX → LaneX) : (s.mapLane n f).txp = s.txp := rfl
@[simp] theorem State.mapLane_dlSat (s : State) (n : Nat) (f : LaneX → LaneX) : (s.mapLane n f).dlSat = s.dlSat := rfl
@[simp] theorem State.mapLane_ulCar (s : State) (n : Nat) (f : LaneX → LaneX) : (s.mapLane n f).ulCar = s.ulCar := rfl
@[simp] theorem State.mapLane_ulPend (s : State) (n : Nat) (f : LaneX → LaneX) : (s.mapLane n f).ulPend = s.ulPend := rfl
@[simp] theorem State.mapLane_ulWas (s : State) (n : Nat) (f : LaneX → LaneX) : (s.mapLane n f).ulWas = s.ulWas := rfl
@[simp] theorem State.mapLane_conv (s : State) (n : Nat) (f : LaneX → LaneX) : (s.mapLane n f).conv = s.conv := rfl
@[simp] theorem State.mapLane_rxp (s : State) (n : Nat) (f : LaneX → LaneX) : (s.mapLane n f).rxp = s.rxp := rfl
@[simp] theorem State.mapLane_filt (s : State) (n : Nat) (f : LaneX → LaneX) : (s.mapLane n f).filt = s.filt := rfl
@[simp] theorem State.mapLane_parts (s : State) (n : Nat) (f : LaneX → LaneX) : (s.mapLane n f).parts = s.parts := rfl
@[simp] theorem State.mapLane_sums (s : State) (n : Nat) (f : LaneX → LaneX) : (s.mapLane n f).sums = s.sums := rfl
@[simp] theorem State.mapLane_ulSat (s : State) (n : Nat) (f : LaneX → LaneX) : (s.mapLane n f).ulSat = s.ulSat := rfl
@[simp] theorem State.mapLane_beams (s : State) (n : Nat) (f : LaneX → LaneX) : (s.mapLane n f).beams = s.beams := rfl
@[simp] theorem State.mapLane_rows (s : State) (n : Nat) (f : LaneX → LaneX) : (s.mapLane n f).rows = s.rows := rfl
@[simp] theorem State.mapLane_stage (s : State) (n : Nat) (f : LaneX → LaneX) : (s.mapLane n f).stage = s.stage := rfl
@[simp] theorem State.mapLane_spareRows (s : State) (n : Nat) (f : LaneX → LaneX) : (s.mapLane n f).spareRows = s.spareRows := rfl
@[simp] theorem State.mapLane_bulk (s : State) (n : Nat) (f : LaneX → LaneX) : (s.mapLane n f).bulk = s.bulk := rfl
@[simp] theorem State.mapLane_solvRec (s : State) (n : Nat) (f : LaneX → LaneX) : (s.mapLane n f).solvRec = s.solvRec := rfl
@[simp] theorem State.mapLane_solv (s : State) (n : Nat) (f : LaneX → LaneX) : (s.mapLane n f).solv = s.solv := rfl
@[simp] theorem State.mapLane_dpd (s : State) (n : Nat) (f : LaneX → LaneX) : (s.mapLane n f).dpd = s.dpd := rfl
@[simp] theorem State.mapLane_sharedOrx (s : State) (n : Nat) (f : LaneX → LaneX) : (s.mapLane n f).sharedOrx = s.sharedOrx := rfl
@[simp] theorem State.mapLane_svcAt (s : State) (n : Nat) (f : LaneX → LaneX) : (s.mapLane n f).svcAt = s.svcAt := rfl
@[simp] theorem State.mapLane_calp (s : State) (n : Nat) (f : LaneX → LaneX) : (s.mapLane n f).calp = s.calp := rfl
@[simp] theorem State.mapLane_calRefs (s : State) (n : Nat) (f : LaneX → LaneX) : (s.mapLane n f).calRefs = s.calRefs := rfl
@[simp] theorem State.mapLane_calSets (s : State) (n : Nat) (f : LaneX → LaneX) : (s.mapLane n f).calSets = s.calSets := rfl
@[simp] theorem State.mapLane_grp (s : State) (n : Nat) (f : LaneX → LaneX) : (s.mapLane n f).grp = s.grp := rfl
@[simp] theorem State.mapLane_tie (s : State) (n : Nat) (f : LaneX → LaneX) : (s.mapLane n f).tie = s.tie := rfl
@[simp] theorem State.mapLane_hops (s : State) (n : Nat) (f : LaneX → LaneX) : (s.mapLane n f).hops = s.hops := rfl
@[simp] theorem State.mapLane_lox (s : State) (n : Nat) (f : LaneX → LaneX) : (s.mapLane n f).lox = s.lox := rfl
@[simp] theorem State.mapLane_ref (s : State) (n : Nat) (f : LaneX → LaneX) : (s.mapLane n f).ref = s.ref := rfl
@[simp] theorem State.mapLane_clkTo (s : State) (n : Nat) (f : LaneX → LaneX) : (s.mapLane n f).clkTo = s.clkTo := rfl
@[simp] theorem State.mapLane_fe (s : State) (n : Nat) (f : LaneX → LaneX) : (s.mapLane n f).fe = s.fe := rfl
@[simp] theorem State.mapLane_feLater (s : State) (n : Nat) (f : LaneX → LaneX) : (s.mapLane n f).feLater = s.feLater := rfl
@[simp] theorem State.mapLane_linesOn (s : State) (n : Nat) (f : LaneX → LaneX) : (s.mapLane n f).linesOn = s.linesOn := rfl
@[simp] theorem State.mapLane_sched (s : State) (n : Nat) (f : LaneX → LaneX) : (s.mapLane n f).sched = s.sched := rfl
@[simp] theorem State.mapLane_schedPend (s : State) (n : Nat) (f : LaneX → LaneX) : (s.mapLane n f).schedPend = s.schedPend := rfl
@[simp] theorem State.mapLane_scripts (s : State) (n : Nat) (f : LaneX → LaneX) : (s.mapLane n f).scripts = s.scripts := rfl
@[simp] theorem State.mapLane_eng (s : State) (n : Nat) (f : LaneX → LaneX) : (s.mapLane n f).eng = s.eng := rfl
@[simp] theorem State.mapLane_engMem (s : State) (n : Nat) (f : LaneX → LaneX) : (s.mapLane n f).engMem = s.engMem := rfl
@[simp] theorem State.mapLane_pool (s : State) (n : Nat) (f : LaneX → LaneX) : (s.mapLane n f).pool = s.pool := rfl
@[simp] theorem State.mapLane_prog (s : State) (n : Nat) (f : LaneX → LaneX) : (s.mapLane n f).prog = s.prog := rfl
@[simp] theorem State.mapLane_slots (s : State) (n : Nat) (f : LaneX → LaneX) : (s.mapLane n f).slots = s.slots := rfl
@[simp] theorem State.mapLane_engHalf (s : State) (n : Nat) (f : LaneX → LaneX) : (s.mapLane n f).engHalf = s.engHalf := rfl
@[simp] theorem State.mapLane_engShare (s : State) (n : Nat) (f : LaneX → LaneX) : (s.mapLane n f).engShare = s.engShare := rfl
@[simp] theorem State.mapLane_imgLoads (s : State) (n : Nat) (f : LaneX → LaneX) : (s.mapLane n f).imgLoads = s.imgLoads := rfl
@[simp] theorem State.mapLane_behind (s : State) (n : Nat) (f : LaneX → LaneX) : (s.mapLane n f).behind = s.behind := rfl
@[simp] theorem State.mapLane_pace (s : State) (n : Nat) (f : LaneX → LaneX) : (s.mapLane n f).pace = s.pace := rfl
@[simp] theorem State.mapLane_caps (s : State) (n : Nat) (f : LaneX → LaneX) : (s.mapLane n f).caps = s.caps := rfl
@[simp] theorem State.mapLane_capNum (s : State) (n : Nat) (f : LaneX → LaneX) : (s.mapLane n f).capNum = s.capNum := rfl
@[simp] theorem State.mapLane_bias (s : State) (n : Nat) (f : LaneX → LaneX) : (s.mapLane n f).bias = s.bias := rfl
@[simp] theorem State.mapLane_sens (s : State) (n : Nat) (f : LaneX → LaneX) : (s.mapLane n f).sens = s.sens := rfl
@[simp] theorem State.mapLane_mon (s : State) (n : Nat) (f : LaneX → LaneX) : (s.mapLane n f).mon = s.mon := rfl
@[simp] theorem State.mapLane_host (s : State) (n : Nat) (f : LaneX → LaneX) : (s.mapLane n f).host = s.host := rfl
@[simp] theorem State.mapLane_cmd (s : State) (n : Nat) (f : LaneX → LaneX) : (s.mapLane n f).cmd = s.cmd := rfl
@[simp] theorem State.mapLane_time (s : State) (n : Nat) (f : LaneX → LaneX) : (s.mapLane n f).time = s.time := rfl
@[simp] theorem State.mapLane_rel (s : State) (n : Nat) (f : LaneX → LaneX) : (s.mapLane n f).rel = s.rel := rfl
@[simp] theorem State.mapLane_d2d (s : State) (n : Nat) (f : LaneX → LaneX) : (s.mapLane n f).d2d = s.d2d := rfl
@[simp] theorem State.mapLane_mirrored (s : State) (n : Nat) (f : LaneX → LaneX) : (s.mapLane n f).mirrored = s.mirrored := rfl
@[simp] theorem State.mapLane_nv (s : State) (n : Nat) (f : LaneX → LaneX) : (s.mapLane n f).nv = s.nv := rfl
@[simp] theorem State.mapLane_boot (s : State) (n : Nat) (f : LaneX → LaneX) : (s.mapLane n f).boot = s.boot := rfl
@[simp] theorem State.mapLane_tap (s : State) (n : Nat) (f : LaneX → LaneX) : (s.mapLane n f).tap = s.tap := rfl
@[simp] theorem State.mapLane_sent (s : State) (n : Nat) (f : LaneX → LaneX) : (s.mapLane n f).sent = s.sent := rfl
@[simp] theorem State.mapLane_fresh (s : State) (n : Nat) (f : LaneX → LaneX) : (s.mapLane n f).fresh = s.fresh := rfl
@[simp] theorem State.mapLane_pending (s : State) (n : Nat) (f : LaneX → LaneX) : (s.mapLane n f).pending = s.pending := rfl

@[simp] theorem State.setFlow_regs (s : State) (n : Nat) (f : Flow) : (s.setFlow n f).regs = s.regs := rfl
@[simp] theorem State.setFlow_lanes (s : State) (n : Nat) (f : Flow) : (s.setFlow n f).lanes = s.lanes := rfl
@[simp] theorem State.setFlow_links (s : State) (n : Nat) (f : Flow) : (s.setFlow n f).links = s.links := rfl
@[simp] theorem State.setFlow_line (s : State) (n : Nat) (f : Flow) : (s.setFlow n f).line = s.line := rfl
@[simp] theorem State.setFlow_pkts (s : State) (n : Nat) (f : Flow) : (s.setFlow n f).pkts = s.pkts := rfl
@[simp] theorem State.setFlow_flowFx (s : State) (n : Nat) (f : Flow) : (s.setFlow n f).flowFx = s.flowFx := rfl
@[simp] theorem State.setFlow_flowOld (s : State) (n : Nat) (f : Flow) : (s.setFlow n f).flowOld = s.flowOld := rfl
@[simp] theorem State.setFlow_ctrlSecs (s : State) (n : Nat) (f : Flow) : (s.setFlow n f).ctrlSecs = s.ctrlSecs := rfl
@[simp] theorem State.setFlow_dataSecs (s : State) (n : Nat) (f : Flow) : (s.setFlow n f).dataSecs = s.dataSecs := rfl
@[simp] theorem State.setFlow_soundSecs (s : State) (n : Nat) (f : Flow) : (s.setFlow n f).soundSecs = s.soundSecs := rfl
@[simp] theorem State.setFlow_dlCar (s : State) (n : Nat) (f : Flow) : (s.setFlow n f).dlCar = s.dlCar := rfl
@[simp] theorem State.setFlow_dlPend (s : State) (n : Nat) (f : Flow) : (s.setFlow n f).dlPend = s.dlPend := rfl
@[simp] theorem State.setFlow_dlSince (s : State) (n : Nat) (f : Flow) : (s.setFlow n f).dlSince = s.dlSince := rfl
@[simp] theorem State.setFlow_backoff (s : State) (n : Nat) (f : Flow) : (s.setFlow n f).backoff = s.backoff := rfl
@[simp] theorem State.setFlow_backAt (s : State) (n : Nat) (f : Flow) : (s.setFlow n f).backAt = s.backAt := rfl
@[simp] theorem State.setFlow_dlOcc (s : State) (n : Nat) (f : Flow) : (s.setFlow n f).dlOcc = s.dlOcc := rfl
@[simp] theorem State.setFlow_txp (s : State) (n : Nat) (f : Flow) : (s.setFlow n f).txp = s.txp := rfl
@[simp] theorem State.setFlow_dlSat (s : State) (n : Nat) (f : Flow) : (s.setFlow n f).dlSat = s.dlSat := rfl
@[simp] theorem State.setFlow_ulCar (s : State) (n : Nat) (f : Flow) : (s.setFlow n f).ulCar = s.ulCar := rfl
@[simp] theorem State.setFlow_ulPend (s : State) (n : Nat) (f : Flow) : (s.setFlow n f).ulPend = s.ulPend := rfl
@[simp] theorem State.setFlow_ulWas (s : State) (n : Nat) (f : Flow) : (s.setFlow n f).ulWas = s.ulWas := rfl
@[simp] theorem State.setFlow_conv (s : State) (n : Nat) (f : Flow) : (s.setFlow n f).conv = s.conv := rfl
@[simp] theorem State.setFlow_rxp (s : State) (n : Nat) (f : Flow) : (s.setFlow n f).rxp = s.rxp := rfl
@[simp] theorem State.setFlow_filt (s : State) (n : Nat) (f : Flow) : (s.setFlow n f).filt = s.filt := rfl
@[simp] theorem State.setFlow_parts (s : State) (n : Nat) (f : Flow) : (s.setFlow n f).parts = s.parts := rfl
@[simp] theorem State.setFlow_sums (s : State) (n : Nat) (f : Flow) : (s.setFlow n f).sums = s.sums := rfl
@[simp] theorem State.setFlow_ulSat (s : State) (n : Nat) (f : Flow) : (s.setFlow n f).ulSat = s.ulSat := rfl
@[simp] theorem State.setFlow_beams (s : State) (n : Nat) (f : Flow) : (s.setFlow n f).beams = s.beams := rfl
@[simp] theorem State.setFlow_rows (s : State) (n : Nat) (f : Flow) : (s.setFlow n f).rows = s.rows := rfl
@[simp] theorem State.setFlow_stage (s : State) (n : Nat) (f : Flow) : (s.setFlow n f).stage = s.stage := rfl
@[simp] theorem State.setFlow_spareRows (s : State) (n : Nat) (f : Flow) : (s.setFlow n f).spareRows = s.spareRows := rfl
@[simp] theorem State.setFlow_bulk (s : State) (n : Nat) (f : Flow) : (s.setFlow n f).bulk = s.bulk := rfl
@[simp] theorem State.setFlow_solvRec (s : State) (n : Nat) (f : Flow) : (s.setFlow n f).solvRec = s.solvRec := rfl
@[simp] theorem State.setFlow_solv (s : State) (n : Nat) (f : Flow) : (s.setFlow n f).solv = s.solv := rfl
@[simp] theorem State.setFlow_dpd (s : State) (n : Nat) (f : Flow) : (s.setFlow n f).dpd = s.dpd := rfl
@[simp] theorem State.setFlow_sharedOrx (s : State) (n : Nat) (f : Flow) : (s.setFlow n f).sharedOrx = s.sharedOrx := rfl
@[simp] theorem State.setFlow_svcAt (s : State) (n : Nat) (f : Flow) : (s.setFlow n f).svcAt = s.svcAt := rfl
@[simp] theorem State.setFlow_calp (s : State) (n : Nat) (f : Flow) : (s.setFlow n f).calp = s.calp := rfl
@[simp] theorem State.setFlow_calRefs (s : State) (n : Nat) (f : Flow) : (s.setFlow n f).calRefs = s.calRefs := rfl
@[simp] theorem State.setFlow_calSets (s : State) (n : Nat) (f : Flow) : (s.setFlow n f).calSets = s.calSets := rfl
@[simp] theorem State.setFlow_grp (s : State) (n : Nat) (f : Flow) : (s.setFlow n f).grp = s.grp := rfl
@[simp] theorem State.setFlow_tie (s : State) (n : Nat) (f : Flow) : (s.setFlow n f).tie = s.tie := rfl
@[simp] theorem State.setFlow_hops (s : State) (n : Nat) (f : Flow) : (s.setFlow n f).hops = s.hops := rfl
@[simp] theorem State.setFlow_lox (s : State) (n : Nat) (f : Flow) : (s.setFlow n f).lox = s.lox := rfl
@[simp] theorem State.setFlow_ref (s : State) (n : Nat) (f : Flow) : (s.setFlow n f).ref = s.ref := rfl
@[simp] theorem State.setFlow_clkTo (s : State) (n : Nat) (f : Flow) : (s.setFlow n f).clkTo = s.clkTo := rfl
@[simp] theorem State.setFlow_fe (s : State) (n : Nat) (f : Flow) : (s.setFlow n f).fe = s.fe := rfl
@[simp] theorem State.setFlow_feLater (s : State) (n : Nat) (f : Flow) : (s.setFlow n f).feLater = s.feLater := rfl
@[simp] theorem State.setFlow_linesOn (s : State) (n : Nat) (f : Flow) : (s.setFlow n f).linesOn = s.linesOn := rfl
@[simp] theorem State.setFlow_sched (s : State) (n : Nat) (f : Flow) : (s.setFlow n f).sched = s.sched := rfl
@[simp] theorem State.setFlow_schedPend (s : State) (n : Nat) (f : Flow) : (s.setFlow n f).schedPend = s.schedPend := rfl
@[simp] theorem State.setFlow_scripts (s : State) (n : Nat) (f : Flow) : (s.setFlow n f).scripts = s.scripts := rfl
@[simp] theorem State.setFlow_eng (s : State) (n : Nat) (f : Flow) : (s.setFlow n f).eng = s.eng := rfl
@[simp] theorem State.setFlow_engMem (s : State) (n : Nat) (f : Flow) : (s.setFlow n f).engMem = s.engMem := rfl
@[simp] theorem State.setFlow_pool (s : State) (n : Nat) (f : Flow) : (s.setFlow n f).pool = s.pool := rfl
@[simp] theorem State.setFlow_prog (s : State) (n : Nat) (f : Flow) : (s.setFlow n f).prog = s.prog := rfl
@[simp] theorem State.setFlow_slots (s : State) (n : Nat) (f : Flow) : (s.setFlow n f).slots = s.slots := rfl
@[simp] theorem State.setFlow_engHalf (s : State) (n : Nat) (f : Flow) : (s.setFlow n f).engHalf = s.engHalf := rfl
@[simp] theorem State.setFlow_engShare (s : State) (n : Nat) (f : Flow) : (s.setFlow n f).engShare = s.engShare := rfl
@[simp] theorem State.setFlow_imgLoads (s : State) (n : Nat) (f : Flow) : (s.setFlow n f).imgLoads = s.imgLoads := rfl
@[simp] theorem State.setFlow_behind (s : State) (n : Nat) (f : Flow) : (s.setFlow n f).behind = s.behind := rfl
@[simp] theorem State.setFlow_pace (s : State) (n : Nat) (f : Flow) : (s.setFlow n f).pace = s.pace := rfl
@[simp] theorem State.setFlow_caps (s : State) (n : Nat) (f : Flow) : (s.setFlow n f).caps = s.caps := rfl
@[simp] theorem State.setFlow_capNum (s : State) (n : Nat) (f : Flow) : (s.setFlow n f).capNum = s.capNum := rfl
@[simp] theorem State.setFlow_bias (s : State) (n : Nat) (f : Flow) : (s.setFlow n f).bias = s.bias := rfl
@[simp] theorem State.setFlow_sens (s : State) (n : Nat) (f : Flow) : (s.setFlow n f).sens = s.sens := rfl
@[simp] theorem State.setFlow_mon (s : State) (n : Nat) (f : Flow) : (s.setFlow n f).mon = s.mon := rfl
@[simp] theorem State.setFlow_host (s : State) (n : Nat) (f : Flow) : (s.setFlow n f).host = s.host := rfl
@[simp] theorem State.setFlow_cmd (s : State) (n : Nat) (f : Flow) : (s.setFlow n f).cmd = s.cmd := rfl
@[simp] theorem State.setFlow_time (s : State) (n : Nat) (f : Flow) : (s.setFlow n f).time = s.time := rfl
@[simp] theorem State.setFlow_rel (s : State) (n : Nat) (f : Flow) : (s.setFlow n f).rel = s.rel := rfl
@[simp] theorem State.setFlow_d2d (s : State) (n : Nat) (f : Flow) : (s.setFlow n f).d2d = s.d2d := rfl
@[simp] theorem State.setFlow_mirrored (s : State) (n : Nat) (f : Flow) : (s.setFlow n f).mirrored = s.mirrored := rfl
@[simp] theorem State.setFlow_nv (s : State) (n : Nat) (f : Flow) : (s.setFlow n f).nv = s.nv := rfl
@[simp] theorem State.setFlow_boot (s : State) (n : Nat) (f : Flow) : (s.setFlow n f).boot = s.boot := rfl
@[simp] theorem State.setFlow_tap (s : State) (n : Nat) (f : Flow) : (s.setFlow n f).tap = s.tap := rfl
@[simp] theorem State.setFlow_sent (s : State) (n : Nat) (f : Flow) : (s.setFlow n f).sent = s.sent := rfl
@[simp] theorem State.setFlow_fresh (s : State) (n : Nat) (f : Flow) : (s.setFlow n f).fresh = s.fresh := rfl
@[simp] theorem State.setFlow_pending (s : State) (n : Nat) (f : Flow) : (s.setFlow n f).pending = s.pending := rfl

@[simp] theorem State.mapGroup_regs (s : State) (g : Nat) (f : GroupSt → GroupSt) : (s.mapGroup g f).regs = s.regs := rfl
@[simp] theorem State.mapGroup_lanes (s : State) (g : Nat) (f : GroupSt → GroupSt) : (s.mapGroup g f).lanes = s.lanes := rfl
@[simp] theorem State.mapGroup_links (s : State) (g : Nat) (f : GroupSt → GroupSt) : (s.mapGroup g f).links = s.links := rfl
@[simp] theorem State.mapGroup_line (s : State) (g : Nat) (f : GroupSt → GroupSt) : (s.mapGroup g f).line = s.line := rfl
@[simp] theorem State.mapGroup_pkts (s : State) (g : Nat) (f : GroupSt → GroupSt) : (s.mapGroup g f).pkts = s.pkts := rfl
@[simp] theorem State.mapGroup_flows (s : State) (g : Nat) (f : GroupSt → GroupSt) : (s.mapGroup g f).flows = s.flows := rfl
@[simp] theorem State.mapGroup_flowFx (s : State) (g : Nat) (f : GroupSt → GroupSt) : (s.mapGroup g f).flowFx = s.flowFx := rfl
@[simp] theorem State.mapGroup_flowOld (s : State) (g : Nat) (f : GroupSt → GroupSt) : (s.mapGroup g f).flowOld = s.flowOld := rfl
@[simp] theorem State.mapGroup_ctrlSecs (s : State) (g : Nat) (f : GroupSt → GroupSt) : (s.mapGroup g f).ctrlSecs = s.ctrlSecs := rfl
@[simp] theorem State.mapGroup_dataSecs (s : State) (g : Nat) (f : GroupSt → GroupSt) : (s.mapGroup g f).dataSecs = s.dataSecs := rfl
@[simp] theorem State.mapGroup_soundSecs (s : State) (g : Nat) (f : GroupSt → GroupSt) : (s.mapGroup g f).soundSecs = s.soundSecs := rfl
@[simp] theorem State.mapGroup_dlCar (s : State) (g : Nat) (f : GroupSt → GroupSt) : (s.mapGroup g f).dlCar = s.dlCar := rfl
@[simp] theorem State.mapGroup_dlPend (s : State) (g : Nat) (f : GroupSt → GroupSt) : (s.mapGroup g f).dlPend = s.dlPend := rfl
@[simp] theorem State.mapGroup_dlSince (s : State) (g : Nat) (f : GroupSt → GroupSt) : (s.mapGroup g f).dlSince = s.dlSince := rfl
@[simp] theorem State.mapGroup_backoff (s : State) (g : Nat) (f : GroupSt → GroupSt) : (s.mapGroup g f).backoff = s.backoff := rfl
@[simp] theorem State.mapGroup_backAt (s : State) (g : Nat) (f : GroupSt → GroupSt) : (s.mapGroup g f).backAt = s.backAt := rfl
@[simp] theorem State.mapGroup_dlOcc (s : State) (g : Nat) (f : GroupSt → GroupSt) : (s.mapGroup g f).dlOcc = s.dlOcc := rfl
@[simp] theorem State.mapGroup_txp (s : State) (g : Nat) (f : GroupSt → GroupSt) : (s.mapGroup g f).txp = s.txp := rfl
@[simp] theorem State.mapGroup_dlSat (s : State) (g : Nat) (f : GroupSt → GroupSt) : (s.mapGroup g f).dlSat = s.dlSat := rfl
@[simp] theorem State.mapGroup_ulCar (s : State) (g : Nat) (f : GroupSt → GroupSt) : (s.mapGroup g f).ulCar = s.ulCar := rfl
@[simp] theorem State.mapGroup_ulPend (s : State) (g : Nat) (f : GroupSt → GroupSt) : (s.mapGroup g f).ulPend = s.ulPend := rfl
@[simp] theorem State.mapGroup_ulWas (s : State) (g : Nat) (f : GroupSt → GroupSt) : (s.mapGroup g f).ulWas = s.ulWas := rfl
@[simp] theorem State.mapGroup_conv (s : State) (g : Nat) (f : GroupSt → GroupSt) : (s.mapGroup g f).conv = s.conv := rfl
@[simp] theorem State.mapGroup_rxp (s : State) (g : Nat) (f : GroupSt → GroupSt) : (s.mapGroup g f).rxp = s.rxp := rfl
@[simp] theorem State.mapGroup_filt (s : State) (g : Nat) (f : GroupSt → GroupSt) : (s.mapGroup g f).filt = s.filt := rfl
@[simp] theorem State.mapGroup_parts (s : State) (g : Nat) (f : GroupSt → GroupSt) : (s.mapGroup g f).parts = s.parts := rfl
@[simp] theorem State.mapGroup_sums (s : State) (g : Nat) (f : GroupSt → GroupSt) : (s.mapGroup g f).sums = s.sums := rfl
@[simp] theorem State.mapGroup_ulSat (s : State) (g : Nat) (f : GroupSt → GroupSt) : (s.mapGroup g f).ulSat = s.ulSat := rfl
@[simp] theorem State.mapGroup_beams (s : State) (g : Nat) (f : GroupSt → GroupSt) : (s.mapGroup g f).beams = s.beams := rfl
@[simp] theorem State.mapGroup_rows (s : State) (g : Nat) (f : GroupSt → GroupSt) : (s.mapGroup g f).rows = s.rows := rfl
@[simp] theorem State.mapGroup_stage (s : State) (g : Nat) (f : GroupSt → GroupSt) : (s.mapGroup g f).stage = s.stage := rfl
@[simp] theorem State.mapGroup_spareRows (s : State) (g : Nat) (f : GroupSt → GroupSt) : (s.mapGroup g f).spareRows = s.spareRows := rfl
@[simp] theorem State.mapGroup_bulk (s : State) (g : Nat) (f : GroupSt → GroupSt) : (s.mapGroup g f).bulk = s.bulk := rfl
@[simp] theorem State.mapGroup_solvRec (s : State) (g : Nat) (f : GroupSt → GroupSt) : (s.mapGroup g f).solvRec = s.solvRec := rfl
@[simp] theorem State.mapGroup_solv (s : State) (g : Nat) (f : GroupSt → GroupSt) : (s.mapGroup g f).solv = s.solv := rfl
@[simp] theorem State.mapGroup_dpd (s : State) (g : Nat) (f : GroupSt → GroupSt) : (s.mapGroup g f).dpd = s.dpd := rfl
@[simp] theorem State.mapGroup_sharedOrx (s : State) (g : Nat) (f : GroupSt → GroupSt) : (s.mapGroup g f).sharedOrx = s.sharedOrx := rfl
@[simp] theorem State.mapGroup_svcAt (s : State) (g : Nat) (f : GroupSt → GroupSt) : (s.mapGroup g f).svcAt = s.svcAt := rfl
@[simp] theorem State.mapGroup_calp (s : State) (g : Nat) (f : GroupSt → GroupSt) : (s.mapGroup g f).calp = s.calp := rfl
@[simp] theorem State.mapGroup_calRefs (s : State) (g : Nat) (f : GroupSt → GroupSt) : (s.mapGroup g f).calRefs = s.calRefs := rfl
@[simp] theorem State.mapGroup_calSets (s : State) (g : Nat) (f : GroupSt → GroupSt) : (s.mapGroup g f).calSets = s.calSets := rfl
@[simp] theorem State.mapGroup_tie (s : State) (g : Nat) (f : GroupSt → GroupSt) : (s.mapGroup g f).tie = s.tie := rfl
@[simp] theorem State.mapGroup_hops (s : State) (g : Nat) (f : GroupSt → GroupSt) : (s.mapGroup g f).hops = s.hops := rfl
@[simp] theorem State.mapGroup_lox (s : State) (g : Nat) (f : GroupSt → GroupSt) : (s.mapGroup g f).lox = s.lox := rfl
@[simp] theorem State.mapGroup_ref (s : State) (g : Nat) (f : GroupSt → GroupSt) : (s.mapGroup g f).ref = s.ref := rfl
@[simp] theorem State.mapGroup_clkTo (s : State) (g : Nat) (f : GroupSt → GroupSt) : (s.mapGroup g f).clkTo = s.clkTo := rfl
@[simp] theorem State.mapGroup_fe (s : State) (g : Nat) (f : GroupSt → GroupSt) : (s.mapGroup g f).fe = s.fe := rfl
@[simp] theorem State.mapGroup_feLater (s : State) (g : Nat) (f : GroupSt → GroupSt) : (s.mapGroup g f).feLater = s.feLater := rfl
@[simp] theorem State.mapGroup_linesOn (s : State) (g : Nat) (f : GroupSt → GroupSt) : (s.mapGroup g f).linesOn = s.linesOn := rfl
@[simp] theorem State.mapGroup_sched (s : State) (g : Nat) (f : GroupSt → GroupSt) : (s.mapGroup g f).sched = s.sched := rfl
@[simp] theorem State.mapGroup_schedPend (s : State) (g : Nat) (f : GroupSt → GroupSt) : (s.mapGroup g f).schedPend = s.schedPend := rfl
@[simp] theorem State.mapGroup_scripts (s : State) (g : Nat) (f : GroupSt → GroupSt) : (s.mapGroup g f).scripts = s.scripts := rfl
@[simp] theorem State.mapGroup_eng (s : State) (g : Nat) (f : GroupSt → GroupSt) : (s.mapGroup g f).eng = s.eng := rfl
@[simp] theorem State.mapGroup_engMem (s : State) (g : Nat) (f : GroupSt → GroupSt) : (s.mapGroup g f).engMem = s.engMem := rfl
@[simp] theorem State.mapGroup_pool (s : State) (g : Nat) (f : GroupSt → GroupSt) : (s.mapGroup g f).pool = s.pool := rfl
@[simp] theorem State.mapGroup_prog (s : State) (g : Nat) (f : GroupSt → GroupSt) : (s.mapGroup g f).prog = s.prog := rfl
@[simp] theorem State.mapGroup_slots (s : State) (g : Nat) (f : GroupSt → GroupSt) : (s.mapGroup g f).slots = s.slots := rfl
@[simp] theorem State.mapGroup_engHalf (s : State) (g : Nat) (f : GroupSt → GroupSt) : (s.mapGroup g f).engHalf = s.engHalf := rfl
@[simp] theorem State.mapGroup_engShare (s : State) (g : Nat) (f : GroupSt → GroupSt) : (s.mapGroup g f).engShare = s.engShare := rfl
@[simp] theorem State.mapGroup_imgLoads (s : State) (g : Nat) (f : GroupSt → GroupSt) : (s.mapGroup g f).imgLoads = s.imgLoads := rfl
@[simp] theorem State.mapGroup_behind (s : State) (g : Nat) (f : GroupSt → GroupSt) : (s.mapGroup g f).behind = s.behind := rfl
@[simp] theorem State.mapGroup_pace (s : State) (g : Nat) (f : GroupSt → GroupSt) : (s.mapGroup g f).pace = s.pace := rfl
@[simp] theorem State.mapGroup_caps (s : State) (g : Nat) (f : GroupSt → GroupSt) : (s.mapGroup g f).caps = s.caps := rfl
@[simp] theorem State.mapGroup_capNum (s : State) (g : Nat) (f : GroupSt → GroupSt) : (s.mapGroup g f).capNum = s.capNum := rfl
@[simp] theorem State.mapGroup_bias (s : State) (g : Nat) (f : GroupSt → GroupSt) : (s.mapGroup g f).bias = s.bias := rfl
@[simp] theorem State.mapGroup_sens (s : State) (g : Nat) (f : GroupSt → GroupSt) : (s.mapGroup g f).sens = s.sens := rfl
@[simp] theorem State.mapGroup_mon (s : State) (g : Nat) (f : GroupSt → GroupSt) : (s.mapGroup g f).mon = s.mon := rfl
@[simp] theorem State.mapGroup_host (s : State) (g : Nat) (f : GroupSt → GroupSt) : (s.mapGroup g f).host = s.host := rfl
@[simp] theorem State.mapGroup_cmd (s : State) (g : Nat) (f : GroupSt → GroupSt) : (s.mapGroup g f).cmd = s.cmd := rfl
@[simp] theorem State.mapGroup_time (s : State) (g : Nat) (f : GroupSt → GroupSt) : (s.mapGroup g f).time = s.time := rfl
@[simp] theorem State.mapGroup_rel (s : State) (g : Nat) (f : GroupSt → GroupSt) : (s.mapGroup g f).rel = s.rel := rfl
@[simp] theorem State.mapGroup_d2d (s : State) (g : Nat) (f : GroupSt → GroupSt) : (s.mapGroup g f).d2d = s.d2d := rfl
@[simp] theorem State.mapGroup_mirrored (s : State) (g : Nat) (f : GroupSt → GroupSt) : (s.mapGroup g f).mirrored = s.mirrored := rfl
@[simp] theorem State.mapGroup_nv (s : State) (g : Nat) (f : GroupSt → GroupSt) : (s.mapGroup g f).nv = s.nv := rfl
@[simp] theorem State.mapGroup_boot (s : State) (g : Nat) (f : GroupSt → GroupSt) : (s.mapGroup g f).boot = s.boot := rfl
@[simp] theorem State.mapGroup_tap (s : State) (g : Nat) (f : GroupSt → GroupSt) : (s.mapGroup g f).tap = s.tap := rfl
@[simp] theorem State.mapGroup_sent (s : State) (g : Nat) (f : GroupSt → GroupSt) : (s.mapGroup g f).sent = s.sent := rfl
@[simp] theorem State.mapGroup_fresh (s : State) (g : Nat) (f : GroupSt → GroupSt) : (s.mapGroup g f).fresh = s.fresh := rfl
@[simp] theorem State.mapGroup_pending (s : State) (g : Nat) (f : GroupSt → GroupSt) : (s.mapGroup g f).pending = s.pending := rfl

@[simp] theorem State.mapTx_regs (s : State) (p : Nat) (f : TxPath → TxPath) : (s.mapTx p f).regs = s.regs := rfl
@[simp] theorem State.mapTx_lanes (s : State) (p : Nat) (f : TxPath → TxPath) : (s.mapTx p f).lanes = s.lanes := rfl
@[simp] theorem State.mapTx_links (s : State) (p : Nat) (f : TxPath → TxPath) : (s.mapTx p f).links = s.links := rfl
@[simp] theorem State.mapTx_line (s : State) (p : Nat) (f : TxPath → TxPath) : (s.mapTx p f).line = s.line := rfl
@[simp] theorem State.mapTx_pkts (s : State) (p : Nat) (f : TxPath → TxPath) : (s.mapTx p f).pkts = s.pkts := rfl
@[simp] theorem State.mapTx_flows (s : State) (p : Nat) (f : TxPath → TxPath) : (s.mapTx p f).flows = s.flows := rfl
@[simp] theorem State.mapTx_flowFx (s : State) (p : Nat) (f : TxPath → TxPath) : (s.mapTx p f).flowFx = s.flowFx := rfl
@[simp] theorem State.mapTx_flowOld (s : State) (p : Nat) (f : TxPath → TxPath) : (s.mapTx p f).flowOld = s.flowOld := rfl
@[simp] theorem State.mapTx_ctrlSecs (s : State) (p : Nat) (f : TxPath → TxPath) : (s.mapTx p f).ctrlSecs = s.ctrlSecs := rfl
@[simp] theorem State.mapTx_dataSecs (s : State) (p : Nat) (f : TxPath → TxPath) : (s.mapTx p f).dataSecs = s.dataSecs := rfl
@[simp] theorem State.mapTx_soundSecs (s : State) (p : Nat) (f : TxPath → TxPath) : (s.mapTx p f).soundSecs = s.soundSecs := rfl
@[simp] theorem State.mapTx_dlCar (s : State) (p : Nat) (f : TxPath → TxPath) : (s.mapTx p f).dlCar = s.dlCar := rfl
@[simp] theorem State.mapTx_dlPend (s : State) (p : Nat) (f : TxPath → TxPath) : (s.mapTx p f).dlPend = s.dlPend := rfl
@[simp] theorem State.mapTx_dlSince (s : State) (p : Nat) (f : TxPath → TxPath) : (s.mapTx p f).dlSince = s.dlSince := rfl
@[simp] theorem State.mapTx_backoff (s : State) (p : Nat) (f : TxPath → TxPath) : (s.mapTx p f).backoff = s.backoff := rfl
@[simp] theorem State.mapTx_backAt (s : State) (p : Nat) (f : TxPath → TxPath) : (s.mapTx p f).backAt = s.backAt := rfl
@[simp] theorem State.mapTx_dlOcc (s : State) (p : Nat) (f : TxPath → TxPath) : (s.mapTx p f).dlOcc = s.dlOcc := rfl
@[simp] theorem State.mapTx_dlSat (s : State) (p : Nat) (f : TxPath → TxPath) : (s.mapTx p f).dlSat = s.dlSat := rfl
@[simp] theorem State.mapTx_ulCar (s : State) (p : Nat) (f : TxPath → TxPath) : (s.mapTx p f).ulCar = s.ulCar := rfl
@[simp] theorem State.mapTx_ulPend (s : State) (p : Nat) (f : TxPath → TxPath) : (s.mapTx p f).ulPend = s.ulPend := rfl
@[simp] theorem State.mapTx_ulWas (s : State) (p : Nat) (f : TxPath → TxPath) : (s.mapTx p f).ulWas = s.ulWas := rfl
@[simp] theorem State.mapTx_conv (s : State) (p : Nat) (f : TxPath → TxPath) : (s.mapTx p f).conv = s.conv := rfl
@[simp] theorem State.mapTx_rxp (s : State) (p : Nat) (f : TxPath → TxPath) : (s.mapTx p f).rxp = s.rxp := rfl
@[simp] theorem State.mapTx_filt (s : State) (p : Nat) (f : TxPath → TxPath) : (s.mapTx p f).filt = s.filt := rfl
@[simp] theorem State.mapTx_parts (s : State) (p : Nat) (f : TxPath → TxPath) : (s.mapTx p f).parts = s.parts := rfl
@[simp] theorem State.mapTx_sums (s : State) (p : Nat) (f : TxPath → TxPath) : (s.mapTx p f).sums = s.sums := rfl
@[simp] theorem State.mapTx_ulSat (s : State) (p : Nat) (f : TxPath → TxPath) : (s.mapTx p f).ulSat = s.ulSat := rfl
@[simp] theorem State.mapTx_beams (s : State) (p : Nat) (f : TxPath → TxPath) : (s.mapTx p f).beams = s.beams := rfl
@[simp] theorem State.mapTx_rows (s : State) (p : Nat) (f : TxPath → TxPath) : (s.mapTx p f).rows = s.rows := rfl
@[simp] theorem State.mapTx_stage (s : State) (p : Nat) (f : TxPath → TxPath) : (s.mapTx p f).stage = s.stage := rfl
@[simp] theorem State.mapTx_spareRows (s : State) (p : Nat) (f : TxPath → TxPath) : (s.mapTx p f).spareRows = s.spareRows := rfl
@[simp] theorem State.mapTx_bulk (s : State) (p : Nat) (f : TxPath → TxPath) : (s.mapTx p f).bulk = s.bulk := rfl
@[simp] theorem State.mapTx_solvRec (s : State) (p : Nat) (f : TxPath → TxPath) : (s.mapTx p f).solvRec = s.solvRec := rfl
@[simp] theorem State.mapTx_solv (s : State) (p : Nat) (f : TxPath → TxPath) : (s.mapTx p f).solv = s.solv := rfl
@[simp] theorem State.mapTx_dpd (s : State) (p : Nat) (f : TxPath → TxPath) : (s.mapTx p f).dpd = s.dpd := rfl
@[simp] theorem State.mapTx_sharedOrx (s : State) (p : Nat) (f : TxPath → TxPath) : (s.mapTx p f).sharedOrx = s.sharedOrx := rfl
@[simp] theorem State.mapTx_svcAt (s : State) (p : Nat) (f : TxPath → TxPath) : (s.mapTx p f).svcAt = s.svcAt := rfl
@[simp] theorem State.mapTx_calp (s : State) (p : Nat) (f : TxPath → TxPath) : (s.mapTx p f).calp = s.calp := rfl
@[simp] theorem State.mapTx_calRefs (s : State) (p : Nat) (f : TxPath → TxPath) : (s.mapTx p f).calRefs = s.calRefs := rfl
@[simp] theorem State.mapTx_calSets (s : State) (p : Nat) (f : TxPath → TxPath) : (s.mapTx p f).calSets = s.calSets := rfl
@[simp] theorem State.mapTx_grp (s : State) (p : Nat) (f : TxPath → TxPath) : (s.mapTx p f).grp = s.grp := rfl
@[simp] theorem State.mapTx_tie (s : State) (p : Nat) (f : TxPath → TxPath) : (s.mapTx p f).tie = s.tie := rfl
@[simp] theorem State.mapTx_hops (s : State) (p : Nat) (f : TxPath → TxPath) : (s.mapTx p f).hops = s.hops := rfl
@[simp] theorem State.mapTx_lox (s : State) (p : Nat) (f : TxPath → TxPath) : (s.mapTx p f).lox = s.lox := rfl
@[simp] theorem State.mapTx_ref (s : State) (p : Nat) (f : TxPath → TxPath) : (s.mapTx p f).ref = s.ref := rfl
@[simp] theorem State.mapTx_clkTo (s : State) (p : Nat) (f : TxPath → TxPath) : (s.mapTx p f).clkTo = s.clkTo := rfl
@[simp] theorem State.mapTx_fe (s : State) (p : Nat) (f : TxPath → TxPath) : (s.mapTx p f).fe = s.fe := rfl
@[simp] theorem State.mapTx_feLater (s : State) (p : Nat) (f : TxPath → TxPath) : (s.mapTx p f).feLater = s.feLater := rfl
@[simp] theorem State.mapTx_linesOn (s : State) (p : Nat) (f : TxPath → TxPath) : (s.mapTx p f).linesOn = s.linesOn := rfl
@[simp] theorem State.mapTx_sched (s : State) (p : Nat) (f : TxPath → TxPath) : (s.mapTx p f).sched = s.sched := rfl
@[simp] theorem State.mapTx_schedPend (s : State) (p : Nat) (f : TxPath → TxPath) : (s.mapTx p f).schedPend = s.schedPend := rfl
@[simp] theorem State.mapTx_scripts (s : State) (p : Nat) (f : TxPath → TxPath) : (s.mapTx p f).scripts = s.scripts := rfl
@[simp] theorem State.mapTx_eng (s : State) (p : Nat) (f : TxPath → TxPath) : (s.mapTx p f).eng = s.eng := rfl
@[simp] theorem State.mapTx_engMem (s : State) (p : Nat) (f : TxPath → TxPath) : (s.mapTx p f).engMem = s.engMem := rfl
@[simp] theorem State.mapTx_pool (s : State) (p : Nat) (f : TxPath → TxPath) : (s.mapTx p f).pool = s.pool := rfl
@[simp] theorem State.mapTx_prog (s : State) (p : Nat) (f : TxPath → TxPath) : (s.mapTx p f).prog = s.prog := rfl
@[simp] theorem State.mapTx_slots (s : State) (p : Nat) (f : TxPath → TxPath) : (s.mapTx p f).slots = s.slots := rfl
@[simp] theorem State.mapTx_engHalf (s : State) (p : Nat) (f : TxPath → TxPath) : (s.mapTx p f).engHalf = s.engHalf := rfl
@[simp] theorem State.mapTx_engShare (s : State) (p : Nat) (f : TxPath → TxPath) : (s.mapTx p f).engShare = s.engShare := rfl
@[simp] theorem State.mapTx_imgLoads (s : State) (p : Nat) (f : TxPath → TxPath) : (s.mapTx p f).imgLoads = s.imgLoads := rfl
@[simp] theorem State.mapTx_behind (s : State) (p : Nat) (f : TxPath → TxPath) : (s.mapTx p f).behind = s.behind := rfl
@[simp] theorem State.mapTx_pace (s : State) (p : Nat) (f : TxPath → TxPath) : (s.mapTx p f).pace = s.pace := rfl
@[simp] theorem State.mapTx_caps (s : State) (p : Nat) (f : TxPath → TxPath) : (s.mapTx p f).caps = s.caps := rfl
@[simp] theorem State.mapTx_capNum (s : State) (p : Nat) (f : TxPath → TxPath) : (s.mapTx p f).capNum = s.capNum := rfl
@[simp] theorem State.mapTx_bias (s : State) (p : Nat) (f : TxPath → TxPath) : (s.mapTx p f).bias = s.bias := rfl
@[simp] theorem State.mapTx_sens (s : State) (p : Nat) (f : TxPath → TxPath) : (s.mapTx p f).sens = s.sens := rfl
@[simp] theorem State.mapTx_mon (s : State) (p : Nat) (f : TxPath → TxPath) : (s.mapTx p f).mon = s.mon := rfl
@[simp] theorem State.mapTx_host (s : State) (p : Nat) (f : TxPath → TxPath) : (s.mapTx p f).host = s.host := rfl
@[simp] theorem State.mapTx_cmd (s : State) (p : Nat) (f : TxPath → TxPath) : (s.mapTx p f).cmd = s.cmd := rfl
@[simp] theorem State.mapTx_time (s : State) (p : Nat) (f : TxPath → TxPath) : (s.mapTx p f).time = s.time := rfl
@[simp] theorem State.mapTx_rel (s : State) (p : Nat) (f : TxPath → TxPath) : (s.mapTx p f).rel = s.rel := rfl
@[simp] theorem State.mapTx_d2d (s : State) (p : Nat) (f : TxPath → TxPath) : (s.mapTx p f).d2d = s.d2d := rfl
@[simp] theorem State.mapTx_mirrored (s : State) (p : Nat) (f : TxPath → TxPath) : (s.mapTx p f).mirrored = s.mirrored := rfl
@[simp] theorem State.mapTx_nv (s : State) (p : Nat) (f : TxPath → TxPath) : (s.mapTx p f).nv = s.nv := rfl
@[simp] theorem State.mapTx_boot (s : State) (p : Nat) (f : TxPath → TxPath) : (s.mapTx p f).boot = s.boot := rfl
@[simp] theorem State.mapTx_tap (s : State) (p : Nat) (f : TxPath → TxPath) : (s.mapTx p f).tap = s.tap := rfl
@[simp] theorem State.mapTx_sent (s : State) (p : Nat) (f : TxPath → TxPath) : (s.mapTx p f).sent = s.sent := rfl
@[simp] theorem State.mapTx_fresh (s : State) (p : Nat) (f : TxPath → TxPath) : (s.mapTx p f).fresh = s.fresh := rfl
@[simp] theorem State.mapTx_pending (s : State) (p : Nat) (f : TxPath → TxPath) : (s.mapTx p f).pending = s.pending := rfl

@[simp] theorem State.mapRx_regs (s : State) (p : Nat) (f : RxPath → RxPath) : (s.mapRx p f).regs = s.regs := rfl
@[simp] theorem State.mapRx_lanes (s : State) (p : Nat) (f : RxPath → RxPath) : (s.mapRx p f).lanes = s.lanes := rfl
@[simp] theorem State.mapRx_links (s : State) (p : Nat) (f : RxPath → RxPath) : (s.mapRx p f).links = s.links := rfl
@[simp] theorem State.mapRx_line (s : State) (p : Nat) (f : RxPath → RxPath) : (s.mapRx p f).line = s.line := rfl
@[simp] theorem State.mapRx_pkts (s : State) (p : Nat) (f : RxPath → RxPath) : (s.mapRx p f).pkts = s.pkts := rfl
@[simp] theorem State.mapRx_flows (s : State) (p : Nat) (f : RxPath → RxPath) : (s.mapRx p f).flows = s.flows := rfl
@[simp] theorem State.mapRx_flowFx (s : State) (p : Nat) (f : RxPath → RxPath) : (s.mapRx p f).flowFx = s.flowFx := rfl
@[simp] theorem State.mapRx_flowOld (s : State) (p : Nat) (f : RxPath → RxPath) : (s.mapRx p f).flowOld = s.flowOld := rfl
@[simp] theorem State.mapRx_ctrlSecs (s : State) (p : Nat) (f : RxPath → RxPath) : (s.mapRx p f).ctrlSecs = s.ctrlSecs := rfl
@[simp] theorem State.mapRx_dataSecs (s : State) (p : Nat) (f : RxPath → RxPath) : (s.mapRx p f).dataSecs = s.dataSecs := rfl
@[simp] theorem State.mapRx_soundSecs (s : State) (p : Nat) (f : RxPath → RxPath) : (s.mapRx p f).soundSecs = s.soundSecs := rfl
@[simp] theorem State.mapRx_dlCar (s : State) (p : Nat) (f : RxPath → RxPath) : (s.mapRx p f).dlCar = s.dlCar := rfl
@[simp] theorem State.mapRx_dlPend (s : State) (p : Nat) (f : RxPath → RxPath) : (s.mapRx p f).dlPend = s.dlPend := rfl
@[simp] theorem State.mapRx_dlSince (s : State) (p : Nat) (f : RxPath → RxPath) : (s.mapRx p f).dlSince = s.dlSince := rfl
@[simp] theorem State.mapRx_backoff (s : State) (p : Nat) (f : RxPath → RxPath) : (s.mapRx p f).backoff = s.backoff := rfl
@[simp] theorem State.mapRx_backAt (s : State) (p : Nat) (f : RxPath → RxPath) : (s.mapRx p f).backAt = s.backAt := rfl
@[simp] theorem State.mapRx_dlOcc (s : State) (p : Nat) (f : RxPath → RxPath) : (s.mapRx p f).dlOcc = s.dlOcc := rfl
@[simp] theorem State.mapRx_txp (s : State) (p : Nat) (f : RxPath → RxPath) : (s.mapRx p f).txp = s.txp := rfl
@[simp] theorem State.mapRx_dlSat (s : State) (p : Nat) (f : RxPath → RxPath) : (s.mapRx p f).dlSat = s.dlSat := rfl
@[simp] theorem State.mapRx_ulCar (s : State) (p : Nat) (f : RxPath → RxPath) : (s.mapRx p f).ulCar = s.ulCar := rfl
@[simp] theorem State.mapRx_ulPend (s : State) (p : Nat) (f : RxPath → RxPath) : (s.mapRx p f).ulPend = s.ulPend := rfl
@[simp] theorem State.mapRx_ulWas (s : State) (p : Nat) (f : RxPath → RxPath) : (s.mapRx p f).ulWas = s.ulWas := rfl
@[simp] theorem State.mapRx_conv (s : State) (p : Nat) (f : RxPath → RxPath) : (s.mapRx p f).conv = s.conv := rfl
@[simp] theorem State.mapRx_filt (s : State) (p : Nat) (f : RxPath → RxPath) : (s.mapRx p f).filt = s.filt := rfl
@[simp] theorem State.mapRx_parts (s : State) (p : Nat) (f : RxPath → RxPath) : (s.mapRx p f).parts = s.parts := rfl
@[simp] theorem State.mapRx_sums (s : State) (p : Nat) (f : RxPath → RxPath) : (s.mapRx p f).sums = s.sums := rfl
@[simp] theorem State.mapRx_ulSat (s : State) (p : Nat) (f : RxPath → RxPath) : (s.mapRx p f).ulSat = s.ulSat := rfl
@[simp] theorem State.mapRx_beams (s : State) (p : Nat) (f : RxPath → RxPath) : (s.mapRx p f).beams = s.beams := rfl
@[simp] theorem State.mapRx_rows (s : State) (p : Nat) (f : RxPath → RxPath) : (s.mapRx p f).rows = s.rows := rfl
@[simp] theorem State.mapRx_stage (s : State) (p : Nat) (f : RxPath → RxPath) : (s.mapRx p f).stage = s.stage := rfl
@[simp] theorem State.mapRx_spareRows (s : State) (p : Nat) (f : RxPath → RxPath) : (s.mapRx p f).spareRows = s.spareRows := rfl
@[simp] theorem State.mapRx_bulk (s : State) (p : Nat) (f : RxPath → RxPath) : (s.mapRx p f).bulk = s.bulk := rfl
@[simp] theorem State.mapRx_solvRec (s : State) (p : Nat) (f : RxPath → RxPath) : (s.mapRx p f).solvRec = s.solvRec := rfl
@[simp] theorem State.mapRx_solv (s : State) (p : Nat) (f : RxPath → RxPath) : (s.mapRx p f).solv = s.solv := rfl
@[simp] theorem State.mapRx_dpd (s : State) (p : Nat) (f : RxPath → RxPath) : (s.mapRx p f).dpd = s.dpd := rfl
@[simp] theorem State.mapRx_sharedOrx (s : State) (p : Nat) (f : RxPath → RxPath) : (s.mapRx p f).sharedOrx = s.sharedOrx := rfl
@[simp] theorem State.mapRx_svcAt (s : State) (p : Nat) (f : RxPath → RxPath) : (s.mapRx p f).svcAt = s.svcAt := rfl
@[simp] theorem State.mapRx_calp (s : State) (p : Nat) (f : RxPath → RxPath) : (s.mapRx p f).calp = s.calp := rfl
@[simp] theorem State.mapRx_calRefs (s : State) (p : Nat) (f : RxPath → RxPath) : (s.mapRx p f).calRefs = s.calRefs := rfl
@[simp] theorem State.mapRx_calSets (s : State) (p : Nat) (f : RxPath → RxPath) : (s.mapRx p f).calSets = s.calSets := rfl
@[simp] theorem State.mapRx_grp (s : State) (p : Nat) (f : RxPath → RxPath) : (s.mapRx p f).grp = s.grp := rfl
@[simp] theorem State.mapRx_tie (s : State) (p : Nat) (f : RxPath → RxPath) : (s.mapRx p f).tie = s.tie := rfl
@[simp] theorem State.mapRx_hops (s : State) (p : Nat) (f : RxPath → RxPath) : (s.mapRx p f).hops = s.hops := rfl
@[simp] theorem State.mapRx_lox (s : State) (p : Nat) (f : RxPath → RxPath) : (s.mapRx p f).lox = s.lox := rfl
@[simp] theorem State.mapRx_ref (s : State) (p : Nat) (f : RxPath → RxPath) : (s.mapRx p f).ref = s.ref := rfl
@[simp] theorem State.mapRx_clkTo (s : State) (p : Nat) (f : RxPath → RxPath) : (s.mapRx p f).clkTo = s.clkTo := rfl
@[simp] theorem State.mapRx_fe (s : State) (p : Nat) (f : RxPath → RxPath) : (s.mapRx p f).fe = s.fe := rfl
@[simp] theorem State.mapRx_feLater (s : State) (p : Nat) (f : RxPath → RxPath) : (s.mapRx p f).feLater = s.feLater := rfl
@[simp] theorem State.mapRx_linesOn (s : State) (p : Nat) (f : RxPath → RxPath) : (s.mapRx p f).linesOn = s.linesOn := rfl
@[simp] theorem State.mapRx_sched (s : State) (p : Nat) (f : RxPath → RxPath) : (s.mapRx p f).sched = s.sched := rfl
@[simp] theorem State.mapRx_schedPend (s : State) (p : Nat) (f : RxPath → RxPath) : (s.mapRx p f).schedPend = s.schedPend := rfl
@[simp] theorem State.mapRx_scripts (s : State) (p : Nat) (f : RxPath → RxPath) : (s.mapRx p f).scripts = s.scripts := rfl
@[simp] theorem State.mapRx_eng (s : State) (p : Nat) (f : RxPath → RxPath) : (s.mapRx p f).eng = s.eng := rfl
@[simp] theorem State.mapRx_engMem (s : State) (p : Nat) (f : RxPath → RxPath) : (s.mapRx p f).engMem = s.engMem := rfl
@[simp] theorem State.mapRx_pool (s : State) (p : Nat) (f : RxPath → RxPath) : (s.mapRx p f).pool = s.pool := rfl
@[simp] theorem State.mapRx_prog (s : State) (p : Nat) (f : RxPath → RxPath) : (s.mapRx p f).prog = s.prog := rfl
@[simp] theorem State.mapRx_slots (s : State) (p : Nat) (f : RxPath → RxPath) : (s.mapRx p f).slots = s.slots := rfl
@[simp] theorem State.mapRx_engHalf (s : State) (p : Nat) (f : RxPath → RxPath) : (s.mapRx p f).engHalf = s.engHalf := rfl
@[simp] theorem State.mapRx_engShare (s : State) (p : Nat) (f : RxPath → RxPath) : (s.mapRx p f).engShare = s.engShare := rfl
@[simp] theorem State.mapRx_imgLoads (s : State) (p : Nat) (f : RxPath → RxPath) : (s.mapRx p f).imgLoads = s.imgLoads := rfl
@[simp] theorem State.mapRx_behind (s : State) (p : Nat) (f : RxPath → RxPath) : (s.mapRx p f).behind = s.behind := rfl
@[simp] theorem State.mapRx_pace (s : State) (p : Nat) (f : RxPath → RxPath) : (s.mapRx p f).pace = s.pace := rfl
@[simp] theorem State.mapRx_caps (s : State) (p : Nat) (f : RxPath → RxPath) : (s.mapRx p f).caps = s.caps := rfl
@[simp] theorem State.mapRx_capNum (s : State) (p : Nat) (f : RxPath → RxPath) : (s.mapRx p f).capNum = s.capNum := rfl
@[simp] theorem State.mapRx_bias (s : State) (p : Nat) (f : RxPath → RxPath) : (s.mapRx p f).bias = s.bias := rfl
@[simp] theorem State.mapRx_sens (s : State) (p : Nat) (f : RxPath → RxPath) : (s.mapRx p f).sens = s.sens := rfl
@[simp] theorem State.mapRx_mon (s : State) (p : Nat) (f : RxPath → RxPath) : (s.mapRx p f).mon = s.mon := rfl
@[simp] theorem State.mapRx_host (s : State) (p : Nat) (f : RxPath → RxPath) : (s.mapRx p f).host = s.host := rfl
@[simp] theorem State.mapRx_cmd (s : State) (p : Nat) (f : RxPath → RxPath) : (s.mapRx p f).cmd = s.cmd := rfl
@[simp] theorem State.mapRx_time (s : State) (p : Nat) (f : RxPath → RxPath) : (s.mapRx p f).time = s.time := rfl
@[simp] theorem State.mapRx_rel (s : State) (p : Nat) (f : RxPath → RxPath) : (s.mapRx p f).rel = s.rel := rfl
@[simp] theorem State.mapRx_d2d (s : State) (p : Nat) (f : RxPath → RxPath) : (s.mapRx p f).d2d = s.d2d := rfl
@[simp] theorem State.mapRx_mirrored (s : State) (p : Nat) (f : RxPath → RxPath) : (s.mapRx p f).mirrored = s.mirrored := rfl
@[simp] theorem State.mapRx_nv (s : State) (p : Nat) (f : RxPath → RxPath) : (s.mapRx p f).nv = s.nv := rfl
@[simp] theorem State.mapRx_boot (s : State) (p : Nat) (f : RxPath → RxPath) : (s.mapRx p f).boot = s.boot := rfl
@[simp] theorem State.mapRx_tap (s : State) (p : Nat) (f : RxPath → RxPath) : (s.mapRx p f).tap = s.tap := rfl
@[simp] theorem State.mapRx_sent (s : State) (p : Nat) (f : RxPath → RxPath) : (s.mapRx p f).sent = s.sent := rfl
@[simp] theorem State.mapRx_fresh (s : State) (p : Nat) (f : RxPath → RxPath) : (s.mapRx p f).fresh = s.fresh := rfl
@[simp] theorem State.mapRx_pending (s : State) (p : Nat) (f : RxPath → RxPath) : (s.mapRx p f).pending = s.pending := rfl

@[simp] theorem State.mapFe_regs (s : State) (p : Nat) (f : FePath → FePath) : (s.mapFe p f).regs = s.regs := rfl
@[simp] theorem State.mapFe_lanes (s : State) (p : Nat) (f : FePath → FePath) : (s.mapFe p f).lanes = s.lanes := rfl
@[simp] theorem State.mapFe_links (s : State) (p : Nat) (f : FePath → FePath) : (s.mapFe p f).links = s.links := rfl
@[simp] theorem State.mapFe_line (s : State) (p : Nat) (f : FePath → FePath) : (s.mapFe p f).line = s.line := rfl
@[simp] theorem State.mapFe_pkts (s : State) (p : Nat) (f : FePath → FePath) : (s.mapFe p f).pkts = s.pkts := rfl
@[simp] theorem State.mapFe_flows (s : State) (p : Nat) (f : FePath → FePath) : (s.mapFe p f).flows = s.flows := rfl
@[simp] theorem State.mapFe_flowFx (s : State) (p : Nat) (f : FePath → FePath) : (s.mapFe p f).flowFx = s.flowFx := rfl
@[simp] theorem State.mapFe_flowOld (s : State) (p : Nat) (f : FePath → FePath) : (s.mapFe p f).flowOld = s.flowOld := rfl
@[simp] theorem State.mapFe_ctrlSecs (s : State) (p : Nat) (f : FePath → FePath) : (s.mapFe p f).ctrlSecs = s.ctrlSecs := rfl
@[simp] theorem State.mapFe_dataSecs (s : State) (p : Nat) (f : FePath → FePath) : (s.mapFe p f).dataSecs = s.dataSecs := rfl
@[simp] theorem State.mapFe_soundSecs (s : State) (p : Nat) (f : FePath → FePath) : (s.mapFe p f).soundSecs = s.soundSecs := rfl
@[simp] theorem State.mapFe_dlCar (s : State) (p : Nat) (f : FePath → FePath) : (s.mapFe p f).dlCar = s.dlCar := rfl
@[simp] theorem State.mapFe_dlPend (s : State) (p : Nat) (f : FePath → FePath) : (s.mapFe p f).dlPend = s.dlPend := rfl
@[simp] theorem State.mapFe_dlSince (s : State) (p : Nat) (f : FePath → FePath) : (s.mapFe p f).dlSince = s.dlSince := rfl
@[simp] theorem State.mapFe_backoff (s : State) (p : Nat) (f : FePath → FePath) : (s.mapFe p f).backoff = s.backoff := rfl
@[simp] theorem State.mapFe_backAt (s : State) (p : Nat) (f : FePath → FePath) : (s.mapFe p f).backAt = s.backAt := rfl
@[simp] theorem State.mapFe_dlOcc (s : State) (p : Nat) (f : FePath → FePath) : (s.mapFe p f).dlOcc = s.dlOcc := rfl
@[simp] theorem State.mapFe_txp (s : State) (p : Nat) (f : FePath → FePath) : (s.mapFe p f).txp = s.txp := rfl
@[simp] theorem State.mapFe_dlSat (s : State) (p : Nat) (f : FePath → FePath) : (s.mapFe p f).dlSat = s.dlSat := rfl
@[simp] theorem State.mapFe_ulCar (s : State) (p : Nat) (f : FePath → FePath) : (s.mapFe p f).ulCar = s.ulCar := rfl
@[simp] theorem State.mapFe_ulPend (s : State) (p : Nat) (f : FePath → FePath) : (s.mapFe p f).ulPend = s.ulPend := rfl
@[simp] theorem State.mapFe_ulWas (s : State) (p : Nat) (f : FePath → FePath) : (s.mapFe p f).ulWas = s.ulWas := rfl
@[simp] theorem State.mapFe_conv (s : State) (p : Nat) (f : FePath → FePath) : (s.mapFe p f).conv = s.conv := rfl
@[simp] theorem State.mapFe_rxp (s : State) (p : Nat) (f : FePath → FePath) : (s.mapFe p f).rxp = s.rxp := rfl
@[simp] theorem State.mapFe_filt (s : State) (p : Nat) (f : FePath → FePath) : (s.mapFe p f).filt = s.filt := rfl
@[simp] theorem State.mapFe_parts (s : State) (p : Nat) (f : FePath → FePath) : (s.mapFe p f).parts = s.parts := rfl
@[simp] theorem State.mapFe_sums (s : State) (p : Nat) (f : FePath → FePath) : (s.mapFe p f).sums = s.sums := rfl
@[simp] theorem State.mapFe_ulSat (s : State) (p : Nat) (f : FePath → FePath) : (s.mapFe p f).ulSat = s.ulSat := rfl
@[simp] theorem State.mapFe_beams (s : State) (p : Nat) (f : FePath → FePath) : (s.mapFe p f).beams = s.beams := rfl
@[simp] theorem State.mapFe_rows (s : State) (p : Nat) (f : FePath → FePath) : (s.mapFe p f).rows = s.rows := rfl
@[simp] theorem State.mapFe_stage (s : State) (p : Nat) (f : FePath → FePath) : (s.mapFe p f).stage = s.stage := rfl
@[simp] theorem State.mapFe_spareRows (s : State) (p : Nat) (f : FePath → FePath) : (s.mapFe p f).spareRows = s.spareRows := rfl
@[simp] theorem State.mapFe_bulk (s : State) (p : Nat) (f : FePath → FePath) : (s.mapFe p f).bulk = s.bulk := rfl
@[simp] theorem State.mapFe_solvRec (s : State) (p : Nat) (f : FePath → FePath) : (s.mapFe p f).solvRec = s.solvRec := rfl
@[simp] theorem State.mapFe_solv (s : State) (p : Nat) (f : FePath → FePath) : (s.mapFe p f).solv = s.solv := rfl
@[simp] theorem State.mapFe_dpd (s : State) (p : Nat) (f : FePath → FePath) : (s.mapFe p f).dpd = s.dpd := rfl
@[simp] theorem State.mapFe_sharedOrx (s : State) (p : Nat) (f : FePath → FePath) : (s.mapFe p f).sharedOrx = s.sharedOrx := rfl
@[simp] theorem State.mapFe_svcAt (s : State) (p : Nat) (f : FePath → FePath) : (s.mapFe p f).svcAt = s.svcAt := rfl
@[simp] theorem State.mapFe_calp (s : State) (p : Nat) (f : FePath → FePath) : (s.mapFe p f).calp = s.calp := rfl
@[simp] theorem State.mapFe_calRefs (s : State) (p : Nat) (f : FePath → FePath) : (s.mapFe p f).calRefs = s.calRefs := rfl
@[simp] theorem State.mapFe_calSets (s : State) (p : Nat) (f : FePath → FePath) : (s.mapFe p f).calSets = s.calSets := rfl
@[simp] theorem State.mapFe_grp (s : State) (p : Nat) (f : FePath → FePath) : (s.mapFe p f).grp = s.grp := rfl
@[simp] theorem State.mapFe_tie (s : State) (p : Nat) (f : FePath → FePath) : (s.mapFe p f).tie = s.tie := rfl
@[simp] theorem State.mapFe_hops (s : State) (p : Nat) (f : FePath → FePath) : (s.mapFe p f).hops = s.hops := rfl
@[simp] theorem State.mapFe_lox (s : State) (p : Nat) (f : FePath → FePath) : (s.mapFe p f).lox = s.lox := rfl
@[simp] theorem State.mapFe_ref (s : State) (p : Nat) (f : FePath → FePath) : (s.mapFe p f).ref = s.ref := rfl
@[simp] theorem State.mapFe_clkTo (s : State) (p : Nat) (f : FePath → FePath) : (s.mapFe p f).clkTo = s.clkTo := rfl
@[simp] theorem State.mapFe_feLater (s : State) (p : Nat) (f : FePath → FePath) : (s.mapFe p f).feLater = s.feLater := rfl
@[simp] theorem State.mapFe_linesOn (s : State) (p : Nat) (f : FePath → FePath) : (s.mapFe p f).linesOn = s.linesOn := rfl
@[simp] theorem State.mapFe_sched (s : State) (p : Nat) (f : FePath → FePath) : (s.mapFe p f).sched = s.sched := rfl
@[simp] theorem State.mapFe_schedPend (s : State) (p : Nat) (f : FePath → FePath) : (s.mapFe p f).schedPend = s.schedPend := rfl
@[simp] theorem State.mapFe_scripts (s : State) (p : Nat) (f : FePath → FePath) : (s.mapFe p f).scripts = s.scripts := rfl
@[simp] theorem State.mapFe_eng (s : State) (p : Nat) (f : FePath → FePath) : (s.mapFe p f).eng = s.eng := rfl
@[simp] theorem State.mapFe_engMem (s : State) (p : Nat) (f : FePath → FePath) : (s.mapFe p f).engMem = s.engMem := rfl
@[simp] theorem State.mapFe_pool (s : State) (p : Nat) (f : FePath → FePath) : (s.mapFe p f).pool = s.pool := rfl
@[simp] theorem State.mapFe_prog (s : State) (p : Nat) (f : FePath → FePath) : (s.mapFe p f).prog = s.prog := rfl
@[simp] theorem State.mapFe_slots (s : State) (p : Nat) (f : FePath → FePath) : (s.mapFe p f).slots = s.slots := rfl
@[simp] theorem State.mapFe_engHalf (s : State) (p : Nat) (f : FePath → FePath) : (s.mapFe p f).engHalf = s.engHalf := rfl
@[simp] theorem State.mapFe_engShare (s : State) (p : Nat) (f : FePath → FePath) : (s.mapFe p f).engShare = s.engShare := rfl
@[simp] theorem State.mapFe_imgLoads (s : State) (p : Nat) (f : FePath → FePath) : (s.mapFe p f).imgLoads = s.imgLoads := rfl
@[simp] theorem State.mapFe_behind (s : State) (p : Nat) (f : FePath → FePath) : (s.mapFe p f).behind = s.behind := rfl
@[simp] theorem State.mapFe_pace (s : State) (p : Nat) (f : FePath → FePath) : (s.mapFe p f).pace = s.pace := rfl
@[simp] theorem State.mapFe_caps (s : State) (p : Nat) (f : FePath → FePath) : (s.mapFe p f).caps = s.caps := rfl
@[simp] theorem State.mapFe_capNum (s : State) (p : Nat) (f : FePath → FePath) : (s.mapFe p f).capNum = s.capNum := rfl
@[simp] theorem State.mapFe_bias (s : State) (p : Nat) (f : FePath → FePath) : (s.mapFe p f).bias = s.bias := rfl
@[simp] theorem State.mapFe_sens (s : State) (p : Nat) (f : FePath → FePath) : (s.mapFe p f).sens = s.sens := rfl
@[simp] theorem State.mapFe_mon (s : State) (p : Nat) (f : FePath → FePath) : (s.mapFe p f).mon = s.mon := rfl
@[simp] theorem State.mapFe_host (s : State) (p : Nat) (f : FePath → FePath) : (s.mapFe p f).host = s.host := rfl
@[simp] theorem State.mapFe_cmd (s : State) (p : Nat) (f : FePath → FePath) : (s.mapFe p f).cmd = s.cmd := rfl
@[simp] theorem State.mapFe_time (s : State) (p : Nat) (f : FePath → FePath) : (s.mapFe p f).time = s.time := rfl
@[simp] theorem State.mapFe_rel (s : State) (p : Nat) (f : FePath → FePath) : (s.mapFe p f).rel = s.rel := rfl
@[simp] theorem State.mapFe_d2d (s : State) (p : Nat) (f : FePath → FePath) : (s.mapFe p f).d2d = s.d2d := rfl
@[simp] theorem State.mapFe_mirrored (s : State) (p : Nat) (f : FePath → FePath) : (s.mapFe p f).mirrored = s.mirrored := rfl
@[simp] theorem State.mapFe_nv (s : State) (p : Nat) (f : FePath → FePath) : (s.mapFe p f).nv = s.nv := rfl
@[simp] theorem State.mapFe_boot (s : State) (p : Nat) (f : FePath → FePath) : (s.mapFe p f).boot = s.boot := rfl
@[simp] theorem State.mapFe_tap (s : State) (p : Nat) (f : FePath → FePath) : (s.mapFe p f).tap = s.tap := rfl
@[simp] theorem State.mapFe_sent (s : State) (p : Nat) (f : FePath → FePath) : (s.mapFe p f).sent = s.sent := rfl
@[simp] theorem State.mapFe_fresh (s : State) (p : Nat) (f : FePath → FePath) : (s.mapFe p f).fresh = s.fresh := rfl
@[simp] theorem State.mapFe_pending (s : State) (p : Nat) (f : FePath → FePath) : (s.mapFe p f).pending = s.pending := rfl

@[simp] theorem State.mapCal_regs (s : State) (p : Nat) (f : CalPath → CalPath) : (s.mapCal p f).regs = s.regs := rfl
@[simp] theorem State.mapCal_lanes (s : State) (p : Nat) (f : CalPath → CalPath) : (s.mapCal p f).lanes = s.lanes := rfl
@[simp] theorem State.mapCal_links (s : State) (p : Nat) (f : CalPath → CalPath) : (s.mapCal p f).links = s.links := rfl
@[simp] theorem State.mapCal_line (s : State) (p : Nat) (f : CalPath → CalPath) : (s.mapCal p f).line = s.line := rfl
@[simp] theorem State.mapCal_pkts (s : State) (p : Nat) (f : CalPath → CalPath) : (s.mapCal p f).pkts = s.pkts := rfl
@[simp] theorem State.mapCal_flows (s : State) (p : Nat) (f : CalPath → CalPath) : (s.mapCal p f).flows = s.flows := rfl
@[simp] theorem State.mapCal_flowFx (s : State) (p : Nat) (f : CalPath → CalPath) : (s.mapCal p f).flowFx = s.flowFx := rfl
@[simp] theorem State.mapCal_flowOld (s : State) (p : Nat) (f : CalPath → CalPath) : (s.mapCal p f).flowOld = s.flowOld := rfl
@[simp] theorem State.mapCal_ctrlSecs (s : State) (p : Nat) (f : CalPath → CalPath) : (s.mapCal p f).ctrlSecs = s.ctrlSecs := rfl
@[simp] theorem State.mapCal_dataSecs (s : State) (p : Nat) (f : CalPath → CalPath) : (s.mapCal p f).dataSecs = s.dataSecs := rfl
@[simp] theorem State.mapCal_soundSecs (s : State) (p : Nat) (f : CalPath → CalPath) : (s.mapCal p f).soundSecs = s.soundSecs := rfl
@[simp] theorem State.mapCal_dlCar (s : State) (p : Nat) (f : CalPath → CalPath) : (s.mapCal p f).dlCar = s.dlCar := rfl
@[simp] theorem State.mapCal_dlPend (s : State) (p : Nat) (f : CalPath → CalPath) : (s.mapCal p f).dlPend = s.dlPend := rfl
@[simp] theorem State.mapCal_dlSince (s : State) (p : Nat) (f : CalPath → CalPath) : (s.mapCal p f).dlSince = s.dlSince := rfl
@[simp] theorem State.mapCal_backoff (s : State) (p : Nat) (f : CalPath → CalPath) : (s.mapCal p f).backoff = s.backoff := rfl
@[simp] theorem State.mapCal_backAt (s : State) (p : Nat) (f : CalPath → CalPath) : (s.mapCal p f).backAt = s.backAt := rfl
@[simp] theorem State.mapCal_dlOcc (s : State) (p : Nat) (f : CalPath → CalPath) : (s.mapCal p f).dlOcc = s.dlOcc := rfl
@[simp] theorem State.mapCal_txp (s : State) (p : Nat) (f : CalPath → CalPath) : (s.mapCal p f).txp = s.txp := rfl
@[simp] theorem State.mapCal_dlSat (s : State) (p : Nat) (f : CalPath → CalPath) : (s.mapCal p f).dlSat = s.dlSat := rfl
@[simp] theorem State.mapCal_ulCar (s : State) (p : Nat) (f : CalPath → CalPath) : (s.mapCal p f).ulCar = s.ulCar := rfl
@[simp] theorem State.mapCal_ulPend (s : State) (p : Nat) (f : CalPath → CalPath) : (s.mapCal p f).ulPend = s.ulPend := rfl
@[simp] theorem State.mapCal_ulWas (s : State) (p : Nat) (f : CalPath → CalPath) : (s.mapCal p f).ulWas = s.ulWas := rfl
@[simp] theorem State.mapCal_conv (s : State) (p : Nat) (f : CalPath → CalPath) : (s.mapCal p f).conv = s.conv := rfl
@[simp] theorem State.mapCal_rxp (s : State) (p : Nat) (f : CalPath → CalPath) : (s.mapCal p f).rxp = s.rxp := rfl
@[simp] theorem State.mapCal_filt (s : State) (p : Nat) (f : CalPath → CalPath) : (s.mapCal p f).filt = s.filt := rfl
@[simp] theorem State.mapCal_parts (s : State) (p : Nat) (f : CalPath → CalPath) : (s.mapCal p f).parts = s.parts := rfl
@[simp] theorem State.mapCal_sums (s : State) (p : Nat) (f : CalPath → CalPath) : (s.mapCal p f).sums = s.sums := rfl
@[simp] theorem State.mapCal_ulSat (s : State) (p : Nat) (f : CalPath → CalPath) : (s.mapCal p f).ulSat = s.ulSat := rfl
@[simp] theorem State.mapCal_beams (s : State) (p : Nat) (f : CalPath → CalPath) : (s.mapCal p f).beams = s.beams := rfl
@[simp] theorem State.mapCal_rows (s : State) (p : Nat) (f : CalPath → CalPath) : (s.mapCal p f).rows = s.rows := rfl
@[simp] theorem State.mapCal_stage (s : State) (p : Nat) (f : CalPath → CalPath) : (s.mapCal p f).stage = s.stage := rfl
@[simp] theorem State.mapCal_spareRows (s : State) (p : Nat) (f : CalPath → CalPath) : (s.mapCal p f).spareRows = s.spareRows := rfl
@[simp] theorem State.mapCal_bulk (s : State) (p : Nat) (f : CalPath → CalPath) : (s.mapCal p f).bulk = s.bulk := rfl
@[simp] theorem State.mapCal_solvRec (s : State) (p : Nat) (f : CalPath → CalPath) : (s.mapCal p f).solvRec = s.solvRec := rfl
@[simp] theorem State.mapCal_solv (s : State) (p : Nat) (f : CalPath → CalPath) : (s.mapCal p f).solv = s.solv := rfl
@[simp] theorem State.mapCal_dpd (s : State) (p : Nat) (f : CalPath → CalPath) : (s.mapCal p f).dpd = s.dpd := rfl
@[simp] theorem State.mapCal_sharedOrx (s : State) (p : Nat) (f : CalPath → CalPath) : (s.mapCal p f).sharedOrx = s.sharedOrx := rfl
@[simp] theorem State.mapCal_svcAt (s : State) (p : Nat) (f : CalPath → CalPath) : (s.mapCal p f).svcAt = s.svcAt := rfl
@[simp] theorem State.mapCal_calRefs (s : State) (p : Nat) (f : CalPath → CalPath) : (s.mapCal p f).calRefs = s.calRefs := rfl
@[simp] theorem State.mapCal_calSets (s : State) (p : Nat) (f : CalPath → CalPath) : (s.mapCal p f).calSets = s.calSets := rfl
@[simp] theorem State.mapCal_grp (s : State) (p : Nat) (f : CalPath → CalPath) : (s.mapCal p f).grp = s.grp := rfl
@[simp] theorem State.mapCal_tie (s : State) (p : Nat) (f : CalPath → CalPath) : (s.mapCal p f).tie = s.tie := rfl
@[simp] theorem State.mapCal_hops (s : State) (p : Nat) (f : CalPath → CalPath) : (s.mapCal p f).hops = s.hops := rfl
@[simp] theorem State.mapCal_lox (s : State) (p : Nat) (f : CalPath → CalPath) : (s.mapCal p f).lox = s.lox := rfl
@[simp] theorem State.mapCal_ref (s : State) (p : Nat) (f : CalPath → CalPath) : (s.mapCal p f).ref = s.ref := rfl
@[simp] theorem State.mapCal_clkTo (s : State) (p : Nat) (f : CalPath → CalPath) : (s.mapCal p f).clkTo = s.clkTo := rfl
@[simp] theorem State.mapCal_fe (s : State) (p : Nat) (f : CalPath → CalPath) : (s.mapCal p f).fe = s.fe := rfl
@[simp] theorem State.mapCal_feLater (s : State) (p : Nat) (f : CalPath → CalPath) : (s.mapCal p f).feLater = s.feLater := rfl
@[simp] theorem State.mapCal_linesOn (s : State) (p : Nat) (f : CalPath → CalPath) : (s.mapCal p f).linesOn = s.linesOn := rfl
@[simp] theorem State.mapCal_sched (s : State) (p : Nat) (f : CalPath → CalPath) : (s.mapCal p f).sched = s.sched := rfl
@[simp] theorem State.mapCal_schedPend (s : State) (p : Nat) (f : CalPath → CalPath) : (s.mapCal p f).schedPend = s.schedPend := rfl
@[simp] theorem State.mapCal_scripts (s : State) (p : Nat) (f : CalPath → CalPath) : (s.mapCal p f).scripts = s.scripts := rfl
@[simp] theorem State.mapCal_eng (s : State) (p : Nat) (f : CalPath → CalPath) : (s.mapCal p f).eng = s.eng := rfl
@[simp] theorem State.mapCal_engMem (s : State) (p : Nat) (f : CalPath → CalPath) : (s.mapCal p f).engMem = s.engMem := rfl
@[simp] theorem State.mapCal_pool (s : State) (p : Nat) (f : CalPath → CalPath) : (s.mapCal p f).pool = s.pool := rfl
@[simp] theorem State.mapCal_prog (s : State) (p : Nat) (f : CalPath → CalPath) : (s.mapCal p f).prog = s.prog := rfl
@[simp] theorem State.mapCal_slots (s : State) (p : Nat) (f : CalPath → CalPath) : (s.mapCal p f).slots = s.slots := rfl
@[simp] theorem State.mapCal_engHalf (s : State) (p : Nat) (f : CalPath → CalPath) : (s.mapCal p f).engHalf = s.engHalf := rfl
@[simp] theorem State.mapCal_engShare (s : State) (p : Nat) (f : CalPath → CalPath) : (s.mapCal p f).engShare = s.engShare := rfl
@[simp] theorem State.mapCal_imgLoads (s : State) (p : Nat) (f : CalPath → CalPath) : (s.mapCal p f).imgLoads = s.imgLoads := rfl
@[simp] theorem State.mapCal_behind (s : State) (p : Nat) (f : CalPath → CalPath) : (s.mapCal p f).behind = s.behind := rfl
@[simp] theorem State.mapCal_pace (s : State) (p : Nat) (f : CalPath → CalPath) : (s.mapCal p f).pace = s.pace := rfl
@[simp] theorem State.mapCal_caps (s : State) (p : Nat) (f : CalPath → CalPath) : (s.mapCal p f).caps = s.caps := rfl
@[simp] theorem State.mapCal_capNum (s : State) (p : Nat) (f : CalPath → CalPath) : (s.mapCal p f).capNum = s.capNum := rfl
@[simp] theorem State.mapCal_bias (s : State) (p : Nat) (f : CalPath → CalPath) : (s.mapCal p f).bias = s.bias := rfl
@[simp] theorem State.mapCal_sens (s : State) (p : Nat) (f : CalPath → CalPath) : (s.mapCal p f).sens = s.sens := rfl
@[simp] theorem State.mapCal_mon (s : State) (p : Nat) (f : CalPath → CalPath) : (s.mapCal p f).mon = s.mon := rfl
@[simp] theorem State.mapCal_host (s : State) (p : Nat) (f : CalPath → CalPath) : (s.mapCal p f).host = s.host := rfl
@[simp] theorem State.mapCal_cmd (s : State) (p : Nat) (f : CalPath → CalPath) : (s.mapCal p f).cmd = s.cmd := rfl
@[simp] theorem State.mapCal_time (s : State) (p : Nat) (f : CalPath → CalPath) : (s.mapCal p f).time = s.time := rfl
@[simp] theorem State.mapCal_rel (s : State) (p : Nat) (f : CalPath → CalPath) : (s.mapCal p f).rel = s.rel := rfl
@[simp] theorem State.mapCal_d2d (s : State) (p : Nat) (f : CalPath → CalPath) : (s.mapCal p f).d2d = s.d2d := rfl
@[simp] theorem State.mapCal_mirrored (s : State) (p : Nat) (f : CalPath → CalPath) : (s.mapCal p f).mirrored = s.mirrored := rfl
@[simp] theorem State.mapCal_nv (s : State) (p : Nat) (f : CalPath → CalPath) : (s.mapCal p f).nv = s.nv := rfl
@[simp] theorem State.mapCal_boot (s : State) (p : Nat) (f : CalPath → CalPath) : (s.mapCal p f).boot = s.boot := rfl
@[simp] theorem State.mapCal_tap (s : State) (p : Nat) (f : CalPath → CalPath) : (s.mapCal p f).tap = s.tap := rfl
@[simp] theorem State.mapCal_sent (s : State) (p : Nat) (f : CalPath → CalPath) : (s.mapCal p f).sent = s.sent := rfl
@[simp] theorem State.mapCal_fresh (s : State) (p : Nat) (f : CalPath → CalPath) : (s.mapCal p f).fresh = s.fresh := rfl
@[simp] theorem State.mapCal_pending (s : State) (p : Nat) (f : CalPath → CalPath) : (s.mapCal p f).pending = s.pending := rfl

@[simp] theorem State.mapEng_regs (s : State) (e : Nat) (f : EngSt → EngSt) : (s.mapEng e f).regs = s.regs := rfl
@[simp] theorem State.mapEng_lanes (s : State) (e : Nat) (f : EngSt → EngSt) : (s.mapEng e f).lanes = s.lanes := rfl
@[simp] theorem State.mapEng_links (s : State) (e : Nat) (f : EngSt → EngSt) : (s.mapEng e f).links = s.links := rfl
@[simp] theorem State.mapEng_line (s : State) (e : Nat) (f : EngSt → EngSt) : (s.mapEng e f).line = s.line := rfl
@[simp] theorem State.mapEng_pkts (s : State) (e : Nat) (f : EngSt → EngSt) : (s.mapEng e f).pkts = s.pkts := rfl
@[simp] theorem State.mapEng_flows (s : State) (e : Nat) (f : EngSt → EngSt) : (s.mapEng e f).flows = s.flows := rfl
@[simp] theorem State.mapEng_flowFx (s : State) (e : Nat) (f : EngSt → EngSt) : (s.mapEng e f).flowFx = s.flowFx := rfl
@[simp] theorem State.mapEng_flowOld (s : State) (e : Nat) (f : EngSt → EngSt) : (s.mapEng e f).flowOld = s.flowOld := rfl
@[simp] theorem State.mapEng_ctrlSecs (s : State) (e : Nat) (f : EngSt → EngSt) : (s.mapEng e f).ctrlSecs = s.ctrlSecs := rfl
@[simp] theorem State.mapEng_dataSecs (s : State) (e : Nat) (f : EngSt → EngSt) : (s.mapEng e f).dataSecs = s.dataSecs := rfl
@[simp] theorem State.mapEng_soundSecs (s : State) (e : Nat) (f : EngSt → EngSt) : (s.mapEng e f).soundSecs = s.soundSecs := rfl
@[simp] theorem State.mapEng_dlCar (s : State) (e : Nat) (f : EngSt → EngSt) : (s.mapEng e f).dlCar = s.dlCar := rfl
@[simp] theorem State.mapEng_dlPend (s : State) (e : Nat) (f : EngSt → EngSt) : (s.mapEng e f).dlPend = s.dlPend := rfl
@[simp] theorem State.mapEng_dlSince (s : State) (e : Nat) (f : EngSt → EngSt) : (s.mapEng e f).dlSince = s.dlSince := rfl
@[simp] theorem State.mapEng_backoff (s : State) (e : Nat) (f : EngSt → EngSt) : (s.mapEng e f).backoff = s.backoff := rfl
@[simp] theorem State.mapEng_backAt (s : State) (e : Nat) (f : EngSt → EngSt) : (s.mapEng e f).backAt = s.backAt := rfl
@[simp] theorem State.mapEng_dlOcc (s : State) (e : Nat) (f : EngSt → EngSt) : (s.mapEng e f).dlOcc = s.dlOcc := rfl
@[simp] theorem State.mapEng_txp (s : State) (e : Nat) (f : EngSt → EngSt) : (s.mapEng e f).txp = s.txp := rfl
@[simp] theorem State.mapEng_dlSat (s : State) (e : Nat) (f : EngSt → EngSt) : (s.mapEng e f).dlSat = s.dlSat := rfl
@[simp] theorem State.mapEng_ulCar (s : State) (e : Nat) (f : EngSt → EngSt) : (s.mapEng e f).ulCar = s.ulCar := rfl
@[simp] theorem State.mapEng_ulPend (s : State) (e : Nat) (f : EngSt → EngSt) : (s.mapEng e f).ulPend = s.ulPend := rfl
@[simp] theorem State.mapEng_ulWas (s : State) (e : Nat) (f : EngSt → EngSt) : (s.mapEng e f).ulWas = s.ulWas := rfl
@[simp] theorem State.mapEng_conv (s : State) (e : Nat) (f : EngSt → EngSt) : (s.mapEng e f).conv = s.conv := rfl
@[simp] theorem State.mapEng_rxp (s : State) (e : Nat) (f : EngSt → EngSt) : (s.mapEng e f).rxp = s.rxp := rfl
@[simp] theorem State.mapEng_filt (s : State) (e : Nat) (f : EngSt → EngSt) : (s.mapEng e f).filt = s.filt := rfl
@[simp] theorem State.mapEng_parts (s : State) (e : Nat) (f : EngSt → EngSt) : (s.mapEng e f).parts = s.parts := rfl
@[simp] theorem State.mapEng_sums (s : State) (e : Nat) (f : EngSt → EngSt) : (s.mapEng e f).sums = s.sums := rfl
@[simp] theorem State.mapEng_ulSat (s : State) (e : Nat) (f : EngSt → EngSt) : (s.mapEng e f).ulSat = s.ulSat := rfl
@[simp] theorem State.mapEng_beams (s : State) (e : Nat) (f : EngSt → EngSt) : (s.mapEng e f).beams = s.beams := rfl
@[simp] theorem State.mapEng_rows (s : State) (e : Nat) (f : EngSt → EngSt) : (s.mapEng e f).rows = s.rows := rfl
@[simp] theorem State.mapEng_stage (s : State) (e : Nat) (f : EngSt → EngSt) : (s.mapEng e f).stage = s.stage := rfl
@[simp] theorem State.mapEng_spareRows (s : State) (e : Nat) (f : EngSt → EngSt) : (s.mapEng e f).spareRows = s.spareRows := rfl
@[simp] theorem State.mapEng_bulk (s : State) (e : Nat) (f : EngSt → EngSt) : (s.mapEng e f).bulk = s.bulk := rfl
@[simp] theorem State.mapEng_solvRec (s : State) (e : Nat) (f : EngSt → EngSt) : (s.mapEng e f).solvRec = s.solvRec := rfl
@[simp] theorem State.mapEng_solv (s : State) (e : Nat) (f : EngSt → EngSt) : (s.mapEng e f).solv = s.solv := rfl
@[simp] theorem State.mapEng_dpd (s : State) (e : Nat) (f : EngSt → EngSt) : (s.mapEng e f).dpd = s.dpd := rfl
@[simp] theorem State.mapEng_sharedOrx (s : State) (e : Nat) (f : EngSt → EngSt) : (s.mapEng e f).sharedOrx = s.sharedOrx := rfl
@[simp] theorem State.mapEng_svcAt (s : State) (e : Nat) (f : EngSt → EngSt) : (s.mapEng e f).svcAt = s.svcAt := rfl
@[simp] theorem State.mapEng_calp (s : State) (e : Nat) (f : EngSt → EngSt) : (s.mapEng e f).calp = s.calp := rfl
@[simp] theorem State.mapEng_calRefs (s : State) (e : Nat) (f : EngSt → EngSt) : (s.mapEng e f).calRefs = s.calRefs := rfl
@[simp] theorem State.mapEng_calSets (s : State) (e : Nat) (f : EngSt → EngSt) : (s.mapEng e f).calSets = s.calSets := rfl
@[simp] theorem State.mapEng_grp (s : State) (e : Nat) (f : EngSt → EngSt) : (s.mapEng e f).grp = s.grp := rfl
@[simp] theorem State.mapEng_tie (s : State) (e : Nat) (f : EngSt → EngSt) : (s.mapEng e f).tie = s.tie := rfl
@[simp] theorem State.mapEng_hops (s : State) (e : Nat) (f : EngSt → EngSt) : (s.mapEng e f).hops = s.hops := rfl
@[simp] theorem State.mapEng_lox (s : State) (e : Nat) (f : EngSt → EngSt) : (s.mapEng e f).lox = s.lox := rfl
@[simp] theorem State.mapEng_ref (s : State) (e : Nat) (f : EngSt → EngSt) : (s.mapEng e f).ref = s.ref := rfl
@[simp] theorem State.mapEng_clkTo (s : State) (e : Nat) (f : EngSt → EngSt) : (s.mapEng e f).clkTo = s.clkTo := rfl
@[simp] theorem State.mapEng_fe (s : State) (e : Nat) (f : EngSt → EngSt) : (s.mapEng e f).fe = s.fe := rfl
@[simp] theorem State.mapEng_feLater (s : State) (e : Nat) (f : EngSt → EngSt) : (s.mapEng e f).feLater = s.feLater := rfl
@[simp] theorem State.mapEng_linesOn (s : State) (e : Nat) (f : EngSt → EngSt) : (s.mapEng e f).linesOn = s.linesOn := rfl
@[simp] theorem State.mapEng_sched (s : State) (e : Nat) (f : EngSt → EngSt) : (s.mapEng e f).sched = s.sched := rfl
@[simp] theorem State.mapEng_schedPend (s : State) (e : Nat) (f : EngSt → EngSt) : (s.mapEng e f).schedPend = s.schedPend := rfl
@[simp] theorem State.mapEng_scripts (s : State) (e : Nat) (f : EngSt → EngSt) : (s.mapEng e f).scripts = s.scripts := rfl
@[simp] theorem State.mapEng_engMem (s : State) (e : Nat) (f : EngSt → EngSt) : (s.mapEng e f).engMem = s.engMem := rfl
@[simp] theorem State.mapEng_pool (s : State) (e : Nat) (f : EngSt → EngSt) : (s.mapEng e f).pool = s.pool := rfl
@[simp] theorem State.mapEng_prog (s : State) (e : Nat) (f : EngSt → EngSt) : (s.mapEng e f).prog = s.prog := rfl
@[simp] theorem State.mapEng_slots (s : State) (e : Nat) (f : EngSt → EngSt) : (s.mapEng e f).slots = s.slots := rfl
@[simp] theorem State.mapEng_engHalf (s : State) (e : Nat) (f : EngSt → EngSt) : (s.mapEng e f).engHalf = s.engHalf := rfl
@[simp] theorem State.mapEng_engShare (s : State) (e : Nat) (f : EngSt → EngSt) : (s.mapEng e f).engShare = s.engShare := rfl
@[simp] theorem State.mapEng_imgLoads (s : State) (e : Nat) (f : EngSt → EngSt) : (s.mapEng e f).imgLoads = s.imgLoads := rfl
@[simp] theorem State.mapEng_behind (s : State) (e : Nat) (f : EngSt → EngSt) : (s.mapEng e f).behind = s.behind := rfl
@[simp] theorem State.mapEng_pace (s : State) (e : Nat) (f : EngSt → EngSt) : (s.mapEng e f).pace = s.pace := rfl
@[simp] theorem State.mapEng_caps (s : State) (e : Nat) (f : EngSt → EngSt) : (s.mapEng e f).caps = s.caps := rfl
@[simp] theorem State.mapEng_capNum (s : State) (e : Nat) (f : EngSt → EngSt) : (s.mapEng e f).capNum = s.capNum := rfl
@[simp] theorem State.mapEng_bias (s : State) (e : Nat) (f : EngSt → EngSt) : (s.mapEng e f).bias = s.bias := rfl
@[simp] theorem State.mapEng_sens (s : State) (e : Nat) (f : EngSt → EngSt) : (s.mapEng e f).sens = s.sens := rfl
@[simp] theorem State.mapEng_mon (s : State) (e : Nat) (f : EngSt → EngSt) : (s.mapEng e f).mon = s.mon := rfl
@[simp] theorem State.mapEng_host (s : State) (e : Nat) (f : EngSt → EngSt) : (s.mapEng e f).host = s.host := rfl
@[simp] theorem State.mapEng_cmd (s : State) (e : Nat) (f : EngSt → EngSt) : (s.mapEng e f).cmd = s.cmd := rfl
@[simp] theorem State.mapEng_time (s : State) (e : Nat) (f : EngSt → EngSt) : (s.mapEng e f).time = s.time := rfl
@[simp] theorem State.mapEng_rel (s : State) (e : Nat) (f : EngSt → EngSt) : (s.mapEng e f).rel = s.rel := rfl
@[simp] theorem State.mapEng_d2d (s : State) (e : Nat) (f : EngSt → EngSt) : (s.mapEng e f).d2d = s.d2d := rfl
@[simp] theorem State.mapEng_mirrored (s : State) (e : Nat) (f : EngSt → EngSt) : (s.mapEng e f).mirrored = s.mirrored := rfl
@[simp] theorem State.mapEng_nv (s : State) (e : Nat) (f : EngSt → EngSt) : (s.mapEng e f).nv = s.nv := rfl
@[simp] theorem State.mapEng_boot (s : State) (e : Nat) (f : EngSt → EngSt) : (s.mapEng e f).boot = s.boot := rfl
@[simp] theorem State.mapEng_tap (s : State) (e : Nat) (f : EngSt → EngSt) : (s.mapEng e f).tap = s.tap := rfl
@[simp] theorem State.mapEng_sent (s : State) (e : Nat) (f : EngSt → EngSt) : (s.mapEng e f).sent = s.sent := rfl
@[simp] theorem State.mapEng_fresh (s : State) (e : Nat) (f : EngSt → EngSt) : (s.mapEng e f).fresh = s.fresh := rfl
@[simp] theorem State.mapEng_pending (s : State) (e : Nat) (f : EngSt → EngSt) : (s.mapEng e f).pending = s.pending := rfl

@[simp] theorem State.mapBoot_regs (s : State) (f : BootSt → BootSt) : (s.mapBoot f).regs = s.regs := rfl
@[simp] theorem State.mapBoot_lanes (s : State) (f : BootSt → BootSt) : (s.mapBoot f).lanes = s.lanes := rfl
@[simp] theorem State.mapBoot_links (s : State) (f : BootSt → BootSt) : (s.mapBoot f).links = s.links := rfl
@[simp] theorem State.mapBoot_line (s : State) (f : BootSt → BootSt) : (s.mapBoot f).line = s.line := rfl
@[simp] theorem State.mapBoot_pkts (s : State) (f : BootSt → BootSt) : (s.mapBoot f).pkts = s.pkts := rfl
@[simp] theorem State.mapBoot_flows (s : State) (f : BootSt → BootSt) : (s.mapBoot f).flows = s.flows := rfl
@[simp] theorem State.mapBoot_flowFx (s : State) (f : BootSt → BootSt) : (s.mapBoot f).flowFx = s.flowFx := rfl
@[simp] theorem State.mapBoot_flowOld (s : State) (f : BootSt → BootSt) : (s.mapBoot f).flowOld = s.flowOld := rfl
@[simp] theorem State.mapBoot_ctrlSecs (s : State) (f : BootSt → BootSt) : (s.mapBoot f).ctrlSecs = s.ctrlSecs := rfl
@[simp] theorem State.mapBoot_dataSecs (s : State) (f : BootSt → BootSt) : (s.mapBoot f).dataSecs = s.dataSecs := rfl
@[simp] theorem State.mapBoot_soundSecs (s : State) (f : BootSt → BootSt) : (s.mapBoot f).soundSecs = s.soundSecs := rfl
@[simp] theorem State.mapBoot_dlCar (s : State) (f : BootSt → BootSt) : (s.mapBoot f).dlCar = s.dlCar := rfl
@[simp] theorem State.mapBoot_dlPend (s : State) (f : BootSt → BootSt) : (s.mapBoot f).dlPend = s.dlPend := rfl
@[simp] theorem State.mapBoot_dlSince (s : State) (f : BootSt → BootSt) : (s.mapBoot f).dlSince = s.dlSince := rfl
@[simp] theorem State.mapBoot_backoff (s : State) (f : BootSt → BootSt) : (s.mapBoot f).backoff = s.backoff := rfl
@[simp] theorem State.mapBoot_backAt (s : State) (f : BootSt → BootSt) : (s.mapBoot f).backAt = s.backAt := rfl
@[simp] theorem State.mapBoot_dlOcc (s : State) (f : BootSt → BootSt) : (s.mapBoot f).dlOcc = s.dlOcc := rfl
@[simp] theorem State.mapBoot_txp (s : State) (f : BootSt → BootSt) : (s.mapBoot f).txp = s.txp := rfl
@[simp] theorem State.mapBoot_dlSat (s : State) (f : BootSt → BootSt) : (s.mapBoot f).dlSat = s.dlSat := rfl
@[simp] theorem State.mapBoot_ulCar (s : State) (f : BootSt → BootSt) : (s.mapBoot f).ulCar = s.ulCar := rfl
@[simp] theorem State.mapBoot_ulPend (s : State) (f : BootSt → BootSt) : (s.mapBoot f).ulPend = s.ulPend := rfl
@[simp] theorem State.mapBoot_ulWas (s : State) (f : BootSt → BootSt) : (s.mapBoot f).ulWas = s.ulWas := rfl
@[simp] theorem State.mapBoot_conv (s : State) (f : BootSt → BootSt) : (s.mapBoot f).conv = s.conv := rfl
@[simp] theorem State.mapBoot_rxp (s : State) (f : BootSt → BootSt) : (s.mapBoot f).rxp = s.rxp := rfl
@[simp] theorem State.mapBoot_filt (s : State) (f : BootSt → BootSt) : (s.mapBoot f).filt = s.filt := rfl
@[simp] theorem State.mapBoot_parts (s : State) (f : BootSt → BootSt) : (s.mapBoot f).parts = s.parts := rfl
@[simp] theorem State.mapBoot_sums (s : State) (f : BootSt → BootSt) : (s.mapBoot f).sums = s.sums := rfl
@[simp] theorem State.mapBoot_ulSat (s : State) (f : BootSt → BootSt) : (s.mapBoot f).ulSat = s.ulSat := rfl
@[simp] theorem State.mapBoot_beams (s : State) (f : BootSt → BootSt) : (s.mapBoot f).beams = s.beams := rfl
@[simp] theorem State.mapBoot_rows (s : State) (f : BootSt → BootSt) : (s.mapBoot f).rows = s.rows := rfl
@[simp] theorem State.mapBoot_stage (s : State) (f : BootSt → BootSt) : (s.mapBoot f).stage = s.stage := rfl
@[simp] theorem State.mapBoot_spareRows (s : State) (f : BootSt → BootSt) : (s.mapBoot f).spareRows = s.spareRows := rfl
@[simp] theorem State.mapBoot_bulk (s : State) (f : BootSt → BootSt) : (s.mapBoot f).bulk = s.bulk := rfl
@[simp] theorem State.mapBoot_solvRec (s : State) (f : BootSt → BootSt) : (s.mapBoot f).solvRec = s.solvRec := rfl
@[simp] theorem State.mapBoot_solv (s : State) (f : BootSt → BootSt) : (s.mapBoot f).solv = s.solv := rfl
@[simp] theorem State.mapBoot_dpd (s : State) (f : BootSt → BootSt) : (s.mapBoot f).dpd = s.dpd := rfl
@[simp] theorem State.mapBoot_sharedOrx (s : State) (f : BootSt → BootSt) : (s.mapBoot f).sharedOrx = s.sharedOrx := rfl
@[simp] theorem State.mapBoot_svcAt (s : State) (f : BootSt → BootSt) : (s.mapBoot f).svcAt = s.svcAt := rfl
@[simp] theorem State.mapBoot_calp (s : State) (f : BootSt → BootSt) : (s.mapBoot f).calp = s.calp := rfl
@[simp] theorem State.mapBoot_calRefs (s : State) (f : BootSt → BootSt) : (s.mapBoot f).calRefs = s.calRefs := rfl
@[simp] theorem State.mapBoot_calSets (s : State) (f : BootSt → BootSt) : (s.mapBoot f).calSets = s.calSets := rfl
@[simp] theorem State.mapBoot_grp (s : State) (f : BootSt → BootSt) : (s.mapBoot f).grp = s.grp := rfl
@[simp] theorem State.mapBoot_tie (s : State) (f : BootSt → BootSt) : (s.mapBoot f).tie = s.tie := rfl
@[simp] theorem State.mapBoot_hops (s : State) (f : BootSt → BootSt) : (s.mapBoot f).hops = s.hops := rfl
@[simp] theorem State.mapBoot_lox (s : State) (f : BootSt → BootSt) : (s.mapBoot f).lox = s.lox := rfl
@[simp] theorem State.mapBoot_ref (s : State) (f : BootSt → BootSt) : (s.mapBoot f).ref = s.ref := rfl
@[simp] theorem State.mapBoot_clkTo (s : State) (f : BootSt → BootSt) : (s.mapBoot f).clkTo = s.clkTo := rfl
@[simp] theorem State.mapBoot_fe (s : State) (f : BootSt → BootSt) : (s.mapBoot f).fe = s.fe := rfl
@[simp] theorem State.mapBoot_feLater (s : State) (f : BootSt → BootSt) : (s.mapBoot f).feLater = s.feLater := rfl
@[simp] theorem State.mapBoot_linesOn (s : State) (f : BootSt → BootSt) : (s.mapBoot f).linesOn = s.linesOn := rfl
@[simp] theorem State.mapBoot_sched (s : State) (f : BootSt → BootSt) : (s.mapBoot f).sched = s.sched := rfl
@[simp] theorem State.mapBoot_schedPend (s : State) (f : BootSt → BootSt) : (s.mapBoot f).schedPend = s.schedPend := rfl
@[simp] theorem State.mapBoot_scripts (s : State) (f : BootSt → BootSt) : (s.mapBoot f).scripts = s.scripts := rfl
@[simp] theorem State.mapBoot_eng (s : State) (f : BootSt → BootSt) : (s.mapBoot f).eng = s.eng := rfl
@[simp] theorem State.mapBoot_engMem (s : State) (f : BootSt → BootSt) : (s.mapBoot f).engMem = s.engMem := rfl
@[simp] theorem State.mapBoot_pool (s : State) (f : BootSt → BootSt) : (s.mapBoot f).pool = s.pool := rfl
@[simp] theorem State.mapBoot_prog (s : State) (f : BootSt → BootSt) : (s.mapBoot f).prog = s.prog := rfl
@[simp] theorem State.mapBoot_slots (s : State) (f : BootSt → BootSt) : (s.mapBoot f).slots = s.slots := rfl
@[simp] theorem State.mapBoot_engHalf (s : State) (f : BootSt → BootSt) : (s.mapBoot f).engHalf = s.engHalf := rfl
@[simp] theorem State.mapBoot_engShare (s : State) (f : BootSt → BootSt) : (s.mapBoot f).engShare = s.engShare := rfl
@[simp] theorem State.mapBoot_imgLoads (s : State) (f : BootSt → BootSt) : (s.mapBoot f).imgLoads = s.imgLoads := rfl
@[simp] theorem State.mapBoot_behind (s : State) (f : BootSt → BootSt) : (s.mapBoot f).behind = s.behind := rfl
@[simp] theorem State.mapBoot_pace (s : State) (f : BootSt → BootSt) : (s.mapBoot f).pace = s.pace := rfl
@[simp] theorem State.mapBoot_caps (s : State) (f : BootSt → BootSt) : (s.mapBoot f).caps = s.caps := rfl
@[simp] theorem State.mapBoot_capNum (s : State) (f : BootSt → BootSt) : (s.mapBoot f).capNum = s.capNum := rfl
@[simp] theorem State.mapBoot_bias (s : State) (f : BootSt → BootSt) : (s.mapBoot f).bias = s.bias := rfl
@[simp] theorem State.mapBoot_sens (s : State) (f : BootSt → BootSt) : (s.mapBoot f).sens = s.sens := rfl
@[simp] theorem State.mapBoot_mon (s : State) (f : BootSt → BootSt) : (s.mapBoot f).mon = s.mon := rfl
@[simp] theorem State.mapBoot_host (s : State) (f : BootSt → BootSt) : (s.mapBoot f).host = s.host := rfl
@[simp] theorem State.mapBoot_cmd (s : State) (f : BootSt → BootSt) : (s.mapBoot f).cmd = s.cmd := rfl
@[simp] theorem State.mapBoot_time (s : State) (f : BootSt → BootSt) : (s.mapBoot f).time = s.time := rfl
@[simp] theorem State.mapBoot_rel (s : State) (f : BootSt → BootSt) : (s.mapBoot f).rel = s.rel := rfl
@[simp] theorem State.mapBoot_d2d (s : State) (f : BootSt → BootSt) : (s.mapBoot f).d2d = s.d2d := rfl
@[simp] theorem State.mapBoot_mirrored (s : State) (f : BootSt → BootSt) : (s.mapBoot f).mirrored = s.mirrored := rfl
@[simp] theorem State.mapBoot_nv (s : State) (f : BootSt → BootSt) : (s.mapBoot f).nv = s.nv := rfl
@[simp] theorem State.mapBoot_tap (s : State) (f : BootSt → BootSt) : (s.mapBoot f).tap = s.tap := rfl
@[simp] theorem State.mapBoot_sent (s : State) (f : BootSt → BootSt) : (s.mapBoot f).sent = s.sent := rfl
@[simp] theorem State.mapBoot_fresh (s : State) (f : BootSt → BootSt) : (s.mapBoot f).fresh = s.fresh := rfl
@[simp] theorem State.mapBoot_pending (s : State) (f : BootSt → BootSt) : (s.mapBoot f).pending = s.pending := rfl

@[simp] theorem State.mapRel_regs (s : State) (f : RelSt → RelSt) : (s.mapRel f).regs = s.regs := rfl
@[simp] theorem State.mapRel_lanes (s : State) (f : RelSt → RelSt) : (s.mapRel f).lanes = s.lanes := rfl
@[simp] theorem State.mapRel_links (s : State) (f : RelSt → RelSt) : (s.mapRel f).links = s.links := rfl
@[simp] theorem State.mapRel_line (s : State) (f : RelSt → RelSt) : (s.mapRel f).line = s.line := rfl
@[simp] theorem State.mapRel_pkts (s : State) (f : RelSt → RelSt) : (s.mapRel f).pkts = s.pkts := rfl
@[simp] theorem State.mapRel_flows (s : State) (f : RelSt → RelSt) : (s.mapRel f).flows = s.flows := rfl
@[simp] theorem State.mapRel_flowFx (s : State) (f : RelSt → RelSt) : (s.mapRel f).flowFx = s.flowFx := rfl
@[simp] theorem State.mapRel_flowOld (s : State) (f : RelSt → RelSt) : (s.mapRel f).flowOld = s.flowOld := rfl
@[simp] theorem State.mapRel_ctrlSecs (s : State) (f : RelSt → RelSt) : (s.mapRel f).ctrlSecs = s.ctrlSecs := rfl
@[simp] theorem State.mapRel_dataSecs (s : State) (f : RelSt → RelSt) : (s.mapRel f).dataSecs = s.dataSecs := rfl
@[simp] theorem State.mapRel_soundSecs (s : State) (f : RelSt → RelSt) : (s.mapRel f).soundSecs = s.soundSecs := rfl
@[simp] theorem State.mapRel_dlCar (s : State) (f : RelSt → RelSt) : (s.mapRel f).dlCar = s.dlCar := rfl
@[simp] theorem State.mapRel_dlPend (s : State) (f : RelSt → RelSt) : (s.mapRel f).dlPend = s.dlPend := rfl
@[simp] theorem State.mapRel_dlSince (s : State) (f : RelSt → RelSt) : (s.mapRel f).dlSince = s.dlSince := rfl
@[simp] theorem State.mapRel_backoff (s : State) (f : RelSt → RelSt) : (s.mapRel f).backoff = s.backoff := rfl
@[simp] theorem State.mapRel_backAt (s : State) (f : RelSt → RelSt) : (s.mapRel f).backAt = s.backAt := rfl
@[simp] theorem State.mapRel_dlOcc (s : State) (f : RelSt → RelSt) : (s.mapRel f).dlOcc = s.dlOcc := rfl
@[simp] theorem State.mapRel_txp (s : State) (f : RelSt → RelSt) : (s.mapRel f).txp = s.txp := rfl
@[simp] theorem State.mapRel_dlSat (s : State) (f : RelSt → RelSt) : (s.mapRel f).dlSat = s.dlSat := rfl
@[simp] theorem State.mapRel_ulCar (s : State) (f : RelSt → RelSt) : (s.mapRel f).ulCar = s.ulCar := rfl
@[simp] theorem State.mapRel_ulPend (s : State) (f : RelSt → RelSt) : (s.mapRel f).ulPend = s.ulPend := rfl
@[simp] theorem State.mapRel_ulWas (s : State) (f : RelSt → RelSt) : (s.mapRel f).ulWas = s.ulWas := rfl
@[simp] theorem State.mapRel_conv (s : State) (f : RelSt → RelSt) : (s.mapRel f).conv = s.conv := rfl
@[simp] theorem State.mapRel_rxp (s : State) (f : RelSt → RelSt) : (s.mapRel f).rxp = s.rxp := rfl
@[simp] theorem State.mapRel_filt (s : State) (f : RelSt → RelSt) : (s.mapRel f).filt = s.filt := rfl
@[simp] theorem State.mapRel_parts (s : State) (f : RelSt → RelSt) : (s.mapRel f).parts = s.parts := rfl
@[simp] theorem State.mapRel_sums (s : State) (f : RelSt → RelSt) : (s.mapRel f).sums = s.sums := rfl
@[simp] theorem State.mapRel_ulSat (s : State) (f : RelSt → RelSt) : (s.mapRel f).ulSat = s.ulSat := rfl
@[simp] theorem State.mapRel_beams (s : State) (f : RelSt → RelSt) : (s.mapRel f).beams = s.beams := rfl
@[simp] theorem State.mapRel_rows (s : State) (f : RelSt → RelSt) : (s.mapRel f).rows = s.rows := rfl
@[simp] theorem State.mapRel_stage (s : State) (f : RelSt → RelSt) : (s.mapRel f).stage = s.stage := rfl
@[simp] theorem State.mapRel_spareRows (s : State) (f : RelSt → RelSt) : (s.mapRel f).spareRows = s.spareRows := rfl
@[simp] theorem State.mapRel_bulk (s : State) (f : RelSt → RelSt) : (s.mapRel f).bulk = s.bulk := rfl
@[simp] theorem State.mapRel_solvRec (s : State) (f : RelSt → RelSt) : (s.mapRel f).solvRec = s.solvRec := rfl
@[simp] theorem State.mapRel_solv (s : State) (f : RelSt → RelSt) : (s.mapRel f).solv = s.solv := rfl
@[simp] theorem State.mapRel_dpd (s : State) (f : RelSt → RelSt) : (s.mapRel f).dpd = s.dpd := rfl
@[simp] theorem State.mapRel_sharedOrx (s : State) (f : RelSt → RelSt) : (s.mapRel f).sharedOrx = s.sharedOrx := rfl
@[simp] theorem State.mapRel_svcAt (s : State) (f : RelSt → RelSt) : (s.mapRel f).svcAt = s.svcAt := rfl
@[simp] theorem State.mapRel_calp (s : State) (f : RelSt → RelSt) : (s.mapRel f).calp = s.calp := rfl
@[simp] theorem State.mapRel_calRefs (s : State) (f : RelSt → RelSt) : (s.mapRel f).calRefs = s.calRefs := rfl
@[simp] theorem State.mapRel_calSets (s : State) (f : RelSt → RelSt) : (s.mapRel f).calSets = s.calSets := rfl
@[simp] theorem State.mapRel_grp (s : State) (f : RelSt → RelSt) : (s.mapRel f).grp = s.grp := rfl
@[simp] theorem State.mapRel_tie (s : State) (f : RelSt → RelSt) : (s.mapRel f).tie = s.tie := rfl
@[simp] theorem State.mapRel_hops (s : State) (f : RelSt → RelSt) : (s.mapRel f).hops = s.hops := rfl
@[simp] theorem State.mapRel_lox (s : State) (f : RelSt → RelSt) : (s.mapRel f).lox = s.lox := rfl
@[simp] theorem State.mapRel_ref (s : State) (f : RelSt → RelSt) : (s.mapRel f).ref = s.ref := rfl
@[simp] theorem State.mapRel_clkTo (s : State) (f : RelSt → RelSt) : (s.mapRel f).clkTo = s.clkTo := rfl
@[simp] theorem State.mapRel_fe (s : State) (f : RelSt → RelSt) : (s.mapRel f).fe = s.fe := rfl
@[simp] theorem State.mapRel_feLater (s : State) (f : RelSt → RelSt) : (s.mapRel f).feLater = s.feLater := rfl
@[simp] theorem State.mapRel_linesOn (s : State) (f : RelSt → RelSt) : (s.mapRel f).linesOn = s.linesOn := rfl
@[simp] theorem State.mapRel_sched (s : State) (f : RelSt → RelSt) : (s.mapRel f).sched = s.sched := rfl
@[simp] theorem State.mapRel_schedPend (s : State) (f : RelSt → RelSt) : (s.mapRel f).schedPend = s.schedPend := rfl
@[simp] theorem State.mapRel_scripts (s : State) (f : RelSt → RelSt) : (s.mapRel f).scripts = s.scripts := rfl
@[simp] theorem State.mapRel_eng (s : State) (f : RelSt → RelSt) : (s.mapRel f).eng = s.eng := rfl
@[simp] theorem State.mapRel_engMem (s : State) (f : RelSt → RelSt) : (s.mapRel f).engMem = s.engMem := rfl
@[simp] theorem State.mapRel_pool (s : State) (f : RelSt → RelSt) : (s.mapRel f).pool = s.pool := rfl
@[simp] theorem State.mapRel_prog (s : State) (f : RelSt → RelSt) : (s.mapRel f).prog = s.prog := rfl
@[simp] theorem State.mapRel_slots (s : State) (f : RelSt → RelSt) : (s.mapRel f).slots = s.slots := rfl
@[simp] theorem State.mapRel_engHalf (s : State) (f : RelSt → RelSt) : (s.mapRel f).engHalf = s.engHalf := rfl
@[simp] theorem State.mapRel_engShare (s : State) (f : RelSt → RelSt) : (s.mapRel f).engShare = s.engShare := rfl
@[simp] theorem State.mapRel_imgLoads (s : State) (f : RelSt → RelSt) : (s.mapRel f).imgLoads = s.imgLoads := rfl
@[simp] theorem State.mapRel_behind (s : State) (f : RelSt → RelSt) : (s.mapRel f).behind = s.behind := rfl
@[simp] theorem State.mapRel_pace (s : State) (f : RelSt → RelSt) : (s.mapRel f).pace = s.pace := rfl
@[simp] theorem State.mapRel_caps (s : State) (f : RelSt → RelSt) : (s.mapRel f).caps = s.caps := rfl
@[simp] theorem State.mapRel_capNum (s : State) (f : RelSt → RelSt) : (s.mapRel f).capNum = s.capNum := rfl
@[simp] theorem State.mapRel_bias (s : State) (f : RelSt → RelSt) : (s.mapRel f).bias = s.bias := rfl
@[simp] theorem State.mapRel_sens (s : State) (f : RelSt → RelSt) : (s.mapRel f).sens = s.sens := rfl
@[simp] theorem State.mapRel_mon (s : State) (f : RelSt → RelSt) : (s.mapRel f).mon = s.mon := rfl
@[simp] theorem State.mapRel_host (s : State) (f : RelSt → RelSt) : (s.mapRel f).host = s.host := rfl
@[simp] theorem State.mapRel_cmd (s : State) (f : RelSt → RelSt) : (s.mapRel f).cmd = s.cmd := rfl
@[simp] theorem State.mapRel_time (s : State) (f : RelSt → RelSt) : (s.mapRel f).time = s.time := rfl
@[simp] theorem State.mapRel_d2d (s : State) (f : RelSt → RelSt) : (s.mapRel f).d2d = s.d2d := rfl
@[simp] theorem State.mapRel_mirrored (s : State) (f : RelSt → RelSt) : (s.mapRel f).mirrored = s.mirrored := rfl
@[simp] theorem State.mapRel_nv (s : State) (f : RelSt → RelSt) : (s.mapRel f).nv = s.nv := rfl
@[simp] theorem State.mapRel_boot (s : State) (f : RelSt → RelSt) : (s.mapRel f).boot = s.boot := rfl
@[simp] theorem State.mapRel_tap (s : State) (f : RelSt → RelSt) : (s.mapRel f).tap = s.tap := rfl
@[simp] theorem State.mapRel_sent (s : State) (f : RelSt → RelSt) : (s.mapRel f).sent = s.sent := rfl
@[simp] theorem State.mapRel_fresh (s : State) (f : RelSt → RelSt) : (s.mapRel f).fresh = s.fresh := rfl
@[simp] theorem State.mapRel_pending (s : State) (f : RelSt → RelSt) : (s.mapRel f).pending = s.pending := rfl

@[simp] theorem State.mapNv_regs (s : State) (f : NvSt → NvSt) : (s.mapNv f).regs = s.regs := rfl
@[simp] theorem State.mapNv_lanes (s : State) (f : NvSt → NvSt) : (s.mapNv f).lanes = s.lanes := rfl
@[simp] theorem State.mapNv_links (s : State) (f : NvSt → NvSt) : (s.mapNv f).links = s.links := rfl
@[simp] theorem State.mapNv_line (s : State) (f : NvSt → NvSt) : (s.mapNv f).line = s.line := rfl
@[simp] theorem State.mapNv_pkts (s : State) (f : NvSt → NvSt) : (s.mapNv f).pkts = s.pkts := rfl
@[simp] theorem State.mapNv_flows (s : State) (f : NvSt → NvSt) : (s.mapNv f).flows = s.flows := rfl
@[simp] theorem State.mapNv_flowFx (s : State) (f : NvSt → NvSt) : (s.mapNv f).flowFx = s.flowFx := rfl
@[simp] theorem State.mapNv_flowOld (s : State) (f : NvSt → NvSt) : (s.mapNv f).flowOld = s.flowOld := rfl
@[simp] theorem State.mapNv_ctrlSecs (s : State) (f : NvSt → NvSt) : (s.mapNv f).ctrlSecs = s.ctrlSecs := rfl
@[simp] theorem State.mapNv_dataSecs (s : State) (f : NvSt → NvSt) : (s.mapNv f).dataSecs = s.dataSecs := rfl
@[simp] theorem State.mapNv_soundSecs (s : State) (f : NvSt → NvSt) : (s.mapNv f).soundSecs = s.soundSecs := rfl
@[simp] theorem State.mapNv_dlCar (s : State) (f : NvSt → NvSt) : (s.mapNv f).dlCar = s.dlCar := rfl
@[simp] theorem State.mapNv_dlPend (s : State) (f : NvSt → NvSt) : (s.mapNv f).dlPend = s.dlPend := rfl
@[simp] theorem State.mapNv_dlSince (s : State) (f : NvSt → NvSt) : (s.mapNv f).dlSince = s.dlSince := rfl
@[simp] theorem State.mapNv_backoff (s : State) (f : NvSt → NvSt) : (s.mapNv f).backoff = s.backoff := rfl
@[simp] theorem State.mapNv_backAt (s : State) (f : NvSt → NvSt) : (s.mapNv f).backAt = s.backAt := rfl
@[simp] theorem State.mapNv_dlOcc (s : State) (f : NvSt → NvSt) : (s.mapNv f).dlOcc = s.dlOcc := rfl
@[simp] theorem State.mapNv_txp (s : State) (f : NvSt → NvSt) : (s.mapNv f).txp = s.txp := rfl
@[simp] theorem State.mapNv_dlSat (s : State) (f : NvSt → NvSt) : (s.mapNv f).dlSat = s.dlSat := rfl
@[simp] theorem State.mapNv_ulCar (s : State) (f : NvSt → NvSt) : (s.mapNv f).ulCar = s.ulCar := rfl
@[simp] theorem State.mapNv_ulPend (s : State) (f : NvSt → NvSt) : (s.mapNv f).ulPend = s.ulPend := rfl
@[simp] theorem State.mapNv_ulWas (s : State) (f : NvSt → NvSt) : (s.mapNv f).ulWas = s.ulWas := rfl
@[simp] theorem State.mapNv_conv (s : State) (f : NvSt → NvSt) : (s.mapNv f).conv = s.conv := rfl
@[simp] theorem State.mapNv_rxp (s : State) (f : NvSt → NvSt) : (s.mapNv f).rxp = s.rxp := rfl
@[simp] theorem State.mapNv_filt (s : State) (f : NvSt → NvSt) : (s.mapNv f).filt = s.filt := rfl
@[simp] theorem State.mapNv_parts (s : State) (f : NvSt → NvSt) : (s.mapNv f).parts = s.parts := rfl
@[simp] theorem State.mapNv_sums (s : State) (f : NvSt → NvSt) : (s.mapNv f).sums = s.sums := rfl
@[simp] theorem State.mapNv_ulSat (s : State) (f : NvSt → NvSt) : (s.mapNv f).ulSat = s.ulSat := rfl
@[simp] theorem State.mapNv_beams (s : State) (f : NvSt → NvSt) : (s.mapNv f).beams = s.beams := rfl
@[simp] theorem State.mapNv_rows (s : State) (f : NvSt → NvSt) : (s.mapNv f).rows = s.rows := rfl
@[simp] theorem State.mapNv_stage (s : State) (f : NvSt → NvSt) : (s.mapNv f).stage = s.stage := rfl
@[simp] theorem State.mapNv_spareRows (s : State) (f : NvSt → NvSt) : (s.mapNv f).spareRows = s.spareRows := rfl
@[simp] theorem State.mapNv_bulk (s : State) (f : NvSt → NvSt) : (s.mapNv f).bulk = s.bulk := rfl
@[simp] theorem State.mapNv_solvRec (s : State) (f : NvSt → NvSt) : (s.mapNv f).solvRec = s.solvRec := rfl
@[simp] theorem State.mapNv_solv (s : State) (f : NvSt → NvSt) : (s.mapNv f).solv = s.solv := rfl
@[simp] theorem State.mapNv_dpd (s : State) (f : NvSt → NvSt) : (s.mapNv f).dpd = s.dpd := rfl
@[simp] theorem State.mapNv_sharedOrx (s : State) (f : NvSt → NvSt) : (s.mapNv f).sharedOrx = s.sharedOrx := rfl
@[simp] theorem State.mapNv_svcAt (s : State) (f : NvSt → NvSt) : (s.mapNv f).svcAt = s.svcAt := rfl
@[simp] theorem State.mapNv_calp (s : State) (f : NvSt → NvSt) : (s.mapNv f).calp = s.calp := rfl
@[simp] theorem State.mapNv_calRefs (s : State) (f : NvSt → NvSt) : (s.mapNv f).calRefs = s.calRefs := rfl
@[simp] theorem State.mapNv_calSets (s : State) (f : NvSt → NvSt) : (s.mapNv f).calSets = s.calSets := rfl
@[simp] theorem State.mapNv_grp (s : State) (f : NvSt → NvSt) : (s.mapNv f).grp = s.grp := rfl
@[simp] theorem State.mapNv_tie (s : State) (f : NvSt → NvSt) : (s.mapNv f).tie = s.tie := rfl
@[simp] theorem State.mapNv_hops (s : State) (f : NvSt → NvSt) : (s.mapNv f).hops = s.hops := rfl
@[simp] theorem State.mapNv_lox (s : State) (f : NvSt → NvSt) : (s.mapNv f).lox = s.lox := rfl
@[simp] theorem State.mapNv_ref (s : State) (f : NvSt → NvSt) : (s.mapNv f).ref = s.ref := rfl
@[simp] theorem State.mapNv_clkTo (s : State) (f : NvSt → NvSt) : (s.mapNv f).clkTo = s.clkTo := rfl
@[simp] theorem State.mapNv_fe (s : State) (f : NvSt → NvSt) : (s.mapNv f).fe = s.fe := rfl
@[simp] theorem State.mapNv_feLater (s : State) (f : NvSt → NvSt) : (s.mapNv f).feLater = s.feLater := rfl
@[simp] theorem State.mapNv_linesOn (s : State) (f : NvSt → NvSt) : (s.mapNv f).linesOn = s.linesOn := rfl
@[simp] theorem State.mapNv_sched (s : State) (f : NvSt → NvSt) : (s.mapNv f).sched = s.sched := rfl
@[simp] theorem State.mapNv_schedPend (s : State) (f : NvSt → NvSt) : (s.mapNv f).schedPend = s.schedPend := rfl
@[simp] theorem State.mapNv_scripts (s : State) (f : NvSt → NvSt) : (s.mapNv f).scripts = s.scripts := rfl
@[simp] theorem State.mapNv_eng (s : State) (f : NvSt → NvSt) : (s.mapNv f).eng = s.eng := rfl
@[simp] theorem State.mapNv_engMem (s : State) (f : NvSt → NvSt) : (s.mapNv f).engMem = s.engMem := rfl
@[simp] theorem State.mapNv_pool (s : State) (f : NvSt → NvSt) : (s.mapNv f).pool = s.pool := rfl
@[simp] theorem State.mapNv_prog (s : State) (f : NvSt → NvSt) : (s.mapNv f).prog = s.prog := rfl
@[simp] theorem State.mapNv_slots (s : State) (f : NvSt → NvSt) : (s.mapNv f).slots = s.slots := rfl
@[simp] theorem State.mapNv_engHalf (s : State) (f : NvSt → NvSt) : (s.mapNv f).engHalf = s.engHalf := rfl
@[simp] theorem State.mapNv_engShare (s : State) (f : NvSt → NvSt) : (s.mapNv f).engShare = s.engShare := rfl
@[simp] theorem State.mapNv_imgLoads (s : State) (f : NvSt → NvSt) : (s.mapNv f).imgLoads = s.imgLoads := rfl
@[simp] theorem State.mapNv_behind (s : State) (f : NvSt → NvSt) : (s.mapNv f).behind = s.behind := rfl
@[simp] theorem State.mapNv_pace (s : State) (f : NvSt → NvSt) : (s.mapNv f).pace = s.pace := rfl
@[simp] theorem State.mapNv_caps (s : State) (f : NvSt → NvSt) : (s.mapNv f).caps = s.caps := rfl
@[simp] theorem State.mapNv_capNum (s : State) (f : NvSt → NvSt) : (s.mapNv f).capNum = s.capNum := rfl
@[simp] theorem State.mapNv_bias (s : State) (f : NvSt → NvSt) : (s.mapNv f).bias = s.bias := rfl
@[simp] theorem State.mapNv_sens (s : State) (f : NvSt → NvSt) : (s.mapNv f).sens = s.sens := rfl
@[simp] theorem State.mapNv_mon (s : State) (f : NvSt → NvSt) : (s.mapNv f).mon = s.mon := rfl
@[simp] theorem State.mapNv_host (s : State) (f : NvSt → NvSt) : (s.mapNv f).host = s.host := rfl
@[simp] theorem State.mapNv_cmd (s : State) (f : NvSt → NvSt) : (s.mapNv f).cmd = s.cmd := rfl
@[simp] theorem State.mapNv_time (s : State) (f : NvSt → NvSt) : (s.mapNv f).time = s.time := rfl
@[simp] theorem State.mapNv_rel (s : State) (f : NvSt → NvSt) : (s.mapNv f).rel = s.rel := rfl
@[simp] theorem State.mapNv_d2d (s : State) (f : NvSt → NvSt) : (s.mapNv f).d2d = s.d2d := rfl
@[simp] theorem State.mapNv_mirrored (s : State) (f : NvSt → NvSt) : (s.mapNv f).mirrored = s.mirrored := rfl
@[simp] theorem State.mapNv_boot (s : State) (f : NvSt → NvSt) : (s.mapNv f).boot = s.boot := rfl
@[simp] theorem State.mapNv_tap (s : State) (f : NvSt → NvSt) : (s.mapNv f).tap = s.tap := rfl
@[simp] theorem State.mapNv_sent (s : State) (f : NvSt → NvSt) : (s.mapNv f).sent = s.sent := rfl
@[simp] theorem State.mapNv_fresh (s : State) (f : NvSt → NvSt) : (s.mapNv f).fresh = s.fresh := rfl
@[simp] theorem State.mapNv_pending (s : State) (f : NvSt → NvSt) : (s.mapNv f).pending = s.pending := rfl

@[simp] theorem State.mapLine_regs (s : State) (n : Nat) (f : LineSt → LineSt) : (s.mapLine n f).regs = s.regs := rfl
@[simp] theorem State.mapLine_lanes (s : State) (n : Nat) (f : LineSt → LineSt) : (s.mapLine n f).lanes = s.lanes := rfl
@[simp] theorem State.mapLine_links (s : State) (n : Nat) (f : LineSt → LineSt) : (s.mapLine n f).links = s.links := rfl
@[simp] theorem State.mapLine_pkts (s : State) (n : Nat) (f : LineSt → LineSt) : (s.mapLine n f).pkts = s.pkts := rfl
@[simp] theorem State.mapLine_flows (s : State) (n : Nat) (f : LineSt → LineSt) : (s.mapLine n f).flows = s.flows := rfl
@[simp] theorem State.mapLine_flowFx (s : State) (n : Nat) (f : LineSt → LineSt) : (s.mapLine n f).flowFx = s.flowFx := rfl
@[simp] theorem State.mapLine_flowOld (s : State) (n : Nat) (f : LineSt → LineSt) : (s.mapLine n f).flowOld = s.flowOld := rfl
@[simp] theorem State.mapLine_ctrlSecs (s : State) (n : Nat) (f : LineSt → LineSt) : (s.mapLine n f).ctrlSecs = s.ctrlSecs := rfl
@[simp] theorem State.mapLine_dataSecs (s : State) (n : Nat) (f : LineSt → LineSt) : (s.mapLine n f).dataSecs = s.dataSecs := rfl
@[simp] theorem State.mapLine_soundSecs (s : State) (n : Nat) (f : LineSt → LineSt) : (s.mapLine n f).soundSecs = s.soundSecs := rfl
@[simp] theorem State.mapLine_dlCar (s : State) (n : Nat) (f : LineSt → LineSt) : (s.mapLine n f).dlCar = s.dlCar := rfl
@[simp] theorem State.mapLine_dlPend (s : State) (n : Nat) (f : LineSt → LineSt) : (s.mapLine n f).dlPend = s.dlPend := rfl
@[simp] theorem State.mapLine_dlSince (s : State) (n : Nat) (f : LineSt → LineSt) : (s.mapLine n f).dlSince = s.dlSince := rfl
@[simp] theorem State.mapLine_backoff (s : State) (n : Nat) (f : LineSt → LineSt) : (s.mapLine n f).backoff = s.backoff := rfl
@[simp] theorem State.mapLine_backAt (s : State) (n : Nat) (f : LineSt → LineSt) : (s.mapLine n f).backAt = s.backAt := rfl
@[simp] theorem State.mapLine_dlOcc (s : State) (n : Nat) (f : LineSt → LineSt) : (s.mapLine n f).dlOcc = s.dlOcc := rfl
@[simp] theorem State.mapLine_txp (s : State) (n : Nat) (f : LineSt → LineSt) : (s.mapLine n f).txp = s.txp := rfl
@[simp] theorem State.mapLine_dlSat (s : State) (n : Nat) (f : LineSt → LineSt) : (s.mapLine n f).dlSat = s.dlSat := rfl
@[simp] theorem State.mapLine_ulCar (s : State) (n : Nat) (f : LineSt → LineSt) : (s.mapLine n f).ulCar = s.ulCar := rfl
@[simp] theorem State.mapLine_ulPend (s : State) (n : Nat) (f : LineSt → LineSt) : (s.mapLine n f).ulPend = s.ulPend := rfl
@[simp] theorem State.mapLine_ulWas (s : State) (n : Nat) (f : LineSt → LineSt) : (s.mapLine n f).ulWas = s.ulWas := rfl
@[simp] theorem State.mapLine_conv (s : State) (n : Nat) (f : LineSt → LineSt) : (s.mapLine n f).conv = s.conv := rfl
@[simp] theorem State.mapLine_rxp (s : State) (n : Nat) (f : LineSt → LineSt) : (s.mapLine n f).rxp = s.rxp := rfl
@[simp] theorem State.mapLine_filt (s : State) (n : Nat) (f : LineSt → LineSt) : (s.mapLine n f).filt = s.filt := rfl
@[simp] theorem State.mapLine_parts (s : State) (n : Nat) (f : LineSt → LineSt) : (s.mapLine n f).parts = s.parts := rfl
@[simp] theorem State.mapLine_sums (s : State) (n : Nat) (f : LineSt → LineSt) : (s.mapLine n f).sums = s.sums := rfl
@[simp] theorem State.mapLine_ulSat (s : State) (n : Nat) (f : LineSt → LineSt) : (s.mapLine n f).ulSat = s.ulSat := rfl
@[simp] theorem State.mapLine_beams (s : State) (n : Nat) (f : LineSt → LineSt) : (s.mapLine n f).beams = s.beams := rfl
@[simp] theorem State.mapLine_rows (s : State) (n : Nat) (f : LineSt → LineSt) : (s.mapLine n f).rows = s.rows := rfl
@[simp] theorem State.mapLine_stage (s : State) (n : Nat) (f : LineSt → LineSt) : (s.mapLine n f).stage = s.stage := rfl
@[simp] theorem State.mapLine_spareRows (s : State) (n : Nat) (f : LineSt → LineSt) : (s.mapLine n f).spareRows = s.spareRows := rfl
@[simp] theorem State.mapLine_bulk (s : State) (n : Nat) (f : LineSt → LineSt) : (s.mapLine n f).bulk = s.bulk := rfl
@[simp] theorem State.mapLine_solvRec (s : State) (n : Nat) (f : LineSt → LineSt) : (s.mapLine n f).solvRec = s.solvRec := rfl
@[simp] theorem State.mapLine_solv (s : State) (n : Nat) (f : LineSt → LineSt) : (s.mapLine n f).solv = s.solv := rfl
@[simp] theorem State.mapLine_dpd (s : State) (n : Nat) (f : LineSt → LineSt) : (s.mapLine n f).dpd = s.dpd := rfl
@[simp] theorem State.mapLine_sharedOrx (s : State) (n : Nat) (f : LineSt → LineSt) : (s.mapLine n f).sharedOrx = s.sharedOrx := rfl
@[simp] theorem State.mapLine_svcAt (s : State) (n : Nat) (f : LineSt → LineSt) : (s.mapLine n f).svcAt = s.svcAt := rfl
@[simp] theorem State.mapLine_calp (s : State) (n : Nat) (f : LineSt → LineSt) : (s.mapLine n f).calp = s.calp := rfl
@[simp] theorem State.mapLine_calRefs (s : State) (n : Nat) (f : LineSt → LineSt) : (s.mapLine n f).calRefs = s.calRefs := rfl
@[simp] theorem State.mapLine_calSets (s : State) (n : Nat) (f : LineSt → LineSt) : (s.mapLine n f).calSets = s.calSets := rfl
@[simp] theorem State.mapLine_grp (s : State) (n : Nat) (f : LineSt → LineSt) : (s.mapLine n f).grp = s.grp := rfl
@[simp] theorem State.mapLine_tie (s : State) (n : Nat) (f : LineSt → LineSt) : (s.mapLine n f).tie = s.tie := rfl
@[simp] theorem State.mapLine_hops (s : State) (n : Nat) (f : LineSt → LineSt) : (s.mapLine n f).hops = s.hops := rfl
@[simp] theorem State.mapLine_lox (s : State) (n : Nat) (f : LineSt → LineSt) : (s.mapLine n f).lox = s.lox := rfl
@[simp] theorem State.mapLine_ref (s : State) (n : Nat) (f : LineSt → LineSt) : (s.mapLine n f).ref = s.ref := rfl
@[simp] theorem State.mapLine_clkTo (s : State) (n : Nat) (f : LineSt → LineSt) : (s.mapLine n f).clkTo = s.clkTo := rfl
@[simp] theorem State.mapLine_fe (s : State) (n : Nat) (f : LineSt → LineSt) : (s.mapLine n f).fe = s.fe := rfl
@[simp] theorem State.mapLine_feLater (s : State) (n : Nat) (f : LineSt → LineSt) : (s.mapLine n f).feLater = s.feLater := rfl
@[simp] theorem State.mapLine_linesOn (s : State) (n : Nat) (f : LineSt → LineSt) : (s.mapLine n f).linesOn = s.linesOn := rfl
@[simp] theorem State.mapLine_sched (s : State) (n : Nat) (f : LineSt → LineSt) : (s.mapLine n f).sched = s.sched := rfl
@[simp] theorem State.mapLine_schedPend (s : State) (n : Nat) (f : LineSt → LineSt) : (s.mapLine n f).schedPend = s.schedPend := rfl
@[simp] theorem State.mapLine_scripts (s : State) (n : Nat) (f : LineSt → LineSt) : (s.mapLine n f).scripts = s.scripts := rfl
@[simp] theorem State.mapLine_eng (s : State) (n : Nat) (f : LineSt → LineSt) : (s.mapLine n f).eng = s.eng := rfl
@[simp] theorem State.mapLine_engMem (s : State) (n : Nat) (f : LineSt → LineSt) : (s.mapLine n f).engMem = s.engMem := rfl
@[simp] theorem State.mapLine_pool (s : State) (n : Nat) (f : LineSt → LineSt) : (s.mapLine n f).pool = s.pool := rfl
@[simp] theorem State.mapLine_prog (s : State) (n : Nat) (f : LineSt → LineSt) : (s.mapLine n f).prog = s.prog := rfl
@[simp] theorem State.mapLine_slots (s : State) (n : Nat) (f : LineSt → LineSt) : (s.mapLine n f).slots = s.slots := rfl
@[simp] theorem State.mapLine_engHalf (s : State) (n : Nat) (f : LineSt → LineSt) : (s.mapLine n f).engHalf = s.engHalf := rfl
@[simp] theorem State.mapLine_engShare (s : State) (n : Nat) (f : LineSt → LineSt) : (s.mapLine n f).engShare = s.engShare := rfl
@[simp] theorem State.mapLine_imgLoads (s : State) (n : Nat) (f : LineSt → LineSt) : (s.mapLine n f).imgLoads = s.imgLoads := rfl
@[simp] theorem State.mapLine_behind (s : State) (n : Nat) (f : LineSt → LineSt) : (s.mapLine n f).behind = s.behind := rfl
@[simp] theorem State.mapLine_pace (s : State) (n : Nat) (f : LineSt → LineSt) : (s.mapLine n f).pace = s.pace := rfl
@[simp] theorem State.mapLine_caps (s : State) (n : Nat) (f : LineSt → LineSt) : (s.mapLine n f).caps = s.caps := rfl
@[simp] theorem State.mapLine_capNum (s : State) (n : Nat) (f : LineSt → LineSt) : (s.mapLine n f).capNum = s.capNum := rfl
@[simp] theorem State.mapLine_bias (s : State) (n : Nat) (f : LineSt → LineSt) : (s.mapLine n f).bias = s.bias := rfl
@[simp] theorem State.mapLine_sens (s : State) (n : Nat) (f : LineSt → LineSt) : (s.mapLine n f).sens = s.sens := rfl
@[simp] theorem State.mapLine_mon (s : State) (n : Nat) (f : LineSt → LineSt) : (s.mapLine n f).mon = s.mon := rfl
@[simp] theorem State.mapLine_host (s : State) (n : Nat) (f : LineSt → LineSt) : (s.mapLine n f).host = s.host := rfl
@[simp] theorem State.mapLine_cmd (s : State) (n : Nat) (f : LineSt → LineSt) : (s.mapLine n f).cmd = s.cmd := rfl
@[simp] theorem State.mapLine_time (s : State) (n : Nat) (f : LineSt → LineSt) : (s.mapLine n f).time = s.time := rfl
@[simp] theorem State.mapLine_rel (s : State) (n : Nat) (f : LineSt → LineSt) : (s.mapLine n f).rel = s.rel := rfl
@[simp] theorem State.mapLine_d2d (s : State) (n : Nat) (f : LineSt → LineSt) : (s.mapLine n f).d2d = s.d2d := rfl
@[simp] theorem State.mapLine_mirrored (s : State) (n : Nat) (f : LineSt → LineSt) : (s.mapLine n f).mirrored = s.mirrored := rfl
@[simp] theorem State.mapLine_nv (s : State) (n : Nat) (f : LineSt → LineSt) : (s.mapLine n f).nv = s.nv := rfl
@[simp] theorem State.mapLine_boot (s : State) (n : Nat) (f : LineSt → LineSt) : (s.mapLine n f).boot = s.boot := rfl
@[simp] theorem State.mapLine_tap (s : State) (n : Nat) (f : LineSt → LineSt) : (s.mapLine n f).tap = s.tap := rfl
@[simp] theorem State.mapLine_sent (s : State) (n : Nat) (f : LineSt → LineSt) : (s.mapLine n f).sent = s.sent := rfl
@[simp] theorem State.mapLine_fresh (s : State) (n : Nat) (f : LineSt → LineSt) : (s.mapLine n f).fresh = s.fresh := rfl
@[simp] theorem State.mapLine_pending (s : State) (n : Nat) (f : LineSt → LineSt) : (s.mapLine n f).pending = s.pending := rfl

@[simp] theorem State.mapD2d_regs (s : State) (h : Nat) (f : D2dDir → D2dDir) : (s.mapD2d h f).regs = s.regs := rfl
@[simp] theorem State.mapD2d_lanes (s : State) (h : Nat) (f : D2dDir → D2dDir) : (s.mapD2d h f).lanes = s.lanes := rfl
@[simp] theorem State.mapD2d_links (s : State) (h : Nat) (f : D2dDir → D2dDir) : (s.mapD2d h f).links = s.links := rfl
@[simp] theorem State.mapD2d_line (s : State) (h : Nat) (f : D2dDir → D2dDir) : (s.mapD2d h f).line = s.line := rfl
@[simp] theorem State.mapD2d_pkts (s : State) (h : Nat) (f : D2dDir → D2dDir) : (s.mapD2d h f).pkts = s.pkts := rfl
@[simp] theorem State.mapD2d_flows (s : State) (h : Nat) (f : D2dDir → D2dDir) : (s.mapD2d h f).flows = s.flows := rfl
@[simp] theorem State.mapD2d_flowFx (s : State) (h : Nat) (f : D2dDir → D2dDir) : (s.mapD2d h f).flowFx = s.flowFx := rfl
@[simp] theorem State.mapD2d_flowOld (s : State) (h : Nat) (f : D2dDir → D2dDir) : (s.mapD2d h f).flowOld = s.flowOld := rfl
@[simp] theorem State.mapD2d_ctrlSecs (s : State) (h : Nat) (f : D2dDir → D2dDir) : (s.mapD2d h f).ctrlSecs = s.ctrlSecs := rfl
@[simp] theorem State.mapD2d_dataSecs (s : State) (h : Nat) (f : D2dDir → D2dDir) : (s.mapD2d h f).dataSecs = s.dataSecs := rfl
@[simp] theorem State.mapD2d_soundSecs (s : State) (h : Nat) (f : D2dDir → D2dDir) : (s.mapD2d h f).soundSecs = s.soundSecs := rfl
@[simp] theorem State.mapD2d_dlCar (s : State) (h : Nat) (f : D2dDir → D2dDir) : (s.mapD2d h f).dlCar = s.dlCar := rfl
@[simp] theorem State.mapD2d_dlPend (s : State) (h : Nat) (f : D2dDir → D2dDir) : (s.mapD2d h f).dlPend = s.dlPend := rfl
@[simp] theorem State.mapD2d_dlSince (s : State) (h : Nat) (f : D2dDir → D2dDir) : (s.mapD2d h f).dlSince = s.dlSince := rfl
@[simp] theorem State.mapD2d_backoff (s : State) (h : Nat) (f : D2dDir → D2dDir) : (s.mapD2d h f).backoff = s.backoff := rfl
@[simp] theorem State.mapD2d_backAt (s : State) (h : Nat) (f : D2dDir → D2dDir) : (s.mapD2d h f).backAt = s.backAt := rfl
@[simp] theorem State.mapD2d_dlOcc (s : State) (h : Nat) (f : D2dDir → D2dDir) : (s.mapD2d h f).dlOcc = s.dlOcc := rfl
@[simp] theorem State.mapD2d_txp (s : State) (h : Nat) (f : D2dDir → D2dDir) : (s.mapD2d h f).txp = s.txp := rfl
@[simp] theorem State.mapD2d_dlSat (s : State) (h : Nat) (f : D2dDir → D2dDir) : (s.mapD2d h f).dlSat = s.dlSat := rfl
@[simp] theorem State.mapD2d_ulCar (s : State) (h : Nat) (f : D2dDir → D2dDir) : (s.mapD2d h f).ulCar = s.ulCar := rfl
@[simp] theorem State.mapD2d_ulPend (s : State) (h : Nat) (f : D2dDir → D2dDir) : (s.mapD2d h f).ulPend = s.ulPend := rfl
@[simp] theorem State.mapD2d_ulWas (s : State) (h : Nat) (f : D2dDir → D2dDir) : (s.mapD2d h f).ulWas = s.ulWas := rfl
@[simp] theorem State.mapD2d_conv (s : State) (h : Nat) (f : D2dDir → D2dDir) : (s.mapD2d h f).conv = s.conv := rfl
@[simp] theorem State.mapD2d_rxp (s : State) (h : Nat) (f : D2dDir → D2dDir) : (s.mapD2d h f).rxp = s.rxp := rfl
@[simp] theorem State.mapD2d_filt (s : State) (h : Nat) (f : D2dDir → D2dDir) : (s.mapD2d h f).filt = s.filt := rfl
@[simp] theorem State.mapD2d_parts (s : State) (h : Nat) (f : D2dDir → D2dDir) : (s.mapD2d h f).parts = s.parts := rfl
@[simp] theorem State.mapD2d_sums (s : State) (h : Nat) (f : D2dDir → D2dDir) : (s.mapD2d h f).sums = s.sums := rfl
@[simp] theorem State.mapD2d_ulSat (s : State) (h : Nat) (f : D2dDir → D2dDir) : (s.mapD2d h f).ulSat = s.ulSat := rfl
@[simp] theorem State.mapD2d_beams (s : State) (h : Nat) (f : D2dDir → D2dDir) : (s.mapD2d h f).beams = s.beams := rfl
@[simp] theorem State.mapD2d_rows (s : State) (h : Nat) (f : D2dDir → D2dDir) : (s.mapD2d h f).rows = s.rows := rfl
@[simp] theorem State.mapD2d_stage (s : State) (h : Nat) (f : D2dDir → D2dDir) : (s.mapD2d h f).stage = s.stage := rfl
@[simp] theorem State.mapD2d_spareRows (s : State) (h : Nat) (f : D2dDir → D2dDir) : (s.mapD2d h f).spareRows = s.spareRows := rfl
@[simp] theorem State.mapD2d_bulk (s : State) (h : Nat) (f : D2dDir → D2dDir) : (s.mapD2d h f).bulk = s.bulk := rfl
@[simp] theorem State.mapD2d_solvRec (s : State) (h : Nat) (f : D2dDir → D2dDir) : (s.mapD2d h f).solvRec = s.solvRec := rfl
@[simp] theorem State.mapD2d_solv (s : State) (h : Nat) (f : D2dDir → D2dDir) : (s.mapD2d h f).solv = s.solv := rfl
@[simp] theorem State.mapD2d_dpd (s : State) (h : Nat) (f : D2dDir → D2dDir) : (s.mapD2d h f).dpd = s.dpd := rfl
@[simp] theorem State.mapD2d_sharedOrx (s : State) (h : Nat) (f : D2dDir → D2dDir) : (s.mapD2d h f).sharedOrx = s.sharedOrx := rfl
@[simp] theorem State.mapD2d_svcAt (s : State) (h : Nat) (f : D2dDir → D2dDir) : (s.mapD2d h f).svcAt = s.svcAt := rfl
@[simp] theorem State.mapD2d_calp (s : State) (h : Nat) (f : D2dDir → D2dDir) : (s.mapD2d h f).calp = s.calp := rfl
@[simp] theorem State.mapD2d_calRefs (s : State) (h : Nat) (f : D2dDir → D2dDir) : (s.mapD2d h f).calRefs = s.calRefs := rfl
@[simp] theorem State.mapD2d_calSets (s : State) (h : Nat) (f : D2dDir → D2dDir) : (s.mapD2d h f).calSets = s.calSets := rfl
@[simp] theorem State.mapD2d_grp (s : State) (h : Nat) (f : D2dDir → D2dDir) : (s.mapD2d h f).grp = s.grp := rfl
@[simp] theorem State.mapD2d_tie (s : State) (h : Nat) (f : D2dDir → D2dDir) : (s.mapD2d h f).tie = s.tie := rfl
@[simp] theorem State.mapD2d_hops (s : State) (h : Nat) (f : D2dDir → D2dDir) : (s.mapD2d h f).hops = s.hops := rfl
@[simp] theorem State.mapD2d_lox (s : State) (h : Nat) (f : D2dDir → D2dDir) : (s.mapD2d h f).lox = s.lox := rfl
@[simp] theorem State.mapD2d_ref (s : State) (h : Nat) (f : D2dDir → D2dDir) : (s.mapD2d h f).ref = s.ref := rfl
@[simp] theorem State.mapD2d_clkTo (s : State) (h : Nat) (f : D2dDir → D2dDir) : (s.mapD2d h f).clkTo = s.clkTo := rfl
@[simp] theorem State.mapD2d_fe (s : State) (h : Nat) (f : D2dDir → D2dDir) : (s.mapD2d h f).fe = s.fe := rfl
@[simp] theorem State.mapD2d_feLater (s : State) (h : Nat) (f : D2dDir → D2dDir) : (s.mapD2d h f).feLater = s.feLater := rfl
@[simp] theorem State.mapD2d_linesOn (s : State) (h : Nat) (f : D2dDir → D2dDir) : (s.mapD2d h f).linesOn = s.linesOn := rfl
@[simp] theorem State.mapD2d_sched (s : State) (h : Nat) (f : D2dDir → D2dDir) : (s.mapD2d h f).sched = s.sched := rfl
@[simp] theorem State.mapD2d_schedPend (s : State) (h : Nat) (f : D2dDir → D2dDir) : (s.mapD2d h f).schedPend = s.schedPend := rfl
@[simp] theorem State.mapD2d_scripts (s : State) (h : Nat) (f : D2dDir → D2dDir) : (s.mapD2d h f).scripts = s.scripts := rfl
@[simp] theorem State.mapD2d_eng (s : State) (h : Nat) (f : D2dDir → D2dDir) : (s.mapD2d h f).eng = s.eng := rfl
@[simp] theorem State.mapD2d_engMem (s : State) (h : Nat) (f : D2dDir → D2dDir) : (s.mapD2d h f).engMem = s.engMem := rfl
@[simp] theorem State.mapD2d_pool (s : State) (h : Nat) (f : D2dDir → D2dDir) : (s.mapD2d h f).pool = s.pool := rfl
@[simp] theorem State.mapD2d_prog (s : State) (h : Nat) (f : D2dDir → D2dDir) : (s.mapD2d h f).prog = s.prog := rfl
@[simp] theorem State.mapD2d_slots (s : State) (h : Nat) (f : D2dDir → D2dDir) : (s.mapD2d h f).slots = s.slots := rfl
@[simp] theorem State.mapD2d_engHalf (s : State) (h : Nat) (f : D2dDir → D2dDir) : (s.mapD2d h f).engHalf = s.engHalf := rfl
@[simp] theorem State.mapD2d_engShare (s : State) (h : Nat) (f : D2dDir → D2dDir) : (s.mapD2d h f).engShare = s.engShare := rfl
@[simp] theorem State.mapD2d_imgLoads (s : State) (h : Nat) (f : D2dDir → D2dDir) : (s.mapD2d h f).imgLoads = s.imgLoads := rfl
@[simp] theorem State.mapD2d_behind (s : State) (h : Nat) (f : D2dDir → D2dDir) : (s.mapD2d h f).behind = s.behind := rfl
@[simp] theorem State.mapD2d_pace (s : State) (h : Nat) (f : D2dDir → D2dDir) : (s.mapD2d h f).pace = s.pace := rfl
@[simp] theorem State.mapD2d_caps (s : State) (h : Nat) (f : D2dDir → D2dDir) : (s.mapD2d h f).caps = s.caps := rfl
@[simp] theorem State.mapD2d_capNum (s : State) (h : Nat) (f : D2dDir → D2dDir) : (s.mapD2d h f).capNum = s.capNum := rfl
@[simp] theorem State.mapD2d_bias (s : State) (h : Nat) (f : D2dDir → D2dDir) : (s.mapD2d h f).bias = s.bias := rfl
@[simp] theorem State.mapD2d_sens (s : State) (h : Nat) (f : D2dDir → D2dDir) : (s.mapD2d h f).sens = s.sens := rfl
@[simp] theorem State.mapD2d_mon (s : State) (h : Nat) (f : D2dDir → D2dDir) : (s.mapD2d h f).mon = s.mon := rfl
@[simp] theorem State.mapD2d_host (s : State) (h : Nat) (f : D2dDir → D2dDir) : (s.mapD2d h f).host = s.host := rfl
@[simp] theorem State.mapD2d_cmd (s : State) (h : Nat) (f : D2dDir → D2dDir) : (s.mapD2d h f).cmd = s.cmd := rfl
@[simp] theorem State.mapD2d_time (s : State) (h : Nat) (f : D2dDir → D2dDir) : (s.mapD2d h f).time = s.time := rfl
@[simp] theorem State.mapD2d_rel (s : State) (h : Nat) (f : D2dDir → D2dDir) : (s.mapD2d h f).rel = s.rel := rfl
@[simp] theorem State.mapD2d_mirrored (s : State) (h : Nat) (f : D2dDir → D2dDir) : (s.mapD2d h f).mirrored = s.mirrored := rfl
@[simp] theorem State.mapD2d_nv (s : State) (h : Nat) (f : D2dDir → D2dDir) : (s.mapD2d h f).nv = s.nv := rfl
@[simp] theorem State.mapD2d_boot (s : State) (h : Nat) (f : D2dDir → D2dDir) : (s.mapD2d h f).boot = s.boot := rfl
@[simp] theorem State.mapD2d_tap (s : State) (h : Nat) (f : D2dDir → D2dDir) : (s.mapD2d h f).tap = s.tap := rfl
@[simp] theorem State.mapD2d_sent (s : State) (h : Nat) (f : D2dDir → D2dDir) : (s.mapD2d h f).sent = s.sent := rfl
@[simp] theorem State.mapD2d_fresh (s : State) (h : Nat) (f : D2dDir → D2dDir) : (s.mapD2d h f).fresh = s.fresh := rfl
@[simp] theorem State.mapD2d_pending (s : State) (h : Nat) (f : D2dDir → D2dDir) : (s.mapD2d h f).pending = s.pending := rfl

@[simp] theorem State.mapTap_regs (s : State) (h : Half) (f : Tap → Tap) : (s.mapTap h f).regs = s.regs := rfl
@[simp] theorem State.mapTap_lanes (s : State) (h : Half) (f : Tap → Tap) : (s.mapTap h f).lanes = s.lanes := rfl
@[simp] theorem State.mapTap_links (s : State) (h : Half) (f : Tap → Tap) : (s.mapTap h f).links = s.links := rfl
@[simp] theorem State.mapTap_line (s : State) (h : Half) (f : Tap → Tap) : (s.mapTap h f).line = s.line := rfl
@[simp] theorem State.mapTap_pkts (s : State) (h : Half) (f : Tap → Tap) : (s.mapTap h f).pkts = s.pkts := rfl
@[simp] theorem State.mapTap_flows (s : State) (h : Half) (f : Tap → Tap) : (s.mapTap h f).flows = s.flows := rfl
@[simp] theorem State.mapTap_flowFx (s : State) (h : Half) (f : Tap → Tap) : (s.mapTap h f).flowFx = s.flowFx := rfl
@[simp] theorem State.mapTap_flowOld (s : State) (h : Half) (f : Tap → Tap) : (s.mapTap h f).flowOld = s.flowOld := rfl
@[simp] theorem State.mapTap_ctrlSecs (s : State) (h : Half) (f : Tap → Tap) : (s.mapTap h f).ctrlSecs = s.ctrlSecs := rfl
@[simp] theorem State.mapTap_dataSecs (s : State) (h : Half) (f : Tap → Tap) : (s.mapTap h f).dataSecs = s.dataSecs := rfl
@[simp] theorem State.mapTap_soundSecs (s : State) (h : Half) (f : Tap → Tap) : (s.mapTap h f).soundSecs = s.soundSecs := rfl
@[simp] theorem State.mapTap_dlCar (s : State) (h : Half) (f : Tap → Tap) : (s.mapTap h f).dlCar = s.dlCar := rfl
@[simp] theorem State.mapTap_dlPend (s : State) (h : Half) (f : Tap → Tap) : (s.mapTap h f).dlPend = s.dlPend := rfl
@[simp] theorem State.mapTap_dlSince (s : State) (h : Half) (f : Tap → Tap) : (s.mapTap h f).dlSince = s.dlSince := rfl
@[simp] theorem State.mapTap_backoff (s : State) (h : Half) (f : Tap → Tap) : (s.mapTap h f).backoff = s.backoff := rfl
@[simp] theorem State.mapTap_backAt (s : State) (h : Half) (f : Tap → Tap) : (s.mapTap h f).backAt = s.backAt := rfl
@[simp] theorem State.mapTap_dlOcc (s : State) (h : Half) (f : Tap → Tap) : (s.mapTap h f).dlOcc = s.dlOcc := rfl
@[simp] theorem State.mapTap_txp (s : State) (h : Half) (f : Tap → Tap) : (s.mapTap h f).txp = s.txp := rfl
@[simp] theorem State.mapTap_dlSat (s : State) (h : Half) (f : Tap → Tap) : (s.mapTap h f).dlSat = s.dlSat := rfl
@[simp] theorem State.mapTap_ulCar (s : State) (h : Half) (f : Tap → Tap) : (s.mapTap h f).ulCar = s.ulCar := rfl
@[simp] theorem State.mapTap_ulPend (s : State) (h : Half) (f : Tap → Tap) : (s.mapTap h f).ulPend = s.ulPend := rfl
@[simp] theorem State.mapTap_ulWas (s : State) (h : Half) (f : Tap → Tap) : (s.mapTap h f).ulWas = s.ulWas := rfl
@[simp] theorem State.mapTap_conv (s : State) (h : Half) (f : Tap → Tap) : (s.mapTap h f).conv = s.conv := rfl
@[simp] theorem State.mapTap_rxp (s : State) (h : Half) (f : Tap → Tap) : (s.mapTap h f).rxp = s.rxp := rfl
@[simp] theorem State.mapTap_filt (s : State) (h : Half) (f : Tap → Tap) : (s.mapTap h f).filt = s.filt := rfl
@[simp] theorem State.mapTap_parts (s : State) (h : Half) (f : Tap → Tap) : (s.mapTap h f).parts = s.parts := rfl
@[simp] theorem State.mapTap_sums (s : State) (h : Half) (f : Tap → Tap) : (s.mapTap h f).sums = s.sums := rfl
@[simp] theorem State.mapTap_ulSat (s : State) (h : Half) (f : Tap → Tap) : (s.mapTap h f).ulSat = s.ulSat := rfl
@[simp] theorem State.mapTap_beams (s : State) (h : Half) (f : Tap → Tap) : (s.mapTap h f).beams = s.beams := rfl
@[simp] theorem State.mapTap_rows (s : State) (h : Half) (f : Tap → Tap) : (s.mapTap h f).rows = s.rows := rfl
@[simp] theorem State.mapTap_stage (s : State) (h : Half) (f : Tap → Tap) : (s.mapTap h f).stage = s.stage := rfl
@[simp] theorem State.mapTap_spareRows (s : State) (h : Half) (f : Tap → Tap) : (s.mapTap h f).spareRows = s.spareRows := rfl
@[simp] theorem State.mapTap_bulk (s : State) (h : Half) (f : Tap → Tap) : (s.mapTap h f).bulk = s.bulk := rfl
@[simp] theorem State.mapTap_solvRec (s : State) (h : Half) (f : Tap → Tap) : (s.mapTap h f).solvRec = s.solvRec := rfl
@[simp] theorem State.mapTap_solv (s : State) (h : Half) (f : Tap → Tap) : (s.mapTap h f).solv = s.solv := rfl
@[simp] theorem State.mapTap_dpd (s : State) (h : Half) (f : Tap → Tap) : (s.mapTap h f).dpd = s.dpd := rfl
@[simp] theorem State.mapTap_sharedOrx (s : State) (h : Half) (f : Tap → Tap) : (s.mapTap h f).sharedOrx = s.sharedOrx := rfl
@[simp] theorem State.mapTap_svcAt (s : State) (h : Half) (f : Tap → Tap) : (s.mapTap h f).svcAt = s.svcAt := rfl
@[simp] theorem State.mapTap_calp (s : State) (h : Half) (f : Tap → Tap) : (s.mapTap h f).calp = s.calp := rfl
@[simp] theorem State.mapTap_calRefs (s : State) (h : Half) (f : Tap → Tap) : (s.mapTap h f).calRefs = s.calRefs := rfl
@[simp] theorem State.mapTap_calSets (s : State) (h : Half) (f : Tap → Tap) : (s.mapTap h f).calSets = s.calSets := rfl
@[simp] theorem State.mapTap_grp (s : State) (h : Half) (f : Tap → Tap) : (s.mapTap h f).grp = s.grp := rfl
@[simp] theorem State.mapTap_tie (s : State) (h : Half) (f : Tap → Tap) : (s.mapTap h f).tie = s.tie := rfl
@[simp] theorem State.mapTap_hops (s : State) (h : Half) (f : Tap → Tap) : (s.mapTap h f).hops = s.hops := rfl
@[simp] theorem State.mapTap_lox (s : State) (h : Half) (f : Tap → Tap) : (s.mapTap h f).lox = s.lox := rfl
@[simp] theorem State.mapTap_ref (s : State) (h : Half) (f : Tap → Tap) : (s.mapTap h f).ref = s.ref := rfl
@[simp] theorem State.mapTap_clkTo (s : State) (h : Half) (f : Tap → Tap) : (s.mapTap h f).clkTo = s.clkTo := rfl
@[simp] theorem State.mapTap_fe (s : State) (h : Half) (f : Tap → Tap) : (s.mapTap h f).fe = s.fe := rfl
@[simp] theorem State.mapTap_feLater (s : State) (h : Half) (f : Tap → Tap) : (s.mapTap h f).feLater = s.feLater := rfl
@[simp] theorem State.mapTap_linesOn (s : State) (h : Half) (f : Tap → Tap) : (s.mapTap h f).linesOn = s.linesOn := rfl
@[simp] theorem State.mapTap_sched (s : State) (h : Half) (f : Tap → Tap) : (s.mapTap h f).sched = s.sched := rfl
@[simp] theorem State.mapTap_schedPend (s : State) (h : Half) (f : Tap → Tap) : (s.mapTap h f).schedPend = s.schedPend := rfl
@[simp] theorem State.mapTap_scripts (s : State) (h : Half) (f : Tap → Tap) : (s.mapTap h f).scripts = s.scripts := rfl
@[simp] theorem State.mapTap_eng (s : State) (h : Half) (f : Tap → Tap) : (s.mapTap h f).eng = s.eng := rfl
@[simp] theorem State.mapTap_engMem (s : State) (h : Half) (f : Tap → Tap) : (s.mapTap h f).engMem = s.engMem := rfl
@[simp] theorem State.mapTap_pool (s : State) (h : Half) (f : Tap → Tap) : (s.mapTap h f).pool = s.pool := rfl
@[simp] theorem State.mapTap_prog (s : State) (h : Half) (f : Tap → Tap) : (s.mapTap h f).prog = s.prog := rfl
@[simp] theorem State.mapTap_slots (s : State) (h : Half) (f : Tap → Tap) : (s.mapTap h f).slots = s.slots := rfl
@[simp] theorem State.mapTap_engHalf (s : State) (h : Half) (f : Tap → Tap) : (s.mapTap h f).engHalf = s.engHalf := rfl
@[simp] theorem State.mapTap_engShare (s : State) (h : Half) (f : Tap → Tap) : (s.mapTap h f).engShare = s.engShare := rfl
@[simp] theorem State.mapTap_imgLoads (s : State) (h : Half) (f : Tap → Tap) : (s.mapTap h f).imgLoads = s.imgLoads := rfl
@[simp] theorem State.mapTap_behind (s : State) (h : Half) (f : Tap → Tap) : (s.mapTap h f).behind = s.behind := rfl
@[simp] theorem State.mapTap_pace (s : State) (h : Half) (f : Tap → Tap) : (s.mapTap h f).pace = s.pace := rfl
@[simp] theorem State.mapTap_caps (s : State) (h : Half) (f : Tap → Tap) : (s.mapTap h f).caps = s.caps := rfl
@[simp] theorem State.mapTap_capNum (s : State) (h : Half) (f : Tap → Tap) : (s.mapTap h f).capNum = s.capNum := rfl
@[simp] theorem State.mapTap_bias (s : State) (h : Half) (f : Tap → Tap) : (s.mapTap h f).bias = s.bias := rfl
@[simp] theorem State.mapTap_sens (s : State) (h : Half) (f : Tap → Tap) : (s.mapTap h f).sens = s.sens := rfl
@[simp] theorem State.mapTap_mon (s : State) (h : Half) (f : Tap → Tap) : (s.mapTap h f).mon = s.mon := rfl
@[simp] theorem State.mapTap_host (s : State) (h : Half) (f : Tap → Tap) : (s.mapTap h f).host = s.host := rfl
@[simp] theorem State.mapTap_cmd (s : State) (h : Half) (f : Tap → Tap) : (s.mapTap h f).cmd = s.cmd := rfl
@[simp] theorem State.mapTap_time (s : State) (h : Half) (f : Tap → Tap) : (s.mapTap h f).time = s.time := rfl
@[simp] theorem State.mapTap_rel (s : State) (h : Half) (f : Tap → Tap) : (s.mapTap h f).rel = s.rel := rfl
@[simp] theorem State.mapTap_d2d (s : State) (h : Half) (f : Tap → Tap) : (s.mapTap h f).d2d = s.d2d := rfl
@[simp] theorem State.mapTap_mirrored (s : State) (h : Half) (f : Tap → Tap) : (s.mapTap h f).mirrored = s.mirrored := rfl
@[simp] theorem State.mapTap_nv (s : State) (h : Half) (f : Tap → Tap) : (s.mapTap h f).nv = s.nv := rfl
@[simp] theorem State.mapTap_boot (s : State) (h : Half) (f : Tap → Tap) : (s.mapTap h f).boot = s.boot := rfl
@[simp] theorem State.mapTap_sent (s : State) (h : Half) (f : Tap → Tap) : (s.mapTap h f).sent = s.sent := rfl
@[simp] theorem State.mapTap_fresh (s : State) (h : Half) (f : Tap → Tap) : (s.mapTap h f).fresh = s.fresh := rfl
@[simp] theorem State.mapTap_pending (s : State) (h : Half) (f : Tap → Tap) : (s.mapTap h f).pending = s.pending := rfl

end Sys2Proof.Machine
end

