-- ==== Sys2Proof/Laws/Tables.lean ====
section
/-! SUPPORT. Sparse tables: a read after a write, and the canonical form that every write keeps; a field after a write of
its register. -/

namespace Sys2Proof.Machine

theorem tfind_tins {α : Type} (k j : Nat) (v : α) (t : Tbl α) :
    tfind j (tins k v t) = if k = j then some v else tfind j t := by
  induction t with
  | nil => simp [tins, tfind]
  | cons e r ih =>
    obtain ⟨a, x⟩ := e
    unfold tins
    split
    · simp [tfind]
    · split
      · subst_vars; simp only [tfind]; split <;> simp_all
      · simp only [tfind, ih]; split <;> simp_all

theorem tfind_tdel {α : Type} (k j : Nat) (t : Tbl α) : tfind j (tdel k t) = if k = j then none else tfind j t := by
  induction t with
  | nil => simp [tdel, tfind]
  | cons e r ih =>
    obtain ⟨a, x⟩ := e
    unfold tdel at ih ⊢
    by_cases h : a = k <;> by_cases h2 : k = j <;> simp_all [tfind]

theorem tget_tset {α : Type} [DecidableEq α] (d : Nat → α) (t : Tbl α) (k j : Nat) (v : α) :
    tget d (tset d t k v) j = if k = j then v else tget d t j := by
  unfold tget tset
  split
  · rw [tfind_tdel]; split <;> simp_all
  · rw [tfind_tins]; split <;> simp_all

@[simp] theorem tget_tset_same {α : Type} [DecidableEq α] (d : Nat → α) (t : Tbl α) (k : Nat) (v : α) :
    tget d (tset d t k v) k = v := by simp [tget_tset]

theorem tget_tset_ne {α : Type} [DecidableEq α] (d : Nat → α) (t : Tbl α) {k j : Nat} (v : α) (h : k ≠ j) :
    tget d (tset d t k v) j = tget d t j := by simp [tget_tset, h]

theorem tins_key {α : Type} (k : Nat) (v : α) (t : Tbl α) : ∀ e ∈ tins k v t, e = (k, v) ∨ e ∈ t := by
  induction t with
  | nil => simp [tins]
  | cons e r ih =>
    obtain ⟨a, x⟩ := e
    intro e he
    unfold tins at he
    split at he
    · simpa using he
    · split at he
      · simp at he ⊢; tauto
      · simp only [List.mem_cons] at he ⊢
        rcases he with rfl | he
        · tauto
        · rcases ih e he with h | h <;> tauto

/-- Every write of a table keeps its canonical form: keys strictly rise and nothing listed is the default. -/
theorem twf_tset {α : Type} [DecidableEq α] (d : Nat → α) (t : Tbl α) (k : Nat) (v : α) (h : Twf d t) :
    Twf d (tset d t k v) := by
  obtain ⟨hs, hd⟩ := h
  unfold tset
  split
  · exact ⟨hs.filter _, fun e he => hd e (List.mem_filter.mp he).1⟩
  · rename_i hv
    refine ⟨?_, fun e he => ?_⟩
    · clear hd hv
      induction t with
      | nil => simp [tins]
      | cons e r ih =>
        obtain ⟨a, x⟩ := e
        rw [List.pairwise_cons] at hs
        unfold tins
        split
        · rename_i hk
          refine List.pairwise_cons.mpr ⟨fun b hb => ?_, List.pairwise_cons.mpr hs⟩
          rcases List.mem_cons.mp hb with rfl | hb
          · exact hk
          · exact Nat.lt_trans hk (hs.1 b hb)
        · split
          · subst_vars; exact List.pairwise_cons.mpr hs
          · refine List.pairwise_cons.mpr ⟨fun b hb => ?_, ih hs.2⟩
            rcases tins_key k v r b hb with rfl | hb
            · simp only; omega
            · exact hs.1 b hb
    · rcases tins_key k v t e he with rfl | he
      · exact hv
      · exact hd e he

/-! ## Registers and their fields -/

theorem State.reg_setReg (s : State) (o p : Nat) (v : Word) : (s.setReg o v).reg p = if o = p then v else s.reg p :=
  tget_tset _ _ _ _ _

@[simp] theorem State.reg_setReg_same (s : State) (o : Nat) (v : Word) : (s.setReg o v).reg o = v := by
  simp [State.reg_setReg]

theorem State.reg_setF (s : State) (x : Fld) (v p : Nat) :
    (s.setF x v).reg p = if x.off = p then fset (s.reg x.off) x.lo x.w v else s.reg p := State.reg_setReg _ _ _ _

theorem fget_fset (r : Word) {lo w : Nat} (v : Nat) (h : lo + w ≤ 32) : fget (fset r lo w v) lo w = v % 2 ^ w := by
  have hr : r.toNat / 2 ^ (lo + w) * 2 ^ (lo + w) + v % 2 ^ w * 2 ^ lo + r.toNat % 2 ^ lo < 2 ^ 32 := by
    have h1 : v % 2 ^ w < 2 ^ w := Nat.mod_lt _ (by positivity)
    have h2 : r.toNat % 2 ^ lo < 2 ^ lo := Nat.mod_lt _ (by positivity)
    have h3 : v % 2 ^ w * 2 ^ lo + r.toNat % 2 ^ lo < 2 ^ (lo + w) := by
      rw [Nat.add_comm lo, pow_add]
      calc v % 2 ^ w * 2 ^ lo + r.toNat % 2 ^ lo < v % 2 ^ w * 2 ^ lo + 2 ^ lo := by omega
        _ = (v % 2 ^ w + 1) * 2 ^ lo := by ring
        _ ≤ 2 ^ w * 2 ^ lo := Nat.mul_le_mul_right _ h1
    have h4 : r.toNat / 2 ^ (lo + w) < 2 ^ (32 - (lo + w)) := by
      rw [Nat.div_lt_iff_lt_mul (by positivity), ← pow_add, Nat.sub_add_cancel h]; exact r.isLt
    calc _ < r.toNat / 2 ^ (lo + w) * 2 ^ (lo + w) + 2 ^ (lo + w) := by omega
      _ = (r.toNat / 2 ^ (lo + w) + 1) * 2 ^ (lo + w) := by ring
      _ ≤ 2 ^ (32 - (lo + w)) * 2 ^ (lo + w) := Nat.mul_le_mul_right _ h4
      _ = 2 ^ 32 := by rw [← pow_add, Nat.sub_add_cancel h]
  have hp : 0 < 2 ^ lo := by positivity
  have e : r.toNat / 2 ^ (lo + w) * 2 ^ (lo + w) + v % 2 ^ w * 2 ^ lo + r.toNat % 2 ^ lo
      = r.toNat % 2 ^ lo + (v % 2 ^ w + r.toNat / 2 ^ (lo + w) * 2 ^ w) * 2 ^ lo := by rw [pow_add]; ring
  unfold fget fset
  rw [BitVec.toNat_ofNat, Nat.mod_eq_of_lt hr, e, Nat.add_mul_div_right _ _ hp, Nat.div_eq_of_lt (Nat.mod_lt _ hp),
    Nat.zero_add, Nat.add_mul_mod_self_right, Nat.mod_mod]

theorem State.raw_setF (s : State) (x : Fld) (v : Nat) (h : x.lo + x.w ≤ 32) : (s.setF x v).raw x = v % 2 ^ x.w := by
  simp [State.raw, State.reg_setF, fget_fset _ _ h]

theorem State.raw_setF_off (s : State) (x y : Fld) (v : Nat) (h : x.off ≠ y.off) : (s.setF x v).raw y = s.raw y := by
  simp [State.raw, State.reg_setF, h]

/-- A counter counts up and stays at its all-ones value. -/
theorem State.raw_bump (s : State) (x : Fld) (n : Nat) (h : x.lo + x.w ≤ 32) :
    (s.bump x n).raw x = min (s.raw x + n) (2 ^ x.w - 1) := by
  have : 0 < 2 ^ x.w := by positivity
  rw [State.bump, State.raw_setF _ _ _ h, Nat.mod_eq_of_lt (by omega)]

theorem State.raw_bump_off (s : State) (x y : Fld) (n : Nat) (h : x.off ≠ y.off) : (s.bump x n).raw y = s.raw y :=
  State.raw_setF_off _ _ _ _ h

/-- A register write keeps the register file's canonical form. -/
theorem State.setReg_wf (s : State) (o : Nat) (v : Word) (h : Twf regReset s.regs) : Twf regReset (s.setReg o v).regs :=
  twf_tset _ _ _ _ h

end Sys2Proof.Machine
end

