-- ==== Sys2Proof/Laws/Frames.lean ====
section
/-! SUPPORT. What the shared operations leave unchanged: frames compose, and each operation has one. -/

namespace Sys2Proof.Machine

theorem Part.same_refl (s : State) (p : Part) : Part.Same s s p := by cases p <;> simp [Part.Same]

theorem Part.same_trans {s t u : State} {p : Part} (a : Part.Same s t p) (b : Part.Same t u p) : Part.Same s u p := by
  cases p <;> simp_all [Part.Same]

theorem Only.refl (l : List Part) (m : List Nat) (s : State) : Only l m s s :=
  ⟨fun p _ => Part.same_refl s p, fun _ _ => rfl⟩

theorem Only.mono {l l' : List Part} {m m' : List Nat} {s t : State} (h : Only l m s t) (hl : l ⊆ l') (hm : m ⊆ m') :
    Only l' m' s t :=
  ⟨fun p hp => h.1 p fun q => hp (hl q), fun o ho => h.2 o fun q => ho (hm q)⟩

theorem Only.trans {l : List Part} {m : List Nat} {s t u : State} (a : Only l m s t) (b : Only l m t u) :
    Only l m s u :=
  ⟨fun p hp => Part.same_trans (a.1 p hp) (b.1 p hp), fun o ho => (b.2 o ho).trans (a.2 o ho)⟩

/-- Frames of operations done one after the other. -/
theorem Only.then {l l' k : List Part} {m m' n : List Nat} {s t u : State} (a : Only l m s t) (b : Only l' m' t u)
    (h1 : l ⊆ k := by decide) (h2 : l' ⊆ k := by decide) (h3 : m ⊆ n := by decide) (h4 : m' ⊆ n := by decide) :
    Only k n s u := (a.mono h1 h3).trans (b.mono h2 h4)

theorem Only.foldl {α : Type} {l : List Part} {m : List Nat} (f : State → α → State)
    (h : ∀ (t : State) (x : α), Only l m t (f t x)) (xs : List α) (s : State) : Only l m s (xs.foldl f s) := by
  induction xs generalizing s with
  | nil => exact Only.refl l m s
  | cons x r ih => exact (h s x).trans (ih _)

theorem Only.ite {l : List Part} {m : List Nat} {s t u : State} (c : Prop) [Decidable c] (a : c → Only l m s t)
    (b : ¬c → Only l m s u) : Only l m s (if c then t else u) := by
  split
  · exact a ‹_›
  · exact b ‹_›

theorem only_setReg (s : State) (o : Nat) (v : Word) : Only [] [o] s (s.setReg o v) :=
  ⟨fun p _ => by cases p <;> simp [Part.Same], fun q hq => by simp at hq; simp [State.reg_setReg, Ne.symm hq]⟩

theorem only_setF (s : State) (x : Fld) (v : Nat) : Only [] [x.off] s (s.setF x v) := only_setReg s _ _

theorem only_setB (s : State) (x : Fld) (b : Bool) : Only [] [x.off] s (s.setB x b) := only_setReg s _ _

theorem only_bump (s : State) (x : Fld) (n : Nat) : Only [] [x.off] s (s.bump x n) := only_setReg s _ _

theorem only_setDom (s : State) (h d v : Nat) : Only [] [0x0828 + 4 * h] s (s.setDom h d v) := only_setReg s _ _

theorem only_emit (s : State) (o : Out) : Only [.log] [] s (s.emit o) :=
  ⟨fun p hp => by cases p <;> first | (simp at hp; done) | simp [Part.Same], fun _ _ => rfl⟩

theorem only_mapHost (s : State) (f : HostSt → HostSt) : Only [.host] [] s (s.mapHost f) :=
  ⟨fun p hp => by cases p <;> first | (simp at hp; done) | simp [Part.Same], fun _ _ => rfl⟩

theorem only_mapCmd (s : State) (f : CmdSt → CmdSt) : Only [.commands] [] s (s.mapCmd f) :=
  ⟨fun p hp => by cases p <;> first | (simp at hp; done) | simp [Part.Same], fun _ _ => rfl⟩

theorem only_mapTime (s : State) (f : TimeSt → TimeSt) : Only [.time] [] s (s.mapTime f) :=
  ⟨fun p hp => by cases p <;> first | (simp at hp; done) | simp [Part.Same], fun _ _ => rfl⟩

theorem only_mapPkt (s : State) (h : Nat) (f : PktSt → PktSt) : Only [.pkts] [] s (s.mapPkt h f) :=
  ⟨fun p hp => by cases p <;> first | (simp at hp; done) | simp [Part.Same], fun _ _ => rfl⟩

theorem only_mapLink (s : State) (h : Nat) (f : LinkSt → LinkSt) : Only [.links] [] s (s.mapLink h f) :=
  ⟨fun p hp => by cases p <;> first | (simp at hp; done) | simp [Part.Same], fun _ _ => rfl⟩

theorem only_mapLane (s : State) (n : Nat) (f : LaneX → LaneX) : Only [.lanes] [] s (s.mapLane n f) :=
  ⟨fun p hp => by cases p <;> first | (simp at hp; done) | simp [Part.Same], fun _ _ => rfl⟩

theorem only_setFlow (s : State) (n : Nat) (f : Flow) : Only [.flows] [] s (s.setFlow n f) :=
  ⟨fun p hp => by cases p <;> first | (simp at hp; done) | simp [Part.Same], fun _ _ => rfl⟩

theorem only_mapGroup (s : State) (g : Nat) (f : GroupSt → GroupSt) : Only [.groups] [] s (s.mapGroup g f) :=
  ⟨fun p hp => by cases p <;> first | (simp at hp; done) | simp [Part.Same], fun _ _ => rfl⟩

theorem only_mapTx (s : State) (p : Nat) (f : TxPath → TxPath) : Only [.transmit] [] s (s.mapTx p f) :=
  ⟨fun p hp => by cases p <;> first | (simp at hp; done) | simp [Part.Same], fun _ _ => rfl⟩

theorem only_mapRx (s : State) (p : Nat) (f : RxPath → RxPath) : Only [.receive] [] s (s.mapRx p f) :=
  ⟨fun p hp => by cases p <;> first | (simp at hp; done) | simp [Part.Same], fun _ _ => rfl⟩

theorem only_mapFe (s : State) (p : Nat) (f : FePath → FePath) : Only [.frontEnd] [] s (s.mapFe p f) :=
  ⟨fun p hp => by cases p <;> first | (simp at hp; done) | simp [Part.Same], fun _ _ => rfl⟩

theorem only_mapCal (s : State) (p : Nat) (f : CalPath → CalPath) : Only [.calib] [] s (s.mapCal p f) :=
  ⟨fun p hp => by cases p <;> first | (simp at hp; done) | simp [Part.Same], fun _ _ => rfl⟩

theorem only_mapEng (s : State) (e : Nat) (f : EngSt → EngSt) : Only [.engines] [] s (s.mapEng e f) :=
  ⟨fun p hp => by cases p <;> first | (simp at hp; done) | simp [Part.Same], fun _ _ => rfl⟩

theorem only_mapBoot (s : State) (f : BootSt → BootSt) : Only [.boot] [] s (s.mapBoot f) :=
  ⟨fun p hp => by cases p <;> first | (simp at hp; done) | simp [Part.Same], fun _ _ => rfl⟩

theorem only_mapRel (s : State) (f : RelSt → RelSt) : Only [.faults] [] s (s.mapRel f) :=
  ⟨fun p hp => by cases p <;> first | (simp at hp; done) | simp [Part.Same], fun _ _ => rfl⟩

theorem only_mapNv (s : State) (f : NvSt → NvSt) : Only [.store] [] s (s.mapNv f) :=
  ⟨fun p hp => by cases p <;> first | (simp at hp; done) | simp [Part.Same], fun _ _ => rfl⟩

theorem only_mapLine (s : State) (n : Nat) (f : LineSt → LineSt) : Only [.log] [] s (s.mapLine n f) :=
  ⟨fun p hp => by cases p <;> first | (simp at hp; done) | simp [Part.Same], fun _ _ => rfl⟩

theorem only_mapD2d (s : State) (h : Nat) (f : D2dDir → D2dDir) : Only [.d2d] [] s (s.mapD2d h f) :=
  ⟨fun p hp => by cases p <;> first | (simp at hp; done) | simp [Part.Same], fun _ _ => rfl⟩

theorem only_mapTap (s : State) (h : Half) (f : Tap → Tap) : Only [.tap] [] s (s.mapTap h f) :=
  ⟨fun p hp => by cases p <;> first | (simp at hp; done) | simp [Part.Same], fun _ _ => rfl⟩

/-! ## Interrupts, events, completions -/

theorem only_msix (s : State) (v : Nat) : Only [.log] [Rg.MSIX_PBA.off] s (s.msix v) := by
  unfold State.msix
  split
  · exact (only_setF _ _ _).mono (by decide) (by decide)
  · exact (only_emit _ _).mono (by decide) (by decide)

theorem only_irq (s : State) (v : Nat) : Only [.log] [Rg.MSIX_PBA.off] s (s.irq v) := by
  unfold State.irq
  split
  · exact Only.refl _ _ _
  · exact only_msix _ _

theorem only_alert (s : State) (x : Fld) : Only [.log] [x.off, Rg.MSIX_PBA.off] s (s.alert x) := by
  unfold State.alert
  split
  · exact Only.refl _ _ _
  · exact ((only_setF _ _ _).mono (by decide) (by simp)).trans ((only_irq _ _).mono (by decide) (by simp))

theorem only_writeStatus (s : State) : Only [.log, .host] [] s s.writeStatus := by
  unfold State.writeStatus
  split
  · exact Only.refl _ _ _
  · exact (only_mapHost _ _).then (only_emit _ _)

theorem only_setDevIdx (s : State) (r i : Nat) :
    Only [.log, .host] [(Rg.RING_IDX_DEV_IDX r).off] s (s.setDevIdx r i) :=
  ((only_setF _ _ _).mono (by decide) (by simp)).trans ((only_writeStatus _).mono (by decide) (by simp))

theorem only_record (s : State) (h c b : Nat) (l : List Nat) : Only [.commands] [] s (s.record h c b l).2 :=
  only_mapCmd _ _

/-- Registers that writing an event may change. -/
def evtWriteRegs : List Nat := [Rg.MSIX_PBA.off, (Rg.RING_IDX_DEV_IDX 3).off]

theorem only_putEvt (s : State) (e : Event) : Only [.log, .host, .commands] evtWriteRegs s (s.putEvt e) := by
  unfold State.putEvt
  have h1 := ((only_emit s (.evtEntry (s.devIdx 3) e)).then (only_setDevIdx _ 3 ((s.devIdx 3 + 1) % (s.emit (.evtEntry (s.devIdx 3) e)).ringSize 3))
    (k := [.log, .host, .commands]) (n := evtWriteRegs))
  have h2 := h1.trans ((only_mapCmd _ fun c => { c with evtWritten := e.seq }).mono (by decide) (by decide))
  have h3 := fun f => h2.trans ((only_mapHost _ f).mono (by decide) (by decide))
  refine Only.ite _ (fun _ => ?_) (fun _ => ?_)
  · refine Only.trans ?_ ((only_msix _ _).mono (by decide) (by decide))
    refine Only.ite _ (fun _ => ?_) (fun _ => h3 _)
    exact ((h3 _).trans ((only_irq _ _).mono (by decide) (by decide))).trans ((only_mapHost _ _).mono (by decide) (by decide))
  · refine Only.ite _ (fun _ => ?_) (fun _ => h3 _)
    exact ((h3 _).trans ((only_irq _ _).mono (by decide) (by decide))).trans ((only_mapHost _ _).mono (by decide) (by decide))

theorem only_flushLost (s : State) : Only [.log, .host, .commands] evtWriteRegs s s.flushLost := by
  unfold State.flushLost
  refine Only.ite _ (fun _ => ?_) (fun _ => Only.refl _ _ _)
  exact (((only_record _ _ _ _ _).mono (by decide) (by decide)).trans (only_putEvt _ _)).trans
    ((only_mapHost _ _).mono (by decide) (by decide))

theorem only_dropEvt (s : State) (e : Event) : Only [.log, .host] eventRegs s (s.dropEvt e) :=
  (((only_bump _ _ _).mono (by decide) (by decide)).trans ((only_alert _ _).mono (by decide) (by decide))).trans
    ((only_mapHost _ _).mono (by decide) (by decide))

theorem only_writeEvt (s : State) (e : Event) : Only [.log, .host, .commands] eventRegs s (s.writeEvt e) := by
  unfold State.writeEvt
  refine Only.ite _ (fun _ => Only.refl _ _ _) (fun _ => Only.ite _ (fun _ => ?_) (fun _ => ?_))
  · exact (only_mapHost _ _).mono (by decide) (by decide)
  · have h := (only_flushLost s).mono (List.Subset.refl _) (show evtWriteRegs ⊆ eventRegs by decide)
    refine Only.ite _ (fun _ => h.trans ((only_putEvt _ _).mono (List.Subset.refl _) (by decide)))
      (fun _ => h.trans ((only_dropEvt _ _).mono (by decide) (List.Subset.refl _)))

theorem only_queueTx (s : State) (h : Nat) (i : TxItem) : Only [.pkts] [] s (s.queueTx h i) := only_mapPkt _ _ _

theorem only_sendMsg (s : State) (h c : Nat) (l : List Byte) : Only [.pkts] [] s (s.sendMsg h c l) := only_queueTx _ _ _

theorem only_raiseNow (s : State) (h c b : Nat) (l : List Nat) : Only eventParts eventRegs s (s.raiseNow h c b l) := by
  unfold State.raiseNow
  have h1 := (only_record s h c b l).mono (show [Part.commands] ⊆ eventParts by decide) (show [] ⊆ eventRegs by decide)
  refine Only.ite _ (fun _ => ?_) (fun _ => ?_)
  · refine Only.trans ?_ ((only_sendMsg _ _ _ _).mono (by decide) (by decide))
    exact Only.ite _ (fun _ => h1.trans ((only_writeEvt _ _).mono (by decide) (List.Subset.refl _))) (fun _ => h1)
  · exact Only.ite _ (fun _ => h1.trans ((only_writeEvt _ _).mono (by decide) (List.Subset.refl _))) (fun _ => h1)

/-- Raising an event changes the events, what leaves the device and the event ring's registers, nothing else. -/
theorem only_raise (s : State) (h c b : Nat) (l : List Nat) : Only eventParts eventRegs s (s.raise h c b l) := by
  unfold State.raise
  exact Only.ite _ (fun _ => (only_mapCmd _ _).mono (by decide) (by decide)) (fun _ => only_raiseNow _ _ _ _ _)

theorem only_setRate (s : State) (c b : Nat) (r : RateRec) : Only eventParts eventRegs s (s.setRate c b r) :=
  (only_mapCmd _ _).mono (by decide) (by decide)

theorem only_raiseLimited (s : State) (h c b k n : Nat) (l : List Nat) :
    Only eventParts eventRegs s (s.raiseLimited h c b k n l) := by
  simp only [State.raiseLimited]
  split
  · exact Only.ite _ (fun _ => only_setRate _ _ _ _) (fun _ => (only_setRate _ _ _ _).trans (only_raise _ _ _ _ _))
  · exact (only_setRate _ _ _ _).trans (only_raise _ _ _ _ _)

theorem only_raiseOnce (s : State) (h c b k : Nat) (l : List Nat) :
    Only eventParts eventRegs s (s.raiseOnce h c b k l) := by
  unfold State.raiseOnce
  split
  · exact Only.ite _ (fun _ => Only.refl _ _ _) (fun _ => (only_setRate _ _ _ _).trans (only_raise _ _ _ _ _))
  · exact (only_setRate _ _ _ _).trans (only_raise _ _ _ _ _)

theorem only_putCpl (s : State) (c : Cpl) (l : List Byte) : Only cplParts cplRegs s (s.putCpl c l) := by
  unfold State.putCpl
  refine Only.ite _ (fun _ => ?_) (fun _ => (only_bump _ _ _).mono (by decide) (by decide))
  have key : ∀ t : State, Only cplParts cplRegs t
      (((t.emit (.cplEntry (t.devIdx 2) c)).setDevIdx 2 ((t.devIdx 2 + 1) % (t.emit (.cplEntry (t.devIdx 2) c)).ringSize 2)).mapCmd
        fun m => { m with lastTag := tset (fun _ => 0) m.lastTag c.ring c.tag }) := fun t =>
    (((only_emit _ _).mono (by decide) (by decide)).trans ((only_setDevIdx _ _ _).mono (by decide) (by decide))).trans
      ((only_mapCmd _ _).mono (by decide) (by decide))
  have h0 : Only cplParts cplRegs s (if l = [] then s else s.emit (.hostData c.tag l)) :=
    Only.ite _ (fun _ => Only.refl _ _ _) (fun _ => (only_emit _ _).mono (by decide) (by decide))
  have key2 : ∀ (t : State) (f : HostSt → HostSt), Only cplParts cplRegs t
      (if moderated ((t.mapHost f).f Rg.IRQ_MOD_CPLN_COUNT) ((t.mapHost f).f Rg.IRQ_MOD_CPLN_TIME) (t.mapHost f).host.pendCpl then
        ((t.mapHost f).irq 0).mapHost fun h => { h with pendCpl := 0 } else t.mapHost f) := fun t f => by
    have a := (only_mapHost t f).mono (show [Part.host] ⊆ cplParts by decide) (show [] ⊆ cplRegs by decide)
    exact Only.ite _ (fun _ => (a.trans ((only_irq _ _).mono (by decide) (by decide))).trans
      ((only_mapHost _ _).mono (by decide) (by decide))) (fun _ => a)
  refine Only.trans (h0.trans (key _)) ?_
  exact Only.ite _ (fun _ => (only_irq _ _).mono (by decide) (by decide)) (fun _ => key2 _ _)

theorem only_putRsp (s : State) (h g : Nat) (c : Cpl) (l : List Byte) : Only cplParts cplRegs s (s.putRsp h g c l) := by
  unfold State.putRsp
  refine Only.trans (Only.foldl _ (fun t x => ?_) _ _) ((only_mapCmd _ _).mono (by decide) (by decide))
  exact (only_queueTx _ _ _).mono (by decide) (by decide)

theorem only_deliver (s : State) (c : Cmd) (k : Cpl) (l : List Byte) : Only cplParts cplRegs s (s.deliver c k l) := by
  unfold State.deliver
  split
  · exact ((only_mapCmd _ _).mono (by decide) (by decide)).trans (only_putRsp _ _ _ _ _)
  · refine Only.trans ((only_mapHost _ fun x => { x with exec := dropExec (ringCode c.route) k.opcode k.tag x.exec }).mono
      (by decide) (by decide)) ?_
    exact Only.ite _ (fun _ => only_putCpl _ _ _) (fun _ => (only_mapHost _ _).mono (by decide) (by decide))

/-- Completing a command changes the completions, what leaves the device and the completion ring's registers. -/
theorem only_complete (s : State) (c : Cmd) (o st : Nat) (r : Res) : Only cplParts cplRegs s (s.complete c o st r) := by
  unfold State.complete
  exact Only.ite _ (fun _ => (only_mapCmd _ _).mono (by decide) (by decide)) (fun _ => only_deliver _ _ _ _)

theorem only_refuse (s : State) (c : Cmd) (o st d : Nat) : Only cplParts cplRegs s (s.refuse c o st d) :=
  only_complete _ _ _ _ _

theorem only_finishLong (s : State) (p : LongRec → Bool) (st : Nat) (r : LongRec → Res) :
    Only cplParts cplRegs s (s.finishLong p st r) := by
  unfold State.finishLong
  split
  · exact ((only_mapCmd _ _).mono (by decide) (by decide)).trans (only_complete _ _ _ _ _)
  · exact Only.refl _ _ _

end Sys2Proof.Machine
end

