-- ==== Sys2Proof/Laws/Events.lean ====
section
/-! SUPPORT. What raising an event and completing a command leave in each field and register. -/

namespace Sys2Proof.Machine

theorem RegsBut.raw {l : List Nat} {s t : State} (h : RegsBut l s t) (x : Fld) (hx : x.off ∉ l) : t.raw x = s.raw x := by
  simp [State.raw, h x.off hx]

theorem State.raise_reg (s : State) (h c b : Nat) (l : List Nat) (q : Nat) (hq : q ∉ eventRegs) : (s.raise h c b l).reg q = s.reg q :=
  (only_raise s _ _ _ _).2 q hq

theorem State.raise_raw (s : State) (h c b : Nat) (l : List Nat) (x : Fld) (hx : x.off ∉ eventRegs) : (s.raise h c b l).raw x = s.raw x :=
  (only_raise s _ _ _ _).2.raw x hx

@[simp] theorem State.raise_lanes (s : State) (h c b : Nat) (l : List Nat) : (s.raise h c b l).lanes = s.lanes :=
  (only_raise s _ _ _ _).1 .lanes (by decide)
@[simp] theorem State.raise_links (s : State) (h c b : Nat) (l : List Nat) : (s.raise h c b l).links = s.links :=
  (only_raise s _ _ _ _).1 .links (by decide)
@[simp] theorem State.raise_flows (s : State) (h c b : Nat) (l : List Nat) : (s.raise h c b l).flows = s.flows :=
  ((only_raise s _ _ _ _).1 .flows (by decide)).1
@[simp] theorem State.raise_flowFx (s : State) (h c b : Nat) (l : List Nat) : (s.raise h c b l).flowFx = s.flowFx :=
  ((only_raise s _ _ _ _).1 .flows (by decide)).2.1
@[simp] theorem State.raise_flowOld (s : State) (h c b : Nat) (l : List Nat) : (s.raise h c b l).flowOld = s.flowOld :=
  ((only_raise s _ _ _ _).1 .flows (by decide)).2.2
@[simp] theorem State.raise_ctrlSecs (s : State) (h c b : Nat) (l : List Nat) : (s.raise h c b l).ctrlSecs = s.ctrlSecs :=
  ((only_raise s _ _ _ _).1 .sections (by decide)).1
@[simp] theorem State.raise_dataSecs (s : State) (h c b : Nat) (l : List Nat) : (s.raise h c b l).dataSecs = s.dataSecs :=
  ((only_raise s _ _ _ _).1 .sections (by decide)).2.1
@[simp] theorem State.raise_soundSecs (s : State) (h c b : Nat) (l : List Nat) : (s.raise h c b l).soundSecs = s.soundSecs :=
  ((only_raise s _ _ _ _).1 .sections (by decide)).2.2
@[simp] theorem State.raise_dlCar (s : State) (h c b : Nat) (l : List Nat) : (s.raise h c b l).dlCar = s.dlCar :=
  ((only_raise s _ _ _ _).1 .downlink (by decide)).1
@[simp] theorem State.raise_dlPend (s : State) (h c b : Nat) (l : List Nat) : (s.raise h c b l).dlPend = s.dlPend :=
  ((only_raise s _ _ _ _).1 .downlink (by decide)).2.1
@[simp] theorem State.raise_dlSince (s : State) (h c b : Nat) (l : List Nat) : (s.raise h c b l).dlSince = s.dlSince :=
  ((only_raise s _ _ _ _).1 .downlink (by decide)).2.2.1
@[simp] theorem State.raise_backoff (s : State) (h c b : Nat) (l : List Nat) : (s.raise h c b l).backoff = s.backoff :=
  ((only_raise s _ _ _ _).1 .downlink (by decide)).2.2.2.1
@[simp] theorem State.raise_backAt (s : State) (h c b : Nat) (l : List Nat) : (s.raise h c b l).backAt = s.backAt :=
  ((only_raise s _ _ _ _).1 .downlink (by decide)).2.2.2.2.1
@[simp] theorem State.raise_dlOcc (s : State) (h c b : Nat) (l : List Nat) : (s.raise h c b l).dlOcc = s.dlOcc :=
  ((only_raise s _ _ _ _).1 .downlink (by decide)).2.2.2.2.2.1
@[simp] theorem State.raise_dlSat (s : State) (h c b : Nat) (l : List Nat) : (s.raise h c b l).dlSat = s.dlSat :=
  ((only_raise s _ _ _ _).1 .downlink (by decide)).2.2.2.2.2.2
@[simp] theorem State.raise_txp (s : State) (h c b : Nat) (l : List Nat) : (s.raise h c b l).txp = s.txp :=
  (only_raise s _ _ _ _).1 .transmit (by decide)
@[simp] theorem State.raise_ulCar (s : State) (h c b : Nat) (l : List Nat) : (s.raise h c b l).ulCar = s.ulCar :=
  ((only_raise s _ _ _ _).1 .uplink (by decide)).1
@[simp] theorem State.raise_ulPend (s : State) (h c b : Nat) (l : List Nat) : (s.raise h c b l).ulPend = s.ulPend :=
  ((only_raise s _ _ _ _).1 .uplink (by decide)).2.1
@[simp] theorem State.raise_ulWas (s : State) (h c b : Nat) (l : List Nat) : (s.raise h c b l).ulWas = s.ulWas :=
  ((only_raise s _ _ _ _).1 .uplink (by decide)).2.2.1
@[simp] theorem State.raise_filt (s : State) (h c b : Nat) (l : List Nat) : (s.raise h c b l).filt = s.filt :=
  ((only_raise s _ _ _ _).1 .uplink (by decide)).2.2.2.1
@[simp] theorem State.raise_parts (s : State) (h c b : Nat) (l : List Nat) : (s.raise h c b l).parts = s.parts :=
  ((only_raise s _ _ _ _).1 .uplink (by decide)).2.2.2.2.1
@[simp] theorem State.raise_sums (s : State) (h c b : Nat) (l : List Nat) : (s.raise h c b l).sums = s.sums :=
  ((only_raise s _ _ _ _).1 .uplink (by decide)).2.2.2.2.2.1
@[simp] theorem State.raise_ulSat (s : State) (h c b : Nat) (l : List Nat) : (s.raise h c b l).ulSat = s.ulSat :=
  ((only_raise s _ _ _ _).1 .uplink (by decide)).2.2.2.2.2.2
@[simp] theorem State.raise_conv (s : State) (h c b : Nat) (l : List Nat) : (s.raise h c b l).conv = s.conv :=
  ((only_raise s _ _ _ _).1 .receive (by decide)).1
@[simp] theorem State.raise_rxp (s : State) (h c b : Nat) (l : List Nat) : (s.raise h c b l).rxp = s.rxp :=
  ((only_raise s _ _ _ _).1 .receive (by decide)).2
@[simp] theorem State.raise_beams (s : State) (h c b : Nat) (l : List Nat) : (s.raise h c b l).beams = s.beams :=
  ((only_raise s _ _ _ _).1 .beams (by decide)).1
@[simp] theorem State.raise_rows (s : State) (h c b : Nat) (l : List Nat) : (s.raise h c b l).rows = s.rows :=
  ((only_raise s _ _ _ _).1 .beams (by decide)).2.1
@[simp] theorem State.raise_stage (s : State) (h c b : Nat) (l : List Nat) : (s.raise h c b l).stage = s.stage :=
  ((only_raise s _ _ _ _).1 .beams (by decide)).2.2.1
@[simp] theorem State.raise_spareRows (s : State) (h c b : Nat) (l : List Nat) : (s.raise h c b l).spareRows = s.spareRows :=
  ((only_raise s _ _ _ _).1 .beams (by decide)).2.2.2.1
@[simp] theorem State.raise_bulk (s : State) (h c b : Nat) (l : List Nat) : (s.raise h c b l).bulk = s.bulk :=
  ((only_raise s _ _ _ _).1 .beams (by decide)).2.2.2.2
@[simp] theorem State.raise_solvRec (s : State) (h c b : Nat) (l : List Nat) : (s.raise h c b l).solvRec = s.solvRec :=
  ((only_raise s _ _ _ _).1 .solver (by decide)).1
@[simp] theorem State.raise_solv (s : State) (h c b : Nat) (l : List Nat) : (s.raise h c b l).solv = s.solv :=
  ((only_raise s _ _ _ _).1 .solver (by decide)).2
@[simp] theorem State.raise_dpd (s : State) (h c b : Nat) (l : List Nat) : (s.raise h c b l).dpd = s.dpd :=
  ((only_raise s _ _ _ _).1 .dpd (by decide)).1
@[simp] theorem State.raise_sharedOrx (s : State) (h c b : Nat) (l : List Nat) : (s.raise h c b l).sharedOrx = s.sharedOrx :=
  ((only_raise s _ _ _ _).1 .dpd (by decide)).2.1
@[simp] theorem State.raise_svcAt (s : State) (h c b : Nat) (l : List Nat) : (s.raise h c b l).svcAt = s.svcAt :=
  ((only_raise s _ _ _ _).1 .dpd (by decide)).2.2
@[simp] theorem State.raise_calp (s : State) (h c b : Nat) (l : List Nat) : (s.raise h c b l).calp = s.calp :=
  ((only_raise s _ _ _ _).1 .calib (by decide)).1
@[simp] theorem State.raise_calRefs (s : State) (h c b : Nat) (l : List Nat) : (s.raise h c b l).calRefs = s.calRefs :=
  ((only_raise s _ _ _ _).1 .calib (by decide)).2.1
@[simp] theorem State.raise_calSets (s : State) (h c b : Nat) (l : List Nat) : (s.raise h c b l).calSets = s.calSets :=
  ((only_raise s _ _ _ _).1 .calib (by decide)).2.2.1
@[simp] theorem State.raise_tie (s : State) (h c b : Nat) (l : List Nat) : (s.raise h c b l).tie = s.tie :=
  ((only_raise s _ _ _ _).1 .calib (by decide)).2.2.2
@[simp] theorem State.raise_grp (s : State) (h c b : Nat) (l : List Nat) : (s.raise h c b l).grp = s.grp :=
  (only_raise s _ _ _ _).1 .groups (by decide)
@[simp] theorem State.raise_hops (s : State) (h c b : Nat) (l : List Nat) : (s.raise h c b l).hops = s.hops :=
  ((only_raise s _ _ _ _).1 .synth (by decide)).1
@[simp] theorem State.raise_lox (s : State) (h c b : Nat) (l : List Nat) : (s.raise h c b l).lox = s.lox :=
  ((only_raise s _ _ _ _).1 .synth (by decide)).2
@[simp] theorem State.raise_ref (s : State) (h c b : Nat) (l : List Nat) : (s.raise h c b l).ref = s.ref :=
  ((only_raise s _ _ _ _).1 .clocks (by decide)).1
@[simp] theorem State.raise_clkTo (s : State) (h c b : Nat) (l : List Nat) : (s.raise h c b l).clkTo = s.clkTo :=
  ((only_raise s _ _ _ _).1 .clocks (by decide)).2
@[simp] theorem State.raise_fe (s : State) (h c b : Nat) (l : List Nat) : (s.raise h c b l).fe = s.fe :=
  ((only_raise s _ _ _ _).1 .frontEnd (by decide)).1
@[simp] theorem State.raise_feLater (s : State) (h c b : Nat) (l : List Nat) : (s.raise h c b l).feLater = s.feLater :=
  ((only_raise s _ _ _ _).1 .frontEnd (by decide)).2.1
@[simp] theorem State.raise_linesOn (s : State) (h c b : Nat) (l : List Nat) : (s.raise h c b l).linesOn = s.linesOn :=
  ((only_raise s _ _ _ _).1 .frontEnd (by decide)).2.2.1
@[simp] theorem State.raise_sched (s : State) (h c b : Nat) (l : List Nat) : (s.raise h c b l).sched = s.sched :=
  ((only_raise s _ _ _ _).1 .frontEnd (by decide)).2.2.2.1
@[simp] theorem State.raise_schedPend (s : State) (h c b : Nat) (l : List Nat) : (s.raise h c b l).schedPend = s.schedPend :=
  ((only_raise s _ _ _ _).1 .frontEnd (by decide)).2.2.2.2.1
@[simp] theorem State.raise_scripts (s : State) (h c b : Nat) (l : List Nat) : (s.raise h c b l).scripts = s.scripts :=
  ((only_raise s _ _ _ _).1 .frontEnd (by decide)).2.2.2.2.2
@[simp] theorem State.raise_eng (s : State) (h c b : Nat) (l : List Nat) : (s.raise h c b l).eng = s.eng :=
  ((only_raise s _ _ _ _).1 .engines (by decide)).1
@[simp] theorem State.raise_slots (s : State) (h c b : Nat) (l : List Nat) : (s.raise h c b l).slots = s.slots :=
  ((only_raise s _ _ _ _).1 .engines (by decide)).2.1
@[simp] theorem State.raise_engHalf (s : State) (h c b : Nat) (l : List Nat) : (s.raise h c b l).engHalf = s.engHalf :=
  ((only_raise s _ _ _ _).1 .engines (by decide)).2.2.1
@[simp] theorem State.raise_engShare (s : State) (h c b : Nat) (l : List Nat) : (s.raise h c b l).engShare = s.engShare :=
  ((only_raise s _ _ _ _).1 .engines (by decide)).2.2.2.1
@[simp] theorem State.raise_imgLoads (s : State) (h c b : Nat) (l : List Nat) : (s.raise h c b l).imgLoads = s.imgLoads :=
  ((only_raise s _ _ _ _).1 .engines (by decide)).2.2.2.2.1
@[simp] theorem State.raise_behind (s : State) (h c b : Nat) (l : List Nat) : (s.raise h c b l).behind = s.behind :=
  ((only_raise s _ _ _ _).1 .engines (by decide)).2.2.2.2.2.1
@[simp] theorem State.raise_pace (s : State) (h c b : Nat) (l : List Nat) : (s.raise h c b l).pace = s.pace :=
  ((only_raise s _ _ _ _).1 .engines (by decide)).2.2.2.2.2.2
@[simp] theorem State.raise_engMem (s : State) (h c b : Nat) (l : List Nat) : (s.raise h c b l).engMem = s.engMem :=
  ((only_raise s _ _ _ _).1 .memories (by decide)).1
@[simp] theorem State.raise_pool (s : State) (h c b : Nat) (l : List Nat) : (s.raise h c b l).pool = s.pool :=
  ((only_raise s _ _ _ _).1 .memories (by decide)).2.1
@[simp] theorem State.raise_prog (s : State) (h c b : Nat) (l : List Nat) : (s.raise h c b l).prog = s.prog :=
  ((only_raise s _ _ _ _).1 .memories (by decide)).2.2
@[simp] theorem State.raise_caps (s : State) (h c b : Nat) (l : List Nat) : (s.raise h c b l).caps = s.caps :=
  ((only_raise s _ _ _ _).1 .captures (by decide)).1
@[simp] theorem State.raise_capNum (s : State) (h c b : Nat) (l : List Nat) : (s.raise h c b l).capNum = s.capNum :=
  ((only_raise s _ _ _ _).1 .captures (by decide)).2
@[simp] theorem State.raise_bias (s : State) (h c b : Nat) (l : List Nat) : (s.raise h c b l).bias = s.bias :=
  (only_raise s _ _ _ _).1 .bias (by decide)
@[simp] theorem State.raise_sens (s : State) (h c b : Nat) (l : List Nat) : (s.raise h c b l).sens = s.sens :=
  ((only_raise s _ _ _ _).1 .monitor (by decide)).1
@[simp] theorem State.raise_mon (s : State) (h c b : Nat) (l : List Nat) : (s.raise h c b l).mon = s.mon :=
  ((only_raise s _ _ _ _).1 .monitor (by decide)).2
@[simp] theorem State.raise_time (s : State) (h c b : Nat) (l : List Nat) : (s.raise h c b l).time = s.time :=
  (only_raise s _ _ _ _).1 .time (by decide)
@[simp] theorem State.raise_rel (s : State) (h c b : Nat) (l : List Nat) : (s.raise h c b l).rel = s.rel :=
  (only_raise s _ _ _ _).1 .faults (by decide)
@[simp] theorem State.raise_nv (s : State) (h c b : Nat) (l : List Nat) : (s.raise h c b l).nv = s.nv :=
  (only_raise s _ _ _ _).1 .store (by decide)
@[simp] theorem State.raise_boot (s : State) (h c b : Nat) (l : List Nat) : (s.raise h c b l).boot = s.boot :=
  (only_raise s _ _ _ _).1 .boot (by decide)
@[simp] theorem State.raise_tap (s : State) (h c b : Nat) (l : List Nat) : (s.raise h c b l).tap = s.tap :=
  (only_raise s _ _ _ _).1 .tap (by decide)
@[simp] theorem State.raise_d2d (s : State) (h c b : Nat) (l : List Nat) : (s.raise h c b l).d2d = s.d2d :=
  ((only_raise s _ _ _ _).1 .d2d (by decide)).1
@[simp] theorem State.raise_mirrored (s : State) (h c b : Nat) (l : List Nat) : (s.raise h c b l).mirrored = s.mirrored :=
  ((only_raise s _ _ _ _).1 .d2d (by decide)).2
@[simp] theorem State.raise_fresh (s : State) (h c b : Nat) (l : List Nat) : (s.raise h c b l).fresh = s.fresh :=
  (only_raise s _ _ _ _).1 .free (by decide)
@[simp] theorem State.raise_pending (s : State) (h c b : Nat) (l : List Nat) : (s.raise h c b l).pending = s.pending :=
  (only_raise s _ _ _ _).1 .queue (by decide)

theorem State.raiseLimited_reg (s : State) (h c b k n : Nat) (l : List Nat) (q : Nat) (hq : q ∉ eventRegs) : (s.raiseLimited h c b k n l).reg q = s.reg q :=
  (only_raiseLimited s _ _ _ _ _ _).2 q hq

theorem State.raiseLimited_raw (s : State) (h c b k n : Nat) (l : List Nat) (x : Fld) (hx : x.off ∉ eventRegs) : (s.raiseLimited h c b k n l).raw x = s.raw x :=
  (only_raiseLimited s _ _ _ _ _ _).2.raw x hx

@[simp] theorem State.raiseLimited_lanes (s : State) (h c b k n : Nat) (l : List Nat) : (s.raiseLimited h c b k n l).lanes = s.lanes :=
  (only_raiseLimited s _ _ _ _ _ _).1 .lanes (by decide)
@[simp] theorem State.raiseLimited_links (s : State) (h c b k n : Nat) (l : List Nat) : (s.raiseLimited h c b k n l).links = s.links :=
  (only_raiseLimited s _ _ _ _ _ _).1 .links (by decide)
@[simp] theorem State.raiseLimited_flows (s : State) (h c b k n : Nat) (l : List Nat) : (s.raiseLimited h c b k n l).flows = s.flows :=
  ((only_raiseLimited s _ _ _ _ _ _).1 .flows (by decide)).1
@[simp] theorem State.raiseLimited_flowFx (s : State) (h c b k n : Nat) (l : List Nat) : (s.raiseLimited h c b k n l).flowFx = s.flowFx :=
  ((only_raiseLimited s _ _ _ _ _ _).1 .flows (by decide)).2.1
@[simp] theorem State.raiseLimited_flowOld (s : State) (h c b k n : Nat) (l : List Nat) : (s.raiseLimited h c b k n l).flowOld = s.flowOld :=
  ((only_raiseLimited s _ _ _ _ _ _).1 .flows (by decide)).2.2
@[simp] theorem State.raiseLimited_ctrlSecs (s : State) (h c b k n : Nat) (l : List Nat) : (s.raiseLimited h c b k n l).ctrlSecs = s.ctrlSecs :=
  ((only_raiseLimited s _ _ _ _ _ _).1 .sections (by decide)).1
@[simp] theorem State.raiseLimited_dataSecs (s : State) (h c b k n : Nat) (l : List Nat) : (s.raiseLimited h c b k n l).dataSecs = s.dataSecs :=
  ((only_raiseLimited s _ _ _ _ _ _).1 .sections (by decide)).2.1
@[simp] theorem State.raiseLimited_soundSecs (s : State) (h c b k n : Nat) (l : List Nat) : (s.raiseLimited h c b k n l).soundSecs = s.soundSecs :=
  ((only_raiseLimited s _ _ _ _ _ _).1 .sections (by decide)).2.2
@[simp] theorem State.raiseLimited_dlCar (s : State) (h c b k n : Nat) (l : List Nat) : (s.raiseLimited h c b k n l).dlCar = s.dlCar :=
  ((only_raiseLimited s _ _ _ _ _ _).1 .downlink (by decide)).1
@[simp] theorem State.raiseLimited_dlPend (s : State) (h c b k n : Nat) (l : List Nat) : (s.raiseLimited h c b k n l).dlPend = s.dlPend :=
  ((only_raiseLimited s _ _ _ _ _ _).1 .downlink (by decide)).2.1
@[simp] theorem State.raiseLimited_dlSince (s : State) (h c b k n : Nat) (l : List Nat) : (s.raiseLimited h c b k n l).dlSince = s.dlSince :=
  ((only_raiseLimited s _ _ _ _ _ _).1 .downlink (by decide)).2.2.1
@[simp] theorem State.raiseLimited_backoff (s : State) (h c b k n : Nat) (l : List Nat) : (s.raiseLimited h c b k n l).backoff = s.backoff :=
  ((only_raiseLimited s _ _ _ _ _ _).1 .downlink (by decide)).2.2.2.1
@[simp] theorem State.raiseLimited_backAt (s : State) (h c b k n : Nat) (l : List Nat) : (s.raiseLimited h c b k n l).backAt = s.backAt :=
  ((only_raiseLimited s _ _ _ _ _ _).1 .downlink (by decide)).2.2.2.2.1
@[simp] theorem State.raiseLimited_dlOcc (s : State) (h c b k n : Nat) (l : List Nat) : (s.raiseLimited h c b k n l).dlOcc = s.dlOcc :=
  ((only_raiseLimited s _ _ _ _ _ _).1 .downlink (by decide)).2.2.2.2.2.1
@[simp] theorem State.raiseLimited_dlSat (s : State) (h c b k n : Nat) (l : List Nat) : (s.raiseLimited h c b k n l).dlSat = s.dlSat :=
  ((only_raiseLimited s _ _ _ _ _ _).1 .downlink (by decide)).2.2.2.2.2.2
@[simp] theorem State.raiseLimited_txp (s : State) (h c b k n : Nat) (l : List Nat) : (s.raiseLimited h c b k n l).txp = s.txp :=
  (only_raiseLimited s _ _ _ _ _ _).1 .transmit (by decide)
@[simp] theorem State.raiseLimited_ulCar (s : State) (h c b k n : Nat) (l : List Nat) : (s.raiseLimited h c b k n l).ulCar = s.ulCar :=
  ((only_raiseLimited s _ _ _ _ _ _).1 .uplink (by decide)).1
@[simp] theorem State.raiseLimited_ulPend (s : State) (h c b k n : Nat) (l : List Nat) : (s.raiseLimited h c b k n l).ulPend = s.ulPend :=
  ((only_raiseLimited s _ _ _ _ _ _).1 .uplink (by decide)).2.1
@[simp] theorem State.raiseLimited_ulWas (s : State) (h c b k n : Nat) (l : List Nat) : (s.raiseLimited h c b k n l).ulWas = s.ulWas :=
  ((only_raiseLimited s _ _ _ _ _ _).1 .uplink (by decide)).2.2.1
@[simp] theorem State.raiseLimited_filt (s : State) (h c b k n : Nat) (l : List Nat) : (s.raiseLimited h c b k n l).filt = s.filt :=
  ((only_raiseLimited s _ _ _ _ _ _).1 .uplink (by decide)).2.2.2.1
@[simp] theorem State.raiseLimited_parts (s : State) (h c b k n : Nat) (l : List Nat) : (s.raiseLimited h c b k n l).parts = s.parts :=
  ((only_raiseLimited s _ _ _ _ _ _).1 .uplink (by decide)).2.2.2.2.1
@[simp] theorem State.raiseLimited_sums (s : State) (h c b k n : Nat) (l : List Nat) : (s.raiseLimited h c b k n l).sums = s.sums :=
  ((only_raiseLimited s _ _ _ _ _ _).1 .uplink (by decide)).2.2.2.2.2.1
@[simp] theorem State.raiseLimited_ulSat (s : State) (h c b k n : Nat) (l : List Nat) : (s.raiseLimited h c b k n l).ulSat = s.ulSat :=
  ((only_raiseLimited s _ _ _ _ _ _).1 .uplink (by decide)).2.2.2.2.2.2
@[simp] theorem State.raiseLimited_conv (s : State) (h c b k n : Nat) (l : List Nat) : (s.raiseLimited h c b k n l).conv = s.conv :=
  ((only_raiseLimited s _ _ _ _ _ _).1 .receive (by decide)).1
@[simp] theorem State.raiseLimited_rxp (s : State) (h c b k n : Nat) (l : List Nat) : (s.raiseLimited h c b k n l).rxp = s.rxp :=
  ((only_raiseLimited s _ _ _ _ _ _).1 .receive (by decide)).2
@[simp] theorem State.raiseLimited_beams (s : State) (h c b k n : Nat) (l : List Nat) : (s.raiseLimited h c b k n l).beams = s.beams :=
  ((only_raiseLimited s _ _ _ _ _ _).1 .beams (by decide)).1
@[simp] theorem State.raiseLimited_rows (s : State) (h c b k n : Nat) (l : List Nat) : (s.raiseLimited h c b k n l).rows = s.rows :=
  ((only_raiseLimited s _ _ _ _ _ _).1 .beams (by decide)).2.1
@[simp] theorem State.raiseLimited_stage (s : State) (h c b k n : Nat) (l : List Nat) : (s.raiseLimited h c b k n l).stage = s.stage :=
  ((only_raiseLimited s _ _ _ _ _ _).1 .beams (by decide)).2.2.1
@[simp] theorem State.raiseLimited_spareRows (s : State) (h c b k n : Nat) (l : List Nat) : (s.raiseLimited h c b k n l).spareRows = s.spareRows :=
  ((only_raiseLimited s _ _ _ _ _ _).1 .beams (by decide)).2.2.2.1
@[simp] theorem State.raiseLimited_bulk (s : State) (h c b k n : Nat) (l : List Nat) : (s.raiseLimited h c b k n l).bulk = s.bulk :=
  ((only_raiseLimited s _ _ _ _ _ _).1 .beams (by decide)).2.2.2.2
@[simp] theorem State.raiseLimited_solvRec (s : State) (h c b k n : Nat) (l : List Nat) : (s.raiseLimited h c b k n l).solvRec = s.solvRec :=
  ((only_raiseLimited s _ _ _ _ _ _).1 .solver (by decide)).1
@[simp] theorem State.raiseLimited_solv (s : State) (h c b k n : Nat) (l : List Nat) : (s.raiseLimited h c b k n l).solv = s.solv :=
  ((only_raiseLimited s _ _ _ _ _ _).1 .solver (by decide)).2
@[simp] theorem State.raiseLimited_dpd (s : State) (h c b k n : Nat) (l : List Nat) : (s.raiseLimited h c b k n l).dpd = s.dpd :=
  ((only_raiseLimited s _ _ _ _ _ _).1 .dpd (by decide)).1
@[simp] theorem State.raiseLimited_sharedOrx (s : State) (h c b k n : Nat) (l : List Nat) : (s.raiseLimited h c b k n l).sharedOrx = s.sharedOrx :=
  ((only_raiseLimited s _ _ _ _ _ _).1 .dpd (by decide)).2.1
@[simp] theorem State.raiseLimited_svcAt (s : State) (h c b k n : Nat) (l : List Nat) : (s.raiseLimited h c b k n l).svcAt = s.svcAt :=
  ((only_raiseLimited s _ _ _ _ _ _).1 .dpd (by decide)).2.2
@[simp] theorem State.raiseLimited_calp (s : State) (h c b k n : Nat) (l : List Nat) : (s.raiseLimited h c b k n l).calp = s.calp :=
  ((only_raiseLimited s _ _ _ _ _ _).1 .calib (by decide)).1
@[simp] theorem State.raiseLimited_calRefs (s : State) (h c b k n : Nat) (l : List Nat) : (s.raiseLimited h c b k n l).calRefs = s.calRefs :=
  ((only_raiseLimited s _ _ _ _ _ _).1 .calib (by decide)).2.1
@[simp] theorem State.raiseLimited_calSets (s : State) (h c b k n : Nat) (l : List Nat) : (s.raiseLimited h c b k n l).calSets = s.calSets :=
  ((only_raiseLimited s _ _ _ _ _ _).1 .calib (by decide)).2.2.1
@[simp] theorem State.raiseLimited_tie (s : State) (h c b k n : Nat) (l : List Nat) : (s.raiseLimited h c b k n l).tie = s.tie :=
  ((only_raiseLimited s _ _ _ _ _ _).1 .calib (by decide)).2.2.2
@[simp] theorem State.raiseLimited_grp (s : State) (h c b k n : Nat) (l : List Nat) : (s.raiseLimited h c b k n l).grp = s.grp :=
  (only_raiseLimited s _ _ _ _ _ _).1 .groups (by decide)
@[simp] theorem State.raiseLimited_hops (s : State) (h c b k n : Nat) (l : List Nat) : (s.raiseLimited h c b k n l).hops = s.hops :=
  ((only_raiseLimited s _ _ _ _ _ _).1 .synth (by decide)).1
@[simp] theorem State.raiseLimited_lox (s : State) (h c b k n : Nat) (l : List Nat) : (s.raiseLimited h c b k n l).lox = s.lox :=
  ((only_raiseLimited s _ _ _ _ _ _).1 .synth (by decide)).2
@[simp] theorem State.raiseLimited_ref (s : State) (h c b k n : Nat) (l : List Nat) : (s.raiseLimited h c b k n l).ref = s.ref :=
  ((only_raiseLimited s _ _ _ _ _ _).1 .clocks (by decide)).1
@[simp] theorem State.raiseLimited_clkTo (s : State) (h c b k n : Nat) (l : List Nat) : (s.raiseLimited h c b k n l).clkTo = s.clkTo :=
  ((only_raiseLimited s _ _ _ _ _ _).1 .clocks (by decide)).2
@[simp] theorem State.raiseLimited_fe (s : State) (h c b k n : Nat) (l : List Nat) : (s.raiseLimited h c b k n l).fe = s.fe :=
  ((only_raiseLimited s _ _ _ _ _ _).1 .frontEnd (by decide)).1
@[simp] theorem State.raiseLimited_feLater (s : State) (h c b k n : Nat) (l : List Nat) : (s.raiseLimited h c b k n l).feLater = s.feLater :=
  ((only_raiseLimited s _ _ _ _ _ _).1 .frontEnd (by decide)).2.1
@[simp] theorem State.raiseLimited_linesOn (s : State) (h c b k n : Nat) (l : List Nat) : (s.raiseLimited h c b k n l).linesOn = s.linesOn :=
  ((only_raiseLimited s _ _ _ _ _ _).1 .frontEnd (by decide)).2.2.1
@[simp] theorem State.raiseLimited_sched (s : State) (h c b k n : Nat) (l : List Nat) : (s.raiseLimited h c b k n l).sched = s.sched :=
  ((only_raiseLimited s _ _ _ _ _ _).1 .frontEnd (by decide)).2.2.2.1
@[simp] theorem State.raiseLimited_schedPend (s : State) (h c b k n : Nat) (l : List Nat) : (s.raiseLimited h c b k n l).schedPend = s.schedPend :=
  ((only_raiseLimited s _ _ _ _ _ _).1 .frontEnd (by decide)).2.2.2.2.1
@[simp] theorem State.raiseLimited_scripts (s : State) (h c b k n : Nat) (l : List Nat) : (s.raiseLimited h c b k n l).scripts = s.scripts :=
  ((only_raiseLimited s _ _ _ _ _ _).1 .frontEnd (by decide)).2.2.2.2.2
@[simp] theorem State.raiseLimited_eng (s : State) (h c b k n : Nat) (l : List Nat) : (s.raiseLimited h c b k n l).eng = s.eng :=
  ((only_raiseLimited s _ _ _ _ _ _).1 .engines (by decide)).1
@[simp] theorem State.raiseLimited_slots (s : State) (h c b k n : Nat) (l : List Nat) : (s.raiseLimited h c b k n l).slots = s.slots :=
  ((only_raiseLimited s _ _ _ _ _ _).1 .engines (by decide)).2.1
@[simp] theorem State.raiseLimited_engHalf (s : State) (h c b k n : Nat) (l : List Nat) : (s.raiseLimited h c b k n l).engHalf = s.engHalf :=
  ((only_raiseLimited s _ _ _ _ _ _).1 .engines (by decide)).2.2.1
@[simp] theorem State.raiseLimited_engShare (s : State) (h c b k n : Nat) (l : List Nat) : (s.raiseLimited h c b k n l).engShare = s.engShare :=
  ((only_raiseLimited s _ _ _ _ _ _).1 .engines (by decide)).2.2.2.1
@[simp] theorem State.raiseLimited_imgLoads (s : State) (h c b k n : Nat) (l : List Nat) : (s.raiseLimited h c b k n l).imgLoads = s.imgLoads :=
  ((only_raiseLimited s _ _ _ _ _ _).1 .engines (by decide)).2.2.2.2.1
@[simp] theorem State.raiseLimited_behind (s : State) (h c b k n : Nat) (l : List Nat) : (s.raiseLimited h c b k n l).behind = s.behind :=
  ((only_raiseLimited s _ _ _ _ _ _).1 .engines (by decide)).2.2.2.2.2.1
@[simp] theorem State.raiseLimited_pace (s : State) (h c b k n : Nat) (l : List Nat) : (s.raiseLimited h c b k n l).pace = s.pace :=
  ((only_raiseLimited s _ _ _ _ _ _).1 .engines (by decide)).2.2.2.2.2.2
@[simp] theorem State.raiseLimited_engMem (s : State) (h c b k n : Nat) (l : List Nat) : (s.raiseLimited h c b k n l).engMem = s.engMem :=
  ((only_raiseLimited s _ _ _ _ _ _).1 .memories (by decide)).1
@[simp] theorem State.raiseLimited_pool (s : State) (h c b k n : Nat) (l : List Nat) : (s.raiseLimited h c b k n l).pool = s.pool :=
  ((only_raiseLimited s _ _ _ _ _ _).1 .memories (by decide)).2.1
@[simp] theorem State.raiseLimited_prog (s : State) (h c b k n : Nat) (l : List Nat) : (s.raiseLimited h c b k n l).prog = s.prog :=
  ((only_raiseLimited s _ _ _ _ _ _).1 .memories (by decide)).2.2
@[simp] theorem State.raiseLimited_caps (s : State) (h c b k n : Nat) (l : List Nat) : (s.raiseLimited h c b k n l).caps = s.caps :=
  ((only_raiseLimited s _ _ _ _ _ _).1 .captures (by decide)).1
@[simp] theorem State.raiseLimited_capNum (s : State) (h c b k n : Nat) (l : List Nat) : (s.raiseLimited h c b k n l).capNum = s.capNum :=
  ((only_raiseLimited s _ _ _ _ _ _).1 .captures (by decide)).2
@[simp] theorem State.raiseLimited_bias (s : State) (h c b k n : Nat) (l : List Nat) : (s.raiseLimited h c b k n l).bias = s.bias :=
  (only_raiseLimited s _ _ _ _ _ _).1 .bias (by decide)
@[simp] theorem State.raiseLimited_sens (s : State) (h c b k n : Nat) (l : List Nat) : (s.raiseLimited h c b k n l).sens = s.sens :=
  ((only_raiseLimited s _ _ _ _ _ _).1 .monitor (by decide)).1
@[simp] theorem State.raiseLimited_mon (s : State) (h c b k n : Nat) (l : List Nat) : (s.raiseLimited h c b k n l).mon = s.mon :=
  ((only_raiseLimited s _ _ _ _ _ _).1 .monitor (by decide)).2
@[simp] theorem State.raiseLimited_time (s : State) (h c b k n : Nat) (l : List Nat) : (s.raiseLimited h c b k n l).time = s.time :=
  (only_raiseLimited s _ _ _ _ _ _).1 .time (by decide)
@[simp] theorem State.raiseLimited_rel (s : State) (h c b k n : Nat) (l : List Nat) : (s.raiseLimited h c b k n l).rel = s.rel :=
  (only_raiseLimited s _ _ _ _ _ _).1 .faults (by decide)
@[simp] theorem State.raiseLimited_nv (s : State) (h c b k n : Nat) (l : List Nat) : (s.raiseLimited h c b k n l).nv = s.nv :=
  (only_raiseLimited s _ _ _ _ _ _).1 .store (by decide)
@[simp] theorem State.raiseLimited_boot (s : State) (h c b k n : Nat) (l : List Nat) : (s.raiseLimited h c b k n l).boot = s.boot :=
  (only_raiseLimited s _ _ _ _ _ _).1 .boot (by decide)
@[simp] theorem State.raiseLimited_tap (s : State) (h c b k n : Nat) (l : List Nat) : (s.raiseLimited h c b k n l).tap = s.tap :=
  (only_raiseLimited s _ _ _ _ _ _).1 .tap (by decide)
@[simp] theorem State.raiseLimited_d2d (s : State) (h c b k n : Nat) (l : List Nat) : (s.raiseLimited h c b k n l).d2d = s.d2d :=
  ((only_raiseLimited s _ _ _ _ _ _).1 .d2d (by decide)).1
@[simp] theorem State.raiseLimited_mirrored (s : State) (h c b k n : Nat) (l : List Nat) : (s.raiseLimited h c b k n l).mirrored = s.mirrored :=
  ((only_raiseLimited s _ _ _ _ _ _).1 .d2d (by decide)).2
@[simp] theorem State.raiseLimited_fresh (s : State) (h c b k n : Nat) (l : List Nat) : (s.raiseLimited h c b k n l).fresh = s.fresh :=
  (only_raiseLimited s _ _ _ _ _ _).1 .free (by decide)
@[simp] theorem State.raiseLimited_pending (s : State) (h c b k n : Nat) (l : List Nat) : (s.raiseLimited h c b k n l).pending = s.pending :=
  (only_raiseLimited s _ _ _ _ _ _).1 .queue (by decide)

theorem State.raiseOnce_reg (s : State) (h c b k : Nat) (l : List Nat) (q : Nat) (hq : q ∉ eventRegs) : (s.raiseOnce h c b k l).reg q = s.reg q :=
  (only_raiseOnce s _ _ _ _ _).2 q hq

theorem State.raiseOnce_raw (s : State) (h c b k : Nat) (l : List Nat) (x : Fld) (hx : x.off ∉ eventRegs) : (s.raiseOnce h c b k l).raw x = s.raw x :=
  (only_raiseOnce s _ _ _ _ _).2.raw x hx

@[simp] theorem State.raiseOnce_lanes (s : State) (h c b k : Nat) (l : List Nat) : (s.raiseOnce h c b k l).lanes = s.lanes :=
  (only_raiseOnce s _ _ _ _ _).1 .lanes (by decide)
@[simp] theorem State.raiseOnce_links (s : State) (h c b k : Nat) (l : List Nat) : (s.raiseOnce h c b k l).links = s.links :=
  (only_raiseOnce s _ _ _ _ _).1 .links (by decide)
@[simp] theorem State.raiseOnce_flows (s : State) (h c b k : Nat) (l : List Nat) : (s.raiseOnce h c b k l).flows = s.flows :=
  ((only_raiseOnce s _ _ _ _ _).1 .flows (by decide)).1
@[simp] theorem State.raiseOnce_flowFx (s : State) (h c b k : Nat) (l : List Nat) : (s.raiseOnce h c b k l).flowFx = s.flowFx :=
  ((only_raiseOnce s _ _ _ _ _).1 .flows (by decide)).2.1
@[simp] theorem State.raiseOnce_flowOld (s : State) (h c b k : Nat) (l : List Nat) : (s.raiseOnce h c b k l).flowOld = s.flowOld :=
  ((only_raiseOnce s _ _ _ _ _).1 .flows (by decide)).2.2
@[simp] theorem State.raiseOnce_ctrlSecs (s : State) (h c b k : Nat) (l : List Nat) : (s.raiseOnce h c b k l).ctrlSecs = s.ctrlSecs :=
  ((only_raiseOnce s _ _ _ _ _).1 .sections (by decide)).1
@[simp] theorem State.raiseOnce_dataSecs (s : State) (h c b k : Nat) (l : List Nat) : (s.raiseOnce h c b k l).dataSecs = s.dataSecs :=
  ((only_raiseOnce s _ _ _ _ _).1 .sections (by decide)).2.1
@[simp] theorem State.raiseOnce_soundSecs (s : State) (h c b k : Nat) (l : List Nat) : (s.raiseOnce h c b k l).soundSecs = s.soundSecs :=
  ((only_raiseOnce s _ _ _ _ _).1 .sections (by decide)).2.2
@[simp] theorem State.raiseOnce_dlCar (s : State) (h c b k : Nat) (l : List Nat) : (s.raiseOnce h c b k l).dlCar = s.dlCar :=
  ((only_raiseOnce s _ _ _ _ _).1 .downlink (by decide)).1
@[simp] theorem State.raiseOnce_dlPend (s : State) (h c b k : Nat) (l : List Nat) : (s.raiseOnce h c b k l).dlPend = s.dlPend :=
  ((only_raiseOnce s _ _ _ _ _).1 .downlink (by decide)).2.1
@[simp] theorem State.raiseOnce_dlSince (s : State) (h c b k : Nat) (l : List Nat) : (s.raiseOnce h c b k l).dlSince = s.dlSince :=
  ((only_raiseOnce s _ _ _ _ _).1 .downlink (by decide)).2.2.1
@[simp] theorem State.raiseOnce_backoff (s : State) (h c b k : Nat) (l : List Nat) : (s.raiseOnce h c b k l).backoff = s.backoff :=
  ((only_raiseOnce s _ _ _ _ _).1 .downlink (by decide)).2.2.2.1
@[simp] theorem State.raiseOnce_backAt (s : State) (h c b k : Nat) (l : List Nat) : (s.raiseOnce h c b k l).backAt = s.backAt :=
  ((only_raiseOnce s _ _ _ _ _).1 .downlink (by decide)).2.2.2.2.1
@[simp] theorem State.raiseOnce_dlOcc (s : State) (h c b k : Nat) (l : List Nat) : (s.raiseOnce h c b k l).dlOcc = s.dlOcc :=
  ((only_raiseOnce s _ _ _ _ _).1 .downlink (by decide)).2.2.2.2.2.1
@[simp] theorem State.raiseOnce_dlSat (s : State) (h c b k : Nat) (l : List Nat) : (s.raiseOnce h c b k l).dlSat = s.dlSat :=
  ((only_raiseOnce s _ _ _ _ _).1 .downlink (by decide)).2.2.2.2.2.2
@[simp] theorem State.raiseOnce_txp (s : State) (h c b k : Nat) (l : List Nat) : (s.raiseOnce h c b k l).txp = s.txp :=
  (only_raiseOnce s _ _ _ _ _).1 .transmit (by decide)
@[simp] theorem State.raiseOnce_ulCar (s : State) (h c b k : Nat) (l : List Nat) : (s.raiseOnce h c b k l).ulCar = s.ulCar :=
  ((only_raiseOnce s _ _ _ _ _).1 .uplink (by decide)).1
@[simp] theorem State.raiseOnce_ulPend (s : State) (h c b k : Nat) (l : List Nat) : (s.raiseOnce h c b k l).ulPend = s.ulPend :=
  ((only_raiseOnce s _ _ _ _ _).1 .uplink (by decide)).2.1
@[simp] theorem State.raiseOnce_ulWas (s : State) (h c b k : Nat) (l : List Nat) : (s.raiseOnce h c b k l).ulWas = s.ulWas :=
  ((only_raiseOnce s _ _ _ _ _).1 .uplink (by decide)).2.2.1
@[simp] theorem State.raiseOnce_filt (s : State) (h c b k : Nat) (l : List Nat) : (s.raiseOnce h c b k l).filt = s.filt :=
  ((only_raiseOnce s _ _ _ _ _).1 .uplink (by decide)).2.2.2.1
@[simp] theorem State.raiseOnce_parts (s : State) (h c b k : Nat) (l : List Nat) : (s.raiseOnce h c b k l).parts = s.parts :=
  ((only_raiseOnce s _ _ _ _ _).1 .uplink (by decide)).2.2.2.2.1
@[simp] theorem State.raiseOnce_sums (s : State) (h c b k : Nat) (l : List Nat) : (s.raiseOnce h c b k l).sums = s.sums :=
  ((only_raiseOnce s _ _ _ _ _).1 .uplink (by decide)).2.2.2.2.2.1
@[simp] theorem State.raiseOnce_ulSat (s : State) (h c b k : Nat) (l : List Nat) : (s.raiseOnce h c b k l).ulSat = s.ulSat :=
  ((only_raiseOnce s _ _ _ _ _).1 .uplink (by decide)).2.2.2.2.2.2
@[simp] theorem State.raiseOnce_conv (s : State) (h c b k : Nat) (l : List Nat) : (s.raiseOnce h c b k l).conv = s.conv :=
  ((only_raiseOnce s _ _ _ _ _).1 .receive (by decide)).1
@[simp] theorem State.raiseOnce_rxp (s : State) (h c b k : Nat) (l : List Nat) : (s.raiseOnce h c b k l).rxp = s.rxp :=
  ((only_raiseOnce s _ _ _ _ _).1 .receive (by decide)).2
@[simp] theorem State.raiseOnce_beams (s : State) (h c b k : Nat) (l : List Nat) : (s.raiseOnce h c b k l).beams = s.beams :=
  ((only_raiseOnce s _ _ _ _ _).1 .beams (by decide)).1
@[simp] theorem State.raiseOnce_rows (s : State) (h c b k : Nat) (l : List Nat) : (s.raiseOnce h c b k l).rows = s.rows :=
  ((only_raiseOnce s _ _ _ _ _).1 .beams (by decide)).2.1
@[simp] theorem State.raiseOnce_stage (s : State) (h c b k : Nat) (l : List Nat) : (s.raiseOnce h c b k l).stage = s.stage :=
  ((only_raiseOnce s _ _ _ _ _).1 .beams (by decide)).2.2.1
@[simp] theorem State.raiseOnce_spareRows (s : State) (h c b k : Nat) (l : List Nat) : (s.raiseOnce h c b k l).spareRows = s.spareRows :=
  ((only_raiseOnce s _ _ _ _ _).1 .beams (by decide)).2.2.2.1
@[simp] theorem State.raiseOnce_bulk (s : State) (h c b k : Nat) (l : List Nat) : (s.raiseOnce h c b k l).bulk = s.bulk :=
  ((only_raiseOnce s _ _ _ _ _).1 .beams (by decide)).2.2.2.2
@[simp] theorem State.raiseOnce_solvRec (s : State) (h c b k : Nat) (l : List Nat) : (s.raiseOnce h c b k l).solvRec = s.solvRec :=
  ((only_raiseOnce s _ _ _ _ _).1 .solver (by decide)).1
@[simp] theorem State.raiseOnce_solv (s : State) (h c b k : Nat) (l : List Nat) : (s.raiseOnce h c b k l).solv = s.solv :=
  ((only_raiseOnce s _ _ _ _ _).1 .solver (by decide)).2
@[simp] theorem State.raiseOnce_dpd (s : State) (h c b k : Nat) (l : List Nat) : (s.raiseOnce h c b k l).dpd = s.dpd :=
  ((only_raiseOnce s _ _ _ _ _).1 .dpd (by decide)).1
@[simp] theorem State.raiseOnce_sharedOrx (s : State) (h c b k : Nat) (l : List Nat) : (s.raiseOnce h c b k l).sharedOrx = s.sharedOrx :=
  ((only_raiseOnce s _ _ _ _ _).1 .dpd (by decide)).2.1
@[simp] theorem State.raiseOnce_svcAt (s : State) (h c b k : Nat) (l : List Nat) : (s.raiseOnce h c b k l).svcAt = s.svcAt :=
  ((only_raiseOnce s _ _ _ _ _).1 .dpd (by decide)).2.2
@[simp] theorem State.raiseOnce_calp (s : State) (h c b k : Nat) (l : List Nat) : (s.raiseOnce h c b k l).calp = s.calp :=
  ((only_raiseOnce s _ _ _ _ _).1 .calib (by decide)).1
@[simp] theorem State.raiseOnce_calRefs (s : State) (h c b k : Nat) (l : List Nat) : (s.raiseOnce h c b k l).calRefs = s.calRefs :=
  ((only_raiseOnce s _ _ _ _ _).1 .calib (by decide)).2.1
@[simp] theorem State.raiseOnce_calSets (s : State) (h c b k : Nat) (l : List Nat) : (s.raiseOnce h c b k l).calSets = s.calSets :=
  ((only_raiseOnce s _ _ _ _ _).1 .calib (by decide)).2.2.1
@[simp] theorem State.raiseOnce_tie (s : State) (h c b k : Nat) (l : List Nat) : (s.raiseOnce h c b k l).tie = s.tie :=
  ((only_raiseOnce s _ _ _ _ _).1 .calib (by decide)).2.2.2
@[simp] theorem State.raiseOnce_grp (s : State) (h c b k : Nat) (l : List Nat) : (s.raiseOnce h c b k l).grp = s.grp :=
  (only_raiseOnce s _ _ _ _ _).1 .groups (by decide)
@[simp] theorem State.raiseOnce_hops (s : State) (h c b k : Nat) (l : List Nat) : (s.raiseOnce h c b k l).hops = s.hops :=
  ((only_raiseOnce s _ _ _ _ _).1 .synth (by decide)).1
@[simp] theorem State.raiseOnce_lox (s : State) (h c b k : Nat) (l : List Nat) : (s.raiseOnce h c b k l).lox = s.lox :=
  ((only_raiseOnce s _ _ _ _ _).1 .synth (by decide)).2
@[simp] theorem State.raiseOnce_ref (s : State) (h c b k : Nat) (l : List Nat) : (s.raiseOnce h c b k l).ref = s.ref :=
  ((only_raiseOnce s _ _ _ _ _).1 .clocks (by decide)).1
@[simp] theorem State.raiseOnce_clkTo (s : State) (h c b k : Nat) (l : List Nat) : (s.raiseOnce h c b k l).clkTo = s.clkTo :=
  ((only_raiseOnce s _ _ _ _ _).1 .clocks (by decide)).2
@[simp] theorem State.raiseOnce_fe (s : State) (h c b k : Nat) (l : List Nat) : (s.raiseOnce h c b k l).fe = s.fe :=
  ((only_raiseOnce s _ _ _ _ _).1 .frontEnd (by decide)).1
@[simp] theorem State.raiseOnce_feLater (s : State) (h c b k : Nat) (l : List Nat) : (s.raiseOnce h c b k l).feLater = s.feLater :=
  ((only_raiseOnce s _ _ _ _ _).1 .frontEnd (by decide)).2.1
@[simp] theorem State.raiseOnce_linesOn (s : State) (h c b k : Nat) (l : List Nat) : (s.raiseOnce h c b k l).linesOn = s.linesOn :=
  ((only_raiseOnce s _ _ _ _ _).1 .frontEnd (by decide)).2.2.1
@[simp] theorem State.raiseOnce_sched (s : State) (h c b k : Nat) (l : List Nat) : (s.raiseOnce h c b k l).sched = s.sched :=
  ((only_raiseOnce s _ _ _ _ _).1 .frontEnd (by decide)).2.2.2.1
@[simp] theorem State.raiseOnce_schedPend (s : State) (h c b k : Nat) (l : List Nat) : (s.raiseOnce h c b k l).schedPend = s.schedPend :=
  ((only_raiseOnce s _ _ _ _ _).1 .frontEnd (by decide)).2.2.2.2.1
@[simp] theorem State.raiseOnce_scripts (s : State) (h c b k : Nat) (l : List Nat) : (s.raiseOnce h c b k l).scripts = s.scripts :=
  ((only_raiseOnce s _ _ _ _ _).1 .frontEnd (by decide)).2.2.2.2.2
@[simp] theorem State.raiseOnce_eng (s : State) (h c b k : Nat) (l : List Nat) : (s.raiseOnce h c b k l).eng = s.eng :=
  ((only_raiseOnce s _ _ _ _ _).1 .engines (by decide)).1
@[simp] theorem State.raiseOnce_slots (s : State) (h c b k : Nat) (l : List Nat) : (s.raiseOnce h c b k l).slots = s.slots :=
  ((only_raiseOnce s _ _ _ _ _).1 .engines (by decide)).2.1
@[simp] theorem State.raiseOnce_engHalf (s : State) (h c b k : Nat) (l : List Nat) : (s.raiseOnce h c b k l).engHalf = s.engHalf :=
  ((only_raiseOnce s _ _ _ _ _).1 .engines (by decide)).2.2.1
@[simp] theorem State.raiseOnce_engShare (s : State) (h c b k : Nat) (l : List Nat) : (s.raiseOnce h c b k l).engShare = s.engShare :=
  ((only_raiseOnce s _ _ _ _ _).1 .engines (by decide)).2.2.2.1
@[simp] theorem State.raiseOnce_imgLoads (s : State) (h c b k : Nat) (l : List Nat) : (s.raiseOnce h c b k l).imgLoads = s.imgLoads :=
  ((only_raiseOnce s _ _ _ _ _).1 .engines (by decide)).2.2.2.2.1
@[simp] theorem State.raiseOnce_behind (s : State) (h c b k : Nat) (l : List Nat) : (s.raiseOnce h c b k l).behind = s.behind :=
  ((only_raiseOnce s _ _ _ _ _).1 .engines (by decide)).2.2.2.2.2.1
@[simp] theorem State.raiseOnce_pace (s : State) (h c b k : Nat) (l : List Nat) : (s.raiseOnce h c b k l).pace = s.pace :=
  ((only_raiseOnce s _ _ _ _ _).1 .engines (by decide)).2.2.2.2.2.2
@[simp] theorem State.raiseOnce_engMem (s : State) (h c b k : Nat) (l : List Nat) : (s.raiseOnce h c b k l).engMem = s.engMem :=
  ((only_raiseOnce s _ _ _ _ _).1 .memories (by decide)).1
@[simp] theorem State.raiseOnce_pool (s : State) (h c b k : Nat) (l : List Nat) : (s.raiseOnce h c b k l).pool = s.pool :=
  ((only_raiseOnce s _ _ _ _ _).1 .memories (by decide)).2.1
@[simp] theorem State.raiseOnce_prog (s : State) (h c b k : Nat) (l : List Nat) : (s.raiseOnce h c b k l).prog = s.prog :=
  ((only_raiseOnce s _ _ _ _ _).1 .memories (by decide)).2.2
@[simp] theorem State.raiseOnce_caps (s : State) (h c b k : Nat) (l : List Nat) : (s.raiseOnce h c b k l).caps = s.caps :=
  ((only_raiseOnce s _ _ _ _ _).1 .captures (by decide)).1
@[simp] theorem State.raiseOnce_capNum (s : State) (h c b k : Nat) (l : List Nat) : (s.raiseOnce h c b k l).capNum = s.capNum :=
  ((only_raiseOnce s _ _ _ _ _).1 .captures (by decide)).2
@[simp] theorem State.raiseOnce_bias (s : State) (h c b k : Nat) (l : List Nat) : (s.raiseOnce h c b k l).bias = s.bias :=
  (only_raiseOnce s _ _ _ _ _).1 .bias (by decide)
@[simp] theorem State.raiseOnce_sens (s : State) (h c b k : Nat) (l : List Nat) : (s.raiseOnce h c b k l).sens = s.sens :=
  ((only_raiseOnce s _ _ _ _ _).1 .monitor (by decide)).1
@[simp] theorem State.raiseOnce_mon (s : State) (h c b k : Nat) (l : List Nat) : (s.raiseOnce h c b k l).mon = s.mon :=
  ((only_raiseOnce s _ _ _ _ _).1 .monitor (by decide)).2
@[simp] theorem State.raiseOnce_time (s : State) (h c b k : Nat) (l : List Nat) : (s.raiseOnce h c b k l).time = s.time :=
  (only_raiseOnce s _ _ _ _ _).1 .time (by decide)
@[simp] theorem State.raiseOnce_rel (s : State) (h c b k : Nat) (l : List Nat) : (s.raiseOnce h c b k l).rel = s.rel :=
  (only_raiseOnce s _ _ _ _ _).1 .faults (by decide)
@[simp] theorem State.raiseOnce_nv (s : State) (h c b k : Nat) (l : List Nat) : (s.raiseOnce h c b k l).nv = s.nv :=
  (only_raiseOnce s _ _ _ _ _).1 .store (by decide)
@[simp] theorem State.raiseOnce_boot (s : State) (h c b k : Nat) (l : List Nat) : (s.raiseOnce h c b k l).boot = s.boot :=
  (only_raiseOnce s _ _ _ _ _).1 .boot (by decide)
@[simp] theorem State.raiseOnce_tap (s : State) (h c b k : Nat) (l : List Nat) : (s.raiseOnce h c b k l).tap = s.tap :=
  (only_raiseOnce s _ _ _ _ _).1 .tap (by decide)
@[simp] theorem State.raiseOnce_d2d (s : State) (h c b k : Nat) (l : List Nat) : (s.raiseOnce h c b k l).d2d = s.d2d :=
  ((only_raiseOnce s _ _ _ _ _).1 .d2d (by decide)).1
@[simp] theorem State.raiseOnce_mirrored (s : State) (h c b k : Nat) (l : List Nat) : (s.raiseOnce h c b k l).mirrored = s.mirrored :=
  ((only_raiseOnce s _ _ _ _ _).1 .d2d (by decide)).2
@[simp] theorem State.raiseOnce_fresh (s : State) (h c b k : Nat) (l : List Nat) : (s.raiseOnce h c b k l).fresh = s.fresh :=
  (only_raiseOnce s _ _ _ _ _).1 .free (by decide)
@[simp] theorem State.raiseOnce_pending (s : State) (h c b k : Nat) (l : List Nat) : (s.raiseOnce h c b k l).pending = s.pending :=
  (only_raiseOnce s _ _ _ _ _).1 .queue (by decide)

theorem State.complete_reg (s : State) (c : Cmd) (o st : Nat) (r : Res) (q : Nat) (hq : q ∉ cplRegs) : (s.complete c o st r).reg q = s.reg q :=
  (only_complete s _ _ _ _).2 q hq

theorem State.complete_raw (s : State) (c : Cmd) (o st : Nat) (r : Res) (x : Fld) (hx : x.off ∉ cplRegs) : (s.complete c o st r).raw x = s.raw x :=
  (only_complete s _ _ _ _).2.raw x hx

@[simp] theorem State.complete_lanes (s : State) (c : Cmd) (o st : Nat) (r : Res) : (s.complete c o st r).lanes = s.lanes :=
  (only_complete s _ _ _ _).1 .lanes (by decide)
@[simp] theorem State.complete_links (s : State) (c : Cmd) (o st : Nat) (r : Res) : (s.complete c o st r).links = s.links :=
  (only_complete s _ _ _ _).1 .links (by decide)
@[simp] theorem State.complete_flows (s : State) (c : Cmd) (o st : Nat) (r : Res) : (s.complete c o st r).flows = s.flows :=
  ((only_complete s _ _ _ _).1 .flows (by decide)).1
@[simp] theorem State.complete_flowFx (s : State) (c : Cmd) (o st : Nat) (r : Res) : (s.complete c o st r).flowFx = s.flowFx :=
  ((only_complete s _ _ _ _).1 .flows (by decide)).2.1
@[simp] theorem State.complete_flowOld (s : State) (c : Cmd) (o st : Nat) (r : Res) : (s.complete c o st r).flowOld = s.flowOld :=
  ((only_complete s _ _ _ _).1 .flows (by decide)).2.2
@[simp] theorem State.complete_ctrlSecs (s : State) (c : Cmd) (o st : Nat) (r : Res) : (s.complete c o st r).ctrlSecs = s.ctrlSecs :=
  ((only_complete s _ _ _ _).1 .sections (by decide)).1
@[simp] theorem State.complete_dataSecs (s : State) (c : Cmd) (o st : Nat) (r : Res) : (s.complete c o st r).dataSecs = s.dataSecs :=
  ((only_complete s _ _ _ _).1 .sections (by decide)).2.1
@[simp] theorem State.complete_soundSecs (s : State) (c : Cmd) (o st : Nat) (r : Res) : (s.complete c o st r).soundSecs = s.soundSecs :=
  ((only_complete s _ _ _ _).1 .sections (by decide)).2.2
@[simp] theorem State.complete_dlCar (s : State) (c : Cmd) (o st : Nat) (r : Res) : (s.complete c o st r).dlCar = s.dlCar :=
  ((only_complete s _ _ _ _).1 .downlink (by decide)).1
@[simp] theorem State.complete_dlPend (s : State) (c : Cmd) (o st : Nat) (r : Res) : (s.complete c o st r).dlPend = s.dlPend :=
  ((only_complete s _ _ _ _).1 .downlink (by decide)).2.1
@[simp] theorem State.complete_dlSince (s : State) (c : Cmd) (o st : Nat) (r : Res) : (s.complete c o st r).dlSince = s.dlSince :=
  ((only_complete s _ _ _ _).1 .downlink (by decide)).2.2.1
@[simp] theorem State.complete_backoff (s : State) (c : Cmd) (o st : Nat) (r : Res) : (s.complete c o st r).backoff = s.backoff :=
  ((only_complete s _ _ _ _).1 .downlink (by decide)).2.2.2.1
@[simp] theorem State.complete_backAt (s : State) (c : Cmd) (o st : Nat) (r : Res) : (s.complete c o st r).backAt = s.backAt :=
  ((only_complete s _ _ _ _).1 .downlink (by decide)).2.2.2.2.1
@[simp] theorem State.complete_dlOcc (s : State) (c : Cmd) (o st : Nat) (r : Res) : (s.complete c o st r).dlOcc = s.dlOcc :=
  ((only_complete s _ _ _ _).1 .downlink (by decide)).2.2.2.2.2.1
@[simp] theorem State.complete_dlSat (s : State) (c : Cmd) (o st : Nat) (r : Res) : (s.complete c o st r).dlSat = s.dlSat :=
  ((only_complete s _ _ _ _).1 .downlink (by decide)).2.2.2.2.2.2
@[simp] theorem State.complete_txp (s : State) (c : Cmd) (o st : Nat) (r : Res) : (s.complete c o st r).txp = s.txp :=
  (only_complete s _ _ _ _).1 .transmit (by decide)
@[simp] theorem State.complete_ulCar (s : State) (c : Cmd) (o st : Nat) (r : Res) : (s.complete c o st r).ulCar = s.ulCar :=
  ((only_complete s _ _ _ _).1 .uplink (by decide)).1
@[simp] theorem State.complete_ulPend (s : State) (c : Cmd) (o st : Nat) (r : Res) : (s.complete c o st r).ulPend = s.ulPend :=
  ((only_complete s _ _ _ _).1 .uplink (by decide)).2.1
@[simp] theorem State.complete_ulWas (s : State) (c : Cmd) (o st : Nat) (r : Res) : (s.complete c o st r).ulWas = s.ulWas :=
  ((only_complete s _ _ _ _).1 .uplink (by decide)).2.2.1
@[simp] theorem State.complete_filt (s : State) (c : Cmd) (o st : Nat) (r : Res) : (s.complete c o st r).filt = s.filt :=
  ((only_complete s _ _ _ _).1 .uplink (by decide)).2.2.2.1
@[simp] theorem State.complete_parts (s : State) (c : Cmd) (o st : Nat) (r : Res) : (s.complete c o st r).parts = s.parts :=
  ((only_complete s _ _ _ _).1 .uplink (by decide)).2.2.2.2.1
@[simp] theorem State.complete_sums (s : State) (c : Cmd) (o st : Nat) (r : Res) : (s.complete c o st r).sums = s.sums :=
  ((only_complete s _ _ _ _).1 .uplink (by decide)).2.2.2.2.2.1
@[simp] theorem State.complete_ulSat (s : State) (c : Cmd) (o st : Nat) (r : Res) : (s.complete c o st r).ulSat = s.ulSat :=
  ((only_complete s _ _ _ _).1 .uplink (by decide)).2.2.2.2.2.2
@[simp] theorem State.complete_conv (s : State) (c : Cmd) (o st : Nat) (r : Res) : (s.complete c o st r).conv = s.conv :=
  ((only_complete s _ _ _ _).1 .receive (by decide)).1
@[simp] theorem State.complete_rxp (s : State) (c : Cmd) (o st : Nat) (r : Res) : (s.complete c o st r).rxp = s.rxp :=
  ((only_complete s _ _ _ _).1 .receive (by decide)).2
@[simp] theorem State.complete_beams (s : State) (c : Cmd) (o st : Nat) (r : Res) : (s.complete c o st r).beams = s.beams :=
  ((only_complete s _ _ _ _).1 .beams (by decide)).1
@[simp] theorem State.complete_rows (s : State) (c : Cmd) (o st : Nat) (r : Res) : (s.complete c o st r).rows = s.rows :=
  ((only_complete s _ _ _ _).1 .beams (by decide)).2.1
@[simp] theorem State.complete_stage (s : State) (c : Cmd) (o st : Nat) (r : Res) : (s.complete c o st r).stage = s.stage :=
  ((only_complete s _ _ _ _).1 .beams (by decide)).2.2.1
@[simp] theorem State.complete_spareRows (s : State) (c : Cmd) (o st : Nat) (r : Res) : (s.complete c o st r).spareRows = s.spareRows :=
  ((only_complete s _ _ _ _).1 .beams (by decide)).2.2.2.1
@[simp] theorem State.complete_bulk (s : State) (c : Cmd) (o st : Nat) (r : Res) : (s.complete c o st r).bulk = s.bulk :=
  ((only_complete s _ _ _ _).1 .beams (by decide)).2.2.2.2
@[simp] theorem State.complete_solvRec (s : State) (c : Cmd) (o st : Nat) (r : Res) : (s.complete c o st r).solvRec = s.solvRec :=
  ((only_complete s _ _ _ _).1 .solver (by decide)).1
@[simp] theorem State.complete_solv (s : State) (c : Cmd) (o st : Nat) (r : Res) : (s.complete c o st r).solv = s.solv :=
  ((only_complete s _ _ _ _).1 .solver (by decide)).2
@[simp] theorem State.complete_dpd (s : State) (c : Cmd) (o st : Nat) (r : Res) : (s.complete c o st r).dpd = s.dpd :=
  ((only_complete s _ _ _ _).1 .dpd (by decide)).1
@[simp] theorem State.complete_sharedOrx (s : State) (c : Cmd) (o st : Nat) (r : Res) : (s.complete c o st r).sharedOrx = s.sharedOrx :=
  ((only_complete s _ _ _ _).1 .dpd (by decide)).2.1
@[simp] theorem State.complete_svcAt (s : State) (c : Cmd) (o st : Nat) (r : Res) : (s.complete c o st r).svcAt = s.svcAt :=
  ((only_complete s _ _ _ _).1 .dpd (by decide)).2.2
@[simp] theorem State.complete_calp (s : State) (c : Cmd) (o st : Nat) (r : Res) : (s.complete c o st r).calp = s.calp :=
  ((only_complete s _ _ _ _).1 .calib (by decide)).1
@[simp] theorem State.complete_calRefs (s : State) (c : Cmd) (o st : Nat) (r : Res) : (s.complete c o st r).calRefs = s.calRefs :=
  ((only_complete s _ _ _ _).1 .calib (by decide)).2.1
@[simp] theorem State.complete_calSets (s : State) (c : Cmd) (o st : Nat) (r : Res) : (s.complete c o st r).calSets = s.calSets :=
  ((only_complete s _ _ _ _).1 .calib (by decide)).2.2.1
@[simp] theorem State.complete_tie (s : State) (c : Cmd) (o st : Nat) (r : Res) : (s.complete c o st r).tie = s.tie :=
  ((only_complete s _ _ _ _).1 .calib (by decide)).2.2.2
@[simp] theorem State.complete_grp (s : State) (c : Cmd) (o st : Nat) (r : Res) : (s.complete c o st r).grp = s.grp :=
  (only_complete s _ _ _ _).1 .groups (by decide)
@[simp] theorem State.complete_hops (s : State) (c : Cmd) (o st : Nat) (r : Res) : (s.complete c o st r).hops = s.hops :=
  ((only_complete s _ _ _ _).1 .synth (by decide)).1
@[simp] theorem State.complete_lox (s : State) (c : Cmd) (o st : Nat) (r : Res) : (s.complete c o st r).lox = s.lox :=
  ((only_complete s _ _ _ _).1 .synth (by decide)).2
@[simp] theorem State.complete_ref (s : State) (c : Cmd) (o st : Nat) (r : Res) : (s.complete c o st r).ref = s.ref :=
  ((only_complete s _ _ _ _).1 .clocks (by decide)).1
@[simp] theorem State.complete_clkTo (s : State) (c : Cmd) (o st : Nat) (r : Res) : (s.complete c o st r).clkTo = s.clkTo :=
  ((only_complete s _ _ _ _).1 .clocks (by decide)).2
@[simp] theorem State.complete_fe (s : State) (c : Cmd) (o st : Nat) (r : Res) : (s.complete c o st r).fe = s.fe :=
  ((only_complete s _ _ _ _).1 .frontEnd (by decide)).1
@[simp] theorem State.complete_feLater (s : State) (c : Cmd) (o st : Nat) (r : Res) : (s.complete c o st r).feLater = s.feLater :=
  ((only_complete s _ _ _ _).1 .frontEnd (by decide)).2.1
@[simp] theorem State.complete_linesOn (s : State) (c : Cmd) (o st : Nat) (r : Res) : (s.complete c o st r).linesOn = s.linesOn :=
  ((only_complete s _ _ _ _).1 .frontEnd (by decide)).2.2.1
@[simp] theorem State.complete_sched (s : State) (c : Cmd) (o st : Nat) (r : Res) : (s.complete c o st r).sched = s.sched :=
  ((only_complete s _ _ _ _).1 .frontEnd (by decide)).2.2.2.1
@[simp] theorem State.complete_schedPend (s : State) (c : Cmd) (o st : Nat) (r : Res) : (s.complete c o st r).schedPend = s.schedPend :=
  ((only_complete s _ _ _ _).1 .frontEnd (by decide)).2.2.2.2.1
@[simp] theorem State.complete_scripts (s : State) (c : Cmd) (o st : Nat) (r : Res) : (s.complete c o st r).scripts = s.scripts :=
  ((only_complete s _ _ _ _).1 .frontEnd (by decide)).2.2.2.2.2
@[simp] theorem State.complete_eng (s : State) (c : Cmd) (o st : Nat) (r : Res) : (s.complete c o st r).eng = s.eng :=
  ((only_complete s _ _ _ _).1 .engines (by decide)).1
@[simp] theorem State.complete_slots (s : State) (c : Cmd) (o st : Nat) (r : Res) : (s.complete c o st r).slots = s.slots :=
  ((only_complete s _ _ _ _).1 .engines (by decide)).2.1
@[simp] theorem State.complete_engHalf (s : State) (c : Cmd) (o st : Nat) (r : Res) : (s.complete c o st r).engHalf = s.engHalf :=
  ((only_complete s _ _ _ _).1 .engines (by decide)).2.2.1
@[simp] theorem State.complete_engShare (s : State) (c : Cmd) (o st : Nat) (r : Res) : (s.complete c o st r).engShare = s.engShare :=
  ((only_complete s _ _ _ _).1 .engines (by decide)).2.2.2.1
@[simp] theorem State.complete_imgLoads (s : State) (c : Cmd) (o st : Nat) (r : Res) : (s.complete c o st r).imgLoads = s.imgLoads :=
  ((only_complete s _ _ _ _).1 .engines (by decide)).2.2.2.2.1
@[simp] theorem State.complete_behind (s : State) (c : Cmd) (o st : Nat) (r : Res) : (s.complete c o st r).behind = s.behind :=
  ((only_complete s _ _ _ _).1 .engines (by decide)).2.2.2.2.2.1
@[simp] theorem State.complete_pace (s : State) (c : Cmd) (o st : Nat) (r : Res) : (s.complete c o st r).pace = s.pace :=
  ((only_complete s _ _ _ _).1 .engines (by decide)).2.2.2.2.2.2
@[simp] theorem State.complete_engMem (s : State) (c : Cmd) (o st : Nat) (r : Res) : (s.complete c o st r).engMem = s.engMem :=
  ((only_complete s _ _ _ _).1 .memories (by decide)).1
@[simp] theorem State.complete_pool (s : State) (c : Cmd) (o st : Nat) (r : Res) : (s.complete c o st r).pool = s.pool :=
  ((only_complete s _ _ _ _).1 .memories (by decide)).2.1
@[simp] theorem State.complete_prog (s : State) (c : Cmd) (o st : Nat) (r : Res) : (s.complete c o st r).prog = s.prog :=
  ((only_complete s _ _ _ _).1 .memories (by decide)).2.2
@[simp] theorem State.complete_caps (s : State) (c : Cmd) (o st : Nat) (r : Res) : (s.complete c o st r).caps = s.caps :=
  ((only_complete s _ _ _ _).1 .captures (by decide)).1
@[simp] theorem State.complete_capNum (s : State) (c : Cmd) (o st : Nat) (r : Res) : (s.complete c o st r).capNum = s.capNum :=
  ((only_complete s _ _ _ _).1 .captures (by decide)).2
@[simp] theorem State.complete_bias (s : State) (c : Cmd) (o st : Nat) (r : Res) : (s.complete c o st r).bias = s.bias :=
  (only_complete s _ _ _ _).1 .bias (by decide)
@[simp] theorem State.complete_sens (s : State) (c : Cmd) (o st : Nat) (r : Res) : (s.complete c o st r).sens = s.sens :=
  ((only_complete s _ _ _ _).1 .monitor (by decide)).1
@[simp] theorem State.complete_mon (s : State) (c : Cmd) (o st : Nat) (r : Res) : (s.complete c o st r).mon = s.mon :=
  ((only_complete s _ _ _ _).1 .monitor (by decide)).2
@[simp] theorem State.complete_time (s : State) (c : Cmd) (o st : Nat) (r : Res) : (s.complete c o st r).time = s.time :=
  (only_complete s _ _ _ _).1 .time (by decide)
@[simp] theorem State.complete_rel (s : State) (c : Cmd) (o st : Nat) (r : Res) : (s.complete c o st r).rel = s.rel :=
  (only_complete s _ _ _ _).1 .faults (by decide)
@[simp] theorem State.complete_nv (s : State) (c : Cmd) (o st : Nat) (r : Res) : (s.complete c o st r).nv = s.nv :=
  (only_complete s _ _ _ _).1 .store (by decide)
@[simp] theorem State.complete_boot (s : State) (c : Cmd) (o st : Nat) (r : Res) : (s.complete c o st r).boot = s.boot :=
  (only_complete s _ _ _ _).1 .boot (by decide)
@[simp] theorem State.complete_tap (s : State) (c : Cmd) (o st : Nat) (r : Res) : (s.complete c o st r).tap = s.tap :=
  (only_complete s _ _ _ _).1 .tap (by decide)
@[simp] theorem State.complete_d2d (s : State) (c : Cmd) (o st : Nat) (r : Res) : (s.complete c o st r).d2d = s.d2d :=
  ((only_complete s _ _ _ _).1 .d2d (by decide)).1
@[simp] theorem State.complete_mirrored (s : State) (c : Cmd) (o st : Nat) (r : Res) : (s.complete c o st r).mirrored = s.mirrored :=
  ((only_complete s _ _ _ _).1 .d2d (by decide)).2
@[simp] theorem State.complete_fresh (s : State) (c : Cmd) (o st : Nat) (r : Res) : (s.complete c o st r).fresh = s.fresh :=
  (only_complete s _ _ _ _).1 .free (by decide)
@[simp] theorem State.complete_pending (s : State) (c : Cmd) (o st : Nat) (r : Res) : (s.complete c o st r).pending = s.pending :=
  (only_complete s _ _ _ _).1 .queue (by decide)

theorem State.refuse_reg (s : State) (c : Cmd) (o st d : Nat) (q : Nat) (hq : q ∉ cplRegs) : (s.refuse c o st d).reg q = s.reg q :=
  (only_refuse s _ _ _ _).2 q hq

theorem State.refuse_raw (s : State) (c : Cmd) (o st d : Nat) (x : Fld) (hx : x.off ∉ cplRegs) : (s.refuse c o st d).raw x = s.raw x :=
  (only_refuse s _ _ _ _).2.raw x hx

@[simp] theorem State.refuse_lanes (s : State) (c : Cmd) (o st d : Nat) : (s.refuse c o st d).lanes = s.lanes :=
  (only_refuse s _ _ _ _).1 .lanes (by decide)
@[simp] theorem State.refuse_links (s : State) (c : Cmd) (o st d : Nat) : (s.refuse c o st d).links = s.links :=
  (only_refuse s _ _ _ _).1 .links (by decide)
@[simp] theorem State.refuse_flows (s : State) (c : Cmd) (o st d : Nat) : (s.refuse c o st d).flows = s.flows :=
  ((only_refuse s _ _ _ _).1 .flows (by decide)).1
@[simp] theorem State.refuse_flowFx (s : State) (c : Cmd) (o st d : Nat) : (s.refuse c o st d).flowFx = s.flowFx :=
  ((only_refuse s _ _ _ _).1 .flows (by decide)).2.1
@[simp] theorem State.refuse_flowOld (s : State) (c : Cmd) (o st d : Nat) : (s.refuse c o st d).flowOld = s.flowOld :=
  ((only_refuse s _ _ _ _).1 .flows (by decide)).2.2
@[simp] theorem State.refuse_ctrlSecs (s : State) (c : Cmd) (o st d : Nat) : (s.refuse c o st d).ctrlSecs = s.ctrlSecs :=
  ((only_refuse s _ _ _ _).1 .sections (by decide)).1
@[simp] theorem State.refuse_dataSecs (s : State) (c : Cmd) (o st d : Nat) : (s.refuse c o st d).dataSecs = s.dataSecs :=
  ((only_refuse s _ _ _ _).1 .sections (by decide)).2.1
@[simp] theorem State.refuse_soundSecs (s : State) (c : Cmd) (o st d : Nat) : (s.refuse c o st d).soundSecs = s.soundSecs :=
  ((only_refuse s _ _ _ _).1 .sections (by decide)).2.2
@[simp] theorem State.refuse_dlCar (s : State) (c : Cmd) (o st d : Nat) : (s.refuse c o st d).dlCar = s.dlCar :=
  ((only_refuse s _ _ _ _).1 .downlink (by decide)).1
@[simp] theorem State.refuse_dlPend (s : State) (c : Cmd) (o st d : Nat) : (s.refuse c o st d).dlPend = s.dlPend :=
  ((only_refuse s _ _ _ _).1 .downlink (by decide)).2.1
@[simp] theorem State.refuse_dlSince (s : State) (c : Cmd) (o st d : Nat) : (s.refuse c o st d).dlSince = s.dlSince :=
  ((only_refuse s _ _ _ _).1 .downlink (by decide)).2.2.1
@[simp] theorem State.refuse_backoff (s : State) (c : Cmd) (o st d : Nat) : (s.refuse c o st d).backoff = s.backoff :=
  ((only_refuse s _ _ _ _).1 .downlink (by decide)).2.2.2.1
@[simp] theorem State.refuse_backAt (s : State) (c : Cmd) (o st d : Nat) : (s.refuse c o st d).backAt = s.backAt :=
  ((only_refuse s _ _ _ _).1 .downlink (by decide)).2.2.2.2.1
@[simp] theorem State.refuse_dlOcc (s : State) (c : Cmd) (o st d : Nat) : (s.refuse c o st d).dlOcc = s.dlOcc :=
  ((only_refuse s _ _ _ _).1 .downlink (by decide)).2.2.2.2.2.1
@[simp] theorem State.refuse_dlSat (s : State) (c : Cmd) (o st d : Nat) : (s.refuse c o st d).dlSat = s.dlSat :=
  ((only_refuse s _ _ _ _).1 .downlink (by decide)).2.2.2.2.2.2
@[simp] theorem State.refuse_txp (s : State) (c : Cmd) (o st d : Nat) : (s.refuse c o st d).txp = s.txp :=
  (only_refuse s _ _ _ _).1 .transmit (by decide)
@[simp] theorem State.refuse_ulCar (s : State) (c : Cmd) (o st d : Nat) : (s.refuse c o st d).ulCar = s.ulCar :=
  ((only_refuse s _ _ _ _).1 .uplink (by decide)).1
@[simp] theorem State.refuse_ulPend (s : State) (c : Cmd) (o st d : Nat) : (s.refuse c o st d).ulPend = s.ulPend :=
  ((only_refuse s _ _ _ _).1 .uplink (by decide)).2.1
@[simp] theorem State.refuse_ulWas (s : State) (c : Cmd) (o st d : Nat) : (s.refuse c o st d).ulWas = s.ulWas :=
  ((only_refuse s _ _ _ _).1 .uplink (by decide)).2.2.1
@[simp] theorem State.refuse_filt (s : State) (c : Cmd) (o st d : Nat) : (s.refuse c o st d).filt = s.filt :=
  ((only_refuse s _ _ _ _).1 .uplink (by decide)).2.2.2.1
@[simp] theorem State.refuse_parts (s : State) (c : Cmd) (o st d : Nat) : (s.refuse c o st d).parts = s.parts :=
  ((only_refuse s _ _ _ _).1 .uplink (by decide)).2.2.2.2.1
@[simp] theorem State.refuse_sums (s : State) (c : Cmd) (o st d : Nat) : (s.refuse c o st d).sums = s.sums :=
  ((only_refuse s _ _ _ _).1 .uplink (by decide)).2.2.2.2.2.1
@[simp] theorem State.refuse_ulSat (s : State) (c : Cmd) (o st d : Nat) : (s.refuse c o st d).ulSat = s.ulSat :=
  ((only_refuse s _ _ _ _).1 .uplink (by decide)).2.2.2.2.2.2
@[simp] theorem State.refuse_conv (s : State) (c : Cmd) (o st d : Nat) : (s.refuse c o st d).conv = s.conv :=
  ((only_refuse s _ _ _ _).1 .receive (by decide)).1
@[simp] theorem State.refuse_rxp (s : State) (c : Cmd) (o st d : Nat) : (s.refuse c o st d).rxp = s.rxp :=
  ((only_refuse s _ _ _ _).1 .receive (by decide)).2
@[simp] theorem State.refuse_beams (s : State) (c : Cmd) (o st d : Nat) : (s.refuse c o st d).beams = s.beams :=
  ((only_refuse s _ _ _ _).1 .beams (by decide)).1
@[simp] theorem State.refuse_rows (s : State) (c : Cmd) (o st d : Nat) : (s.refuse c o st d).rows = s.rows :=
  ((only_refuse s _ _ _ _).1 .beams (by decide)).2.1
@[simp] theorem State.refuse_stage (s : State) (c : Cmd) (o st d : Nat) : (s.refuse c o st d).stage = s.stage :=
  ((only_refuse s _ _ _ _).1 .beams (by decide)).2.2.1
@[simp] theorem State.refuse_spareRows (s : State) (c : Cmd) (o st d : Nat) : (s.refuse c o st d).spareRows = s.spareRows :=
  ((only_refuse s _ _ _ _).1 .beams (by decide)).2.2.2.1
@[simp] theorem State.refuse_bulk (s : State) (c : Cmd) (o st d : Nat) : (s.refuse c o st d).bulk = s.bulk :=
  ((only_refuse s _ _ _ _).1 .beams (by decide)).2.2.2.2
@[simp] theorem State.refuse_solvRec (s : State) (c : Cmd) (o st d : Nat) : (s.refuse c o st d).solvRec = s.solvRec :=
  ((only_refuse s _ _ _ _).1 .solver (by decide)).1
@[simp] theorem State.refuse_solv (s : State) (c : Cmd) (o st d : Nat) : (s.refuse c o st d).solv = s.solv :=
  ((only_refuse s _ _ _ _).1 .solver (by decide)).2
@[simp] theorem State.refuse_dpd (s : State) (c : Cmd) (o st d : Nat) : (s.refuse c o st d).dpd = s.dpd :=
  ((only_refuse s _ _ _ _).1 .dpd (by decide)).1
@[simp] theorem State.refuse_sharedOrx (s : State) (c : Cmd) (o st d : Nat) : (s.refuse c o st d).sharedOrx = s.sharedOrx :=
  ((only_refuse s _ _ _ _).1 .dpd (by decide)).2.1
@[simp] theorem State.refuse_svcAt (s : State) (c : Cmd) (o st d : Nat) : (s.refuse c o st d).svcAt = s.svcAt :=
  ((only_refuse s _ _ _ _).1 .dpd (by decide)).2.2
@[simp] theorem State.refuse_calp (s : State) (c : Cmd) (o st d : Nat) : (s.refuse c o st d).calp = s.calp :=
  ((only_refuse s _ _ _ _).1 .calib (by decide)).1
@[simp] theorem State.refuse_calRefs (s : State) (c : Cmd) (o st d : Nat) : (s.refuse c o st d).calRefs = s.calRefs :=
  ((only_refuse s _ _ _ _).1 .calib (by decide)).2.1
@[simp] theorem State.refuse_calSets (s : State) (c : Cmd) (o st d : Nat) : (s.refuse c o st d).calSets = s.calSets :=
  ((only_refuse s _ _ _ _).1 .calib (by decide)).2.2.1
@[simp] theorem State.refuse_tie (s : State) (c : Cmd) (o st d : Nat) : (s.refuse c o st d).tie = s.tie :=
  ((only_refuse s _ _ _ _).1 .calib (by decide)).2.2.2
@[simp] theorem State.refuse_grp (s : State) (c : Cmd) (o st d : Nat) : (s.refuse c o st d).grp = s.grp :=
  (only_refuse s _ _ _ _).1 .groups (by decide)
@[simp] theorem State.refuse_hops (s : State) (c : Cmd) (o st d : Nat) : (s.refuse c o st d).hops = s.hops :=
  ((only_refuse s _ _ _ _).1 .synth (by decide)).1
@[simp] theorem State.refuse_lox (s : State) (c : Cmd) (o st d : Nat) : (s.refuse c o st d).lox = s.lox :=
  ((only_refuse s _ _ _ _).1 .synth (by decide)).2
@[simp] theorem State.refuse_ref (s : State) (c : Cmd) (o st d : Nat) : (s.refuse c o st d).ref = s.ref :=
  ((only_refuse s _ _ _ _).1 .clocks (by decide)).1
@[simp] theorem State.refuse_clkTo (s : State) (c : Cmd) (o st d : Nat) : (s.refuse c o st d).clkTo = s.clkTo :=
  ((only_refuse s _ _ _ _).1 .clocks (by decide)).2
@[simp] theorem State.refuse_fe (s : State) (c : Cmd) (o st d : Nat) : (s.refuse c o st d).fe = s.fe :=
  ((only_refuse s _ _ _ _).1 .frontEnd (by decide)).1
@[simp] theorem State.refuse_feLater (s : State) (c : Cmd) (o st d : Nat) : (s.refuse c o st d).feLater = s.feLater :=
  ((only_refuse s _ _ _ _).1 .frontEnd (by decide)).2.1
@[simp] theorem State.refuse_linesOn (s : State) (c : Cmd) (o st d : Nat) : (s.refuse c o st d).linesOn = s.linesOn :=
  ((only_refuse s _ _ _ _).1 .frontEnd (by decide)).2.2.1
@[simp] theorem State.refuse_sched (s : State) (c : Cmd) (o st d : Nat) : (s.refuse c o st d).sched = s.sched :=
  ((only_refuse s _ _ _ _).1 .frontEnd (by decide)).2.2.2.1
@[simp] theorem State.refuse_schedPend (s : State) (c : Cmd) (o st d : Nat) : (s.refuse c o st d).schedPend = s.schedPend :=
  ((only_refuse s _ _ _ _).1 .frontEnd (by decide)).2.2.2.2.1
@[simp] theorem State.refuse_scripts (s : State) (c : Cmd) (o st d : Nat) : (s.refuse c o st d).scripts = s.scripts :=
  ((only_refuse s _ _ _ _).1 .frontEnd (by decide)).2.2.2.2.2
@[simp] theorem State.refuse_eng (s : State) (c : Cmd) (o st d : Nat) : (s.refuse c o st d).eng = s.eng :=
  ((only_refuse s _ _ _ _).1 .engines (by decide)).1
@[simp] theorem State.refuse_slots (s : State) (c : Cmd) (o st d : Nat) : (s.refuse c o st d).slots = s.slots :=
  ((only_refuse s _ _ _ _).1 .engines (by decide)).2.1
@[simp] theorem State.refuse_engHalf (s : State) (c : Cmd) (o st d : Nat) : (s.refuse c o st d).engHalf = s.engHalf :=
  ((only_refuse s _ _ _ _).1 .engines (by decide)).2.2.1
@[simp] theorem State.refuse_engShare (s : State) (c : Cmd) (o st d : Nat) : (s.refuse c o st d).engShare = s.engShare :=
  ((only_refuse s _ _ _ _).1 .engines (by decide)).2.2.2.1
@[simp] theorem State.refuse_imgLoads (s : State) (c : Cmd) (o st d : Nat) : (s.refuse c o st d).imgLoads = s.imgLoads :=
  ((only_refuse s _ _ _ _).1 .engines (by decide)).2.2.2.2.1
@[simp] theorem State.refuse_behind (s : State) (c : Cmd) (o st d : Nat) : (s.refuse c o st d).behind = s.behind :=
  ((only_refuse s _ _ _ _).1 .engines (by decide)).2.2.2.2.2.1
@[simp] theorem State.refuse_pace (s : State) (c : Cmd) (o st d : Nat) : (s.refuse c o st d).pace = s.pace :=
  ((only_refuse s _ _ _ _).1 .engines (by decide)).2.2.2.2.2.2
@[simp] theorem State.refuse_engMem (s : State) (c : Cmd) (o st d : Nat) : (s.refuse c o st d).engMem = s.engMem :=
  ((only_refuse s _ _ _ _).1 .memories (by decide)).1
@[simp] theorem State.refuse_pool (s : State) (c : Cmd) (o st d : Nat) : (s.refuse c o st d).pool = s.pool :=
  ((only_refuse s _ _ _ _).1 .memories (by decide)).2.1
@[simp] theorem State.refuse_prog (s : State) (c : Cmd) (o st d : Nat) : (s.refuse c o st d).prog = s.prog :=
  ((only_refuse s _ _ _ _).1 .memories (by decide)).2.2
@[simp] theorem State.refuse_caps (s : State) (c : Cmd) (o st d : Nat) : (s.refuse c o st d).caps = s.caps :=
  ((only_refuse s _ _ _ _).1 .captures (by decide)).1
@[simp] theorem State.refuse_capNum (s : State) (c : Cmd) (o st d : Nat) : (s.refuse c o st d).capNum = s.capNum :=
  ((only_refuse s _ _ _ _).1 .captures (by decide)).2
@[simp] theorem State.refuse_bias (s : State) (c : Cmd) (o st d : Nat) : (s.refuse c o st d).bias = s.bias :=
  (only_refuse s _ _ _ _).1 .bias (by decide)
@[simp] theorem State.refuse_sens (s : State) (c : Cmd) (o st d : Nat) : (s.refuse c o st d).sens = s.sens :=
  ((only_refuse s _ _ _ _).1 .monitor (by decide)).1
@[simp] theorem State.refuse_mon (s : State) (c : Cmd) (o st d : Nat) : (s.refuse c o st d).mon = s.mon :=
  ((only_refuse s _ _ _ _).1 .monitor (by decide)).2
@[simp] theorem State.refuse_time (s : State) (c : Cmd) (o st d : Nat) : (s.refuse c o st d).time = s.time :=
  (only_refuse s _ _ _ _).1 .time (by decide)
@[simp] theorem State.refuse_rel (s : State) (c : Cmd) (o st d : Nat) : (s.refuse c o st d).rel = s.rel :=
  (only_refuse s _ _ _ _).1 .faults (by decide)
@[simp] theorem State.refuse_nv (s : State) (c : Cmd) (o st d : Nat) : (s.refuse c o st d).nv = s.nv :=
  (only_refuse s _ _ _ _).1 .store (by decide)
@[simp] theorem State.refuse_boot (s : State) (c : Cmd) (o st d : Nat) : (s.refuse c o st d).boot = s.boot :=
  (only_refuse s _ _ _ _).1 .boot (by decide)
@[simp] theorem State.refuse_tap (s : State) (c : Cmd) (o st d : Nat) : (s.refuse c o st d).tap = s.tap :=
  (only_refuse s _ _ _ _).1 .tap (by decide)
@[simp] theorem State.refuse_d2d (s : State) (c : Cmd) (o st d : Nat) : (s.refuse c o st d).d2d = s.d2d :=
  ((only_refuse s _ _ _ _).1 .d2d (by decide)).1
@[simp] theorem State.refuse_mirrored (s : State) (c : Cmd) (o st d : Nat) : (s.refuse c o st d).mirrored = s.mirrored :=
  ((only_refuse s _ _ _ _).1 .d2d (by decide)).2
@[simp] theorem State.refuse_fresh (s : State) (c : Cmd) (o st d : Nat) : (s.refuse c o st d).fresh = s.fresh :=
  (only_refuse s _ _ _ _).1 .free (by decide)
@[simp] theorem State.refuse_pending (s : State) (c : Cmd) (o st d : Nat) : (s.refuse c o st d).pending = s.pending :=
  (only_refuse s _ _ _ _).1 .queue (by decide)

theorem State.finishLong_reg (s : State) (p : LongRec → Bool) (st : Nat) (r : LongRec → Res) (q : Nat) (hq : q ∉ cplRegs) : (s.finishLong p st r).reg q = s.reg q :=
  (only_finishLong s _ _ _).2 q hq

theorem State.finishLong_raw (s : State) (p : LongRec → Bool) (st : Nat) (r : LongRec → Res) (x : Fld) (hx : x.off ∉ cplRegs) : (s.finishLong p st r).raw x = s.raw x :=
  (only_finishLong s _ _ _).2.raw x hx

@[simp] theorem State.finishLong_lanes (s : State) (p : LongRec → Bool) (st : Nat) (r : LongRec → Res) : (s.finishLong p st r).lanes = s.lanes :=
  (only_finishLong s _ _ _).1 .lanes (by decide)
@[simp] theorem State.finishLong_links (s : State) (p : LongRec → Bool) (st : Nat) (r : LongRec → Res) : (s.finishLong p st r).links = s.links :=
  (only_finishLong s _ _ _).1 .links (by decide)
@[simp] theorem State.finishLong_flows (s : State) (p : LongRec → Bool) (st : Nat) (r : LongRec → Res) : (s.finishLong p st r).flows = s.flows :=
  ((only_finishLong s _ _ _).1 .flows (by decide)).1
@[simp] theorem State.finishLong_flowFx (s : State) (p : LongRec → Bool) (st : Nat) (r : LongRec → Res) : (s.finishLong p st r).flowFx = s.flowFx :=
  ((only_finishLong s _ _ _).1 .flows (by decide)).2.1
@[simp] theorem State.finishLong_flowOld (s : State) (p : LongRec → Bool) (st : Nat) (r : LongRec → Res) : (s.finishLong p st r).flowOld = s.flowOld :=
  ((only_finishLong s _ _ _).1 .flows (by decide)).2.2
@[simp] theorem State.finishLong_ctrlSecs (s : State) (p : LongRec → Bool) (st : Nat) (r : LongRec → Res) : (s.finishLong p st r).ctrlSecs = s.ctrlSecs :=
  ((only_finishLong s _ _ _).1 .sections (by decide)).1
@[simp] theorem State.finishLong_dataSecs (s : State) (p : LongRec → Bool) (st : Nat) (r : LongRec → Res) : (s.finishLong p st r).dataSecs = s.dataSecs :=
  ((only_finishLong s _ _ _).1 .sections (by decide)).2.1
@[simp] theorem State.finishLong_soundSecs (s : State) (p : LongRec → Bool) (st : Nat) (r : LongRec → Res) : (s.finishLong p st r).soundSecs = s.soundSecs :=
  ((only_finishLong s _ _ _).1 .sections (by decide)).2.2
@[simp] theorem State.finishLong_dlCar (s : State) (p : LongRec → Bool) (st : Nat) (r : LongRec → Res) : (s.finishLong p st r).dlCar = s.dlCar :=
  ((only_finishLong s _ _ _).1 .downlink (by decide)).1
@[simp] theorem State.finishLong_dlPend (s : State) (p : LongRec → Bool) (st : Nat) (r : LongRec → Res) : (s.finishLong p st r).dlPend = s.dlPend :=
  ((only_finishLong s _ _ _).1 .downlink (by decide)).2.1
@[simp] theorem State.finishLong_dlSince (s : State) (p : LongRec → Bool) (st : Nat) (r : LongRec → Res) : (s.finishLong p st r).dlSince = s.dlSince :=
  ((only_finishLong s _ _ _).1 .downlink (by decide)).2.2.1
@[simp] theorem State.finishLong_backoff (s : State) (p : LongRec → Bool) (st : Nat) (r : LongRec → Res) : (s.finishLong p st r).backoff = s.backoff :=
  ((only_finishLong s _ _ _).1 .downlink (by decide)).2.2.2.1
@[simp] theorem State.finishLong_backAt (s : State) (p : LongRec → Bool) (st : Nat) (r : LongRec → Res) : (s.finishLong p st r).backAt = s.backAt :=
  ((only_finishLong s _ _ _).1 .downlink (by decide)).2.2.2.2.1
@[simp] theorem State.finishLong_dlOcc (s : State) (p : LongRec → Bool) (st : Nat) (r : LongRec → Res) : (s.finishLong p st r).dlOcc = s.dlOcc :=
  ((only_finishLong s _ _ _).1 .downlink (by decide)).2.2.2.2.2.1
@[simp] theorem State.finishLong_dlSat (s : State) (p : LongRec → Bool) (st : Nat) (r : LongRec → Res) : (s.finishLong p st r).dlSat = s.dlSat :=
  ((only_finishLong s _ _ _).1 .downlink (by decide)).2.2.2.2.2.2
@[simp] theorem State.finishLong_txp (s : State) (p : LongRec → Bool) (st : Nat) (r : LongRec → Res) : (s.finishLong p st r).txp = s.txp :=
  (only_finishLong s _ _ _).1 .transmit (by decide)
@[simp] theorem State.finishLong_ulCar (s : State) (p : LongRec → Bool) (st : Nat) (r : LongRec → Res) : (s.finishLong p st r).ulCar = s.ulCar :=
  ((only_finishLong s _ _ _).1 .uplink (by decide)).1
@[simp] theorem State.finishLong_ulPend (s : State) (p : LongRec → Bool) (st : Nat) (r : LongRec → Res) : (s.finishLong p st r).ulPend = s.ulPend :=
  ((only_finishLong s _ _ _).1 .uplink (by decide)).2.1
@[simp] theorem State.finishLong_ulWas (s : State) (p : LongRec → Bool) (st : Nat) (r : LongRec → Res) : (s.finishLong p st r).ulWas = s.ulWas :=
  ((only_finishLong s _ _ _).1 .uplink (by decide)).2.2.1
@[simp] theorem State.finishLong_filt (s : State) (p : LongRec → Bool) (st : Nat) (r : LongRec → Res) : (s.finishLong p st r).filt = s.filt :=
  ((only_finishLong s _ _ _).1 .uplink (by decide)).2.2.2.1
@[simp] theorem State.finishLong_parts (s : State) (p : LongRec → Bool) (st : Nat) (r : LongRec → Res) : (s.finishLong p st r).parts = s.parts :=
  ((only_finishLong s _ _ _).1 .uplink (by decide)).2.2.2.2.1
@[simp] theorem State.finishLong_sums (s : State) (p : LongRec → Bool) (st : Nat) (r : LongRec → Res) : (s.finishLong p st r).sums = s.sums :=
  ((only_finishLong s _ _ _).1 .uplink (by decide)).2.2.2.2.2.1
@[simp] theorem State.finishLong_ulSat (s : State) (p : LongRec → Bool) (st : Nat) (r : LongRec → Res) : (s.finishLong p st r).ulSat = s.ulSat :=
  ((only_finishLong s _ _ _).1 .uplink (by decide)).2.2.2.2.2.2
@[simp] theorem State.finishLong_conv (s : State) (p : LongRec → Bool) (st : Nat) (r : LongRec → Res) : (s.finishLong p st r).conv = s.conv :=
  ((only_finishLong s _ _ _).1 .receive (by decide)).1
@[simp] theorem State.finishLong_rxp (s : State) (p : LongRec → Bool) (st : Nat) (r : LongRec → Res) : (s.finishLong p st r).rxp = s.rxp :=
  ((only_finishLong s _ _ _).1 .receive (by decide)).2
@[simp] theorem State.finishLong_beams (s : State) (p : LongRec → Bool) (st : Nat) (r : LongRec → Res) : (s.finishLong p st r).beams = s.beams :=
  ((only_finishLong s _ _ _).1 .beams (by decide)).1
@[simp] theorem State.finishLong_rows (s : State) (p : LongRec → Bool) (st : Nat) (r : LongRec → Res) : (s.finishLong p st r).rows = s.rows :=
  ((only_finishLong s _ _ _).1 .beams (by decide)).2.1
@[simp] theorem State.finishLong_stage (s : State) (p : LongRec → Bool) (st : Nat) (r : LongRec → Res) : (s.finishLong p st r).stage = s.stage :=
  ((only_finishLong s _ _ _).1 .beams (by decide)).2.2.1
@[simp] theorem State.finishLong_spareRows (s : State) (p : LongRec → Bool) (st : Nat) (r : LongRec → Res) : (s.finishLong p st r).spareRows = s.spareRows :=
  ((only_finishLong s _ _ _).1 .beams (by decide)).2.2.2.1
@[simp] theorem State.finishLong_bulk (s : State) (p : LongRec → Bool) (st : Nat) (r : LongRec → Res) : (s.finishLong p st r).bulk = s.bulk :=
  ((only_finishLong s _ _ _).1 .beams (by decide)).2.2.2.2
@[simp] theorem State.finishLong_solvRec (s : State) (p : LongRec → Bool) (st : Nat) (r : LongRec → Res) : (s.finishLong p st r).solvRec = s.solvRec :=
  ((only_finishLong s _ _ _).1 .solver (by decide)).1
@[simp] theorem State.finishLong_solv (s : State) (p : LongRec → Bool) (st : Nat) (r : LongRec → Res) : (s.finishLong p st r).solv = s.solv :=
  ((only_finishLong s _ _ _).1 .solver (by decide)).2
@[simp] theorem State.finishLong_dpd (s : State) (p : LongRec → Bool) (st : Nat) (r : LongRec → Res) : (s.finishLong p st r).dpd = s.dpd :=
  ((only_finishLong s _ _ _).1 .dpd (by decide)).1
@[simp] theorem State.finishLong_sharedOrx (s : State) (p : LongRec → Bool) (st : Nat) (r : LongRec → Res) : (s.finishLong p st r).sharedOrx = s.sharedOrx :=
  ((only_finishLong s _ _ _).1 .dpd (by decide)).2.1
@[simp] theorem State.finishLong_svcAt (s : State) (p : LongRec → Bool) (st : Nat) (r : LongRec → Res) : (s.finishLong p st r).svcAt = s.svcAt :=
  ((only_finishLong s _ _ _).1 .dpd (by decide)).2.2
@[simp] theorem State.finishLong_calp (s : State) (p : LongRec → Bool) (st : Nat) (r : LongRec → Res) : (s.finishLong p st r).calp = s.calp :=
  ((only_finishLong s _ _ _).1 .calib (by decide)).1
@[simp] theorem State.finishLong_calRefs (s : State) (p : LongRec → Bool) (st : Nat) (r : LongRec → Res) : (s.finishLong p st r).calRefs = s.calRefs :=
  ((only_finishLong s _ _ _).1 .calib (by decide)).2.1
@[simp] theorem State.finishLong_calSets (s : State) (p : LongRec → Bool) (st : Nat) (r : LongRec → Res) : (s.finishLong p st r).calSets = s.calSets :=
  ((only_finishLong s _ _ _).1 .calib (by decide)).2.2.1
@[simp] theorem State.finishLong_tie (s : State) (p : LongRec → Bool) (st : Nat) (r : LongRec → Res) : (s.finishLong p st r).tie = s.tie :=
  ((only_finishLong s _ _ _).1 .calib (by decide)).2.2.2
@[simp] theorem State.finishLong_grp (s : State) (p : LongRec → Bool) (st : Nat) (r : LongRec → Res) : (s.finishLong p st r).grp = s.grp :=
  (only_finishLong s _ _ _).1 .groups (by decide)
@[simp] theorem State.finishLong_hops (s : State) (p : LongRec → Bool) (st : Nat) (r : LongRec → Res) : (s.finishLong p st r).hops = s.hops :=
  ((only_finishLong s _ _ _).1 .synth (by decide)).1
@[simp] theorem State.finishLong_lox (s : State) (p : LongRec → Bool) (st : Nat) (r : LongRec → Res) : (s.finishLong p st r).lox = s.lox :=
  ((only_finishLong s _ _ _).1 .synth (by decide)).2
@[simp] theorem State.finishLong_ref (s : State) (p : LongRec → Bool) (st : Nat) (r : LongRec → Res) : (s.finishLong p st r).ref = s.ref :=
  ((only_finishLong s _ _ _).1 .clocks (by decide)).1
@[simp] theorem State.finishLong_clkTo (s : State) (p : LongRec → Bool) (st : Nat) (r : LongRec → Res) : (s.finishLong p st r).clkTo = s.clkTo :=
  ((only_finishLong s _ _ _).1 .clocks (by decide)).2
@[simp] theorem State.finishLong_fe (s : State) (p : LongRec → Bool) (st : Nat) (r : LongRec → Res) : (s.finishLong p st r).fe = s.fe :=
  ((only_finishLong s _ _ _).1 .frontEnd (by decide)).1
@[simp] theorem State.finishLong_feLater (s : State) (p : LongRec → Bool) (st : Nat) (r : LongRec → Res) : (s.finishLong p st r).feLater = s.feLater :=
  ((only_finishLong s _ _ _).1 .frontEnd (by decide)).2.1
@[simp] theorem State.finishLong_linesOn (s : State) (p : LongRec → Bool) (st : Nat) (r : LongRec → Res) : (s.finishLong p st r).linesOn = s.linesOn :=
  ((only_finishLong s _ _ _).1 .frontEnd (by decide)).2.2.1
@[simp] theorem State.finishLong_sched (s : State) (p : LongRec → Bool) (st : Nat) (r : LongRec → Res) : (s.finishLong p st r).sched = s.sched :=
  ((only_finishLong s _ _ _).1 .frontEnd (by decide)).2.2.2.1
@[simp] theorem State.finishLong_schedPend (s : State) (p : LongRec → Bool) (st : Nat) (r : LongRec → Res) : (s.finishLong p st r).schedPend = s.schedPend :=
  ((only_finishLong s _ _ _).1 .frontEnd (by decide)).2.2.2.2.1
@[simp] theorem State.finishLong_scripts (s : State) (p : LongRec → Bool) (st : Nat) (r : LongRec → Res) : (s.finishLong p st r).scripts = s.scripts :=
  ((only_finishLong s _ _ _).1 .frontEnd (by decide)).2.2.2.2.2
@[simp] theorem State.finishLong_eng (s : State) (p : LongRec → Bool) (st : Nat) (r : LongRec → Res) : (s.finishLong p st r).eng = s.eng :=
  ((only_finishLong s _ _ _).1 .engines (by decide)).1
@[simp] theorem State.finishLong_slots (s : State) (p : LongRec → Bool) (st : Nat) (r : LongRec → Res) : (s.finishLong p st r).slots = s.slots :=
  ((only_finishLong s _ _ _).1 .engines (by decide)).2.1
@[simp] theorem State.finishLong_engHalf (s : State) (p : LongRec → Bool) (st : Nat) (r : LongRec → Res) : (s.finishLong p st r).engHalf = s.engHalf :=
  ((only_finishLong s _ _ _).1 .engines (by decide)).2.2.1
@[simp] theorem State.finishLong_engShare (s : State) (p : LongRec → Bool) (st : Nat) (r : LongRec → Res) : (s.finishLong p st r).engShare = s.engShare :=
  ((only_finishLong s _ _ _).1 .engines (by decide)).2.2.2.1
@[simp] theorem State.finishLong_imgLoads (s : State) (p : LongRec → Bool) (st : Nat) (r : LongRec → Res) : (s.finishLong p st r).imgLoads = s.imgLoads :=
  ((only_finishLong s _ _ _).1 .engines (by decide)).2.2.2.2.1
@[simp] theorem State.finishLong_behind (s : State) (p : LongRec → Bool) (st : Nat) (r : LongRec → Res) : (s.finishLong p st r).behind = s.behind :=
  ((only_finishLong s _ _ _).1 .engines (by decide)).2.2.2.2.2.1
@[simp] theorem State.finishLong_pace (s : State) (p : LongRec → Bool) (st : Nat) (r : LongRec → Res) : (s.finishLong p st r).pace = s.pace :=
  ((only_finishLong s _ _ _).1 .engines (by decide)).2.2.2.2.2.2
@[simp] theorem State.finishLong_engMem (s : State) (p : LongRec → Bool) (st : Nat) (r : LongRec → Res) : (s.finishLong p st r).engMem = s.engMem :=
  ((only_finishLong s _ _ _).1 .memories (by decide)).1
@[simp] theorem State.finishLong_pool (s : State) (p : LongRec → Bool) (st : Nat) (r : LongRec → Res) : (s.finishLong p st r).pool = s.pool :=
  ((only_finishLong s _ _ _).1 .memories (by decide)).2.1
@[simp] theorem State.finishLong_prog (s : State) (p : LongRec → Bool) (st : Nat) (r : LongRec → Res) : (s.finishLong p st r).prog = s.prog :=
  ((only_finishLong s _ _ _).1 .memories (by decide)).2.2
@[simp] theorem State.finishLong_caps (s : State) (p : LongRec → Bool) (st : Nat) (r : LongRec → Res) : (s.finishLong p st r).caps = s.caps :=
  ((only_finishLong s _ _ _).1 .captures (by decide)).1
@[simp] theorem State.finishLong_capNum (s : State) (p : LongRec → Bool) (st : Nat) (r : LongRec → Res) : (s.finishLong p st r).capNum = s.capNum :=
  ((only_finishLong s _ _ _).1 .captures (by decide)).2
@[simp] theorem State.finishLong_bias (s : State) (p : LongRec → Bool) (st : Nat) (r : LongRec → Res) : (s.finishLong p st r).bias = s.bias :=
  (only_finishLong s _ _ _).1 .bias (by decide)
@[simp] theorem State.finishLong_sens (s : State) (p : LongRec → Bool) (st : Nat) (r : LongRec → Res) : (s.finishLong p st r).sens = s.sens :=
  ((only_finishLong s _ _ _).1 .monitor (by decide)).1
@[simp] theorem State.finishLong_mon (s : State) (p : LongRec → Bool) (st : Nat) (r : LongRec → Res) : (s.finishLong p st r).mon = s.mon :=
  ((only_finishLong s _ _ _).1 .monitor (by decide)).2
@[simp] theorem State.finishLong_time (s : State) (p : LongRec → Bool) (st : Nat) (r : LongRec → Res) : (s.finishLong p st r).time = s.time :=
  (only_finishLong s _ _ _).1 .time (by decide)
@[simp] theorem State.finishLong_rel (s : State) (p : LongRec → Bool) (st : Nat) (r : LongRec → Res) : (s.finishLong p st r).rel = s.rel :=
  (only_finishLong s _ _ _).1 .faults (by decide)
@[simp] theorem State.finishLong_nv (s : State) (p : LongRec → Bool) (st : Nat) (r : LongRec → Res) : (s.finishLong p st r).nv = s.nv :=
  (only_finishLong s _ _ _).1 .store (by decide)
@[simp] theorem State.finishLong_boot (s : State) (p : LongRec → Bool) (st : Nat) (r : LongRec → Res) : (s.finishLong p st r).boot = s.boot :=
  (only_finishLong s _ _ _).1 .boot (by decide)
@[simp] theorem State.finishLong_tap (s : State) (p : LongRec → Bool) (st : Nat) (r : LongRec → Res) : (s.finishLong p st r).tap = s.tap :=
  (only_finishLong s _ _ _).1 .tap (by decide)
@[simp] theorem State.finishLong_d2d (s : State) (p : LongRec → Bool) (st : Nat) (r : LongRec → Res) : (s.finishLong p st r).d2d = s.d2d :=
  ((only_finishLong s _ _ _).1 .d2d (by decide)).1
@[simp] theorem State.finishLong_mirrored (s : State) (p : LongRec → Bool) (st : Nat) (r : LongRec → Res) : (s.finishLong p st r).mirrored = s.mirrored :=
  ((only_finishLong s _ _ _).1 .d2d (by decide)).2
@[simp] theorem State.finishLong_fresh (s : State) (p : LongRec → Bool) (st : Nat) (r : LongRec → Res) : (s.finishLong p st r).fresh = s.fresh :=
  (only_finishLong s _ _ _).1 .free (by decide)
@[simp] theorem State.finishLong_pending (s : State) (p : LongRec → Bool) (st : Nat) (r : LongRec → Res) : (s.finishLong p st r).pending = s.pending :=
  (only_finishLong s _ _ _).1 .queue (by decide)

end Sys2Proof.Machine
end

