-- ==== Sys2Proof/Laws/Commands.lean ====
section
/-! SUPPORT. What the shared part of every command does: it enters execution, and with the common checks passed it goes on
to its own effect; a parameter at fault refuses it. -/

namespace Sys2Proof.Machine

/-- A check that has not refused, and those behind it. -/
theorem ite_none {α : Type} {p : Prop} [Decidable p] {v : α} {x : Option α} (h : (if p then some v else x) = none) :
    ¬p ∧ x = none := by
  by_cases hp : p
  · simp [hp] at h
  · exact ⟨hp, by simpa [hp] using h⟩

/-- Entering execution changes the commands' and the host's records alone. -/
theorem State.entered_eq (s : State) (c : Cmd) (op : Nat) :
    s.entered c op = { s with cmd := (s.entered c op).cmd, host := (s.entered c op).host } := by
  unfold State.entered State.enterExec
  cases c.route <;> dsimp only <;> split <;> rfl

theorem State.entered_held (s : State) (c : Cmd) (op : Nat) : (s.entered c op).cmd.held = s.cmd.held := by
  unfold State.entered State.enterExec
  cases c.route <;> dsimp only <;> split <;> rfl

theorem State.entered_longs (s : State) (c : Cmd) (op : Nat) : (s.entered c op).cmd.longs = s.cmd.longs := by
  unfold State.entered State.enterExec
  cases c.route <;> dsimp only <;> split <;> rfl

theorem State.entered_snap (s : State) (c : Cmd) (op : Nat) : (s.entered c op).cmd.snap = s.cmd.snap := by
  unfold State.entered State.enterExec
  cases c.route <;> dsimp only <;> split <;> rfl

theorem State.entered_route (s : State) (c : Cmd) (op : Nat) : (s.entered c op).cmd.route = s.cmd.route := by
  unfold State.entered State.enterExec
  cases c.route <;> dsimp only <;> split <;> rfl

/-- A command that starts: refused by the common checks, or on to its effect. -/
theorem State.command_start (s : State) (i : Instr) (c : Cmd) (op : Nat) (a : State → CmdArgs) (f : State → State)
    (h : s.cmd.draining = true ∨ (s.entered c op).mustWait c op = false) :
    s.command i c op a f = match (s.entered c op).refusal c op (a (s.entered c op)) with
      | some (st, d) => (if st = St.HOST_READ then (s.entered c op).readFailed (ringCode c.route) else s.entered c op).refuse c op st d
      | none => f (s.entered c op) := by
  unfold State.command
  have : (!s.cmd.draining && ((s.mapCmd fun m => { m with draining := false }).enterExec c op).mustWait c op) = false := by
    rcases h with h | h
    · simp [h]
    · simp only [State.entered] at h; simp [h]
  simp only [this, Bool.false_eq_true, if_false]
  rfl

/-- An accepted command has its effect. -/
theorem State.command_ok {s : State} {c : Cmd} {op need : Nat} {halves : List Nat} {doms : List (Nat × Nat)}
    (h : Accepted s c op need halves doms) (i : Instr) (a : State → CmdArgs) (f : State → State)
    (hm : (a (s.entered c op)).may = true) (hb : (a (s.entered c op)).bad = none)
    (hn : (a (s.entered c op)).need = need) (hh : (a (s.entered c op)).halves = halves)
    (hd : (a (s.entered c op)).doms = doms) :
    s.command i c op a f = f (s.entered c op) := by
  obtain ⟨h1, h2, h3⟩ := h
  rw [State.command_start s i c op a f h1]
  have : (s.entered c op).refusal c op (a (s.entered c op)) = none := by
    rw [← h3]; simp only [State.refusal, hm, hb, hn, hh, hd, h2]; simp
  rw [this]

/-- A parameter at fault refuses a command that is accepted otherwise. -/
theorem State.command_bad {s : State} {c : Cmd} {op need : Nat} {halves : List Nat} {doms : List (Nat × Nat)}
    (h : Accepted s c op need halves doms) (i : Instr) (a : State → CmdArgs) (f : State → State) (x : Nat)
    (hm : (a (s.entered c op)).may = true) (hb : (a (s.entered c op)).bad = some x)
    (hh : (a (s.entered c op)).halves = halves) :
    s.command i c op a f = (s.entered c op).refuse c op St.BAD_PARAM x := by
  obtain ⟨h1, h2, h3⟩ := h
  rw [State.command_start s i c op a f h1]
  have : (s.entered c op).refusal c op (a (s.entered c op)) = some (St.BAD_PARAM, x) := by
    simp only [State.refusal, hm, hb, hh, h2] at h3 ⊢
    obtain ⟨n1, h3⟩ := ite_none h3
    rw [if_neg n1]
    by_cases hop : op = 2
    · rw [if_pos hop] at h3 ⊢
      obtain ⟨n2, h3⟩ := ite_none h3
      rw [if_neg n2]
    · rw [if_neg hop] at h3 ⊢
      obtain ⟨n2, h3⟩ := ite_none h3
      obtain ⟨n3, h3⟩ := ite_none h3
      obtain ⟨n4, h3⟩ := ite_none h3
      obtain ⟨n5, h3⟩ := ite_none h3
      obtain ⟨n6, h3⟩ := ite_none h3
      obtain ⟨n7, h3⟩ := ite_none h3
      obtain ⟨n8, h3⟩ := ite_none h3
      obtain ⟨n9, h3⟩ := ite_none h3
      rw [if_neg n2, if_neg n3, if_neg n4, if_neg n5, if_neg n6, if_neg n7, if_neg n8, if_neg n9]
  rw [this]; rfl

/-- The state in which the checks are made is the command's own but for the commands' and the host's records. -/
theorem State.entered_ex (s : State) (c : Cmd) (op : Nat) : ∃ m h, s.entered c op = { s with cmd := m, host := h } :=
  ⟨_, _, s.entered_eq c op⟩

theorem refused_of {i : Instr} {s x : State} {c : Cmd} {op st d : Nat} (he : exec i s = .next x)
    (hx : x = (s.entered c op).refuse c op st d) : Refused i s c op st d := he.trans (by rw [hx])

theorem replies_of {i : Instr} {s x u : State} {c : Cmd} {op : Nat} {r : State → Res} {parts : List Part} {offs : List Nat}
    {P : State → Prop} (he : exec i s = .next x) (hx : x = u.complete c op St.OK (r u)) (ho : Only parts offs (s.entered c op) u)
    (hp : P u) : Replies i s c op r parts offs P := ⟨u, hp, ho, he.trans (by rw [hx])⟩

theorem begins_of {i : Instr} {s x u : State} {c : Cmd} {op : Nat} {w : LongWhat} {parts : List Part} {offs : List Nat}
    {P : State → Prop} (he : exec i s = .next x) (hx : x = u.beginLong c op w) (ho : Only parts offs (s.entered c op) u)
    (hp : P u) : Begins i s c op w parts offs P := ⟨u, hp, ho, he.trans (by rw [hx])⟩

end Sys2Proof.Machine
end

