-- ==== Sys2Proof/WellFormed.lean ====
section
/-! DEFINITION. The well-formed commands: the operands whose types admit values that no layout of the spec can carry. -/

namespace Sys2Proof

/-- The fixed fields of a command descriptor fit their places (Table 115), and its tag that of Table 35. -/
def Cmd.wf (c : Cmd) : Bool :=
  decide (c.tag < 65536) && decide (c.dlen < 2 ^ 32)
    && match c.route with
      | .t _ _ g => decide (g < 65536)
      | _ => true

/-- PARAM is 48 bytes long (Table 115). -/
def paramWf (p : List Byte) : Bool := decide (p.length = 48)

/-- A fetched descriptor is 64 bytes long (Table 115). -/
def FetchedDesc.wf (d : FetchedDesc) : Bool := decide (d.bytes.length = 64)

/-- A block carries eight payload bytes (R48). -/
def Blk.wf (b : Blk) : Bool := decide (b.bytes.length = 8)

/-- Payloads of control blocks (Table 12). -/
def payloads (l : List (List Byte)) : Bool := l.all fun b => decide (b.length = 8)

/-- A stretch of the stripe stream: blocks of lanes L0 to L9 (R87). -/
def rowsWf (rows : List (List (Nat × Blk))) : Bool := rows.all fun r => r.all fun b => decide (b.1 < 10) && b.2.wf

/-- A command whose operands its layout can carry. -/
def Instr.wf : Instr → Bool
  | .pathConfig c p => c.wf && paramWf p
  | .photoFinish c p => c.wf && paramWf p
  | .evtRoute c p => c.wf && paramWf p
  | .voteOwner c p => c.wf && paramWf p
  | .powerVote c p => c.wf && paramWf p
  | .flowOpen c p => c.wf && paramWf p
  | .flowModify c p => c.wf && paramWf p
  | .flowClose c p => c.wf && paramWf p
  | .flowQuery c p => c.wf && paramWf p
  | .laneRelay c p => c.wf && paramWf p
  | .laneTest c p => c.wf && paramWf p
  | .dlCarrierSet c p => c.wf && paramWf p
  | .ulCarrierSet c p => c.wf && paramWf p
  | .ulFilterSwap c p => c.wf && paramWf p
  | .beamLoad c p d _ => c.wf && paramWf p && decide (d.length ≤ c.dlen)
  | .beamRead c p => c.wf && paramWf p
  | .beamOwner c p => c.wf && paramWf p
  | .solverSet c p => c.wf && paramWf p
  | .dpdPathSet c p => c.wf && paramWf p
  | .dpdRead c p => c.wf && paramWf p
  | .dpdResume c p => c.wf && paramWf p
  | .heatRun c p => c.wf && paramWf p
  | .calRead c p => c.wf && paramWf p
  | .hopLoad c p => c.wf && paramWf p
  | .hopRead c p => c.wf && paramWf p
  | .loHop c p => c.wf && paramWf p
  | .feSchedSet c p d => c.wf && paramWf p && decide (d.length ≤ c.dlen)
  | .rffeScriptLoad c p d => c.wf && paramWf p && decide (d.length ≤ c.dlen)
  | .rffeXfer c p _ got => c.wf && paramWf p && decide (got.length ≤ 16)
  | .biasSet c p => c.wf && paramWf p
  | .biasRead c p => c.wf && paramWf p
  | .biasBootStore c p => c.wf && paramWf p
  | .biasOwner c p => c.wf && paramWf p
  | .monInject c p => c.wf && paramWf p
  | .monTest c p => c.wf && paramWf p
  | .slotBind c p => c.wf && paramWf p
  | .captureSet c p => c.wf && paramWf p
  | .captureArm c p => c.wf && paramWf p
  | .captureStop c p => c.wf && paramWf p
  | .captureTrigger c p => c.wf && paramWf p
  | .captureRead c p _ => c.wf && paramWf p
  | .captureOwner c p => c.wf && paramWf p
  | .beamBulk c p d => c.wf && paramWf p && decide (d.length ≤ c.dlen)
  | .filterLoad c p d => c.wf && paramWf p && decide (d.length ≤ c.dlen)
  | .imageLoad c p d => c.wf && paramWf p && decide (d.length ≤ c.dlen)
  | .nvLoad c p d => c.wf && paramWf p && decide (d.length ≤ c.dlen)
  | .amReceived _ b => b.line.all Blk.wf
  | .linkRemove _ l => payloads l
  | .linkRetrain _ l => payloads l
  | .linkAck _ l => payloads l
  | .linkNack _ l => payloads l
  | .linkAnswerTimeout _ tag => decide (tag < 256)
  | .trnFrameReceived _ b => decide (b.length = 8)
  | .relayNackRetry _ tag => decide (tag < 256)
  | .packetReceived _ rows => rowsWf rows
  | .llcpNak _ k => decide (k < 65536)
  | .llcpAck _ k => decide (k < 65536)
  | .llcpRsync _ k => decide (k < 65536)
  | .voidReceived _ rows => rowsWf rows
  | .wakeOrderedSet _ l => payloads l
  | .dlSymbolStart _ _ t _ => decide (t < Config.ticksPerCycle)
  | .ulSymbolWindow _ _ t _ _ => decide (t < Config.ticksPerCycle)
  | .heatStepDone _ n _ _ _ => decide (1 ≤ n) && decide (n ≤ 8)
  | .loHopEffect mask => decide (mask < 256)
  | .engineTaskStart _ l => l.all fun t => decide (t.service ≤ 3)
  | .imageInstallDone halves slot => decide (halves < 4) && decide (slot < 4 ∨ slot = 0xFF)
  | .registerWrite off _ _ => decide (off < 16384) && decide (off % 4 = 0)
  | .counterRead off => decide (off < 0x5000) && decide (off % 4 = 0)
  | .commandFetch d => d.wf
  | .hostReadError _ d => match d with
    | some x => x.wf
    | none => true
  | .tsyncPulse _ ps => decide (ps < 2035)
  | .d2dCheckFail _ _ _ bits _ _ => decide (bits.length = 15)
  | .splitModeEntry why => decide (1 ≤ why) && decide (why ≤ 3)
  | .batonBroadcastReceived _ b => decide (b.length = 6)
  | .blockLockAcquired .. | .laneHardFault .. | .ccSequenceSend .. | .ccSequenceReceived .. | .ebSlip .. | .amSend ..
  | .rxReadyReached .. | .trainComplete .. | .trainTimeout .. | .alignAmLock .. | .alignTimeout ..
  | .spareCheckComplete .. | .faultRetryTimer .. | .linkStartTimeout .. | .laneMarginal .. | .shortOfLanes ..
  | .checkerLock .. | .injOneWrite .. | .injContInject .. | .laneCtlWrite .. | .laneActivity .. | .wakeTone ..
  | .resumeTimeout .. | .nakRepeat .. | .replayTimeout .. | .rsyncRepeat .. | .packetSend ..
  | .sectionPacketReceived .. | .timingSet .. | .timingRequest .. | .txnReq .. | .msgReceived .. | .flowEffect ..
  | .dataBindingDeadline .. | .ulSectionSend .. | .carrierRecordEffect .. | .dlForwardWindowOpen ..
  | .symbolRelease .. | .txWarmingStart .. | .txIntervalStart .. | .txGate .. | .adcSliceRotate ..
  | .adcRotateForce .. | .adcSliceCalDone .. | .adcOverrange .. | .sprintStep .. | .agcIntervalEnd ..
  | .filterSwapTick .. | .ulPartialSumsReady .. | .partialSumCutoff .. | .beamEntryEffect .. | .beamBulkResume
  | .beamScrub .. | .rowTestDone .. | .estimateDeadline .. | .solverUpdateDue .. | .solveStart ..
  | .solverBankEffect .. | .solverStale .. | .dpdRestructure .. | .dpdSwap .. | .dpdRevertSwap .. | .cfrPulseSwap ..
  | .dpdEstimateDue .. | .dpdCaptureComplete .. | .dpdVerify .. | .orxRelay .. | .heatStart .. | .heatComplete ..
  | .backgroundGap .. | .backgroundCycle .. | .calValueEffect .. | .calStaleCheck .. | .refRateDetect ..
  | .refPllLock .. | .refclkLost | .refclkQualified .. | .slewComplete | .timeStepMute | .coastExpiry
  | .refclkReturn | .loLocked .. | .loLockTimeout .. | .loUnlock .. | .clockMonitorFail .. | .aonXtalFail
  | .referenceLinkFail | .scheduleEffect | .feTxLead .. | .feTxLag .. | .feRxLead .. | .feRxLag ..
  | .feBypEdge .. | .readinessDecision .. | .rffeScriptLaunch .. | .scriptTimeout .. | .mismatchMeasureDue ..
  | .nop .. | .cmac .. | .cmacc .. | .cmsb .. | .cmul .. | .cmulc .. | .cpow .. | .dmac .. | .aclr .. | .aadd ..
  | .asub .. | .ashr .. | .ashl .. | .ext .. | .extr .. | .exti .. | .add .. | .sub .. | .cadd .. | .csub ..
  | .and .. | .or .. | .xor .. | .shr .. | .shl .. | .conj .. | .swap .. | .mul .. | .cmuld .. | .norm .. | .abs ..
  | .min .. | .max .. | .rdp .. | .wrp .. | .rdk .. | .wrk .. | .rdf .. | .jmp .. | .call .. | .ret .. | .loop ..
  | .exit .. | .longImmediate .. | .recWait .. | .xferIn .. | .xferOut .. | .taskInfo .. | .bankRead ..
  | .dpdCommit .. | .solverPut .. | .solverCommit .. | .calPut .. | .airtime .. | .userNote .. | .pulsePut ..
  | .rlPut .. | .userBudgetExpiry .. | .shadowWindow .. | .katDone .. | .katRotation .. | .progParityError ..
  | .progScrub .. | .pacerBehind .. | .capturePreHeld .. | .captureTriggerSample .. | .captureRecordDone ..
  | .captureRelease .. | .captureDeliverResume .. | .housekeepingRound .. | .injectedConversionStart ..
  | .timedConversion .. | .railTrip .. | .auxRailRecover .. | .pwrfailAssert .. | .pwrfailRelease
  | .pfParkTimeout | .biasChangeoverDone .. | .biasDriverFault .. | .biasExternalFault .. | .reduceLoadRepeat
  | .mcCalibrateInPlace .. | .hostReset .. | .d3hot | .setupLock | .testModeEnter .. | .ringEnable ..
  | .ringDisable .. | .doorbell .. | .releaseWrite .. | .statusBaseWrite .. | .atNowRead | .hostWriteError ..
  | .irqModerationTimeout .. | .eventsLostWrite | .rdStatus .. | .rdReg .. | .wrReg .. | .pfSnap .. | .pfRead ..
  | .nvRd .. | .nvWr .. | .nvUnlock .. | .pcieLinkUp | .d0Restore | .aerUncorrectableError
  | .setAnchorTimeout .. | .atCompare .. | .h1CounterReload | .domainDrop .. | .powerEntryPrepare ..
  | .prepareAnswerTimeout .. | .powerEntryCommit .. | .powerEntryRetry .. | .wakeN | .hostifWake
  | .hostWriteDueWake | .sopWake .. | .domainEnterRun .. | .wakeLateTimeout .. | .timedVoteWakeStart
  | .timedVoteCast | .wakeHoldExpiry .. | .counterRebuild .. | .coastCountSave | .configScrub ..
  | .supervisorDiverge .. | .supervisorRestartDone .. | .sliceShadowTurn .. | .sliceParityFault ..
  | .sliceRelaySwitch .. | .dacCellReplace .. | .d2dWireRelay .. | .batonBroadcast .. | .batonCopyDone ..
  | .replaceRequestRepeat | .sliceMismatch .. | .powerOnReset | .resetNAssert | .resetNRelease
  | .coreResetRelease | .brownOutEnd | .offCoreReset | .startUpP0End | .startUpP1End ..
  | .startUpP2End .. | .startUpP3End .. | .nvWriteStart .. | .nvCopyVerified .. | .nvScrub .. | .faultLogEntry
  | .bypass .. | .idcode .. | .samplePreload .. | .extest .. | .extestPulse .. | .extestTrain .. | .clamp ..
  | .highz .. | .tapRelease .. | .trstN .. => true

end Sys2Proof
end

