-- ==== Sys2Proof/Tests/Slice0.lean ====
section
/-! SUPPORT. The model's own tests: ill-formed commands, the worked examples of the spec, and for every statement states
that meet its hypotheses. -/

namespace Sys2Proof.Tests

set_option Elab.async false

open Sys2Proof Sys2Proof.Machine

/-! ## Ill-formed commands: one for each check (WellFormed) -/

/-- A command that no check refuses, with its parameters. -/
def okCmd : Cmd := ⟨.n, 1, 0, 8, 0, 0, false, false⟩

/-- A block of eight zero bytes. -/
def okBlk : Blk := ⟨false, true, zeros 8⟩

theorem test_wf_ok : (Instr.pathConfig okCmd (zeros 48)).wf = true := by decide +kernel

theorem test_wf_tag : (Instr.pathConfig { okCmd with tag := 65536 } (zeros 48)).wf = false := by decide +kernel
theorem test_wf_dlen : (Instr.pathConfig { okCmd with dlen := 2 ^ 32 } (zeros 48)).wf = false := by decide +kernel
theorem test_wf_txn_tag : (Instr.evtRoute { okCmd with route := .t 1 false 65536 } (zeros 48)).wf = false := by decide +kernel
theorem test_wf_param : (Instr.pathConfig okCmd (zeros 47)).wf = false := by decide +kernel
theorem test_wf_data : (Instr.beamLoad okCmd (zeros 48) (zeros 9) none).wf = false := by decide +kernel
theorem test_wf_got : (Instr.rffeXfer okCmd (zeros 48) 0 (zeros 17)).wf = false := by decide +kernel
theorem test_wf_am : (Instr.amReceived 0 ⟨[okBlk, ⟨false, true, zeros 7⟩], 0⟩).wf = false := by decide +kernel
theorem test_wf_link : (Instr.linkRemove 0 [zeros 8, zeros 7]).wf = false := by decide +kernel
theorem test_wf_wake : (Instr.wakeOrderedSet 0 [zeros 9]).wf = false := by decide +kernel
theorem test_wf_trn : (Instr.trnFrameReceived 0 (zeros 7)).wf = false := by decide +kernel
theorem test_wf_answer : (Instr.linkAnswerTimeout 0 256).wf = false := by decide +kernel
theorem test_wf_nack_retry : (Instr.relayNackRetry 0 256).wf = false := by decide +kernel
theorem test_wf_packet : (Instr.packetReceived 0 [[(0, ⟨false, true, zeros 9⟩)]]).wf = false := by decide +kernel
theorem test_wf_packet_lane : (Instr.packetReceived 0 [[(0, okBlk), (10, okBlk)]]).wf = false := by decide +kernel
theorem test_wf_void : (Instr.voidReceived 0 [[(10, okBlk)]]).wf = false := by decide +kernel
theorem test_wf_nak : (Instr.llcpNak 0 65536).wf = false := by decide +kernel
theorem test_wf_ack : (Instr.llcpAck 0 65536).wf = false := by decide +kernel
theorem test_wf_rsync : (Instr.llcpRsync 0 65536).wf = false := by decide +kernel
theorem test_wf_fetch : (Instr.commandFetch ⟨zeros 63⟩).wf = false := by decide +kernel
theorem test_wf_read_error : (Instr.hostReadError 0 (some ⟨zeros 65⟩)).wf = false := by decide +kernel
theorem test_wf_dl_sym : (Instr.dlSymbolStart 0 0 Config.ticksPerCycle []).wf = false := by decide +kernel
theorem test_wf_ul_sym : (Instr.ulSymbolWindow 0 0 Config.ticksPerCycle [] []).wf = false := by decide +kernel
theorem test_wf_heat_step : (Instr.heatStepDone 0 9 [] [] none).wf = false := by decide +kernel
theorem test_wf_hop_mask : (Instr.loHopEffect 256).wf = false := by decide +kernel
theorem test_wf_task : (Instr.engineTaskStart 0 [⟨0, 4, 0, 0⟩]).wf = false := by decide +kernel
theorem test_wf_image : (Instr.imageInstallDone 3 4).wf = false := by decide +kernel
theorem test_wf_write : (Instr.registerWrite 16384 0 true).wf = false := by decide +kernel
theorem test_wf_write_align : (Instr.registerWrite 2 0 true).wf = false := by decide +kernel
theorem test_wf_read : (Instr.counterRead 0x5000).wf = false := by decide +kernel
theorem test_wf_tsync : (Instr.tsyncPulse true 2035).wf = false := by decide +kernel
theorem test_wf_d2d : (Instr.d2dCheckFail 0 0 0 (zeros 14) 0 0).wf = false := by decide +kernel
theorem test_wf_split : (Instr.splitModeEntry 4).wf = false := by decide +kernel
theorem test_wf_baton : (Instr.batonBroadcastReceived 0 (zeros 5)).wf = false := by decide +kernel

/-! ## The spec's worked examples -/

/-- ch. 03, one downlink slot: ATIME 0x190D_0000 is SFN 100, subframe 3, slot 1, symbol 0. -/
theorem test_atime : atimeWord ⟨100, 3, 1, 0, 0⟩ = 0x190D0000 := by decide +kernel

/-- ch. 03: at 30 kHz symbol 5 starts at 87,936 ticks and symbol 13 at 228,224; ch. 05: symbol 10 at 175,616. -/
theorem test_symbols : symStart 1 5 = 87936 ∧ symStart 1 13 = 228224 ∧ symStart 1 10 = 175616 ∧ symLen 1 0 = 17792 := by
  decide +kernel

/-- ch. 03: the least RSV_RATE of F12 is 1,386; ch. 05: that of F20 is 6.93 Gbit/s. -/
theorem test_min_rate :
    minRate { Flow.reset with layers := 0xFF, comp := 9 } 1 273 = 1386 ∧
      minRate { Flow.reset with layers := 0xF, comp := 9 } 1 273 = 693 := by decide +kernel

/-- ch. 04: mantissas (+180, -75) with exponent 5 are (5,760, -2,400). -/
theorem test_decompress : (unpackPrb 9 ([false, true, false, true] ++ intBits 9 180 ++ intBits 9 (-75))).map (·.head?) =
    some (some ⟨5760, -2400⟩) := by decide +kernel

/-- ch. 05: with a largest magnitude of 21,047, (15,380, -2,534) is coded with exponent 7 as (120, -20). -/
theorem test_compress : packPrb 9 [⟨15380, -2534⟩, ⟨21047, 0⟩] =
    [false, true, true, true] ++ intBits 9 120 ++ intBits 9 (-20) ++ intBits 9 164 ++ intBits 9 0 := by decide +kernel

/-- ch. 07: x = (4,815, -3,070) with a(0,0) = 4,096 and a(2,0) = (1,322, -46) leaves stage 4 as (4,861, -3,102). -/
theorem test_predistorter : dpdMag ⟨4815, -3070⟩ = 11420 ∧ basisTerm ⟨4815, -3070⟩ 11420 2 = ⟨146, -94⟩ ∧
    dpdSample [(0, ⟨4096, 0⟩), (16, ⟨1322, -46⟩)] [⟨4815, -3070⟩] [] = ⟨4861, -3102⟩ := by decide +kernel

/-- ch. 06: F20's solver load is 2,208,000 per second. -/
theorem test_solver_load :
    (let s : State := { State.reset with ulCar := [(0, { UlCarrier.reset 0 with scs := 1, nprb := 273 })], flows := [(20, { Flow.reset with state := 1, dir := 1 })] }
     s.solverLoad ⟨20, true, false, true, 80, 4, 1, 4, 40, 8192⟩) = (2208000, 1) := by decide +kernel

/-- ch. 11, the worked program: its words decode to the bundles the table names. -/
theorem test_bundles :
    decodeBundle 0xA200000000000000 = some (.limm 17 0) ∧ decodeBundle 0xB000000000000004 = some (.limm 24 4) ∧
    decodeBundle 0x0800000020002240 = some (.normal 8 ⟨false, 0, 0, 0, 0, .ld 0 0 0, .ld 1 1 0, false⟩) ∧
    decodeBundle 0x44000005000003FF = some (.loop ⟨0, 0, false⟩ 5 1023) ∧
    decodeBundle 0x028008C020002240 = some (.normal 2 ⟨true, 0, 0, 1, 3, .ld 0 0 0, .ld 1 1 0, false⟩) ∧
    decodeBundle 0x0D90058000000000 = some (.normal 0xD ⟨true, 2, 0, 0, 22, .nop, .nop, false⟩) ∧
    decodeBundle 0x0000000044800000 = some (.normal 0 ⟨false, 0, 0, 0, 0, .st 2 2 0, .nop, false⟩) ∧
    decodeBundle 0x4600000000000001 = some (.exit ⟨0, 0, false⟩ 1) := by decide +kernel

/-- ch. 11: of a series with T = 10 ms, instance 3 starts at 53 ms with a lag of 23 ms; instance 4 of the grid's 40 ms falls due at
60.5 ms, and instance 12, with a lag of 0.5 ms, makes the next fall due at 130 ms. -/
theorem test_pacer :
    (let run (grid at_ : Nat) : Option Pace := (({ State.reset with time := { State.reset.time with now := at_ * 49152 }
                                                                    pace := [(4 * 256, some ⟨grid * 49152, grid * 49152, 100 * 49152⟩)] } : State).paceStart 4 0).paceOf 4 0
     run 300 530 = some ⟨400 * 49152, 605 * 49152, 100 * 49152⟩ ∧ run 1200 1205 = some ⟨1300 * 49152, 1300 * 49152, 100 * 49152⟩) := by
  decide +kernel

/-- ch. 11: 0x4150_000C_0000_0000 jumps to 12 if SAT. -/
theorem test_jump : (decodeBundle 0x4150000C00000000).map (fun c => match c with
    | .jmp c t => (c.cond.val, t.val)
    | _ => (99, 0)) = some (5, 12) := by decide +kernel

end Sys2Proof.Tests

/-! ## States that meet the hypotheses of the statements -/

section Witnesses

set_option Elab.async false
set_option linter.unusedVariables false

open Sys2Proof Sys2Proof.Machine

theorem wit_LaneReceiverStatus_lock : ((State.reset.setF (Rg.LANE_STAT_STATE 3) 2).laneState 3 = 2) := by
  decide +kernel

theorem wit_LaneReceiverStatus_group : (let s := (State.reset.setF (Rg.LANE_STAT_STATE 0) 5).mapLink 0 fun l => { l with ccDue := true }; s.boot.core = false ∧ s.groupLanes 0 = [0] ∧ (s.link 0).ccDue = true ∧ (State.reset.link 0).ccDue = false) := by
  decide +kernel

theorem wit_LaneReceiverStatus_fill : (let s := (State.reset.setF (Rg.LANE_STAT_STATE 0) 5).setF (Rg.LANE_STAT_POS 0) 0; s.lowestLane 0 = some 0) := by
  decide +kernel

theorem wit_LaneTraining_taps : (let s := (State.reset.setF (Rg.LANE_STAT_STATE 1) 2).setF (Rg.LANE_STAT_BLOCK_LOCK 1) 1; let b := trnBytes 5 2 0 1 0; s.laneState 1 = 2 ∧ s.on (Rg.LANE_STAT_BLOCK_LOCK 1) = true ∧ (trnOf b).crcOk = true ∧ (trnOf b).idLane = 1 ∧ (trnOf b).idRate = s.f Rg.LNK_CFG_RATE ∧ (s.lane 1).fixed = false ∧ (trnOf b).preset = true) := by
  decide +kernel

theorem wit_LaneTraining_complete : (let s := (State.reset.setF (Rg.LANE_STAT_STATE 0) 2).mapLane 0 fun x => { x with rxReady := true, rxSeen := 3 }; s.laneState 0 = 2 ∧ (s.lane 0).rxReady = true ∧ 3 ≤ (s.lane 0).rxSeen) := by
  decide +kernel

theorem wit_LaneTraining_align : (let s := State.reset.setF (Rg.LANE_STAT_STATE 0) 3; s.laneState 0 = 3 ∧ (s.lane 0).fromFault = false ∧ s.laneRole 0 ≤ 3 ∧ s.vacant 0 (s.laneRole 0) = true ∧ s.on (Rg.LANE_STAT_AM_LOCK 0) = false ∧ s.f Rg.LNK_CFG_TRAIN_TRIES ≠ 0) := by
  decide +kernel

theorem wit_LaneTraining_check : (let s := ((State.reset.setF (Rg.LANE_STAT_STATE 0) 3).setF (Rg.LANE_STAT_AM_LOCK 0) 1).mapLane 0 fun x => { x with fromFault := true }; s.laneState 0 = 3 ∧ (s.lane 0).fromFault = true ∧ s.on (Rg.LANE_STAT_AM_LOCK 0) = true ∧ (s.lane 0).errSeen = false) := by
  decide +kernel

theorem wit_LaneTraining_retry : (let s := ((State.reset.setF (Rg.LANE_STAT_STATE 0) 6).setF (Rg.LANE_STAT_TRIES_LEFT 0) 2).setF (Rg.LANE_STAT_STATE 1) 5; s.laneState 0 = 6 ∧ s.raw (Rg.LANE_STAT_TRIES_LEFT 0) ≠ 0 ∧ s.boot.core = false ∧ s.linkLanes 0 = [1]) := by
  decide +kernel

theorem wit_LaneTraining_resume : (((State.reset.mapLane 9 fun x => { x with resuming := true }).lane 9).resuming = true) := by
  decide +kernel

theorem wit_TapConstraintsKept : (let s := ((State.reset.setF (Rg.LANE_STAT_STATE 2) 2).setF (Rg.LANE_STAT_BLOCK_LOCK 2) 1).setTaps 2 4 52 8; let b := trnBytes 5 0x94 0 2 0; tapsOk (s.raw (Rg.LANE_TAPS_PRE 2)) (s.raw (Rg.LANE_TAPS_MAIN 2)) (s.raw (Rg.LANE_TAPS_POST 2)) = true ∧ s.laneState 2 = 2 ∧ (trnOf b).crcOk = true ∧ (trnOf b).idLane = 2 ∧ (trnOf b).idRate = s.f Rg.LNK_CFG_RATE) := by
  decide +kernel

theorem wit_LaneFaultsAndMarkers_active : ((State.reset.setF (Rg.LANE_STAT_STATE 2) 5).laneState 2 = 5) := by
  decide +kernel

theorem wit_LaneFaultsAndMarkers_am : (let s := (State.reset.setF (Rg.LANE_STAT_STATE 2) 5).setF (Rg.LANE_STAT_POS 2) 2; let b : AmRx := ⟨[(scrBlk 0 ⟨true, false, amBytes 2 2 9 0 0⟩).1], 77⟩; let m := amOf (amBytes 2 2 9 0 0); s.laneState 2 = 5 ∧ s.raw (Rg.LANE_STAT_POS 2) = 2 ∧ (s.lane 2).lastAm = none ∧ (amSeen s.amInterval (descrBlks (s.lineOf 2).descr b.line).1).am = some m ∧ m.crcOk = true ∧ m.laneNo = 2 ∧ m.pos = 2 ∧ s.skewOk 2 m.amseq 77 = true ∧ (s.lane 2).crcRun = 0 ∧ (amOf [0x5A, 0x22]).crcOk = false ∧ (amSeen s.amInterval (descrBlks (s.lineOf 2).descr [(scrBlk 0 ⟨true, false, fitBytes 8 [0x5A, 0x22]⟩).1]).1).am.isSome = true) := by
  decide +kernel

theorem wit_LaneFaultsAndMarkers_spare : (let s := (State.reset.setF (Rg.LANE_STAT_STATE 4) 4).setF (Rg.LANE_STAT_STATE 1) 5; s.laneState 4 = 4 ∧ s.laneState 1 = 5 ∧ s.spareReady 0 = some 4 ∧ s.on Rg.LNK_CFG_AUTO_RELAY = true ∧ ((s.link 0).out.any fun o => o.op == 2) = false) := by
  decide +kernel

theorem wit_LinkBlocks_remove : (let s := State.reset.setF (Rg.LANE_STAT_STATE 1) 5; let l := [linkBytes 1 7 1 0xF 1 2]; let m := [linkBytes 1 7 2 0xF 1 2]; let b := linkOf (linkBytes 1 7 1 0xF 1 2); let c := linkOf (linkBytes 1 7 2 0xF 1 2); LinkBlock s 0 1 l b ∧ LinkBlock s 0 1 m c ∧ s.boot.core = false ∧ ((s.link 0).out.find? fun o => o.op == 1 && o.old == 1) = none ∧ b.old = 1 ∧ s.laneState 1 = 5 ∧ c.old = 2 ∧ s.laneState 2 = 0 ∧ s.linkLanes 0 = [1]) := by
  decide +kernel

theorem wit_LinkBlocks_fault : (let s := ((State.reset.setF (Rg.LANE_STAT_STATE 1) 6).setF (Rg.LANE_STAT_STATE 0) 5).setF (Rg.LANE_STAT_TRIES_LEFT 1) 3; let l := [linkBytes 5 7 1 0xF 1 2]; let b := linkOf (linkBytes 5 7 1 0xF 1 2); LinkBlock s 0 5 l b ∧ s.boot.core = false ∧ b.old = 1 ∧ s.laneState 1 = 6 ∧ s.raw (Rg.LANE_STAT_TRIES_LEFT 1) ≠ 0) := by
  decide +kernel

theorem wit_LinkBlocks_relay : (let o : LinkOut := ⟨2, 9, 0xF, 4, 1, 0, 0, 0, false⟩; let s := State.reset.mapLink 0 fun l => { l with out := [o] }; let l := [linkBytes 3 9 0xF 4 1 0]; let m := [linkBytes 4 9 0xF 4 1 0]; LinkBlock s 0 3 l (linkOf (linkBytes 3 9 0xF 4 1 0)) ∧ LinkBlock s 0 4 m (linkOf (linkBytes 4 9 0xF 4 1 0)) ∧ ((s.link 0).out.find? fun x => x.tag == 9) = some o ∧ ((s.link 0).out.find? fun x => x.tag == 9 && !x.waitRetry) = some o ∧ o.op = 2 ∧ 10 ≤ o.old ∧ o.new < 10 ∧ o.pos ≤ 3 ∧ o.nacks < 2 ∧ o.repeats < 10 ∧ s.boot.core = false) := by
  decide +kernel

theorem wit_LinkBlocks_retrain : (let o : LinkOut := ⟨5, 9, 4, 0xF, 0, 0, 0, 0, true⟩; let s := State.reset.mapLink 0 fun l => { l with out := [o] }; LinkBlock s 0 3 [linkBytes 3 9 4 0xF 0 0] (linkOf (linkBytes 3 9 4 0xF 0 0)) ∧ ((s.link 0).out.find? fun x => x.tag == 9) = some o ∧ ((s.link 0).out.find? fun x => x.tag == 9 && x.waitRetry) = some o ∧ o.op = 5 ∧ s.boot.core = false) := by
  decide +kernel

theorem wit_LinkBlocks_start : (let s := State.reset.mapLink 1 fun l => { l with aligned := true }; (s.link 1).aligned = true ∧ (s.link 1).started = false) := by
  decide +kernel

theorem wit_LinkBlocks_short : (let s := State.reset.mapLink 1 fun l => { l with started := true }; s.short 1 = true ∧ (s.link 1).started = true) := by
  decide +kernel

theorem wit_LaneTests_checker : (let s := (((State.reset.setF (Rg.LANE_STAT_STATE 0) 7).setF (Rg.LANE_CTL_CHK_EN 0) 1).setF (Rg.LANE_CTL_TEST_MODE 0) 1).setF (Rg.LANE_INJ_INJ_CONT 0) 1; let u := s.mapLane 0 fun x => { x with chkRun := 127, chkReg := List.replicate 31 true }; let v := s.setF (Rg.LANE_STAT_CHK_LOCK 0) 1; s.laneState 0 = 7 ∧ s.on (Rg.LANE_CTL_CHK_EN 0) = true ∧ s.raw (Rg.LANE_CTL_TEST_MODE 0) ≠ 5 ∧ u.on (Rg.LANE_STAT_CHK_LOCK 0) = false ∧ (u.lane 0).chkRun = 127 ∧ (prbsTaps 1).1 ≤ (u.lane 0).chkReg.length ∧ false = prbsBit 1 (u.lane 0).chkReg ∧ v.on (Rg.LANE_STAT_CHK_LOCK 0) = true ∧ true ≠ prbsBit 1 (v.lane 0).chkReg ∧ s.on (Rg.LANE_INJ_INJ_CONT 0) = true ∧ s.f (Rg.LANE_INJ_INJ_TYPE 0) = 0 ∧ (s.setF (Rg.LANE_INJ_INJ_TYPE 0) 1).f (Rg.LANE_INJ_INJ_TYPE 0) ≠ 0) := by
  decide +kernel

theorem wit_LaneTests_locked : ((State.reset.setF Rg.CFG_STAT_LOCKED 1).locked = true ∧ State.reset.locked = false ∧ State.reset.laneState 0 ≠ 7) := by
  decide +kernel

theorem wit_LaneTests_wake : (let s := (((State.reset.setF (Rg.LANE_STAT_STATE 6) 1).mapLane 6 fun x => { x with former := some 5 }).setDom 1 6 3).setF Rg.PM_CFG_TONE_EN 1; s.laneState 6 = 1 ∧ (s.lane 6).former = some 5 ∧ ((s.mapLane 6 fun x => { x with former := some 3 }).lane 6).former = some 3 ∧ s.dom 1 6 = 3 ∧ (s.setDom 1 6 2).dom 1 6 = 2 ∧ s.on Rg.PM_CFG_TONE_EN = true) := by
  decide +kernel

theorem wit_RetryReceiver : (let s := ((State.reset.mapLink 0 fun l => { l with started := true }).setF (Rg.LANE_STAT_STATE 0) 5).setF (Rg.LANE_STAT_POS 0) 0; let l := packetBytes 4 0 0 0 0 0 []; let rows := (packetBlks l).map fun b => [(0, b)]; let m := packetBytes 1 128 65030 0 0 0 [1, 2, 3, 4]; let rows2 := (packetBlks m).map fun b => [(0, b)]; s.linkUp 0 = true ∧ GoodPacket s 0 rows l ∧ (hdrOf l).type ≠ 7 ∧ (s.pkt 0).e < 65536 ∧ (hdrOf l).seq = (s.pkt 0).e ∧ GoodPacket s 0 rows2 m ∧ (∀ k, k ≤ 20 → ((hdrOf m).seq + k) % 65536 ≠ (s.pkt 0).e)) := by
  decide +kernel

theorem wit_RetryReceiver_dup : (let s := (((State.reset.mapLink 0 fun l => { l with started := true }).mapPkt 0 fun p => { p with e := 5 }).setF (Rg.LANE_STAT_STATE 0) 5).setF (Rg.LANE_STAT_POS 0) 0; let l := packetBytes 4 0 65029 0 0 0 []; let rows := (packetBlks l).map fun b => [(0, b)]; s.linkUp 0 = true ∧ GoodPacket s 0 rows l ∧ ((hdrOf l).seq + 512) % 65536 = (s.pkt 0).e) := by
  decide +kernel

theorem wit_RetryTraffic_void : (let s := ((State.reset.mapLink 0 fun l => { l with started := true }).setF (Rg.LANE_STAT_STATE 0) 5).setF (Rg.LANE_STAT_POS 0) 0; let l := packetBytes 8 0 0 0 0 0 []; let rows := (packetBlks l).map fun b => [(0, b)]; let m := packetBytes 8 0 9 0 0 0 []; let rows2 := (packetBlks m).map fun b => [(0, b)]; s.linkUp 0 = true ∧ GoodPacket s 0 rows l ∧ (hdrOf l).type = 8 ∧ (hdrOf l).ver = 1 ∧ (hdrOf l).seq = (s.pkt 0).e ∧ GoodPacket s 0 rows2 m ∧ (hdrOf m).seq ≠ (s.pkt 0).e) := by
  decide +kernel

theorem wit_RetryTraffic_nak : (let s := State.reset.mapPkt 0 fun p => { p with nakOut := true, rsync := some 4 }; (s.pkt 0).nakOut = true ∧ (s.pkt 0).rsync = some 4) := by
  decide +kernel

theorem wit_RetryTraffic_held : (let o : HeldPkt := ⟨7, ⟨1, 3, 1, 0, []⟩, false⟩; let s := (State.reset.mapLink 0 fun l => { l with started := true }).mapPkt 0 fun p => { p with held := [o] }; s.linkUp 0 = true ∧ (s.pkt 0).held = [o] ∧ (s.pkt 0).held.length ≤ (6 + 65536 - o.seq) % 65536 ∧ (s.pkt 0).resends < s.f Rg.PKT_CFG_RETRY_MAX) := by
  decide +kernel

theorem wit_RetryTraffic_giveup : (let o : HeldPkt := ⟨7, ⟨1, 3, 1, 0, []⟩, false⟩; let s := State.reset.mapPkt 0 fun p => { p with held := [o], resends := 200 }; (s.pkt 0).held ≠ [] ∧ s.f Rg.PKT_CFG_RETRY_MAX ≤ (s.pkt 0).resends) := by
  decide +kernel

theorem wit_PacketSending : (let it : TxItem := ⟨1, 3, 1, 0, []⟩; let s := (((State.reset.mapLink 0 fun l => { l with started := true }).mapPkt 0 fun p => { p with queue := [it] }).setF (Rg.LANE_STAT_STATE 0) 5).setF (Rg.LANE_STAT_POS 0) 0; s.linkUp 0 = true ∧ s.boot.core = false ∧ s.txLanes 0 = [0] ∧ (s.pkt 0).llcp = [] ∧ (s.pkt 0).rsync = none ∧ (s.pkt 0).resendLeft = 0 ∧ pickTx s.time.count ((s.takeOver 0).pkt 0).queue = some (it, []) ∧ canHold (s.pkt 0) it = true) := by
  decide +kernel

theorem wit_PacketSending_llcp : (let l : Llcp := ⟨true, none⟩; let s := (((State.reset.mapLink 0 fun l => { l with started := true }).mapPkt 0 fun p => { p with llcp := [l] }).setF (Rg.LANE_STAT_STATE 0) 5).setF (Rg.LANE_STAT_POS 0) 0; s.linkUp 0 = true ∧ s.txLanes 0 ≠ [] ∧ (s.pkt 0).llcp = [l]) := by
  decide +kernel

theorem wit_PacketSending_frame : (let l : List Byte := zeros 24; l.length % 4 = 0 ∧ 20 ≤ l.length ∧ l.length ≤ 9216) := by
  decide +kernel

theorem wit_SectionsAndFlows_section : (
    let s : State := { State.reset.mapLink 0 (fun l => { l with started := true }) with flows := [(5, { Flow.reset with state := 1, layers := 1 })], dlCar := [(0, { DlCarrier.reset 0 with en := true, scs := 1, log2n := 12, nprb := 273 })] }
    let y : List Byte := beBytes 1 0x20 ++ beBytes 1 1 ++ beBytes 2 9 ++ beBytes 4 (atimeWord ⟨0, 0, 0, 6, 0⟩) ++ beBytes 4 (2 * 16384 + 25) ++ [0, 1] ++ zeros 98
    let b := packetBytes 1 0 0 0 5 1 y
    let x : Section := ⟨2, 1, 9, ⟨0, 0, 0, 6, 0⟩, 0, 2, 25, [0, 1] ++ zeros 98⟩
    let ctx := s.flowAt 5 (countOf 1 x.at_)
    (hdrOf b).type = 1 ∧ (hdrOf b).flow = 5 ∧ sectionsOf (hdrOf b).nsec (payload b) = [x] ∧ lenOk s.pathCount ctx.comp x = true ∧ s.linkUp 0 = true ∧ (s.flowLast 5).dir = 0 ∧ ctx.state = 1 ∧ ctx.dir = 0 ∧ ctx.half = 0 ∧
      s.flowCarrier ctx = some (1, 273) ∧ stampOk 1 { x.at_ with tick := 0 } = true ∧
      windowOf s.time.count (countOf 1 { x.at_ with tick := 0 }) ctx.lead = 0 ∧
      windowOf (s.time.count + 200000) (countOf 1 { x.at_ with tick := 0 }) ctx.lead = 2) := by
  decide +kernel

theorem wit_SectionsAndFlows_effect : (let g : Flow := { Flow.reset with state := 1 }; let s : State := { State.reset with flowFx := [(5, [⟨0, some g⟩])] }; tget (fun _ => ([] : List FlowFx)) s.flowFx 5 = [⟨0, some g⟩] ∧ 0 ≤ ahead 0 s.time.count ∧ (s.flow 5).state = 0 ∧ g.state ≠ 0) := by
  decide +kernel

theorem wit_SectionsAndFlows_sums : (let u : SumSym := { flow := 5, sym := 0, half := 0, partial_ := false, res := [] }; let s : State := { State.reset with sums := [u], flows := [(5, { Flow.reset with state := 1 })] }; (s.sums.find? fun u => u.flow == 5 && u.sym == 0 && u.half == 0) = some u ∧ s.isShed 5 = false) := by
  decide +kernel

theorem wit_TimeAndRequests_set : (let s := State.reset.mapLink 0 fun l => { l with started := true }; s.linkUp 0 = true ∧ (s.setF Rg.AT_CFG_SET_EN 0).on Rg.AT_CFG_SET_EN = false ∧ (s.setF Rg.AT_CFG_SET_EN 1).on Rg.AT_CFG_SET_EN = true ∧ stampOk s.muRef (setOf [1]).stamp = true ∧ byteAt [1] 0 = 1 ∧ byteAt [1] 1 % 2 = 0 ∧ byteAt [3] 0 = 3 ∧ ((s.mapLink 0 fun l => { l with amAt := some 0 }).link 0).amAt = some 0 ∧ (let b : List Byte := [0, 9, 1, 0, 5]; beNat b 2 1 = 1 ∧ opcodes.contains (byteAt b 4) = true) ∧ s.waitingSet 0 = none ∧ (s.setF Rg.PKT_CFG_TUNNEL_EN 0).on Rg.PKT_CFG_TUNNEL_EN = false ∧ (s.setF Rg.PKT_CFG_TUNNEL_EN 1).on Rg.PKT_CFG_TUNNEL_EN = true ∧ s.standalone = false ∧ s.cmd.txns.length < 32 ∧ opcodes.contains 0x05 = true) := by
  decide +kernel

theorem wit_TimeAndRequests_wake : (let s := State.reset; s.shutdown = false ∧ s.split = false ∧ s.dom 1 6 ≤ 1 ∧ (let b : List Byte := withCrc [0xA5, 2, 0, 1, 3]; let c : List Byte := withCrc [0xA5, 2, 0, 2, 4]; let d : List Byte := withCrc [0xA5, 2, 0, 7, 5]; pickCopy 0xA5 [b] = some b ∧ pickCopy 0xA5 [c] = some c ∧ pickCopy 0xA5 [d] = some d ∧ byteAt b 3 = 1 ∧ byteAt c 3 = 2 ∧ byteAt d 3 = 7 ∧ byteAt b 1 = 2 ∧ byteAt b 2 = 0) ∧ s.time.lastWake = none ∧ s.voteOwner 0 6 ≠ 0 ∧ s.dom 0 6 = 0) := by
  decide +kernel

theorem wit_DownlinkSymbols_pend : (let x : PendDl := { car := DlCarrier.reset 1, at_ := 0, from_ := 7 }; let y : PendUl := { car := UlCarrier.reset 1, at_ := 0 }; let s : State := { State.reset with dlPend := [(1, [x])], ulPend := [(1, [y])] }; tget (fun _ => ([] : List PendDl)) s.dlPend 1 = [x] ∧ tget (fun _ => ([] : List PendUl)) s.ulPend 1 = [y] ∧ s.reached x.at_ = true ∧ (s.dl 1).en = false) := by
  decide +kernel

theorem wit_DownlinkSymbols_start : (let s : State := { State.reset.setF Rg.CFG_STAT_PATHCFG 1 with dlCar := [(0, { DlCarrier.reset 0 with en := true, scs := 1, log2n := 12, nprb := 273 })] }
    (s.dlAt 0 0).en = true ∧ s.pathCount ≠ 0 ∧ s.dom 0 0 = 0 ∧ s.arrDown 0 = false ∧ tget (fun _ => 0) s.backoff 0 < 2 ∧ s.pathIn 3 = true ∧ s.groupRun 0 = true ∧ (s.muMax false).isSome = true) := by
  decide +kernel

theorem wit_DownlinkSymbols_release : (let s : State := { State.reset.setF Rg.CFG_STAT_PATHCFG 1 with
      sched := some { rec_ := ⟨1, 1, ⟨0, 0, 0, 0, 0⟩, [0]⟩, at_ := 0 }
      dlCar := [(0, { DlCarrier.reset 0 with en := true, scs := 1, log2n := 12, nprb := 273 })]
      txp := [(3, { TxPath.reset with buf := [(0, [])] })] }
    s.pathIn 3 = true ∧ s.groupRun 0 = true ∧ (s.muMax false).isSome = true ∧ s.touches 0 0 (s.intervalLen 0) = true ∧ (s.buffered 3 0 (s.intervalLen 0)).isSome = true) := by
  decide +kernel

theorem wit_TransmitStates : (let s : State := { ((((State.reset.setF Rg.CFG_STAT_PATHCFG 1).setF (Rg.LO_STAT_SERVING 0) 1).setF (Rg.LO_STAT_STATE 0) 3).setF (Rg.LO_STAT_ENTRY 0) 5) with
      grp := [(0, { GroupSt.reset with entry := some 5, need := 0 })], hops := [(5, { HopEnt.reset with valid := true })]
      sched := some { rec_ := ⟨1, 1, ⟨0, 0, 0, 0, 0⟩, [0]⟩, at_ := 0 }
      txp := [(3, { TxPath.reset with state := 1 }), (4, { TxPath.reset with state := 2, blanks := [(0, true)] })
        , (5, { TxPath.reset with state := 2, next := some ⟨0, true, []⟩ }), (6, { TxPath.reset with state := 3, mute := true })] }
    s.canTx 3 = true ∧ s.inTx 0 = true ∧ s.muted 3 = false ∧ s.contentBlank 3 0 ≠ some true ∧ s.groupReady 0 = true ∧ (s.tx 3).state = 1 ∧
      s.canTx 4 = true ∧ s.muted 4 = false ∧ (s.tx 4).state = 2 ∧ s.contentBlank 4 0 = some true ∧ s.ref.muteFrom = none ∧
      s.canTx 5 = true ∧ s.muted 5 = false ∧ (s.tx 5).state = 2 ∧ s.contentBlank 5 0 ≠ some true ∧ (s.tx 5).next = some ⟨0, true, []⟩ ∧
      s.canTx 6 = true ∧ (s.tx 6).state = 3 ∧ s.muted 6 = true) := by
  decide +kernel

theorem wit_TransmitStates_receive : (let s : State := { State.reset.setF Rg.CFG_STAT_PATHCFG 1 with sched := some { rec_ := ⟨1, 1, ⟨0, 0, 0, 0, 0⟩, [0x5555555]⟩, at_ := 0 }, txp := [(6, { TxPath.reset with state := 3 })] }
    s.canTx 6 = true ∧ (s.tx 6).state = 3 ∧ s.ref.muteFrom = none ∧ s.codeAt 0 = some 1) := by
  decide +kernel

theorem wit_ReceiveConverters_rotate : (let s := (State.reset.setF Rg.UL_CFG_ROT_EN 1).mapConv (.rx 3 false) fun c => { c with due := some 0, found := [(8, some ⟨1, 2, 3⟩)] }; let t : State := { s with time := { s.time with now := 4915200 } }; s.rotates (.rx 3 false) = true ∧ s.rotateWaits (.rx 3 false) false = false ∧ s.rotates (.orx 0 true) = true ∧ s.rotateWaits (.orx 0 true) true = true ∧ tget (fun _ => none) (s.convOf (.rx 3 false)).found (s.convOf (.rx 3 false)).resting = some ⟨1, 2, 3⟩ ∧ t.rotates (.rx 3 false) = true ∧ (t.convOf (.rx 3 false)).due = some 0 ∧ 0 + 4915200 ≤ t.time.now ∧ (s.convOf (.rx 3 false)).retired = [] ∧ (s.convOf (.rx 3 false)).failed.contains (s.convOf (.rx 3 false)).resting = false) := by
  decide +kernel

theorem wit_ReceiveConverters_sprint : (let s : State := { ((State.reset.setF Rg.UL_AGC_AGC_EN 1).setF Rg.UL_AGC_SPRINT_EN 1) with
      sched := some { rec_ := ⟨1, 1, ⟨0, 0, 0, 0, 0⟩, [2 ^ 28 - 1 - (2 ^ 28 - 1) / 3 * 2]⟩, at_ := 0 }
      rxp := [(3, { RxPath.reset with ovr := true })] }
    (s.rx 3).ovr = true ∧ s.on Rg.UL_AGC_SPRINT_EN = true ∧ s.agcRuns 3 s.time.count = true ∧ (s.rx 3).att < s.f Rg.UL_AGC_ATT_MAX ∧ overCode 32767 = true ∧ overCode 0 = false ∧ (s.rx 4).ovr = false ∧
      s.agcRuns 4 ((s.time.count + Config.ticksPerCycle - 1) % Config.ticksPerCycle) = true ∧ (s.rx 4).energy = 0 ∧ (s.rx 4).pendBypass = none ∧ (s.rx 4).sprintNow = false ∧ (s.rx 4).sprintLast = false) := by
  decide +kernel

theorem wit_ReceiveConverters_filter : (let s : State := { State.reset with filt := [(2, { FiltSt.reset with swapAt := some 0 })] }; (s.filtOf 2).swapAt = some 0 ∧ s.reached 0 = true) := by
  decide +kernel

theorem wit_UplinkSums_window : (let s : State := { State.reset.setF Rg.CFG_STAT_PATHCFG 1 with ulCar := [(0, { UlCarrier.reset 0 with en := true, scs := 1, log2n := 12, nprb := 273 })] }
    (s.ulAt 0 0).en = true ∧ s.carries = true ∧ s.pathCount ≠ 0 ∧ s.dom 0 0 = 0 ∧ s.arrDown 0 = false ∧ s.split = false ∧ (∀ p ∈ halfPaths 0, (s.rx p).buf = []) ∧ s.pathIn 3 = true) := by
  decide +kernel

theorem wit_UplinkSums_touches : (let s : State := { State.reset.setF Rg.CFG_STAT_PATHCFG 1 with sched := some { rec_ := ⟨1, 1, ⟨0, 0, 0, 0, 0⟩, [0x5555555]⟩, at_ := 0 }, ulCar := [(0, { UlCarrier.reset 0 with en := true, scs := 1, log2n := 12, nprb := 273 })] }
    s.touches 1 0 (symTicks (s.ulAt 0 0).scs 0) = true) := by
  decide +kernel

theorem wit_UplinkSums_parts : (let x : PartSum := { flow := 5, sym := 0, half := 0, layer := 0, prb := 0, res := [], e := 0 }
    let s : State := { State.reset.setF Rg.CFG_STAT_PATHCFG 3 with parts := [x, { x with half := 1 }] }
    s.split = false ∧ 32 < s.pathCount ∧ (s.parts.filter fun x => x.flow == 5 && x.sym == 0 && x.half == 0) ≠ [] ∧
      (s.parts.filter fun x => x.flow == 5 && x.sym == 0 && x.half == 1) ≠ [] ∧ s.d2dHas (1 - (s.flow 5).half) (.sums 5 0) = false ∧ s.soleSum 5 0 (s.flow 5).half ≠ []) := by
  decide +kernel

theorem wit_BeamTable_effect : (let s : State := { State.reset with beams := [(7, { BeamEnt.reset 7 with load := some ⟨8192, 8192, 0⟩ })] }; (s.beam 7).load = some ⟨8192, 8192, 0⟩ ∧ s.reached 0 = true ∧ (s.beam 7).state ≠ 3 ∧ (∀ w ∈ (s.beam 7).was, w.until_ ≤ s.time.now)) := by
  decide +kernel

theorem wit_BeamTable_unusable : (let s : State := { State.reset with beams := [(7, { BeamEnt.reset 7 with load := some ⟨8192, 8192, 0⟩, state := 3 })], bulk := [⟨⟨.n, 0, 0, 0, 0, 0, false, false⟩, 0, 0, []⟩] }; (s.beam 7).load = some ⟨8192, 8192, 0⟩ ∧ s.reached 0 = true ∧ (s.beam 7).state = 3 ∧ s.bulk.length = 1 ∧ ∀ b ∈ s.bulk, b.left = []) := by
  decide +kernel

theorem wit_BeamTable_row : (let s : State := { State.reset.setF Rg.BW_CFG_SCRUB_EN 1 with beams := [(7, { BeamEnt.reset 7 with state := 1 })], rows := [(8, { BeamRow.reset with testing := true })] }; s.on Rg.BW_CFG_SCRUB_EN = true ∧ s.isStaging 0 7 = false ∧ s.entryOf 0 7 = some 7 ∧ (s.beam 7).state = 1 ∧ (s.beam 7).rowOn 0 = some 7 ∧ (s.row 0 7).testing = false ∧ (s.row 0 8).testing = true ∧ (s.entryOf 0 8).isSome = true ∧ (s.dpdOf 3).ident = false ∧ (s.sparesOf 0).length = 128) := by
  decide +kernel

theorem wit_SolverUpdates : (let r : SolverRec := { flow := 5, en := true, uplink := true, regular := true, reg := 0, engines := 1, period := 1, maxAge := 4, offset := 0, norm := 0 }
    let s : State := { State.reset with solvRec := [(5, some r)], solv := [(5, { SolvSt.reset with waiting := true, freshOcc := true, y := { SolvBank.reset with state := 3 } })] }
    let u : State := { s with solv := [(5, { SolvSt.reset with x := { SolvBank.reset with state := 2 }, y := { SolvBank.reset with state := 3 } })] }
    let v : State := { s with solv := [(5, { SolvSt.reset with x := { SolvBank.reset with state := 3 } })] }
    (s.solver 5).isSome = true ∧ (s.solvSt 5).waiting = true ∧ (s.solvSt 5).freshOcc = true ∧ (s.solvSt 5).x.state = 0 ∧
      (u.solvSt 5).x.state = 2 ∧ u.reached (u.solvSt 5).x.effectAt = true ∧ (u.solvSt 5).y.state = 3 ∧ (u.solvSt 5).freshOcc = false ∧
      (v.solvSt 5).x.state = 3 ∧ v.olderThan 0 r.maxAge (v.solvSt 5).x.occTick = false) := by
  decide +kernel

theorem wit_PredistortionBanks : (let d := DpdPath.reset 3
    let s : State := { State.reset with dpd := [(3, { d with struct_ := some (DpdRec.reset 3), newPulse := some [] }), (4, { d with b := DpdBank.reset 1, swapAt := some 0 }), (5, { d with a := DpdBank.reset 2, b := DpdBank.reset 4, revertAt := some 0 }), (6, { d with a := DpdBank.reset 2, b := DpdBank.reset 4, record := some ⟨[], [], [], [], []⟩ })] }
    (s.dpdOf 3).struct_ = some (DpdRec.reset 3) ∧ (s.dpdOf 3).serving.state = 3 ∧ (s.dpdOf 3).idle.state = 0 ∧ (s.dpdOf 3).newPulse = some [] ∧
      (s.dpdOf 4).idle.state = 1 ∧ (s.dpdOf 4).swapAt = some 0 ∧ s.reached 0 = true ∧ (s.dpdOf 5).idle.state = 4 ∧ (s.dpdOf 6).record = some ⟨[], [], [], [], []⟩ ∧ (s.dpdOf 4).seedWait = false ∧ (s.dpdOf 4).direct = false ∧
      (s.dpdOf 4).dropDue = false ∧ (s.dpdOf 4).soft = none ∧ (∀ q ∈ (s.dpdOf 4).rec_.neigh, q = none) ∧
      (s.dpdOf 5).revertAt = some 0 ∧ (s.dpdOf 5).serving.state = 2 ∧ (s.dpdOf 6).serving.state = 2 ∧ (s.dpdOf 6).revertAt = none) := by
  decide +kernel

theorem wit_PredistortionBanks_parity : (let s : State := { (State.reset.setF Rg.CFG_STAT_PATHCFG 1).setF Rg.DPD_CFG_DPD_EN 1 with
      sched := some { rec_ := ⟨1, 1, ⟨0, 0, 0, 0, 0⟩, [0]⟩, at_ := 0 }
      dlCar := [(0, { DlCarrier.reset 0 with en := true, scs := 1, log2n := 12, nprb := 273 })]
      txp := [(3, { TxPath.reset with buf := [(0, [])] })] }
    s.pathIn 3 = true ∧ s.groupRun 0 = true ∧ (s.muMax false).isSome = true ∧ s.touches 0 0 (s.intervalLen 0) = true ∧ (s.buffered 3 0 (s.intervalLen 0)).isSome = true ∧ s.dpdOn 3 = true ∧ (s.dpdOf 3).ident = false) := by
  decide +kernel

theorem wit_PredistortionEstimates : (let s := ((State.reset.setF Rg.CFG_STAT_PATHCFG 1).setF Rg.DPD_CFG_DPD_EN 1).setF Rg.DPD_CFG_EST_EN 1
    s.estOn 3 = true ∧ s.pathIn 3 = true ∧ s.groupRun 0 = true ∧ (s.dpdOf 3).estDue = false ∧ (s.dpdOf 3).refresh = false ∧
      (s.dpdOf 3).serving.state = 3 ∧ (s.dpdOf 3).idle.state = 0 ∧ s.capWanted 3 = false ∧ s.orxWorks 2 = true) := by
  decide +kernel

theorem wit_PredistortionEstimates_capture : (let x : TxPath := { TxPath.reset with state := 3, rel := some 0, x3 := List.replicate 3000 ⟨1, 0⟩, x4 := List.replicate 3000 ⟨1, 0⟩ }
    let d := DpdPath.reset 3
    let s : State := { ((State.reset.setF Rg.CFG_STAT_PATHCFG 1).setF Rg.DPD_CFG_DPD_EN 1).setF Rg.DPD_CFG_EST_EN 1 with
      txp := [(3, x), (4, x)], dpd := [(3, { d with a := DpdBank.reset 2, b := DpdBank.reset 4 }), (4, { d with estDue := true }), (5, { d with estDue := true })] }
    s.capWanted 3 = true ∧ s.exclArmed 0 = false ∧ (s.dpdOf 3).tried ≠ some ⟨0, 0, 0, 0, 0⟩ ∧ s.capEligible 3 0 = true ∧ ((s.tx 3).span 0 2048).isSome = true ∧ (s.dpdOf 3).serving.state = 2 ∧
      s.capWanted 4 = true ∧ s.capEligible 4 0 = true ∧ ((s.tx 4).span 0 2048).isSome = true ∧ (s.dpdOf 4).serving.state = 3 ∧ (s.dpdOf 4).refresh = false ∧
      s.capWanted 5 = true ∧ s.capEligible 5 0 = false) := by
  decide +kernel

theorem wit_PredistortionEstimates_frozen : (let x : TxPath := { TxPath.reset with state := 3, rel := some 0, x3 := List.replicate 2048 ⟨1, 0⟩, x4 := List.replicate 2048 ⟨1, 0⟩ }
    let s : State := { State.reset.setF Rg.CFG_STAT_PATHCFG 1 with
      dlCar := [(0, { DlCarrier.reset 0 with en := true, scs := 1, log2n := 12, nprb := 273, gain := ⟨16384, 0⟩, power := 0 })]
      txp := [(3, x)], dpd := [(3, { DpdPath.reset 3 with align := (0, ⟨16384, 0⟩), a := DpdBank.reset 2, b := DpdBank.reset 4 })] }
    s.capWanted 3 = true ∧ s.capEligible 3 0 = true ∧ ((s.tx 3).span 0 2048).isSome = true ∧ s.capFrozen 3 0 [] = true ∧ s.capFrozen 3 0 (List.replicate 2624 ⟨32767, 0⟩) = false) := by
  decide +kernel

theorem wit_CalibrationValues_effect : (let s : State := { State.reset with calp := [(3, { CalPath.reset with pend := [⟨.txGain ⟨5, 0⟩, some 0⟩] })] }; (s.calOf 3).pend = [⟨.txGain ⟨5, 0⟩, some 0⟩] ∧ s.reached 0 = true) := by
  decide +kernel

theorem wit_CalibrationValues_heat : (let s : State := { ((((State.reset.setF Rg.CFG_STAT_PATHCFG 1).setF (Rg.LO_STAT_SERVING 0) 1).setF (Rg.LO_STAT_STATE 0) 3).setF (Rg.LO_STAT_ENTRY 0) 5) with
      grp := [(0, { GroupSt.reset with entry := some 5 }), (1, { GroupSt.reset with heat := 2, step := 8 }), (2, { GroupSt.reset with heat := 2, step := 9 })], hops := [(5, { HopEnt.reset with valid := true })] }
    s.groupIn 0 = true ∧ s.groupRun 0 = true ∧ (s.group 0).need ≠ 0 ∧ (s.group 0).heat = 0 ∧ (s.group 0).script = false ∧
      s.loLockedG 0 = true ∧ (s.group 0).held = false ∧ (s.group 1).heat ≠ 0 ∧ (s.group 1).step = 8 ∧ (s.group 2).heat ≠ 0 ∧ (s.group 2).step = 9) := by
  decide +kernel

theorem wit_CalibrationValues_gap : (let s : State := { (((((State.reset.setF Rg.CFG_STAT_PATHCFG 1).setF (Rg.LO_STAT_SERVING 0) 1).setF (Rg.LO_STAT_STATE 0) 3).setF (Rg.LO_STAT_ENTRY 0) 5).setF Rg.CAL_CFG_BG_EN 1) with
      grp := [(0, { GroupSt.reset with entry := some 5 })], hops := [(5, { HopEnt.reset with valid := true })]
      sched := some { rec_ := ⟨1, 1, ⟨0, 0, 0, 0, 0⟩, [0]⟩, at_ := 0 }, fe := [(3, { FePath.reset with state := 2 })] }
    let m : CalMeas := ⟨3, false, false, List.replicate 5120 ⟨1, 0⟩, 0, List.replicate 100 60⟩
    let u := ((s.sendCombs [m]).gapLines 0 [m]).bump (Rg.C_SVC_CAPTURES 0) 1
    s.on Rg.CAL_CFG_BG_EN = true ∧ s.schedule.isSome = true ∧ s.exclArmed 0 = false ∧ s.pathIn 3 = true ∧ measValid m = true ∧ u.usable m = true ∧ u.atPlane m = true ∧ (s.calOf 3).suspect = false ∧ s.isSafe 8 3 = false) := by
  decide +kernel

theorem wit_CalibrationValues_unusable : (let s : State := { (State.reset.setF Rg.CFG_STAT_PATHCFG 1).setF Rg.CAL_CFG_BG_EN 1 with sched := some { rec_ := ⟨1, 1, ⟨0, 0, 0, 0, 0⟩, [0]⟩, at_ := 0 } }
    let m : CalMeas := ⟨3, false, true, [], 0, []⟩
    let u := ((s.sendCombs [m]).gapLines 0 [m]).bump (Rg.C_SVC_CAPTURES 0) 1
    s.on Rg.CAL_CFG_BG_EN = true ∧ s.schedule.isSome = true ∧ s.exclArmed 0 = false ∧ s.pathIn 3 = true ∧ u.usable m = false) := by
  decide +kernel

theorem wit_ReferencePll : (let s : State := { (State.reset.setF Rg.REF_CFG_JUMP_POL 1) with ref := { State.reset.ref with present := true, muteAt := some 0 }, time := { State.reset.time with corr := some ⟨2000, true, 0, 0, 0⟩ }, dlCar := [(0, { DlCarrier.reset 0 with en := true, scs := 1 })] }
    s.refState = 0 ∧ s.deepDown = false ∧ s.f Rg.REF_CFG_REF_RATE = 0 ∧ rateMatches 246 1 = true ∧
      (∀ c ∈ [1, 2, 3], rateMatches 1 c = false) ∧ s.ref.present = true ∧ s.ref.h1Locked = false ∧
      tget (fun _ => false) s.rel.pllRet 0 = false ∧ tget (fun _ => false) s.rel.pllRet 1 = false ∧ (if (s.setRef 1).on Rg.REF_STAT_LINK_FAIL then (s.setRef 1).ref.presentH1 else (s.setRef 1).refRuns) = true ∧ (s.setRef 1).ref.h1Locked = false ∧
      (s.setRef 1).refState = 1 ∧ (s.setRef 2).refState = 2 ∧ (s.setRef 5).refState = 5 ∧
      (7 : Int).natAbs ≤ 100 * (s.setRef 2).f Rg.REF_CFG_JUMP_THR ∧ 100 * (s.setRef 2).f Rg.REF_CFG_JUMP_THR < (2000 : Int).natAbs ∧
      (s.setRef 2).on Rg.REF_CFG_JUMP_POL = true ∧ (s.setRef 2).muMin = some 1 ∧ s.muMin.getD 0 ≤ 3 ∧ s.reached 0 = true) := by
  decide +kernel

theorem wit_SynthesiserLocks : (let s : State := { (((State.reset.setF Rg.CFG_STAT_PATHCFG 1).setF (Rg.LO_STAT_STATE 3) 1).setRef 1) with grp := [(1, { GroupSt.reset with hop := some (5, 0) })], lox := [(2, { LoX.reset with tries := 2, search := true })] }
    s.groupIn 1 = true ∧ bitOf (BitVec.ofNat 32 2) 1 = true ∧ (s.group 1).hop = some (5, 0) ∧ s.reached 0 = true ∧ s.refState = 1 ∧
      (s.setRef 2).refState = 2 ∧ s.raw (Rg.LO_STAT_STATE 3) = 1 ∧ (s.lo 3).tries < 2 ∧ (s.lo 3).search = false ∧
      (s.setF (Rg.LO_STAT_STATE 2) 2).raw (Rg.LO_STAT_STATE 2) = 2 ∧ 2 ≤ (s.lo 2).tries ∧ (s.lo 2).search = true) := by
  decide +kernel

theorem wit_SynthesiserLocks_unlock : (let s : State := (State.reset.setF (Rg.LO_STAT_STATE 3) 3).setF (Rg.LO_STAT_SERVING 3) 1
    s.raw (Rg.LO_STAT_STATE 3) = 3 ∧ s.on (Rg.LO_STAT_SERVING 3) = true ∧
      ((s.lo 3).gates.filter fun k => decide (s.time.now < k + Config.ticksPerSecond)).length < 2) := by
  decide +kernel

theorem wit_FrontEndLines : (let s : State := { ((((State.reset.setF Rg.CFG_STAT_PATHCFG 1).setF (Rg.LO_STAT_SERVING 0) 1).setF (Rg.LO_STAT_STATE 0) 3).setF (Rg.LO_STAT_ENTRY 0) 5) with
      time := { State.reset.time with txHeld := false }, grp := [(0, { GroupSt.reset with entry := some 5, need := 0, held := false })], hops := [(5, { HopEnt.reset with valid := true })]
      sched := some { rec_ := ⟨1, 1, ⟨0, 0, 0, 0, 0⟩, [0]⟩, at_ := 0 }, schedPend := some { rec_ := ⟨1, 1, ⟨0, 0, 0, 0, 0⟩, [1]⟩, at_ := 0 }
      fe := [(4, { FePath.reset with state := 1 }), (5, { FePath.reset with state := 2 })], rxp := [(3, { RxPath.reset with pendBypass := some (true, 1) })] }
    (s.schedPend.map fun x => s.reached x.at_) = some true ∧ (s.fep 3).state = 0 ∧ s.feRuns 3 = true ∧ s.codeIn (s.f Rg.FE_TIME0_TX_LEAD) = some 0 ∧
      s.bitF Rg.FE_STAT_BLANKED 0 = false ∧ s.groupReady 0 = true ∧ s.time.txHeld = false ∧ (s.fep 4).state = 1 ∧ (s.fep 5).state = 2 ∧
      (s.rx 3).pendBypass = some (true, 1)) := by
  decide +kernel

theorem wit_FrontEndLines_receive : (let s : State := { State.reset.setF Rg.CFG_STAT_PATHCFG 1 with
      sched := some { rec_ := ⟨1, 1, ⟨0, 0, 0, 0, 0⟩, [(2 ^ 28 - 1) / 3]⟩, at_ := 0 }, fe := [(4, { FePath.reset with state := 5 })] }
    s.feRuns 3 = true ∧ (s.fep 3).state = 0 ∧ s.codeIn (s.f Rg.FE_TIME1_RX_LEAD) = some 1 ∧ s.inTx s.time.count = false ∧ (s.fep 4).state = 5) := by
  decide +kernel

theorem wit_ReadinessAndBuses : (let s : State := { ((((State.reset.setF Rg.CFG_STAT_PATHCFG 1).setF (Rg.LO_STAT_SERVING 0) 1).setF (Rg.LO_STAT_STATE 0) 3).setF (Rg.LO_STAT_ENTRY 0) 5) with
      time := { State.reset.time with txHeld := false }, grp := [(0, { GroupSt.reset with entry := some 5, need := 0, held := false }), (1, { GroupSt.reset with script := true })], hops := [(5, { HopEnt.reset with valid := true })]
      sched := some { rec_ := ⟨1, 1, ⟨0, 0, 0, 0, 0⟩, [0]⟩, at_ := 0 }, scripts := [(130, some ⟨3, true, 1, 2, false, 9, 77, 0, 0⟩)] }
    s.groupIn 0 = true ∧ s.groupRun 0 = true ∧ s.inTx 0 = true ∧ (s.group 0).retune = false ∧ s.groupReady 0 = true ∧ s.time.txHeld = false ∧
      s.groupIn 1 = true ∧ s.groupRun 1 = true ∧ (s.group 1).retune = false ∧ s.groupReady 1 = false ∧ s.bitF Rg.FE_STAT_BLANKED 1 = false ∧
      s.script 1 2 = some ⟨3, true, 1, 2, false, 9, 77, 0, 0⟩ ∧ s.isSafe 9 (1 * 128 + 2) = false ∧ (s.group 1).script = true ∧
      s.on Rg.FE_CFG_MM_EN = true ∧ s.pathIn 3 = true ∧ s.exclArmed 0 = false  ∧ (s.tx 3).state ≠ 3) := by
  decide +kernel

theorem wit_ReadinessAndBuses_loss : (let s : State := { State.reset.setF Rg.CFG_STAT_PATHCFG 1 with
      dlCar := [(0, { DlCarrier.reset 0 with en := true, scs := 1, log2n := 12, nprb := 273, gain := ⟨16384, 0⟩, power := 0 })]
      txp := [(3, { TxPath.reset with state := 3 })], dpd := [(3, { DpdPath.reset 3 with align := (0, ⟨16384, 0⟩) })] }
    let low (l : List Cplx) : Bool := decide (observedDb (s.dpdOf 3).align l < s.pcfg - 256 * (s.f Rg.DPD_CFG_FREEZE_DB : Int))
    s.on Rg.FE_CFG_MM_EN = true ∧ s.pathIn 3 = true ∧ s.exclArmed 0 = false ∧ (s.tx 3).state = 3 ∧ low [] = true ∧ low (List.replicate 2624 ⟨32767, 0⟩) = false) := by
  decide +kernel

theorem wit_ReadinessAndBuses_excl : (let s : State := { (State.reset.setF Rg.CFG_STAT_PATHCFG 1).setF Rg.CAP_STAT_CTX_STATE 1 with caps := [(0, { CapCtx.reset with cur := some ⟨0, false, true, 0, 0, 0, 0, 0, 0, 0, 0, 0, 0, 0, ⟨0, 0, 0, 0, 0⟩, 0, 0, 0⟩ })] }
    s.on Rg.FE_CFG_MM_EN = true ∧ s.pathIn 3 = true ∧ s.exclArmed 0 = true) := by
  decide +kernel

theorem wit_EngineAccumulators : (let t : EngTask := EngTask.fresh ⟨4, 0, 3, 0⟩ none 0 7
    let s : State := { State.reset with eng := [(3, { EngSt.reset with run := some t })] }
    let b : Bundle := ⟨true, 1, 2, 3, 4, .nop, .nop, false⟩
    (s.engOf 3).run = some t ∧ t.waiting = false ∧ t.loops = [] ∧ t.d.length = 16 ∧ t.ac.length = 4 ∧ t.p.length = 8 ∧ t.k.length = 8 ∧ b.x = .nop ∧ b.y = .nop) := by
  decide +kernel

theorem wit_EngineResults : (let t : EngTask := EngTask.fresh ⟨4, 0, 3, 0⟩ none 0 7
    let s : State := { State.reset with eng := [(3, { EngSt.reset with run := some t })] }
    let b : Bundle := ⟨true, 1, 2, 3, 4, .nop, .nop, false⟩
    (s.engOf 3).run = some t ∧ t.waiting = false ∧ t.loops = [] ∧ t.d.length = 16 ∧ t.ac.length = 4 ∧ t.p.length = 8 ∧ t.k.length = 8 ∧ b.x = .nop ∧ b.y = .nop) := by
  decide +kernel

theorem wit_EngineMoves : (let t : EngTask := EngTask.fresh ⟨4, 0, 3, 0⟩ none 0 7
    let s : State := { State.reset with eng := [(3, { EngSt.reset with run := some t })] }
    let b : Bundle := ⟨true, 1, 2, 3, 4, .nop, .nop, false⟩
    (s.engOf 3).run = some t ∧ t.waiting = false ∧ t.loops = [] ∧ t.d.length = 16 ∧ t.ac.length = 4 ∧ t.p.length = 8 ∧ t.k.length = 8 ∧ b.x = .nop ∧ b.y = .nop) := by
  decide +kernel

theorem wit_EngineMoves_shadow : (let s : State := ((State.reset.setF Rg.ENG_CFG_SHADOW_EN 1).setF Rg.ENG_STAT_SPARE_H0 1).setF (Rg.AE_STAT_STATE 4) 2
    let t : EngTask := EngTask.fresh ⟨4, 0, 3, 0⟩ none 0 7
    let u : State := { (((s.setF (Rg.AE_STAT_SERVING 1) 1).setF (Rg.AE_STAT_GROUP 1) 2).setF Rg.ENG_STAT_WINDOW_H0 2) with eng := [(1, { EngSt.reset with run := some t })] }
    u.shadowed (1 / 5) = some 1 ∧ (u.engOf 1).run = some t ∧ t.Plain ∧ u.Agrees 1 false) := by
  decide +kernel

theorem wit_EngineMoves_window : (let t : EngTask := EngTask.fresh ⟨4, 1, 3, 0⟩ (some 1) 9 7
    let i : EngImg := ⟨1, 1, 64, 0, 1024, 2048⟩
    let s : State := { State.reset with slots := [(1, { EngSlot.reset with img := some i })], eng := [(3, { EngSt.reset with run := some { t with waiting := true } })] }
    t.slot = some 1 ∧ (s.slotOf (3 / 5) 1).img = some i ∧ 4 ≤ i.ywin ∧ 4 ≤ i.xwin ∧ ((s.engOf 3).run.map (·.waiting)) = some true) := by
  decide +kernel

theorem wit_EngineControl : (let t : EngTask := EngTask.fresh ⟨4, 0, 3, 0⟩ none 0 7
    let s : State := { State.reset with eng := [(3, { EngSt.reset with run := some t }), (4, { EngSt.reset with run := some { t with stack := [1, 2, 3, 4, 5, 6, 7, 8] } })
      , (5, { EngSt.reset with run := some { t with loops := [⟨1, 7, 2⟩] }, saved := [t] })] }
    (s.engOf 3).run = some t ∧ t.Plain ∧ t.cond ⟨2, 0, false⟩ = false ∧ t.cond ⟨0, 0, false⟩ = true ∧ s.shadowed (3 / 5) ≠ some 3 ∧ t.stack.length < 8 ∧ t.dr 0 = 0 ∧ (s.engOf 3).test ≠ 3 ∧
      t.desc.service ≠ 1 ∧ t.caps = [] ∧ t.slot = none ∧ (s.engOf 3).saved = [] ∧ t.stack = [] ∧
      ((s.engOf 4).run.map (·.stack.length)) = some 8 ∧ (s.engOf 5).saved = [t] ∧ ((s.engOf 5).run.map (·.loops)) = some [⟨1, 7, 2⟩] ∧ t.pc = 7) := by
  decide +kernel

theorem wit_EngineRecordsAndMemory : (let t : EngTask := { EngTask.fresh ⟨4, 1, 3, 0⟩ none 0 7 with d := [2, 64, 128, 32, 0, 0, 0, 0, 0, 0, 0, 0, 0, 0, 0, 0] }
    let s : State := { (State.reset.setF Rg.ENG_CFG_SHADOW_EN 1).setF (Rg.AE_STAT_STATE 4) 2 with eng := [(0, { EngSt.reset with run := some t })] }
    (s.engOf 0).run = some t ∧ t.Plain ∧ permitted t (s.slotService 0 t) 0x0B = false ∧ permitted t (s.slotService 0 t) 0x06 = true ∧ isResult 0x06 = true ∧
      t.dn 0 = 2 ∧ t.par = false ∧ t.dn 3 % 4 = 0 ∧ t.dn 0 < 0x400000 ∧ t.dn 0 + t.dn 1 + t.dn 3 ≤ 0x400000 ∧ t.dn 2 % 2 ^ 31 + t.dn 3 ≤ s.winSize 0 t false ∧
      s.Agrees 0 false ∧ ownPath 0 (t.dn 0) = true ∧ ownPath 5 (t.dn 0) = false ∧ poolMayWrite t (t.dn 0) (t.dn 2) = true ∧ t.dn 2 % 4 = 0 ∧ t.dn 1 % 2 ^ 31 + t.dn 2 ≤ s.winSize 0 t false ∧ t.dn 0 + 64 ≤ s.winSize 0 t false ∧ t.dn 0 < 64 ∧ t.dn 1 + 448 ≤ s.winSize 0 t false ∧
      s.winSize 0 t false < ({ t with d := [131072] }.dn 0) + 64 ∧ { t with d := [0, 0, 2, 3] }.dn 3 % 4 ≠ 0 ∧ { t with d := [0, 0, 2, 3] }.dn 2 % 4 ≠ 0) := by
  decide +kernel

theorem wit_EngineRecordsAndMemory_user : (let t : EngTask := EngTask.fresh ⟨4, 1, 3, 0⟩ (some 1) 9 7
    let s : State := { State.reset with eng := [(3, { EngSt.reset with run := some t })] }
    let u : State := s.setRate Ev.USER_EVENT 1 ⟨some 0, 0⟩
    t.slot = some 1 ∧ t.Plain ∧ permitted t (s.slotService 3 t) 0x0B = true ∧ (s.rate Ev.USER_EVENT (1 + 4 * (3 / 5))).last = none ∧ (u.rate Ev.USER_EVENT (1 + 4 * (3 / 5))).last = some 0 ∧
      u.time.now < 0 + Config.ticksPerSecond) := by
  decide +kernel

theorem wit_EngineRecordsAndMemory_shadow : (let s : State := ((State.reset.setF Rg.ENG_CFG_SHADOW_EN 1).setF Rg.ENG_STAT_SPARE_H0 1).setF (Rg.AE_STAT_STATE 4) 2
    let u : State := ((s.setF (Rg.AE_STAT_SERVING 1) 1).setF (Rg.AE_STAT_GROUP 1) 2).setF Rg.ENG_STAT_WINDOW_H0 2
    u.shadowed (1 / 5) = some 1) := by
  decide +kernel

theorem wit_EngineResultCalls : (let t : EngTask := { EngTask.fresh ⟨2, 2, 5, 0⟩ none 0 7 with d := [3, 5000, 0, 0, 0, 0, 0, 0, 0, 0, 0, 0, 0, 0, 0, 0] }
    let x : DpdRecord := ⟨[], [], [], [], []⟩
    let s : State := { State.reset.setF Rg.CFG_STAT_PATHCFG 1 with eng := [(0, { EngSt.reset with run := some t })], dpd := [(3, { DpdPath.reset 3 with record := some x, estimating := true })], solv := [(5, { SolvSt.reset with x := { SolvBank.reset with state := 1, k := 1, ng := 4, engines := [0], team := [0] } })] }
    t.dn 0 < 64 ∧ (s.readXY 0 t false (t.dn 1) 416).isSome = true ∧ (s.readXY 0 t false (t.dn 2) 8).isSome = true ∧ (s.dpdOf 3).record = some x ∧ (s.dpdOf 3).idle.state = 0 ∧
      (s.dpdOf 3).serving.state = 3 ∧ (s.dpdOf 3).estimating = true ∧ s.pathIn 3 = true ∧ (s.dpdOf 4).record = none ∧ t.sat = false ∧ t.gov = false ∧ permitted t (s.slotService 0 t) 0x06 = true ∧
      permitted t (s.slotService 0 t) 0x0D = true ∧ s.writing 6 = none ∧ (s.solvSt 5).x.state = 1 ∧ t.dn 0 < (s.solvSt 5).x.ng ∧ (s.readXY 0 t false (t.dn 1) (4 * 1 * 16)).isSome = true ∧ s.pathCount = 16 ∧
      (s.solvSt 5).x.mayPut 0 (t.dn 0) = true ∧ (s.solvSt 5).x.mayPut 1 (t.dn 0) = false ∧ ownPath 0 (t.dn 0) = true ∧ s.Agrees 0 false ∧ s.d2dHas (s.flow 5).half (.weights 5) = false ∧ ((s.fep 3).rlMeas = none) ∧ (s.solvSt 5).x.engines = [0] ∧ (s.solvSt 5).x.gov = false ∧ t.dn 1 ≤ s.winSize 0 t false ∧ s.pathIn 40 = false ∧
      (50 * s.f Rg.FE_CFG_RL_MIN : Int) ≤ (t.dr 1).toInt ∧ (50 * s.f Rg.FE_CFG_RL_TRIP : Int) ≤ (t.dr 1).toInt) := by
  decide +kernel

theorem wit_EngineTasksAndChecks : (let t : EngTask := EngTask.fresh ⟨4, 1, 3, 0⟩ (some 1) 9 7
    let s : State := { (((State.reset.setF Rg.CFG_STAT_PATHCFG 1).setF Rg.ENG_CFG_SHADOW_EN 1).setF (Rg.AE_STAT_SERVING 0) 1).setF (Rg.AE_STAT_GROUP 0) 0 with
      eng := [(0, { EngSt.reset with run := some t }), (1, { EngSt.reset with test := 3 })], engHalf := [(0, ⟨none, 0, some ⟨1, 0, 64, 0, 0, 0⟩⟩)], imgLoads := [⟨1, 2, []⟩]
      pace := [(256 * 3 + 5, some ⟨0, 0, 5⟩)], time := { State.reset.time with now := 10 ^ 12 } }
    s.firstTask 0 [⟨3, 3, 5, 0⟩] = some ⟨3, 3, 5, 0⟩ ∧ s.firstTask 0 [⟨4, 3, 5, 0⟩] = none ∧ (s.newTask 0 ⟨3, 3, 5, 0⟩).isSome = true ∧ ({ s with eng := [] }.firstTask 0 [⟨4, 3, 5, 0⟩]).isSome = true ∧ ({ s with eng := [] }.engOf 0).run = none ∧
      s.shadowed 0 ≠ some 0 ∧ (s.engOf 0).run = some t ∧ t.slot = some 1 ∧ t.caps = [] ∧ (s.engOf 0).test ≠ 3 ∧ (s.engOf 0).saved = [] ∧
      (s.slotOf 0 1).stops + 1 < s.f Rg.ENG_CFG_ABORT_MAX ∧ 2 ≤ (s.engOf 1).test ∧ s.aeState 1 ≠ 6 ∧ s.imgLoads = [⟨1, 2, []⟩] ∧ s.slotBusy 0 (some 2) = false ∧
      4 * s.nominalTicks 3 5 < s.paceLag 3 5 ∧ (3, 5) ∉ s.behind) := by
  decide +kernel

theorem wit_EngineTasksAndChecks_windows : (let s : State := ((State.reset.setF Rg.ENG_CFG_SHADOW_EN 1).setF Rg.ENG_STAT_SPARE_H0 1).setF Rg.ENG_STAT_WINDOW_H0 3
    let u : State := s.setF Rg.ENG_STAT_SPARE_H0 0
    s.on Rg.ENG_CFG_SHADOW_EN = true ∧ s.on (spareFld 0) = true ∧ (s.engOf (spareUnit 0)).test = 0 ∧ s.raw (windowFld 0) = 3 ∧
      u.on (spareFld 0) = false ∧ u.aeState (5 * 0 + ((u.engH 0).rot + 1) % 5) ≠ 6 ∧ (s.setF Rg.ENG_CFG_PSCRUB_EN 1).on Rg.ENG_CFG_PSCRUB_EN = true) := by
  decide +kernel

theorem wit_BundleEncoding : (Code.normal 5 ⟨true, 1, 2, 3, 4, .ld 1 2 3, .st 4 5 6, false⟩).wf = true ∧ decodeBundle (encodeBundle (Code.normal 5 ⟨true, 1, 2, 3, 4, .ld 1 2 3, .st 4 5 6, false⟩)) = some (Code.normal 5 ⟨true, 1, 2, 3, 4, .ld 1 2 3, .st 4 5 6, false⟩) := by
  decide +kernel

theorem wit_CaptureContexts : (let r : CaptureRec := { ctx := 1, repeat_ := false, excl := false, source := 1, path := 0, sel := 0, trig := 0, avg := 0, dest := 3, bufLen := 4096, pre := 0, post := 1, count := 0, flow := 9, trigAt := ⟨0, 0, 0, 0, 0⟩, level := 0, period := 0, event := 0 }
    let k : CapRecord := { number := 0, ctx := 0, source := 1, path := 0, short := false, avg := false, last := true, trunc := false, preReq := 0, preValid := 0, post := 1, trigAt := ⟨0, 0, 0, 0, 0⟩, avgN := 1, first := ⟨0, 0, 0, 0, 0⟩, power := 0, peak := 0, ovr := 0, occ := 0, rate := 1, missed := 0, samples := [] }
    let s : State := { State.reset.setF Rg.CAP_CFG_MISS_EVT 0 with caps := [(1, { CapCtx.reset with cur := some r, hold := some k }), (2, { CapCtx.reset with cur := some { r with repeat_ := true, avg := 1, dest := 0 }, done := true })], flows := [(9, { Flow.reset with state := 1, dir := 2 })] }
    let u := fun (n : Nat) => s.setF Rg.CAP_STAT_CTX_STATE n
    (u 8).capState 1 = 1 ∧ (u 8).capHeld 1 r = r.pre ∧ (u 8).capHeld 1 { r with pre := 4 } < 4 ∧ { r with dest := 0 }.dest ≤ 1 ∧ (u 16).trigNow 1 r = true ∧ (u 8).trigNow 1 { r with trig := 5 } = false ∧ (u 16).capState 1 = 2 ∧ (u 24).capState 1 = 3 ∧ (u 32).capState 1 = 4 ∧ (u 0).capState 1 = 0 ∧ (s.capOf 1).cur = some r ∧ (s.capOf 1).hold = some k ∧
      (s.capOf 1).done = false ∧ r.dest = 3 ∧ (s.flow r.flow.val).state = 1 ∧ (s.flow r.flow.val).dir = 2 ∧ s.on Rg.CAP_CFG_MISS_EVT = false ∧ { r with dest := 0 }.avg = 0 ∧ (s.capOf 2).done = true ∧ (s.capOf 2).left = none ∧ (s.capOf 2).stop = false ∧
      (u (3 * 64)).capState 2 = 3 ∧ (u (4 * 64)).capState 2 = 4 ∧ (s.capOf 2).acqs + 1 < 2 ^ 1 ∧ (s.capOf 2).trunc = false) := by
  decide +kernel

theorem wit_HousekeepingAndConversions : (let s : State := { State.reset with mon := [(0, { MonSt.reset with inj := [⟨40, none, 1⟩] }), (1, { MonSt.reset with inj := [⟨40, some 0, 1⟩], resting := none })] }
    s.shutdown = false ∧ (s.monOf 0).inService ≠ [] ∧ (s.monOf 1).inService ≠ [] ∧ s.ctlRuns 0 = true ∧ tget (fun _ => false) s.rel.supStop 0 = false ∧ (0 : Int) ≤ (ConvRes.mk 0 5 0).x ∧ (ConvRes.mk 0 5 0).x ≤ 262143 ∧ (s.monOf 0).reduceAt = none ∧ { s with mon := [(0, { MonSt.reset with reduceAt := some 0 })], time := { s.time with now := 491520000 } }.reached 0 = true ∧ (({ s with mon := [(0, { MonSt.reset with reduceAt := some 0 })] } : State).monOf 0).reduceAt = some 0 ∧ 0 + Config.ticksPerSecond ≤ 491520000 ∧ (s.monOf 0).inj = [⟨40, none, 1⟩] ∧ (s.monOf 1).inj = [⟨40, some 0, 1⟩] ∧
      s.reached 0 = true ∧ (s.monOf 1).resting = none ∧ 0 ∈ (s.monOf 1).inService ∧ tget (fun _ => 0) (s.monOf 1).restRun 0 = 0 ∧
      2 ≤ (s.setF Rg.THERM_STAT_LEVEL 2).raw Rg.THERM_STAT_LEVEL ∧ s.raw Rg.THERM_STAT_LEVEL < 2 ∧ s.leaderless = false) := by
  decide +kernel

theorem wit_RailsAndBias : (let b : BiasOut := BiasOut.reset 7
    let s : State := { ((State.reset.setF Rg.RAIL_STAT_PF 1).setF Rg.PWR_CFG_PF_PARK 1) with mon := [(0, { MonSt.reset with auxOut := true })], bias := [(7, { b with state := 3, pend := some { b.car with span := 4 } }), (8, { b with state := 2, car := { b.car with span := 4 } }), (9, { b with state := 4, returning := 3 }), (10, { b with car := { b.car with drive := true } })], rel := { State.reset.rel with onTwin := [(9, true)] } }
    (s.monOf 0).auxOut = true ∧ s.shutdown = false ∧ outputHalf 10 = 0 ∧ (s.biasOut 10).state = 0 ∧ (s.biasOut 10).car.drive = true ∧ tget (fun _ => false) s.rel.biasDead 10 = false ∧ (s.biasOut 10).boot ≠ some (s.biasOut 10).car ∧
      State.reset.powerFail = false ∧ State.reset.dom 0 0 ≠ 4 ∧ State.reset.asleep = false ∧ s.powerFail = true ∧ (s.setF Rg.RAIL_STAT_PARKED 1).on Rg.RAIL_STAT_PARKED = true ∧ (s.biasOut 9).state = 4 ∧ (s.biasOut 9).returning = 3 ∧
      s.on Rg.PWR_CFG_PF_PARK = true ∧ s.on Rg.RAIL_STAT_PARKED = false ∧ (s.biasOut 7).pend.isSome = true ∧ (s.biasOut 7).state = 3 ∧
      (s.biasOut 8).state ≠ 0 ∧ tget (fun _ => false) s.rel.onTwin 8 = false ∧ (s.biasOut 8).twinRet = false ∧ tget (fun _ => false) s.rel.onTwin 9 = true ∧ (s.biasOut 8).car.span = 4 ∧ (s.biasOut 8).level 0 = some 0 ∧ isCurrent 4 = true ∧ (2 * (-1) : Int) < 0 ∧ (s.biasOut 8).slewing 0 = false ∧ (s.biasOut 8).ext = false ∧ (spanWidth 4 < 500 * ((90000000 : Int) - 0).natAbs)) := by
  decide +kernel

theorem wit_FieldsOnH1 : (let s : State := (State.reset.setF Rg.CFG_STAT_SPLIT 1).setF Rg.BOOT_STAT_PHASE 4
    s.split = true ∧ h1Bits 0x082C ≠ 0 ∧ 2 ≤ s.raw Rg.BOOT_STAT_PHASE ∧ ({ s with boot := { s.boot with core := false } } : State).served = true) := by
  decide +kernel

theorem wit_FieldsOnH1_write : (let s : State := { (State.reset.setF Rg.BOOT_STAT_PHASE 4) with rel := { State.reset.rel with supStop := [(1, true)] } }
    tget (fun _ => false) s.rel.supStop 1 = true ∧ h1Bits 0x1940 ≠ 0 ∧ 2 ≤ s.raw Rg.BOOT_STAT_PHASE ∧ 0x1940 % 4 = 0 ∧
      (regRow? 0x1940).any (fun r => r.fields.any fun f => f.acc == .rw || f.acc == .rwl || f.acc == .w1s || f.acc == .w1c) = true) := by
  decide +kernel

theorem wit_HostRegisters : (let s : State := ((((State.reset.setF Rg.BOOT_STAT_PHASE 4).setF (Rg.RING_CTL_STATE 0) 1).setF (Rg.RING_CTL_STATE 2) 1).setF (Rg.RING_CTL_STATE 3) 1).setF Rg.CFG_STAT_PATHCFG 2
    let u : State := (s.setReg 0x0020 64).setF Rg.TEST_KEY 0x7E57
    u.locked = false ∧ 2 ≤ u.raw Rg.BOOT_STAT_PHASE ∧ u.ringOn 0 = true ∧ u.ringOn 2 = true ∧ u.ringOn 3 = true ∧ ¬(u.reg 0x0020 = 0 ∧ u.reg 0x0024 = 0) ∧ u.raw Rg.CFG_STAT_PATHCFG ≠ 0 ∧
      (State.reset.ringOn 0 = false) ∧ u.raw Rg.TEST_KEY = 0x7E57 ∧ s.raw Rg.TEST_KEY ≠ 0x7E57 ∧ s.anyRing = true ∧ u.shutdown = false) := by
  decide +kernel

theorem wit_HostRegisters_plain : (let s : State := (State.reset.setF Rg.BOOT_STAT_PHASE 4).setF Rg.CFG_STAT_LOCKED 1
    2 ≤ s.raw Rg.BOOT_STAT_PHASE ∧ s.anyRing = false ∧ s.locked = true ∧ (regRow? 0x0018).isSome = true ∧ (regRow? 0x1E00).any RegRow.hasRwl = true ∧ h1Bits 0x0018 = 0 ∧ h1Bits 0x1E00 = 0 ∧
      regRow? 0x05C0 = none ∧ ({ s with boot := { s.boot with core := false } } : State).served = true ∧ State.reset.served = false ∧ h1Bits 0x0290 = 0 ∧ s.host.due = []) := by
  decide +kernel

theorem wit_HostRegisters_due : (let k : Cpl := { opcode := 1, cflags := 0, tag := 2, status := 0, ring := 0, r0 := 0, r1 := 0, atime := 0, tick := 0, olen := 0, detail := 0 }
    let s : State := State.reset.mapHost fun h => { h with due := [.cpl k []] }
    (s.host.due.all fun w => match w with
      | .cpl _ _ => true
      | _ => false) = true ∧ State.reset.dom 0 7 = 0) := by
  decide +kernel

theorem wit_HostRings : (let s : State := (State.reset.setF Rg.BOOT_STAT_PHASE 4).setReg 0x0020 64
    2 ≤ s.raw Rg.BOOT_STAT_PHASE ∧ s.on (Rg.RING_CTL_ENABLE 3) = false ∧ s.raw (Rg.RING_BASE_LO_BASE 3) % 4096 = 0 ∧ ¬(s.reg 0x0020 = 0 ∧ s.reg 0x0024 = 0) ∧ (State.reset.reg 0x0020 = 0 ∧ State.reset.reg 0x0024 = 0) ∧
      (s.setF (Rg.RING_CTL_ENABLE 3) 1).on (Rg.RING_CTL_ENABLE 3) = true ∧ s.ringOn 0 = false) := by
  decide +kernel

theorem wit_HostRings_on : (let s : State := (((State.reset.setF (Rg.RING_CTL_STATE 0) 1).setF (Rg.RING_CTL_STATE 2) 1).setF (Rg.RING_CTL_STATE 3) 1).setF (Rg.RING_IDX_HOST_IDX 0) 3
    let u : State := s.mapHost fun h => { h with lost := 2, pendEvt := 1, pendCpl := 1 }
    s.ringOn 0 = true ∧ 5 < s.ringSize 0 ∧ ¬(s.ringDist 0 (s.devIdx 0) 5 < s.ringDist 0 (s.devIdx 0) (s.hostIdx 0)) ∧ s.ringDist 0 (s.devIdx 0) 1 < s.ringDist 0 (s.devIdx 0) (s.hostIdx 0) ∧ s.ringSize 0 ≤ 64 ∧
      s.ringDist 3 (s.hostIdx 3) (s.devIdx 3) < s.ringDist 3 (s.hostIdx 3) 1 ∧ s.leaderless = false ∧ s.canWriteHost = true ∧ s.ringOn 2 = true ∧ 0 < s.ringFree 2 ∧ s.fetchRing = some 0 ∧ State.reset.fetchRing = none ∧
      opcodes.contains 0x05 = true ∧ opcodes.contains 0x06 = false ∧ 0 < u.host.lost ∧ u.canWriteHost = true ∧ u.evtSpace = true ∧ ({ u with time := { u.time with now := 491520000 } } : State).withheld u.host.evtAt (u.f Rg.IRQ_MOD_EVT_TIME) = true ∧ u.host.d3hot = false ∧ fget (u.reg 0x0200) 8 4 < 16 ∧ (u.setF (Rg.MSIX_MASK (fget (u.reg 0x0200) 8 4)) 0).on (Rg.MSIX_MASK (fget (u.reg 0x0200) 8 4)) = false) := by
  decide +kernel

theorem wit_HostRings_urgent : (let s : State := ((((State.reset.setF (Rg.RING_CTL_STATE 1) 1).setF (Rg.RING_CTL_STATE 2) 1).setF (Rg.RING_IDX_HOST_IDX 1) 3).setF (Rg.RING_CTL_STATE 0) 1).setF (Rg.RING_CTL_STATE 5) 1
    let u : State := (s.setF (Rg.RING_IDX_HOST_IDX 0) 1).setF (Rg.RING_IDX_HOST_IDX 5) 1
    s.ringHas 1 = true ∧ s.fetchRing = some 1 ∧ u.ringHas 0 = true ∧ u.ringHas 5 = true ∧ u.host.lastBulk = true) := by
  decide +kernel

theorem wit_HostRings_full : (let s : State := State.reset.mapHost fun h => { h with exec := List.replicate 32 ⟨0, 5, 0⟩ }
    32 ≤ s.host.exec.length) := by
  decide +kernel

theorem wit_SpiPort : (let s : State := ({ State.reset with boot := { State.reset.boot with core := false } }.setF Rg.BOOT_STAT_PHASE 4).mapHost fun h => { h with pfReady := true, nvUnlocked := true }
    let fr := fun (l : List Byte) => (⟨l ++ leBytes 1 (crc8 l), 3⟩ : SpiFrame)
    let key := fr [0x4E, 0x56, 0x57, 0x52]
    let wr := fr [0x18, 0, 1, 0, 0, 0]
    let nv := fr [1, 0, 0, 2, 2, 0, 0xAA, 0xBB]
    s.served = true ∧ s.ctlRuns 0 = true ∧ s.shutdown = false ∧ (s.setF Rg.CFG_STAT_SHUTDOWN 1).shutdown = true ∧ s.host.pfReady = true ∧ s.locked = false ∧ (s.setF Rg.CFG_STAT_LOCKED 1).locked = true ∧
      s.host.nvUnlocked = true ∧ s.on Rg.BOOT_STAT_NV_BUSY = false ∧ (s.setF Rg.BOOT_STAT_NV_BUSY 1).on Rg.BOOT_STAT_NV_BUSY = true ∧ State.reset.served = false ∧ State.reset.host.nvUnlocked = false ∧
      spiCrcOk key = true ∧ key.wait ≤ 256 ∧ key.bytes.length = 5 ∧ key.bytes.take 4 = [0x4E, 0x56, 0x57, 0x52] ∧ spiCrcOk ⟨[1, 2, 3], 0⟩ = false ∧ spiCrcOk wr = true ∧ wr.bytes.length = 7 ∧ spiNum wr 0 2 % 4 = 0 ∧
      spiCrcOk nv = true ∧ spiNum nv 0 1 = 1 ∧ spiNum nv 1 3 = 0x20000 ∧ spiNum nv 4 2 = 2 ∧ nv.bytes.length = 2 + 7 ∧
      (⟨[0x18, 0, 2], 0⟩ : SpiFrame).bytes.length = 3 ∧ spiNum ⟨[0x18, 0, 2], 0⟩ 0 2 % 4 = 0 ∧ 0 < spiNum ⟨[0x18, 0, 2], 0⟩ 2 1 ∧ (⟨[3, 4, 0, 8, 0], 0⟩ : SpiFrame).bytes.length = 5 ∧
      spiNum ⟨[3, 4, 0, 8, 0], 0⟩ 0 1 ≤ 11 ∧ spiNum ⟨[3, 4, 0, 8, 0], 0⟩ 1 2 % 4 = 0 ∧ spiNum ⟨[3, 4, 0, 8, 0], 0⟩ 3 2 % 4 = 0 ∧ 4 ≤ spiNum ⟨[3, 4, 0, 8, 0], 0⟩ 3 2 ∧
      (⟨[0, 1, 0, 0, 9, 0], 0⟩ : SpiFrame).bytes.length = 6 ∧ 0 < spiNum ⟨[0, 1, 0, 0, 9, 0], 0⟩ 4 2) := by
  decide +kernel

theorem wit_CommandChecks_wait : (let c : Cmd := ⟨.n, 1, 0, 0, 0, 0, false, false⟩
    State.reset.cmd.draining = false ∧ (State.reset.entered c 1).mustWait c 1 = true) := by
  decide +kernel

theorem wit_CommandChecks_start : (let s : State := { ((State.reset).setF Rg.CFG_STAT_PATHCFG 3) with cmd := { State.reset.cmd with draining := true } }
    let c : Cmd := ⟨.n, 1, 0, 4000000, 0, 0, false, false⟩
    let r : Cmd := ⟨.t 0 false 3, 1, 0, 0, 0, 0, false, false⟩
    let z : State := { State.reset with cmd := s.cmd }
    let y : State := s.setF Rg.CFG_STAT_STANDALONE 1
    s.cmd.draining = true ∧ routeOk 0x60 c.route = false ∧ routeOk 3 r.route = true ∧ s.shutdown = false ∧ s.split = false ∧ s.raw Rg.CFG_STAT_PATHCFG ≠ 0 ∧ viaTxn r.route = true ∧ s.standalone = false ∧ (s.setF Rg.CFG_STAT_SHUTDOWN 1).shutdown = true ∧ z.raw Rg.CFG_STAT_PATHCFG = 0 ∧ z.shutdown = false ∧ y.standalone = true ∧ routeOk 0x20 c.route = true) := by
  decide +kernel

theorem wit_CommandChecks_ring : (let s : State := ((State.reset.setF (Rg.RING_CTL_STATE 2) 1).setF (Rg.RING_CTL_SIZE_LOG2 2) 8)
    s.leaderless = false ∧ s.canWriteHost = true ∧ s.ringOn 2 = true ∧ 0 < s.ringFree 2) := by
  decide +kernel

theorem wit_DeviceAndLaneCommands_early : (let s : State := { State.reset with cmd := { State.reset.cmd with draining := true } }
    let c : Cmd := ⟨.n, 1, 0, 50000, 0, 0, false, false⟩
    Accepted s c 1 0 [0, 1] [] ∧ arg [2] 0x10 1 = 2 ∧ s.raw Rg.CFG_STAT_PATHCFG = 0 ∧ Accepted s c 2 (4096 * 12) [recvHalf c.route] [] ∧ arg [1, 11] 0x11 1 = 11 ∧ arg [1, 11] 0x10 1 = 1 ∧ Accepted s c 3 0 [recvHalf c.route] [] ∧ classBad 14 = false ∧ classBad 255 = false ∧ Accepted s c 4 0 [0, 1] [] ∧ domCount 0 = 8 ∧ domCount 1 = 7) := by
  decide +kernel

theorem wit_DeviceAndLaneCommands : (let s : State := { ((State.reset).setF Rg.CFG_STAT_PATHCFG 3) with cmd := { State.reset.cmd with draining := true } }
    let c : Cmd := ⟨.n, 1, 0, 4000000, 0, 0, false, false⟩
    let ct : Cmd := { c with flags := 1 }
    let l : List Byte := [255, 255, 2]
    s.raw Rg.CFG_STAT_PATHCFG ≠ 0 ∧ Accepted s c 5 0 ((s.voteDoms 255 255).map (·.1)) [] ∧ (∀ e ∈ s.voteDoms 255 255, mayAct (s.voteOwner e.1 e.2) (fromHost c.route) = true) ∧ s.voteDoms 255 255 ≠ [] ∧ arg l 0x12 1 = 2 ∧ s.shutdown = false ∧
    Accepted s ct 5 0 ((s.voteDoms 255 255).map (·.1)) [] ∧ stampOk s.muRef (argStamp l 0x14) = true ∧ Accepted s c 0x14 0 [1] [(1, 6)] ∧ Accepted s c 0x15 0 [1] [(1, 6)]) := by
  decide +kernel

theorem wit_DeviceAndLaneCommands_timed : (let s : State := { ((State.reset).setF Rg.CFG_STAT_PATHCFG 3) with cmd := { State.reset.cmd with draining := true } }
    let c : Cmd := ⟨.n, 1, 0, 4000000, 0, 0, false, false⟩
    let f : State := { s with time := { s.time with count := 1000 } }
    s.timedRefusal (s.voteDoms 255 255) 0 ≠ St.OK ∧ f.timedRefusal (s.voteDoms 255 255) 300000000 = St.OK) := by
  decide +kernel

theorem wit_DeviceAndLaneCommands_lane : (let s : State := ((State.reset.setLane 9 5).setLane 5 4)
    let v : Word := 0x00001F00 ||| 0x2100
    s.laneState 9 = 5 ∧ s.laneState 5 = 4 ∧ (s.link 1).out = [] ∧ s.ctlRefused 9 (fset v 20 4 1) = true ∧ s.ctlRefused 5 v = (s.on (Rg.LANE_CTL_ENABLE 5)) ∧ s.ctlRefused 5 (fset v 0 1 1) = false ∧
    fget v 3 5 ≤ 16 ∧ 32 ≤ fget v 8 7 ∧ fget v 8 7 ≤ 64 ∧ fget v 15 5 ≤ 24 ∧ fget v 20 4 ≤ 5) := by
  decide +kernel

theorem wit_FlowCommands_open : (let s : State := { ((State.reset).setF Rg.CFG_STAT_PATHCFG 3) with cmd := { State.reset.cmd with draining := true } }
    let c : Cmd := ⟨.n, 1, 0, 4000000, 0, 0, false, false⟩
    let v : State := { (s.setLane 0 5) with dlCar := [(0, { DlCarrier.reset 0 with en := true, scs := 1, nprb := 10 })] }
    let p : List Byte := [1, 0, 0, 0, 0, 9, 1, 0, 150, 0, 0xFF, 0x0F]
    let f := flowArg p
    let t : Cmd := { c with flags := 1 }
    Accepted v c 0x10 0 [f.half] [(f.half, 6)] ∧ fromHost c.route = true ∧ v.flowBad p f true false = none ∧ (v.flowLast 1).state = 0 ∧ v.flowCarrier f ≠ none ∧ s.flowCarrier f = none ∧ v.actCount 0 ≠ 0 ∧ f.rsv ≥ minRate f 1 10 ∧ (minRate f 1 10 ≠ 0) ∧ tget (fun _ => []) v.flowFx 1 = [] ∧ v.windowOpen 200000000 150 = false ∧ v.windowOpen 5 150 = true ∧
    Accepted v t 0x10 0 [f.half] [(f.half, 6)] ∧ v.flowBad p f true true = none ∧ Accepted v { c with route := .t 0 false 1 } 0x10 0 [0] [(0, 6)]) := by
  decide +kernel

theorem wit_FlowCommands_fits : (let s : State := { ((State.reset).setF Rg.CFG_STAT_PATHCFG 3) with cmd := { State.reset.cmd with draining := true } }
    let c : Cmd := ⟨.n, 1, 0, 4000000, 0, 0, false, false⟩
    let v : State := { (s.setLane 0 5) with dlCar := [(0, { DlCarrier.reset 0 with en := true, scs := 1, nprb := 10 })] }
    let f := flowArg [1, 0, 0, 0, 0, 9, 1, 0, 150, 0, 20, 0]
    v.flowRefusal 1 { f with rsv := minRate f 1 10 } = St.OK ∧ v.flowRefusal 1 { f with rsv := 0 } = St.RATE_LOW ∧ (c.tag = 1)) := by
  decide +kernel

theorem wit_FlowCommands_old : (let s : State := { ((State.reset).setF Rg.CFG_STAT_PATHCFG 3) with cmd := { State.reset.cmd with draining := true } }
    let c : Cmd := ⟨.n, 1, 0, 4000000, 0, 0, false, false⟩
    let v : State := { s with flows := [(1, { Flow.reset with state := 1, lead := 150, carrier := 0, owner := 2 })] }
    let p : List Byte := [1, 0, 0, 0, 0, 9, 1, 0, 150, 0, 0xFF, 0x0F]
    let x := flowArg p
    let old := v.flowLast 1
    Accepted v c 0x11 0 [old.half] [(old.half, 6)] ∧ mayAct (v.flowOwner 1) true = true ∧ v.flowBad p x true false = none ∧ old.state = 1 ∧ x.dir = old.dir ∧ x.half = old.half ∧ x.carrier = old.carrier ∧ (flowArg [1, 0, 4]).half = 1 ∧ Accepted v c 0x12 0 [0] [(0, 6)] ∧ (v.flowLast 2).state = 0 ∧ mayAct (s.flowOwner 2) true = true ∧
    Accepted v { c with flags := 1 } 0x12 0 [0] [(0, 6)] ∧ stampOk 0 (argSym [] 0x30) = true ∧ Accepted v c 0x13 32 [0] [] ∧ ahead 5000 3 < 0) := by
  decide +kernel

theorem wit_CarrierFilterBeamCommands : (let s : State := { ((State.reset).setF Rg.CFG_STAT_PATHCFG 3) with cmd := { State.reset.cmd with draining := true } }
    let c : Cmd := ⟨.n, 1, 0, 4000000, 0, 0, false, false⟩
    let r := dlArg [0, 1, 1, 12, 100]
    let v : State := { s with filt := [(0, { FiltSt.reset with loading := [[]] }), (1, { FiltSt.reset with loading := [], swapAt := some 5 }), (2, { FiltSt.reset with loading := [] })] }
    Accepted s c 0x20 0 [0, 1] [] ∧ s.dlBad r = none ∧ s.dlInUse r = false ∧ s.dlBad (dlArg []) ≠ none ∧ s.dlBad { r with nprb := 0 } = some 0x14 ∧
    Accepted s c 0x21 0 [0, 1] [] ∧ s.ulBad (ulArg [0, 1, 1, 12, 100]) = none ∧ s.ulInUse (ulArg [0, 1, 1, 12, 100]) = false ∧ s.ulBad (ulArg []) ≠ none ∧
    Accepted s c 0x22 0 [0, 1] [] ∧ stampOk (s.ul 0).scs (argStamp [] 0x14) = true ∧ (v.filtOf 0).loading ≠ [] ∧ (v.filtOf 1).loading = [] ∧ (v.filtOf 1).swapAt ≠ none ∧ (v.filtOf 2).swapAt = none ∧
    Accepted s { c with route := .b } 0x61 384 [0, 1] [] ∧ Accepted s c 0x23 256 [0, 1] [(0, 0), (1, 0)] ∧ mayAct (s.beamOwner 8191) true = true ∧ stampOk s.muRef (argStamp [] 0x14) = true ∧ (s.beam 8191).load = none ∧ (s.beam 8191).state ≠ 3 ∧
    Accepted s { c with route := .b } 0x60 (256 * 8192) [0, 1] [(0, 0), (1, 0)] ∧ s.bulk = [] ∧ { s with bulk := [⟨c, 0, 0, []⟩] }.bulk ≠ [] ∧ s.loadRefusal true 8191 none false = St.OK ∧ Accepted s c 0x24 256 [0, 1] [(0, 0), (1, 0)] ∧ Accepted s c 0x25 0 [0, 1] []) := by
  decide +kernel

theorem wit_CarrierFilterBeamCommands_rows : (let s : State := { State.reset with stage := [(0, [8192]), (1, [8193])], beams := [(0, { BeamEnt.reset 0 with state := 3 }), (1, { BeamEnt.reset 1 with load := some ⟨0, 0, 0⟩ })] }
    s.stageOf 0 = [8192] ∧ s.stageOf 1 = [8193] ∧ (s.beam 0).state = 3 ∧ (s.beam 1).load ≠ none ∧ s.loadRefusal true 1 none false ≠ St.OK ∧ ahead 100 200 ≥ 64 ∧ atLeastUs (ahead 0 100) 150 = false ∧ atLeastUs (ahead 0 100000) 150 = true ∧
    { s with stage := [(0, []), (1, [])] }.stageOf 0 = []) := by
  decide +kernel

theorem wit_CarrierFilterBeamCommands_used : (let d : DlCarrier := { DlCarrier.reset 0 with en := true, scs := 1, log2n := 12, nprb := 100 }
    let s : State := { State.reset with dlCar := [(0, d)], flows := [(3, { Flow.reset with state := 1 })] }
    s.dlInUse { d with nprb := 50 } = true ∧ s.dlBad { d with nprb := 50 } = none ∧ (let t : State := { State.reset with flows := [(3, { Flow.reset with state := 1, dir := 1 })] }
      t.ulInUse (ulArg [0, 1, 1, 12, 100]) = true ∧ t.ulBad (ulArg [0, 1, 1, 12, 100]) = none)) := by
  decide +kernel

theorem wit_SolverPathHopCommands : (let s : State := { ((State.reset).setF Rg.CFG_STAT_PATHCFG 3) with cmd := { State.reset.cmd with draining := true } }
    let c : Cmd := ⟨.n, 1, 0, 4000000, 0, 0, false, false⟩
    let v : State := { s with flows := [(1, { Flow.reset with state := 1, dir := 1 }), (2, { Flow.reset with state := 1, dir := 1 })], solvRec := [(2, some (solverArg [2, 1, 0, 1, 1, 1, 0, 0, 1]))] }
    let r := solverArg [1, 1, 0, 1, 1, 1, 0, 0, 1]
    Accepted v c 0x26 0 [0, 1] [] ∧ mayAct (v.flowOwner 1) true = true ∧ v.solverBad r = none ∧ r.en = true ∧ (v.otherSolvers 1).length = 1 ∧ v.solverRefusal r = St.IN_USE ∧ s.solverBad r = some 0x10 ∧ v.solverRefusal { r with en := false } = St.OK ∧ { v with solvRec := [] }.solverRefusal r = St.OK ∧
    Accepted s c 0x27 0 [1] [] ∧ dpdBad (dpdArg [63, 0, 7, 8, 4, 0, 0xFF, 0xFF, 0xFF, 0xFF, 0xFF, 0xFF]) = none ∧ dpdBad (dpdArg [64]) = some 0x10 ∧ Accepted s c 0x28 448 [1] [] ∧ Accepted s c 0x2B 496 [1] [] ∧ Accepted s { c with route := .t 1 true 3 } 0x29 0 [0, 1] [] ∧
    Accepted s c 0x2C 0 [0, 1] [] ∧ Accepted s c 0x2D 16 [1] []) := by
  decide +kernel

theorem wit_SolverPathHopCommands_groups : (let s : State := { ((State.reset).setF Rg.CFG_STAT_PATHCFG 3) with cmd := { State.reset.cmd with draining := true } }
    let c : Cmd := ⟨.n, 1, 0, 4000000, 0, 0, false, false⟩
    let v : State := { s with grp := [(7, { GroupSt.reset with entry := some 63, hop := some (62, 5) })], hops := (List.range 10).map fun n => (n * 64 + 63, { HopEnt.reset with freq := 3500000, valid := true }) }
    let w : State := { s with cmd := { s.cmd with longs := [⟨c, 0x2A, .heat 128 0⟩] } }
    let z : State := ((s.setF (Rg.LO_STAT_SERVING 8) 1).setF (Rg.LO_STAT_GROUP 8) 7)
    Accepted s c 0x2A 0 [1] (groupDoms [7]) ∧ (maskList 8 128).filter s.groupIn = [7] ∧ w.inHeatRun 7 = true ∧ s.inHeatRun 7 = false ∧ s.canHeat 7 = false ∧ { z with grp := v.grp }.canHeat 7 = true ∧ (v.group 7).heat = 0 ∧
    (v.group 7).entry = some 63 ∧ (v.group 7).hop = some (62, 5) ∧ Accepted s c 0x2E 0 [1] (groupDoms [7]) ∧ v.hopValid [7] 63 = true ∧ stampOk s.muRef (argStamp [] 0x14) = true ∧ s.openFlows = [] ∧ s.groupsIn.length = 8 ∧ atLeastUs (ahead 0 100000) 100 = true ∧ atLeastUs (ahead 0 10) 100 = false ∧ (s.group 7).hop = none) := by
  decide +kernel

theorem wit_FrontEndCommands : (let s : State := { ((State.reset).setF Rg.CFG_STAT_PATHCFG 3) with cmd := { State.reset.cmd with draining := true } }
    let c : Cmd := ⟨.n, 1, 0, 4000000, 0, 0, false, false⟩
    let d : List Byte := [0, 1] ++ zeros 18
    let l : List Byte := [0, 0, 0, 0, 0, 0, 0, 0] ++ [0, 0, 0, 0, 0, 0, 0, 8]
    let v : State := { s with time := { s.time with count := 4000000000 } }
    Accepted s c 0x30 (schedLen d) [0, 1] [] ∧ s.schedBad (schedArg d) = false ∧ s.schedBad (schedArg []) = true ∧ atLeastUs (ahead s.time.count (schedAt (schedArg d))) 2000 = false ∧ atLeastUs (ahead v.time.count (schedAt (schedArg d))) 2000 = true ∧
    Accepted s c 0x31 (8 * 2) [1] [] ∧ s.scriptOver 7 126 (scriptArgs 2 l) = false ∧ s.scriptOver 7 126 (scriptArgs 2 (zeros 16)) = true ∧ (scriptArgs 1 [0, 0x70]).length = 1 ∧ (scriptArg [0, 0x70]).anchor = 7 ∧ (scriptArg []).anchor = 0) := by
  decide +kernel

theorem wit_FrontEndCommands_bus : (let s : State := { ((State.reset).setF Rg.CFG_STAT_PATHCFG 3) with cmd := { State.reset.cmd with draining := true } }
    let c : Cmd := ⟨.n, 1, 0, 4000000, 0, 0, false, false⟩
    let u : State := { s with sched := some ⟨⟨0, 1, ⟨0, 0, 0, 0, 0⟩, [0]⟩, 0⟩ }
    Accepted s { c with route := .u } 0x32 0 [1] (groupDoms [7]) ∧ Accepted s c 0x32 16 [1] (groupDoms [7]) ∧ (s.group 7).heat = 0 ∧ s.schedule = none ∧ u.schedule ≠ none ∧ argB [7, 15, 0, 1] 0x13 0 = true ∧ arg [7, 15, 4, 0, 0, 0, 16] 0x16 1 = 16) := by
  decide +kernel

theorem wit_UnitCommands : (let s : State := { ((State.reset).setF Rg.CFG_STAT_PATHCFG 3) with cmd := { State.reset.cmd with draining := true } }
    let c : Cmd := ⟨.n, 1, 0, 4000000, 0, 0, false, false⟩
    let v : State := { s with bias := [(135, { BiasOut.reset 135 with state := 2 }), (134, { BiasOut.reset 134 with state := 3 }), (133, { BiasOut.reset 133 with state := 2, twinRet := true })] }
    let r (n : Nat) (span : Nat) : BiasRec := { biasArg [BitVec.ofNat 8 n, 0, BitVec.ofNat 8 span, 1] with pulse := false }
    Accepted v c 0x33 0 [1] (groupDoms [7]) ∧ mayAct (v.biasOwner 135) true = true ∧ v.biasBad (r 135 0) = none ∧ rangeChange (v.biasOut 135) (r 135 0) = false ∧ rangeChange (v.biasOut 135) (r 135 1) = true ∧ v.biasBad (r 135 1) = none ∧ (v.biasOut 134).state = 3 ∧ (v.biasOut 133).twinRet = true ∧ rangeChange (v.biasOut 133) (r 133 1) = true ∧ (v.biasOut 135).pend = none ∧ { BiasOut.reset 135 with pend := some (r 135 1) }.pend ≠ none ∧ (s.biasOut 0).state = 0 ∧ (s.monOf 0).auxOut = false ∧ v.biasBad (r 136 0) = some 0x10 ∧ v.isSafe 7 135 = false ∧
    Accepted s c 0x34 16 [1] [] ∧ Accepted s c 0x35 0 [0, 1] [] ∧ parkOut 5 (argS [135, 0, 5] 0x16 2) = false ∧ Accepted s c 0x36 0 ((List.range 136).map fun i => outputHalf (0 + i)) []) := by
  decide +kernel

theorem wit_UnitCommands_monitor : (let s : State := { ((State.reset).setF Rg.CFG_STAT_PATHCFG 3) with cmd := { State.reset.cmd with draining := true } }
    let c : Cmd := ⟨.n, 1, 0, 4000000, 0, 0, false, false⟩
    let v : State := { s with mon := [(1, { MonSt.reset with noRound := false, inj := (List.range 16).map fun i => ⟨i, none, 0⟩ })] }
    Accepted s c 0x37 0 [1] [] ∧ stampOk s.muRef (argStamp [] 0x14) = true ∧ (v.monOf 1).noRound = false ∧ s.on Rg.CFG_STAT_TEST = false ∧ (v.monOf 1).inj.length = 16 ∧ (s.monOf 1).inj.length < 16 ∧ Accepted s c 0x38 0 [1] [] ∧ isExternal 191 = true ∧ isExternal 47 = false) := by
  decide +kernel

theorem wit_UnitCommands_image : (let s : State := { ((State.reset.setF Rg.ENG_CFG_USER_EN 1).setF Rg.CFG_STAT_PATHCFG 3) with cmd := { State.reset.cmd with draining := true } }
    let c : Cmd := ⟨.n, 1, 0, 4000000, 0, 0, false, false⟩
    let h : List Byte := [0x5A, 0x44, 0x4C, 0x52, 1, 0, 0, 0] ++ zeros 4 ++ [1, 0] ++ zeros 46
    let d : List Byte := h ++ leBytes 4 (crc32 (h ++ zeros 8)) ++ zeros 8
    let b : Cmd := { c with route := .b }
    let v : State := { s with slots := [(7, { EngSlot.reset with img := some ⟨0, 2, 64, 0, 1024, 1024⟩ })], imgLoads := [⟨2, 0xFF, []⟩] }
    Accepted s c 0x40 0 [1] [] ∧ bindHalves [3, 5, 2] = [1] ∧ s.on Rg.ENG_CFG_USER_EN = true ∧ (v.slotOf 1 3).img.isSome ∧ (s.slotOf 1 3).img = none ∧
    Accepted s b 0x62 0x40 [0, 1] [(1, 1)] ∧ maskHalves 2 = [1] ∧ imgUser d = false ∧ imageOk (s.raw Rg.ENG_FWVER_FW_VERSION) d = true ∧ imageOk 0 [] = false ∧ s.imgLoads = [] ∧
    Accepted s b 0x63 0 [0, 1] [] ∧ nvTypeOk 2 false = true ∧ bodyRefusal 2 (zeros 4) = St.OK ∧ bodyRefusal 2 [] = St.LEN_RANGE ∧ bodyRefusal 0x10 (zeros 4) = St.BAD_PARAM ∧ s.cmd.longs = []) := by
  decide +kernel

theorem wit_CaptureCommands : (let s : State := { ((State.reset).setF Rg.CFG_STAT_PATHCFG 3) with cmd := { State.reset.cmd with draining := true } }
    let c : Cmd := ⟨.n, 1, 0, 4000000, 0, 0, false, false⟩
    let p : List Byte := [7, 0, 1, 63, 0, 5, 0, 0, 0, 16, 0, 0] ++ [1, 0, 0, 0, 4, 0, 0, 0]
    let r := captureArg p
    let v : State := { s with caps := [(7, { (s.capOf 7) with next := some r })] }
    Accepted s c 0x41 0 [1] [] ∧ mayAct (s.capOwner 7) true = true ∧ s.captureBad p = none ∧ r.bufLen ≤ s.capRoom 1 ∧ s.captureBad [7] = some 0x12 ∧ { s with rel := { s.rel with fenced := (List.range 1792).map fun i => (11, i) } }.capRoom 1 < r.bufLen ∧
    Accepted v c 0x42 0 [1] [] ∧ v.capRec 7 = some r ∧ s.capRec 7 = none ∧ 4 * (r.pre + r.post) ≤ r.bufLen ∧ r.avg = 0 ∧ v.overBudget 1 7 r = false ∧ r.excl = false ∧ r.dest = 0 ∧ r.trig = 5 ∧ v.pathIn 63 = true ∧ v.groupRun 7 = true ∧ v.dom 1 0 = 0 ∧ v.capState 7 = 0 ∧ (s.setF Rg.CAP_CFG_EXCL_ALLOW 0).on Rg.CAP_CFG_EXCL_ALLOW = false) := by
  decide +kernel

theorem wit_CaptureCommands_states : (let s : State := { ((State.reset).setF Rg.CFG_STAT_PATHCFG 3) with cmd := { State.reset.cmd with draining := true } }
    let c : Cmd := ⟨.n, 1, 0, 4000000, 0, 0, false, false⟩
    let r := captureArg ([7, 0, 1, 63, 0, 5, 0, 0, 0, 16, 0, 0] ++ [1, 0, 0, 0, 4, 0, 0, 0])
    let v : State := { s with caps := [(7, { (s.capOf 7) with cur := some r, begun := true })] }
    Accepted v c 0x43 0 [1] [] ∧ Accepted v c 0x44 0 [1] [] ∧ Accepted v c 0x45 0 [1] [] ∧ Accepted v c 0x46 0 [1] [] ∧ (v.setCap 7 4).capState 7 = 4 ∧ (v.setCap 7 1).capState 7 = 1 ∧ (v.setCap 7 2).capState 7 = 2 ∧ (v.setCap 7 3).capState 7 = 3 ∧ (v.capOf 7).begun = true ∧ (v.capOf 7).done = false ∧ (s.capOf 7).begun = false ∧ v.capRec 7 = some r ∧ r.trig = 5 ∧ r.dest = 0 ∧ Accepted (v.setCap 7 4) c 0x44 0 [1] []) := by
  decide +kernel

theorem wit_CaptureCommands_budget : (let r := captureArg ([7, 2, 5, 63, 0, 5, 0, 0, 0, 16, 0, 0] ++ [1, 0, 0, 0, 4, 0, 0, 0])
    State.reset.overBudget 1 7 { r with excl := false, source := 2 } = true ∧ r.excl = true ∧ State.reset.overBudget 1 7 r = false) := by
  decide +kernel

theorem wit_AirTimeCorrections_split : (let s : State := { ((State.reset.setF Rg.AT_CFG_TSYNC_MODE 1).setF Rg.CFG_STAT_SPLIT 1) with time := { State.reset.time with valid := true, count := 1000, h1Diff := -999 } }
    s.f Rg.AT_CFG_TSYNC_MODE ≠ 0 ∧ (true = !s.on Rg.AT_CFG_TSYNC_POL) ∧ s.time.valid = true ∧ s.split = true ∧ s.lastTsync 0 = none ∧ s.lastTsync 1 = none ∧ 1000000 < (s.tsyncError 0 0).natAbs ∧ (s.tsyncError 1 0).natAbs ≤ 1000000) := by
  decide +kernel

theorem wit_AirTimeCorrections : (let s : State := { (State.reset.setF Rg.AT_CFG_TSYNC_MODE 1) with time := { State.reset.time with valid := true, txHeld := false, count := 1000 } }
    let u : State := { s with time := { s.time with tsyncLast := [(0, some 0)], h1Reload := true } }
    s.f Rg.AT_CFG_TSYNC_MODE ≠ 0 ∧ s.time.valid = true ∧ s.lastTsync 0 = none ∧ 1000000 < (s.tsyncError 0 0).natAbs ∧ (true = !s.on Rg.AT_CFG_TSYNC_POL) ∧ 10000 < (u.tsyncError 0 0 - 0).natAbs ∧ 1000000 < (u.tsyncError 0 0).natAbs ∧ u.time.h1Reload = true ∧ s.time.h1Reload = false ∧ s.split = false ∧ { u with time := { u.time with count := 491520 } }.time.count % Config.ticksPerSubframe = 0) := by
  decide +kernel

theorem wit_AirTimeCorrections_small : (let s : State := { (State.reset.setF Rg.AT_CFG_TSYNC_MODE 1) with time := { State.reset.time with valid := true, txHeld := false, count := 1 } }
    s.lastTsync 0 = none ∧ (s.tsyncError 0 0).natAbs ≤ 1000000 ∧ s.corrKind (s.tsyncError 0 0) = 1 ∧ (s.tsyncError 0 0 - (-2000)).natAbs ≤ 10000) := by
  decide +kernel

theorem wit_AirTimeCorrections_saved : (let s : State := { (State.reset.setF Rg.REF_STAT_STATE 1) with time := { State.reset.time with saved := some (5, 3932160000), running := false, waitSet := [(1, some ⟨1, ⟨0, 0, 0, 0, 0⟩, 0, 0⟩)], now := 983040 } }
    s.time.saved = some (5, 3932160000) ∧ s.refState = 1 ∧ s.time.running = false ∧ (State.reset.setF Rg.REF_STAT_STATE 5).refState = 5 ∧ State.reset.time.saved = none ∧ (s.waitingSet 1).isSome = true ∧ 0 + 983040 ≤ s.time.now ∧ s.waitingSet 0 = none) := by
  decide +kernel

theorem wit_PowerEntries : (let e : EntryRec := ⟨1, [(0, 7, 1)], none, 0⟩
    let s : State := { State.reset with time := { State.reset.time with entry := [(0, some e)], due := [(0, true)] } }
    let u : State := { State.reset with time := { State.reset.time with due := [(0, true)] } }
    s.halfEntry 0 = some e ∧ e.at_ + 24576 ≤ { s.time with now := 24576 }.now ∧ s.time.now < e.at_ + 24576 ∧ e.refusal = none ∧ (e.moves.any fun m => m.1 == 0) = true ∧ s.halfEntry 1 = none ∧ u.entryDue 0 = true ∧ (u.entryPlan 0).2.2 ≠ [] ∧ u.halfEntry 0 = none ∧ u.halfEntry 1 = none ∧
      State.reset.domIn 0 7 = true ∧ State.reset.dom 0 7 ≤ 1 ∧ State.reset.wanted 0 7 = false ∧ (State.reset.setVote 0 7 0 true).wanted 0 7 = true ∧ State.reset.entryDue 0 = false) := by
  decide +kernel

theorem wit_PowerEntries_deep : (let m (t : Nat) (r : Option (Nat × Nat × Nat)) : State := { State.reset with time := { State.reset.time with entry := [(1, some ⟨t, [(1, 0, t)], r, 0⟩)] } }
    (m 2 none).halfEntry 1 = some ⟨2, [(1, 0, 2)], none, 0⟩ ∧ (m 3 none).halfEntry 1 = some ⟨3, [(1, 0, 3)], none, 0⟩ ∧ (m 4 none).halfEntry 1 = some ⟨4, [(1, 0, 4)], none, 0⟩ ∧ (m 2 (some (11, 6, 1))).halfEntry 1 = some ⟨2, [(1, 0, 2)], some (11, 6, 1), 0⟩ ∧ (State.reset.time.now < tget (fun _ => 0) { State.reset.time with retryAt := [(0, 5)] }.retryAt 0)) := by
  decide +kernel

theorem wit_WakesAndHolds : (let s : State := ((State.reset.setDom 0 7 2).setDom 1 6 1).mapHost fun h => { h with due := [.cpl { opcode := 1, cflags := 0, tag := 2, status := 0, ring := 0, r0 := 0, r1 := 0, atime := 0, tick := 0, olen := 0, detail := 0 } []] }
    s.shutdown = false ∧ 1 ≤ s.dom 0 7 ∧ s.dom 0 7 ≤ 3 ∧ s.host.due ≠ [] ∧ s.dom 1 6 = 1 ∧ s.dom 0 6 ≠ 1 ∧ (s.setF Rg.CFG_STAT_SHUTDOWN 1).shutdown = true) := by
  decide +kernel

theorem wit_WakesAndHolds_n : (let s : State := { (State.reset.setReg 0x0824 3).setDom 0 0 2 with boot := { State.reset.boot with conds := [] } }
    let u : State := (State.reset.setDom 1 3 5).setF Rg.REF_STAT_STATE 1
    s.boot.conds.contains 3 = false ∧ s.shutdown = false ∧ (s.wakeMask.contains (0, 0)) = true ∧ s.domIn 0 0 = true ∧ 1 ≤ s.dom 0 0 ∧ s.dom 0 0 ≤ 3 ∧ { s with boot := { s.boot with conds := [3] } }.boot.conds.contains 3 = true ∧
      u.mayRun 1 3 = true ∧ s.mayRun 1 3 = false ∧ { u with time := { u.time with wakeFrom := [(11, (3, 0))], now := 6000000 } }.mayRun 1 3 = true ∧ 49152 ≤ (6000000 - (0 + usTicks (wakeUs 3 3))) * 100) := by
  decide +kernel

theorem wit_WakesAndHolds_deep : (let u : State := { State.reset.setDom 1 3 5 with time := { State.reset.time with wakeFrom := [(11, (3, 0))] } }
    u.dom 1 3 = 5 ∧ (tget (fun _ => (0, 0)) u.time.wakeFrom 11).1 = 3 ∧ u.refState = 0) := by
  decide +kernel

theorem wit_WakesAndHolds_timed : (let v : TimedVote := ⟨2, 0, true, 100, false⟩
    let s : State := { State.reset.setDom 0 1 1 with time := { State.reset.time with timed := [v] } }
    let u : State := { s with time := { s.time with count := 100 } }
    s.shutdown = false ∧ s.time.timed = [v] ∧ s.dom 0 1 = 1 ∧ ahead s.time.count v.at_ ≤ (s.wakeTicks 0 1 : Int) ∧ s.reached v.at_ = false ∧ u.reached v.at_ = true ∧ (v.doms.contains (0, 1)) = true ∧ s.domIn 0 1 = true) := by
  decide +kernel

theorem wit_ConfigurationAndSupervisors : (let s : State := { State.reset.setF Rg.REL_CFG_CFG_SCRUB_EN 1 with bias := [(3, { BiasOut.reset 3 with state := 2 })], rel := { State.reset.rel with supStop := [(1, true)], supDiv := [(0, [0, 0])] } }
    s.on Rg.REL_CFG_CFG_SCRUB_EN = true ∧ (s.setF Rg.REL_CFG_CFG_SCRUB_EN 0).on Rg.REL_CFG_CFG_SCRUB_EN = false ∧ (s.setF Rg.CFG_STAT_STANDALONE 0).standalone = false ∧ (s.biasOut 3).state ≠ 0 ∧ (regRow? 0x0018).isSome = true ∧
      s.supDown 1 = true ∧ s.supDown 0 = false ∧ tget (fun _ => false) s.rel.supRet 1 = false ∧ (tget (fun _ => ([] : List Nat)) State.reset.rel.supDiv 0).length < 2 ∧
      2 ≤ ((tget (fun _ => []) s.rel.supDiv 0).filter fun k => decide (s.time.now < k + 10 * Config.ticksPerSecond)).length) := by
  decide +kernel

theorem wit_SlicesCellsAndWires : (let s : State := { (State.reset.setF Rg.CFG_STAT_PATHCFG 3).setF Rg.REL_CFG_SHADOW_EN 1 with rel := { State.reset.rel with shadow := [(32, some 4)], relays := [(7, some ⟨33, true⟩)], wireDue := [(5, true)], clkDue := [(0, true), (1, true)], wireBad := [(6, [10, 11, 12])], cells := [(3, 0)] } }
    let z : State := { s with rel := { s.rel with sliceRet := [(66, true), (67, true)] } }
    s.on Rg.REL_CFG_SHADOW_EN = true ∧ s.spareFree (spareSlice 0 false) = true ∧ s.shadowOf (spareSlice 0 false) ≠ none ∧ s.shadowOf (spareSlice 1 false) = none ∧ s.sliceOut 5 = false ∧ s.sliceOf 5 = 5 ∧ (∀ q < 64, s.sliceOf q = 5 → q = 5) ∧
      tget (fun _ => (none : Option SliceRelay)) s.rel.relays 5 = none ∧ ([spareSlice 0 false, spareSlice 0 true].find? s.spareFree).isSome = true ∧ z.sliceOf 40 = 42 ∧ (∀ q < 64, z.sliceOf q = 42 → q = 40) ∧
      z.spareFree (spareSlice 1 false) = false ∧ z.spareFree (spareSlice 1 true) = false ∧ z.pathIn 40 = true) := by
  decide +kernel

theorem wit_SlicesCellsAndWires_more : (let s : State := { (State.reset.setF Rg.CFG_STAT_PATHCFG 3).setF Rg.REL_CFG_CELL_EN 1 with rel := { State.reset.rel with relays := [(7, some ⟨33, true⟩)], wireDue := [(5, true)], clkDue := [(0, true), (1, true)], wireBad := [(6, [10, 11, 12])], cells := [(3, 0)] } }
    (tget (fun _ => (none : Option SliceRelay)) s.rel.relays 7).isSome = true ∧ s.on Rg.REL_CFG_CELL_EN = true ∧ s.pathIn 2 = true ∧ 0 < s.cellsLeft 2 false ∧ s.cellsLeft 1 true = 0 ∧
      3 ≤ ((tget (fun _ => []) s.rel.wireBad 6).filter fun p => decide (12 < p + 64)).length ∧ s.split = false ∧ tget (fun _ => false) s.rel.wireDue 5 = true ∧ 0 < (s.setF Rg.D2D_STAT_SPARES_01 2).wireSpare 0 ∧ (s.setF Rg.D2D_STAT_SPARES_01 0).wireSpare 0 = 0 ∧
      tget (fun _ => false) s.rel.clkDue 1 = true ∧ s.on Rg.D2D_STAT_STBY_CLK_10 = false ∧ (s.setF Rg.D2D_STAT_STBY_CLK_01 1).on Rg.D2D_STAT_STBY_CLK_01 = true) := by
  decide +kernel

theorem wit_BatonAndSplit : (let s : State := { State.reset.setF Rg.D2D_STAT_LINK_UP 1 with time := { State.reset.time with now := 1000000 }, rel := { State.reset.rel with baton := [(0, { BatonSt.reset 0 with sent := some (1, true, false, 5) })] } }
    s.supDown 0 = false ∧ s.supDown 1 = false ∧ s.split = false ∧ s.rel.dispute = none ∧ (s.baton 0).claim = true ∧ s.heard 0 = none ∧ (s.baton 1).claim = false ∧ (s.baton 1).fresh = none ∧ s.silent 1 = true ∧ s.on Rg.D2D_STAT_LINK_UP = true ∧
      (s.baton (1 - 1)).sent = some (1, true, false, 5) ∧ crc8 ((batonBytes 7 true false).take 5) = leNat (((batonBytes 7 true false).drop 5).take 1) ∧ (s.baton 1).copying = false ∧ (s.setF Rg.CFG_STAT_SPLIT 1).split = true ∧ s.raw Rg.REL_STAT_STATE < 2) := by
  decide +kernel

theorem wit_BatonAndSplit_dispute : (let b (e : Nat) : BatonSt := { BatonSt.reset 0 with epoch := e, rx := some (3, true, false, 0) }
    let s : State := { State.reset with rel := { State.reset.rel with baton := [(0, b 2), (1, { b 5 with fresh := none })] } }
    (s.baton 0).claim = true ∧ (s.baton 0).fresh = none ∧ (s.baton 0).copying = false ∧ s.heard 0 = some (3, true, false) ∧ disputeWinner 0 (s.baton 0).epoch 3 ≠ 0 ∧ (s.baton 1).claim = true ∧ s.heard 1 = some (3, true, false) ∧ disputeWinner 1 (s.baton 1).epoch 3 = 1) := by
  decide +kernel

theorem wit_BatonAndSplit_repeat : (let s : State := { (State.reset.setF Rg.REL_STAT_STATE 2).setF Rg.REL_CFG_REPLACE_REPEAT 60 with time := { State.reset.time with now := 100 * Config.ticksPerSecond }, rel := { State.reset.rel with reported := [(16, 0)], baton := [(1, { BatonSt.reset 1 with copying := true, fresh := some 4 })] } }
    2 ≤ s.raw Rg.REL_STAT_STATE ∧ s.f Rg.REL_CFG_REPLACE_REPEAT ≠ 0 ∧ s.dom s.lead 6 = 0 ∧ s.rel.reported = [(16, 0)] ∧ s.rel.replAt + Config.ticksPerSecond * s.f Rg.REL_CFG_REPLACE_REPEAT ≤ s.time.now ∧ (s.baton 1).copying = true ∧ (s.baton 1).fresh = some 4) := by
  decide +kernel

theorem wit_DeviceResets : (let s : State := { State.reset.setDom 0 0 4 with time := { State.reset.time with now := 49152 } }
    (tget (fun _ => (0, 0)) s.time.wakeFrom 0).2 + 49152 ≤ s.time.now ∧ s.dom 0 0 = 4 ∧ s.boot.core = false ∧ State.reset.dom 0 0 ≠ 4 ∧ s.boot.conds.contains 1 = false ∧ s.boot.p0 = false ∧ s.shutdown = false ∧ s.decideNv 0x20 5 = .absent) := by
  decide +kernel

theorem wit_DeviceResets_held : (let s : State := { State.reset with boot := { State.reset.boot with conds := [1, 2], core := true, cause := 2, boRail := 3 } }
    let u : State := { State.reset with time := { State.reset.time with now := 491520 }, boot := { State.reset.boot with conds := [0], core := true, cause := 2, boRail := 3 } }
    s.boot.conds.contains 1 = true ∧ s.boot.core = true ∧ (∀ c ∈ u.boot.conds, c = 0) ∧ u.boot.clearAt + 491520 ≤ u.time.now ∧ u.boot.cause < 4 ∧ u.boot.boRail < 16 ∧ { s with boot := { s.boot with p0 := true } }.boot.p0 = true) := by
  decide +kernel

theorem wit_DeviceResets_record : (let s : State := { State.reset.nvPut 0 0x24000 (nvRecord 0x20 3 7 0 [1, 1, 5, 0]) with nv := { (State.reset.nvPut 0 0x24000 (nvRecord 0x20 3 7 0 [1, 1, 5, 0])).nv with dir := [⟨0, 0x24000, 0x20, 3, 0⟩] } }
    s.decideNv 0x20 3 = .value [1, 1, 5, 0] 3) := by
  decide +kernel

theorem wit_StartUpPhases : (let b : BootSt := { State.reset.boot with core := false, p0 := true }
    let s : State := { State.reset with boot := b }
    let u : State := ({ State.reset with boot := b }.setF Rg.BOOT_STAT_PHASE 2).setF Rg.CFG_STAT_PATHCFG 1
    let v : State := ({ State.reset with boot := b }.setF Rg.BOOT_STAT_PHASE 3).setF Rg.REF_STAT_STATE 1
    s.boot.core = false ∧ s.phase = 1 ∧ s.nv.dir = [] ∧ s.boot.p0 = true ∧ s.standalone = false ∧ (s.setF Rg.CFG_STAT_STANDALONE 1).standalone = true ∧ u.phase = 2 ∧ u.shutdown = false ∧ u.pathIn 3 = true ∧ v.phase = 3 ∧ v.refState = 1 ∧
      u.boot.entered = false ∧ u.laneState 0 = 0 ∧ (v.domsIn.contains (0, 7)) = true) := by
  decide +kernel

theorem wit_StoreWrites : (let j : NvJob := { type := 0x10, index := 0, body := [2, 0, 0, 0], left := [(0, 0), (0, 1), (1, 2)], done := 0, seq := none, writing := false }
    let s : State := { State.reset.setNvQueue 0 [j] with rel := { State.reset.rel with logDue := [(3, 4)] } }
    s.nvQueue 0 = [j] ∧ j.writing = false ∧ s.powerFail = false ∧ (s.setF Rg.RAIL_STAT_PF 1).powerFail = true ∧ s.nvQueue 1 = [] ∧ s.on Rg.NV_CFG_NV_SCRUB_EN = true ∧ (s.setF Rg.NV_CFG_NV_SCRUB_EN 0).on Rg.NV_CFG_NV_SCRUB_EN = false ∧
      s.rel.logDue = [(3, 4)] ∧ ((logWords ((s.nvLatest 0 0x30 0).getD [])).any fun w => w % 256 == 3 && w / 65536 == 4) = false ∧ (logWords ((s.nvLatest 0 0x30 0).getD [])).length < 1024) := by
  decide +kernel

theorem wit_StoreWrites_copy : (let j : NvJob := { type := 0x10, index := 0, body := [2, 0, 0, 0], left := [(0, 0), (0, 1), (1, 2)], done := 0, seq := some 0, writing := true }
    let k : NvJob := { type := 0x30, index := 0, body := [3, 0, 4, 0], left := [(1, 2)], done := 2, seq := some 0, writing := true }
    let s : State := (State.reset.setNvQueue 0 [j]).setNvQueue 1 [k]
    s.nvSlot 0 0x10 0 (nvRecord 0x10 0 0 0 [2, 0, 0, 0]).length = some 0x24000 ∧ s.nvSlot 1 0x30 2 (nvRecord 0x30 0 0 2 [3, 0, 4, 0]).length = some 0x3E000 ∧ ((logWords ((s.nvLatest 1 0x30 0).getD [])).any fun w => w % 256 == 3 && w / 65536 == 4) = true) := by
  decide +kernel

theorem wit_StoreWrites_scrub : (let p : State := State.reset.nvPut 0 0x24000 (nvRecord 0x10 0 7 0 [2, 0, 0, 0])
    let g : State := { p with nv := { p.nv with dir := [⟨0, 0x24000, 0x10, 0, 0⟩] } }
    let s : State := { p with nv := { p.nv with dir := [⟨0, 0x24000, 0x10, 0, 0⟩, ⟨0, 0x25000, 0x10, 0, 1⟩] } }
    ((g.nvLocs 0x10 0).map g.readCopy) = [⟨true, 7, [2, 0, 0, 0]⟩] ∧ s.decideNv 0x10 0 = .value [2, 0, 0, 0] 3 ∧ (((s.nvLocs 0x10 0).map s.readCopy).any fun c => !c.good) = true ∧ s.nvQueue 0 = [] ∧ nvCritical 0x10 = true ∧ nvHome 0x10 0 = 0 ∧
      ((s.nv.dir.filter fun x => nvCritical x.type && nvHome x.type x.index == 0).map fun x => (x.type, x.index)).eraseDups = [(0x10, 0)]) := by
  decide +kernel

theorem wit_TapInstructions : (let s : State := { State.reset with tap := { State.reset.tap with trstHigh := true } }
    let u : State := { State.reset with tap := { State.reset.tap with trstHigh := true, h0 := { State.reset.tap.h0 with ir := .hold .clamp } }, boot := { State.reset.boot with conds := [4], core := true } }
    State.reset.tap.trstHigh = false ∧ s.tap.trstHigh = true ∧ s.tapHolds = false ∧ s.boot.conds.contains 4 = false ∧ u.tapHolds = true ∧ (u.tapOf 0).ir.holds = true ∧ (u.tapOf (1 - 0)).ir.holds = false ∧ u.boot.conds = [4] ∧ State.reset.tapHolds = false) := by
  decide +kernel

theorem wit_TapHoldsTheCore : (State.reset.boot.conds.contains 4 = State.reset.tapHolds) := by
  decide +kernel

theorem wit_StepTakesTheFront : (let c : Cmd := ⟨.n, 1, 0, 0, 0, 0, false, false⟩
    let s : State := { State.reset.setF Rg.BOOT_STAT_READY 1 with cmd := { State.reset.cmd with held := [⟨c, 1, .pathConfig c [1]⟩] } }
    let r : State := State.reset
    r.pending = [] ∧ r.nextHeld = none ∧ s.pending = [] ∧ s.nextHeld = some (⟨c, 1, .pathConfig c [1]⟩, []) ∧ r.time.corr = none ∧
      (∀ n < 10, r.laneState n ≠ 2 ∧ r.laneState n ≠ 7) ∧ r.mirrored = r.mirrorOf ∧ (∀ h < 2, (r.d2dOf h).waiting = []) ∧
      (∀ k < 4, (r.filtOf k).loading = []) ∧ r.feLater = [] ∧ r.sched = none ∧ (∀ e ∈ r.bias, e.2.settle (r.time.now + 1) = e.2) ∧
      (r.time.now + 1) % 492 ≠ 0 ∧ (r.time.now + 1) % Config.ticksPerSubframe ≠ 0 ∧ (∀ h < 2, tget (fun _ => 0) r.rel.arrAt h ≠ r.time.now + 1)) := by
  decide +kernel

theorem wit_StepTakesTheFront_slew : (let c : Corr := ⟨5000, false, 0, 0, 0⟩
    let s : State := { State.reset with time := { State.reset.time with now := 491519, corr := some c } }
    s.pending = [] ∧ s.nextHeld = none ∧ s.time.corr = some c ∧ c.step = false ∧ (s.time.now + 1) % Config.ticksPerSubframe = 0 ∧
      (s.setF (clkFld 2) 50).raw (clkFld 2) ≠ 0 ∧ (s.setF (clkFld 2) 50).raw (clkFld 2) ≤ 100 ∧ tget (fun _ => 100) s.clkTo 2 ≤ 100) := by
  decide +kernel

end Witnesses
end

section
/-! SUPPORT. Fields side by side in a word: what a write of one leaves in another, and what a pass over all the fields of a
row leaves in each. -/

namespace Sys2Proof

theorem testBit_fget (r : Word) (lo w i : Nat) :
    (fget r lo w).testBit i = (decide (i < w) && r.toNat.testBit (i + lo)) := by
  rw [fget, Nat.testBit_mod_two_pow, Nat.testBit_div_two_pow]

theorem fget_lt (r : Word) (lo w : Nat) : fget r lo w < 2 ^ w := Nat.mod_lt _ (by positivity)

/-- The bits of a word outside the field that is written stay. -/
theorem testBit_fset_outside (r : Word) {lo w i : Nat} (v : Nat) (h : i < lo ∨ lo + w ≤ i) :
    (fset r lo w v).toNat.testBit i = r.toNat.testBit i := by
  have hi : r.toNat.testBit i = (decide (i < 32) && r.toNat.testBit i) := by
    by_cases h32 : i < 32
    · simp [h32]
    · simp [h32, BitVec.testBit_toNat, BitVec.getLsbD_of_ge r i (by omega)]
  have hlow : r.toNat % 2 ^ lo < 2 ^ lo := Nat.mod_lt _ (by positivity)
  have hmid : v % 2 ^ w < 2 ^ w := Nat.mod_lt _ (by positivity)
  have split : r.toNat / 2 ^ (lo + w) * 2 ^ (lo + w) + v % 2 ^ w * 2 ^ lo + r.toNat % 2 ^ lo =
      2 ^ lo * (2 ^ w * (r.toNat / 2 ^ (lo + w)) + v % 2 ^ w) + r.toNat % 2 ^ lo := by rw [pow_add]; ring
  rw [hi, fset, BitVec.toNat_ofNat, Nat.testBit_mod_two_pow, split, Nat.testBit_two_pow_mul_add _ hlow,
    Nat.testBit_two_pow_mul_add _ hmid]
  rcases h with h | h
  · simp [h, Nat.testBit_mod_two_pow]
  · have h1 : ¬i < lo := by omega
    have h2 : ¬i - lo < w := by omega
    rw [if_neg h1, if_neg h2, Nat.testBit_div_two_pow, show i - lo - w + (lo + w) = i by omega]

/-- A write of one field leaves a field beside it. -/
theorem fget_fset_apart (r : Word) {lo w lo' w' : Nat} (v : Nat) (h : lo + w ≤ lo' ∨ lo' + w' ≤ lo) :
    fget (fset r lo w v) lo' w' = fget r lo' w' := by
  refine Nat.eq_of_testBit_eq fun i => ?_
  rw [testBit_fget, testBit_fget]
  by_cases hi : i < w'
  · rw [testBit_fset_outside r v (by omega)]
  · simp [hi]

end Sys2Proof

namespace Sys2Proof.Machine

/-- Fields that share no bit. -/
abbrev RegField.Apart (f g : RegField) : Prop := f.lo + f.w ≤ g.lo ∨ g.lo + g.w ≤ f.lo

theorem RegField.Apart.symm {f g : RegField} (h : f.Apart g) : g.Apart f := Or.symm h

/-- A row whose fields lie side by side within the word and whose reset values fit them. -/
abbrev RegRow.Laid (r : RegRow) : Prop :=
  r.fields.Pairwise RegField.Apart ∧ ∀ f ∈ r.fields, f.lo + f.w ≤ 32 ∧ f.rst < 2 ^ f.w

/-- Every row of the register map is laid out so (R407). -/
theorem regRows_laid : ∀ r ∈ regRows, r.Laid := by decide +kernel

theorem regRow?_laid {off : Nat} {r : RegRow} (h : regRow? off = some r) : r.Laid :=
  regRows_laid r (List.mem_of_find?_eq_some h)

section
variable {move : Word → RegField → Word}
  (hmove : ∀ w (f g : RegField), f.Apart g → fget (move w f) g.lo g.w = fget w g.lo g.w)
include hmove

/-- A pass over fields apart from one leaves that one. -/
theorem fget_foldl_fields_apart {l : List RegField} {f : RegField} (h : ∀ g ∈ l, g.Apart f) (r : Word) :
    fget (l.foldl move r) f.lo f.w = fget r f.lo f.w := by
  induction l generalizing r with
  | nil => rfl
  | cons g l ih =>
    rw [List.foldl_cons, ih fun a ha => h a (List.mem_cons_of_mem _ ha), hmove r g f (h g List.mem_cons_self)]

/-- A pass over fields that lie apart, each of whose moves touches its own field alone: each field ends as its own move
leaves it. -/
theorem fget_foldl_fields {l : List RegField} (hl : l.Pairwise RegField.Apart) {f : RegField} (hf : f ∈ l) (r : Word) :
    ∃ w, fget w f.lo f.w = fget r f.lo f.w ∧ fget (l.foldl move r) f.lo f.w = fget (move w f) f.lo f.w := by
  induction l generalizing r with
  | nil => simp at hf
  | cons g l ih =>
    obtain ⟨hg, hl⟩ := List.pairwise_cons.mp hl
    rcases List.mem_cons.mp hf with rfl | hf
    · exact ⟨r, rfl, fget_foldl_fields_apart hmove (fun a ha => (hg a ha).symm) _⟩
    · obtain ⟨w, hw, he⟩ := ih hl hf (move r g)
      exact ⟨w, hw.trans (hmove r g f (hg f hf)), he⟩

end

/-! ## Fields of the state -/

/-- A field keeps its value when a field apart from it is written. -/
theorem State.raw_setF_apart (s : State) (x y : Fld) (v : Nat)
    (h : x.off ≠ y.off ∨ x.lo + x.w ≤ y.lo ∨ y.lo + y.w ≤ x.lo) : (s.setF x v).raw y = s.raw y := by
  by_cases ho : x.off = y.off
  · simp [State.raw, State.reg_setF, ho, fget_fset_apart _ _ (h.resolve_left (not_not_intro ho))]
  · exact State.raw_setF_off s x y v ho

theorem State.raw_lt (s : State) (x : Fld) : s.raw x < 2 ^ x.w := fget_lt _ _ _

theorem State.on_of_raw {s t : State} {x : Fld} (h : t.raw x = s.raw x) : t.on x = s.on x := by
  simp [State.on, State.f, h]

/-- A one-bit field is set in force exactly when its bit is. -/
theorem State.on_iff_raw (s : State) (x : Fld) (hlo : x.okLo ≤ 1 := by decide) (hhi : 1 ≤ x.okHi := by decide)
    (hr : x.rst ≠ 1 := by decide) : s.on x = true ↔ s.raw x = 1 := by
  unfold State.on State.f
  split
  · simp
  · have : s.raw x ≠ 1 := by rintro h; omega
    simp [hr, this]

end Sys2Proof.Machine
end

section
/-! SUPPORT. Register writes and reads case by case: the equation of each special offset, and what a plain write and a read
leave in the fields (R10, R12, R404, R407, R410, R411, R422, R450). -/

namespace Sys2Proof.Machine

/-! ## Writes by offset -/

section
variable {s : State} (hp : 2 ≤ s.raw Rg.BOOT_STAT_PHASE)
include hp

/-- A write where no register is assigned is counted and ignored. -/
theorem State.writeReg_unassigned {off : Nat} (v : Word) (hr : regRow? off = none) :
    s.writeReg off v = s.bump Rg.C_BAD_ACCESS 1 := by
  simp [State.writeReg, Nat.not_lt.mpr hp, hr]

theorem State.writeReg_lock (v : Word) : s.writeReg 0x000C v = if bitOf v 0 then s.lockWrite else s := by
  obtain ⟨r, hr⟩ := Option.isSome_iff_exists.mp (show (regRow? 0x000C).isSome by decide)
  simp [State.writeReg, Nat.not_lt.mpr hp, hr, show h1Bits 0x000C = 0 by decide]

theorem State.writeReg_test (v : Word) : s.writeReg 0x0010 v = s.writeTest v := by
  obtain ⟨r, hr⟩ := Option.isSome_iff_exists.mp (show (regRow? 0x0010).isSome by decide)
  simp [State.writeReg, Nat.not_lt.mpr hp, hr, show h1Bits 0x0010 = 0 by decide]

theorem State.writeReg_statusBase (high : Bool) (v : Word) :
    s.writeReg (if high then 0x0024 else 0x0020) v = s.writeStatusBase high v := by
  have hr : (regRow? (if high then 0x0024 else 0x0020)).isSome := by cases high <;> decide
  have h1 : h1Bits (if high then 0x0024 else 0x0020) = 0 := by cases high <;> decide
  obtain ⟨r, hr⟩ := Option.isSome_iff_exists.mp hr
  cases high <;> simp_all [State.writeReg, Nat.not_lt.mpr hp]

/-- A write to a register without a rule of its own follows the access codes alone. -/
theorem State.writeReg_plain {off : Nat} {r : RegRow} (v : Word) (hr : regRow? off = some r) (h1 : h1Bits off = 0)
    (ho : off ∉ [0x000C, 0x0010, 0x0020, 0x0024, 0x0028, 0x1D00, 0x2000, 0x2108, 0x210C])
    (hring : ¬(0x0100 ≤ off ∧ off < 0x01C0)) (hlane : ¬(0x1800 ≤ off ∧ off < 0x1A80))
    (hmsix : ¬(0x3000 ≤ off ∧ off < 0x3100)) : s.writeReg off v = s.plainWrite off r v := by
  simp only [List.mem_cons, List.not_mem_nil, or_false, not_or] at ho
  obtain ⟨n1, n2, n3, n4, n5, n6, n7, n8, n9⟩ := ho
  have lane' (p : Prop) : ¬(0x1800 ≤ off ∧ off < 0x1A80 ∧ p) := fun h => hlane ⟨h.1, h.2.1⟩
  have msix' (p : Prop) : ¬(0x3000 ≤ off ∧ off < 0x3100 ∧ p) := fun h => hmsix ⟨h.1, h.2.1⟩
  simp [State.writeReg, State.afterWrite, Nat.not_lt.mpr hp, hr, h1, hring, lane', msix', n1, n2, n3, n4, n5, n6, n7, n8,
    n9]

end

/-! ## Access codes (Table 2) -/

/-- The register that counts ignored writes holds no RWL field itself. -/
theorem rwlIgnored_not_rwl {r : RegRow} (h : regRow? Rg.C_RWL_IGNORED.off = some r) : r.hasRwl = false := by
  have : (regRow? Rg.C_RWL_IGNORED.off).any RegRow.hasRwl = false := by decide
  simpa [h] using this

theorem RegRow.hasRwl_iff (r : RegRow) : r.hasRwl = true ↔ ∃ f ∈ r.fields, f.acc = .rwl := by
  simp [RegRow.hasRwl]

/-- What a write leaves depends on the register, the lock and test mode only. -/
theorem State.written_congr {s t : State} {off : Nat} (r : RegRow) (v : Word) (hreg : t.reg off = s.reg off)
    (hlock : t.locked = s.locked) (htest : t.on Rg.CFG_STAT_TEST = s.on Rg.CFG_STAT_TEST) :
    t.written off r v = s.written off r v := by
  simp only [State.written, hreg, hlock, htest]

/-- Every field after a write, by its access code. -/
theorem State.written_field (s : State) {off : Nat} {r : RegRow} (v : Word) (hr : regRow? off = some r) {f : RegField}
    (hf : f ∈ r.fields) :
    (f.acc = .rw → fget (s.written off r v) f.lo f.w = fget v f.lo f.w) ∧
    (f.acc = .ro ∨ f.acc = .rc → fget (s.written off r v) f.lo f.w = fget (s.reg off) f.lo f.w) ∧
    (f.acc = .rwl → s.locked = true → fget (s.written off r v) f.lo f.w = fget (s.reg off) f.lo f.w) := by
  obtain ⟨hapart, hfit⟩ := regRow?_laid hr
  obtain ⟨h32, -⟩ := hfit f hf
  have old := Nat.mod_eq_of_lt (fget_lt (s.reg off) f.lo f.w)
  have new := Nat.mod_eq_of_lt (fget_lt v f.lo f.w)
  unfold State.written
  obtain ⟨w, -, he⟩ := fget_foldl_fields (fun _ _ _ h => fget_fset_apart _ _ h) hapart hf (s.reg off)
  rw [he, fget_fset _ _ h32]
  refine ⟨fun h => ?_, fun h => ?_, fun h hl => ?_⟩
  · simp [h, new]
  · rcases h with h | h <;> simp [h, old]
  · simp [h, hl, old]

theorem State.locked_bump (s : State) (x : Fld) (n : Nat) (h : x.off ≠ Rg.CFG_STAT_LOCKED.off) :
    (s.bump x n).locked = s.locked := State.on_of_raw (State.raw_bump_off _ _ _ _ h)

/-- A plain write: the register takes what the access codes admit, and a write to RWL fields after the lock is counted. -/
theorem State.plainWrite_spec (s : State) {off : Nat} {r : RegRow} (v : Word) (hr : regRow? off = some r) :
    (s.plainWrite off r v).reg off = s.written off r v ∧
    (s.locked = true → r.hasRwl = true →
      (s.plainWrite off r v).raw Rg.C_RWL_IGNORED = min (s.raw Rg.C_RWL_IGNORED + 1) (2 ^ Rg.C_RWL_IGNORED.w - 1)) ∧
    Only [] (off :: if s.locked && r.hasRwl then [Rg.C_RWL_IGNORED.off] else []) s (s.plainWrite off r v) := by
  unfold State.plainWrite
  by_cases hc : (s.locked && r.hasRwl) = true
  · have hne : Rg.C_RWL_IGNORED.off ≠ off := by
      rintro rfl
      simp [rwlIgnored_not_rwl hr] at hc
    simp only [hc, if_true]
    refine ⟨?_, fun _ _ => ?_, ?_⟩
    · rw [State.reg_setReg_same]
      exact State.written_congr r v (State.reg_setF _ _ _ _ |>.trans (if_neg hne))
        (State.locked_bump _ _ _ (by decide)) (State.on_of_raw (State.raw_bump_off _ _ _ _ (by decide)))
    · rw [State.raw, State.reg_setReg, if_neg hne.symm]
      exact State.raw_bump _ _ _ (by decide)
    · exact ((only_bump _ _ _).mono (by simp) (by simp)).trans ((only_setReg _ _ _).mono (by simp) (by simp))
  · simp only [hc]
    refine ⟨State.reg_setReg_same _ _ _, fun h1 h2 => absurd (by simp [h1, h2]) hc, ?_⟩
    exact (only_setReg _ _ _).mono (by simp) (by simp)

/-! ## Reads -/

theorem only_clearRc (s : State) (off : Nat) : Only [] [off] s (s.clearRc off) := by
  unfold State.clearRc
  split
  · exact only_setReg _ _ _
  · exact Only.refl _ _ _

/-- A read clears the RC fields of its register and no other. -/
theorem State.clearRc_field (s : State) {off : Nat} {r : RegRow} (hr : regRow? off = some r) {f : RegField}
    (hf : f ∈ r.fields) :
    fget ((s.clearRc off).reg off) f.lo f.w = if f.acc = .rc then f.rst else fget (s.reg off) f.lo f.w := by
  obtain ⟨hapart, hfit⟩ := regRow?_laid hr
  obtain ⟨h32, hrst⟩ := hfit f hf
  unfold State.clearRc
  simp only [hr, State.reg_setReg_same]
  obtain ⟨w, hw, he⟩ := fget_foldl_fields (move := fun w f => match f.acc with
    | .rc => fset w f.lo f.w f.rst
    | _ => w) (fun w f g h => by split <;> simp [fget_fset_apart _ _ h]) hapart hf (s.reg off)
  refine Eq.trans he ?_
  by_cases hc : f.acc = .rc
  · simp [hc, fget_fset _ _ h32, Nat.mod_eq_of_lt hrst]
  · rw [if_neg hc, ← hw]
    cases ha : f.acc <;> simp_all

/-- A register without RC fields is read without a change. -/
theorem State.clearRc_atNow (s : State) : (s.clearRc 0x0808).reg 0x0808 = s.reg 0x0808 := by
  have hr : regRow? 0x0808 = some ⟨0x808, 0x0, 1, [⟨0, 32, .ro, 0⟩]⟩ := by decide
  simp [State.clearRc, hr]

/-- A read of a register on H0 other than the air time: its word, with its RC fields cleared. -/
theorem State.hostRead_register {s : State} {off : Nat} (hs : s.served = true) (h1 : h1Bits off = 0)
    (hat : off ≠ 0x0808) (hm : off < 0x4000) :
    s.hostRead off = (s.clearRc off).emit (.regRead off (s.regNow off)) := by
  simp [State.hostRead, State.readReg, hs, h1, hat, hm]

/-- A read of a doorbell's offset gives the value last written to it. -/
theorem State.hostRead_doorbell {s : State} (r : Nat) (hs : s.served = true) :
    s.hostRead (0x4000 + 0x40 * r) = s.emit (.regRead (0x4000 + 0x40 * r) (tget (fun _ => 0) s.host.mw2 r)) := by
  simp [State.hostRead, hs]

theorem State.hostRead_unserved {s : State} (off : Nat) (hs : s.served = false) : s.hostRead off = s := by
  simp [State.hostRead, hs]

/-- The air time latched for SU_AT_NOW1 by a read of SU_AT_NOW0. -/
def State.latchNow (s : State) : State :=
  ((s.setF Rg.AT_NOW1_TICK s.stamp.tick).setB Rg.AT_NOW1_VALID s.time.valid).setB Rg.AT_NOW1_TX_HELD s.time.txHeld

theorem State.hostRead_atNow {s : State} (hs : s.served = true) :
    s.hostRead 0x0808 = (s.latchNow.clearRc 0x0808).emit (.regRead 0x0808 (BitVec.ofNat 32 (atimeWord s.stamp))) := by
  simp [State.hostRead, State.readReg, State.latchNow, State.regNow, hs, show h1Bits 0x0808 = 0 by decide]

theorem only_latchNow (s : State) : Only [] [Rg.AT_NOW1_TICK.off] s s.latchNow :=
  (((only_setF s _ _).mono (by decide) (by decide)).trans ((only_setB _ Rg.AT_NOW1_VALID _).mono (by decide) (by decide))).trans
    ((only_setB _ Rg.AT_NOW1_TX_HELD _).mono (by decide) (by decide))

theorem State.raw_setB (s : State) (x : Fld) (b : Bool) (hw : x.w = 1) (h : x.lo + x.w ≤ 32) :
    (s.setB x b).raw x = b2n b := by
  rw [State.setB, State.raw_setF _ _ _ h, hw]
  cases b <;> rfl

theorem State.latchNow_tick (s : State) : s.latchNow.raw Rg.AT_NOW1_TICK = s.stamp.tick % 2 ^ Rg.AT_NOW1_TICK.w :=
  (State.raw_setF_apart _ _ _ _ (by decide)).trans
    ((State.raw_setF_apart _ _ _ _ (by decide)).trans (State.raw_setF _ _ _ (by decide)))

theorem State.latchNow_valid (s : State) : s.latchNow.raw Rg.AT_NOW1_VALID = b2n s.time.valid :=
  (State.raw_setF_apart _ _ _ _ (by decide)).trans (State.raw_setB _ _ _ rfl (by decide))

theorem State.latchNow_txHeld (s : State) : s.latchNow.raw Rg.AT_NOW1_TX_HELD = b2n s.time.txHeld :=
  State.raw_setB _ _ _ rfl (by decide)

theorem State.latchNow_muRef (s : State) : s.latchNow.muRef = s.muRef :=
  (State.raw_setF_apart _ _ _ _ (by decide)).trans
    ((State.raw_setF_apart _ _ _ _ (by decide)).trans (State.raw_setF_apart _ _ _ _ (by decide)))

/-- A read of the air time changes SU_AT_NOW1 alone. -/
theorem only_clearRc_latchNow (s : State) : Only [] [Rg.AT_NOW1_TICK.off] s (s.latchNow.clearRc 0x0808) := by
  refine ⟨((only_latchNow s).mono (List.Subset.refl _) (m' := [Rg.AT_NOW1_TICK.off, 0x0808]) (by decide)).trans
    ((only_clearRc _ _).mono (List.Subset.refl _) (by decide)) |>.1, fun o ho => ?_⟩
  by_cases h : o = 0x0808
  · subst h
    rw [State.clearRc_atNow, (only_latchNow s).2 _ ho]
  · rw [(only_clearRc _ _).2 o (by simpa using h), (only_latchNow s).2 o ho]

/-- Clearing the RC fields of SU_AT_NOW0 leaves the fields of every other register. -/
theorem State.clearRc_atNow_raw (s : State) (x : Fld) (hx : x.off ≠ 0x0808) : (s.clearRc 0x0808).raw x = s.raw x :=
  (only_clearRc s 0x0808).2.raw x (by simpa using hx)

end Sys2Proof.Machine
end

section
/-! SUPPORT. The set-up lock, test mode and the status-block address: what each write leaves (R410, R411, R422). -/

namespace Sys2Proof.Machine

/-! ## Set-up lock -/

/-- The lock's registers after it is taken: LOCK, LOCKED, and standalone service ended (R410, R7). -/
def State.takeLock (s : State) : State := ((s.setF Rg.LOCK_LOCK 1).setF Rg.CFG_STAT_LOCKED 1).setF Rg.CFG_STAT_STANDALONE 0

theorem State.lockWrite_refused {s : State} (hl : s.locked = false)
    (h : s.ringOn 0 = false ∨ s.ringOn 2 = false ∨ s.ringOn 3 = false ∨ (s.reg 0x0020 = 0 ∧ s.reg 0x0024 = 0)) :
    s.lockWrite = s.setF Rg.CFG_STAT_LOCK_ERR 1 := by
  have : (!(s.ringOn 0 && s.ringOn 2 && s.ringOn 3) || (s.reg 0x0020 == 0 && s.reg 0x0024 == 0)) = true := by
    rcases h with h | h | h | ⟨h, h'⟩ <;> simp [*]
  simp only [State.lockWrite, hl, this, Bool.false_eq_true, if_false, if_true]

/-- A lock write that finds its rings, a status block and a path configuration takes the lock, and the lines are driven. -/
theorem State.lockWrite_granted {s : State} (hl : s.locked = false) (h0 : s.ringOn 0 = true) (h2 : s.ringOn 2 = true)
    (h3 : s.ringOn 3 = true) (hb : ¬(s.reg 0x0020 = 0 ∧ s.reg 0x0024 = 0)) (hc : s.raw Rg.CFG_STAT_PATHCFG ≠ 0) :
    s.lockWrite = s.takeLock.driveAll := by
  have : (s.reg 0x0020 == 0 && s.reg 0x0024 == 0) = false := by simpa using hb
  simp only [State.lockWrite, hl, h0, h2, h3, this, hc, Bool.and_self, Bool.not_true, Bool.or_self, Bool.false_eq_true,
    if_false, State.takeLock]

theorem only_takeLock (s : State) : Only [] [Rg.LOCK_LOCK.off, Rg.CFG_STAT_LOCKED.off] s s.takeLock :=
  (((only_setF _ _ _).mono (by decide) (by decide)).trans
    ((only_setF _ Rg.CFG_STAT_LOCKED _).mono (by decide) (by decide))).trans
    ((only_setF _ Rg.CFG_STAT_STANDALONE _).mono (by decide) (by decide))

theorem State.takeLock_locked (s : State) : s.takeLock.locked = true :=
  (State.on_iff_raw _ _).mpr ((State.raw_setF_apart _ _ _ _ (by decide)).trans (State.raw_setF _ _ _ (by decide)))

theorem State.takeLock_lock (s : State) : s.takeLock.raw Rg.LOCK_LOCK = 1 :=
  (State.raw_setF_apart _ _ _ _ (by decide)).trans
    ((State.raw_setF_apart _ _ _ _ (by decide)).trans (State.raw_setF _ _ _ (by decide)))

theorem State.takeLock_standalone (s : State) : s.takeLock.standalone = false := by
  have h : s.takeLock.raw Rg.CFG_STAT_STANDALONE = 0 := State.raw_setF _ _ _ (by decide)
  exact Bool.eq_false_iff.mpr fun ho => by simp [(State.on_iff_raw _ _).mp ho] at h

/-- A field beside those of the lock keeps its value when the lock is taken. -/
theorem State.takeLock_raw_apart (s : State) (x : Fld) (h1 : Rg.LOCK_LOCK.off ≠ x.off)
    (h2 : 4 ≤ x.lo ∨ x.lo + x.w ≤ 2) : s.takeLock.raw x = s.raw x := by
  have hs : Rg.CFG_STAT_STANDALONE.lo + Rg.CFG_STAT_STANDALONE.w ≤ x.lo ∨ x.lo + x.w ≤ Rg.CFG_STAT_STANDALONE.lo :=
    h2.imp (Nat.le_trans (by decide)) id
  have hl : Rg.CFG_STAT_LOCKED.lo + Rg.CFG_STAT_LOCKED.w ≤ x.lo ∨ x.lo + x.w ≤ Rg.CFG_STAT_LOCKED.lo :=
    h2.imp id fun h => Nat.le_trans h (by decide)
  rw [State.takeLock, State.raw_setF_apart _ _ _ _ (.inr hs), State.raw_setF_apart _ _ _ _ (.inr hl),
    State.raw_setF_off _ _ _ _ h1]

/-! ## The front-end lines (R296) -/

/-- Lines already driven, or held by the shutdown, stay as they are; else each line in service is driven, which only
sends its level. -/
theorem State.driveAll_cases (s : State) :
    ((s.linesOn || s.shutdown) = true ∧ s.driveAll = s) ∨
    ((s.linesOn || s.shutdown) = false ∧ Only [.log] [] { s with linesOn := true } s.driveAll) := by
  unfold State.driveAll
  by_cases h : (s.linesOn || s.shutdown) = true
  · exact .inl ⟨h, if_pos h⟩
  · refine .inr ⟨by simpa using h, ?_⟩
    rw [if_neg h]
    refine Only.foldl _ (fun t p => Only.ite _ (fun _ => ?_) (fun _ => Only.refl _ _ _)) _ _
    exact ((only_emit _ _).trans (only_emit _ _)).trans (only_emit _ _)

theorem only_driveAll (s : State) : Only [.frontEnd, .log] [] s s.driveAll := by
  rcases s.driveAll_cases with ⟨-, h⟩ | ⟨-, h⟩
  · rw [h]
    exact Only.refl _ _ _
  · have hon : Only [.frontEnd] [] s { s with linesOn := true } :=
      ⟨fun p hp => by cases p <;> simp_all [Part.Same], fun _ _ => rfl⟩
    exact hon.then h

theorem State.driveAll_fe (s : State) : s.driveAll.fe = s.fe := by
  rcases s.driveAll_cases with ⟨-, h⟩ | ⟨-, h⟩
  · rw [h]
  · exact (h.1 .frontEnd (by decide)).1

theorem State.driveAll_linesOn (s : State) (h : s.shutdown = false) : s.driveAll.linesOn = true := by
  rcases s.driveAll_cases with ⟨hc, he⟩ | ⟨-, ho⟩
  · rw [he]
    simpa [h] using hc
  · obtain ⟨-, -, hl, -⟩ := ho.1 .frontEnd (by decide)
    exact hl

/-! ## Test mode (R411) -/

/-- Test mode as entered: TEST set in both registers, fault coverage no longer claimed. -/
def State.enterTest (s : State) : State :=
  (((s.setF Rg.TEST_TEST 1).setF Rg.CFG_STAT_TEST 1).setF Rg.REL_STAT_COVERED 0).mapBoot fun b => { b with entered := true }

theorem State.enterTest_locked (s : State) : s.enterTest.locked = s.locked :=
  State.on_of_raw ((State.raw_setF_apart _ _ _ _ (by decide)).trans
    ((State.raw_setF_apart _ _ _ _ (by decide)).trans (State.raw_setF_apart _ _ _ _ (by decide))))

theorem State.enterTest_test (s : State) : s.enterTest.raw Rg.TEST_TEST = 1 :=
  (State.raw_setF_apart _ Rg.REL_STAT_COVERED _ _ (by decide)).trans
    ((State.raw_setF_apart _ Rg.CFG_STAT_TEST _ _ (by decide)).trans (State.raw_setF _ _ _ (by decide)))

theorem State.enterTest_cfgTest (s : State) : s.enterTest.raw Rg.CFG_STAT_TEST = 1 :=
  (State.raw_setF_apart _ Rg.REL_STAT_COVERED _ _ (by decide)).trans (State.raw_setF _ _ _ (by decide))

theorem only_enterTest (s : State) :
    Only [.boot] [Rg.TEST_TEST.off, Rg.CFG_STAT_TEST.off, Rg.REL_STAT_COVERED.off] s s.enterTest :=
  ((((only_setF _ _ _).mono (by decide) (by decide)).trans
    ((only_setF _ Rg.CFG_STAT_TEST _).mono (by decide) (by decide))).trans
    ((only_setF _ Rg.REL_STAT_COVERED _).mono (by decide) (by decide))).trans
    ((only_mapBoot _ _).mono (by decide) (by decide))

/-- A write of 1 to TEST with the KEY in place and set-up open enters test mode and stores the KEY written. -/
theorem State.writeTest_entered {s : State} {v : Word} (hv : bitOf v 0 = true) (hk : s.raw Rg.TEST_KEY = 0x7E57)
    (hl : s.locked = false) : s.writeTest v = s.enterTest.setF Rg.TEST_KEY (fget v 16 16) := by
  have h : s.enterTest.locked = false := s.enterTest_locked.trans hl
  simp only [State.writeTest, hv, hk, hl, Bool.not_true, Bool.not_false, Bool.false_eq_true, and_self, if_true, if_false]
  exact if_neg (by simpa [State.enterTest] using h)

/-- A write of 1 to TEST without the KEY or after the lock is counted; the KEY is an RWL field. -/
theorem State.writeTest_refused {s : State} {v : Word} (hv : bitOf v 0 = true)
    (h : s.raw Rg.TEST_KEY ≠ 0x7E57 ∨ s.locked = true) :
    s.writeTest v = if s.locked then (s.bump Rg.C_BAD_ACCESS 1).bump Rg.C_RWL_IGNORED 1
      else (s.bump Rg.C_BAD_ACCESS 1).setF Rg.TEST_KEY (fget v 16 16) := by
  have hn : ¬(s.raw Rg.TEST_KEY = 0x7E57 ∧ (!s.locked) = true) := by rcases h with h | h <;> simp [h]
  simp only [State.writeTest, hv, hn, Bool.not_true, Bool.false_eq_true, if_false,
    State.locked_bump s Rg.C_BAD_ACCESS 1 (by decide)]

/-! ## The status-block address (R422) -/

theorem State.writeStatusBase_ring {s : State} (h : s.anyRing = true) (high : Bool) (v : Word) :
    s.writeStatusBase high v = s.bump Rg.C_BAD_ACCESS 1 := if_pos h

theorem State.writeStatusBase_open {s : State} (h : s.anyRing = false) (high : Bool) (v : Word) :
    s.writeStatusBase high v =
      (s.setReg (if high then 0x0024 else 0x0020) (if high then v else fset v 0 6 0)).mapHost fun h => { h with writes := 0 } :=
  if_neg (by simp [h])

end Sys2Proof.Machine
end

section
/-! SUPPORT. A reset of the host interface (R405), and the writes to host memory that waited for HOSTIF or for D0
(R406, R464). -/

namespace Sys2Proof.Machine

/-! ## Passes over registers and counters -/

theorem State.reg_foldl_setReg (g : Nat → Word) (l : List Nat) (s : State) (o : Nat) :
    (l.foldl (fun s off => s.setReg off (g off)) s).reg o = if o ∈ l then g o else s.reg o := by
  induction l generalizing s with
  | nil => simp
  | cons a l ih =>
    rw [List.foldl_cons, ih, State.reg_setReg]
    by_cases hl : o ∈ l
    · simp [hl]
    · by_cases ha : a = o
      · simp [ha]
      · simp [hl, ha, Ne.symm ha]

theorem only_foldl_setReg (g : Nat → Word) (l : List Nat) (s : State) :
    Only [] l s (l.foldl (fun s off => s.setReg off (g off)) s) := by
  refine ⟨?_, fun o ho => by rw [State.reg_foldl_setReg, if_neg ho]⟩
  induction l generalizing s with
  | nil => exact (Only.refl [] [] s).1
  | cons a l ih => exact fun p hp => Part.same_trans ((only_setReg s a (g a)).1 p hp) (ih _ p hp)

/-- Counting once for every entry of a list. -/
theorem State.raw_foldl_bump {α : Type} (x : Fld) (h : x.lo + x.w ≤ 32) (l : List α) (s : State) :
    (l.foldl (fun s _ => s.bump x 1) s).raw x = min (s.raw x + l.length) (2 ^ x.w - 1) := by
  induction l generalizing s with
  | nil =>
    have := s.raw_lt x
    simp only [List.foldl_nil, List.length_nil]
    omega
  | cons a l ih =>
    rw [List.foldl_cons, ih, State.raw_bump _ _ _ h, List.length_cons]
    omega

/-! ## Reset of the host interface -/

/-- The interface's registers and records as a reset of it leaves them. -/
def State.clearHost (s : State) (stays : Bool) : State :=
  (hostRegs.foldl (fun s off => s.setReg off (regReset off)) s).mapHost fun h =>
    { HostSt.reset with
      linkUp := h.linkUp && stays, svid := h.svid, ssid := h.ssid, exec := h.exec, evtEver := h.evtEver, lost := h.lost, lostSeq := h.lostSeq
      spiErr := h.spiErr, pfReady := h.pfReady, pfBuf := h.pfBuf, nvUnlocked := h.nvUnlocked }

theorem only_clearHost (s : State) (stays : Bool) : Only [.host] hostRegs s (s.clearHost stays) :=
  ((only_foldl_setReg regReset hostRegs s).mono (by decide) (List.Subset.refl _)).trans
    ((only_mapHost _ _).mono (by decide) (List.nil_subset _))

theorem State.clearHost_reg (s : State) (stays : Bool) {o : Nat} (ho : o ∈ hostRegs) :
    (s.clearHost stays).reg o = regReset o := by
  rw [State.clearHost, (only_mapHost _ _).2 o (by simp), State.reg_foldl_setReg, if_pos ho]

theorem State.clearHost_host (s : State) (stays : Bool) :
    (s.clearHost stays).host.due = [] ∧ (s.clearHost stays).host.exec = s.host.exec ∧
    (s.clearHost stays).host.svid = s.host.svid ∧ (s.clearHost stays).host.ssid = s.host.ssid ∧
    (s.clearHost stays).host.linkUp = (s.host.linkUp && stays) := by
  have h : (hostRegs.foldl (fun s off => s.setReg off (regReset off)) s).host = s.host :=
    (only_foldl_setReg regReset hostRegs s).1 .host (by decide)
  simp only [State.clearHost, State.mapHost, h, HostSt.reset, and_self]

/-- The rings' registers among those that a reset of the interface returns, and what they then say. -/
theorem hostRegs_rings : ∀ r < 6, (Rg.RING_CTL_STATE r).off ∈ hostRegs ∧ (Rg.RING_IDX_DEV_IDX r).off ∈ hostRegs ∧
    fget (regReset (Rg.RING_CTL_STATE r).off) 6 2 = 0 ∧ regReset (Rg.RING_IDX_DEV_IDX r).off = 0 := by decide

/-- With the interface's registers reset, every ring is DISABLED with both indices 0. -/
theorem State.rings_disabled {t : State} (h : ∀ o ∈ hostRegs, t.reg o = regReset o) : ∀ r < 6,
    t.ringOn r = false ∧ t.ringHalted r = false ∧ t.devIdx r = 0 ∧ t.hostIdx r = 0 := by
  intro r hr
  obtain ⟨hctl, hidx, hstate, hzero⟩ := hostRegs_rings r hr
  have hs : t.raw (Rg.RING_CTL_STATE r) = 0 := (congrArg (fget · 6 2) (h _ hctl)).trans hstate
  have hi : t.reg (Rg.RING_IDX_DEV_IDX r).off = 0 := (h _ hidx).trans hzero
  have hd : t.devIdx r = 0 := (congrArg (fget · 0 16) hi).trans (by decide)
  have hh : t.hostIdx r = 0 := (congrArg (fget · 16 16) hi).trans (by decide)
  exact ⟨by simp [State.ringOn, hs], by simp [State.ringHalted, hs], hd, hh⟩

/-- The interface cleared, with the completions that were due discarded and counted. -/
def State.discardDue (s : State) (stays : Bool) : State :=
  s.host.due.foldl (fun s _ => s.bump Rg.C_CPL_DISCARD 1) (s.clearHost stays)

theorem only_discard (s : State) (stays : Bool) : Only [] [Rg.C_CPL_DISCARD.off] (s.clearHost stays) (s.discardDue stays) :=
  Only.foldl _ (fun t _ => only_bump t _ _) _ _

theorem State.discardDue_reg (s : State) (stays : Bool) : ∀ o ∈ hostRegs, (s.discardDue stays).reg o = regReset o := by
  intro o ho
  have hne : o ∉ [Rg.C_CPL_DISCARD.off] := by
    simp only [List.mem_singleton]
    rintro rfl
    exact absurd ho (by decide)
  rw [(only_discard s stays).2 o hne, State.clearHost_reg _ _ ho]

/-- A reset of the interface while only completions are due: they are discarded, and no ring is HALTED any more. -/
theorem State.hostReset_of_cpls {s : State} (stays : Bool) (h : ∀ w ∈ s.host.due, ∃ c d, w = .cpl c d) :
    s.hostReset stays = (s.discardDue stays).setF Rg.ALERT_STAT_RING_HALT 0 := by
  have hhalt : (List.range 6).any (s.discardDue stays).ringHalted = false := by
    simp only [List.any_eq_false, List.mem_range]
    intro r hr
    obtain ⟨-, hr, -⟩ := State.rings_disabled (s.discardDue_reg stays) r hr
    simp [hr]
  have hdue : s.hostReset stays = (s.discardDue stays).evalHalt := by
    refine congrArg State.evalHalt (List.foldl_ext _ _ _ fun t w hw => ?_)
    obtain ⟨c, d, rfl⟩ := h w hw
    rfl
  rw [hdue, State.evalHalt, hhalt]
  rfl

/-! ## Writes to the host that waited -/

/-- The function's power state, the writes that wait and the packet layers hold the same: what a write to host memory
leaves alone. -/
def KeepsDue (s t : State) : Prop := t.host.d3hot = s.host.d3hot ∧ t.host.due = s.host.due ∧ t.pkts = s.pkts

theorem KeepsDue.refl (s : State) : KeepsDue s s := ⟨rfl, rfl, rfl⟩

theorem KeepsDue.trans {s t u : State} (a : KeepsDue s t) (b : KeepsDue t u) : KeepsDue s u :=
  ⟨b.1.trans a.1, b.2.1.trans a.2.1, b.2.2.trans a.2.2⟩

theorem KeepsDue.ite {s t u : State} (c : Prop) [Decidable c] (a : KeepsDue s t) (b : KeepsDue s u) :
    KeepsDue s (if c then t else u) := by
  split <;> assumption

theorem KeepsDue.of_only {l : List Part} {m : List Nat} {s t : State} (h : Only l m s t) (hh : Part.host ∉ l := by decide)
    (hp : Part.pkts ∉ l := by decide) : KeepsDue s t := by
  have host : t.host = s.host := h.1 .host hh
  exact ⟨by rw [host], by rw [host], h.1 .pkts hp⟩

/-- A change of the host's records that leaves D3hot and the waiting writes. -/
theorem keepsDue_mapHost (s : State) (f : HostSt → HostSt) (hd : ∀ h, (f h).d3hot = h.d3hot := by intro; rfl)
    (hq : ∀ h, (f h).due = h.due := by intro; rfl) : KeepsDue s (s.mapHost f) := ⟨hd _, hq _, rfl⟩

theorem keepsDue_irq (s : State) (v : Nat) : KeepsDue s (s.irq v) := .of_only (only_irq s v)

theorem keepsDue_writeStatus (s : State) : KeepsDue s s.writeStatus := by
  unfold State.writeStatus
  exact .ite _ (.refl _) ((keepsDue_mapHost _ _).trans (.of_only (only_emit _ _)))

/-- An entry of a device-produced ring is sent and its index published. -/
theorem keepsDue_entry (s : State) (o : Out) (r i : Nat) : KeepsDue s ((s.emit o).setDevIdx r i) :=
  ((KeepsDue.of_only (only_emit s o)).trans (.of_only (only_setF _ _ _))).trans (keepsDue_writeStatus _)

/-- The message under moderation: its sending and the clearing of the pending count leave what waits. -/
theorem keepsDue_moderate (c : Prop) [Decidable c] (s : State) (v : Nat) (f : HostSt → HostSt)
    (hd : ∀ h, (f h).d3hot = h.d3hot := by intro; rfl) (hq : ∀ h, (f h).due = h.due := by intro; rfl) :
    KeepsDue s (if c then (s.irq v).mapHost f else s) :=
  .ite _ ((keepsDue_irq s v).trans (keepsDue_mapHost _ f hd hq)) (.refl s)

theorem keepsDue_putEvt (s : State) (e : Event) : KeepsDue s (s.putEvt e) := by
  have written := fun i => (keepsDue_entry s (.evtEntry (s.devIdx 3) e) 3 i).trans
    (.of_only (only_mapCmd _ fun c => { c with evtWritten := e.seq }))
  unfold State.putEvt
  refine KeepsDue.ite _ (KeepsDue.trans ?_ (.of_only (only_msix _ _))) ?_
  all_goals exact ((written _).trans (keepsDue_mapHost _ _)).trans (keepsDue_moderate _ _ _ _)

theorem keepsDue_flushLost (s : State) : KeepsDue s s.flushLost := by
  unfold State.flushLost
  refine .ite _ ?_ (.refl _)
  exact ((KeepsDue.of_only (only_record _ _ _ _ _)).trans (keepsDue_putEvt _ _)).trans (keepsDue_mapHost _ _)

theorem keepsDue_dropEvt (s : State) (e : Event) : KeepsDue s (s.dropEvt e) :=
  ((KeepsDue.of_only (only_bump _ _ _)).trans (.of_only (only_alert _ _))).trans (keepsDue_mapHost _ _)

/-- An event goes out or is lost at once while the host may be written. -/
theorem keepsDue_writeEvt {s : State} (h : s.canWriteHost = true) (e : Event) : KeepsDue s (s.writeEvt e) := by
  unfold State.writeEvt
  refine .ite _ (.refl _) ?_
  rw [if_neg (by simp [h])]
  exact (keepsDue_flushLost s).trans (.ite _ (keepsDue_putEvt _ _) (keepsDue_dropEvt _ _))

theorem keepsDue_putCpl (s : State) (c : Cpl) (data : List Byte) : KeepsDue s (s.putCpl c data) := by
  have out : KeepsDue s (if data = [] then s else s.emit (.hostData c.tag data)) :=
    .ite _ (.refl _) (.of_only (only_emit _ _))
  unfold State.putCpl
  refine .ite _ (KeepsDue.trans ?_ (.ite _ (keepsDue_irq _ _) ?_)) (.of_only (only_bump _ _ _))
  · exact (out.trans (keepsDue_entry _ _ _ _)).trans (.of_only (only_mapCmd _ _))
  · exact (keepsDue_mapHost _ _).trans (keepsDue_moderate _ _ _ _)

/-- One write that waited is made. -/
def State.makeDue (s : State) : HostWrite → State
  | .evt e => s.writeEvt e
  | .cpl c data => s.putCpl c data

/-- Nothing is written until HOSTIF runs in D0; then all that waited is, in order. -/
theorem State.flushDue_eq (s : State) : s.flushDue =
    if !s.canWriteHost then s else s.host.due.foldl State.makeDue (s.mapHost fun h => { h with due := [] }) := by
  unfold State.flushDue
  refine if_congr Iff.rfl rfl (List.foldl_ext _ _ _ fun t w _ => ?_)
  cases w <;> rfl

theorem only_makeDue (s : State) (w : HostWrite) : Only cplParts (eventRegs ++ cplRegs) s (s.makeDue w) := by
  cases w with
  | evt e => exact (only_writeEvt s e).mono (by decide) (by decide)
  | cpl c data => exact (only_putCpl s c data).mono (by decide) (by decide)

theorem keepsDue_makeDue {s : State} (h : s.canWriteHost = true) (w : HostWrite) : KeepsDue s (s.makeDue w) := by
  cases w with
  | evt e => exact keepsDue_writeEvt h e
  | cpl c data => exact keepsDue_putCpl s c data

/-- Whether the host may be written does not change under what leaves D3hot and the domains' states. -/
theorem canWriteHost_of_keeps {s t : State} (h : KeepsDue s t) {l : List Part} (ho : Only l (eventRegs ++ cplRegs) s t) :
    t.canWriteHost = s.canWriteHost := by
  simp only [State.canWriteHost, State.dom, h.1, ho.2 (0x0828 + 4 * 0) (by decide)]

theorem keepsDue_foldl_makeDue (l : List HostWrite) {s : State} (h : s.canWriteHost = true) :
    KeepsDue s (l.foldl State.makeDue s) := by
  induction l generalizing s with
  | nil => exact .refl s
  | cons w l ih =>
    have hw := keepsDue_makeDue h w
    exact hw.trans (ih ((canWriteHost_of_keeps hw (only_makeDue s w)).trans h))

/-- A frame that names the packet layers holds without them where these are known to stay. -/
theorem Only.without_pkts {l : List Part} {m : List Nat} {s t : State} (h : Only (.pkts :: l) m s t) (hp : t.pkts = s.pkts) :
    Only l m s t :=
  ⟨fun p hl => if hq : p = .pkts then hq ▸ hp else h.1 p (by simp [hq, hl]), h.2⟩

/-- The writes that waited are made: the host's, the commands' and the log's records change, the waiting list empties. -/
theorem State.flushDue_spec (s : State) :
    s.flushDue.host.d3hot = s.host.d3hot ∧ (s.canWriteHost = true → s.flushDue.host.due = []) ∧
    (s.host.due = [] → Only [.host] [] s s.flushDue) ∧
    Only [.host, .commands, .log] (eventRegs ++ cplRegs) s s.flushDue := by
  rw [State.flushDue_eq]
  by_cases hc : s.canWriteHost = true
  · rw [if_neg (by simp [hc])]
    generalize hu : (s.mapHost fun h => { h with due := [] }) = u
    have hostOnly : Only [.host] [] s u := hu ▸ only_mapHost s _
    have hcu : u.canWriteHost = true := hu ▸ hc
    have keeps := keepsDue_foldl_makeDue s.host.due hcu
    have frame : Only cplParts (eventRegs ++ cplRegs) u (s.host.due.foldl State.makeDue u) :=
      Only.foldl _ only_makeDue _ _
    obtain ⟨hd3, hdue, hpkts⟩ := keeps
    refine ⟨hd3.trans (hu ▸ rfl), fun _ => hdue.trans (hu ▸ rfl), fun h => ?_, ?_⟩
    · rw [h]
      exact hostOnly
    · exact (hostOnly.mono (by decide) (by decide)).trans (frame.without_pkts hpkts)
  · rw [if_pos (by simpa using hc)]
    exact ⟨rfl, fun h => absurd h hc, fun _ => Only.refl _ _ _, Only.refl _ _ _⟩

end Sys2Proof.Machine
end

section
/-! The host's registers (R10 to R12, R404 to R412, R422, R450): one theorem for each command of the statement, then the
statement. -/

namespace Sys2Proof.Machine

/-! ## Set-up lock -/

theorem setupLock_refused {s : State} (hl : s.locked = false) (hp : 2 ≤ s.raw Rg.BOOT_STAT_PHASE)
    (h : s.ringOn 0 = false ∨ s.ringOn 2 = false ∨ s.ringOn 3 = false ∨ (s.reg 0x0020 = 0 ∧ s.reg 0x0024 = 0)) :
    Runs .setupLock s fun t => t.raw Rg.CFG_STAT_LOCK_ERR = 1 ∧ t.locked = false ∧
      t.raw Rg.LOCK_LOCK = s.raw Rg.LOCK_LOCK ∧ Only [] [Rg.CFG_STAT_LOCK_ERR.off] s t := by
  have hw : s.writeReg 0x000C 1 = s.setF Rg.CFG_STAT_LOCK_ERR 1 :=
    (State.writeReg_lock hp 1).trans (State.lockWrite_refused hl h)
  refine ⟨s.writeReg 0x000C 1, rfl, ?_⟩
  rw [hw]
  exact ⟨State.raw_setF _ _ _ (by decide), (State.on_of_raw (State.raw_setF_apart _ _ _ _ (by decide))).trans hl,
    State.raw_setF_apart _ _ _ _ (by decide), only_setF _ _ _⟩

theorem setupLock_granted {s : State} (hl : s.locked = false) (hp : 2 ≤ s.raw Rg.BOOT_STAT_PHASE)
    (h0 : s.ringOn 0 = true) (h2 : s.ringOn 2 = true) (h3 : s.ringOn 3 = true)
    (hb : ¬(s.reg 0x0020 = 0 ∧ s.reg 0x0024 = 0)) (hc : s.raw Rg.CFG_STAT_PATHCFG ≠ 0) :
    Runs .setupLock s fun t => t.locked = true ∧ t.raw Rg.LOCK_LOCK = 1 ∧ t.standalone = false ∧
      t.raw Rg.CFG_STAT_PATHCFG = s.raw Rg.CFG_STAT_PATHCFG ∧ (s.shutdown = false → t.linesOn = true) ∧
      t.fe = s.fe ∧ Only [.frontEnd, .log] [Rg.LOCK_LOCK.off, Rg.CFG_STAT_LOCKED.off] s t := by
  have hw : s.writeReg 0x000C 1 = s.takeLock.driveAll :=
    (State.writeReg_lock hp 1).trans (State.lockWrite_granted hl h0 h2 h3 hb hc)
  have hdrive := only_driveAll s.takeLock
  have hraw (x : Fld) : s.takeLock.driveAll.raw x = s.takeLock.raw x := hdrive.2.raw x (by simp)
  refine ⟨s.writeReg 0x000C 1, rfl, ?_⟩
  rw [hw]
  refine ⟨(State.on_of_raw (hraw _)).trans s.takeLock_locked, (hraw _).trans s.takeLock_lock,
    (State.on_of_raw (hraw _)).trans s.takeLock_standalone,
    (hraw _).trans (s.takeLock_raw_apart _ (by decide) (by decide)), fun hs => ?_, s.takeLock.driveAll_fe,
    ((only_takeLock s).mono (by decide) (List.Subset.refl _)).trans (hdrive.mono (List.Subset.refl _) (by decide))⟩
  exact s.takeLock.driveAll_linesOn ((State.on_of_raw (s.takeLock_raw_apart _ (by decide) (by decide))).trans hs)

/-! ## Test mode -/

/-- A command that enters test mode writes 1 to TEST and the KEY as given. -/
theorem testWord_fields (v : Word) : bitOf (fset v 0 1 1) 0 = true ∧ fget (fset v 0 1 1) 16 16 = fget v 16 16 := by
  have h : fget (fset v 0 1 1) 0 1 = 1 := fget_fset v 1 (by decide)
  exact ⟨by simpa [bitOf, fget] using h, fget_fset_apart v 1 (by decide)⟩

theorem testModeEnter_entered (v : Word) {s : State} (hp : 2 ≤ s.raw Rg.BOOT_STAT_PHASE)
    (hk : s.raw Rg.TEST_KEY = 0x7E57) (hl : s.locked = false) : Runs (.testModeEnter v) s fun t =>
      t.raw Rg.TEST_TEST = 1 ∧ t.raw Rg.CFG_STAT_TEST = 1 ∧ t.raw Rg.TEST_KEY = fget v 16 16 ∧
      Only [.boot] [Rg.TEST_TEST.off, Rg.CFG_STAT_TEST.off, Rg.REL_STAT_COVERED.off] s t := by
  obtain ⟨hbit, hkey⟩ := testWord_fields v
  have hw : s.writeReg 0x0010 (fset v 0 1 1) = s.enterTest.setF Rg.TEST_KEY (fget v 16 16) := by
    rw [State.writeReg_test hp, State.writeTest_entered hbit hk hl, hkey]
  refine ⟨s.writeReg 0x0010 (fset v 0 1 1), rfl, ?_⟩
  rw [hw]
  exact ⟨(State.raw_setF_apart _ _ _ _ (by decide)).trans s.enterTest_test,
    (State.raw_setF_apart _ _ _ _ (by decide)).trans s.enterTest_cfgTest,
    (State.raw_setF _ _ _ (by decide)).trans (Nat.mod_eq_of_lt (fget_lt v 16 16)),
    (only_enterTest s).trans ((only_setF _ _ _).mono (by decide) (by decide))⟩

theorem testModeEnter_refused (v : Word) {s : State} (hp : 2 ≤ s.raw Rg.BOOT_STAT_PHASE)
    (h : s.raw Rg.TEST_KEY ≠ 0x7E57 ∨ s.locked = true) : Runs (.testModeEnter v) s fun t =>
      t.raw Rg.TEST_TEST = s.raw Rg.TEST_TEST ∧ t.raw Rg.CFG_STAT_TEST = s.raw Rg.CFG_STAT_TEST ∧
      t.raw Rg.C_BAD_ACCESS = min (s.raw Rg.C_BAD_ACCESS + 1) (2 ^ Rg.C_BAD_ACCESS.w - 1) ∧
      Only [] [Rg.TEST_KEY.off, Rg.C_BAD_ACCESS.off, Rg.C_RWL_IGNORED.off] s t := by
  obtain ⟨hbit, -⟩ := testWord_fields v
  have hbump : Only [] [Rg.TEST_KEY.off, Rg.C_BAD_ACCESS.off, Rg.C_RWL_IGNORED.off] s (s.bump Rg.C_BAD_ACCESS 1) :=
    (only_bump s _ 1).mono (by decide) (by decide)
  have hcount : (s.bump Rg.C_BAD_ACCESS 1).raw Rg.C_BAD_ACCESS =
      min (s.raw Rg.C_BAD_ACCESS + 1) (2 ^ Rg.C_BAD_ACCESS.w - 1) := State.raw_bump _ _ _ (by decide)
  have hkeep (x : Fld) (hx : Rg.C_BAD_ACCESS.off ≠ x.off) : (s.bump Rg.C_BAD_ACCESS 1).raw x = s.raw x :=
    State.raw_bump_off _ _ _ _ hx
  refine ⟨s.writeReg 0x0010 (fset v 0 1 1), rfl, ?_⟩
  rw [State.writeReg_test hp, State.writeTest_refused hbit h]
  split
  · exact ⟨(State.raw_bump_off _ _ _ _ (by decide)).trans (hkeep _ (by decide)),
      (State.raw_bump_off _ _ _ _ (by decide)).trans (hkeep _ (by decide)),
      (State.raw_bump_off _ _ _ _ (by decide)).trans hcount,
      hbump.trans ((only_bump _ _ _).mono (by decide) (by decide))⟩
  · exact ⟨(State.raw_setF_apart _ _ _ _ (by decide)).trans (hkeep _ (by decide)),
      (State.raw_setF_apart _ _ _ _ (by decide)).trans (hkeep _ (by decide)),
      (State.raw_setF_apart _ _ _ _ (by decide)).trans hcount,
      hbump.trans ((only_setF _ _ _).mono (by decide) (by decide))⟩

/-! ## The status-block address -/

theorem statusBaseWrite_open (high : Bool) (v : Word) {s : State} (hp : 2 ≤ s.raw Rg.BOOT_STAT_PHASE)
    (h : s.anyRing = false) : Runs (.statusBaseWrite high v) s fun t =>
      (high = true → t.reg 0x0024 = v) ∧ (high = false → fget (t.reg 0x0020) 0 6 = 0 ∧
        fget (t.reg 0x0020) 6 26 = fget v 6 26) ∧ t.host.writes = 0 ∧
      Only [.host] [if high then 0x0024 else 0x0020] s t := by
  refine ⟨s.writeReg (if high then 0x0024 else 0x0020) v, rfl, ?_⟩
  rw [State.writeReg_statusBase hp, State.writeStatusBase_open h]
  have hreg : ((s.setReg (if high then 0x0024 else 0x0020) (if high then v else fset v 0 6 0)).mapHost
      fun h => { h with writes := 0 }).reg (if high then 0x0024 else 0x0020) = if high then v else fset v 0 6 0 :=
    State.reg_setReg_same _ _ _
  refine ⟨?_, ?_, rfl, ((only_setReg _ _ _).mono (by decide) (List.Subset.refl _)).trans
    ((only_mapHost _ _).mono (by decide) (List.nil_subset _))⟩
  · rintro rfl
    exact hreg
  · rintro rfl
    have hlow := hreg
    simp only [Bool.false_eq_true, if_false] at hlow ⊢
    rw [hlow]
    exact ⟨fget_fset v 0 (by decide), fget_fset_apart v 0 (by decide)⟩

/-- A command whose only effect is that a bad access is counted. -/
theorem runs_badAccess {i : Instr} {s : State} (h : exec i s = .next (s.bump Rg.C_BAD_ACCESS 1)) : Runs i s fun t =>
    t.raw Rg.C_BAD_ACCESS = min (s.raw Rg.C_BAD_ACCESS + 1) (2 ^ Rg.C_BAD_ACCESS.w - 1) ∧
    Only [] [Rg.C_BAD_ACCESS.off] s t :=
  ⟨_, h, State.raw_bump _ _ _ (by decide), only_bump _ _ _⟩

theorem exec_statusBaseWrite_ring (high : Bool) (v : Word) {s : State} (hp : 2 ≤ s.raw Rg.BOOT_STAT_PHASE)
    (h : s.anyRing = true) : exec (.statusBaseWrite high v) s = .next (s.bump Rg.C_BAD_ACCESS 1) := by
  change Host.Outcome.next (s.writeReg (if high then 0x0024 else 0x0020) v) = _
  rw [State.writeReg_statusBase hp, State.writeStatusBase_ring h]

/-! ## Register writes -/

theorem exec_registerWrite_aligned {off : Nat} (v : Word) (s : State) (h : off % 4 = 0) :
    exec (.registerWrite off v true) s = .next (s.writeReg off v) :=
  congrArg Host.Outcome.next (if_pos ⟨rfl, h⟩)

theorem registerWrite_plain {off : Nat} (v : Word) {r : RegRow} {s : State} (hp : 2 ≤ s.raw Rg.BOOT_STAT_PHASE)
    (hal : off % 4 = 0) (hr : regRow? off = some r) (h1 : h1Bits off = 0)
    (ho : off ∉ [0x000C, 0x0010, 0x0020, 0x0024, 0x0028, 0x1D00, 0x2000, 0x2108, 0x210C])
    (hring : ¬(0x0100 ≤ off ∧ off < 0x01C0)) (hlane : ¬(0x1800 ≤ off ∧ off < 0x1A80))
    (hmsix : ¬(0x3000 ≤ off ∧ off < 0x3100)) : Runs (.registerWrite off v true) s fun t =>
      t.reg off = s.written off r v ∧
      (∀ f ∈ r.fields, (f.acc = .rw → fget (t.reg off) f.lo f.w = fget v f.lo f.w) ∧
        (f.acc = .ro ∨ f.acc = .rc → fget (t.reg off) f.lo f.w = fget (s.reg off) f.lo f.w) ∧
        (f.acc = .rwl → s.locked = true → fget (t.reg off) f.lo f.w = fget (s.reg off) f.lo f.w)) ∧
      ((∃ f ∈ r.fields, f.acc = .rwl) → s.locked = true →
        t.raw Rg.C_RWL_IGNORED = min (s.raw Rg.C_RWL_IGNORED + 1) (2 ^ Rg.C_RWL_IGNORED.w - 1)) ∧
      Only [] (off :: if s.locked && r.hasRwl then [Rg.C_RWL_IGNORED.off] else []) s t := by
  obtain ⟨hreg, hcount, honly⟩ := s.plainWrite_spec v hr
  refine ⟨s.plainWrite off r v, ?_, hreg, fun f hf => ?_, fun hrwl hl => hcount hl (r.hasRwl_iff.mpr hrwl), honly⟩
  · rw [exec_registerWrite_aligned v s hal, State.writeReg_plain hp v hr h1 ho hring hlane hmsix]
  · rw [hreg]
    exact s.written_field v hr hf

theorem exec_registerWrite_ignored {off : Nat} (v : Word) {whole : Bool} {s : State}
    (h : whole = false ∨ off % 4 ≠ 0 ∨ (2 ≤ s.raw Rg.BOOT_STAT_PHASE ∧ regRow? off = none)) :
    exec (.registerWrite off v whole) s = .next (s.bump Rg.C_BAD_ACCESS 1) := by
  refine congrArg Host.Outcome.next ?_
  by_cases hw : whole = true ∧ off % 4 = 0
  · rw [if_pos hw]
    rcases h with h | h | ⟨hp, hr⟩
    · simp [h] at hw
    · exact absurd hw.2 h
    · exact State.writeReg_unassigned hp v hr
  · exact if_neg hw

/-! ## Reads -/

theorem counterRead_register {off : Nat} {s : State} (hs : s.served = true) (h1 : h1Bits off = 0) (hat : off ≠ 0x0808)
    (hm : off < 0x4000) : Runs (.counterRead off) s fun t => t.sent = .regRead off (s.regNow off) :: s.sent ∧
      (∀ r, regRow? off = some r → ∀ f ∈ r.fields, fget (t.reg off) f.lo f.w =
        (if f.acc = .rc then f.rst else fget (s.reg off) f.lo f.w)) ∧ Only [.log] [off] s t := by
  have hc := only_clearRc s off
  have hsent : (s.clearRc off).sent = s.sent := (hc.1 .log (by decide)).2
  refine ⟨s.hostRead off, rfl, ?_⟩
  rw [State.hostRead_register hs h1 hat hm]
  exact ⟨congrArg _ hsent, fun r hr f hf => s.clearRc_field hr hf,
    (hc.mono (by decide) (List.Subset.refl _)).trans ((only_emit _ _).mono (List.Subset.refl _) (List.nil_subset _))⟩

theorem counterRead_doorbell (r : Nat) {s : State} (hs : s.served = true) :
    Runs (.counterRead (0x4000 + 0x40 * r)) s fun t =>
      t.sent = .regRead (0x4000 + 0x40 * r) (tget (fun _ => 0) s.host.mw2 r) :: s.sent ∧ Only [.log] [] s t := by
  refine ⟨s.hostRead (0x4000 + 0x40 * r), rfl, ?_⟩
  rw [State.hostRead_doorbell r hs]
  exact ⟨rfl, only_emit _ _⟩

theorem atNowRead_served {s : State} (hs : s.served = true) : Runs .atNowRead s fun t =>
      t.sent = .regRead 0x0808 (BitVec.ofNat 32 (atimeWord s.stamp)) :: s.sent ∧
      t.raw Rg.AT_NOW1_TICK = s.stamp.tick % 2 ^ Rg.AT_NOW1_TICK.w ∧ t.raw Rg.AT_NOW1_VALID = b2n s.time.valid ∧
      t.raw Rg.AT_NOW1_TX_HELD = b2n s.time.txHeld ∧ t.muRef = s.muRef ∧ Only [.log] [Rg.AT_NOW1_TICK.off] s t := by
  have hl := only_clearRc_latchNow s
  have hsent : (s.latchNow.clearRc 0x0808).sent = s.sent := (hl.1 .log (by decide)).2
  have hraw (o : Out) (x : Fld) (hx : x.off ≠ 0x0808) :
      ((s.latchNow.clearRc 0x0808).emit o).raw x = s.latchNow.raw x :=
    ((only_emit _ o).2.raw x (by simp)).trans (s.latchNow.clearRc_atNow_raw x hx)
  refine ⟨s.hostRead 0x0808, rfl, ?_⟩
  rw [State.hostRead_atNow hs]
  exact ⟨congrArg _ hsent, (hraw _ _ (by decide)).trans s.latchNow_tick, (hraw _ _ (by decide)).trans s.latchNow_valid,
    (hraw _ _ (by decide)).trans s.latchNow_txHeld, (hraw _ Rg.AT_NOW1_MU (by decide)).trans s.latchNow_muRef,
    (hl.mono (by decide) (List.Subset.refl _)).trans ((only_emit _ _).mono (List.Subset.refl _) (List.nil_subset _))⟩

/-! ## Resets and power states of the interface -/

theorem hostReset_discards (stays : Bool) {s : State} (h : ∀ w ∈ s.host.due, ∃ c d, w = .cpl c d) :
    Runs (.hostReset stays) s fun t =>
      (∀ r < 6, t.ringOn r = false ∧ t.ringHalted r = false ∧ t.devIdx r = 0 ∧ t.hostIdx r = 0) ∧
      (∀ off ∈ hostRegs, t.reg off = regReset off) ∧ t.raw Rg.ALERT_STAT_RING_HALT = 0 ∧ t.host.due = [] ∧
      t.host.exec = s.host.exec ∧ t.host.svid = s.host.svid ∧ t.host.ssid = s.host.ssid ∧
      t.host.linkUp = (s.host.linkUp && stays) ∧ t.raw Rg.C_CPL_DISCARD =
        min (s.raw Rg.C_CPL_DISCARD + s.host.due.length) (2 ^ Rg.C_CPL_DISCARD.w - 1) ∧
      Only [.host] (Rg.ALERT_STAT_RING_HALT.off :: Rg.C_CPL_DISCARD.off :: hostRegs) s t := by
  have hclear := only_clearHost s stays
  have hdiscard := only_discard s stays
  have hhost : (s.discardDue stays).host = (s.clearHost stays).host := hdiscard.1 .host (by decide)
  obtain ⟨hdue, hexec, hsvid, hssid, hlink⟩ := s.clearHost_host stays
  have hregs : ∀ o ∈ hostRegs, ((s.discardDue stays).setF Rg.ALERT_STAT_RING_HALT 0).reg o = regReset o := by
    intro o ho
    have hne : Rg.ALERT_STAT_RING_HALT.off ≠ o := by
      rintro rfl
      exact absurd ho (by decide)
    rw [State.reg_setF, if_neg hne, s.discardDue_reg stays o ho]
  have hcount : (s.discardDue stays).raw Rg.C_CPL_DISCARD =
      min (s.raw Rg.C_CPL_DISCARD + s.host.due.length) (2 ^ Rg.C_CPL_DISCARD.w - 1) := by
    rw [State.discardDue, State.raw_foldl_bump _ (by decide), hclear.2.raw _ (by decide)]
  refine ⟨s.hostReset stays, rfl, ?_⟩
  rw [State.hostReset_of_cpls stays h]
  refine ⟨State.rings_disabled hregs, hregs, State.raw_setF _ _ _ (by decide), ?_⟩
  simp only [State.setF_host, hhost, hdue, hexec, hsvid, hssid, hlink, true_and]
  refine ⟨(State.raw_setF_apart _ _ _ _ (by decide)).trans hcount, ?_⟩
  exact ((hclear.mono (List.Subset.refl _) (by simp)).trans (hdiscard.mono (by decide) (by simp))).trans
    ((only_setF _ _ _).mono (by decide) (by simp))

theorem d0Restore_flushes (s : State) : Runs .d0Restore s fun t =>
    t.host.d3hot = false ∧ (s.dom 0 7 = 0 → t.host.due = []) ∧
      (s.host.due = [] → Only [.host] [] s t) ∧ Only [.host, .commands, .log] (eventRegs ++ cplRegs) s t := by
  obtain ⟨hd3, hdue, hnone, honly⟩ := State.flushDue_spec (s.mapHost fun h => { h with d3hot := false })
  have hrestore := only_mapHost s fun h => { h with d3hot := false }
  refine ⟨_, rfl, hd3, fun hdom => hdue ?_, fun h => hrestore.trans (hnone h),
    (hrestore.mono (by decide) (by decide)).trans honly⟩
  exact Bool.and_eq_true_iff.mpr ⟨rfl, beq_iff_eq.mpr hdom⟩

/-- A bit of the alert register is set once it is raised, whether it was before or not. -/
theorem State.alert_raw {s : State} {x : Fld} (h32 : x.lo + x.w ≤ 32) (hw : x.w = 1) (hlo : x.okLo ≤ 1) (hhi : 1 ≤ x.okHi)
    (hr : x.rst ≠ 1) (hx : x.off ≠ Rg.MSIX_PBA.off) : (s.alert x).raw x = 1 := by
  unfold State.alert
  split
  · exact (s.on_iff_raw x hlo hhi hr).mp ‹_›
  · rw [(only_irq _ _).2.raw x (by simpa using hx), State.raw_setF _ _ _ h32, hw]
    rfl

/-- Settles O37: command by command, from the equation of each write or read and the frames of what it does. -/
theorem hostRegisters : Obligations.HostRegisters := by
  unfold Obligations.HostRegisters
  refine ⟨fun s hl hp => ⟨setupLock_refused hl hp, setupLock_granted hl hp⟩,
    fun v s hp => ⟨testModeEnter_entered v hp, testModeEnter_refused v hp⟩,
    fun high v s hp => ⟨statusBaseWrite_open high v hp, fun h => runs_badAccess (exec_statusBaseWrite_ring high v hp h)⟩,
    fun off v r s hp hal hr h1 ho => registerWrite_plain v hp hal hr h1 ho,
    fun off v whole s h => runs_badAccess (exec_registerWrite_ignored v h),
    fun off s => ⟨counterRead_register, fun r hs he => he ▸ counterRead_doorbell r.val hs, fun hs => ?_⟩,
    fun s => ⟨atNowRead_served, fun hs => ?_⟩, fun stays s => hostReset_discards stays,
    fun s => ⟨⟨_, rfl, rfl, only_mapHost _ _⟩, d0Restore_flushes s, ⟨_, rfl, rfl, only_mapHost _ _⟩,
      _, rfl, State.alert_raw (by decide) rfl (by decide) (by decide) (by decide) (by decide), only_alert _ _⟩⟩
  · exact ⟨s.hostRead off, rfl, State.hostRead_unserved off hs⟩
  · exact ⟨s.hostRead 0x0808, rfl, State.hostRead_unserved 0x0808 hs⟩

end Sys2Proof.Machine
end

section
/-! SUPPORT. Frames of the air-side operations that several rules share: predistortion restarts, holds, die-to-die traffic,
and what the half's counters of zeroed references and the safe-state list leave alone. -/

namespace Sys2Proof.Machine

theorem only_mapDpd (s : State) (p : Nat) (f : DpdPath → DpdPath) : Only [.dpd] [] s (s.mapDpd p f) :=
  ⟨fun p hp => by cases p <;> simp [Part.Same, State.mapDpd] at hp ⊢, fun _ _ => rfl⟩

theorem only_mapSolv (s : State) (f : Nat) (g : SolvSt → SolvSt) : Only [.solver] [] s (s.mapSolv f g) :=
  ⟨fun p hp => by cases p <;> simp [Part.Same, State.mapSolv] at hp ⊢, fun _ _ => rfl⟩

theorem only_acquire (s : State) (p : Nat) : Only [.dpd] [] s (s.acquire p) := only_mapDpd s p _

theorem only_evalHold (s : State) : Only [.time] [(Rg.C_TX_HOLDS 0).off] s s.evalHold := by
  unfold State.evalHold
  exact Only.ite _ (fun _ => (only_mapTime _ _).then (only_bump _ _ _)) (fun _ => Only.refl _ _ _)

theorem only_d2dPush (s : State) (h : Nat) (what : D2dWhat) (bits : Nat) : Only [.d2d] [] s (s.d2dPush h what bits) := by
  unfold State.d2dPush
  exact Only.ite _ (fun _ => only_mapD2d _ _ _) (fun _ => Only.refl _ _ _)

theorem only_forward (s : State) (h f : Nat) (sizes : List Nat) : Only [.d2d] [] s (s.forward h f sizes) := by
  unfold State.forward
  exact Only.ite _ (fun _ => Only.refl _ _ _) (fun _ => Only.foldl _ (fun t n => only_d2dPush t h _ n) _ _)

theorem only_countZero (s : State) (h : Nat) (n : Nat × Nat) :
    Only eventParts ((Rg.C_BEAM_ZERO h).off :: (Rg.C_MODE2_ZERO h).off :: eventRegs) s (s.countZero h n) := by
  have counted := ((only_bump s (Rg.C_BEAM_ZERO h) n.1).mono (List.nil_subset eventParts) (by simp)).trans
    ((only_bump (s.bump (Rg.C_BEAM_ZERO h) n.1) (Rg.C_MODE2_ZERO h) n.2).mono (List.nil_subset _)
      (show _ ⊆ (Rg.C_BEAM_ZERO h).off :: (Rg.C_MODE2_ZERO h).off :: eventRegs by simp))
  exact Only.ite _ (fun _ => counted.trans ((only_raiseLimited _ _ _ _ _ _ _).mono (List.Subset.refl _)
    fun o ho => by simp [ho])) (fun _ => counted)

/-- Whether a path is in service depends on the path configuration and on the retired paths alone. -/
theorem State.pathIn_congr {s t : State} (hreg : t.reg Rg.CFG_STAT_PATHCFG.off = s.reg Rg.CFG_STAT_PATHCFG.off)
    (hrel : t.rel = s.rel) (p : Nat) : t.pathIn p = s.pathIn p := by
  simp only [State.pathIn, State.groupIn, State.pathOut, State.raw, hreg, hrel]

theorem mem_halfPaths {h p : Nat} : p ∈ halfPaths h ↔ p / 32 = h := by
  simp only [halfPaths, List.mem_map, List.mem_range]
  constructor
  · rintro ⟨a, ha, rfl⟩
    omega
  · rintro rfl
    exact ⟨p % 32, by omega, by omega⟩

@[simp] theorem State.isSafe_clearSafe (s : State) (row idx : Nat) : (s.clearSafe row idx).isSafe row idx = false := by
  simp [State.isSafe, State.clearSafe, State.mapRel]

theorem State.tx_mapTx (s : State) (p q : Nat) (f : TxPath → TxPath) :
    (s.mapTx p f).tx q = if p = q then f (s.tx p) else s.tx q := tget_tset _ _ _ _ _

@[simp] theorem State.tx_mapTx_same (s : State) (p : Nat) (f : TxPath → TxPath) : (s.mapTx p f).tx p = f (s.tx p) := by
  simp [State.tx_mapTx]

/-- The transmit side of every path holds where that part of the state does. -/
theorem State.tx_congr {s t : State} (h : t.txp = s.txp) (p : Nat) : t.tx p = s.tx p := by rw [State.tx, h, State.tx]

end Sys2Proof.Machine
end

section
/-! SUPPORT. Carrier records and forwarding (R26, R132, R155): what a record's effect and a forwarding window leave. -/

namespace Sys2Proof.Machine

/-- A record takes effect apart from acquisition: it is in force, noted when it enables the carrier, and the carrier has
left its safe state. -/
def State.placeDl (s : State) (c : Nat) (x : PendDl) : State :=
  { s with
    dlCar := tset DlCarrier.reset s.dlCar c x.car
    dlSince := if (s.dl c).en then s.dlSince else tset (fun _ => none) s.dlSince c (some x.from_) }.clearSafe 0 c

/-- Acquisition follows a change of gain alone, and changes predistortion alone. -/
theorem only_putDl (s : State) (c : Nat) (x : PendDl) : Only [.dpd] [] (s.placeDl c x) (s.putDl c x) :=
  Only.ite _ (fun _ => Only.refl _ _ _) (fun _ => Only.foldl _ only_acquire (List.range 64) _)

theorem only_putUl (s : State) (c : Nat) (x : PendUl) : Only [.uplink, .faults] [] s (s.putUl c x) :=
  ⟨fun p hp => by cases p <;> simp [Part.Same, State.putUl, State.clearSafe] at hp ⊢, fun _ _ => rfl⟩

/-- The only record that waits has come to its boundary: it takes effect, and none waits on (R132). -/
theorem exec_carrierRecordEffect_dl {c : CarrierNo} {x : PendDl} {s : State}
    (hx : tget (fun _ => ([] : List PendDl)) s.dlPend c.val = [x]) (hr : s.reached x.at_ = true) :
    exec (.carrierRecordEffect 0 c) s =
      .next (({ s with dlPend := tset (fun _ => []) s.dlPend c.val [] }.putDl c.val x).evalHold) := by
  change execCarrierRecordEffect 0 c s = _
  simp [execCarrierRecordEffect, hx, hr]

theorem exec_carrierRecordEffect_ul {c : CarrierNo} {x : PendUl} {s : State}
    (hx : tget (fun _ => ([] : List PendUl)) s.ulPend c.val = [x]) (hr : s.reached x.at_ = true) :
    exec (.carrierRecordEffect 1 c) s =
      .next (({ s with ulPend := tset (fun _ => []) s.ulPend c.val [] }.putUl c.val x).evalHold) := by
  change execCarrierRecordEffect 1 c s = _
  simp [execCarrierRecordEffect, hx, hr]

theorem carrierRecordEffect_dl {c : CarrierNo} {x : PendDl} {s : State}
    (hx : tget (fun _ => ([] : List PendDl)) s.dlPend c.val = [x]) (hr : s.reached x.at_ = true) :
    Runs (.carrierRecordEffect 0 c) s fun t =>
      tget DlCarrier.reset t.dlCar c.val = x.car ∧ tget (fun _ => ([] : List PendDl)) t.dlPend c.val = [] ∧
      ((s.dl c.val).en = false → tget (fun _ => (none : Option Nat)) t.dlSince c.val = some x.from_) ∧
      t.isSafe 0 c.val = false ∧ t.ulCar = s.ulCar := by
  refine ⟨_, exec_carrierRecordEffect_dl hx hr, ?_⟩
  generalize hu : ({ s with dlPend := tset (fun _ => []) s.dlPend c.val [] } : State) = u
  have acquired : Only [.dpd, .time] [(Rg.C_TX_HOLDS 0).off] (u.placeDl c.val x) (u.putDl c.val x).evalHold :=
    (only_putDl u c.val x).then (only_evalHold _)
  obtain ⟨hcar, hpend, hsince, -⟩ := acquired.1 .downlink (by decide)
  obtain ⟨hul, -⟩ := acquired.1 .uplink (by decide)
  have hrel : (u.putDl c.val x).evalHold.rel = (u.placeDl c.val x).rel := acquired.1 .faults (by decide)
  subst hu
  rw [hcar, hpend]
  refine ⟨tget_tset_same _ _ _ _, tget_tset_same (fun _ => []) s.dlPend c.val [], fun hen => ?_, ?_, hul⟩
  · have hplaced : (State.placeDl { s with dlPend := tset (fun _ => []) s.dlPend c.val [] } c.val x).dlSince =
        tset (fun _ => none) s.dlSince c.val (some x.from_) := if_neg (Bool.eq_false_iff.mp hen)
    rw [hsince, hplaced, tget_tset_same]
  · rw [State.isSafe, hrel]
    exact State.isSafe_clearSafe _ _ _

theorem carrierRecordEffect_ul {c : CarrierNo} {x : PendUl} {s : State}
    (hx : tget (fun _ => ([] : List PendUl)) s.ulPend c.val = [x]) (hr : s.reached x.at_ = true) :
    Runs (.carrierRecordEffect 1 c) s fun t =>
      tget UlCarrier.reset t.ulCar c.val = x.car ∧ tget (fun _ => ([] : List PendUl)) t.ulPend c.val = [] ∧
      t.dlCar = s.dlCar ∧ Only [.uplink, .faults, .time] [(Rg.C_TX_HOLDS 0).off] s t := by
  refine ⟨_, exec_carrierRecordEffect_ul hx hr, ?_⟩
  generalize hu : ({ s with ulPend := tset (fun _ => []) s.ulPend c.val [] } : State) = u
  have hold := only_evalHold (u.putUl c.val x)
  have taken : Only [.uplink, .faults] [] s u := by
    subst hu
    exact ⟨fun p hp => by cases p <;> simp [Part.Same] at hp ⊢, fun _ _ => rfl⟩
  have frame : Only [.uplink, .faults, .time] [(Rg.C_TX_HOLDS 0).off] s (u.putUl c.val x).evalHold :=
    (taken.trans (only_putUl u c.val x)).then hold
  obtain ⟨hcar, hpend, -⟩ := hold.1 .uplink (by decide)
  obtain ⟨hdl, -⟩ := frame.1 .downlink (by decide)
  subst hu
  rw [hcar, hpend]
  exact ⟨tget_tset_same _ s.ulCar _ _, tget_tset_same (fun _ => []) s.ulPend c.val [], hdl, frame⟩

/-! ## Forwarding -/

/-- A control section as the window of a flow's symbol leaves it. -/
def CtrlSec.opened (c : CtrlSec) (f sym : Nat) : CtrlSec :=
  if c.flow == f && !c.ul && c.syms.contains sym then { c with fwd := true } else c

/-- A data section as the window of a flow's symbol leaves it. -/
def DataSec.opened (d : DataSec) (f sym : Nat) : DataSec :=
  if d.flow == f && d.sym == sym then { d with fwd := true } else d

theorem CtrlSec.opened_fwd {c : CtrlSec} {f sym : Nat} : (c.opened f sym).flow = f → (c.opened f sym).ul = false →
    (c.opened f sym).syms.contains sym = true → (c.opened f sym).fwd = true := by
  unfold CtrlSec.opened
  split
  case isTrue => exact fun _ _ _ => rfl
  case isFalse hno => exact fun hf hul hsym => absurd (by rw [hf, hul, hsym, beq_self_eq_true]; rfl) hno

theorem DataSec.opened_fwd {d : DataSec} {f sym : Nat} : (d.opened f sym).flow = f → (d.opened f sym).sym = sym →
    (d.opened f sym).fwd = true := by
  unfold DataSec.opened
  split
  case isTrue => exact fun _ _ => rfl
  case isFalse hno => exact fun hf hsym => absurd (by rw [hf, hsym, beq_self_eq_true, beq_self_eq_true]; rfl) hno

/-- The sections held, with those of a flow's symbol marked as forwarded. -/
def State.openSections (s : State) (f sym : Nat) : State :=
  { s with ctrlSecs := s.ctrlSecs.map fun c => c.opened f sym, dataSecs := s.dataSecs.map fun d => d.opened f sym }

theorem only_openSections (s : State) (f sym : Nat) : Only [.sections] [] s (s.openSections f sym) :=
  ⟨fun p hp => by cases p <;> simp [Part.Same, State.openSections] at hp ⊢, fun _ _ => rfl⟩

/-- The owning half marks what it holds for the symbol and forwards it (R26). -/
theorem exec_dlForwardWindowOpen_own {h : Half} {f : FlowNo} (sym : Nat) {s : State} (ho : (s.flow f.val).half = h.val) :
    ∃ sizes, exec (.dlForwardWindowOpen h f sym) s = .next ((s.openSections f.val sym).forward h.val f.val sizes) :=
  ⟨_, if_pos ho⟩

theorem dlForwardWindowOpen_marks {h : Half} {f : FlowNo} (sym : Nat) {s : State} (ho : (s.flow f.val).half = h.val) :
    Runs (.dlForwardWindowOpen h f sym) s fun t =>
      (∀ c ∈ t.ctrlSecs, c.flow = f.val → c.ul = false → c.syms.contains sym = true → c.fwd = true) ∧
      (∀ d ∈ t.dataSecs, d.flow = f.val → d.sym = sym → d.fwd = true) ∧
      t.ctrlSecs.length = s.ctrlSecs.length ∧ t.dataSecs.length = s.dataSecs.length ∧ Only [.sections, .d2d] [] s t := by
  obtain ⟨sizes, hexec⟩ := exec_dlForwardWindowOpen_own sym ho
  have crossed := only_forward (s.openSections f.val sym) h.val f.val sizes
  obtain ⟨hctrl, hdata, -⟩ := crossed.1 .sections (by decide)
  refine ⟨_, hexec, ?_⟩
  simp only [hctrl, hdata]
  refine ⟨fun c hc => ?_, fun d hd => ?_, List.length_map _, List.length_map _, (only_openSections s f.val sym).then crossed⟩
  · obtain ⟨a, -, rfl⟩ := List.mem_map.mp hc
    exact CtrlSec.opened_fwd
  · obtain ⟨a, -, rfl⟩ := List.mem_map.mp hd
    exact DataSec.opened_fwd

end Sys2Proof.Machine
end

section
/-! SUPPORT. The work on a downlink symbol and the release of an interval (R132 to R146): what each operation leaves of the
elastic buffers' side of the paths, and what the whole work leaves of the state. -/

namespace Sys2Proof.Machine

/-! ## Saturation counters and the elastic buffer -/

/-- The counters of R152 of a half. -/
def dlSatRegs (h : Nat) : List Nat :=
  [(Rg.C_BF_SAT h).off, (Rg.C_IFFT_SAT h).off, (Rg.C_SUM_SAT h).off, (Rg.C_CFR_MISS h).off, (Rg.C_DPD_CLIP h).off]

/-- Counting in the five counters changes these registers alone. -/
theorem only_dlCounts (s : State) (h bf ifft sum miss clip : Nat) :
    Only [] (dlSatRegs h) s (((((s.bump (Rg.C_BF_SAT h) bf).bump (Rg.C_IFFT_SAT h) ifft).bump (Rg.C_SUM_SAT h) sum).bump
      (Rg.C_CFR_MISS h) miss).bump (Rg.C_DPD_CLIP h) clip) := by
  have counts (t : State) (x : Fld) (n : Nat) (hx : x.off ∈ dlSatRegs h) : Only [] (dlSatRegs h) t (t.bump x n) :=
    (only_bump t x n).mono (List.nil_subset _) (by simpa using hx)
  exact ((((counts _ _ _ (by simp [dlSatRegs])).trans (counts _ _ _ (by simp [dlSatRegs]))).trans
    (counts _ _ _ (by simp [dlSatRegs]))).trans (counts _ _ _ (by simp [dlSatRegs]))).trans
    (counts _ _ _ (by simp [dlSatRegs]))

/-- The work on downlink samples of a half changes only the listed parts and counters, and no carrier record. -/
structure DlWork (parts : List Part) (regs : List Nat) (s t : State) : Prop where
  only : Only parts regs s t
  dlCar : t.dlCar = s.dlCar
  dlPend : t.dlPend = s.dlPend

section
variable {l l' : List Part} {m m' : List Nat} {s t u : State}

theorem DlWork.refl (l : List Part) (m : List Nat) (s : State) : DlWork l m s s := ⟨Only.refl _ _ _, rfl, rfl⟩

theorem DlWork.trans (a : DlWork l m s t) (b : DlWork l m t u) : DlWork l m s u :=
  ⟨a.only.trans b.only, b.dlCar.trans a.dlCar, b.dlPend.trans a.dlPend⟩

theorem DlWork.mono (a : DlWork l m s t) (hl : l ⊆ l') (hm : m ⊆ m') : DlWork l' m' s t :=
  ⟨a.only.mono hl hm, a.dlCar, a.dlPend⟩

theorem DlWork.ite (c : Prop) [Decidable c] (a : DlWork l m s t) (b : DlWork l m s u) : DlWork l m s (if c then t else u) := by
  split <;> assumption

/-- What leaves the downlink part alone leaves the carrier records. -/
theorem DlWork.of_only (a : Only l m s t) (h : Part.downlink ∉ l) : DlWork l m s t := by
  obtain ⟨hcar, hpend, -⟩ := a.1 .downlink h
  exact ⟨a, hcar, hpend⟩

theorem DlWork.dlAt (w : DlWork l m s t) (h : Part.faults ∉ l) (c n : Nat) : t.dlAt c n = s.dlAt c n := by
  have hrel : t.rel = s.rel := w.only.1 .faults h
  have hsafe : t.isSafe 0 c = s.isSafe 0 c := by rw [State.isSafe, hrel, State.isSafe]
  have hdl : t.dl c = s.dl c := by rw [State.dl, hsafe, w.dlCar, State.dl]
  have hnext : t.dlNext c n = s.dlNext c n := by rw [State.dlNext, w.dlPend, State.dlNext]
  rw [State.dlAt, hnext, hsafe, hdl, State.dlAt]

end

theorem only_setDlSat (s : State) (v : Tbl (List Nat)) : Only [.downlink] [] s { s with dlSat := v } :=
  ⟨fun p hp => by cases p <;> simp [Part.Same] at hp ⊢, fun _ _ => rfl⟩

/-- Saturations are counted, then noted for the event (R152). -/
theorem State.dlSats_eq (s : State) (h bf ifft sum miss clip : Nat) :
    ∃ u, Only [] (dlSatRegs h) s u ∧ s.dlSats h bf ifft sum miss clip =
      { u with dlSat := addGains [0, 0, 0, 0, 0] h u.dlSat [bf, ifft, sum, miss, clip] } :=
  ⟨_, only_dlCounts s h bf ifft sum miss clip, rfl⟩

theorem dlWork_dlSats (s : State) (h bf ifft sum miss clip : Nat) :
    DlWork [.downlink] (dlSatRegs h) s (s.dlSats h bf ifft sum miss clip) := by
  obtain ⟨u, counted, he⟩ := s.dlSats_eq h bf ifft sum miss clip
  obtain ⟨hcar, hpend, -⟩ := counted.1 .downlink (by simp)
  rw [he]
  exact ⟨(counted.mono (List.nil_subset _) (List.Subset.refl _)).trans
    ((only_setDlSat u _).mono (List.Subset.refl _) (List.nil_subset _)), hcar, hpend⟩

theorem State.dlSats_tx (s : State) (h bf ifft sum miss clip p : Nat) : (s.dlSats h bf ifft sum miss clip).tx p = s.tx p :=
  State.tx_congr ((dlWork_dlSats s h bf ifft sum miss clip).only.1 .transmit (by decide)) p

theorem dlWork_mapTx (s : State) (p : Nat) (f : TxPath → TxPath) : DlWork [.transmit] [] s (s.mapTx p f) :=
  .of_only (only_mapTx s p f) (by decide)

theorem dlWork_fillPath (s : State) (p : Nat) : DlWork [.downlink, .transmit] (dlSatRegs (p / 32)) s (s.fillPath p) := by
  unfold State.fillPath
  refine List.foldlRecOn _ _ (DlWork.refl _ _ s) fun t ht e _ => ht.trans ?_
  refine .ite _ (.refl _ _ t) ?_
  split
  · exact ((dlWork_dlSats t _ _ _ _ _ _).mono (by decide) (List.Subset.refl _)).trans
      ((dlWork_mapTx _ _ _).mono (by decide) (List.nil_subset _))
  · exact .refl _ _ t

/-- Filling a path's elastic buffer changes the buffer alone, and no other path. -/
theorem State.fillPath_tx (s : State) (p q : Nat) : ∃ b, (s.fillPath p).tx q = { s.tx q with buf := b } := by
  unfold State.fillPath
  refine List.foldlRecOn (motive := fun t : State => ∃ b, t.tx q = { s.tx q with buf := b }) _ _ ⟨_, rfl⟩
    fun t ht e _ => ?_
  obtain ⟨b, hb⟩ := ht
  split
  · exact ⟨b, hb⟩
  · split
    · by_cases hp : p = q
      · subst hp
        rw [State.tx_mapTx_same, State.dlSats_tx, hb]
        exact ⟨_, rfl⟩
      · rw [State.tx_mapTx, if_neg hp, State.dlSats_tx]
        exact ⟨b, hb⟩
    · exact ⟨b, hb⟩

/-- The slice's reading of an interval drops what is older from the buffer and from the products, and refills the buffer. -/
theorem State.consume_tx (s : State) (p sym len : Nat) :
    ∃ b l, (s.consume p sym len).tx p = { s.tx p with buf := b, prods := l } := by
  obtain ⟨b, hb⟩ := State.fillPath_tx (s.mapTx p fun t =>
    { t with
      buf := t.buf.filter fun e => decide (0 < ahead sym e.1)
      prods := t.prods.filter fun e => decide (0 < ahead (sym + len) (e.start + e.len)) }) p p
  rw [State.tx_mapTx_same] at hb
  exact ⟨b, _, hb⟩

theorem dlWork_consume (s : State) (p sym len : Nat) :
    DlWork [.downlink, .transmit] (dlSatRegs (p / 32)) s (s.consume p sym len) :=
  ((dlWork_mapTx s p _).mono (by decide) (List.nil_subset _)).trans (dlWork_fillPath _ p)

/-! ## One path's symbol -/

/-- A path holds the product of a carrier's symbol, as long as the symbol (R142 step 3). -/
def State.HasProduct (s : State) (p c sym : Nat) : Prop :=
  ∃ e ∈ (s.tx p).prods, e.carrier = c ∧ e.start = sym ∧ e.len = symTicks (s.dlAt c sym).scs sym

section
variable (s : State) (h c sym : Nat) (cs : List CtrlSec) (errs : List DlParity) (p q : Nat)

theorem dlWork_bufferSymbol (hp : p / 32 = h) :
    DlWork [.downlink, .transmit] (dlSatRegs h) s (s.bufferSymbol h c sym cs errs p) := by
  subst hp
  have filled (bf ifft : Nat) (f : TxPath → TxPath) : DlWork [.downlink, .transmit] (dlSatRegs (p / 32)) s
      (((s.dlSats (p / 32) bf ifft 0 0 0).mapTx p f).fillPath p) :=
    (((dlWork_dlSats s _ _ _ _ _ _).mono (by decide) (List.Subset.refl _)).trans
      ((dlWork_mapTx _ _ _).mono (by decide) (List.nil_subset _))).trans (dlWork_fillPath _ p)
  exact .ite _ (.refl _ _ s) (filled _ _ _)

theorem State.bufferSymbol_skipped (hs : ¬(s.pathIn p = true ∧ s.groupRun (p / 8) = true)) :
    s.bufferSymbol h c sym cs errs p = s := by
  refine if_pos ?_
  simpa [Bool.and_eq_true, imp_iff_not_or] using hs

/-- Work on a path in service: its product joins the others, and the elastic buffer is filled. -/
theorem State.bufferSymbol_working (hin : s.pathIn p = true) (hrun : s.groupRun (p / 8) = true) :
    ∃ bf ifft mem out, s.bufferSymbol h c sym cs errs p = ((s.dlSats h bf ifft 0 0 0).mapTx p fun t =>
      { t with
        up := tset (fun _ => []) t.up c mem
        prods := (t.prods.filter fun e => !(e.carrier == c && e.start == sym)) ++
          [⟨c, sym, symTicks (s.dlAt c sym).scs sym, out⟩] }).fillPath p :=
  ⟨_, _, _, _, if_neg (by simp [hin, hrun])⟩

/-- The products that work on a path in service leaves on each path: its own gains the symbol's in place of an earlier
one. -/
theorem State.bufferSymbol_prods (hin : s.pathIn p = true) (hrun : s.groupRun (p / 8) = true) :
    ∃ out, ((s.bufferSymbol h c sym cs errs p).tx q).prods =
      if p = q then ((s.tx p).prods.filter fun e => !(e.carrier == c && e.start == sym)) ++
        [⟨c, sym, symTicks (s.dlAt c sym).scs sym, out⟩] else (s.tx q).prods := by
  obtain ⟨bf, ifft, mem, out, he⟩ := s.bufferSymbol_working h c sym cs errs p hin hrun
  refine ⟨out, ?_⟩
  rw [he]
  generalize hu : State.mapTx _ _ _ = u
  obtain ⟨b, hb⟩ := u.fillPath_tx p q
  rw [hb, ← hu, State.tx_mapTx, State.dlSats_tx, State.dlSats_tx]
  split <;> rfl

theorem State.bufferSymbol_makes (hin : s.pathIn p = true) (hrun : s.groupRun (p / 8) = true) (hp : p / 32 = h) :
    (s.bufferSymbol h c sym cs errs p).HasProduct p c sym := by
  obtain ⟨out, hout⟩ := s.bufferSymbol_prods h c sym cs errs p p hin hrun
  rw [if_pos rfl] at hout
  rw [State.HasProduct, hout, (dlWork_bufferSymbol s h c sym cs errs p hp).dlAt (by decide)]
  exact ⟨_, List.mem_append_right _ (List.mem_singleton_self _), rfl, rfl, rfl⟩

/-- Work on any path leaves the product of the symbol on every path that holds it. -/
theorem State.bufferSymbol_keeps (hp : p / 32 = h) (hq : s.HasProduct q c sym) :
    (s.bufferSymbol h c sym cs errs p).HasProduct q c sym := by
  by_cases hs : s.pathIn p = true ∧ s.groupRun (p / 8) = true
  · obtain ⟨hin, hrun⟩ := hs
    by_cases hpq : p = q
    · exact hpq ▸ s.bufferSymbol_makes h c sym cs errs p hin hrun hp
    · obtain ⟨out, hout⟩ := s.bufferSymbol_prods h c sym cs errs p q hin hrun
      rw [State.HasProduct, hout, if_neg hpq, (dlWork_bufferSymbol s h c sym cs errs p hp).dlAt (by decide)]
      exact hq
  · rwa [s.bufferSymbol_skipped h c sym cs errs p hs]

end

/-! ## A half's symbol -/

/-- Parts that the work on a symbol may change. -/
def dlSymbolParts : List Part := [.sections, .downlink, .transmit] ++ eventParts

/-- Registers that the work on a symbol may change. -/
def dlSymbolRegs (h : Nat) : List Nat :=
  dlSatRegs h ++ [(Rg.C_BEAM_ZERO h).off, (Rg.C_MODE2_ZERO h).off] ++ eventRegs

theorem cfgStat_not_mem_dlSymbolRegs (h : Half) : Rg.CFG_STAT_PATHCFG.off ∉ dlSymbolRegs h.val := by
  revert h
  decide

theorem pmStat_not_mem_dlSymbolRegs (h : Half) : 0x0828 + 4 * h.val ∉ dlSymbolRegs h.val := by
  revert h
  decide

/-- What the work on a symbol may change, of a half. -/
abbrev DlSymbolWork (h : Nat) (s t : State) : Prop := DlWork dlSymbolParts (dlSymbolRegs h) s t

section
variable {h : Half} {s t : State} (w : DlSymbolWork h.val s t)
include w

theorem DlWork.rel_of_symbol : t.rel = s.rel := w.only.1 .faults (by decide)

theorem DlWork.pathCount_of_symbol : t.pathCount = s.pathCount := by
  simp only [State.pathCount, w.only.2.raw _ (cfgStat_not_mem_dlSymbolRegs h)]

theorem DlWork.pathIn_of_symbol (p : Nat) : t.pathIn p = s.pathIn p :=
  State.pathIn_congr (w.only.2 _ (cfgStat_not_mem_dlSymbolRegs h)) w.rel_of_symbol p

theorem DlWork.dom_of_symbol (d : Nat) : t.dom h.val d = s.dom h.val d := by
  rw [State.dom, w.only.2 _ (pmStat_not_mem_dlSymbolRegs h), State.dom]

theorem DlWork.groupRun_of_symbol {p : Nat} (hp : p / 32 = h.val) : t.groupRun (p / 8) = s.groupRun (p / 8) := by
  rw [State.groupRun, State.groupRun, Nat.div_div_eq_div_mul, hp, w.dom_of_symbol]

theorem DlWork.arrDown_of_symbol (k : Nat) : t.arrDown k = s.arrDown k := by
  have htime : t.time = s.time := w.only.1 .time (by decide)
  rw [State.arrDown, State.arrDown, htime, w.rel_of_symbol]

end

theorem dlSymbolWork_bufferSymbol (s : State) (h c sym : Nat) (cs : List CtrlSec) (errs : List DlParity) {p : Nat}
    (hp : p / 32 = h) : DlSymbolWork h s (s.bufferSymbol h c sym cs errs p) :=
  (dlWork_bufferSymbol s h c sym cs errs p hp).mono (by decide) fun o ho => by simp [dlSymbolRegs, ho]

/-- The work on a half's paths in turn leaves the product of the symbol on each that is in service and whose group runs. -/
theorem State.bufferSymbols_product (h : Half) (c sym : Nat) (cs : List CtrlSec) (errs : List DlParity) :
    ∀ (l : List Nat) (s : State), (∀ p ∈ l, p / 32 = h.val) →
      (∀ q, s.HasProduct q c sym → (l.foldl (fun s p => s.bufferSymbol h.val c sym cs errs p) s).HasProduct q c sym) ∧
      ∀ p ∈ l, s.pathIn p = true → s.groupRun (p / 8) = true →
        (l.foldl (fun s p => s.bufferSymbol h.val c sym cs errs p) s).HasProduct p c sym := by
  intro l
  induction l with
  | nil => exact fun s _ => ⟨fun q hq => hq, fun p hp => absurd hp (by simp)⟩
  | cons a l ih =>
    intro s hl
    obtain ⟨ha, hl⟩ := List.forall_mem_cons.mp hl
    obtain ⟨keep, make⟩ := ih (s.bufferSymbol h.val c sym cs errs a) hl
    have w := dlSymbolWork_bufferSymbol s h.val c sym cs errs ha
    refine ⟨fun q hq => keep q (s.bufferSymbol_keeps h.val c sym cs errs a q ha hq), fun p hp hin hrun => ?_⟩
    rcases List.mem_cons.mp hp with rfl | hp
    · exact keep p (s.bufferSymbol_makes h.val c sym cs errs p hin hrun ha)
    · exact make p hp ((w.pathIn_of_symbol p).trans hin) ((w.groupRun_of_symbol (hl p hp)).trans hrun)

/-! ## Before and after the paths -/

theorem dlSymbolWork_purgeDl (s : State) (h c sym : Nat) : DlSymbolWork h s (s.purgeDl c sym) :=
  ⟨⟨fun p hp => by cases p <;> simp [Part.Same, State.purgeDl, dlSymbolParts] at hp ⊢, fun _ _ => rfl⟩, rfl, rfl⟩

theorem dlSymbolWork_noteOcc (s : State) (h k c sym nprb : Nat) (cs : List CtrlSec) :
    DlSymbolWork h s (s.noteOcc k c sym nprb cs) :=
  ⟨⟨fun p hp => by cases p <;> simp [Part.Same, State.noteOcc, dlSymbolParts] at hp ⊢, fun _ _ => rfl⟩, rfl, rfl⟩

theorem dlSymbolWork_settleDl (s : State) (h c sym : Nat) : DlSymbolWork h s (s.settleDl c sym) := by
  have forgotten (v : Tbl (Option Nat)) : DlSymbolWork h s { s with dlSince := v } :=
    ⟨⟨fun p hp => by cases p <;> simp [Part.Same, dlSymbolParts] at hp ⊢, fun _ _ => rfl⟩, rfl, rfl⟩
  unfold State.settleDl
  split
  · exact .ite _ (forgotten _) (.refl _ _ s)
  · exact .refl _ _ s

theorem dlSymbolWork_fixBlank (s : State) (h k start : Nat) : DlSymbolWork h s (s.fixBlank k start) := by
  unfold State.fixBlank
  exact List.foldlRecOn _ _ (DlWork.refl _ _ s) fun t ht p _ =>
    ht.trans ((dlWork_mapTx t p _).mono (by decide) (List.nil_subset _))

theorem dlSymbolWork_countZero (s : State) (h : Nat) (n : Nat × Nat) : DlSymbolWork h s (s.countZero h n) :=
  (DlWork.of_only (only_countZero s h n) (by decide)).mono (by decide) fun o ho => by
    simp only [dlSymbolRegs, List.mem_append, List.mem_cons] at ho ⊢
    tauto

/-- No change of the back-off waits for a slot boundary. -/
theorem State.resolveBackoff_settled (s : State) (c sym : Nat) (hb : tget (fun _ => 0) s.backoff c < 2) :
    s.resolveBackoff c sym = s := if_neg fun h => absurd h.1 (Nat.not_le.mpr hb)

theorem State.evalDlSat_txp (s : State) (h : Nat) : (s.evalDlSat h).txp = s.txp := by
  unfold State.evalDlSat
  exact (apply_ite State.txp _ _ _).trans (by simp)

end Sys2Proof.Machine
end

section
/-! The downlink's symbols (R26, R132, R142, R144, R145, R155, R471): the start of a symbol and the release of an interval,
then the statement. -/

namespace Sys2Proof.Machine

/-! ## Start of a symbol -/

/-- On a running half the start of a symbol of an enabled carrier works on the half's paths in turn; what comes before
leaves the paths in service and the carrier records, and what comes after leaves the paths. -/
theorem exec_dlSymbolStart_running {h : Half} {c : CarrierNo} {sym : Nat} {s : State}
    (hen : (s.dlAt c.val sym).en = true) (hcount : s.pathCount ≠ 0) (hhalf : h.val = 0 ∨ 32 < s.pathCount)
    (hdom : s.dom h.val 0 = 0) (harr : s.arrDown h.val = false) (hback : tget (fun _ => 0) s.backoff c.val < 2) :
    ∃ cs v t, DlSymbolWork h.val s v ∧ exec (.dlSymbolStart h c sym []) s = .next t ∧
      t.txp = ((halfPaths h.val).foldl (fun s p => s.bufferSymbol h.val c.val sym cs [] p) v).txp := by
  change ∃ cs v t, _ ∧ execDlSymbolStart h c sym [] s = _ ∧ _
  dsimp only [execDlSymbolStart]
  rw [(s.purgeDl c.val sym).resolveBackoff_settled c.val sym hback]
  generalize hu : (s.purgeDl c.val sym).settleDl c.val sym = u
  have w : DlSymbolWork h.val s u := hu ▸ (dlSymbolWork_purgeDl s _ _ _).trans (dlSymbolWork_settleDl _ _ _ _)
  have hon : ¬(!(u.dlAt c.val sym).en || decide (u.pathCount = 0) ||
      (decide (h.val = 1) && decide (u.pathCount ≤ 32))) = true := by
    rw [w.dlAt (by decide), w.pathCount_of_symbol, hen]
    simp only [Bool.not_true, Bool.false_or, Bool.or_eq_true, Bool.and_eq_true, decide_eq_true_eq]
    omega
  generalize hn : u.noteOcc h.val c.val sym (u.dlAt c.val sym).nprb (u.dlCtrls h.val c.val sym) = n
  have wn : DlSymbolWork h.val s n := hn ▸ w.trans (dlSymbolWork_noteOcc u _ _ _ _ _ _)
  have hup : ¬(n.dom h.val 0 ≠ 0 ∨ n.arrDown h.val = true) := by
    rw [wn.dom_of_symbol, wn.arrDown_of_symbol, hdom, harr]
    simp
  rw [if_neg hon, if_neg hup]
  generalize hb : List.foldl (fun s e => State.dlParity s h.val (u.dlCtrls h.val c.val sym) e)
    (if (u.dlAt c.val sym).scs = n.swapMuAt sym then n.fixBlank h.val sym else n) [] = b
  have wb : DlSymbolWork h.val s b := hb ▸ wn.trans (.ite _ (dlSymbolWork_fixBlank n _ _ _) (.refl _ _ n))
  generalize hz : b.countZero h.val (b.zeroRefs h.val (u.dlCtrls h.val c.val sym) sym) = z
  have wz : DlSymbolWork h.val s z := hz ▸ wb.trans (dlSymbolWork_countZero b h.val _)
  refine ⟨u.dlCtrls h.val c.val sym, z, _, wz, rfl, ?_⟩
  rw [State.evalDlSat_txp, apply_ite State.txp, State.bump_txp, ite_self]

theorem dlSymbolStart_products {h : Half} {c : CarrierNo} {sym : Nat} {s : State}
    (hen : (s.dlAt c.val sym).en = true) (hcount : s.pathCount ≠ 0) (hhalf : h.val = 0 ∨ 32 < s.pathCount)
    (hdom : s.dom h.val 0 = 0) (harr : s.arrDown h.val = false) (hback : tget (fun _ => 0) s.backoff c.val < 2) :
    Runs (.dlSymbolStart h c sym []) s fun t =>
      ∀ p ∈ halfPaths h.val, s.pathIn p = true → s.groupRun (p / 8) = true →
        ∃ e ∈ (t.tx p).prods, e.carrier = c.val ∧ e.start = sym ∧ e.len = symTicks (s.dlAt c.val sym).scs sym := by
  obtain ⟨cs, v, t, w, hexec, ht⟩ := exec_dlSymbolStart_running hen hcount hhalf hdom harr hback
  refine ⟨t, hexec, fun p hp hin hrun => ?_⟩
  have hmine : ∀ q ∈ halfPaths h.val, q / 32 = h.val := fun q => mem_halfPaths.mp
  have wf : DlSymbolWork h.val v ((halfPaths h.val).foldl (fun s p => s.bufferSymbol h.val c.val sym cs [] p) v) :=
    List.foldlRecOn _ _ (.refl _ _ v) fun u hu q hq => hu.trans (dlSymbolWork_bufferSymbol u _ _ _ _ _ (hmine q hq))
  have made := (State.bufferSymbols_product h c.val sym cs [] (halfPaths h.val) v hmine).2 p hp
    ((w.pathIn_of_symbol p).trans hin) ((w.groupRun_of_symbol (hmine p hp)).trans hrun)
  rw [State.HasProduct, (w.trans wf).dlAt (by decide)] at made
  rwa [State.tx_congr ht p]

/-! ## Release of an interval -/

/-- An interval of a path in service whose group runs is released while a downlink carrier is enabled and the interval
touches a transmit interval. -/
abbrev State.Releases (s : State) (p sym : Nat) : Prop :=
  s.pathIn p = true ∧ s.groupRun (p / 8) = true ∧ (s.muMax false).isSome = true ∧ s.touches 0 sym (s.intervalLen sym) = true

theorem State.Releases.not_idle {s : State} {p sym : Nat} (hs : s.Releases p sym) :
    ¬(!s.pathIn p || !s.groupRun (p / 8) || (s.muMax false).isNone || !s.touches 0 sym (s.intervalLen sym)) = true := by
  obtain ⟨hin, hrun, hmu, htouch⟩ := hs
  simp [hin, hrun, htouch, Option.isSome_iff_ne_none.mp hmu]

/-- A late interval is sent incomplete; the underrun is counted and reported (R145). -/
theorem exec_symbolRelease_late {p : PathNo} {sym : Nat} {s : State} (hs : s.Releases p.val sym) :
    exec (.symbolRelease p sym true [] false) s = .next ((((s.mapTx p.val fun t =>
      { t with next := some ⟨sym, false, []⟩, underrun := inc32 t.underrun 1 }).bump (Rg.C_SYM_UNDERRUN (p.val / 32)) 1).raiseLimited
        (p.val / 32) Ev.TX_UNDERRUN p.val 4915200 1 []).consume p.val sym (s.intervalLen sym)) :=
  if_neg hs.not_idle

/-- An interval whose samples are all there goes through the slice (R146). -/
theorem exec_symbolRelease_whole {p : PathNo} {sym : Nat} {s : State} (hs : s.Releases p.val sym)
    (hl : (s.buffered p.val sym (s.intervalLen sym)).isSome = true) :
    ∃ (o : SliceOut) (f : TxPath → TxPath), exec (.symbolRelease p sym false [] false) s =
        .next (((s.dlSats (p.val / 32) 0 0 0 o.miss o.clipped).mapTx p.val f).consume p.val sym (s.intervalLen sym)) ∧
      ∀ t, (f t).next = some ⟨sym, true, o.dac⟩ ∧ (f t).rel = some sym ∧ (f t).underrun = t.underrun := by
  obtain ⟨l, hl⟩ := Option.isSome_iff_exists.mp hl
  change ∃ o f, execSymbolRelease p sym false [] false s = _ ∧ _
  simp only [execSymbolRelease, if_neg hs.not_idle, hl, List.foldl_nil, Bool.false_eq_true, false_and, if_false]
  exact ⟨_, _, rfl, fun t => ⟨rfl, rfl, rfl⟩⟩

/-- The underrun counter lies beside the saturation counters and apart from the events' registers. -/
theorem symUnderrun_apart (h : Nat) :
    (Rg.C_SYM_UNDERRUN h).off ∉ dlSatRegs h ∧ (Rg.C_SYM_UNDERRUN h).off ∉ eventRegs := by
  simp only [dlSatRegs, eventRegs, Rg.C_SYM_UNDERRUN, Rg.C_BF_SAT, Rg.C_IFFT_SAT, Rg.C_SUM_SAT, Rg.C_CFR_MISS,
    Rg.C_DPD_CLIP, Rg.ALERT_STAT_EVT_LOST, Rg.MSIX_PBA, Rg.RING_IDX_DEV_IDX, Rg.C_EVT_LOST, List.mem_cons,
    List.not_mem_nil, or_false]
  omega

theorem symbolRelease_late {p : PathNo} {sym : Nat} {s : State} (hs : s.Releases p.val sym) :
    Runs (.symbolRelease p sym true [] false) s fun t =>
      (t.tx p.val).next = some ⟨sym, false, []⟩ ∧ (t.tx p.val).underrun = inc32 (s.tx p.val).underrun 1 ∧
      t.raw (Rg.C_SYM_UNDERRUN (p.val / 32)) =
        min (s.raw (Rg.C_SYM_UNDERRUN (p.val / 32)) + 1) (2 ^ (Rg.C_SYM_UNDERRUN (p.val / 32)).w - 1) := by
  obtain ⟨hsat, hevt⟩ := symUnderrun_apart (p.val / 32)
  refine ⟨_, exec_symbolRelease_late hs, ?_⟩
  generalize hu : State.raiseLimited _ _ _ _ _ _ _ = u
  obtain ⟨b, l, hb⟩ := u.consume_tx p.val sym (s.intervalLen sym)
  have hcount := (dlWork_consume u p.val sym (s.intervalLen sym)).only.2.raw _ hsat
  have htx : u.tx p.val = { s.tx p.val with next := some ⟨sym, false, []⟩, underrun := inc32 (s.tx p.val).underrun 1 } := by
    rw [← hu, State.tx_congr (State.raiseLimited_txp _ _ _ _ _ _ _), State.tx_congr (State.bump_txp _ _ _),
      State.tx_mapTx_same]
  rw [hb, htx, hcount, ← hu, State.raiseLimited_raw _ _ _ _ _ _ _ _ hevt, State.raw_bump _ _ _ (by simp [Rg.C_SYM_UNDERRUN])]
  exact ⟨rfl, rfl, rfl⟩

theorem symbolRelease_whole {p : PathNo} {sym : Nat} {s : State} (hs : s.Releases p.val sym)
    (hl : (s.buffered p.val sym (s.intervalLen sym)).isSome = true) :
    Runs (.symbolRelease p sym false [] false) s fun t =>
      (∃ dac, (t.tx p.val).next = some ⟨sym, true, dac⟩) ∧ (t.tx p.val).underrun = (s.tx p.val).underrun ∧
      (t.tx p.val).rel = some sym ∧ KeepsBut [.downlink, .transmit] s t := by
  obtain ⟨o, f, hexec, hf⟩ := exec_symbolRelease_whole hs hl
  obtain ⟨hnext, hrel, hunder⟩ := hf (s.tx p.val)
  refine ⟨_, hexec, ?_⟩
  generalize hu : State.mapTx _ _ _ = u
  have released : DlWork [.downlink, .transmit] (dlSatRegs (p.val / 32)) s u :=
    hu ▸ ((dlWork_dlSats s _ _ _ _ _ _).mono (by decide) (List.Subset.refl _)).trans
      ((dlWork_mapTx _ _ _).mono (by decide) (List.nil_subset _))
  obtain ⟨b, l, hb⟩ := u.consume_tx p.val sym (s.intervalLen sym)
  have htx : u.tx p.val = f (s.tx p.val) := by rw [← hu, State.tx_mapTx_same, State.dlSats_tx]
  rw [hb, htx]
  exact ⟨⟨o.dac, hnext⟩, hunder, hrel, (released.trans (dlWork_consume u p.val sym _)).only.1⟩

/-- Settles O12: clause by clause, from what each command's work on the records, sections and paths leaves. -/
theorem downlinkSymbols : Obligations.DownlinkSymbols := by
  unfold Obligations.DownlinkSymbols
  exact ⟨fun c x s hx hr => carrierRecordEffect_dl hx hr, fun c x s hx hr => carrierRecordEffect_ul hx hr,
    fun h f sym s ho => dlForwardWindowOpen_marks sym ho,
    fun h c sym s hen hcount hhalf hdom harr hback => dlSymbolStart_products hen hcount hhalf hdom harr hback,
    fun p sym s hin hrun hmu htouch => ⟨symbolRelease_late ⟨hin, hrun, hmu, htouch⟩,
      fun hl => symbolRelease_whole ⟨hin, hrun, hmu, htouch⟩ hl⟩⟩

end Sys2Proof.Machine
end

section
/-! SUPPORT. The work on an uplink symbol's window and on the sums of both halves (R169 to R176, R194 to R196): what each
operation leaves. -/

namespace Sys2Proof.Machine

/-! ## Frames -/

theorem only_setUlSat (s : State) (v : Tbl (List Nat)) : Only [.uplink] [] s { s with ulSat := v } :=
  ⟨fun p hp => by cases p <;> simp [Part.Same] at hp ⊢, fun _ _ => rfl⟩

theorem only_evalUlSat (s : State) (h : Nat) : Only (.uplink :: eventParts) eventRegs s (s.evalUlSat h) :=
  Only.ite _ (fun _ => ((only_setUlSat s _).mono (by decide) (by decide)).trans
    ((only_raiseOnce _ _ _ _ _ _).mono (by decide) (List.Subset.refl _))) (fun _ => Only.refl _ _ _)

/-- Either UL_SATURATE is due and what the counters gained is reported, or nothing happens (R176). -/
theorem State.evalUlSat_eq (s : State) (h : Nat) : s.evalUlSat h = s ∨
    ∃ v g, s.evalUlSat h = { s with ulSat := v }.raiseOnce h Ev.UL_SATURATE h 4915200 g :=
  (ite_eq_or_eq _ _ _).symm.imp id fun he => ⟨_, _, he⟩

@[simp] theorem State.evalUlSat_sums (s : State) (h : Nat) : (s.evalUlSat h).sums = s.sums := by
  obtain he | ⟨v, g, he⟩ := s.evalUlSat_eq h
  · rw [he]
  · rw [he, State.raiseOnce_sums]

@[simp] theorem State.evalUlSat_parts (s : State) (h : Nat) : (s.evalUlSat h).parts = s.parts := by
  obtain he | ⟨v, g, he⟩ := s.evalUlSat_eq h
  · rw [he]
  · rw [he, State.raiseOnce_parts]

/-- Saturations are counted, then noted for the event (R176). -/
theorem State.ulSats_eq (s : State) (h fft comb : Nat) :
    ∃ u, Only [] [(Rg.C_FFT_SAT h).off, (Rg.C_COMB_SAT h).off] s u ∧ s.ulSats h fft comb =
      { u with ulSat := addGains [0, 0, 0] h u.ulSat [0, fft, comb] } :=
  ⟨_, ((only_bump s (Rg.C_FFT_SAT h) fft).mono (List.nil_subset _) (by simp)).trans
    ((only_bump (s.bump (Rg.C_FFT_SAT h) fft) (Rg.C_COMB_SAT h) comb).mono (List.nil_subset _) (by simp)), rfl⟩

theorem State.ulSats_sums_parts (s : State) (h fft comb : Nat) :
    (s.ulSats h fft comb).sums = s.sums ∧ (s.ulSats h fft comb).parts = s.parts := by
  obtain ⟨u, counted, he⟩ := s.ulSats_eq h fft comb
  obtain ⟨-, -, -, -, hparts, hsums, -⟩ := counted.1 .uplink (by simp)
  rw [he]
  exact ⟨hsums, hparts⟩

/-- An occasion's end changes the solver, and hands its estimates to the other half (R193, R196). -/
theorem only_endOccasion (s : State) (h : Nat) (c : SoundSec) : Only [.solver, .d2d] [] s (s.endOccasion h c) := by
  unfold State.endOccasion
  exact Only.trans (Only.ite _ (fun _ => Only.refl _ _ _) (fun _ => (only_d2dPush _ _ _ _).mono (by decide) (by decide)))
    ((only_mapSolv _ _ _).mono (by decide) (by decide))

theorem only_sound (s : State) (h carrier sym : Nat) (endTick : Int) (ys : List (Nat × List Cplx)) (bad : List Nat) :
    Only [.solver, .d2d] [] s (s.sound h carrier sym endTick ys bad) := by
  have solved (t : State) (f : Nat) (g : SolvSt → SolvSt) : Only [.solver, .d2d] [] t (t.mapSolv f g) :=
    (only_mapSolv t f g).mono (by decide) (by decide)
  unfold State.sound
  refine Only.foldl _ (fun t c => ?_) _ _
  split
  next r _ =>
    have worked (g : SolvSt → SolvSt) := (solved t c.flow g).trans
      (Only.foldl (fun s (e : Nat × List Cplx) => s.soundPath r c (c.syms.getLast? == some sym) e.1 e.2)
        (fun t e => solved t c.flow _) ys _)
    have marked (g k : SolvSt → SolvSt) (b : Bool) :=
      (worked g).trans (Only.ite (b = true) (fun _ => solved _ c.flow k) fun _ => Only.refl _ _ _)
    exact Only.ite _ (fun _ => (marked _ _ _).trans (only_endOccasion _ _ _)) (fun _ => marked _ _ _)
  next => exact Only.refl _ _ _

/-! ## Windows of empty elastic buffers -/

/-- A path's elastic buffer gives up what a symbol's window has passed. -/
def State.drained (s : State) (c sym : Nat) (u : UlCarrier) (p : Nat) : State :=
  s.mapRx p fun r => r.drain c ((sym + symTicks u.scs sym) % Config.ticksPerCycle)

theorem RxPath.drain_empty {r : RxPath} (hr : r.buf = []) (c count : Nat) : (r.drain c count).buf = [] := by
  rw [RxPath.drain, hr]
  rfl

theorem State.rx_mapRx (s : State) (p q : Nat) (f : RxPath → RxPath) :
    (s.mapRx p f).rx q = if p = q then f (s.rx p) else s.rx q := tget_tset _ _ _ _ _

theorem State.drained_empty {s : State} {q : Nat} (hq : (s.rx q).buf = []) (c sym : Nat) (u : UlCarrier) (p : Nat) :
    ((s.drained c sym u p).rx q).buf = [] := by
  rw [State.drained, State.rx_mapRx]
  split
  case isTrue hp => exact RxPath.drain_empty (hp ▸ hq) _ _
  case isFalse => exact hq

/-- A path whose elastic buffer is empty has no window (R169, R171). -/
theorem State.pathWindow_empty {s : State} {p : Nat} (hp : (s.rx p).buf = []) (h c sym : Nat) (u : UlCarrier) :
    s.pathWindow h c sym u [] p = (none, s.drained c sym u p) := by
  have none_there (start n : Nat) : (s.rx p).window c start n = none := by rw [RxPath.window, hp]; rfl
  simp only [State.pathWindow, List.find?_nil, none_there, ite_self]
  rfl

/-- Windows taken in turn of paths whose elastic buffers are empty: every path is a gap. -/
theorem foldl_windows_empty {f : List (Nat × List Cplx) × List Nat × State → Nat → List (Nat × List Cplx) × List Nat × State}
    {c sym : Nat} {u : UlCarrier}
    (hf : ∀ gaps s p, (s.rx p).buf = [] → f ([], gaps, s) p = ([], gaps ++ [p], s.drained c sym u p)) :
    ∀ (l gaps : List Nat) (s : State), (∀ p ∈ l, (s.rx p).buf = []) →
      l.foldl f ([], gaps, s) = ([], gaps ++ l, l.foldl (fun s p => s.drained c sym u p) s) := by
  intro l
  induction l with
  | nil => intro gaps s _; simp
  | cons p l ih =>
    intro gaps s hl
    obtain ⟨hp, hl⟩ := List.forall_mem_cons.mp hl
    rw [List.foldl_cons, hf _ _ _ hp, ih _ _ fun q hq => State.drained_empty (hl q hq) c sym u p]
    simp

/-! ## The work on a window -/

/-- Parts that the work on an uplink symbol may change. -/
def ulWindowParts : List Part := [.sections, .uplink, .receive, .solver, .d2d] ++ eventParts

/-- The work on an uplink symbol changes only certain parts and the listed counters, and no sums that are complete. -/
structure UlWork (regs : List Nat) (s t : State) : Prop where
  only : Only ulWindowParts regs s t
  sums : t.sums = s.sums

section
variable {l : List Part} {m m' : List Nat} {s t u : State}

theorem UlWork.refl (m : List Nat) (s : State) : UlWork m s s := ⟨Only.refl _ _ _, rfl⟩

theorem UlWork.trans (a : UlWork m s t) (b : UlWork m t u) : UlWork m s u := ⟨a.only.trans b.only, b.sums.trans a.sums⟩

theorem UlWork.mono (a : UlWork m s t) (hm : m ⊆ m') : UlWork m' s t := ⟨a.only.mono (List.Subset.refl _) hm, a.sums⟩

/-- What leaves the uplink part alone leaves the sums. -/
theorem UlWork.of_only (a : Only l m s t) (hl : l ⊆ ulWindowParts := by decide) (h : Part.uplink ∉ l := by decide) :
    UlWork m s t := by
  obtain ⟨-, -, -, -, -, hsums, -⟩ := a.1 .uplink h
  exact ⟨a.mono hl (List.Subset.refl _), hsums⟩

/-- The schedule in force stays, and with it which intervals a symbol touches. -/
theorem UlWork.touches (a : UlWork m s t) (code start len : Nat) : t.touches code start len = s.touches code start len := by
  have hrel : t.rel = s.rel := a.only.1 .faults (by decide)
  obtain ⟨-, -, -, hsched, -⟩ := a.only.1 .frontEnd (by decide)
  have hsafe (row idx : Nat) : t.isSafe row idx = s.isSafe row idx := by rw [State.isSafe, hrel, State.isSafe]
  have hschedule : t.schedule = s.schedule := by
    rw [State.schedule, hsafe, hsafe, hsched, State.schedule]
  rw [State.touches, hschedule, State.touches]

end

theorem ulWork_purgeUl (s : State) (c sym : Nat) : UlWork [] s (s.purgeUl c sym) :=
  ⟨⟨fun p hp => by cases p <;> simp [Part.Same, State.purgeUl, ulWindowParts] at hp ⊢, fun _ _ => rfl⟩, rfl⟩

theorem ulWork_drained (l : List Nat) (s : State) (c sym : Nat) (u : UlCarrier) :
    UlWork [] s (l.foldl (fun s p => s.drained c sym u p) s) :=
  .of_only (Only.foldl _ (fun t p => only_mapRx t p _) _ _)

/-- A half's coded sums wait beside the others, and cross to the half that owns their flow (R172). -/
theorem ulWork_addParts (s : State) (h sym : Nat) (l : List PartSum) : UlWork [] s (s.addParts h sym l) := by
  have kept : UlWork [] s { s with parts := s.parts ++ l } :=
    ⟨⟨fun p hp => by cases p <;> simp [Part.Same, ulWindowParts] at hp ⊢, fun _ _ => rfl⟩, rfl⟩
  exact kept.trans (.of_only (Only.foldl _ (fun t f => only_d2dPush t h _ _) _ _))

theorem ulWork_sound (s : State) (h carrier sym : Nat) (endTick : Int) (ys : List (Nat × List Cplx)) (bad : List Nat) :
    UlWork [] s (s.sound h carrier sym endTick ys bad) := .of_only (only_sound s h carrier sym endTick ys bad)

theorem ulWork_evalUlSat (s : State) (h : Nat) : UlWork eventRegs s (s.evalUlSat h) :=
  ⟨(only_evalUlSat s h).mono (by decide) (List.Subset.refl _), s.evalUlSat_sums h⟩

/-! ## Sums of both halves -/

/-- The sums of a symbol that a half takes join the complete ones, and the saturations are counted (R173). -/
def State.keepSum (s : State) (own sat : Nat) (u : SumSym) (keep : PartSum → Bool) : State :=
  { s.ulSats own 0 sat with
    sums := (s.ulSats own 0 sat).sums ++ [u], parts := (s.ulSats own 0 sat).parts.filter keep }.evalUlSat own

theorem State.keepSum_sums (s : State) (own sat : Nat) (u : SumSym) (keep : PartSum → Bool) :
    (s.keepSum own sat u keep).sums = s.sums ++ [u] := by
  rw [State.keepSum, State.evalUlSat_sums]
  exact congrArg (· ++ [u]) (s.ulSats_sums_parts own 0 sat).1

theorem State.keepSum_parts (s : State) (own sat : Nat) (u : SumSym) (keep : PartSum → Bool) :
    (s.keepSum own sat u keep).parts = s.parts.filter keep := by
  rw [State.keepSum, State.evalUlSat_parts]
  exact congrArg (List.filter keep) (s.ulSats_sums_parts own 0 sat).2

end Sys2Proof.Machine
end

section
/-! The uplink's windows and sums (R29, R169, R171, R173): the window of empty elastic buffers, the addition of both halves'
sums and the cut-off, then the statement. -/

namespace Sys2Proof.Machine

/-! ## A window of empty elastic buffers -/

/-- Registers that the work on a window may change once its gaps are counted and its place is judged. -/
def ulWindowRegs (h : Nat) : List Nat := (Rg.C_BEAM_ZERO h).off :: (Rg.C_MODE2_ZERO h).off :: eventRegs

theorem split_not_mem_ulRegs (h : Half) :
    Rg.CFG_STAT_SPLIT.off ∉ ulWindowRegs h.val ∧ Rg.CFG_STAT_SPLIT.off ∉ [(Rg.C_UL_GAP h.val).off] ∧
      Rg.CFG_STAT_SPLIT.off ∉ [(Rg.C_UL_IN_TX h.val).off] := by
  revert h
  decide

theorem ulCounters_not_mem_ulWindowRegs (h : Half) :
    (Rg.C_UL_GAP h.val).off ∉ ulWindowRegs h.val ∧ (Rg.C_UL_IN_TX h.val).off ∉ ulWindowRegs h.val := by
  revert h
  decide

/-- A symbol outside every receive interval is counted for the half's paths in service (R170). -/
def State.judgeWindow (s : State) (h sym len : Nat) : State :=
  if !s.touches 1 sym len then s.bump (Rg.C_UL_IN_TX h) ((halfPaths h).filter fun p => s.pathIn p).length else s

/-- The sums and the sounding of a symbol whose windows are taken and in which no parity error is met. -/
def State.sumWindow (s : State) (h c sym : Nat) (u : UlCarrier) (cs : List CtrlSec) (outside : Bool)
    (ys : List (Nat × List Cplx)) (gaps : List Nat) : State :=
  let len := symTicks u.scs sym
  let s := s.countZero h (s.zeroRefs h cs sym)
  let s := s.addParts h sym (s.codedSums h u cs sym [] (if outside then [] else ys))
  let endTick := s.tickOf ((sym + len) % Config.ticksPerCycle)
  let s := s.sound h c sym endTick ys (gaps ++ ((halfPaths h).filter fun p => s.sprinted p endTick len) ++ [])
  let s := if s.split then (cs.map (·.flow)).eraseDups.foldl (fun s f => s.takeSole f sym h true) s else s
  s.evalUlSat h

theorem ulWork_judgeWindow (s : State) (h sym len : Nat) : UlWork [(Rg.C_UL_IN_TX h).off] s (s.judgeWindow h sym len) :=
  .of_only (l := []) (Only.ite _ (fun _ => only_bump _ _ _) (fun _ => Only.refl _ _ _))

theorem State.judgeWindow_inside {s : State} {sym len : Nat} (ht : s.touches 1 sym len = true) (h : Nat) :
    s.judgeWindow h sym len = s := if_neg (by simp [ht])

/-- Unless split mode is in force, no half completes sums within a window. -/
theorem ulWork_sumWindow {s : State} {h : Half} (hsplit : s.split = false) (c sym : Nat) (u : UlCarrier)
    (cs : List CtrlSec) (outside : Bool) (ys : List (Nat × List Cplx)) (gaps : List Nat) :
    UlWork (ulWindowRegs h.val) s (s.sumWindow h.val c sym u cs outside ys gaps) := by
  dsimp only [State.sumWindow]
  generalize hz : s.countZero h.val (s.zeroRefs h.val cs sym) = z
  have wz : UlWork (ulWindowRegs h.val) s z := hz ▸ .of_only (only_countZero s h.val _)
  generalize ha : z.addParts h.val sym _ = a
  have wa : UlWork (ulWindowRegs h.val) s a := wz.trans (ha ▸ (ulWork_addParts z h.val sym _).mono (List.nil_subset _))
  generalize hb : a.sound h.val c sym _ ys _ = b
  have wb : UlWork (ulWindowRegs h.val) s b :=
    wa.trans (hb ▸ (ulWork_sound a h.val c sym _ ys _).mono (List.nil_subset _))
  have hb : b.split = false := (State.on_of_raw (wb.only.2.raw _ (split_not_mem_ulRegs h).1)).trans hsplit
  rw [hb, if_neg Bool.false_ne_true]
  exact wb.trans ((ulWork_evalUlSat b h.val).mono fun o ho => by simp [ulWindowRegs, ho])

/-- The window of a running half whose elastic buffers hold nothing: the gaps are counted, the symbol is judged, and the
sums are formed of no path. -/
theorem exec_ulSymbolWindow_empty {h : Half} {c : CarrierNo} {sym : Nat} {s : State}
    (hen : (s.ulAt c.val sym).en = true) (hcarry : s.carries = true) (hcount : s.pathCount ≠ 0)
    (hhalf : h.val = 0 ∨ 32 < s.pathCount) (hdom : s.dom h.val 0 = 0) (harr : s.arrDown h.val = false)
    (hempty : ∀ p ∈ halfPaths h.val, (s.rx p).buf = []) :
    let u := s.ulAt c.val sym
    let gaps := (halfPaths h.val).filter fun p => s.pathIn p
    let x := (gaps.foldl (fun s p => s.drained c.val sym u p) (s.purgeUl c.val sym)).bump (Rg.C_UL_GAP h.val) gaps.length
    exec (.ulSymbolWindow h c sym [] []) s = .next ((x.judgeWindow h.val sym (symTicks u.scs sym)).sumWindow h.val c.val sym u
      ((s.purgeUl c.val sym).ulCtrls c.val sym) (!x.touches 1 sym (symTicks u.scs sym)) [] gaps) := by
  have hon : ¬(!(s.ulAt c.val sym).en || !s.carries || decide (s.pathCount = 0) ||
      (decide (h.val = 1) && decide (s.pathCount ≤ 32))) = true := by
    rw [hen, hcarry]
    simp only [Bool.not_true, Bool.false_or, Bool.or_eq_true, Bool.and_eq_true, decide_eq_true_eq]
    omega
  have hup : ¬(s.dom h.val 0 ≠ 0 ∨ s.arrDown h.val = true) := by
    rw [hdom, harr]
    simp
  refine (if_neg hon).trans ((if_neg hup).trans ?_)
  rw [foldl_windows_empty (c := c.val) (sym := sym) (u := s.ulAt c.val sym)]
  · rfl
  · intro gaps t p hp
    dsimp only
    rw [State.pathWindow_empty hp]
    rfl
  · exact fun p hp => hempty p (List.mem_filter.mp hp).1

theorem ulSymbolWindow_gaps {h : Half} {c : CarrierNo} {sym : Nat} {s : State}
    (hen : (s.ulAt c.val sym).en = true) (hcarry : s.carries = true) (hcount : s.pathCount ≠ 0)
    (hhalf : h.val = 0 ∨ 32 < s.pathCount) (hdom : s.dom h.val 0 = 0) (harr : s.arrDown h.val = false)
    (hsplit : s.split = false) (hempty : ∀ p ∈ halfPaths h.val, (s.rx p).buf = []) :
    Runs (.ulSymbolWindow h c sym [] []) s fun t =>
      t.raw (Rg.C_UL_GAP h.val) =
        min (s.raw (Rg.C_UL_GAP h.val) + ((halfPaths h.val).filter fun p => s.pathIn p).length)
          (2 ^ (Rg.C_UL_GAP h.val).w - 1) ∧ t.sums = s.sums ∧
      (s.touches 1 sym (symTicks (s.ulAt c.val sym).scs sym) = true →
        t.raw (Rg.C_UL_IN_TX h.val) = s.raw (Rg.C_UL_IN_TX h.val)) := by
  refine ⟨_, exec_ulSymbolWindow_empty hen hcarry hcount hhalf hdom harr hempty, ?_⟩
  generalize (s.ulAt c.val sym) = u
  generalize ((halfPaths h.val).filter fun p => s.pathIn p) = gaps
  generalize hv : gaps.foldl (fun s p => s.drained c.val sym u p) (s.purgeUl c.val sym) = v
  have wv : UlWork [] s v := hv ▸ (ulWork_purgeUl s c.val sym).trans (ulWork_drained gaps _ c.val sym u)
  generalize hx : v.bump (Rg.C_UL_GAP h.val) gaps.length = x
  have wx : UlWork [(Rg.C_UL_GAP h.val).off] v x := hx ▸ .of_only (only_bump _ _ _)
  have wy := ulWork_judgeWindow x h.val sym (symTicks u.scs sym)
  generalize hy : x.judgeWindow h.val sym (symTicks u.scs sym) = y at wy
  obtain ⟨-, hgap, hin⟩ := split_not_mem_ulRegs h
  obtain ⟨hgapOff, hinOff⟩ := ulCounters_not_mem_ulWindowRegs h
  have hysplit : y.split = false := by
    have kept : y.raw Rg.CFG_STAT_SPLIT = s.raw Rg.CFG_STAT_SPLIT :=
      (wy.only.2.raw _ hin).trans ((wx.only.2.raw _ hgap).trans (wv.only.2.raw _ (by simp)))
    exact (State.on_of_raw kept).trans hsplit
  have wt := ulWork_sumWindow (h := h) hysplit c.val sym u ((s.purgeUl c.val sym).ulCtrls c.val sym)
    (!x.touches 1 sym (symTicks u.scs sym)) [] gaps
  refine ⟨?_, ?_, fun ht => ?_⟩
  · rw [wt.only.2.raw _ hgapOff, wy.only.2.raw _ (by simp [Rg.C_UL_GAP, Rg.C_UL_IN_TX]), ← hx,
      State.raw_bump _ _ _ (by simp [Rg.C_UL_GAP]), wv.only.2.raw _ (by simp)]
  · rw [wt.sums, wy.sums, wx.sums, wv.sums]
  · have hxt : x.touches 1 sym (symTicks u.scs sym) = true :=
      ((wv.mono (List.nil_subset _)).trans wx).touches 1 sym _ ▸ ht
    rw [State.judgeWindow_inside hxt] at hy
    rw [wt.only.2.raw _ hinOff, ← hy, wx.only.2.raw _ (by simp [Rg.C_UL_GAP, Rg.C_UL_IN_TX]), wv.only.2.raw _ (by simp)]

/-! ## Sums of both halves -/

/-- The coded sums of a flow's symbol that a half has formed (R172). -/
def State.partsOf (s : State) (f sym h : Nat) : List PartSum :=
  s.parts.filter fun x => x.flow == f && x.sym == sym && x.half == h

/-- The sums of two halves that meet on a layer and PRB. -/
def sumPairs (a b : List PartSum) : List (PartSum × PartSum) :=
  a.filterMap fun x => (b.find? fun y => y.layer == x.layer && y.prb == x.prb).map fun y => (x, y)

theorem mem_sumPairs {a b : List PartSum} {x y : PartSum} (hx : x ∈ a)
    (hy : (b.find? fun y => y.layer == x.layer && y.prb == x.prb) = some y) : (x, y) ∈ sumPairs a b :=
  List.mem_filterMap.mpr ⟨x, hx, by rw [hy]; rfl⟩

/-- Both halves' sums of a symbol, added where they meet (R173). -/
def State.bothSum (s : State) (f sym : Nat) : SumSym :=
  { flow := f, sym := sym, half := (s.flow f).half, partial_ := false
    res := (sumPairs (s.partsOf f sym 0) (s.partsOf f sym 1)).map fun (a, b) => (a.layer, a.prb, (addSums a b).1) }

theorem exec_ulPartialSumsReady_both {f : FlowNo} {sym : Nat} {s : State} (hsplit : s.split = false)
    (hcount : 32 < s.pathCount) (h0 : s.partsOf f.val sym 0 ≠ []) (h1 : s.partsOf f.val sym 1 ≠ [])
    (hcross : s.d2dHas (1 - (s.flow f.val).half) (.sums f.val sym) = false) :
    ∃ sat, exec (.ulPartialSumsReady f sym) s = .next (s.keepSum (s.flow f.val).half sat (s.bothSum f.val sym)
      fun x => !(x.flow == f.val && x.sym == sym)) := by
  have hhalf : ¬(!s.sumHalf 1) = true := by simp [State.sumHalf, hcount]
  have hready : ¬(s.partsOf f.val sym 0 = [] ∨ s.partsOf f.val sym 1 = [] ∨
      s.d2dHas (1 - (s.flow f.val).half) (.sums f.val sym) = true) := by simp [h0, h1, hcross]
  exact ⟨_, (if_neg (by simp [hsplit])).trans ((if_neg hhalf).trans (if_neg hready))⟩

theorem ulPartialSumsReady_adds {f : FlowNo} {sym : Nat} {s : State} (hsplit : s.split = false)
    (hcount : 32 < s.pathCount) (h0 : s.partsOf f.val sym 0 ≠ []) (h1 : s.partsOf f.val sym 1 ≠ [])
    (hcross : s.d2dHas (1 - (s.flow f.val).half) (.sums f.val sym) = false) :
    Runs (.ulPartialSumsReady f sym) s fun t =>
      (∃ u : SumSym, t.sums = s.sums ++ [u] ∧ u.flow = f.val ∧ u.sym = sym ∧ u.half = (s.flow f.val).half ∧
        u.partial_ = false ∧ ∀ x ∈ s.partsOf f.val sym 0, ∀ y ∈ s.partsOf f.val sym 1,
          ((s.partsOf f.val sym 1).find? fun b => b.layer == x.layer && b.prb == x.prb) = some y →
            (x.layer, x.prb, (addSums x y).1) ∈ u.res) ∧
      ∀ x ∈ t.parts, ¬(x.flow = f.val ∧ x.sym = sym) := by
  obtain ⟨sat, hexec⟩ := exec_ulPartialSumsReady_both hsplit hcount h0 h1 hcross
  refine ⟨_, hexec, ⟨s.bothSum f.val sym, State.keepSum_sums _ _ _ _ _, rfl, rfl, rfl, rfl, fun x hx y _ hy => ?_⟩,
    fun x hx => ?_⟩
  · exact List.mem_map.mpr ⟨(x, y), mem_sumPairs hx hy, rfl⟩
  · rw [State.keepSum_parts] at hx
    rintro ⟨hf, hsym⟩
    simpa [hf, hsym] using (List.mem_filter.mp hx).2

/-- A half's own sums of a symbol, taken alone (R29, R173). -/
def State.soloSum (s : State) (f sym h : Nat) (part : Bool) : SumSym :=
  { flow := f, sym := sym, half := h, partial_ := part, res := s.soleSum f sym h }

theorem State.takeSole_eq {s : State} {f sym h : Nat} (hs : s.soleSum f sym h ≠ []) (part : Bool) :
    s.takeSole f sym h part = s.keepSum h (s.soleSat f sym h) (s.soloSum f sym h part)
      fun x => !(x.flow == f && x.sym == sym && x.half == h) := if_neg hs

theorem partialSumCutoff_partial {f : FlowNo} {sym : Nat} {s : State} (hsplit : s.split = false)
    (hcount : 32 < s.pathCount) (hs : s.soleSum f.val sym (s.flow f.val).half ≠ []) :
    Runs (.partialSumCutoff f sym) s fun t =>
      ∃ u : SumSym, t.sums = s.sums ++ [u] ∧ u.flow = f.val ∧ u.sym = sym ∧ u.half = (s.flow f.val).half ∧
        u.partial_ = true ∧ u.res = s.soleSum f.val sym (s.flow f.val).half := by
  have hexec : exec (.partialSumCutoff f sym) s = .next (s.takeSole f.val sym (s.flow f.val).half true) :=
    if_neg (by simp [hsplit, State.sumHalf, hcount])
  refine ⟨_, hexec, s.soloSum f.val sym (s.flow f.val).half true, ?_, rfl, rfl, rfl, rfl, rfl⟩
  rw [State.takeSole_eq hs, State.keepSum_sums]

/-- Settles O15: clause by clause, from the window of empty elastic buffers and from what a half's taking of sums leaves. -/
theorem uplinkSums : Obligations.UplinkSums := by
  unfold Obligations.UplinkSums
  exact ⟨fun h c sym s hen hcarry hcount hhalf hdom harr hsplit hempty =>
      ulSymbolWindow_gaps hen hcarry hcount hhalf hdom harr hsplit hempty,
    fun f sym s hsplit hcount h0 h1 hcross => ulPartialSumsReady_adds hsplit hcount h0 h1 hcross,
    fun f sym s hsplit hcount hs => partialSumCutoff_partial hsplit hcount hs⟩

end Sys2Proof.Machine
end

section
/-! SUPPORT. The registers and records of a lane (ch. 2): what each operation on a lane leaves in them, and what leaves a lane
alone. -/

namespace Sys2Proof.Machine

/-! ## Reads beside a write -/

/-- A record's write leaves the registers. -/
@[simp] theorem State.mapLane_raw (s : State) (n : Nat) (f : LaneX → LaneX) (x : Fld) : (s.mapLane n f).raw x = s.raw x := (rfl)
@[simp] theorem State.mapLane_laneState (s : State) (n m : Nat) (f : LaneX → LaneX) :
    (s.mapLane n f).laneState m = s.laneState m := (rfl)
@[simp] theorem State.mapLink_raw (s : State) (h : Nat) (f : LinkSt → LinkSt) (x : Fld) : (s.mapLink h f).raw x = s.raw x := (rfl)
@[simp] theorem State.mapLink_laneState (s : State) (h m : Nat) (f : LinkSt → LinkSt) :
    (s.mapLink h f).laneState m = s.laneState m := (rfl)
@[simp] theorem State.freeNat_raw (s : State) (x : Fld) : s.freeNat.2.raw x = s.raw x := (rfl)
@[simp] theorem State.mapLink_lane (s : State) (h n : Nat) (f : LinkSt → LinkSt) : (s.mapLink h f).lane n = s.lane n := (rfl)
@[simp] theorem State.mapLane_link (s : State) (n h : Nat) (f : LaneX → LaneX) : (s.mapLane n f).link h = s.link h := (rfl)
@[simp] theorem State.setF_lane (s : State) (x : Fld) (v n : Nat) : (s.setF x v).lane n = s.lane n := (rfl)
@[simp] theorem State.setF_link (s : State) (x : Fld) (v h : Nat) : (s.setF x v).link h = s.link h := (rfl)

theorem State.lane_mapLane (s : State) (n m : Nat) (f : LaneX → LaneX) :
    (s.mapLane n f).lane m = if n = m then f (s.lane n) else s.lane m := tget_tset _ _ _ _ _

@[simp] theorem State.lane_mapLane_same (s : State) (n : Nat) (f : LaneX → LaneX) :
    (s.mapLane n f).lane n = f (s.lane n) := by simp [State.lane_mapLane]

@[simp] theorem State.link_mapLink_same (s : State) (h : Nat) (f : LinkSt → LinkSt) :
    (s.mapLink h f).link h = f (s.link h) := tget_tset_same _ _ _ _

theorem State.lane_congr {s t : State} (h : t.lanes = s.lanes) (n : Nat) : t.lane n = s.lane n := by rw [State.lane, h, State.lane]

theorem State.link_congr {s t : State} (h : t.links = s.links) (k : Nat) : t.link k = s.link k := by rw [State.link, h, State.link]

/-- A field of a register of which only the bits below `k` are written, or of another register, keeps its value. -/
theorem State.raw_setF_below (s : State) {x y : Fld} (v : Nat) {o k : Nat} (hx : x.off = o) (hk : x.lo + x.w ≤ k)
    (hy : y.off ≠ o ∨ k ≤ y.lo) : (s.setF x v).raw y = s.raw y := State.raw_setF_apart _ _ _ _ (by omega)

theorem State.raw_of_reg {s t : State} {x : Fld} (h : t.reg x.off = s.reg x.off) : t.raw x = s.raw x :=
  congrArg (fget · x.lo x.w) h

/-- A field of `k` bits takes a value that fits. -/
theorem State.raw_setF_of_lt (s : State) (x : Fld) {v : Nat} (k : Nat) (hv : v < 2 ^ k)
    (hw : x.w = k := by rfl) (h : x.lo + k ≤ 32 := by exact Nat.le_of_ble_eq_true rfl) : (s.setF x v).raw x = v := by
  subst hw
  rw [State.raw_setF _ _ _ h, Nat.mod_eq_of_lt hv]

/-- The frame of a field's write, by the offset of its register. -/
theorem only_setF_at (s : State) (x : Fld) (v : Nat) {o : Nat} (h : x.off = o) : Only [] [o] s (s.setF x v) := h ▸ only_setF s x v

/-! ## STATE and POS (Table 18) -/

theorem State.laneState_setLane (s : State) (n : Nat) {st : Nat} (h : st < 16) : (s.setLane n st).laneState n = st :=
  s.raw_setF_of_lt (Rg.LANE_STAT_STATE n) 4 (by omega)

theorem State.pos_setPos (s : State) (n : Nat) {p : Nat} (h : p < 16) : (s.setPos n p).raw (Rg.LANE_STAT_POS n) = p :=
  s.raw_setF_of_lt (Rg.LANE_STAT_POS n) 4 (by omega)

/-- STATE lies in the low four bits: a write of a field above them leaves it. -/
theorem State.laneState_setF (s : State) (x : Fld) (v n : Nat) (h : 4 ≤ x.lo) : (s.setF x v).laneState n = s.laneState n :=
  State.raw_setF_apart _ _ _ _ (.inr (.inr h))

/-- Beside the status registers a write leaves STATE. -/
theorem State.laneState_setF_off (s : State) (x : Fld) (v n : Nat) (h : x.off % 64 ≠ 8) :
    (s.setF x v).laneState n = s.laneState n :=
  State.raw_setF_off _ _ _ _ (by change x.off ≠ 0x1808 + 0x40 * n; omega)

@[simp] theorem State.laneState_setPos (s : State) (n m p : Nat) : (s.setPos n p).laneState m = s.laneState m :=
  State.laneState_setF _ _ _ _ (Nat.le_of_ble_eq_true rfl)

/-- Beside the status registers a write leaves POS. -/
theorem State.pos_setF_off (s : State) (x : Fld) (v n : Nat) (h : x.off % 64 ≠ 8) :
    (s.setF x v).raw (Rg.LANE_STAT_POS n) = s.raw (Rg.LANE_STAT_POS n) :=
  State.raw_setF_off _ _ _ _ (by change x.off ≠ 0x1808 + 0x40 * n; omega)

theorem evtOff_mod (n : Nat) : (Rg.LANE_EVT_LOS n).off % 64 ≠ 8 := by
  change (0x1810 + 0x40 * n) % 64 ≠ 8
  omega

theorem statOff_lane (n : Nat) : (Rg.LANE_STAT_STATE n).off / 64 = 96 + n := by
  change (0x1808 + 0x40 * n) / 64 = 96 + n
  omega

theorem tapsOff_lane (n : Nat) : (Rg.LANE_TAPS_PRE n).off / 64 = 96 + n := by
  change (0x180c + 0x40 * n) / 64 = 96 + n
  omega

theorem evtOff_lane (n : Nat) : (Rg.LANE_EVT_LOS n).off / 64 = 96 + n := by
  change (0x1810 + 0x40 * n) / 64 = 96 + n
  omega

theorem ctlOff_lane (n : Nat) : (Rg.LANE_CTL_ENABLE n).off / 64 = 96 + n := by
  change (0x1800 + 0x40 * n) / 64 = 96 + n
  omega

/-- The events of a lane stand beside its status and its taps. -/
theorem evtOff_not_mem (n : Nat) : (Rg.LANE_EVT_LOS n).off ∉ [(Rg.LANE_STAT_STATE n).off, (Rg.LANE_TAPS_PRE n).off] := by
  change 0x1810 + 0x40 * n ∉ [0x1808 + 0x40 * n, 0x180c + 0x40 * n]
  simp

theorem evtOff_not_stat (n : Nat) : (Rg.LANE_EVT_LOS n).off ∉ [(Rg.LANE_STAT_STATE n).off] := fun h =>
  evtOff_not_mem n (List.mem_cons.mpr (.inl (List.mem_singleton.mp h)))

/-! ## Leaving the stripe -/

/-- A lane takes a state of Table 18 without a position, its receiver's status cleared. -/
def State.parkLane (s : State) (n st : Nat) : State := ((s.laneUnlock n).setLane n st).setPos n 0xF

theorem only_laneUnlock (s : State) (n : Nat) : Only [] [(Rg.LANE_STAT_STATE n).off] s (s.laneUnlock n) := by
  unfold State.laneUnlock
  exact (((only_setF_at s (Rg.LANE_STAT_SIG_DET n) 0 rfl).trans (only_setF_at _ (Rg.LANE_STAT_CDR_LOCK n) 0 rfl)).trans
    (only_setF_at _ (Rg.LANE_STAT_BLOCK_LOCK n) 0 rfl)).trans (only_setF_at _ (Rg.LANE_STAT_AM_LOCK n) 0 rfl)

theorem only_parkLane (s : State) (n st : Nat) : Only [] [(Rg.LANE_STAT_STATE n).off] s (s.parkLane n st) := by
  unfold State.parkLane State.setPos State.setLane
  exact ((only_laneUnlock s n).trans (only_setF_at _ (Rg.LANE_STAT_STATE n) st rfl)).trans
    (only_setF_at _ (Rg.LANE_STAT_POS n) 0xF rfl)

theorem State.parkLane_laneState (s : State) (n : Nat) {st : Nat} (h : st < 16) : (s.parkLane n st).laneState n = st :=
  (State.laneState_setPos _ _ _ _).trans (State.laneState_setLane _ _ h)

theorem State.parkLane_pos (s : State) (n st : Nat) : (s.parkLane n st).raw (Rg.LANE_STAT_POS n) = 0xF :=
  State.pos_setPos _ _ (by decide)

/-- TRIES_LEFT and what stands beside the status keep their values. -/
theorem State.parkLane_raw (s : State) (n st : Nat) {y : Fld} (hy : y.off ≠ (Rg.LANE_STAT_STATE n).off ∨ 12 ≤ y.lo) :
    (s.parkLane n st).raw y = s.raw y := by
  have below {x : Fld} (t : State) (v : Nat) (hx : x.off = (Rg.LANE_STAT_STATE n).off) (hk : Nat.ble (x.lo + x.w) 12 = true) :
      (t.setF x v).raw y = t.raw y := t.raw_setF_below v hx (Nat.le_of_ble_eq_true hk) hy
  calc (s.parkLane n st).raw y
      _ = ((s.laneUnlock n).setLane n st).raw y := below _ _ rfl rfl
      _ = (s.laneUnlock n).raw y := below _ _ rfl rfl
      _ = (((s.setF (Rg.LANE_STAT_SIG_DET n) 0).setF (Rg.LANE_STAT_CDR_LOCK n) 0).setF (Rg.LANE_STAT_BLOCK_LOCK n) 0).raw y :=
        below _ _ rfl rfl
      _ = ((s.setF (Rg.LANE_STAT_SIG_DET n) 0).setF (Rg.LANE_STAT_CDR_LOCK n) 0).raw y := below _ _ rfl rfl
      _ = (s.setF (Rg.LANE_STAT_SIG_DET n) 0).raw y := below _ _ rfl rfl
      _ = s.raw y := below _ _ rfl rfl

/-! ## What leaves a lane alone -/

/-- A lane's registers and its record hold the same. -/
def KeepsLane (n : Nat) (s t : State) : Prop := t.lane n = s.lane n ∧ ∀ o, o / 64 = 96 + n → t.reg o = s.reg o

section
variable {l : List Part} {m : List Nat} {n : Nat} {s t u : State}

theorem KeepsLane.refl (n : Nat) (s : State) : KeepsLane n s s := ⟨rfl, fun _ _ => rfl⟩

theorem KeepsLane.trans (a : KeepsLane n s t) (b : KeepsLane n t u) : KeepsLane n s u :=
  ⟨b.1.trans a.1, fun o ho => (b.2 o ho).trans (a.2 o ho)⟩

theorem KeepsLane.ite (c : Prop) [Decidable c] (a : c → KeepsLane n s t) (b : ¬c → KeepsLane n s u) :
    KeepsLane n s (if c then t else u) := by
  split
  · exact a ‹_›
  · exact b ‹_›

theorem KeepsLane.raw (h : KeepsLane n s t) (x : Fld) (hx : x.off / 64 = 96 + n) : t.raw x = s.raw x :=
  State.raw_of_reg (h.2 x.off hx)

theorem KeepsLane.laneState (h : KeepsLane n s t) : t.laneState n = s.laneState n := h.raw _ (statOff_lane n)

theorem KeepsLane.pos (h : KeepsLane n s t) : t.raw (Rg.LANE_STAT_POS n) = s.raw (Rg.LANE_STAT_POS n) :=
  h.raw _ (statOff_lane n)

/-- A frame without the lane's registers, under which its record holds the same. -/
theorem KeepsLane.of_only (h : Only l m s t) (hl : t.lane n = s.lane n) (hm : ∀ o ∈ m, o / 64 ≠ 96 + n) : KeepsLane n s t :=
  ⟨hl, fun o ho => h.2 o fun q => hm o q ho⟩

/-- A frame without the lanes and their registers. -/
theorem KeepsLane.of_apart (h : Only l m s t) (hn : n < 10) (hl : Part.lanes ∉ l := by decide)
    (hm : ∀ o ∈ m, o < 0x1800 ∨ 0x1A80 ≤ o := by decide) : KeepsLane n s t :=
  .of_only h (State.lane_congr (h.1 .lanes hl) n) fun o ho => by
    have := hm o ho
    omega

/-- A frame of another lane's registers, under which the record holds the same. -/
theorem KeepsLane.of_other {k : Nat} (h : Only l m s t) (hk : k ≠ n) (hl : t.lane n = s.lane n)
    (hm : ∀ o ∈ m, o / 64 = 96 + k) : KeepsLane n s t :=
  .of_only h hl fun o ho => by
    have := hm o ho
    omega

/-- A write of another lane's register. -/
theorem keepsLane_setF (s : State) (x : Fld) (v : Nat) {k : Nat} (hx : x.off / 64 = 96 + k) (hk : k ≠ n) :
    KeepsLane n s (s.setF x v) := .of_other (only_setF s x v) hk rfl (by simpa using hx)

end

/-! ## Training (R64, R83) -/

theorem only_setTaps (s : State) (n pre main post : Nat) : Only [] [(Rg.LANE_TAPS_PRE n).off] s (s.setTaps n pre main post) := by
  unfold State.setTaps
  exact ((only_setF_at s (Rg.LANE_TAPS_PRE n) pre rfl).trans (only_setF_at _ (Rg.LANE_TAPS_MAIN n) main rfl)).trans
    (only_setF_at _ (Rg.LANE_TAPS_POST n) post rfl)

theorem only_entryTaps (s : State) (n : Nat) : Only [] [(Rg.LANE_TAPS_PRE n).off] s (s.entryTaps n) :=
  Only.ite _ (fun _ => only_setTaps _ _ _ _ _) (fun _ => only_setTaps _ _ _ _ _)

/-- The registers of a lane that enters TRAIN. -/
def State.trainRegs (s : State) (n : Nat) : State := (s.parkLane n 2).entryTaps n

theorem only_trainRegs (s : State) (n : Nat) :
    Only [] [(Rg.LANE_STAT_STATE n).off, (Rg.LANE_TAPS_PRE n).off] s (s.trainRegs n) :=
  ((only_parkLane s n 2).mono (List.Subset.refl _) (by simp)).trans
    ((only_entryTaps _ n).mono (List.Subset.refl _) (by simp))

theorem only_enterTrain (s : State) (n : Nat) (ff : Bool) :
    Only [.lanes] [(Rg.LANE_STAT_STATE n).off, (Rg.LANE_TAPS_PRE n).off] s (s.enterTrain n ff) :=
  ((only_trainRegs s n).mono (List.nil_subset _) (List.Subset.refl _)).trans
    ((only_mapLane (s.trainRegs n) n _).mono (List.Subset.refl _) (List.nil_subset _))

theorem State.trainRegs_stat (s : State) (n : Nat) {y : Fld} (hy : y.off = (Rg.LANE_STAT_STATE n).off) :
    (s.trainRegs n).raw y = (s.parkLane n 2).raw y :=
  (only_entryTaps _ n).2.raw y (by rw [hy]; change 0x1808 + 0x40 * n ∉ [0x180c + 0x40 * n]; simp)

theorem State.enterTrain_laneState (s : State) (n : Nat) (ff : Bool) : (s.enterTrain n ff).laneState n = 2 :=
  (s.trainRegs_stat n rfl).trans (State.parkLane_laneState _ _ (by decide))

theorem State.enterTrain_triesLeft (s : State) (n : Nat) (ff : Bool) :
    (s.enterTrain n ff).raw (Rg.LANE_STAT_TRIES_LEFT n) = s.raw (Rg.LANE_STAT_TRIES_LEFT n) :=
  (s.trainRegs_stat n (y := Rg.LANE_STAT_TRIES_LEFT n) rfl).trans (State.parkLane_raw _ _ _ (.inr (Nat.le_of_ble_eq_true rfl)))

/-- A lane in TRAIN comes from FAULT or not, as it was told, and no longer resumes. -/
theorem State.enterTrain_lane (s : State) (n : Nat) (ff : Bool) :
    ((s.enterTrain n ff).lane n).fromFault = ff ∧ ((s.enterTrain n ff).lane n).resuming = false := by
  simp [State.enterTrain, LaneX.reset]

theorem keepsLane_enterTrain {m n : Nat} (s : State) (ff : Bool) (h : m ≠ n) : KeepsLane n s (s.enterTrain m ff) := by
  refine .of_other (only_enterTrain s m ff) h ?_ ?_
  · have kept : (s.trainRegs m).lane n = s.lane n := State.lane_congr ((only_trainRegs s m).1 .lanes (by decide)) n
    exact ((State.lane_mapLane _ _ _ _).trans (if_neg h)).trans kept
  · simp [statOff_lane, tapsOff_lane]

end Sys2Proof.Machine
end

section
/-! SUPPORT. Blocks that a half sends on its lanes (R49, R58): what leaves, and what the coders change. -/

namespace Sys2Proof.Machine

/-! ## Coding and sending -/

theorem State.lineOf_mapLine (s : State) (n m : Nat) (f : LineSt → LineSt) :
    (s.mapLine n f).lineOf m = if n = m then f (s.lineOf n) else s.lineOf m := tget_tset _ _ _ _ _

theorem State.lineOf_congr {s t : State} (h : t.line = s.line) (n : Nat) : t.lineOf n = s.lineOf n := by
  rw [State.lineOf, h, State.lineOf]

theorem only_codeBlocks (l : List (Nat × Blk)) (s : State) : Only [.log] [] s (s.codeBlocks l).2 := by
  induction l generalizing s with
  | nil => exact Only.refl _ _ _
  | cons e l ih => exact (only_mapLine s e.1 _).trans (ih _)

theorem State.codeBlocks_sent (l : List (Nat × Blk)) (s : State) : (s.codeBlocks l).2.sent = s.sent := by
  induction l generalizing s with
  | nil => rfl
  | cons e l ih => exact ih _

theorem State.codeBlocks_lanes (l : List (Nat × Blk)) (s : State) : (s.codeBlocks l).1.map (·.1) = l.map (·.1) := by
  induction l generalizing s with
  | nil => rfl
  | cons e l ih => exact congrArg (e.1 :: ·) (ih _)

/-- Blocks on different lanes are each scrambled behind what their lane sent before. -/
theorem State.codeBlocks_distinct {l : List (Nat × Blk)} (h : (l.map (·.1)).Nodup) (s : State) :
    (s.codeBlocks l).1 = l.map fun e => (e.1, (scrBlk (s.lineOf e.1).scr e.2).1) := by
  induction l generalizing s with
  | nil => rfl
  | cons e l ih =>
    obtain ⟨he, hl⟩ := List.nodup_cons.mp h
    refine congrArg ((e.1, (scrBlk (s.lineOf e.1).scr e.2).1) :: ·) ((ih hl _).trans (List.map_congr_left fun d hd => ?_))
    have hne : e.1 ≠ d.1 := fun h => he (List.mem_map.mpr ⟨d, hd, h.symm⟩)
    rw [State.lineOf_mapLine, if_neg hne]

/-- The first blocks are coded as they are alone. -/
theorem State.codeBlocks_append (k l : List (Nat × Blk)) (s : State) :
    (s.codeBlocks (k ++ l)).1 = (s.codeBlocks k).1 ++ ((s.codeBlocks k).2.codeBlocks l).1 := by
  induction k generalizing s with
  | nil => rfl
  | cons e k ih => exact congrArg ((e.1, (scrBlk (s.lineOf e.1).scr e.2).1) :: ·) (ih _)

/-- What is sent on lanes that are not idle goes out whole. -/
theorem State.sendBlocks_eq {s : State} {l : List (Nat × Blk)} (hl : l ≠ []) (hi : ∀ e ∈ l, s.lineIdle e.1 = false) (h : Nat) :
    s.sendBlocks h l = (s.codeBlocks l).2.emit (.blocks h (s.codeBlocks l).1) := by
  have hall : (l.filter fun e => !s.lineIdle e.1) = l := List.filter_eq_self.mpr fun e he => by rw [hi e he]; rfl
  unfold State.sendBlocks
  rw [hall]
  cases l with
  | nil => exact absurd rfl hl
  | cons e l => rfl

theorem only_sendBlocks (s : State) (h : Nat) (l : List (Nat × Blk)) : Only [.log] [] s (s.sendBlocks h l) := by
  unfold State.sendBlocks
  split
  · exact Only.refl _ _ _
  · rename_i x r _
    exact (only_codeBlocks (x :: r) s).trans (only_emit _ _)

theorem sends_sendBlocks {s : State} {l : List (Nat × Blk)} (hi : ∀ e ∈ l, s.lineIdle e.1 = false) (hd : (l.map (·.1)).Nodup)
    (h : Nat) : Sends s (s.sendBlocks h l) h l := by
  unfold Sends
  split
  · subst l
    rfl
  · rename_i hl
    rw [State.sendBlocks_eq hl hi, State.emit, State.codeBlocks_sent, State.codeBlocks_distinct hd]

/-- What is sent depends on the coders and on what was sent before, and on nothing else of either state. -/
theorem Sends.congr {s s' t t' : State} {h : Nat} {l : List (Nat × Blk)} (a : Sends s' t' h l) (hl : s'.line = s.line)
    (hs : s'.sent = s.sent) (ht : t.sent = t'.sent) : Sends s t h l := by
  unfold Sends at a ⊢
  simp only [State.lineOf, ← hl, ← hs, ht]
  exact a

/-! ## The lanes that carry a half's blocks -/

theorem mem_halfLanes {h n : Nat} : n ∈ halfLanes h ↔ n / 5 = h := by
  simp only [halfLanes, List.mem_map, List.mem_range]
  exact ⟨fun ⟨a, ha, hn⟩ => by omega, fun hn => ⟨n % 5, by omega, by omega⟩⟩

theorem halfLanes_nodup (h : Nat) : (halfLanes h).Nodup :=
  List.nodup_range.map fun a b hab => by simpa using hab

theorem State.lineIdle_of_up {s : State} {n : Nat} (hc : s.boot.core = false)
    (hn : s.laneState n = 5 ∨ s.laneState n = 4 ∨ s.laneState n = 3 ∨ s.laneState n = 2 ∨
      (s.laneState n = 1 ∧ (s.lane n).resuming = true)) : s.lineIdle n = false := by
  unfold State.lineIdle
  rcases hn with h | h | h | h | ⟨h, hr⟩ <;> simp [*]

theorem State.mem_linkLanes {s : State} {h n : Nat} :
    n ∈ s.linkLanes h ↔ n / 5 = h ∧ (s.laneState n = 5 ∨ s.laneState n = 4) := by
  simp [State.linkLanes, mem_halfLanes]

theorem State.mem_groupLanes {s : State} {h n : Nat} : n ∈ s.groupLanes h ↔ n / 5 = h ∧
    (s.laneState n = 5 ∨ s.laneState n = 4 ∨ s.laneState n = 3 ∨ (s.laneState n = 1 ∧ (s.lane n).resuming = true)) := by
  simp [State.groupLanes, mem_halfLanes, or_assoc]

theorem State.linkLanes_nodup (s : State) (h : Nat) : (s.linkLanes h).Nodup := (halfLanes_nodup h).filter _

theorem State.groupLanes_nodup (s : State) (h : Nat) : (s.groupLanes h).Nodup := (halfLanes_nodup h).filter _

theorem State.linkLanes_congr {s t : State} (h : ∀ n, t.laneState n = s.laneState n) (k : Nat) :
    t.linkLanes k = s.linkLanes k := by simp only [State.linkLanes, h]

theorem State.groupLanes_congr {s t : State} (h : ∀ n, t.laneState n = s.laneState n) (hl : ∀ n, t.lane n = s.lane n) (k : Nat) :
    t.groupLanes k = s.groupLanes k := by simp only [State.groupLanes, h, hl]

theorem State.groupLanes_up {s : State} (hc : s.boot.core = false) {h n : Nat} (hn : n ∈ s.groupLanes h) :
    s.lineIdle n = false := by
  obtain ⟨-, hup⟩ := State.mem_groupLanes.mp hn
  exact State.lineIdle_of_up hc (by tauto)

theorem onLanes_lanes (l : List Nat) (f : Nat → List Byte) : (onLanes l f).map (·.1) = l := by
  rw [onLanes, List.map_map]
  exact List.map_id l

/-! ## LINK blocks (R58, R59) -/

theorem only_putLink (s : State) (h op tag old new pos reason : Nat) :
    Only [.log] [] s (s.putLink h op tag old new pos reason) := only_sendBlocks _ _ _

theorem sends_putLink {s : State} (hc : s.boot.core = false) (h op tag old new pos reason : Nat) :
    Sends s (s.putLink h op tag old new pos reason) h (linkOn s h op tag old new pos reason) := by
  refine sends_sendBlocks (fun e he => ?_) ?_ h
  · obtain ⟨n, hn, rfl⟩ := List.mem_map.mp he
    obtain ⟨-, hup⟩ := State.mem_linkLanes.mp hn
    exact State.lineIdle_of_up hc (by tauto)
  · exact (congrArg List.Nodup (onLanes_lanes (s.linkLanes h) fun _ => linkBytes op tag old new pos reason)).mpr
      (s.linkLanes_nodup h)

/-- A LINK block that goes out after a change beside the coders and the lanes' states. -/
theorem sends_putLink_of {s u t : State} {l : List Part} {m : List Nat} {h op tag old new pos reason : Nat} (hu : Only l m s u)
    (hc : s.boot.core = false) (hst : ∀ n, u.laneState n = s.laneState n)
    (ht : t.sent = (u.putLink h op tag old new pos reason).sent) (hlog : Part.log ∉ l := by decide)
    (hboot : Part.boot ∉ l := by decide) : Sends s t h (linkOn s h op tag old new pos reason) := by
  obtain ⟨hline, hsent⟩ := hu.1 .log hlog
  have hb : u.boot = s.boot := hu.1 .boot hboot
  have key := (sends_putLink (hb ▸ hc) h op tag old new pos reason).congr hline hsent ht
  simp only [linkOn, State.linkLanes_congr hst] at key
  exact key

/-- The block that waits for its answer. -/
def State.waiting (s : State) (h op old new pos reason : Nat) : State :=
  s.mapLink h fun l => { l with nextTag := ((s.link h).nextTag + 1) % 256
                                out := (s.link h).out ++ [⟨op, (s.link h).nextTag, old, new, pos, reason, 0, 0, false⟩] }

theorem only_waiting (s : State) (h op old new pos reason : Nat) :
    Only [.links] [] s (s.waiting h op old new pos reason) := only_mapLink _ _ _

theorem State.sendLink_eq (s : State) (h op old new pos reason : Nat) : s.sendLink h op old new pos reason =
    (s.waiting h op old new pos reason).putLink h op (s.link h).nextTag old new pos reason := rfl

theorem only_sendLink (s : State) (h op old new pos reason : Nat) :
    Only [.links, .log] [] s (s.sendLink h op old new pos reason) := (only_mapLink _ _ _).then (only_putLink _ _ _ _ _ _ _ _)

/-- A block that has been sent waits for its answer. -/
theorem State.sendLink_out (s : State) (h op old new pos reason : Nat) : ((s.sendLink h op old new pos reason).link h).out =
    (s.link h).out ++ [⟨op, (s.link h).nextTag, old, new, pos, reason, 0, 0, false⟩] := by
  have hput := (only_putLink (s.waiting h op old new pos reason) h op (s.link h).nextTag old new pos reason).1 .links (by decide)
  rw [State.sendLink_eq, State.link_congr hput, State.waiting, State.link_mapLink_same]

theorem State.sendLink_started (s : State) (h op old new pos reason : Nat) :
    ((s.sendLink h op old new pos reason).link h).started = (s.link h).started := by
  have hput := (only_putLink (s.waiting h op old new pos reason) h op (s.link h).nextTag old new pos reason).1 .links (by decide)
  rw [State.sendLink_eq, State.link_congr hput, State.waiting, State.link_mapLink_same]

end Sys2Proof.Machine
end

section
/-! SUPPORT. Faults, retirement, relays and re-admission of a half's lanes (R71 to R78): what each leaves of a lane, and which
lanes it leaves alone. -/

namespace Sys2Proof.Machine

/-! ## Reliability state and link notices -/

/-- Registers that a change of the reliability state may change. -/
def relRegs : List Nat := Rg.REL_STAT_STATE.off :: eventRegs

/-- Registers that a class's exhaustion may change. -/
def exhaustRegs : List Nat := [Rg.REL_EXHAUST_H0.off, Rg.REL_EXHAUST_H1.off, Rg.REL_STAT_WHY.off, Rg.REL_STAT_SERVICE_N.off,
  Rg.CFG_STAT_SERVICE.off, Rg.MSIX_PBA.off] ++ relRegs

theorem only_evalRel (s : State) : Only eventParts relRegs s s.evalRel :=
  Only.ite _ (fun _ => Only.refl _ _ _) fun _ =>
    ((only_setF _ _ _).mono (by decide) (by decide)).trans ((only_raise _ _ _ _ _).mono (by decide) (by decide))

theorem only_request (s : State) (reason half row : Nat) : Only (.faults :: eventParts) exhaustRegs s (s.request reason half row) := by
  unfold State.request
  refine Only.ite _ (fun _ => Only.refl _ _ _) fun _ => ?_
  have asserted (f : RelSt → RelSt) (v : Nat) := ((((only_mapRel s f).mono (l' := .faults :: eventParts) (m' := exhaustRegs)
    (by decide) (by decide)).trans ((only_setF _ Rg.REL_STAT_WHY v).mono (by decide) (by decide))).trans
    ((only_setF _ Rg.REL_STAT_SERVICE_N 1).mono (by decide) (by decide))).trans
    ((only_setF _ Rg.CFG_STAT_SERVICE 1).mono (by decide) (by decide))
  have raised (t : State) (l : List Nat) := ((only_raise t half Ev.REPLACE_REQUEST half l).mono
    (l' := .faults :: eventParts) (m' := exhaustRegs) (by decide) (by decide))
  refine Only.trans ((Only.trans ?_ (raised _ _))) ((only_sendMsg _ _ _ _).mono (by decide) (by decide))
  exact Only.ite _ (fun _ => asserted _ _) fun _ => (asserted _ _).trans ((only_irq _ _).mono (by decide) (by decide))

theorem only_exhaust (s : State) (half row : Nat) : Only (.faults :: eventParts) exhaustRegs s (s.exhaust half row) := by
  unfold State.exhaust
  refine Only.ite _ (fun _ => Only.refl _ _ _) fun _ => Only.trans (Only.trans (Only.trans ?_
    ((only_raise _ _ _ _ _).mono (by decide) (by decide))) ((only_evalRel _).mono (by decide) (by decide))) (only_request _ _ _ _)
  split
  · exact (only_setF s Rg.REL_EXHAUST_H0 _).mono (by decide) (by decide)
  · exact (only_setF s Rg.REL_EXHAUST_H1 _).mono (by decide) (by decide)

theorem only_logFault (s : State) (cls unit : Nat) : Only [.faults] [] s (s.logFault cls unit) := only_mapRel _ _

theorem only_freeNat (s : State) : Only [.free] [] s s.freeNat.2 :=
  ⟨fun p hp => by cases p <;> simp [Part.Same, State.freeNat] at hp ⊢, fun _ _ => rfl⟩

theorem only_freeBit (s : State) : Only [.free] [] s s.freeBit.2 :=
  ⟨fun p hp => by cases p <;> simp [Part.Same, State.freeBit] at hp ⊢, fun _ _ => rfl⟩

theorem only_capField (s : State) (h : Nat) : Only [.free] [] s (s.capField h).2 := by
  unfold State.capField
  dsimp only
  split
  · exact Only.refl _ _ _
  · exact only_freeNat s

theorem only_linkNotice (s : State) (h : Nat) (restored : Bool) (flows : List Nat) :
    Only (.free :: eventParts) eventRegs s (s.linkNotice h restored flows) :=
  (((only_capField s h).mono (by decide) (by decide)).trans ((only_sendMsg _ _ _ _).mono (by decide) (by decide))).trans
    ((only_raise _ _ _ _ _).mono (by decide) (by decide))

theorem only_readmitOne (h : Nat) (a : List Nat × State) (n : Nat) : Only [.flows, .links] [] a.2 (State.readmitOne h a n).2 := by
  unfold State.readmitOne
  dsimp only
  split
  · exact (only_setFlow _ _ _).then (only_mapLink _ _ _)
  · exact Only.refl _ _ _

theorem only_readmits (h : Nat) (l : List Nat) (a : List Nat × State) :
    Only [.flows, .links] [] a.2 (l.foldl (State.readmitOne h) a).2 := by
  induction l generalizing a with
  | nil => exact Only.refl _ _ _
  | cons n l ih => exact (only_readmitOne h a n).trans (ih _)

/-- Parts that a lane's entry into service may change beside the lanes. -/
def laneInParts : List Part := [.flows, .links, .free] ++ eventParts

theorem only_readmit (s : State) (h : Nat) : Only laneInParts eventRegs s (s.readmit h) :=
  Only.ite _ (fun _ => (((only_readmits h _ _).mono (by decide) (by decide)).trans
    ((only_mapLink _ _ _).mono (by decide) (by decide))).trans ((only_linkNotice _ _ _ _).mono (by decide) (by decide)))
    fun _ => Only.refl _ _ _

theorem only_laneIn (s : State) (h : Nat) : Only laneInParts eventRegs s (s.laneIn h) := by
  have started : Only laneInParts eventRegs s (s.tryStart h) :=
    Only.ite _ (fun _ => Only.refl _ _ _) fun _ => (only_mapLink _ _ _).mono (by decide) (by decide)
  exact Only.ite _ (fun _ => (started.trans (only_readmit _ h)).trans ((only_mapLink _ _ _).mono (by decide) (by decide)))
    fun _ => started.trans (only_readmit _ h)

theorem only_spareIn (s : State) {h : Nat} (hh : h < 2) :
    Only eventParts ([(Rg.C_SPARE_IN 0).off, (Rg.C_SPARE_IN 1).off] ++ relRegs) s (s.spareIn h) := by
  refine ((only_bump s (Rg.C_SPARE_IN h) 1).mono (by decide) ?_).trans ((only_evalRel _).mono (List.Subset.refl _) (by decide))
  interval_cases h <;> decide

/-! ## Training of a spare (R73, R74) -/

/-- The cold spare that trains was in QUIET. -/
theorem State.trainCold_cases (s : State) (h : Nat) :
    s.trainCold h = s ∨ ∃ m, s.laneState m = 1 ∧ s.trainCold h = s.enterTrain m false := by
  unfold State.trainCold
  split
  · exact .inl rfl
  · split
    · rename_i m hm
      have := List.find?_some hm
      exact .inr ⟨m, by simp_all, rfl⟩
    · exact .inl rfl

theorem keepsLane_trainCold {s : State} {n : Nat} (h : s.laneState n ≠ 1) (k : Nat) : KeepsLane n s (s.trainCold k) := by
  rcases s.trainCold_cases k with he | ⟨m, hm, he⟩
  · rw [he]
    exact .refl _ _
  · rw [he]
    exact keepsLane_enterTrain s false fun hmn => h (hmn ▸ hm)

/-- The spare whose test ends was in TEST. -/
theorem State.endSpareTest_cases (s : State) (h : Nat) : s.endSpareTest h = s ∨ ∃ m, s.laneState m = 7 ∧ s.endSpareTest h =
    ((s.setF (Rg.LANE_CTL_TEST_MODE m) 0).setF (Rg.LANE_STAT_CHK_LOCK m) 0).enterTrain m false := by
  unfold State.endSpareTest
  split
  · exact .inl rfl
  · split
    · rename_i m hm
      have := List.find?_some hm
      exact .inr ⟨m, by simp_all, rfl⟩
    · exact .inl rfl

theorem keepsLane_endSpareTest {s : State} {n : Nat} (h : s.laneState n ≠ 7) (k : Nat) : KeepsLane n s (s.endSpareTest k) := by
  rcases s.endSpareTest_cases k with he | ⟨m, hm, he⟩
  · rw [he]
    exact .refl _ _
  · have hmn : m ≠ n := fun hmn => h (hmn ▸ hm)
    rw [he]
    exact ((keepsLane_setF s (Rg.LANE_CTL_TEST_MODE m) 0 (ctlOff_lane m) hmn).trans
      (keepsLane_setF _ (Rg.LANE_STAT_CHK_LOCK m) 0 (statOff_lane m) hmn)).trans (keepsLane_enterTrain _ false hmn)

/-! ## FAULT (R71, R74) -/

/-- A lane in FAULT before a cold spare trains: without a position, with TRAIN_TRIES attempts. -/
def State.faulted (s : State) (n reason : Nat) : State :=
  ((s.parkLane n 6).setF (Rg.LANE_STAT_TRIES_LEFT n) ((s.parkLane n 6).f Rg.LNK_CFG_TRAIN_TRIES)).mapLane n fun x =>
    { x with reason := reason, rxReady := false, fromFault := false, marginal := false }

theorem State.enterFault_eq (s : State) (n reason : Nat) : s.enterFault n reason = (s.faulted n reason).trainCold (n / 5) := rfl

theorem only_faulted (s : State) (n reason : Nat) : Only [.lanes] [(Rg.LANE_STAT_STATE n).off] s (s.faulted n reason) :=
  (((only_parkLane s n 6).trans (only_setF_at _ (Rg.LANE_STAT_TRIES_LEFT n) _ rfl)).mono (List.nil_subset _)
    (List.Subset.refl _)).trans ((only_mapLane _ _ _).mono (List.Subset.refl _) (List.nil_subset _))

theorem State.faulted_laneState (s : State) (n reason : Nat) : (s.faulted n reason).laneState n = 6 := by
  rw [State.faulted, State.mapLane_laneState, State.laneState_setF _ _ _ _ (Nat.le_of_ble_eq_true rfl),
    State.parkLane_laneState _ _ (by decide)]

theorem State.faulted_pos (s : State) (n reason : Nat) : (s.faulted n reason).raw (Rg.LANE_STAT_POS n) = 0xF := by
  rw [State.faulted, State.mapLane_raw, State.raw_setF_apart _ _ _ _ (.inr (.inr (Nat.le_of_ble_eq_true rfl))),
    State.parkLane_pos]

theorem State.faulted_reason (s : State) (n reason : Nat) : ((s.faulted n reason).lane n).reason = reason := by
  rw [State.faulted, State.lane_mapLane_same]

/-- A lane in FAULT: its state, position and REASON, with its events as they were. -/
theorem State.enterFault_spec (s : State) (n reason : Nat) : (s.enterFault n reason).laneState n = 6 ∧
    (s.enterFault n reason).raw (Rg.LANE_STAT_POS n) = 0xF ∧ ((s.enterFault n reason).lane n).reason = reason ∧
    (s.enterFault n reason).reg (Rg.LANE_EVT_LOS n).off = s.reg (Rg.LANE_EVT_LOS n).off := by
  have kept : KeepsLane n (s.faulted n reason) (s.enterFault n reason) :=
    keepsLane_trainCold (by rw [State.faulted_laneState]; decide) _
  have evt : (s.faulted n reason).reg (Rg.LANE_EVT_LOS n).off = s.reg (Rg.LANE_EVT_LOS n).off :=
    (only_faulted s n reason).2 _ (evtOff_not_stat n)
  exact ⟨kept.laneState.trans (s.faulted_laneState n reason), kept.pos.trans (s.faulted_pos n reason),
    (congrArg LaneX.reason kept.1).trans (s.faulted_reason n reason), (kept.2 _ (evtOff_lane n)).trans evt⟩

/-- A relay that would bring a lane in is cancelled (R73). -/
def State.cancelRelay (s : State) (n : Nat) : State :=
  match (s.link (n / 5)).out.find? fun b => b.op == 2 && b.new == n with
  | some b => s.relayFailed (n / 5) b.tag
  | none => s

/-- RELAY_OUT is set for a lane that had a position (R71). -/
def State.noteOut (s : State) (n : Nat) : State := if s.laneState n = 5 then s.setF (Rg.LANE_EVT_RELAY_OUT n) 1 else s

theorem State.dropLane_eq (s : State) (n reason : Nat) :
    s.dropLane n reason = (((s.cancelRelay n).noteOut n).enterFault n reason).endSpareTest (n / 5) := rfl

/-- Where the device may relay by itself, the spare goes to the lowest vacant position (R72). -/
def State.refill (s : State) (h : Nat) : State :=
  if s.on Rg.LNK_CFG_AUTO_RELAY then
    match s.spareReady h, s.lowestVacant h with
    | some n, some p => s.startRelay h 0xF n p 0
    | _, _ => s
  else s

theorem State.removalDone_fault {s : State} {h n : Nat} (hs : (s.refill h).laneState n = 6) :
    s.removalDone h n = (s.refill h).attempt n ((s.refill h).lane n).reason := if_pos hs

section
variable {n : Nat} (hn : n < 10)
include hn

theorem keepsLane_relayFailed (s : State) (h tag : Nat) : KeepsLane n s (s.relayFailed h tag) :=
  (KeepsLane.of_apart (t := s.answered h tag) (only_mapLink s h _) hn).trans (.of_apart (only_finishLong _ _ _ _) hn)

theorem keepsLane_cancelRelay (s : State) (k : Nat) : KeepsLane n s (s.cancelRelay k) := by
  unfold State.cancelRelay
  split
  · exact keepsLane_relayFailed hn s _ _
  · exact .refl _ _

/-- A lane that the device stops striping on: in FAULT without a position, with RELAY_OUT set where it was ACTIVE. -/
theorem State.dropLane_spec (s : State) (reason : Nat) : (s.dropLane n reason).laneState n = 6 ∧
    (s.dropLane n reason).raw (Rg.LANE_STAT_POS n) = 0xF ∧ ((s.dropLane n reason).lane n).reason = reason ∧
    (s.laneState n = 5 → (s.dropLane n reason).raw (Rg.LANE_EVT_RELAY_OUT n) = 1) := by
  rw [State.dropLane_eq]
  generalize hv : (s.cancelRelay n).noteOut n = v
  have hevt : s.laneState n = 5 → v.raw (Rg.LANE_EVT_RELAY_OUT n) = 1 := fun h5 => by
    rw [← hv, State.noteOut, if_pos ((keepsLane_cancelRelay hn s n).laneState.trans h5)]
    exact State.raw_setF_of_lt _ (Rg.LANE_EVT_RELAY_OUT n) 1 (by decide)
  obtain ⟨hstate, hpos, hreason, hreg⟩ := v.enterFault_spec n reason
  have kept : KeepsLane n (v.enterFault n reason) ((v.enterFault n reason).endSpareTest (n / 5)) :=
    keepsLane_endSpareTest (by omega) _
  have hout : (v.enterFault n reason).raw (Rg.LANE_EVT_RELAY_OUT n) = v.raw (Rg.LANE_EVT_RELAY_OUT n) :=
    State.raw_of_reg hreg
  exact ⟨kept.laneState.trans hstate, kept.pos.trans hpos, (congrArg LaneX.reason kept.1).trans hreason,
    fun h5 => (kept.raw (Rg.LANE_EVT_RELAY_OUT n) (evtOff_lane n)).trans (hout.trans (hevt h5))⟩

/-! ## Attempts and retirement (R74) -/

/-- A lane that retires: RETIRED, with its events as they were. -/
theorem State.retireLane_spec (s : State) (arg : Nat) : (s.retireLane n arg).laneState n = 8 ∧
    (s.retireLane n arg).reg (Rg.LANE_EVT_LOS n).off = s.reg (Rg.LANE_EVT_LOS n).off := by
  have kept : KeepsLane n (s.parkLane n 8) (s.retireLane n arg) := by
    generalize hu : ((s.parkLane n 8).raise (n / 5) Ev.LANE_RETIRED n [arg]).logFault 7 n = u
    have logged : KeepsLane n (s.parkLane n 8) u := hu ▸ (KeepsLane.of_apart (only_raise _ _ _ _ _) hn).trans
      (.of_apart (only_logFault _ 7 n) hn)
    unfold State.retireLane
    rw [← State.parkLane]
    dsimp only
    rw [hu]
    exact logged.trans (.ite _ (fun _ => .of_apart (only_evalRel _) hn) fun _ => .of_apart (only_exhaust _ _ _) hn)
  exact ⟨kept.laneState.trans (State.parkLane_laneState _ _ (by decide)), (kept.2 _ (evtOff_lane n)).trans
    ((only_parkLane s n 8).2 _ (evtOff_not_stat n))⟩

/-- After an attempt a lane trains or is RETIRED; its events stay. -/
theorem State.attempt_spec (s : State) (arg : Nat) :
    ((s.attempt n arg).laneState n = 2 ∨ (s.attempt n arg).laneState n = 8) ∧
    (s.attempt n arg).reg (Rg.LANE_EVT_LOS n).off = s.reg (Rg.LANE_EVT_LOS n).off := by
  unfold State.attempt
  dsimp only
  split
  · obtain ⟨hstate, hevt⟩ := s.retireLane_spec hn arg
    have kept : KeepsLane n (s.retireLane n arg) (s.retireTrained n arg) := keepsLane_trainCold (by omega) _
    exact ⟨.inr (kept.laneState.trans hstate), (kept.2 _ (evtOff_lane n)).trans hevt⟩
  · have spent := only_setF s (Rg.LANE_STAT_TRIES_LEFT n) (s.raw (Rg.LANE_STAT_TRIES_LEFT n) - 1)
    exact ⟨.inl (State.enterTrain_laneState _ _ _), ((only_enterTrain _ n true).2 _ (evtOff_not_mem n)).trans
      (((only_sendLink _ _ _ _ _ _ _).2 _ (by simp)).trans (spent.2 _ (evtOff_not_stat n)))⟩

theorem keepsLane_startRelay (s : State) (h old : Nat) {new : Nat} (pos reason : Nat) (hnew : new ≠ n) :
    KeepsLane n s (s.startRelay h old new pos reason) :=
  (keepsLane_setF s (Rg.LANE_STAT_POS new) pos (statOff_lane new) hnew).trans
    (.of_apart (only_sendLink (s.setPos new pos) h 2 old new pos reason) hn)

end

/-- The spare of a half is SPARE_READY. -/
theorem State.laneState_of_spareReady {s : State} {h m : Nat} (hm : s.spareReady h = some m) : s.laneState m = 4 := by
  simpa using List.find?_some hm

/-- A lane in FAULT whose removal is complete trains or is RETIRED; its events stay. -/
theorem State.removalDone_spec {s : State} {n : Nat} (hn : n < 10) (h : Nat) (hs : s.laneState n = 6) :
    ((s.removalDone h n).laneState n = 2 ∨ (s.removalDone h n).laneState n = 8) ∧
    (s.removalDone h n).reg (Rg.LANE_EVT_LOS n).off = s.reg (Rg.LANE_EVT_LOS n).off := by
  have kept : KeepsLane n s (s.refill h) := by
    refine .ite _ (fun _ => ?_) fun _ => .refl _ _
    split
    · rename_i m p hm _
      exact keepsLane_startRelay hn s h 0xF p 0 fun hmn => by
        have := State.laneState_of_spareReady hm
        rw [hmn, hs] at this
        omega
    · exact .refl _ _
  rw [State.removalDone_fault (kept.laneState.trans hs)]
  obtain ⟨hstate, hevt⟩ := (s.refill h).attempt_spec hn ((s.refill h).lane n).reason
  exact ⟨hstate, hevt.trans (kept.2 _ (evtOff_lane n))⟩

end Sys2Proof.Machine
end

section
/-! Training and alignment of a lane (R62 to R69, R74): the taps and the eye, the end of training, the failures, the marker lock
and the way back from FAULT; then the two tap constraints (R63). -/

namespace Sys2Proof.Machine

/-! ## Training frames (R62, R63) -/

/-- What the responder makes of a frame's requests: the taps on the line and the three statuses. -/
def State.trnTaps (s : State) (n : Nat) (f : TrnFrame) : State × Nat × Nat × Nat :=
  if (f.preset || f.init) && !(s.lane n).fixed then
    (if f.preset then s.setTaps n 0 64 0 else s.setTaps n 4 52 8, 1, 1, 1)
  else
    let pre := respond (s.raw (Rg.LANE_TAPS_PRE n)) f.preReq (s.lane n).stsPre (s.lane n).fixed fun v =>
      tapsOk v (s.raw (Rg.LANE_TAPS_MAIN n)) (s.raw (Rg.LANE_TAPS_POST n))
    let main := respond (s.raw (Rg.LANE_TAPS_MAIN n)) f.mainReq (s.lane n).stsMain (s.lane n).fixed fun v =>
      tapsOk pre.1 v (s.raw (Rg.LANE_TAPS_POST n))
    let post := respond (s.raw (Rg.LANE_TAPS_POST n)) f.postReq (s.lane n).stsPost (s.lane n).fixed fun v =>
      tapsOk pre.1 main.1 v
    (s.setTaps n pre.1 main.1 post.1, pre.2, main.2, post.2)

/-- What a lane holds after a frame: its statuses, how often RX_READY was seen, its next requests. -/
def LaneX.framed (x old : LaneX) (f : TrnFrame) (k : Nat) (sts : Nat × Nat × Nat) : LaneX :=
  { x with stsPre := sts.1, stsMain := sts.2.1, stsPost := sts.2.2
           rxSeen := min (if f.rxReady then old.rxSeen + 1 else 0) 3
           reqPre := askTap x (nextReq x.reqPre f.preSts) f.preSts k
           reqMain := askTap x (nextReq x.reqMain f.mainSts) f.mainSts (k / 3)
           reqPost := askTap x (nextReq x.reqPost f.postSts) f.postSts (k / 9) }

/-- The state behind a frame that names its lane and rate. -/
def State.trnDone (s : State) (n : Nat) (f : TrnFrame) : State :=
  (s.trnTaps n f).1.freeNat.2.mapLane n fun x => x.framed (s.lane n) f (s.trnTaps n f).1.freeNat.1 (s.trnTaps n f).2

theorem exec_trnFrameReceived_own {l : LaneNo} {b : List Byte} {s : State} (hst : s.laneState l.val = 2)
    (hlock : s.on (Rg.LANE_STAT_BLOCK_LOCK l.val) = true) (hcrc : (trnOf b).crcOk = true) (hid : (trnOf b).idLane = l.val)
    (hrate : (trnOf b).idRate = s.f Rg.LNK_CFG_RATE) : exec (.trnFrameReceived l b) s = .next (s.trnDone l.val (trnOf b)) := by
  refine (if_pos ⟨hst, hlock, hcrc⟩).trans ((if_neg ?_).trans rfl)
  simp [hid, hrate]

theorem State.setTaps_raw (s : State) (n : Nat) {pre main post : Nat} (h : tapsOk pre main post = true) :
    (s.setTaps n pre main post).raw (Rg.LANE_TAPS_PRE n) = pre ∧ (s.setTaps n pre main post).raw (Rg.LANE_TAPS_MAIN n) = main ∧
    (s.setTaps n pre main post).raw (Rg.LANE_TAPS_POST n) = post := by
  simp only [tapsOk, Bool.and_eq_true, decide_eq_true_eq] at h
  simp [State.setTaps, State.raw_setF_apart, State.raw_setF, Rg.LANE_TAPS_PRE, Rg.LANE_TAPS_MAIN, Rg.LANE_TAPS_POST]
  omega

theorem tapStep_ok {ok : Nat → Bool} {v : Nat} (h : ok v = true) (req : Nat) : ok (tapStep v req ok).1 = true := by
  unfold tapStep
  split
  · split
    · assumption
    · exact h
  · split
    · split
      · rename_i hdown
        exact hdown.2
      · exact h
    · exact h

/-- A tap after a request stays within what was asked of it. -/
theorem respond_ok {ok : Nat → Bool} {v : Nat} (h : ok v = true) (req sts : Nat) (fixed : Bool) :
    ok (respond v req sts fixed ok).1 = true := by
  unfold respond
  split
  · exact h
  · split
    · exact h
    · split
      · exact h
      · exact tapStep_ok h req

/-- The ranges of Table 17 and the constraints of R63 on a lane's taps. -/
def State.TapsOk (s : State) (n : Nat) : Prop :=
  tapsOk (s.raw (Rg.LANE_TAPS_PRE n)) (s.raw (Rg.LANE_TAPS_MAIN n)) (s.raw (Rg.LANE_TAPS_POST n)) = true

theorem State.setTaps_ok (s : State) (n : Nat) {pre main post : Nat} (h : tapsOk pre main post = true) :
    (s.setTaps n pre main post).TapsOk n := by
  obtain ⟨hpre, hmain, hpost⟩ := s.setTaps_raw n h
  unfold State.TapsOk
  rw [hpre, hmain, hpost, h]

/-- Requests are judged one after the other, each on the taps as the one before left them. -/
theorem State.trnTaps_ok {s : State} {n : Nat} (h : s.TapsOk n) (f : TrnFrame) : (s.trnTaps n f).1.TapsOk n := by
  unfold State.trnTaps
  split
  · dsimp only
    split
    · exact s.setTaps_ok n (by decide)
    · exact s.setTaps_ok n (by decide)
  · have hpre := respond_ok (ok := fun v => tapsOk v (s.raw (Rg.LANE_TAPS_MAIN n)) (s.raw (Rg.LANE_TAPS_POST n))) h f.preReq
      (s.lane n).stsPre (s.lane n).fixed
    have hmain := respond_ok (ok := fun v => tapsOk _ v (s.raw (Rg.LANE_TAPS_POST n))) hpre f.mainReq (s.lane n).stsMain
      (s.lane n).fixed
    exact s.setTaps_ok n (respond_ok (ok := fun v => tapsOk _ _ v) hmain f.postReq (s.lane n).stsPost (s.lane n).fixed)

theorem trnFrameReceived_preset {l : LaneNo} {b : List Byte} {s : State} (hst : s.laneState l.val = 2)
    (hlock : s.on (Rg.LANE_STAT_BLOCK_LOCK l.val) = true) (hcrc : (trnOf b).crcOk = true) (hid : (trnOf b).idLane = l.val)
    (hrate : (trnOf b).idRate = s.f Rg.LNK_CFG_RATE) (hfix : (s.lane l.val).fixed = false) (hpre : (trnOf b).preset = true) :
    Runs (.trnFrameReceived l b) s fun t =>
      t.raw (Rg.LANE_TAPS_PRE l.val) = 0 ∧ t.raw (Rg.LANE_TAPS_MAIN l.val) = 64 ∧ t.raw (Rg.LANE_TAPS_POST l.val) = 0 ∧
      (t.lane l.val).stsPre = 1 ∧ (t.lane l.val).stsMain = 1 ∧ (t.lane l.val).stsPost = 1 ∧
      Only [.lanes, .free] [(Rg.LANE_TAPS_PRE l.val).off] s t := by
  have htaps : s.trnTaps l.val (trnOf b) = (s.setTaps l.val 0 64 0, 1, 1, 1) := by simp [State.trnTaps, hfix, hpre]
  obtain ⟨h0, h64, hpost⟩ := s.setTaps_raw l.val (show tapsOk 0 64 0 = true by decide)
  refine ⟨_, exec_trnFrameReceived_own hst hlock hcrc hid hrate, ?_⟩
  unfold State.trnDone
  rw [htaps]
  simp only [State.mapLane_raw, State.freeNat_raw, State.lane_mapLane_same]
  exact ⟨h0, h64, hpost, rfl, rfl, rfl, (((only_setTaps s l.val 0 64 0).mono (by decide) (List.Subset.refl _)).trans
    ((only_freeNat _).mono (by decide) (List.nil_subset _))).trans ((only_mapLane _ _ _).mono (by decide) (List.nil_subset _))⟩

/-- Settles O3: only a frame that names its lane and rate moves the taps, and each request is judged by the constraints. -/
theorem tapConstraintsKept : Obligations.TapConstraintsKept := by
  unfold Obligations.TapConstraintsKept
  intro l b s hok hst hid hrate
  by_cases hc : s.on (Rg.LANE_STAT_BLOCK_LOCK l.val) = true ∧ (trnOf b).crcOk = true
  · exact ⟨_, exec_trnFrameReceived_own hst hc.1 hc.2 hid hrate, State.trnTaps_ok hok (trnOf b)⟩
  · exact ⟨s, if_neg fun h => hc h.2, hok⟩

/-! ## The eye and the end of training (R64) -/

theorem rxReadyReached_eye {l : LaneNo} {w h : Nat} {s : State} (hst : s.laneState l.val = 2) (hw : w < 128) (hh : h < 256) :
    Runs (.rxReadyReached l w h) s fun t =>
      t.raw (Rg.LANE_TAPS_EYE_W l.val) = w ∧ t.raw (Rg.LANE_TAPS_EYE_H l.val) = h ∧
      (10 ≤ h → 39 ≤ w → (t.lane l.val).rxReady = true ∧ (t.lane l.val).reqPre = 0 ∧ (t.lane l.val).reqMain = 0 ∧
        (t.lane l.val).reqPost = 0) ∧
      (h < 10 ∨ w < 39 → t.lane l.val = s.lane l.val) ∧ Only [.lanes] [(Rg.LANE_TAPS_PRE l.val).off] s t := by
  have hexec : exec (.rxReadyReached l w h) s = _ := if_pos hst
  generalize hu : (s.setF (Rg.LANE_TAPS_EYE_W l.val) w).setF (Rg.LANE_TAPS_EYE_H l.val) h = u at hexec
  have hW : u.raw (Rg.LANE_TAPS_EYE_W l.val) = w := by
    rw [← hu, State.raw_setF_apart _ _ _ _ (.inr (.inr (Nat.le_of_ble_eq_true rfl))), 
      State.raw_setF_of_lt _ _ 7 (by omega)]
  have hH : u.raw (Rg.LANE_TAPS_EYE_H l.val) = h := by
    rw [← hu, State.raw_setF_of_lt _ _ 8 (by omega)]
  have hregs : Only [] [(Rg.LANE_TAPS_PRE l.val).off] s u := by
    rw [← hu]
    exact (only_setF_at s (Rg.LANE_TAPS_EYE_W l.val) w rfl).trans (only_setF_at _ (Rg.LANE_TAPS_EYE_H l.val) h rfl)
  have hlane : u.lane l.val = s.lane l.val := State.lane_congr (hregs.1 .lanes (by decide)) _
  have honly : Only [.lanes] [(Rg.LANE_TAPS_PRE l.val).off] s u := hregs.mono (List.nil_subset _) (List.Subset.refl _)
  by_cases hgood : 10 ≤ h ∧ 39 ≤ w
  · refine ⟨_, hexec.trans (if_pos hgood), hW, hH, fun _ _ => ?_, fun hbad => by omega,
      honly.trans ((only_mapLane _ _ _).mono (List.Subset.refl _) (List.nil_subset _))⟩
    rw [State.lane_mapLane_same]
    exact ⟨rfl, rfl, rfl, rfl⟩
  · exact ⟨u, hexec.trans (if_neg hgood), hW, hH, fun h1 h2 => absurd ⟨h1, h2⟩ hgood, fun _ => hlane, honly⟩

theorem only_sendFrame (s : State) (n : Nat) : Only [.lanes, .log] [] s (s.sendFrame n) :=
  (only_sendBlocks s (n / 5) _).then (only_mapLane _ n _)

/-- A frame sent after R64 step 5's condition counts among the eight further ones. -/
theorem State.sendFrame_more {s : State} {n : Nat} (h : (s.lane n).met = true) :
    ((s.sendFrame n).lane n).met = true ∧ ((s.sendFrame n).lane n).more = (s.lane n).more + 1 := by
  unfold State.sendFrame
  dsimp only
  rw [State.lane_mapLane_same, State.lane_congr ((only_sendBlocks _ _ _).1 .lanes (by decide))]
  simp [LaneX.met] at h ⊢
  exact h

theorem sendFrames_spec (n k : Nat) {s : State} (h : (s.lane n).met = true) :
    ((State.sendFrames n k s).lane n).more = (s.lane n).more + k ∧ Only [.lanes, .log] [] s (State.sendFrames n k s) := by
  induction k generalizing s with
  | zero => exact ⟨rfl, Only.refl _ _ _⟩
  | succ k ih =>
    obtain ⟨hmet, hmore⟩ := State.sendFrame_more h
    obtain ⟨hk, honly⟩ := ih hmet
    exact ⟨by rw [State.sendFrames, hk, hmore]; omega, (only_sendFrame s n).trans honly⟩

theorem trainComplete_align {l : LaneNo} {s : State} (hst : s.laneState l.val = 2) (hready : (s.lane l.val).rxReady = true)
    (hseen : 3 ≤ (s.lane l.val).rxSeen) : Runs (.trainComplete l) s fun t =>
      t.laneState l.val = 3 ∧ 8 ≤ (t.lane l.val).more ∧ (t.link (l.val / 5)).aligned = true ∧
      Only [.lanes, .links, .log] [(Rg.LANE_STAT_STATE l.val).off] s t := by
  have hmet : (s.lane l.val).met = true := by simp [LaneX.met, hready, hseen]
  obtain ⟨hmore, honly⟩ := sendFrames_spec l.val (8 - (s.lane l.val).more) hmet
  refine ⟨_, if_pos ⟨hst, hmet⟩, ?_, ?_, ?_, ?_⟩
  · exact State.laneState_setLane _ _ (by decide)
  · change 8 ≤ ((State.sendFrames l.val (8 - (s.lane l.val).more) s).lane l.val).more
    omega
  · rw [State.link_mapLink_same]
  · exact ((honly.mono (by decide) (List.nil_subset _)).trans ((only_setF _ _ _).mono (by decide) (List.Subset.refl _))).trans
      ((only_mapLink _ _ _).mono (by decide) (List.nil_subset _))

end Sys2Proof.Machine
end

section
/-! Failed attempts, the marker lock, SPARE_READY and the next attempt of a lane (R64, R67 to R69, R71, R74), then the statement
on training. -/

namespace Sys2Proof.Machine

/-! ## What the roles and positions depend on -/

theorem State.f_of_raw {s t : State} {x : Fld} (h : t.raw x = s.raw x) : t.f x = s.f x := by simp only [State.f, h]

/-- A lane's role is set up in SU_LNK_CFG (R46). -/
theorem State.laneRole_congr {s t : State} (h : t.reg Rg.LNK_CFG_RATE.off = s.reg Rg.LNK_CFG_RATE.off) (n : Nat) :
    t.laneRole n = s.laneRole n := by
  have cfg {x : Fld} (hx : x.off = Rg.LNK_CFG_RATE.off) : t.f x = s.f x := State.f_of_raw (State.raw_of_reg (hx ▸ h))
  have hact (k : Nat) : t.actCount k = s.actCount k := cfg (by split <;> rfl)
  have hspare (k : Nat) : t.keepsSpare k = s.keepsSpare k := congrArg (· == 1) (cfg (by split <;> rfl))
  have hcold : t.on Rg.LNK_CFG_COLD_SPARE = s.on Rg.LNK_CFG_COLD_SPARE := congrArg (· == 1) (cfg rfl)
  simp only [State.laneRole, hact, hspare, hcold]

/-- A vacant position is a matter of the lanes' states and positions and of the relays under way. -/
theorem State.vacant_congr {s t : State} (hst : ∀ n, t.laneState n = s.laneState n)
    (hpos : ∀ n, t.raw (Rg.LANE_STAT_POS n) = s.raw (Rg.LANE_STAT_POS n)) (hl : ∀ n, t.lane n = s.lane n)
    (hk : ∀ h, t.link h = s.link h) (h p : Nat) : t.vacant h p = s.vacant h p := by
  simp only [State.vacant, State.empty, hst, hpos, hl, hk]

theorem cfgOff_ne (n : Nat) : Rg.LNK_CFG_RATE.off ≠ (Rg.LANE_STAT_STATE n).off := by
  change 0x1a80 ≠ 0x1808 + 0x40 * n
  omega

/-! ## Failed attempts (R68, R74) -/

/-- A lane whose first attempt fails, before a cold spare trains. -/
def State.failed (s : State) (n : Nat) : State :=
  ((s.parkLane n 6).setF (Rg.LANE_STAT_TRIES_LEFT n) ((s.parkLane n 6).f Rg.LNK_CFG_TRAIN_TRIES)).mapLane n fun x =>
    { x with rxReady := false, fromFault := false }

theorem State.trainTries_lt (s : State) : s.f Rg.LNK_CFG_TRAIN_TRIES < 2 ^ 3 := by
  unfold State.f
  split
  · exact s.raw_lt _
  · decide

theorem State.parkLane_trainTries (s : State) (n st : Nat) :
    (s.parkLane n st).f Rg.LNK_CFG_TRAIN_TRIES = s.f Rg.LNK_CFG_TRAIN_TRIES :=
  State.f_of_raw (State.parkLane_raw _ _ _ (.inl (cfgOff_ne n)))

theorem State.failed_triesLeft (s : State) (n : Nat) :
    (s.failed n).raw (Rg.LANE_STAT_TRIES_LEFT n) = s.f Rg.LNK_CFG_TRAIN_TRIES := by
  rw [State.failed, State.mapLane_raw, State.parkLane_trainTries, State.raw_setF_of_lt _ _ 3 s.trainTries_lt]

theorem State.failed_laneState (s : State) (n : Nat) : (s.failed n).laneState n = 6 := by
  rw [State.failed, State.mapLane_laneState, State.laneState_setF _ _ _ _ (Nat.le_of_ble_eq_true rfl),
    State.parkLane_laneState _ _ (by decide)]

theorem only_failed (s : State) (n : Nat) : Only [.lanes] [(Rg.LANE_STAT_STATE n).off] s (s.failed n) :=
  (((only_parkLane s n 6).trans (only_setF_at _ (Rg.LANE_STAT_TRIES_LEFT n) _ rfl)).mono (List.nil_subset _)
    (List.Subset.refl _)).trans ((only_mapLane _ _ _).mono (List.Subset.refl _) (List.nil_subset _))

/-- A first attempt that fails leaves attempts to make where TRAIN_TRIES says so. -/
theorem State.attemptFails_first {s : State} {n : Nat} (hff : (s.lane n).fromFault = false)
    (ht : s.f Rg.LNK_CFG_TRAIN_TRIES ≠ 0) : s.attemptFails n = (s.failed n).trainCold (n / 5) := by
  have hleft : (s.failed n).raw (Rg.LANE_STAT_TRIES_LEFT n) ≠ 0 := by rwa [State.failed_triesLeft]
  unfold State.attemptFails
  dsimp only
  rw [hff, if_neg Bool.false_ne_true, ← State.parkLane, ← State.failed, if_neg hleft]

theorem State.attemptFails_spec {s : State} {n : Nat} (hff : (s.lane n).fromFault = false)
    (ht : s.f Rg.LNK_CFG_TRAIN_TRIES ≠ 0) : (s.attemptFails n).laneState n = 6 ∧
    (s.attemptFails n).raw (Rg.LANE_STAT_TRIES_LEFT n) = s.f Rg.LNK_CFG_TRAIN_TRIES ∧
    (s.attemptFails n).reg (Rg.LANE_EVT_LOS n).off = s.reg (Rg.LANE_EVT_LOS n).off := by
  rw [State.attemptFails_first hff ht]
  have hstate := s.failed_laneState n
  have kept : KeepsLane n (s.failed n) ((s.failed n).trainCold (n / 5)) := keepsLane_trainCold (by omega) _
  exact ⟨kept.laneState.trans hstate, (kept.raw (Rg.LANE_STAT_TRIES_LEFT n) (statOff_lane n)).trans (s.failed_triesLeft n),
    (kept.2 _ (evtOff_lane n)).trans ((only_failed s n).2 _ (evtOff_not_stat n))⟩

theorem trainTimeout_fails {l : LaneNo} {s : State} (hst : s.laneState l.val = 2) (hff : (s.lane l.val).fromFault = false)
    (ht : s.f Rg.LNK_CFG_TRAIN_TRIES ≠ 0) : Runs (.trainTimeout l) s fun t =>
      t.laneState l.val = 6 ∧ t.raw (Rg.LANE_EVT_TRAIN_FAIL l.val) = 1 ∧
      t.raw (Rg.LANE_STAT_TRIES_LEFT l.val) = s.f Rg.LNK_CFG_TRAIN_TRIES := by
  generalize hu : s.setF (Rg.LANE_EVT_TRAIN_FAIL l.val) 1 = u
  have htries : u.f Rg.LNK_CFG_TRAIN_TRIES = s.f Rg.LNK_CFG_TRAIN_TRIES := by
    rw [← hu]
    exact State.f_of_raw (State.raw_setF_off _ _ _ _ (by change 0x1810 + 0x40 * l.val ≠ 0x1a80; omega))
  have hevt : u.raw (Rg.LANE_EVT_TRAIN_FAIL l.val) = 1 := hu ▸ State.raw_setF_of_lt _ _ 1 (by decide)
  have hulane : u.lane l.val = s.lane l.val := by rw [← hu, State.setF_lane]
  obtain ⟨hstate, hleft, hkept⟩ := State.attemptFails_spec (s := u) (n := l.val) (by rwa [hulane]) (by rwa [htries])
  refine ⟨u.attemptFails l.val, by rw [← hu]; exact if_pos hst, hstate, ?_, hleft.trans htries⟩
  exact (State.raw_of_reg (x := Rg.LANE_EVT_TRAIN_FAIL l.val) hkept).trans hevt

theorem alignTimeout_fails {l : LaneNo} {s : State} (hst : s.laneState l.val = 3)
    (hlock : s.on (Rg.LANE_STAT_AM_LOCK l.val) = false) (hff : (s.lane l.val).fromFault = false)
    (ht : s.f Rg.LNK_CFG_TRAIN_TRIES ≠ 0) : Runs (.alignTimeout l) s fun t => t.laneState l.val = 6 :=
  ⟨s.attemptFails l.val, if_pos ⟨hst, .inl (by rw [hlock]; rfl)⟩, (State.attemptFails_spec hff ht).1⟩

/-! ## The marker lock (R56, R68) -/

/-- AM lock on a lane: its status alone changes, and neither roles nor vacant positions. -/
theorem State.amLocked_spec (s : State) (n : Nat) :
    (∀ m, (s.setF (Rg.LANE_STAT_AM_LOCK n) 1).laneState m = s.laneState m) ∧
    (s.setF (Rg.LANE_STAT_AM_LOCK n) 1).raw (Rg.LANE_STAT_AM_LOCK n) = 1 ∧
    (s.setF (Rg.LANE_STAT_AM_LOCK n) 1).laneRole n = s.laneRole n ∧
    ∀ h p, (s.setF (Rg.LANE_STAT_AM_LOCK n) 1).vacant h p = s.vacant h p := by
  have hst (m : Nat) : (s.setF (Rg.LANE_STAT_AM_LOCK n) 1).laneState m = s.laneState m :=
    State.laneState_setF _ _ _ _ (Nat.le_of_ble_eq_true rfl)
  refine ⟨hst, State.raw_setF_of_lt _ _ 1 (by decide), State.laneRole_congr ?_ n, State.vacant_congr hst (fun m => ?_)
    (fun m => State.setF_lane _ _ _ _) fun h => State.setF_link _ _ _ _⟩
  · exact (only_setF s (Rg.LANE_STAT_AM_LOCK n) 1).2 _ fun h => cfgOff_ne n (List.mem_singleton.mp h)
  · exact State.raw_setF_apart _ _ _ _ (.inr (.inr (Nat.le_of_ble_eq_true rfl)))

theorem alignAmLock_checks {l : LaneNo} {s : State} (hst : s.laneState l.val = 3) (hff : (s.lane l.val).fromFault = true) :
    Runs (.alignAmLock l) s fun t =>
      t.raw (Rg.LANE_STAT_AM_LOCK l.val) = 1 ∧ t.laneState l.val = 3 ∧ (t.lane l.val).errSeen = false ∧
      Only [.lanes] [(Rg.LANE_STAT_STATE l.val).off] s t := by
  obtain ⟨hstate, hlock, -, -⟩ := s.amLocked_spec l.val
  refine ⟨_, (if_pos hst).trans (if_pos (by rw [State.setF_lane, hff])), ?_⟩
  simp only [State.mapLane_raw, State.mapLane_laneState, State.lane_mapLane_same]
  refine ⟨hlock, (hstate _).trans hst, trivial, ?_⟩
  exact ((only_setF_at s (Rg.LANE_STAT_AM_LOCK l.val) 1 rfl).mono (List.nil_subset _) (List.Subset.refl _)).trans
    ((only_mapLane _ _ _).mono (List.Subset.refl _) (List.nil_subset _))

/-- A lane in service at a position, with RELAY_IN set. -/
def State.placed (s : State) (n p : Nat) : State := ((s.setLane n 5).setPos n p).setF (Rg.LANE_EVT_RELAY_IN n) 1

theorem State.placed_spec (s : State) (n : Nat) {p : Nat} (hp : p < 16) : (s.placed n p).laneState n = 5 ∧
    (s.placed n p).raw (Rg.LANE_STAT_POS n) = p ∧ (s.placed n p).raw (Rg.LANE_EVT_RELAY_IN n) = 1 := by
  refine ⟨?_, ?_, State.raw_setF_of_lt _ _ 1 (by decide)⟩
  · rw [State.placed, State.laneState_setF_off _ (Rg.LANE_EVT_RELAY_IN n) _ _ (evtOff_mod n),
      State.laneState_setPos, State.laneState_setLane _ _ (by decide)]
  · rw [State.placed, State.pos_setF_off _ (Rg.LANE_EVT_RELAY_IN n) _ _ (evtOff_mod n), State.pos_setPos _ _ hp]

theorem alignAmLock_active {l : LaneNo} {s : State} (hst : s.laneState l.val = 3) (hff : (s.lane l.val).fromFault = false)
    (hrole : s.laneRole l.val ≤ 3) (hvac : s.vacant (l.val / 5) (s.laneRole l.val) = true) : Runs (.alignAmLock l) s fun t =>
      t.laneState l.val = 5 ∧ t.raw (Rg.LANE_STAT_POS l.val) = s.laneRole l.val ∧ t.raw (Rg.LANE_EVT_RELAY_IN l.val) = 1 := by
  obtain ⟨-, -, hr, hv⟩ := s.amLocked_spec l.val
  have hexec : exec (.alignAmLock l) s = .next
      (((s.setF (Rg.LANE_STAT_AM_LOCK l.val) 1).placed l.val (s.laneRole l.val)).laneIn (l.val / 5)) := by
    refine (if_pos hst).trans ((if_neg ?_).trans ((if_pos ?_).trans ?_))
    · rw [State.setF_lane, hff]
      exact Bool.false_ne_true
    · rw [hr, hv]
      exact ⟨hrole, hvac⟩
    · rw [hr]
      rfl
  obtain ⟨hstate, hpos, hevt⟩ := (s.setF (Rg.LANE_STAT_AM_LOCK l.val) 1).placed_spec l.val (show s.laneRole l.val < 16 by omega)
  have kept := KeepsLane.of_apart (only_laneIn ((s.setF (Rg.LANE_STAT_AM_LOCK l.val) 1).placed l.val (s.laneRole l.val))
    (l.val / 5)) l.isLt
  exact ⟨_, hexec, kept.laneState.trans hstate, kept.pos.trans hpos,
    (kept.raw (Rg.LANE_EVT_RELAY_IN l.val) (evtOff_lane l.val)).trans hevt⟩

/-! ## SPARE_READY and the next attempt (R67, R74) -/

/-- A lane that is SPARE_READY, before it fills a vacant position. -/
def State.spared (s : State) (n : Nat) : State := ((s.setLane n 4).setPos n 0xE).mapLane n fun x => { x with fromFault := false }

/-- A spare that fills a vacant position at once is still SPARE_READY until its relay is answered. -/
theorem State.becomeSpare_spec (s : State) (n : Nat) :
    (s.becomeSpare n).laneState n = 4 ∧ ((s.becomeSpare n).lane n).fromFault = false := by
  have hstate : (s.spared n).laneState n = 4 := by
    rw [State.spared, State.mapLane_laneState, State.laneState_setPos, State.laneState_setLane _ _ (by decide)]
  have hlane : ((s.spared n).lane n).fromFault = false := by rw [State.spared, State.lane_mapLane_same]
  have relayed (p : Nat) : ((s.spared n).startRelay (n / 5) 0xF n p 0).laneState n = 4 ∧
      (((s.spared n).startRelay (n / 5) 0xF n p 0).lane n).fromFault = false := by
    have sent := only_sendLink ((s.spared n).setPos n p) (n / 5) 2 0xF n p 0
    refine ⟨?_, ?_⟩
    · rw [State.startRelay, State.laneState, sent.2.raw _ List.not_mem_nil, ← State.laneState, State.laneState_setPos, hstate]
    · rw [State.startRelay, State.lane_congr (sent.1 .lanes (by decide)), State.setPos, State.setF_lane, hlane]
  unfold State.becomeSpare
  dsimp only
  rw [← State.spared]
  split
  · split
    · exact relayed _
    · exact ⟨hstate, hlane⟩
  · exact ⟨hstate, hlane⟩

theorem spareCheckComplete_ready {l : LaneNo} {s : State} (hst : s.laneState l.val = 3) (hff : (s.lane l.val).fromFault = true)
    (hlock : s.on (Rg.LANE_STAT_AM_LOCK l.val) = true) (herr : (s.lane l.val).errSeen = false) :
    Runs (.spareCheckComplete l) s fun t => t.laneState l.val = 4 ∧ (t.lane l.val).fromFault = false :=
  ⟨_, if_pos ⟨hst, hff, hlock, by rw [herr]; rfl⟩, s.becomeSpare_spec l.val⟩

/-- An attempt spent: TRIES_LEFT one less. -/
def State.spent (s : State) (n : Nat) : State :=
  s.setF (Rg.LANE_STAT_TRIES_LEFT n) (s.raw (Rg.LANE_STAT_TRIES_LEFT n) - 1)

theorem only_spent (s : State) (n : Nat) : Only [] [(Rg.LANE_STAT_STATE n).off] s (s.spent n) :=
  only_setF_at s (Rg.LANE_STAT_TRIES_LEFT n) _ rfl

theorem State.spent_laneState (s : State) (n m : Nat) : (s.spent n).laneState m = s.laneState m :=
  State.laneState_setF s (Rg.LANE_STAT_TRIES_LEFT n) _ m (Nat.le_of_ble_eq_true rfl)

/-- A lane that spends an attempt and trains, whatever else happens between that leaves its registers. -/
theorem State.spent_enterTrain {s u : State} {n : Nat} (hleft : s.raw (Rg.LANE_STAT_TRIES_LEFT n) ≠ 0) {l : List Part}
    (hu : Only l [] (s.spent n) u) : (u.enterTrain n true).laneState n = 2 ∧
      (u.enterTrain n true).raw (Rg.LANE_STAT_TRIES_LEFT n) + 1 = s.raw (Rg.LANE_STAT_TRIES_LEFT n) ∧
      ((u.enterTrain n true).lane n).fromFault = true := by
  have hlt := s.raw_lt (Rg.LANE_STAT_TRIES_LEFT n)
  have hspent : (s.spent n).raw (Rg.LANE_STAT_TRIES_LEFT n) = s.raw (Rg.LANE_STAT_TRIES_LEFT n) - 1 :=
    State.raw_setF_of_lt _ _ 3 (Nat.lt_of_le_of_lt (Nat.sub_le _ _) hlt)
  refine ⟨State.enterTrain_laneState _ _ _, ?_, (u.enterTrain_lane n true).1⟩
  rw [State.enterTrain_triesLeft, hu.2.raw _ List.not_mem_nil, hspent]
  omega

theorem State.attempt_left {s : State} {n : Nat} (hleft : s.raw (Rg.LANE_STAT_TRIES_LEFT n) ≠ 0) (arg : Nat) :
    s.attempt n arg = ((s.spent n).sendLink (n / 5) 5 n 0xF 0 (s.lane n).reason).enterTrain n true := by
  rw [State.attempt]
  dsimp only
  rw [if_neg hleft, State.setF_lane, ← State.spent]

theorem faultRetryTimer_trains {l : LaneNo} {s : State} (hst : s.laneState l.val = 6)
    (hleft : s.raw (Rg.LANE_STAT_TRIES_LEFT l.val) ≠ 0) (hcore : s.boot.core = false) : Runs (.faultRetryTimer l) s fun t =>
      t.laneState l.val = 2 ∧ t.raw (Rg.LANE_STAT_TRIES_LEFT l.val) + 1 = s.raw (Rg.LANE_STAT_TRIES_LEFT l.val) ∧
      (t.lane l.val).fromFault = true ∧
      Sends s t (l.val / 5) (linkOn s (l.val / 5) 5 (s.link (l.val / 5)).nextTag l.val 0xF 0 (s.lane l.val).reason) := by
  have hexec : exec (.faultRetryTimer l) s = .next (s.attempt l.val 7) := if_pos hst
  obtain ⟨hstate, htries, hff⟩ := State.spent_enterTrain hleft
    (only_sendLink (s.spent l.val) (l.val / 5) 5 l.val 0xF 0 (s.lane l.val).reason)
  have htag : (s.spent l.val).link (l.val / 5) = s.link (l.val / 5) := State.setF_link _ _ _ _
  refine ⟨_, hexec, ?_⟩
  rw [State.attempt_left hleft]
  refine ⟨hstate, htries, hff, ?_⟩
  have before := (only_spent s l.val).mono (List.nil_subset [Part.links]) (List.Subset.refl _)
  refine sends_putLink_of (before.trans ((only_waiting _ (l.val / 5) 5 l.val 0xF 0 (s.lane l.val).reason).mono
    (List.Subset.refl _) (List.nil_subset _))) hcore (fun n => ?_) ?_
  · rw [State.waiting, State.mapLink_laneState, State.spent_laneState]
  · rw [((only_enterTrain _ l.val true).1 .log (by decide)).2, State.sendLink_eq, htag]

theorem resumeTimeout_trains {l : LaneNo} {s : State} (hr : (s.lane l.val).resuming = true) :
    Runs (.resumeTimeout l) s fun t => t.laneState l.val = 2 ∧ (t.lane l.val).resuming = false :=
  ⟨_, if_pos hr, s.enterTrain_laneState _ _, (s.enterTrain_lane _ _).2⟩

/-- Settles O2: clause by clause, from what a lane's way through TRAIN, ALIGN and FAULT leaves in its registers and record. -/
theorem laneTraining : Obligations.LaneTraining := by
  unfold Obligations.LaneTraining
  exact ⟨fun l b s => trnFrameReceived_preset, fun l w h s => rxReadyReached_eye, fun l s => trainComplete_align,
    fun l s => trainTimeout_fails, fun l s => alignAmLock_checks, fun l s => alignAmLock_active, fun l s => alignTimeout_fails,
    fun l s => spareCheckComplete_ready, fun l s => faultRetryTimer_trains, fun l s => resumeTimeout_trains⟩

end Sys2Proof.Machine
end

section
/-! Hard faults, markers and marginal lanes (R49, R51, R54 to R57, R70 to R73), then the statement on them. -/

namespace Sys2Proof.Machine

/-! ## Hard faults (R70, R71) -/

/-- A field is cleared on a condition. -/
def State.clearIf (s : State) (c : Prop) [Decidable c] (x : Fld) : State := if c then s.setF x 0 else s

theorem State.raw_clearIf_apart (s : State) (c : Prop) [Decidable c] (x y : Fld)
    (h : x.off ≠ y.off ∨ x.lo + x.w ≤ y.lo ∨ y.lo + y.w ≤ x.lo) : (s.clearIf c x).raw y = s.raw y := by
  unfold State.clearIf
  split
  · exact State.raw_setF_apart _ _ _ _ h
  · rfl

theorem only_clearIf (s : State) (c : Prop) [Decidable c] (x : Fld) {o : Nat} (h : x.off = o) : Only [] [o] s (s.clearIf c x) :=
  Only.ite _ (fun _ => only_setF_at s x 0 h) fun _ => Only.refl _ _ _

/-- A hard fault as flagged: its event, and the status it invalidates. -/
def State.flagFault (s : State) (n k : Nat) : State :=
  ((((s.setF ⟨(Rg.LANE_EVT_LOS n).off, k, 1, 0, 1, 0⟩ 1).setF (Rg.LANE_STAT_AM_LOCK n) 0).clearIf
    (k ≤ 2) (Rg.LANE_STAT_BLOCK_LOCK n)).clearIf (k ≤ 1) (Rg.LANE_STAT_CDR_LOCK n)).clearIf (k = 0) (Rg.LANE_STAT_SIG_DET n)

theorem only_flagFault (s : State) (n k : Nat) :
    Only [] [(Rg.LANE_STAT_STATE n).off, (Rg.LANE_EVT_LOS n).off] s (s.flagFault n k) := by
  have evt := only_setF s ⟨(Rg.LANE_EVT_LOS n).off, k, 1, 0, 1, 0⟩ 1
  have stat := (((only_setF_at (s.setF ⟨(Rg.LANE_EVT_LOS n).off, k, 1, 0, 1, 0⟩ 1) (Rg.LANE_STAT_AM_LOCK n) 0 rfl).trans
    (only_clearIf _ (k ≤ 2) (Rg.LANE_STAT_BLOCK_LOCK n) rfl)).trans
    (only_clearIf _ (k ≤ 1) (Rg.LANE_STAT_CDR_LOCK n) rfl)).trans (only_clearIf _ (k = 0) (Rg.LANE_STAT_SIG_DET n) rfl)
  exact (evt.mono (List.Subset.refl _) (by simp)).trans
    (stat.mono (List.Subset.refl _) (show [(Rg.LANE_STAT_STATE n).off] ⊆ _ by simp))

/-- Fields of the status below or at AM_LOCK other than those a fault may clear keep their values. -/
theorem State.flagFault_raw (s : State) (n k : Nat) {y : Fld} (hy : y.off = (Rg.LANE_STAT_STATE n).off) (hw : y.lo + y.w ≤ 8) :
    (s.flagFault n k).raw y = s.raw y := by
  have above {x : Fld} (hx : Nat.ble 8 x.lo = true) : y.lo + y.w ≤ x.lo := Nat.le_trans hw (Nat.le_of_ble_eq_true hx)
  unfold State.flagFault
  rw [State.raw_clearIf_apart _ _ _ _ (.inr (.inr (above rfl))), State.raw_clearIf_apart _ _ _ _ (.inr (.inr (above rfl))),
    State.raw_clearIf_apart _ _ _ _ (.inr (.inr (above rfl))), State.raw_setF_apart _ _ _ _ (.inr (.inr (above rfl))),
    State.raw_setF_off s ⟨(Rg.LANE_EVT_LOS n).off, k, 1, 0, 1, 0⟩ y 1 fun h =>
      evtOff_not_stat n (List.mem_singleton.mpr (h.trans hy))]

theorem State.flagFault_laneState (s : State) (n k : Nat) : (s.flagFault n k).laneState n = s.laneState n :=
  s.flagFault_raw n k rfl (Nat.le_of_ble_eq_true rfl)

/-- What a hard fault clears, and its event. -/
theorem State.flagFault_spec (s : State) (n : Nat) {k : Nat} (hk : k < 4) :
    (s.flagFault n k).raw (Rg.LANE_STAT_AM_LOCK n) = 0 ∧
    (s.flagFault n k).raw ⟨(Rg.LANE_EVT_LOS n).off, k, 1, 0, 1, 0⟩ = 1 ∧
    (k = 0 → (s.flagFault n k).raw (Rg.LANE_STAT_SIG_DET n) = 0) := by
  have hoff : (Rg.LANE_STAT_STATE n).off ≠ (⟨(Rg.LANE_EVT_LOS n).off, k, 1, 0, 1, 0⟩ : Fld).off := fun h =>
    evtOff_not_stat n (List.mem_singleton.mpr h.symm)
  have below {x : Fld} (hx : Nat.ble (x.lo + x.w) (Rg.LANE_STAT_AM_LOCK n).lo = true) :=
    Nat.le_of_ble_eq_true hx
  unfold State.flagFault
  refine ⟨?_, ?_, fun h0 => ?_⟩
  · rw [State.raw_clearIf_apart _ _ _ _ (.inr (.inl (below rfl))), State.raw_clearIf_apart _ _ _ _ (.inr (.inl (below rfl))),
      State.raw_clearIf_apart _ _ _ _ (.inr (.inl (below rfl))), State.raw_setF_of_lt _ _ 1 (by decide)]
  · rw [State.raw_clearIf_apart _ _ (Rg.LANE_STAT_SIG_DET n) _ (.inl hoff),
      State.raw_clearIf_apart _ _ (Rg.LANE_STAT_CDR_LOCK n) _ (.inl hoff),
      State.raw_clearIf_apart _ _ (Rg.LANE_STAT_BLOCK_LOCK n) _ (.inl hoff),
      State.raw_setF_apart _ (Rg.LANE_STAT_AM_LOCK n) _ _ (.inl hoff),
      State.raw_setF_of_lt _ _ 1 (by decide) rfl (show k + 1 ≤ 32 by omega)]
  · rw [State.clearIf, if_pos h0, State.raw_setF_of_lt _ _ 1 (by decide)]

theorem State.hardFault_idle {s : State} {n k : Nat} (h4 : s.laneState n ≠ 4) (h5 : s.laneState n ≠ 5) :
    s.hardFault n k = s.flagFault n k :=
  (if_neg ((s.flagFault_laneState n k).symm ▸ h5)).trans (if_neg ((s.flagFault_laneState n k).symm ▸ h4))

/-- A lane in service leaves it, and REMOVE goes out; for a spare under relay with REASON 6. -/
theorem State.hardFault_up {s : State} {n : Nat} (k : Nat) (h : s.laneState n = 4 ∨ s.laneState n = 5) :
    ∃ pos reason, s.hardFault n k = ((s.flagFault n k).dropLane n k).sendLink (n / 5) 1 n 0xF pos reason := by
  have hst := s.flagFault_laneState n k
  rcases h with h | h
  · have h5 : (s.flagFault n k).laneState n ≠ 5 := by omega
    have hrun : s.hardFault n k = _ := (if_neg h5).trans (if_pos (hst.trans h))
    rw [hrun]
    split
    · exact ⟨_, _, rfl⟩
    · exact ⟨_, _, rfl⟩
  · exact ⟨_, _, if_pos (hst.trans h)⟩

theorem faultReason_lt (k : LaneFault) : LaneFault.reason k < 4 := by cases k <;> decide

theorem laneHardFault_idle {l : LaneNo} {k : LaneFault} {s : State} (h4 : s.laneState l.val ≠ 4) (h5 : s.laneState l.val ≠ 5) :
    Runs (.laneHardFault l k) s fun t =>
      t.raw (Rg.LANE_STAT_AM_LOCK l.val) = 0 ∧ t.raw ⟨(Rg.LANE_EVT_LOS l.val).off, (LaneFault.reason k), 1, 0, 1, 0⟩ = 1 ∧
      (k = .los → t.raw (Rg.LANE_STAT_SIG_DET l.val) = 0) ∧ t.laneState l.val = s.laneState l.val ∧
      Only [] [(Rg.LANE_STAT_STATE l.val).off, (Rg.LANE_EVT_LOS l.val).off] s t := by
  obtain ⟨ham, hevt, hsig⟩ := s.flagFault_spec l.val (faultReason_lt k)
  refine ⟨s.flagFault l.val (LaneFault.reason k), congrArg Host.Outcome.next (State.hardFault_idle h4 h5), ham, hevt, ?_,
    s.flagFault_laneState _ _, only_flagFault _ _ _⟩
  rintro rfl
  exact hsig rfl

theorem laneHardFault_up {l : LaneNo} {k : LaneFault} {s : State} (h : s.laneState l.val = 4 ∨ s.laneState l.val = 5) :
    Runs (.laneHardFault l k) s fun t =>
      t.laneState l.val = 6 ∧ t.raw (Rg.LANE_STAT_POS l.val) = 0xF ∧
      (s.laneState l.val = 5 → t.raw (Rg.LANE_EVT_RELAY_OUT l.val) = 1) ∧ (t.lane l.val).reason = (LaneFault.reason k) ∧
      ((t.link (l.val / 5)).out.any fun o => o.op == 1 && o.old == l.val) = true := by
  obtain ⟨pos, reason, hrun⟩ := State.hardFault_up (LaneFault.reason k) h
  obtain ⟨hstate, hpos, hreason, hout⟩ := (s.flagFault l.val (LaneFault.reason k)).dropLane_spec l.isLt (LaneFault.reason k)
  generalize (s.flagFault l.val (LaneFault.reason k)).dropLane l.val (LaneFault.reason k) = u at hrun hstate hpos hreason hout
  have kept : KeepsLane l.val u (u.sendLink (l.val / 5) 1 l.val 0xF pos reason) :=
    .of_apart (only_sendLink u _ _ _ _ _ _) l.isLt
  refine ⟨_, congrArg Host.Outcome.next hrun, kept.laneState.trans hstate, kept.pos.trans hpos, fun h5 => ?_,
    (congrArg LaneX.reason kept.1).trans hreason, ?_⟩
  · exact (kept.raw (Rg.LANE_EVT_RELAY_OUT l.val) (evtOff_lane l.val)).trans (hout ((s.flagFault_laneState _ _).trans h5))
  · rw [State.sendLink_out]
    simp

/-! ## Marginal lanes (R73) -/

/-- A lane found marginal: its event, its record and LANE_MARGINAL. -/
def State.marked (s : State) (n bip code : Nat) : State :=
  ((s.setF (Rg.LANE_EVT_MARGINAL n) 1).mapLane n fun x => { x with marginal := true }).raise (n / 5) Ev.LANE_MARGINAL n [bip, code]

theorem statOff_not_event {n : Nat} (hn : n < 10) :
    (Rg.LANE_STAT_STATE n).off ∉ eventRegs ∧ (Rg.LANE_EVT_LOS n).off ∉ eventRegs := by
  have apart : ∀ o ∈ eventRegs, o < 0x1800 ∨ 0x1A80 ≤ o := by decide
  have hs := statOff_lane n
  have he := evtOff_lane n
  refine ⟨fun h => ?_, fun h => ?_⟩
  · have := apart _ h
    omega
  · have := apart _ h
    omega

theorem State.marked_spec (s : State) {n : Nat} (bip code : Nat) (hn : n < 10) :
    (s.marked n bip code).raw (Rg.LANE_EVT_MARGINAL n) = 1 ∧ ((s.marked n bip code).lane n).marginal = true ∧
    (∀ m < 10, (s.marked n bip code).laneState m = s.laneState m) ∧
    (s.marked n bip code).raw (Rg.LANE_STAT_POS n) = s.raw (Rg.LANE_STAT_POS n) ∧
    (∀ h, (s.marked n bip code).link h = s.link h) ∧
    (s.marked n bip code).on Rg.LNK_CFG_AUTO_RELAY = s.on Rg.LNK_CFG_AUTO_RELAY := by
  have cfg : (Rg.LANE_EVT_MARGINAL n).off ≠ Rg.LNK_CFG_AUTO_RELAY.off := by
    change 0x1810 + 0x40 * n ≠ 0x1a80
    omega
  unfold State.marked
  refine ⟨?_, ?_, fun m hm => ?_, ?_, fun h => ?_, State.on_of_raw ?_⟩
  · rw [State.raise_raw _ _ _ _ _ (Rg.LANE_EVT_MARGINAL n) (statOff_not_event hn).2, State.mapLane_raw,
      State.raw_setF_of_lt _ _ 1 (by decide)]
  · rw [State.lane_congr (State.raise_lanes _ _ _ _ _), State.lane_mapLane_same]
  · rw [State.laneState, State.raise_raw _ _ _ _ _ _ (statOff_not_event hm).1, State.mapLane_raw]
    exact State.laneState_setF_off _ (Rg.LANE_EVT_MARGINAL n) _ _ (evtOff_mod n)
  · rw [State.raise_raw _ _ _ _ _ (Rg.LANE_STAT_POS n) (statOff_not_event hn).1, State.mapLane_raw]
    exact State.pos_setF_off _ (Rg.LANE_EVT_MARGINAL n) _ _ (evtOff_mod n)
  · rw [State.link_congr (State.raise_links _ _ _ _ _), State.mapLane_link, State.setF_link]
  · rw [State.raise_raw _ _ _ _ _ _ (by decide), State.mapLane_raw, State.raw_setF_off _ _ _ _ cfg]

theorem laneMarginal_spare {l : LaneNo} {bip code : Nat} {s : State} (hbad : 8 < bip ∨ 4 < code) (hst : s.laneState l.val = 4) :
    Runs (.laneMarginal l bip code) s fun t =>
      t.raw (Rg.LANE_EVT_MARGINAL l.val) = 1 ∧ (t.lane l.val).marginal = true ∧ t.laneState l.val = 4 := by
  obtain ⟨hevt, hmarg, hstate, -⟩ := s.marked_spec bip code l.isLt
  have h4 := (hstate _ l.isLt).trans hst
  have hexec : exec (.laneMarginal l bip code) s = .next (s.marked l.val bip code) := by
    refine (if_pos ⟨hbad, .inr hst⟩).trans ?_
    rw [← State.marked]
    split
    · rw [if_neg fun h => by omega]
    · rfl
  exact ⟨_, hexec, hevt, hmarg, h4⟩

theorem State.spareReady_congr {s t : State} {h : Nat} (hst : ∀ n, n / 5 = h → t.laneState n = s.laneState n) :
    t.spareReady h = s.spareReady h := by
  unfold State.spareReady
  refine List.find?_congr fun n hn => ?_
  rw [hst n (mem_halfLanes.mp hn)]

theorem laneMarginal_relays {l : LaneNo} {bip code m : Nat} {s : State} (hbad : 8 < bip ∨ 4 < code) (hst : s.laneState l.val = 5)
    (hm : s.spareReady (l.val / 5) = some m) (hauto : s.on Rg.LNK_CFG_AUTO_RELAY = true)
    (hnone : ((s.link (l.val / 5)).out.any fun o => o.op == 2) = false) : Runs (.laneMarginal l bip code) s fun t =>
      (t.lane l.val).marginal = true ∧
      ((t.link (l.val / 5)).out.any fun o => o.op == 2 && o.old == l.val && o.new == m &&
        o.pos == s.raw (Rg.LANE_STAT_POS l.val) && o.reason == 4) = true := by
  obtain ⟨-, hmarg, hstate, hpos, hlink, hon⟩ := s.marked_spec bip code l.isLt
  have hspare : (s.marked l.val bip code).spareReady (l.val / 5) = some m :=
    (State.spareReady_congr fun n hn => hstate n (by omega)).trans hm
  have hexec : exec (.laneMarginal l bip code) s = .next ((s.marked l.val bip code).startRelay (l.val / 5) l.val m
      (s.raw (Rg.LANE_STAT_POS l.val)) 4) := by
    refine (if_pos ⟨hbad, .inl hst⟩).trans ?_
    rw [← State.marked, hspare, hpos, hlink]
    exact congrArg _ (if_pos ⟨(hstate _ l.isLt).trans hst, hon.trans hauto, by rw [hnone]; rfl⟩)
  refine ⟨_, hexec, ?_, ?_⟩
  · rw [State.startRelay, State.lane_congr ((only_sendLink _ _ _ _ _ _ _).1 .lanes (by decide)), State.setPos, State.setF_lane, hmarg]
  · rw [State.startRelay, State.sendLink_out]
    simp

end Sys2Proof.Machine
end

section
/-! Markers on an ACTIVE lane (R49, R51, R54 to R57), then the statement on faults, markers and marginal lanes. -/

namespace Sys2Proof.Machine

/-- What a lane's receiver makes of a marker interval. -/
def State.seen (s : State) (n : Nat) (b : AmRx) : AmSeen := amSeen s.amInterval (descrBlks (s.lineOf n).descr b.line).1

/-- The interval descrambled and its code errors counted. -/
def State.counted (s : State) (n : Nat) (b : AmRx) : State :=
  (s.mapLine n fun x => { x with descr := (descrBlks (s.lineOf n).descr b.line).2 }).bump (Rg.LANE_CODEERR_N n) (s.seen n b).codeErrs

theorem codeErrOff_mod (n : Nat) : (Rg.LANE_CODEERR_N n).off % 64 = 20 := by
  change (0x1814 + 0x40 * n) % 64 = 20
  omega

theorem bipErrOff_mod (n : Nat) : (Rg.LANE_BIPERR_N n).off % 64 = 24 := by
  change (0x1818 + 0x40 * n) % 64 = 24
  omega

/-- A field beside the lanes' code-error counters. -/
theorem State.counted_raw (s : State) (n : Nat) (b : AmRx) {x : Fld} (hx : x.off % 64 ≠ 20) :
    (s.counted n b).raw x = s.raw x :=
  State.raw_bump_off _ _ _ _ fun h => hx (h ▸ codeErrOff_mod n)

theorem State.counted_on (s : State) (n : Nat) (b : AmRx) {x : Fld} (hx : x.off % 64 ≠ 20) : (s.counted n b).on x = s.on x :=
  State.on_of_raw (s.counted_raw n b hx)

theorem State.counted_laneState (s : State) (n m : Nat) (b : AmRx) : (s.counted n b).laneState m = s.laneState m :=
  s.counted_raw n b (by change (0x1808 + 0x40 * m) % 64 ≠ 20; omega)

theorem State.counted_pos (s : State) (n : Nat) (b : AmRx) :
    (s.counted n b).raw (Rg.LANE_STAT_POS n) = s.raw (Rg.LANE_STAT_POS n) :=
  s.counted_raw n b (by change (0x1808 + 0x40 * n) % 64 ≠ 20; omega)

theorem State.counted_lane (s : State) (n m : Nat) (b : AmRx) : (s.counted n b).lane m = s.lane m := State.setF_lane _ _ _ _

theorem State.counted_codeErrs (s : State) (n : Nat) (b : AmRx) : (s.counted n b).raw (Rg.LANE_CODEERR_N n) =
    min (s.raw (Rg.LANE_CODEERR_N n) + (s.seen n b).codeErrs) (2 ^ (Rg.LANE_CODEERR_N n).w - 1) :=
  State.raw_bump _ _ _ (Nat.le_of_ble_eq_true rfl)

theorem only_counted (s : State) (n : Nat) (b : AmRx) : Only [.log] [(Rg.LANE_CODEERR_N n).off] s (s.counted n b) :=
  ((only_mapLine s n _).mono (List.Subset.refl _) (List.nil_subset _)).trans
    ((only_bump _ _ _).mono (List.nil_subset _) (List.Subset.refl _))

/-- Skew depends on the lanes' records, states and AM lock and on the rate. -/
theorem State.skewOk_congr {s t : State} (hst : ∀ n, t.laneState n = s.laneState n) (hl : ∀ n, t.lane n = s.lane n)
    (hon : ∀ n, t.on (Rg.LANE_STAT_AM_LOCK n) = s.on (Rg.LANE_STAT_AM_LOCK n))
    (hrate : t.f Rg.LNK_CFG_RATE = s.f Rg.LNK_CFG_RATE) (n q a : Nat) : t.skewOk n q a = s.skewOk n q a := by
  have hwithin (a d c : Nat) : t.skewWithin a d c = s.skewWithin a d c := by
    have hblocks : t.blocks64 = s.blocks64 := by
      funext k
      rw [State.blocks64, hrate, State.blocks64]
    have hinterval : t.amInterval = s.amInterval := by rw [State.amInterval, hrate, State.amInterval]
    rw [State.skewWithin, hblocks, hinterval, State.skewWithin]
  unfold State.skewOk
  rw [State.groupLanes_congr hst hl]
  congr 1
  funext m
  rw [hon, hl]
  simp only [hwithin]

theorem State.counted_skewOk (s : State) (n : Nat) (b : AmRx) (m q a : Nat) : (s.counted n b).skewOk m q a = s.skewOk m q a :=
  State.skewOk_congr (fun k => s.counted_laneState n k b) (fun k => s.counted_lane n k b)
    (fun k => s.counted_on n b (by change (0x1808 + 0x40 * k) % 64 ≠ 20; omega))
    (State.f_of_raw (s.counted_raw n b (by decide))) m q a

/-- AMSEQ follows the last one's, where the lane is locked (R57). -/
def State.follows (s : State) (n : Nat) (m : AmBlk) : Bool :=
  match (s.lane n).lastAm with
  | some q => !s.on (Rg.LANE_STAT_AM_LOCK n) || m.amseq == (q + 1) % 65536
  | none => true

theorem State.follows_of {s : State} {n : Nat} {m : AmBlk}
    (h : ∀ q, (s.lane n).lastAm = some q → m.amseq = (q + 1) % 65536) : s.follows n m = true := by
  unfold State.follows
  split
  · rename_i q hq
    simp [h q hq]
  · rfl

/-- A marker whose CRC fails, noted. -/
def State.badMarker (s : State) (n at_ : Nat) : State :=
  s.mapLane n fun x => { x with crcRun := (s.lane n).crcRun + 1, lastAm := x.lastAm.map fun q => (q + 1) % 65536, amAt := at_ }

/-- The BIP-8 errors of an interval, where it follows a marker at its place (R55). -/
def State.bipErrs (s : State) (n : Nat) (a : AmSeen) (m : AmBlk) : Nat :=
  if (s.lane n).lastAm.isSome && a.place then bitsDiffer a.bip (BitVec.ofNat 8 m.bip) else 0

/-- A marker at its place on an ACTIVE lane, judged by its CRC and then by its fields (R57). -/
def State.judgeMarker (s : State) (n : Nat) (a : AmSeen) (m : AmBlk) (at_ : Nat) : Host.Outcome State Fault Refusal :=
  if !m.crcOk then .next (if 2 ≤ (s.lane n).crcRun + 1 then (s.badMarker n at_).amFault n else s.badMarker n at_)
  else if m.laneNo ≠ n ∨ !(m.pos == s.expectPos n) ∨ !s.follows n m ∨
      (s.on (Rg.LANE_STAT_AM_LOCK n) ∧ !s.skewOk n m.amseq at_) then
    .next ((s.amFault n).mapLane n fun x => { x with lastAm := some m.amseq, amAt := at_ })
  else .next ((s.takeAm n m at_).bump (Rg.LANE_BIPERR_N n) (s.bipErrs n a m))

section
variable {l : LaneNo} {b : AmRx} {m : AmBlk} {s : State} (hst : s.laneState l.val = 5) (ham : (s.seen l.val b).am = some m)
  (hplace : (s.seen l.val b).place = true ∨ (s.lane l.val).lastAm = none)
include hst ham hplace

theorem exec_amReceived_marker : exec (.amReceived l b) s =
    (s.counted l.val b).judgeMarker l.val (s.seen l.val b) m b.count64 := by
  have hplaced : ((s.seen l.val b).place || ((s.counted l.val b).lane l.val).realign ||
      ((s.counted l.val b).lane l.val).lastAm.isNone) = true := by
    rw [State.counted_lane]
    rcases hplace with h | h <;> simp [h]
  have hsame : (s.mapLine l.val fun x => { x with descr := (descrBlks (s.lineOf l.val).descr b.line).2 }).amInterval =
      s.amInterval := rfl
  refine (if_pos (.inr (.inr (.inl hst)))).trans ?_
  rw [hsame, ← State.seen, ← State.counted, hst]
  generalize hu : s.counted l.val b = u at hplaced
  have hcheck (k : Nat) : ¬((5 == 3 && (u.lane l.val).fromFault && u.on (Rg.LANE_STAT_AM_LOCK l.val)) = true ∧ 0 < k) := by
    simp
  rw [if_neg (hcheck _), ham]
  refine (if_neg (by rw [hplaced]; decide)).trans ?_
  exact if_congr Iff.rfl rfl (if_congr Iff.rfl rfl (congrArg Host.Outcome.next (if_neg (hcheck _))))

theorem amReceived_badCrc (hcrc : m.crcOk = false) (hrun : (s.lane l.val).crcRun = 0) : Runs (.amReceived l b) s fun t =>
    (t.lane l.val).crcRun = 1 ∧ t.laneState l.val = 5 ∧ Only [.lanes, .log] [(Rg.LANE_CODEERR_N l.val).off] s t := by
  have hlane : ((s.counted l.val b).lane l.val).crcRun = 0 := by rw [State.counted_lane, hrun]
  have hexec : (s.counted l.val b).judgeMarker l.val (s.seen l.val b) m b.count64 =
      .next ((s.counted l.val b).badMarker l.val b.count64) :=
    (if_pos (by rw [hcrc]; rfl)).trans (congrArg Host.Outcome.next (if_neg (by omega)))
  refine ⟨_, (exec_amReceived_marker hst ham hplace).trans hexec, ?_, ?_, ?_⟩
  · rw [State.badMarker, State.lane_mapLane_same, hlane]
  · rw [State.badMarker, State.mapLane_laneState, State.counted_laneState, hst]
  · exact ((only_counted s l.val b).mono (by decide) (List.Subset.refl _)).trans
      ((only_mapLane _ _ _).mono (by decide) (List.nil_subset _))

end

/-- A good marker on a position other than 0, taken: the lane's record, and the far end's fault. -/
def State.took (s : State) (n : Nat) (m : AmBlk) (at_ : Nat) : State :=
  let s := s.mapLane n fun x => { x with crcRun := 0, lastAm := some m.amseq, amAt := at_, realign := false }
  if m.flags / 64 % 2 = 1 then s.setF (Rg.LANE_EVT_RFLT n) 1 else s

theorem only_took (s : State) (n : Nat) (m : AmBlk) (at_ : Nat) :
    Only [.lanes] [(Rg.LANE_EVT_LOS n).off] s (s.took n m at_) := by
  have noted := (only_mapLane s n fun x => { x with crcRun := 0, lastAm := some m.amseq, amAt := at_, realign := false }).mono
    (List.Subset.refl _) (List.nil_subset [(Rg.LANE_EVT_LOS n).off])
  exact Only.ite _ (fun _ => noted.trans ((only_setF_at _ (Rg.LANE_EVT_RFLT n) 1 rfl).mono (List.nil_subset _)
    (List.Subset.refl _))) fun _ => noted

theorem State.took_lane (s : State) (n : Nat) (m : AmBlk) (at_ : Nat) : ((s.took n m at_).lane n).lastAm = some m.amseq ∧
    ((s.took n m at_).lane n).crcRun = 0 ∧ ((s.took n m at_).lane n).realign = false := by
  unfold State.took
  dsimp only
  split
  · rw [State.setF_lane, State.lane_mapLane_same]
    exact ⟨rfl, rfl, rfl⟩
  · rw [State.lane_mapLane_same]
    exact ⟨rfl, rfl, rfl⟩

/-- Beside the events' registers nothing of MW0 changes. -/
theorem State.took_raw (s : State) (n : Nat) (m : AmBlk) (at_ : Nat) {x : Fld} (hx : x.off % 64 ≠ 16) :
    (s.took n m at_).raw x = s.raw x := (only_took s n m at_).2.raw x fun h => by
  have := List.mem_singleton.mp h
  change x.off = 0x1810 + 0x40 * n at this
  omega

theorem State.took_pos (s : State) (n : Nat) (m : AmBlk) (at_ : Nat) :
    (s.took n m at_).raw (Rg.LANE_STAT_POS n) = s.raw (Rg.LANE_STAT_POS n) :=
  s.took_raw n m at_ (by change (0x1808 + 0x40 * n) % 64 ≠ 16; omega)

theorem State.took_laneState (s : State) (n : Nat) (m : AmBlk) (at_ : Nat) :
    (s.took n m at_).laneState n = s.laneState n :=
  s.took_raw n m at_ (by change (0x1808 + 0x40 * n) % 64 ≠ 16; omega)

theorem State.takeAm_away {s : State} {n : Nat} (h : s.raw (Rg.LANE_STAT_POS n) ≠ 0) (m : AmBlk) (at_ : Nat) :
    s.takeAm n m at_ = s.took n m at_ := if_neg fun hc => h ((s.took_pos n m at_).symm.trans hc.1)

theorem State.expectPos_active {s : State} {n : Nat} (h : s.laneState n = 5) : s.expectPos n = s.raw (Rg.LANE_STAT_POS n) := by
  simp [State.expectPos, h]

/-- A marker that follows in place, on its lane and its position, is taken and its BIP-8 errors counted. -/
theorem exec_amReceived_good {l : LaneNo} {b : AmRx} {m : AmBlk} {s : State} (hst : s.laneState l.val = 5)
    (hpos : s.raw (Rg.LANE_STAT_POS l.val) ≠ 0) (ham : (s.seen l.val b).am = some m)
    (hplace : (s.seen l.val b).place = true ∨ (s.lane l.val).lastAm = none) (hcrc : m.crcOk = true) (hno : m.laneNo = l.val)
    (hmpos : m.pos = s.raw (Rg.LANE_STAT_POS l.val)) (hseq : ∀ q, (s.lane l.val).lastAm = some q → m.amseq = (q + 1) % 65536)
    (hskew : s.skewOk l.val m.amseq b.count64 = true) : exec (.amReceived l b) s =
      .next (((s.counted l.val b).took l.val m b.count64).bump (Rg.LANE_BIPERR_N l.val)
        ((s.counted l.val b).bipErrs l.val (s.seen l.val b) m)) := by
  generalize hu : s.counted l.val b = u
  generalize hw : u.took l.val m b.count64 = w
  have hustate : u.laneState l.val = 5 := hu ▸ (s.counted_laneState _ _ b).trans hst
  have hupos : u.raw (Rg.LANE_STAT_POS l.val) = s.raw (Rg.LANE_STAT_POS l.val) := hu ▸ s.counted_pos l.val b
  have hulane : u.lane l.val = s.lane l.val := hu ▸ s.counted_lane _ _ b
  rw [exec_amReceived_marker hst ham hplace, hu, ← hw, ← State.takeAm_away (hupos ▸ hpos)]
  refine (if_neg (by rw [hcrc]; decide)).trans (if_neg ?_)
  rw [State.expectPos_active hustate, hupos, hmpos, State.follows_of (hulane ▸ hseq), ← hu, State.counted_skewOk, hskew]
  simp [hno]

theorem amReceived_good {l : LaneNo} {b : AmRx} {m : AmBlk} {s : State} (hst : s.laneState l.val = 5)
    (hpos : s.raw (Rg.LANE_STAT_POS l.val) ≠ 0) (ham : (s.seen l.val b).am = some m)
    (hplace : (s.seen l.val b).place = true ∨ (s.lane l.val).lastAm = none) (hcrc : m.crcOk = true) (hno : m.laneNo = l.val)
    (hmpos : m.pos = s.raw (Rg.LANE_STAT_POS l.val)) (hseq : ∀ q, (s.lane l.val).lastAm = some q → m.amseq = (q + 1) % 65536)
    (hskew : s.skewOk l.val m.amseq b.count64 = true) : Runs (.amReceived l b) s fun t =>
      t.raw (Rg.LANE_CODEERR_N l.val) = min (s.raw (Rg.LANE_CODEERR_N l.val) + (s.seen l.val b).codeErrs) (2 ^ 32 - 1) ∧
      t.raw (Rg.LANE_BIPERR_N l.val) = min (s.raw (Rg.LANE_BIPERR_N l.val) +
        (if (s.lane l.val).lastAm.isSome && (s.seen l.val b).place then
          bitsDiffer (s.seen l.val b).bip (BitVec.ofNat 8 m.bip) else 0)) (2 ^ 32 - 1) ∧
      (t.lane l.val).lastAm = some m.amseq ∧ (t.lane l.val).crcRun = 0 ∧ (t.lane l.val).realign = false ∧
      t.laneState l.val = 5 ∧
      Only [.lanes, .log] [(Rg.LANE_CODEERR_N l.val).off, (Rg.LANE_BIPERR_N l.val).off, (Rg.LANE_EVT_RFLT l.val).off] s t := by
  generalize hu : s.counted l.val b = u
  generalize hw : u.took l.val m b.count64 = w
  have hustate : u.laneState l.val = 5 := hu ▸ (s.counted_laneState _ _ b).trans hst
  have hexec := exec_amReceived_good hst hpos ham hplace hcrc hno hmpos hseq hskew
  rw [hu, hw] at hexec
  have hbip : (Rg.LANE_BIPERR_N l.val).off % 64 = 24 := bipErrOff_mod l.val
  have hcode : (Rg.LANE_CODEERR_N l.val).off % 64 = 20 := codeErrOff_mod l.val
  obtain ⟨hlast, hcrcRun, hrealign⟩ := u.took_lane l.val m b.count64
  rw [hw] at hlast hcrcRun hrealign
  refine ⟨_, hexec, ?_, ?_, (State.setF_lane w _ _ _).symm ▸ hlast, (State.setF_lane w _ _ _).symm ▸ hcrcRun,
    (State.setF_lane w _ _ _).symm ▸ hrealign, ?_, ?_⟩
  · rw [State.raw_bump_off _ _ _ _ (by omega), ← hw, State.took_raw _ _ _ _ (by omega), ← hu]
    exact s.counted_codeErrs l.val b
  · rw [State.raw_bump _ _ _ (Nat.le_of_ble_eq_true rfl), ← hw, State.took_raw _ _ _ _ (by omega), ← hu,
      State.counted_raw _ _ _ (by omega), State.bipErrs, State.counted_lane]
    rfl
  · rw [State.bump, State.laneState_setF_off _ _ _ _ (by omega), ← hw, State.took_laneState, hustate]
  · have counted := (only_counted s l.val b).mono (l' := [.lanes, .log]) (m' := [(Rg.LANE_CODEERR_N l.val).off,
      (Rg.LANE_BIPERR_N l.val).off, (Rg.LANE_EVT_RFLT l.val).off]) (by decide) (by simp)
    rw [hu] at counted
    exact (counted.trans (hw ▸ (only_took u l.val m b.count64).mono (by decide)
      (show [(Rg.LANE_EVT_RFLT l.val).off] ⊆ _ by simp))).trans ((only_bump _ _ _).mono (by decide) (by simp))

/-- Settles O4: clause by clause, from a fault's flags and the lane's leaving of the stripe, from the marker's judgement, and from
the record of a marginal lane. -/
theorem laneFaultsAndMarkers : Obligations.LaneFaultsAndMarkers := by
  unfold Obligations.LaneFaultsAndMarkers
  exact ⟨fun l k s => laneHardFault_idle, fun l k s => laneHardFault_up,
    fun l b m s hst hpos ham hplace => ⟨amReceived_good hst hpos ham hplace, amReceived_badCrc hst ham hplace⟩,
    fun l bip code s => laneMarginal_spare, fun l bip code m s => laneMarginal_relays⟩

end Sys2Proof.Machine
end

section
/-! SUPPORT. Bits of bytes and the self-synchronous scrambler (R48, R49): the descrambler finds a scrambled block again. -/

namespace Sys2Proof.Machine

/-! ## Bits and bytes (R48) -/

theorem testBit_natLsb (l : List Bool) (i : Nat) : (natLsb l).testBit i = l[i]?.getD false := by
  induction l generalizing i with
  | nil => simp [natLsb]
  | cons b l ih =>
    cases i with
    | zero => cases b <;> simp [natLsb, b2n, Nat.testBit_zero]
    | succ i =>
      have half : natLsb (b :: l) / 2 = natLsb l := by
        have : b2n b < 2 := by cases b <;> decide
        rw [natLsb]
        omega
      rw [Nat.testBit_succ, half, ih, List.getElem?_cons_succ]

/-- The bits of a byte in transmission order. -/
def byteBits (b : Byte) : List Bool := (List.range 8).map fun i => b.getLsbD i

theorem byteBits_length (b : Byte) : (byteBits b).length = 8 := by simp [byteBits]

theorem bitsLsb_cons (b : Byte) (l : List Byte) : bitsLsb (b :: l) = byteBits b ++ bitsLsb l := rfl

theorem bitsLsb_length (l : List Byte) : (bitsLsb l).length = 8 * l.length := by
  induction l with
  | nil => rfl
  | cons b l ih =>
    rw [bitsLsb_cons, List.length_append, byteBits_length, ih, List.length_cons]
    omega

theorem bytesLsb_length (n : Nat) (l : List Bool) : (bytesLsb n l).length = n := by
  induction n generalizing l with
  | zero => rfl
  | succ n ih => exact congrArg (· + 1) (ih _)

/-- A byte made of eight bits has them. -/
theorem byteBits_ofNat {l : List Bool} (h : l.length = 8) : byteBits (BitVec.ofNat 8 (natLsb l)) = l := by
  refine List.ext_getElem (by simp [byteBits, h]) fun i h8 hl => ?_
  have hi : i < 8 := by omega
  simp [byteBits, BitVec.getLsbD_ofNat, testBit_natLsb, hi, hl]

/-- A byte is the number its bits spell. -/
theorem ofNat_byteBits (b : Byte) : BitVec.ofNat 8 (natLsb (byteBits b)) = b := by
  refine BitVec.eq_of_getLsbD_eq fun i hi => ?_
  rw [BitVec.getLsbD_ofNat, testBit_natLsb]
  simp [byteBits, hi]

theorem bitsLsb_bytesLsb {n : Nat} {l : List Bool} (h : l.length = 8 * n) : bitsLsb (bytesLsb n l) = l := by
  induction n generalizing l with
  | zero => exact (List.length_eq_zero_iff.mp h).symm
  | succ n ih =>
    rw [bytesLsb, bitsLsb_cons, byteBits_ofNat (by rw [List.length_take]; omega), ih (by rw [List.length_drop]; omega),
      List.take_append_drop]

theorem bytesLsb_bitsLsb (l : List Byte) : bytesLsb l.length (bitsLsb l) = l := by
  induction l with
  | nil => rfl
  | cons b l ih =>
    have h8 := byteBits_length b
    rw [List.length_cons, bytesLsb, bitsLsb_cons, List.take_append_of_le_length (by omega), List.take_of_length_le (by omega),
      List.drop_append_of_le_length (by omega), List.drop_of_length_le (by omega), List.nil_append, ofNat_byteBits, ih]

theorem fitBytes_of_length {n : Nat} {l : List Byte} (h : l.length = n) : fitBytes n l = l := by
  rw [fitBytes, List.take_append_of_le_length (by omega), List.take_of_length_le (by omega)]

/-! ## The scrambler (R49) -/

theorem scramble_length (st : BitVec 58) (l : List Bool) : (scramble st l).1.length = l.length := by
  induction l generalizing st with
  | nil => rfl
  | cons d l ih => exact congrArg (· + 1) (ih _)

/-- Both ends shift the same scrambled bits into their registers. -/
theorem descramble_scramble (st : BitVec 58) (l : List Bool) :
    descramble st (scramble st l).1 = (l, (scramble st l).2) := by
  induction l generalizing st with
  | nil => rfl
  | cons d l ih =>
    simp only [scramble, descramble, ih, Prod.mk.injEq, List.cons.injEq, and_true]
    cases d <;> cases st.getLsbD 38 <;> cases st.getLsbD 57 <;> rfl

theorem descrBlk_scrBlk (st : BitVec 58) (b : Blk) (h : b.bytes.length = 8) :
    descrBlk st (scrBlk st b).1 = (b, (scrBlk st b).2) := by
  have hbits : (scramble st (bitsLsb b.bytes)).1.length = 8 * 8 := by rw [scramble_length, bitsLsb_length, h]
  have hback : bytesLsb 8 (bitsLsb b.bytes) = b.bytes := by
    have := bytesLsb_bitsLsb b.bytes
    rwa [h] at this
  simp only [descrBlk, scrBlk, fitBytes_of_length h, fitBytes_of_length (bytesLsb_length 8 _), bitsLsb_bytesLsb hbits,
    descramble_scramble, hback]

end Sys2Proof.Machine
end

section
/-! Lane management blocks, their answers and repeats (R58, R59, R69 to R77), then the statement on them. -/

namespace Sys2Proof.Machine

/-! ## Blocks acted on (R58) -/

theorem State.linkNew_of {s : State} {h op : Nat} {l : List (List Byte)} {b : LinkRx} (hb : LinkBlock s h op l b) :
    s.linkNew h op l = some b := by
  obtain ⟨hpick, hop, htag⟩ := hb
  unfold State.linkNew
  rw [hpick]
  exact if_pos ⟨hop, by simpa using htag⟩

theorem State.actOn_link (s : State) (h : Nat) (b : LinkRx) :
    (s.actOn h b).link h = { s.link h with lastTag := some b.tag } := State.link_mapLink_same _ _ _

theorem State.actOn_laneState (s : State) (h : Nat) (b : LinkRx) (n : Nat) : (s.actOn h b).laneState n = s.laneState n :=
  State.mapLink_laneState _ _ _ _

theorem only_actOn (s : State) (h : Nat) (b : LinkRx) : Only [.links] [] s (s.actOn h b) := only_mapLink _ _ _

theorem only_sendAck (s : State) (h : Nat) (b : LinkRx) : Only [.log] [] s (s.sendAck h b) := only_putLink _ _ _ _ _ _ _ _

section
variable {h : Half} {l : List (List Byte)} {b : LinkRx} {s : State}

/-! ## REMOVE (R71, R73) -/

theorem exec_linkRemove_new (hb : LinkBlock s h.val 1 l b)
    (hnone : ((s.link h.val).out.find? fun o => o.op == 1 && o.old == b.old) = none) : exec (.linkRemove h l) s =
      if b.old / 5 = h.val ∧ b.old < 10 ∧ ((s.actOn h.val b).laneState b.old = 5 ∨ (s.actOn h.val b).laneState b.old = 4) then
        let u := (s.actOn h.val b).dropLane b.old b.reason
        let w := (u.mapLink h.val fun k => { k with nextTag := ((u.link h.val).nextTag + 1) % 256 }).putLink h.val 1
          (u.link h.val).nextTag b.old 0xF ((s.actOn h.val b).raw (Rg.LANE_STAT_POS b.old)) b.reason
        .next ((w.sendAck h.val b).removalDone h.val b.old)
      else .next ((s.actOn h.val b).sendAck h.val b) := by
  have hout : ((s.actOn h.val b).link h.val).out = (s.link h.val).out := by rw [State.actOn_link]
  change execLinkRemove h l s = _
  unfold execLinkRemove
  dsimp only
  rw [State.linkNew_of hb]
  dsimp only
  rw [hout, hnone]

theorem linkRemove_answers (hb : LinkBlock s h.val 1 l b) (hcore : s.boot.core = false)
    (hnone : ((s.link h.val).out.find? fun o => o.op == 1 && o.old == b.old) = none)
    (h5 : s.laneState b.old ≠ 5) (h4 : s.laneState b.old ≠ 4) : Runs (.linkRemove h l) s fun t =>
      Sends s t h.val (linkOn s h.val 3 b.tag b.old 0xF b.pos 0) ∧ (t.link h.val).lastTag = some b.tag ∧
      Only [.links, .log] [] s t := by
  refine ⟨_, (exec_linkRemove_new hb hnone).trans (if_neg ?_), ?_, ?_, (only_actOn _ _ _).then (only_sendAck _ _ _)⟩
  · rw [State.actOn_laneState]
    tauto
  · exact sends_putLink_of (only_actOn s h.val b) hcore (State.actOn_laneState s h.val b) rfl
  · rw [State.link_congr ((only_sendAck _ _ _).1 .links (by decide)), State.actOn_link]

theorem linkRemove_active (hb : LinkBlock s h.val 1 l b)
    (hnone : ((s.link h.val).out.find? fun o => o.op == 1 && o.old == b.old) = none) (hhalf : b.old / 5 = h.val)
    (hold : b.old < 10) (h5 : s.laneState b.old = 5) : Runs (.linkRemove h l) s fun t =>
      t.laneState b.old ≠ 5 ∧ t.raw (Rg.LANE_EVT_RELAY_OUT b.old) = 1 := by
  have h5' : (s.actOn h.val b).laneState b.old = 5 := (s.actOn_laneState _ _ _).trans h5
  refine ⟨_, (exec_linkRemove_new hb hnone).trans (if_pos ⟨hhalf, hold, .inl h5'⟩), ?_⟩
  dsimp only
  obtain ⟨hstate, -, -, hevt⟩ := (s.actOn h.val b).dropLane_spec hold b.reason
  generalize (s.actOn h.val b).dropLane b.old b.reason = u at hstate hevt
  generalize hw : ((u.mapLink h.val fun k => { k with nextTag := ((u.link h.val).nextTag + 1) % 256 }).putLink h.val 1
    (u.link h.val).nextTag b.old 0xF ((s.actOn h.val b).raw (Rg.LANE_STAT_POS b.old)) b.reason).sendAck h.val b = w
  have kept : KeepsLane b.old u w := by
    rw [← hw]
    exact ((KeepsLane.of_apart (only_mapLink _ _ _) hold).trans (.of_apart (only_putLink _ _ _ _ _ _ _ _) hold)).trans
      (.of_apart (only_sendAck _ _ _) hold)
  obtain ⟨hdone, hreg⟩ := w.removalDone_spec hold h.val (kept.laneState.trans hstate)
  refine ⟨by omega, ?_⟩
  exact ((State.raw_of_reg (x := Rg.LANE_EVT_RELAY_OUT b.old) hreg).trans
    (kept.raw (Rg.LANE_EVT_RELAY_OUT b.old) (evtOff_lane b.old))).trans (hevt h5')

/-! ## RETRAIN (R74) -/

theorem linkRetrain_trains (hb : LinkBlock s h.val 5 l b) (hcore : s.boot.core = false) (hhalf : b.old / 5 = h.val)
    (hold : b.old < 10) (h6 : s.laneState b.old = 6) (hleft : s.raw (Rg.LANE_STAT_TRIES_LEFT b.old) ≠ 0) :
    Runs (.linkRetrain h l) s fun t =>
      t.laneState b.old = 2 ∧ (t.lane b.old).fromFault = true ∧
      t.raw (Rg.LANE_STAT_TRIES_LEFT b.old) + 1 = s.raw (Rg.LANE_STAT_TRIES_LEFT b.old) ∧
      Sends s t h.val (linkOn s h.val 3 b.tag b.old 0xF b.pos 0) := by
  generalize hu : (s.actOn h.val b).sendAck h.val b = u
  have honly : Only [.links, .log] [] s u := hu ▸ (only_actOn _ _ _).then (only_sendAck _ _ _)
  have hraw (x : Fld) : u.raw x = s.raw x := honly.2.raw x List.not_mem_nil
  have hustate : u.laneState b.old = 6 := (hraw _).trans h6
  have huleft : u.raw (Rg.LANE_STAT_TRIES_LEFT b.old) ≠ 0 := by rwa [hraw]
  have hexec : exec (.linkRetrain h l) s = .next ((u.spent b.old).enterTrain b.old true) := by
    change execLinkRetrain h l s = _
    unfold execLinkRetrain
    dsimp only
    rw [State.linkNew_of hb]
    dsimp only
    rw [hu, if_pos ⟨hold, hhalf⟩, if_pos hustate, if_neg huleft, ← State.spent]
  obtain ⟨hstate, htries, hff⟩ := State.spent_enterTrain huleft (Only.refl [] [] (u.spent b.old))
  refine ⟨_, hexec, hstate, hff, by rw [htries, hraw], ?_⟩
  refine sends_putLink_of (only_actOn s h.val b) hcore (State.actOn_laneState s h.val b) ?_
  rw [((only_enterTrain _ b.old true).1 .log (by decide)).2, ((only_spent u b.old).1 .log (by decide)).2, ← hu, State.sendAck]

/-! ## ACK (R59, R72, R73) -/

theorem exec_linkAck {o : LinkOut} (hb : LinkBlock s h.val 3 l b)
    (ho : ((s.link h.val).out.find? fun x => x.tag == b.tag) = some o) (h1 : o.op ≠ 1) : exec (.linkAck h l) s =
      if o.op = 2 then .next (((s.actOn h.val b).answered h.val o.tag).relayDone h.val o)
      else .next ((s.actOn h.val b).answered h.val o.tag) := by
  change execLinkAck h l s = _
  unfold execLinkAck
  dsimp only
  rw [State.linkNew_of hb]
  dsimp only
  rw [ho]
  dsimp only
  rw [if_neg h1]

theorem linkAck_retrain {o : LinkOut} (hb : LinkBlock s h.val 3 l b)
    (ho : ((s.link h.val).out.find? fun x => x.tag == b.tag) = some o) (hop : o.op = 5) : Runs (.linkAck h l) s fun t =>
      (∀ x ∈ (t.link h.val).out, x.tag ≠ o.tag) ∧ Only [.links] [] s t := by
  refine ⟨_, (exec_linkAck hb ho (by omega)).trans (if_neg (by omega)), fun x hx => ?_,
    (only_actOn _ _ _).trans (only_mapLink _ _ _)⟩
  rw [State.answered, State.link_mapLink_same] at hx
  simpa using (List.mem_filter.mp hx).2

theorem keepsLane_trainColdIn {w : State} {n : Nat} (hn : n < 10) (h5 : w.laneState n = 5) (h : Nat) :
    KeepsLane n w ((w.laneIn h).trainCold h) := by
  have kept : KeepsLane n w (w.laneIn h) := .of_apart (only_laneIn _ _) hn
  exact kept.trans (keepsLane_trainCold (by rw [kept.laneState, h5]; decide) h)

/-- Once the new lane of a relay without an OLD lane is placed, the rest of the relay leaves that lane as it is. -/
theorem keepsLane_relayDone {s : State} {o : LinkOut} (ho : 10 ≤ o.old) (hn : o.new < 10)
    (h5 : (s.placed o.new o.pos).laneState o.new = 5) (h : Half) :
    KeepsLane o.new (s.placed o.new o.pos) (s.relayDone h.val o) := by
  have hnot : ¬o.old < 10 := by omega
  unfold State.relayDone
  dsimp only
  rw [if_neg hnot, ← State.placed]
  generalize s.placed o.new o.pos = u at h5
  have kept : KeepsLane o.new u (u.spareIn h.val) := .of_apart (only_spareIn _ h.isLt) hn
  split
  next long _ =>
    refine kept.trans ?_
    have h5' := kept.laneState.trans h5
    generalize u.spareIn h.val = v at h5' ⊢
    generalize hw : v.mapCmd _ = w
    have keptC : KeepsLane o.new v (w.complete long.cmd long.opcode St.OK {}) :=
      (hw ▸ KeepsLane.of_apart (only_mapCmd v _) hn : KeepsLane o.new v w).trans (.of_apart (only_complete _ _ _ _ _) hn)
    exact keptC.trans (keepsLane_trainColdIn hn (keptC.laneState.trans h5') h.val)
  next => exact kept.trans (keepsLane_trainColdIn hn (kept.laneState.trans h5) h.val)

/-- The new lane of a relay carries its position. -/
theorem State.relayDone_spec (s : State) (h : Half) {o : LinkOut} (ho : 10 ≤ o.old) (hn : o.new < 10) (hp : o.pos ≤ 3) :
    (s.relayDone h.val o).laneState o.new = 5 ∧ (s.relayDone h.val o).raw (Rg.LANE_STAT_POS o.new) = o.pos ∧
    (s.relayDone h.val o).raw (Rg.LANE_EVT_RELAY_IN o.new) = 1 := by
  obtain ⟨hstate, hpos, hevt⟩ := s.placed_spec o.new (show o.pos < 16 by omega)
  have kept := keepsLane_relayDone ho hn hstate h
  exact ⟨kept.laneState.trans hstate, kept.pos.trans hpos,
    (kept.raw (Rg.LANE_EVT_RELAY_IN o.new) (evtOff_lane o.new)).trans hevt⟩

theorem linkAck_relay {o : LinkOut} (hb : LinkBlock s h.val 3 l b)
    (ho : ((s.link h.val).out.find? fun x => x.tag == b.tag) = some o) (hop : o.op = 2) (hold : 10 ≤ o.old)
    (hnew : o.new < 10) (hpos : o.pos ≤ 3) : Runs (.linkAck h l) s fun t =>
      t.laneState o.new = 5 ∧ t.raw (Rg.LANE_STAT_POS o.new) = o.pos ∧ t.raw (Rg.LANE_EVT_RELAY_IN o.new) = 1 :=
  ⟨_, (exec_linkAck hb ho (by omega)).trans (if_pos hop), State.relayDone_spec _ h hold hnew hpos⟩

end

/-! ## NACK, repeats and resends (R59, R73) -/

/-- The first element that passes a test is replaced. -/
theorem exists_mem_setFirst {α : Type} {p : α → Bool} {l : List α} {x : α} (hx : x ∈ l) (hp : p x = true) (f : α → α) :
    ∃ y, p y = true ∧ f y ∈ setFirst p f l := by
  induction l with
  | nil => simp at hx
  | cons a l ih =>
    unfold setFirst
    by_cases ha : p a = true
    · exact ⟨a, ha, by simp [ha]⟩
    · rcases List.mem_cons.mp hx with rfl | hx
      · exact absurd hp ha
      · obtain ⟨y, hy, hmem⟩ := ih hx
        exact ⟨y, hy, by simp [ha, hmem]⟩

theorem linkNack_waits {h : Half} {l : List (List Byte)} {b : LinkRx} {o : LinkOut} {s : State}
    (hb : LinkBlock s h.val 4 l b) (ho : ((s.link h.val).out.find? fun x => x.tag == b.tag && x.op == 2) = some o)
    (hn : o.nacks < 2) : Runs (.linkNack h l) s fun t =>
      (∃ x ∈ (t.link h.val).out, x.tag = b.tag ∧ x.waitRetry = true) ∧ Only [.links] [] s t := by
  have hout : ((s.actOn h.val b).link h.val).out = (s.link h.val).out := by rw [State.actOn_link]
  have hexec : exec (.linkNack h l) s = .next ((s.actOn h.val b).mapLink h.val fun k =>
      { k with out := setFirst (fun x => x.tag == o.tag) (fun x => { x with nacks := x.nacks + 1, waitRetry := true }) k.out }) := by
    change execLinkNack h l s = _
    unfold execLinkNack
    dsimp only
    rw [State.linkNew_of hb]
    dsimp only
    rw [ho]
    exact if_neg (by omega)
  have htag : o.tag = b.tag := by
    have := List.find?_some ho
    simp only [Bool.and_eq_true, beq_iff_eq] at this
    exact this.1
  obtain ⟨y, hy, hmem⟩ := exists_mem_setFirst (p := fun x : LinkOut => x.tag == o.tag) (List.mem_of_find?_eq_some ho)
    (beq_self_eq_true _) fun x => { x with nacks := x.nacks + 1, waitRetry := true }
  refine ⟨_, hexec, ⟨{ y with nacks := y.nacks + 1, waitRetry := true }, ?_, (beq_iff_eq.mp hy).trans htag, rfl⟩,
    (only_actOn _ _ _).trans (only_mapLink _ _ _)⟩
  rw [State.link_mapLink_same, hout]
  exact hmem

theorem linkAnswerTimeout_repeats {h : Half} {tag : Nat} {o : LinkOut} {s : State} (hcore : s.boot.core = false)
    (ho : ((s.link h.val).out.find? fun x => x.tag == tag && !x.waitRetry) = some o) (hrep : o.repeats < 10) :
    Runs (.linkAnswerTimeout h tag) s fun t =>
      Sends s t h.val (linkOn s h.val o.op o.tag o.old o.new o.pos o.reason) ∧ Only [.links, .log] [] s t := by
  have hexec : exec (.linkAnswerTimeout h tag) s = .next ((s.mapLink h.val fun k =>
      { k with out := setFirst (fun x => x.tag == tag) (fun x => { x with repeats := x.repeats + 1 }) k.out }).putLink h.val
        o.op o.tag o.old o.new o.pos o.reason) := by
    change execLinkAnswerTimeout h tag s = _
    unfold execLinkAnswerTimeout
    rw [ho]
    exact congrArg Host.Outcome.next (if_neg (by omega))
  exact ⟨_, hexec, sends_putLink_of (only_mapLink s h.val _) hcore (fun n => State.mapLink_laneState _ _ _ _) rfl,
    (only_mapLink _ _ _).then (only_putLink _ _ _ _ _ _ _ _)⟩

theorem relayNackRetry_resends {h : Half} {tag : Nat} {o : LinkOut} {s : State} (hcore : s.boot.core = false)
    (ho : ((s.link h.val).out.find? fun x => x.tag == tag && x.waitRetry) = some o) : Runs (.relayNackRetry h tag) s fun t =>
      Sends s t h.val (linkOn s h.val o.op (s.link h.val).nextTag o.old o.new o.pos o.reason) ∧
      (∃ x ∈ (t.link h.val).out, x.tag = (s.link h.val).nextTag ∧ x.waitRetry = false) ∧ Only [.links, .log] [] s t := by
  generalize hu : (s.mapLink h.val fun k => { k with
      nextTag := ((s.link h.val).nextTag + 1) % 256
      out := setFirst (fun x => x.tag == tag) (fun x => { x with waitRetry := false, tag := (s.link h.val).nextTag }) k.out }) = u
  have hexec : exec (.relayNackRetry h tag) s =
      .next (u.putLink h.val o.op (s.link h.val).nextTag o.old o.new o.pos o.reason) := by
    rw [← hu]
    change execRelayNackRetry h tag s = _
    unfold execRelayNackRetry
    dsimp only
    rw [ho]
  have honly : Only [.links] [] s u := hu ▸ only_mapLink _ _ _
  have hstate (n : Nat) : u.laneState n = s.laneState n := honly.2.raw _ List.not_mem_nil
  have htag : (o.tag == tag) = true := by
    have := List.find?_some ho
    exact (Bool.and_eq_true_iff.mp this).1
  obtain ⟨y, -, hmem⟩ := exists_mem_setFirst (p := fun x : LinkOut => x.tag == tag) (List.mem_of_find?_eq_some ho) htag
    fun x => { x with waitRetry := false, tag := (s.link h.val).nextTag }
  refine ⟨_, hexec, sends_putLink_of honly hcore hstate rfl,
    ⟨{ y with waitRetry := false, tag := (s.link h.val).nextTag }, ?_, rfl, rfl⟩, honly.then (only_putLink _ _ _ _ _ _ _ _)⟩
  rw [State.link_congr ((only_putLink _ _ _ _ _ _ _ _).1 .links (by decide)), ← hu, State.link_mapLink_same]
  exact hmem

/-! ## Start and degradation of a link (R69, R77) -/

theorem linkStartTimeout_starts {h : Half} {s : State} (hal : (s.link h.val).aligned = true)
    (hst : (s.link h.val).started = false) : Runs (.linkStartTimeout h) s fun t => (t.link h.val).started = true := by
  generalize hu : (s.mapLink h.val fun k => { k with started := true }) = u
  have hstarted : (u.link h.val).started = true := by rw [← hu, State.link_mapLink_same]
  have hexec : exec (.linkStartTimeout h) s = .next u ∨
      ∃ n p, exec (.linkStartTimeout h) s = .next (u.startRelay h.val 0xF n p 0) := by
    have hrun : exec (.linkStartTimeout h) s = _ := if_pos ⟨hal, by rw [hst]; rfl⟩
    rw [hrun, hu]
    split
    · exact .inr ⟨_, _, rfl⟩
    · exact .inl rfl
  rcases hexec with hexec | ⟨n, p, hexec⟩
  · exact ⟨u, hexec, hstarted⟩
  · refine ⟨_, hexec, ?_⟩
    dsimp only
    rw [State.startRelay, State.sendLink_started, State.setPos, State.setF_link, hstarted]

theorem shortOfLanes_degraded {h : Half} {s : State} (hshort : s.short h.val = true) (hst : (s.link h.val).started = true) :
    Runs (.shortOfLanes h) s fun t => (t.link h.val).degraded = true := by
  refine ⟨_, if_pos ⟨hshort, hst⟩, ?_⟩
  dsimp only
  rw [State.link_congr ((only_linkNotice _ _ _ _).1 .links (by decide)), State.link_mapLink_same]

/-- Settles O5: clause by clause, from what each block and timeout leaves of the lanes, the link and what was sent. -/
theorem linkBlocks : Obligations.LinkBlocks := by
  unfold Obligations.LinkBlocks
  exact ⟨descrBlk_scrBlk, fun h l b s hb hcore hnone _ _ h5 h4 => linkRemove_answers hb hcore hnone h5 h4,
    fun h l b s => linkRemove_active, fun h l b s => linkRetrain_trains,
    fun h l b o s hb ho => ⟨linkAck_retrain hb ho, linkAck_relay hb ho⟩, fun h l b o s => linkNack_waits,
    fun h tag o s => linkAnswerTimeout_repeats, fun h tag o s => relayNackRetry_resends,
    fun h s => linkStartTimeout_starts, fun h s => shortOfLanes_degraded⟩

end Sys2Proof.Machine
end

section
/-! Lane tests, error injection, the control register and wake detection (R80 to R85), then the statement on them. -/

namespace Sys2Proof.Machine

/-! ## Fields written with what they hold -/

/-- A field written with what it holds leaves the word. -/
theorem fset_self (r : Word) {lo w v : Nat} (h : fget r lo w = v) : fset r lo w v = r := by
  have hlow := Nat.div_add_mod r.toNat (2 ^ lo)
  have hmid := Nat.div_add_mod (r.toNat / 2 ^ lo) (2 ^ w)
  subst h
  rw [fset, Nat.mod_eq_of_lt (fget_lt _ _ _), fget, pow_add, ← Nat.div_div_eq_div_mul]
  have whole : r.toNat / 2 ^ lo / 2 ^ w * (2 ^ lo * 2 ^ w) + r.toNat / 2 ^ lo % 2 ^ w * 2 ^ lo + r.toNat % 2 ^ lo = r.toNat := by
    calc _ = 2 ^ lo * (2 ^ w * (r.toNat / 2 ^ lo / 2 ^ w) + r.toNat / 2 ^ lo % 2 ^ w) + r.toNat % 2 ^ lo := by ring
      _ = r.toNat := by rw [hmid, hlow]
  rw [whole, BitVec.ofNat_toNat, BitVec.setWidth_eq]

/-- A truth value written to a one-bit field. -/
theorem b2n_of_bit {k : Nat} (h : k < 2) : b2n (k == 1) = k := by
  interval_cases k <;> rfl

/-- A one-bit field is in force as it stands. -/
theorem State.on_eq_raw (s : State) (x : Fld) (hlo : x.okLo ≤ s.raw x) (hhi : s.raw x ≤ x.okHi) : s.on x = (s.raw x == 1) := by
  rw [State.on, State.f, if_pos ⟨hlo, hhi⟩]

/-! ## The checker (R80) -/

section
variable {l : LaneNo} {b : Bool} {s : State}

theorem exec_checkerLock_bit (h7 : s.laneState l.val = 7) (hen : s.on (Rg.LANE_CTL_CHK_EN l.val) = true)
    (hmode : s.raw (Rg.LANE_CTL_TEST_MODE l.val) ≠ 5) :
    exec (.checkerLock l [b]) s = .next (State.checkBit l.val (s.raw (Rg.LANE_CTL_TEST_MODE l.val)) s b) :=
  if_pos ⟨h7, hen, hmode⟩

/-- The checker takes a bit before it locks. -/
def State.seek (s : State) (n run : Nat) (b : Bool) : State :=
  s.mapLane n fun x => { x with chkReg := (b :: x.chkReg).take 31, chkRun := run }

/-- The checker locks. -/
def State.checkLock (s : State) (n : Nat) : State :=
  ((s.setF (Rg.LANE_STAT_CHK_LOCK n) 1).setF (Rg.LANE_STAT_SIG_DET n) 1).setF (Rg.LANE_STAT_CDR_LOCK n) 1

theorem State.checkBit_locks {n mode : Nat} (hlock : s.on (Rg.LANE_STAT_CHK_LOCK n) = false) (hrun : (s.lane n).chkRun = 127)
    (hlen : (prbsTaps mode).1 ≤ (s.lane n).chkReg.length) (hb : b = prbsBit mode (s.lane n).chkReg) :
    s.checkBit n mode b = (s.seek n 128 b).checkLock n := by
  have run : (if (prbsTaps mode).1 ≤ (s.lane n).chkReg.length ∧ b = prbsBit mode (s.lane n).chkReg then (s.lane n).chkRun + 1
      else 0) = 128 := by rw [if_pos ⟨hlen, hb⟩, hrun]
  unfold State.checkBit
  dsimp only
  rw [if_neg (by rw [hlock]; decide), run]
  exact if_pos rfl

theorem only_checkLock (s : State) (n : Nat) : Only [] [(Rg.LANE_STAT_CHK_LOCK n).off] s (s.checkLock n) := by
  unfold State.checkLock
  exact ((only_setF s (Rg.LANE_STAT_CHK_LOCK n) 1).trans (only_setF_at _ (Rg.LANE_STAT_SIG_DET n) 1 rfl)).trans
    (only_setF_at _ (Rg.LANE_STAT_CDR_LOCK n) 1 rfl)

theorem State.checkLock_raw (s : State) (n : Nat) : (s.checkLock n).raw (Rg.LANE_STAT_CHK_LOCK n) = 1 := by
  have beside {x : Fld} (t : State) (hx : Nat.ble (x.lo + x.w) 12 = true) :
      (t.setF x 1).raw (Rg.LANE_STAT_CHK_LOCK n) = t.raw (Rg.LANE_STAT_CHK_LOCK n) :=
    State.raw_setF_apart _ _ _ _ (.inr (.inl (Nat.le_of_ble_eq_true hx)))
  unfold State.checkLock
  rw [beside _ rfl, beside _ rfl, State.raw_setF_of_lt _ _ 1 (by decide)]

theorem checkerLock_locks (h7 : s.laneState l.val = 7) (hen : s.on (Rg.LANE_CTL_CHK_EN l.val) = true)
    (hmode : s.raw (Rg.LANE_CTL_TEST_MODE l.val) ≠ 5) (hlock : s.on (Rg.LANE_STAT_CHK_LOCK l.val) = false)
    (hrun : (s.lane l.val).chkRun = 127)
    (hlen : (prbsTaps (s.raw (Rg.LANE_CTL_TEST_MODE l.val))).1 ≤ (s.lane l.val).chkReg.length)
    (hb : b = prbsBit (s.raw (Rg.LANE_CTL_TEST_MODE l.val)) (s.lane l.val).chkReg) : Runs (.checkerLock l [b]) s fun t =>
      t.raw (Rg.LANE_STAT_CHK_LOCK l.val) = 1 ∧ Only [.lanes] [(Rg.LANE_STAT_CHK_LOCK l.val).off] s t := by
  refine ⟨_, (exec_checkerLock_bit h7 hen hmode).trans (congrArg _ (State.checkBit_locks hlock hrun hlen hb)),
    State.checkLock_raw _ _, ?_⟩
  exact ((only_mapLane s l.val _).mono (List.Subset.refl _) (List.nil_subset _)).trans
    ((only_checkLock _ _).mono (List.nil_subset _) (List.Subset.refl _))

/-- Whether a bit was in error, before the last 1,023. -/
def LaneX.windowWith (x : LaneX) (bad : Bool) : List Bool := (bad :: x.chkWin).take 1024

/-- A locked checker after a bit: it goes on, or it loses its lock. -/
def State.judgeBit (s : State) (n : Nat) (want : Bool) (win : List Bool) : State :=
  if 64 < (win.filter id).length then
    (s.setF (Rg.LANE_STAT_CHK_LOCK n) 0).mapLane n fun x => { x with chkReg := [], chkRun := 0, chkWin := [] }
  else s.mapLane n fun x => { x with chkReg := (want :: x.chkReg).take 31, chkWin := win }

theorem State.checkBit_error {n mode : Nat} (hlock : s.on (Rg.LANE_STAT_CHK_LOCK n) = true)
    (hb : b ≠ prbsBit mode (s.lane n).chkReg) : s.checkBit n mode b =
      (s.bump (Rg.LANE_PRBSERR_N n) 1).judgeBit n (prbsBit mode (s.lane n).chkReg)
        ((s.lane n).windowWith (b != prbsBit mode (s.lane n).chkReg)) := by
  have hbad : (b != prbsBit mode (s.lane n).chkReg) = true := bne_iff_ne.mpr hb
  unfold State.checkBit
  dsimp only
  rw [if_pos hlock, if_pos hbad]
  rfl

theorem only_judgeBit (s : State) (n : Nat) (want : Bool) (win : List Bool) :
    Only [.lanes] [(Rg.LANE_STAT_CHK_LOCK n).off] s (s.judgeBit n want win) :=
  Only.ite _
    (fun _ => ((only_setF s (Rg.LANE_STAT_CHK_LOCK n) 0).mono (List.nil_subset _) (List.Subset.refl _)).trans
      ((only_mapLane _ n _).mono (List.Subset.refl _) (List.nil_subset _)))
    (fun _ => (only_mapLane s n _).mono (List.Subset.refl _) (List.nil_subset _))

/-- More than 64 errors in the window cost the lock. -/
theorem State.judgeBit_on (s : State) (n : Nat) (want : Bool) (win : List Bool) (h : s.on (Rg.LANE_STAT_CHK_LOCK n) = true) :
    (s.judgeBit n want win).on (Rg.LANE_STAT_CHK_LOCK n) = decide ((win.filter id).length ≤ 64) := by
  unfold State.judgeBit
  split
  · rename_i hmany
    have cleared : ((s.setF (Rg.LANE_STAT_CHK_LOCK n) 0).mapLane n
        fun x => { x with chkReg := [], chkRun := 0, chkWin := [] }).raw (Rg.LANE_STAT_CHK_LOCK n) = 0 := by
      rw [State.mapLane_raw, State.raw_setF_of_lt _ _ 1 (by decide)]
    rw [decide_eq_false (by omega), Bool.eq_false_iff]
    intro hon
    have := (State.on_iff_raw _ _ (Nat.le_of_ble_eq_true rfl) (Nat.le_of_ble_eq_true rfl) (by change (0 : Nat) ≠ 1; decide)).mp hon
    omega
  · rename_i hfew
    rw [decide_eq_true (by omega), State.on_of_raw (State.mapLane_raw _ _ _ _), h]

theorem checkerLock_error (h7 : s.laneState l.val = 7) (hen : s.on (Rg.LANE_CTL_CHK_EN l.val) = true)
    (hmode : s.raw (Rg.LANE_CTL_TEST_MODE l.val) ≠ 5) (hlock : s.on (Rg.LANE_STAT_CHK_LOCK l.val) = true)
    (hb : b ≠ prbsBit (s.raw (Rg.LANE_CTL_TEST_MODE l.val)) (s.lane l.val).chkReg) : Runs (.checkerLock l [b]) s fun t =>
      t.raw (Rg.LANE_PRBSERR_N l.val) = min (s.raw (Rg.LANE_PRBSERR_N l.val) + 1) (2 ^ 32 - 1) ∧
      t.on (Rg.LANE_STAT_CHK_LOCK l.val) = decide ((((s.lane l.val).windowWith
        (b != prbsBit (s.raw (Rg.LANE_CTL_TEST_MODE l.val)) (s.lane l.val).chkReg)).filter id).length ≤ 64) ∧
      Only [.lanes] [(Rg.LANE_STAT_CHK_LOCK l.val).off, (Rg.LANE_PRBSERR_N l.val).off] s t := by
  have hoff : (Rg.LANE_PRBSERR_N l.val).off ≠ (Rg.LANE_STAT_CHK_LOCK l.val).off := by
    change 0x181c + 0x40 * l.val ≠ 0x1808 + 0x40 * l.val
    omega
  have honly := only_judgeBit (s.bump (Rg.LANE_PRBSERR_N l.val) 1) l.val
    (prbsBit (s.raw (Rg.LANE_CTL_TEST_MODE l.val)) (s.lane l.val).chkReg)
    ((s.lane l.val).windowWith (b != prbsBit (s.raw (Rg.LANE_CTL_TEST_MODE l.val)) (s.lane l.val).chkReg))
  refine ⟨_, (exec_checkerLock_bit h7 hen hmode).trans (congrArg _ (State.checkBit_error hlock hb)), ?_, ?_, ?_⟩
  · exact (honly.2.raw (Rg.LANE_PRBSERR_N l.val) fun h => hoff (List.mem_singleton.mp h)).trans
      (State.raw_bump _ _ _ (Nat.le_of_ble_eq_true rfl))
  · exact State.judgeBit_on _ _ _ _ ((State.on_of_raw (State.raw_bump_off _ _ _ _ hoff)).trans hlock)
  · exact ((only_bump s (Rg.LANE_PRBSERR_N l.val) 1).mono (List.nil_subset _) (by simp)).trans
      (honly.mono (List.Subset.refl _) (by simp))

/-! ## Error injection (R81) -/

theorem only_inject (s : State) (n : Nat) : Only [.log] [] s (s.inject n) :=
  Only.ite _ (fun _ => only_emit _ _) (fun _ => Only.refl _ _ _)

theorem State.inject_sent (h : s.injActs l.val = true) :
    (s.inject l.val).sent = .injected l.val (s.f (Rg.LANE_INJ_INJ_TYPE l.val)) :: s.sent := by
  rw [State.inject, if_pos h, State.emit]

/-- In TEST a payload bit alone is injected. -/
theorem State.injActs_test (h7 : s.laneState l.val = 7) : s.injActs l.val = (s.f (Rg.LANE_INJ_INJ_TYPE l.val) == 0) := by
  simp [State.injActs, h7]

theorem injOneWrite_injects (l : LaneNo) (s : State) : Runs (.injOneWrite l) s fun t =>
    t.raw (Rg.LANE_INJ_INJ_ONE l.val) = 0 ∧
    (s.laneState l.val = 7 → s.f (Rg.LANE_INJ_INJ_TYPE l.val) = 0 → t.sent = .injected l.val 0 :: s.sent) ∧
    (s.laneState l.val = 7 → s.f (Rg.LANE_INJ_INJ_TYPE l.val) ≠ 0 → t.sent = s.sent) ∧
    Only [.log] [(Rg.LANE_INJ_INJ_ONE l.val).off] s t := by
  refine ⟨_, rfl, State.raw_setF_of_lt _ _ 1 (by decide), fun h7 h0 => ?_, fun h7 hne => ?_,
    ((only_inject _ _).mono (List.Subset.refl _) (List.nil_subset _)).trans
      ((only_setF _ _ _).mono (List.nil_subset _) (List.Subset.refl _))⟩
  · rw [State.setF, State.setReg_sent, State.inject_sent (by rw [State.injActs_test h7, h0]; rfl), h0]
  · have hact : ¬s.injActs l.val = true := by rwa [State.injActs_test h7, beq_iff_eq]
    rw [State.setF, State.setReg_sent, State.inject, if_neg hact]

theorem injContInject_injects (hcont : s.on (Rg.LANE_INJ_INJ_CONT l.val) = true)
    (hst : s.laneState l.val = 7 ∨ (s.laneState l.val = 5 ∧ s.on (Rg.LANE_INJ_INJ_ACTIVE l.val) = true))
    (h0 : s.f (Rg.LANE_INJ_INJ_TYPE l.val) = 0) :
    Runs (.injContInject l) s fun t => t.sent = .injected l.val 0 :: s.sent ∧ Only [.log] [] s t := by
  have hact : s.injActs l.val = true := by
    rcases hst with h7 | ⟨h5, hon⟩
    · rw [State.injActs_test h7, h0]
      rfl
    · simp [State.injActs, h5, hon]
  exact ⟨_, if_pos hcont, (State.inject_sent hact).trans (by rw [h0]), only_inject _ _⟩

/-! ## The control register (R83, R12) -/

theorem laneCtlWrite_locked {v : Word} (h : s.locked = true) : Runs (.laneCtlWrite l v) s fun t =>
    t.raw Rg.C_RWL_IGNORED = min (s.raw Rg.C_RWL_IGNORED + 1) (2 ^ 32 - 1) ∧ Only [] [Rg.C_RWL_IGNORED.off] s t :=
  ⟨_, if_pos h, State.raw_bump _ _ _ (by decide), only_bump _ _ _⟩

/-- What a write without a test and with ENABLE as it stands leaves. -/
theorem State.applyCtl_plain {v : Word} {n : Nat} (h4 : fget v 20 4 = 0) (h7 : s.laneState n ≠ 7)
    (hen : fget v 0 1 = s.raw (Rg.LANE_CTL_ENABLE n)) : s.applyCtl n v = s.setReg (Rg.LANE_CTL_ENABLE n).off (fset v 25 7 0) := by
  have hbit : fget v 0 1 < 2 := fget_lt v 0 1
  have hon : s.on (Rg.LANE_CTL_ENABLE n) = (fget v 0 1 == 1) := by
    rw [State.on_eq_raw _ _ (Nat.zero_le _) (by rw [← hen]; exact Nat.le_of_lt_succ hbit), hen]
  have hlow : fget (fset v 25 7 0) 0 1 = fget v 0 1 := fget_fset_apart v 0 (.inr (by decide))
  have hmode : fget (fset v 25 7 0) 20 4 = 0 := (fget_fset_apart v 0 (.inr (by decide))).trans h4
  have hstate (w : Word) : (s.setReg (0x1800 + 0x40 * n) w).laneState n ≠ 7 := by
    have : (s.setReg (0x1800 + 0x40 * n) w).laneState n = s.laneState n :=
      State.raw_of_reg ((State.reg_setReg _ _ _ _).trans (if_neg (by change ¬0x1800 + 0x40 * n = 0x1808 + 0x40 * n; omega)))
    rwa [this]
  unfold State.applyCtl
  dsimp only
  rw [hon, h4]
  have stored : fset (fset (fset v 25 7 0) 0 1 (b2n (fget v 0 1 == 1))) 20 4 0 = fset v 25 7 0 := by
    rw [fset_self (fset v 25 7 0) (hlow.trans (b2n_of_bit hbit).symm), fset_self _ hmode]
  generalize (fget v 0 1 == 1) = enable at stored ⊢
  cases enable
  · simp [hstate, stored]
    rfl
  · simp [hstate, stored]
    rfl

theorem laneCtlWrite_stored {v : Word} (h : s.locked = false) (h4 : fget v 20 4 = 0) (h7 : s.laneState l.val ≠ 7)
    (hen : fget v 0 1 = s.raw (Rg.LANE_CTL_ENABLE l.val)) : Runs (.laneCtlWrite l v) s fun t =>
      t.reg (Rg.LANE_CTL_ENABLE l.val).off = fset v 25 7 0 ∧ Only [] [(Rg.LANE_CTL_ENABLE l.val).off] s t := by
  have hnot : ¬s.locked = true := by rw [h]; decide
  exact ⟨_, (if_neg hnot).trans (congrArg _ (State.applyCtl_plain h4 h7 hen)), State.reg_setReg_same _ _ _, only_setReg _ _ _⟩

/-! ## Wake detection (R85, R464) -/

theorem LaneX.wasUp_of {x : LaneX} (h : x.former = some 4 ∨ x.former = some 5) : x.wasUp = true := by
  rcases h with h | h <;> rw [LaneX.wasUp, h] <;> rfl

theorem laneActivity_wakes (h1 : s.laneState l.val = 1) (hup : (s.lane l.val).wasUp = true) (hdom : s.dom (l.val / 5) 6 = 2) :
    Runs (.laneActivity l) s fun t => t = s.wake 1 s.wakeMask := ⟨_, if_pos ⟨h1, hup, hdom⟩, rfl⟩

theorem wakeTone_wakes (h1 : s.laneState l.val = 1) (hup : (s.lane l.val).wasUp = true) (hdom : s.dom (l.val / 5) 6 = 3)
    (hen : s.on Rg.PM_CFG_TONE_EN = true) : Runs (.wakeTone l) s fun t => t = s.wake 2 s.wakeMask :=
  ⟨_, if_pos ⟨h1, hup, hdom, hen⟩, rfl⟩

/-- A lane that was neither ACTIVE nor SPARE_READY wakes nothing. -/
theorem laneActivity_wakeTone_idle (h3 : (s.lane l.val).former = some 3) :
    Runs (.laneActivity l) s (fun t => t = s) ∧ Runs (.wakeTone l) s fun t => t = s := by
  have hup : ¬(s.lane l.val).wasUp = true := by rw [LaneX.wasUp, h3]; decide
  exact ⟨⟨_, if_neg fun h => hup h.2.1, rfl⟩, ⟨_, if_neg fun h => hup h.2.1, rfl⟩⟩

end

/-- Settles O6: clause by clause, from the two outcomes of a checked bit, the conditions of injection, a control register
written with what it holds, and the states whose former occupants may wake. -/
theorem laneTests : Obligations.LaneTests := by
  unfold Obligations.LaneTests
  exact ⟨fun l b s h7 hen hmode => ⟨checkerLock_locks h7 hen hmode, checkerLock_error h7 hen hmode⟩,
    injOneWrite_injects, fun l s => injContInject_injects, fun l v s => laneCtlWrite_locked, fun l v s => laneCtlWrite_stored,
    fun l s h1 => ⟨fun hf => ⟨laneActivity_wakes h1 (LaneX.wasUp_of hf), wakeTone_wakes h1 (LaneX.wasUp_of hf)⟩,
      laneActivity_wakeTone_idle⟩⟩

end Sys2Proof.Machine
end

section
/-! Block lock, elastic-buffer slips, clock compensation and markers of a lane (R50 to R55), then the statement on them. -/

namespace Sys2Proof.Machine

/-! ## Block lock (R50) -/

/-- A lane's receiver is locked. -/
def State.blockLocked (s : State) (n : Nat) (inv : Bool) : State :=
  (((s.setF (Rg.LANE_STAT_SIG_DET n) 1).setF (Rg.LANE_STAT_CDR_LOCK n) 1).setF (Rg.LANE_STAT_BLOCK_LOCK n) 1).setB
    (Rg.LANE_STAT_RX_INV n) inv

theorem only_blockLocked (s : State) (n : Nat) (inv : Bool) :
    Only [] [(Rg.LANE_STAT_STATE n).off] s (s.blockLocked n inv) := by
  unfold State.blockLocked
  exact (((only_setF_at s (Rg.LANE_STAT_SIG_DET n) 1 rfl).trans (only_setF_at _ (Rg.LANE_STAT_CDR_LOCK n) 1 rfl)).trans
    (only_setF_at _ (Rg.LANE_STAT_BLOCK_LOCK n) 1 rfl)).trans (only_setF_at _ (Rg.LANE_STAT_RX_INV n) (b2n inv) rfl)

/-- The status a locked receiver shows; the lane's state stays. -/
theorem State.blockLocked_spec (s : State) (n : Nat) (inv : Bool) :
    (s.blockLocked n inv).raw (Rg.LANE_STAT_SIG_DET n) = 1 ∧ (s.blockLocked n inv).raw (Rg.LANE_STAT_CDR_LOCK n) = 1 ∧
    (s.blockLocked n inv).raw (Rg.LANE_STAT_BLOCK_LOCK n) = 1 ∧ (s.blockLocked n inv).raw (Rg.LANE_STAT_RX_INV n) = b2n inv ∧
    (s.blockLocked n inv).laneState n = s.laneState n := by
  have above {x y : Fld} (t : State) (v : Nat) (hx : Nat.ble (y.lo + y.w) x.lo = true) : (t.setF x v).raw y = t.raw y :=
    State.raw_setF_apart _ _ _ _ (.inr (.inr (Nat.le_of_ble_eq_true hx)))
  have written {x : Fld} (t : State) (hw : x.w = 1) (hx : Nat.ble (x.lo + 1) 32 = true) : (t.setF x 1).raw x = 1 :=
    State.raw_setF_of_lt _ _ 1 (by decide) hw (Nat.le_of_ble_eq_true hx)
  unfold State.blockLocked State.setB
  refine ⟨?_, ?_, ?_, State.raw_setF_of_lt _ _ 1 (by cases inv <;> decide), ?_⟩
  · rw [above _ _ rfl, above _ _ rfl, above _ _ rfl, written _ rfl rfl]
  · rw [above _ _ rfl, above _ _ rfl, written _ rfl rfl]
  · rw [above _ _ rfl, written _ rfl rfl]
  · have beside (x : Fld) (t : State) (v : Nat) (hx : Nat.ble 4 x.lo = true) : (t.setF x v).laneState n = t.laneState n :=
      State.laneState_setF _ _ _ _ (Nat.le_of_ble_eq_true hx)
    rw [beside (Rg.LANE_STAT_RX_INV n) _ _ rfl, beside (Rg.LANE_STAT_BLOCK_LOCK n) _ _ rfl,
      beside (Rg.LANE_STAT_CDR_LOCK n) _ _ rfl, beside (Rg.LANE_STAT_SIG_DET n) _ _ rfl]

theorem blockLockAcquired_locks (l : LaneNo) (inv : Bool) (s : State) (h : s.laneState l.val = 2 ∨ s.laneState l.val = 3 ∨
    s.laneState l.val = 4 ∨ s.laneState l.val = 5) : Runs (.blockLockAcquired l inv) s fun t =>
      t.raw (Rg.LANE_STAT_SIG_DET l.val) = 1 ∧ t.raw (Rg.LANE_STAT_CDR_LOCK l.val) = 1 ∧
      t.raw (Rg.LANE_STAT_BLOCK_LOCK l.val) = 1 ∧ t.raw (Rg.LANE_STAT_RX_INV l.val) = b2n inv ∧
      t.laneState l.val = s.laneState l.val ∧ Only [] [(Rg.LANE_STAT_STATE l.val).off] s t := by
  have hexec : exec (.blockLockAcquired l inv) s = .next (s.blockLocked l.val inv) := if_pos (by tauto)
  obtain ⟨hsig, hcdr, hblock, hinv, hstate⟩ := s.blockLocked_spec l.val inv
  exact ⟨_, hexec, hsig, hcdr, hblock, hinv, hstate, only_blockLocked _ _ _⟩

/-! ## Elastic-buffer slips (R54) -/

/-- Lanes take their position anew at their next marker. -/
def State.realigned (s : State) (l : List Nat) : State :=
  l.foldl (fun s n => s.mapLane n fun x => { x with realign := true, fill := 16 }) s

theorem only_realigned (s : State) (l : List Nat) : Only [.lanes] [] s (s.realigned l) :=
  Only.foldl _ (fun t n => only_mapLane t n _) l s

/-- A lane once told to take its position anew stays told. -/
theorem State.realigned_of (l : List Nat) (s : State) {n : Nat} (h : n ∈ l ∨ (s.lane n).realign = true) :
    ((s.realigned l).lane n).realign = true := by
  induction l generalizing s with
  | nil => exact h.resolve_left List.not_mem_nil
  | cons m l ih =>
    refine ih _ ?_
    rw [State.lane_mapLane]
    by_cases hm : m = n
    · exact .inr (by rw [if_pos hm])
    · rw [if_neg hm]
      exact h.imp_left fun hn => (List.mem_cons.mp hn).resolve_left (Ne.symm hm)

theorem ebSlip_realigns (l : LaneNo) (s : State) : Runs (.ebSlip l) s fun t =>
    t.raw (Rg.LANE_EVT_EB_SLIP l.val) = 1 ∧ (∀ n ∈ s.groupLanes (l.val / 5), (t.lane n).realign = true) ∧
    t.laneState l.val = s.laneState l.val ∧ Only [.lanes] [(Rg.LANE_EVT_EB_SLIP l.val).off] s t := by
  have hstate (n : Nat) : (s.setF (Rg.LANE_EVT_EB_SLIP l.val) 1).laneState n = s.laneState n :=
    State.laneState_setF_off _ _ _ _ (evtOff_mod l.val)
  have hexec : exec (.ebSlip l) s = .next ((s.setF (Rg.LANE_EVT_EB_SLIP l.val) 1).realigned (s.groupLanes (l.val / 5))) := by
    rw [← State.groupLanes_congr hstate fun n => State.setF_lane _ _ _ _]
    rfl
  have honly := only_realigned (s.setF (Rg.LANE_EVT_EB_SLIP l.val) 1) (s.groupLanes (l.val / 5))
  have hraw (x : Fld) := honly.2.raw x List.not_mem_nil
  refine ⟨_, hexec, (hraw _).trans (State.raw_setF_of_lt _ _ 1 (by decide)), fun n hn => State.realigned_of _ _ (.inl hn),
    (hraw _).trans (hstate _), ((only_setF _ _ _).mono (List.nil_subset _) (List.Subset.refl _)).trans
      (honly.mono (List.Subset.refl _) (List.nil_subset _))⟩

/-! ## Clock compensation (R52, R53) -/

theorem lastBlocks_of {t : State} {h : Nat} {c : List (Nat × Blk)} {r : List Out} (ht : t.sent = .blocks h c :: r) :
    lastBlocks t h = c := by
  unfold lastBlocks
  rw [ht]
  exact if_pos rfl

/-- A block on every lane of the group. -/
def State.onGroup (s : State) (h : Nat) (b : Blk) : List (Nat × Blk) := (s.groupLanes h).map fun n => (n, b)

theorem State.onGroup_lanes (s : State) (h : Nat) (b : Blk) : (s.onGroup h b).map (·.1) = s.groupLanes h := by
  rw [State.onGroup, List.map_map]
  exact List.map_id _

theorem State.onGroup_up {s : State} (hc : s.boot.core = false) {h : Nat} {b : Blk} {e : Nat × Blk} (he : e ∈ s.onGroup h b) :
    s.lineIdle e.1 = false := by
  obtain ⟨n, hn, rfl⟩ := List.mem_map.mp he
  exact State.groupLanes_up hc hn

/-- The CC block and the two IDLE blocks it announces. -/
def State.ccSequence (s : State) (h : Nat) : List (Nat × Blk) := s.onGroup h ccBlk ++ s.onGroup h idleBlk ++ s.onGroup h idleBlk

theorem State.codeBlocks_ccSequence_lanes (s : State) (h : Nat) : (s.codeBlocks (s.ccSequence h)).1.map (·.1) =
    s.groupLanes h ++ s.groupLanes h ++ s.groupLanes h := by
  rw [State.codeBlocks_lanes, State.ccSequence, List.map_append, List.map_append, State.onGroup_lanes, State.onGroup_lanes]

/-- The CC blocks are coded as they are alone. -/
theorem State.codeBlocks_ccSequence_take (s : State) (h : Nat) :
    (s.codeBlocks (s.ccSequence h)).1.take (s.groupLanes h).length =
      (s.groupLanes h).map fun n => (n, (scrBlk (s.lineOf n).scr ccBlk).1) := by
  have hlen : (s.codeBlocks (s.onGroup h ccBlk)).1.length = (s.groupLanes h).length := by
    rw [← List.length_map (·.1), State.codeBlocks_lanes, State.onGroup_lanes]
  rw [State.ccSequence, List.append_assoc, State.codeBlocks_append, List.take_left' hlen,
    State.codeBlocks_distinct (by rw [State.onGroup_lanes]; exact s.groupLanes_nodup h), State.onGroup, List.map_map]
  rfl

theorem State.sendBlocks_ccSequence {s : State} (hc : s.boot.core = false) {h : Nat} (hg : s.groupLanes h ≠ []) :
    s.sendBlocks h (s.ccSequence h) =
      (s.codeBlocks (s.ccSequence h)).2.emit (.blocks h (s.codeBlocks (s.ccSequence h)).1) := by
  refine State.sendBlocks_eq (fun hnil => hg ?_) (fun e he => ?_) h
  · have hcc := (List.append_eq_nil_iff.mp (List.append_eq_nil_iff.mp hnil).1).1
    exact List.map_eq_nil_iff.mp hcc
  · rcases List.mem_append.mp he with he | he
    · rcases List.mem_append.mp he with he | he <;> exact State.onGroup_up hc he
    · exact State.onGroup_up hc he

theorem ccSequenceSend_sends (h : Half) (s : State) (hc : s.boot.core = false) (hg : s.groupLanes h.val ≠ []) :
    Runs (.ccSequenceSend h) s fun t =>
      ((s.link h.val).ccDue = false → t = s) ∧
      ((s.link h.val).ccDue = true → (t.link h.val).ccDue = false ∧ t.sent.tail = s.sent ∧
        (lastBlocks t h.val).map (·.1) = s.groupLanes h.val ++ s.groupLanes h.val ++ s.groupLanes h.val ∧
        (lastBlocks t h.val).take (s.groupLanes h.val).length =
          ((s.groupLanes h.val).map fun n => (n, (scrBlk (s.lineOf n).scr ccBlk).1)) ∧
        Only [.links, .log] [] s t) := by
  cases hdue : (s.link h.val).ccDue with
  | false => exact ⟨s, if_neg fun hd => by simp [hdue] at hd, fun _ => rfl, fun hd => absurd hd (by decide)⟩
  | true =>
    have hexec : exec (.ccSequenceSend h) s =
        .next ((s.sendBlocks h.val (s.ccSequence h.val)).mapLink h.val fun l => { l with ccDue := false }) :=
      if_pos ⟨hdue, by simpa using hg, by simp [hc]⟩
    have hsent : ((s.sendBlocks h.val (s.ccSequence h.val)).mapLink h.val fun l => { l with ccDue := false }).sent =
        .blocks h.val (s.codeBlocks (s.ccSequence h.val)).1 :: s.sent := by
      rw [State.sendBlocks_ccSequence hc hg, ← State.codeBlocks_sent (s.ccSequence h.val) s]
      rfl
    refine ⟨_, hexec, fun hd => absurd hd (by decide), fun _ => ⟨?_, ?_, ?_, ?_, ?_⟩⟩
    · rw [State.link_mapLink_same]
    · rw [hsent, List.tail_cons]
    · rw [lastBlocks_of hsent, State.codeBlocks_ccSequence_lanes]
    · rw [lastBlocks_of hsent, State.codeBlocks_ccSequence_take]
    · exact (only_sendBlocks _ _ _).then (only_mapLink _ _ _)

/-- Blocks deleted or inserted on one lane. -/
def State.matchLane (del : Bool) (k : Nat) (s : State) (n : Nat) : State :=
  (s.bump (if del then Rg.LANE_RM_DEL n else Rg.LANE_RM_INS n) k).mapLane n fun x =>
    { x with fill := if del then x.fill - k else x.fill + k }

/-- Blocks deleted or inserted on every lane of the group. -/
def State.rateMatched (s : State) (h : Nat) (del : Bool) (k : Nat) : State :=
  ((s.groupLanes h).foldl (State.matchLane del k) s).emit (.rateMatch h del k)

theorem only_matchLane (del : Bool) (k : Nat) (s : State) (n : Nat) :
    Only [.lanes] [(Rg.LANE_RM_INS n).off] s (s.matchLane del k n) := by
  have hoff : (if del then Rg.LANE_RM_DEL n else Rg.LANE_RM_INS n).off = (Rg.LANE_RM_INS n).off := by cases del <;> rfl
  exact ((hoff ▸ only_bump s _ k : Only [] [(Rg.LANE_RM_INS n).off] s _).mono (List.nil_subset _) (List.Subset.refl _)).trans
    ((only_mapLane _ n _).mono (List.Subset.refl _) (List.nil_subset _))

theorem only_foldl_matchLane (del : Bool) (k : Nat) {m : List Nat} (l : List Nat)
    (h : ∀ n ∈ l, (Rg.LANE_RM_INS n).off ∈ m) (s : State) : Only [.lanes] m s (l.foldl (State.matchLane del k) s) := by
  induction l generalizing s with
  | nil => exact .refl _ _ _
  | cons n l ih =>
    have hn : [(Rg.LANE_RM_INS n).off] ⊆ m := by simpa using h n List.mem_cons_self
    exact ((only_matchLane del k s n).mono (List.Subset.refl _) hn).trans
      (ih (fun i hi => h i (List.mem_cons_of_mem _ hi)) _)

theorem only_rateMatched (s : State) (h : Nat) (del : Bool) (k : Nat) :
    Only [.lanes, .log] ((halfLanes h).map fun n => (Rg.LANE_RM_INS n).off) s (s.rateMatched h del k) := by
  have hfold := only_foldl_matchLane del k (m := (halfLanes h).map fun n => (Rg.LANE_RM_INS n).off) (s.groupLanes h)
    (fun n hn => List.mem_map.mpr ⟨n, List.mem_of_mem_filter hn, rfl⟩) s
  exact (hfold.mono (by decide) (List.Subset.refl _)).trans ((only_emit _ _).mono (by decide) (List.nil_subset _))

theorem State.rateMatched_sent (s : State) (h : Nat) (del : Bool) (k : Nat) :
    (s.rateMatched h del k).sent = .rateMatch h del k :: s.sent := by
  have hfold := only_foldl_matchLane del k (m := (s.groupLanes h).map fun n => (Rg.LANE_RM_INS n).off) (s.groupLanes h)
    (fun n hn => List.mem_map.mpr ⟨n, hn, rfl⟩) s
  rw [State.rateMatched, State.emit, (hfold.1 .log (by decide)).2]

theorem ccSequenceReceived_even {h : Half} {fill m : Nat} {s : State} (hm : s.lowestLane h.val = some m)
    (hlow : 14 ≤ fill) (hhigh : fill ≤ 18) : Runs (.ccSequenceReceived h fill) s fun t =>
      (t.lane m).fill = fill ∧ t.sent = s.sent ∧ Only [.lanes] [] s t := by
  have hexec : exec (.ccSequenceReceived h fill) s = .next (s.mapLane m fun x => { x with fill := fill }) := by
    change execCcSequenceReceived h fill s = _
    unfold execCcSequenceReceived
    dsimp only
    rw [hm]
    exact if_neg (by omega)
  exact ⟨_, hexec, by rw [State.lane_mapLane_same], rfl, only_mapLane _ _ _⟩

theorem ccSequenceReceived_matches {h : Half} {fill m : Nat} {s : State} (hm : s.lowestLane h.val = some m)
    (hout : 18 < fill ∨ fill < 14) : Runs (.ccSequenceReceived h fill) s fun t =>
      (t.sent = .rateMatch h.val (decide (18 < fill)) 1 :: s.sent ∨ t.sent = .rateMatch h.val (decide (18 < fill)) 2 :: s.sent) ∧
      Only [.lanes, .log, .free] ((halfLanes h.val).map fun n => (Rg.LANE_RM_INS n).off) s t := by
  generalize hu : s.mapLane m (fun x => { x with fill := fill }) = u
  have hexec : exec (.ccSequenceReceived h fill) s =
      .next (u.freeBit.2.rateMatched h.val (decide (18 < fill)) (if u.freeBit.1 then 2 else 1)) := by
    change execCcSequenceReceived h fill s = _
    unfold execCcSequenceReceived
    dsimp only
    rw [hm]
    dsimp only
    rw [hu]
    exact if_pos hout
  have hsent : u.freeBit.2.sent = s.sent := by rw [← hu]; rfl
  have honly : Only [.lanes, .free] [] s u.freeBit.2 := hu ▸ (only_mapLane s m _).then (only_freeBit _)
  refine ⟨_, hexec, ?_, (honly.mono (by decide) (List.nil_subset _)).trans
    ((only_rateMatched _ _ _ _).mono (by decide) (List.Subset.refl _))⟩
  rw [State.rateMatched_sent, hsent]
  split
  · exact .inr rfl
  · exact .inl rfl

/-! ## Markers (R55) -/

theorem amSend_sends (h : Half) (s : State) (hc : s.boot.core = false) (hg : s.groupLanes h.val ≠ []) :
    Runs (.amSend h) s fun t =>
      (t.link h.val).amseq = ((s.link h.val).amseq + 1) % 65536 ∧
      Sends s t h.val (onLanes (s.groupLanes h.val) fun n => amBytes n (s.raw (Rg.LANE_STAT_POS n)) (s.link h.val).amseq
        (s.lineOf n).bip.toNat (s.amFlags n (t.link h.val).ccDue)) ∧
      Only [.links, .log] [] s t := by
  have hnot : ¬((s.groupLanes h.val).isEmpty = true ∨ s.boot.core = true) := by simp [hg, hc]
  refine ⟨_, if_neg hnot, ?_, ?_, (only_sendBlocks _ _ _).then (only_mapLink _ _ _)⟩
  · rw [State.link_mapLink_same]
  · rw [State.link_mapLink_same]
    refine (sends_sendBlocks (fun e he => ?_) ?_ h.val).congr rfl rfl rfl
    · obtain ⟨n, hn, rfl⟩ := List.mem_map.mp he
      exact State.groupLanes_up hc hn
    · exact (congrArg List.Nodup (onLanes_lanes (s.groupLanes h.val) _)).mpr (s.groupLanes_nodup h.val)

/-- Settles O1: clause by clause, from the status a lock sets, the lanes a slip marks, the CC sequence on every lane of the
group, the two outcomes of the fill, and the marker of each lane. -/
theorem laneReceiverStatus : Obligations.LaneReceiverStatus := by
  unfold Obligations.LaneReceiverStatus
  exact ⟨blockLockAcquired_locks, ebSlip_realigns, ccSequenceSend_sends,
    fun h fill m s hm => ⟨fun ⟨hlow, hhigh⟩ => ccSequenceReceived_even hm hlow hhigh, ccSequenceReceived_matches hm⟩,
    amSend_sends⟩

end Sys2Proof.Machine
end

section
/-! What reset leaves (R86 and the register tables of the other chapters), then the statement on it. -/

namespace Sys2Proof.Machine

/-- Settles O60: closed facts on the one reset state, evaluated clause by clause. -/
theorem resetValues : Obligations.ResetValues := by
  unfold Obligations.ResetValues
  refine ⟨?fields, ?lanes, ?votes, ?votesOfLead⟩
  case fields => decide +kernel
  case lanes => decide +kernel
  case votes => decide +kernel
  case votesOfLead => rfl

end Sys2Proof.Machine
end

section
/-! SUPPORT. The effects of a flow that wait, and the symbol at which a flow command takes effect (R106). -/

namespace Sys2Proof.Machine

/-- The effects of a flow that wait. -/
def State.fxOf (s : State) (n : Nat) : List FlowFx := tget (fun _ => []) s.flowFx n

section
variable {s : State} {n mu lead x a : Nat} {timed : Bool}

/-- A command's own effect symbol: the one it names, if its window has not opened, or the first of that kind. -/
def State.OwnSymbol (s : State) (mu lead x : Nat) (timed : Bool) (a : Nat) : Prop :=
  if timed then s.windowOpen x lead = false ∧ a = x else a = s.firstEffect mu lead

-- One declaration after the other: elaborated side by side, with a stack for each, they do not fit the check's memory.
set_option Elab.async false

theorem State.effectAt_late (hw : s.windowOpen x lead = true) : s.effectAt n mu lead (some x) = none := by
  simp [State.effectAt, hw]

theorem State.effectAt_alone (ha : s.OwnSymbol mu lead x timed a) (hfx : s.fxOf n = []) :
    s.effectAt n mu lead (if timed then some x else none) = some (a, 0) := by
  rw [State.fxOf] at hfx
  cases timed with
  | false =>
    obtain rfl : a = _ := ha
    simp [State.effectAt, hfx]
  | true =>
    obtain ⟨hw, rfl⟩ : _ ∧ a = _ := ha
    simp [State.effectAt, hw, hfx]

theorem State.effectAt_deferred {l : List FlowFx} {y : FlowFx} (ha : s.OwnSymbol mu lead x timed a) (hfx : s.fxOf n = l ++ [y])
    (hback : ahead y.at_ a < 0) : s.effectAt n mu lead (if timed then some x else none) = some (y.at_, 4) := by
  rw [State.fxOf] at hfx
  cases timed with
  | false =>
    obtain rfl : a = _ := ha
    simp [State.effectAt, hfx, hback]
  | true =>
    obtain ⟨hw, rfl⟩ : _ ∧ a = _ := ha
    simp [State.effectAt, hw, hfx, hback]

end

end Sys2Proof.Machine
end

section
/-! SUPPORT. The packet layer's record and registers (R94 to R99): what an acknowledgement, a discard, an acceptance and an
event leave in them. -/

namespace Sys2Proof.Machine

set_option Elab.async false

/-! ## Records and numbers -/

theorem State.pkt_mapPkt (s : State) (h k : Nat) (f : PktSt → PktSt) :
    (s.mapPkt h f).pkt k = if h = k then f (s.pkt h) else s.pkt k := tget_tset _ _ _ _ _

@[simp] theorem State.pkt_mapPkt_same (s : State) (h : Nat) (f : PktSt → PktSt) : (s.mapPkt h f).pkt h = f (s.pkt h) := by
  simp [State.pkt_mapPkt]

@[simp] theorem State.mapPkt_raw (s : State) (h : Nat) (f : PktSt → PktSt) (x : Fld) : (s.mapPkt h f).raw x = s.raw x := (rfl)

@[simp] theorem State.bump_pkt (s : State) (x : Fld) (n h : Nat) : (s.bump x n).pkt h = s.pkt h := (rfl)

theorem State.pkt_congr {s t : State} (h : t.pkts = s.pkts) (k : Nat) : t.pkt k = s.pkt k := by rw [State.pkt, h, State.pkt]

theorem leNat_lt (l : List Byte) : leNat l < 256 ^ l.length := by
  induction l with
  | nil => simp [leNat]
  | cons b l ih =>
    have hb := b.isLt
    rw [leNat, List.length_cons, pow_succ]
    omega

theorem beNat_lt (l : List Byte) (off n : Nat) : beNat l off n < 256 ^ n :=
  (leNat_lt _).trans_le (Nat.pow_le_pow_right (by decide) (by simp))

theorem hdrOf_seq_lt (l : List Byte) : (hdrOf l).seq < 65536 := beNat_lt l 4 2

/-! ## Frames -/

/-- Frames of operations done one after the other, whose inclusions one `decide` settles. -/
theorem Only.seq {l l' k : List Part} {m m' n : List Nat} {s t u : State} (a : Only l m s t) (b : Only l' m' t u)
    (h : (l ⊆ k ∧ l' ⊆ k) ∧ m ⊆ n ∧ m' ⊆ n) : Only k n s u := by
  obtain ⟨⟨hl, hl'⟩, hm, hm'⟩ := h
  exact (a.mono hl hm).trans (b.mono hl' hm')

/-! ## Acknowledgements and discards -/

theorem only_takeAck (s : State) (h k : Nat) : Only [.pkts] [] s (s.takeAck h k) := only_mapPkt _ _ _

/-- An acknowledgement leaves what the half expects and owes as it was. -/
theorem State.takeAck_receiver (s : State) (h k : Nat) : ((s.takeAck h k).pkt h).e = (s.pkt h).e ∧
    ((s.takeAck h k).pkt h).nakOut = (s.pkt h).nakOut ∧ ((s.takeAck h k).pkt h).llcp = (s.pkt h).llcp := by
  rw [State.takeAck, State.pkt_mapPkt_same]
  by_cases hr : (s.pkt h).rsync = some ((k + 1) % 65536)
  all_goals
    simp only [hr, if_true, if_false]
    split
    · exact ⟨rfl, rfl, rfl⟩
    · split <;> exact ⟨rfl, rfl, rfl⟩

/-- An acknowledgement of the oldest held packet releases it alone. -/
theorem State.takeAck_oldest {s : State} {h : Nat} {o : HeldPkt} {r : List HeldPkt} (hheld : (s.pkt h).held = o :: r) :
    ((s.takeAck h o.seq).pkt h).held = r ∧ ((s.takeAck h o.seq).pkt h).ackedSeq = o.seq ∧
    ((s.takeAck h o.seq).pkt h).resends = 0 := by
  rw [State.takeAck, State.pkt_mapPkt_same]
  split <;> simp [hheld]

/-- An acknowledgement of a packet that is not held releases none. -/
theorem State.takeAck_beyond {s : State} {h k : Nat} {o : HeldPkt} {r : List HeldPkt} (hheld : (s.pkt h).held = o :: r)
    (hk : (s.pkt h).held.length ≤ (k + 65536 - o.seq) % 65536) : ((s.takeAck h k).pkt h).held = (s.pkt h).held ∧
      ((s.takeAck h k).pkt h).resends = (s.pkt h).resends := by
  have hd : ¬(k + 65536 - o.seq) % 65536 ≤ r.length := by
    rw [hheld, List.length_cons] at hk
    omega
  rw [State.takeAck, State.pkt_mapPkt_same]
  split <;> simp [hheld, hd]

theorem only_pushLlcp (s : State) (h : Nat) (l : Llcp) : Only [.pkts] [] s (s.pushLlcp h l) := only_mapPkt _ _ _

theorem only_discardPkt (s : State) (h : Nat) (x : Fld) :
    Only [.pkts] [x.off, (Rg.C_NAK_TX h).off] s (s.discardPkt h x) := by
  have hb : Only [.pkts] [x.off, (Rg.C_NAK_TX h).off] s (s.bump x 1) := (only_bump s x 1).mono (by simp) (by simp)
  refine Only.ite _ (fun _ => hb) fun _ => hb.trans ?_
  exact (((only_mapPkt _ _ _).trans (only_pushLlcp _ _ _)).mono (List.Subset.refl _) (List.nil_subset _)).trans
    ((only_bump _ _ _).mono (List.nil_subset _) (by simp))

theorem State.discardPkt_e (s : State) (h : Nat) (x : Fld) : ((s.discardPkt h x).pkt h).e = (s.pkt h).e := by
  unfold State.discardPkt
  dsimp only
  split <;> simp [State.pushLlcp]

theorem State.discardPkt_raw (s : State) {h : Nat} {x : Fld} (hx : x.lo + x.w ≤ 32) (hn : (Rg.C_NAK_TX h).off ≠ x.off) :
    (s.discardPkt h x).raw x = min (s.raw x + 1) (2 ^ x.w - 1) := by
  rw [← State.raw_bump s x 1 hx]
  unfold State.discardPkt
  dsimp only
  split
  · rfl
  · exact State.raw_bump_off _ _ _ _ hn

/-! ## Events -/

/-- Raising an event adds to the transmit queues and changes nothing else of the packet layer. -/
theorem State.raise_pkt (s : State) (half code subject : Nat) (args : List Nat) (h : Nat) :
    ∃ q, (s.raise half code subject args).pkt h = { s.pkt h with queue := q } := by
  have hsame {t : State} (ht : t.pkts = s.pkts) : ∃ q, t.pkt h = { s.pkt h with queue := q } :=
    ⟨(s.pkt h).queue, State.pkt_congr ht h⟩
  have hsend {t : State} (ht : t.pkts = s.pkts) (k c : Nat) (l : List Byte) :
      ∃ q, (t.sendMsg k c l).pkt h = { s.pkt h with queue := q } := by
    rw [State.sendMsg, State.queueTx, State.pkt_mapPkt, State.pkt_congr ht, State.pkt_congr ht]
    split
    · next hk => exact ⟨_, by rw [hk]⟩
    · exact ⟨_, rfl⟩
  have hwrite (t : State) (e : Event) : (t.writeEvt e).pkts = t.pkts := (only_writeEvt t e).1 .pkts (by decide)
  unfold State.raise
  split
  · exact hsame rfl
  · unfold State.raiseNow
    dsimp only
    split
    · exact hsend (by split <;> [exact hwrite _ _; rfl]) _ _ _
    · exact hsame (by split <;> [exact hwrite _ _; rfl])

end Sys2Proof.Machine
end

section
/-! The receiver's judgement of a packet by its SEQ (R90 to R94), then the statement on it. -/

namespace Sys2Proof.Machine

set_option Elab.async false

/-- What retry makes of a whole packet by its SEQ (R94). -/
def State.judgeSeq (s : State) (h : Nat) (l : List Byte) : State :=
  let d := ((hdrOf l).seq + 65536 - (s.pkt h).e) % 65536
  if d = 0 then
    if badType (hdrOf l) l then (s.acceptSeq h).bump (Rg.C_BAD_TYPE h) 1 else s.acceptSeq h
  else if 65536 - 512 ≤ d then (s.discardPkt h (Rg.C_RX_DUP h)).mapPkt h fun q => { q with ackOwed := true }
  else s.discardPkt h (Rg.C_RX_SEQ h)

section
variable {s : State} {h : Nat} {l : List Byte}

/-- A packet that is not of the LLCP is judged behind its acknowledgement, which leaves E. -/
theorem State.takePacket_judged (hcrc : hcrcOk l = true) (hlen : (hdrOf l).len = l.length) (hmax : l.length ≤ 9216)
    (pcrc : pcrcOk l = true) (hty : (hdrOf l).type ≠ 7) :
    ∃ u, Only [.pkts] [] s u ∧ (u.pkt h).e = (s.pkt h).e ∧ s.takePacket h l = u.judgeSeq h l := by
  refine ⟨if decide (128 ≤ (hdrOf l).flags) && (hdrOf l).ver == 1 then s.takeAck h (hdrOf l).ackseq else s, ?_, ?_, ?_⟩
  · exact Only.ite _ (fun _ => only_takeAck _ _ _) fun _ => Only.refl _ _ _
  · split
    · exact (s.takeAck_receiver h _).1
    · rfl
  · have hnot : ¬((hdrOf l).len ≠ l.length ∨ 9216 < (hdrOf l).len) := by omega
    simp only [State.takePacket, hcrc, pcrc, hnot, hty, Bool.not_true, Bool.false_eq_true, if_false]
    rfl

/-- A half that finds one packet which is not of the LLCP judges it by its SEQ. -/
theorem State.receive_judged {rows : List (List (Nat × Blk))} (hg : GoodPacket s h rows l) (hty : (hdrOf l).type ≠ 7) :
    ∃ u, Only [.pkts] [] s u ∧ (u.pkt h).e = (s.pkt h).e ∧ s.receive h rows = u.judgeSeq h l := by
  obtain ⟨hevt, hcrc, hlen, hmax, pcrc⟩ := hg
  obtain ⟨u, ho, he, hu⟩ := State.takePacket_judged (s := s.mapPkt h fun p => { p with rx := (s.rxEvts h rows).2 }) (h := h)
    hcrc hlen hmax pcrc hty
  refine ⟨u, (only_mapPkt _ _ _).trans ho, he.trans (by simp), ?_⟩
  rw [← hu]
  exact congrArg (List.foldl (State.takeEvt h) (s.mapPkt h fun p => { p with rx := (s.rxEvts h rows).2 })) hevt

theorem State.acceptSeq_pkt (s : State) (h : Nat) : (s.acceptSeq h).pkt h =
    { s.pkt h with e := ((s.pkt h).e + 1) % 65536, nakOut := false, ackOwed := true } := by
  simp [State.acceptSeq]

/-- The packet expected advances E, is acknowledged and counted. -/
theorem State.judgeSeq_expected (he : (hdrOf l).seq = (s.pkt h).e) :
    ((s.judgeSeq h l).pkt h).e = ((s.pkt h).e + 1) % 65536 ∧ ((s.judgeSeq h l).pkt h).ackOwed = true ∧
    ((s.judgeSeq h l).pkt h).nakOut = false ∧ (s.judgeSeq h l).raw (Rg.C_RX_PKT h) =
      min (s.raw (Rg.C_RX_PKT h) + 1) (2 ^ (Rg.C_RX_PKT h).w - 1) ∧
    Only [.pkts] ((Rg.C_RX_PKT h).off :: if badType (hdrOf l) l then [(Rg.C_BAD_TYPE h).off] else []) s (s.judgeSeq h l) := by
  have hd : ((hdrOf l).seq + 65536 - (s.pkt h).e) % 65536 = 0 := by omega
  have hcount : (s.acceptSeq h).raw (Rg.C_RX_PKT h) = min (s.raw (Rg.C_RX_PKT h) + 1) (2 ^ (Rg.C_RX_PKT h).w - 1) :=
    State.raw_bump _ _ _ (Nat.le_refl 32)
  have only (m : List Nat) : Only [.pkts] ((Rg.C_RX_PKT h).off :: m) s (s.acceptSeq h) :=
    ((only_mapPkt _ _ _).mono (List.Subset.refl _) (List.nil_subset _)).trans
      ((only_bump _ _ _).mono (List.nil_subset _) (by simp))
  rw [show s.judgeSeq h l = _ from if_pos hd]
  split
  · refine ⟨?_, ?_, ?_, (State.raw_bump_off _ _ _ _ (by simp [Rg.C_BAD_TYPE, Rg.C_RX_PKT])).trans hcount,
      (only _).trans ((only_bump _ _ _).mono (List.nil_subset _) (by simp))⟩
    iterate 3 rw [State.bump_pkt, State.acceptSeq_pkt]
  · refine ⟨?_, ?_, ?_, hcount, only _⟩
    iterate 3 rw [State.acceptSeq_pkt]

/-- A packet other than the one expected leaves E and RX_PKT. -/
theorem State.judgeSeq_other (hlt : (s.pkt h).e < 65536) (he : (hdrOf l).seq ≠ (s.pkt h).e) :
    ((s.judgeSeq h l).pkt h).e = (s.pkt h).e ∧
    Only [.pkts] [(Rg.C_RX_DUP h).off, (Rg.C_RX_SEQ h).off, (Rg.C_NAK_TX h).off] s (s.judgeSeq h l) := by
  have hd : ¬((hdrOf l).seq + 65536 - (s.pkt h).e) % 65536 = 0 := by
    have := hdrOf_seq_lt l
    omega
  rw [show s.judgeSeq h l = _ from if_neg hd]
  split
  · refine ⟨?_, ((only_discardPkt _ _ _).mono (List.Subset.refl _) (by simp)).trans
      ((only_mapPkt _ _ _).mono (List.Subset.refl _) (List.nil_subset _))⟩
    rw [State.pkt_mapPkt_same]
    exact State.discardPkt_e _ _ _
  · exact ⟨State.discardPkt_e _ _ _, (only_discardPkt _ _ _).mono (List.Subset.refl _) (by simp)⟩

/-- One of the 512 packets before the one expected is a repeat: its acknowledgement is owed again, and it is counted. -/
theorem State.judgeSeq_repeat (hlt : (s.pkt h).e < 65536) {k : Nat} (hk : 1 ≤ k) (hk' : k ≤ 512)
    (he : ((hdrOf l).seq + k) % 65536 = (s.pkt h).e) : ((s.judgeSeq h l).pkt h).ackOwed = true ∧
    (s.judgeSeq h l).raw (Rg.C_RX_DUP h) = min (s.raw (Rg.C_RX_DUP h) + 1) (2 ^ (Rg.C_RX_DUP h).w - 1) := by
  have hseq := hdrOf_seq_lt l
  have h0 : ¬((hdrOf l).seq + 65536 - (s.pkt h).e) % 65536 = 0 := by omega
  have h512 : 65536 - 512 ≤ ((hdrOf l).seq + 65536 - (s.pkt h).e) % 65536 := by omega
  rw [show s.judgeSeq h l = _ from (if_neg h0).trans (if_pos h512)]
  refine ⟨by rw [State.pkt_mapPkt_same], ?_⟩
  rw [State.mapPkt_raw]
  exact State.discardPkt_raw _ (Nat.le_refl 32) (by simp [Rg.C_NAK_TX, Rg.C_RX_DUP])

/-- Any other packet is out of sequence, and counted as that. -/
theorem State.judgeSeq_stray (hlt : (s.pkt h).e < 65536) (he : ∀ k, k ≤ 512 → ((hdrOf l).seq + k) % 65536 ≠ (s.pkt h).e) :
    (s.judgeSeq h l).raw (Rg.C_RX_SEQ h) = min (s.raw (Rg.C_RX_SEQ h) + 1) (2 ^ (Rg.C_RX_SEQ h).w - 1) := by
  have hseq := hdrOf_seq_lt l
  have h0 : ¬((hdrOf l).seq + 65536 - (s.pkt h).e) % 65536 = 0 := by
    have := he 0 (by decide)
    omega
  have h512 : ¬65536 - 512 ≤ ((hdrOf l).seq + 65536 - (s.pkt h).e) % 65536 := fun hle =>
    he (65536 - ((hdrOf l).seq + 65536 - (s.pkt h).e) % 65536) (by omega) (by omega)
  rw [show s.judgeSeq h l = _ from (if_neg h0).trans (if_neg h512)]
  exact State.discardPkt_raw _ (Nat.le_refl 32) (by simp [Rg.C_NAK_TX, Rg.C_RX_SEQ])

theorem exec_packetReceived_up {h : Half} (rows : List (List (Nat × Blk))) (hup : s.linkUp h.val = true) :
    exec (.packetReceived h rows) s = .next (s.receive h.val rows) := if_pos hup

end

/-- Settles O7: behind its acknowledgement a packet is judged by its distance from E alone, in three ranges. -/
theorem retryReceiver : Obligations.RetryReceiver := by
  unfold Obligations.RetryReceiver
  intro h rows l s hup hg hty hlt
  obtain ⟨u, ho, he, hu⟩ := State.receive_judged hg hty
  have raw (x : Fld) : u.raw x = s.raw x := ho.2.raw x (by simp)
  refine ⟨s.receive h.val rows, exec_packetReceived_up rows hup, ?_⟩
  rw [hu]
  rw [← he] at hlt ⊢
  simp only [← raw]
  refine ⟨fun hs => ?_, fun k hk hk' hs => ?_, fun hs => ?_, fun p hp => ?_⟩
  · obtain ⟨h1, h2, h3, h4, -⟩ := State.judgeSeq_expected hs
    exact ⟨h1, h2, h3, h4⟩
  · exact ⟨(State.judgeSeq_other hlt (by omega)).1, State.judgeSeq_repeat hlt hk hk' hs⟩
  · exact ⟨(State.judgeSeq_other hlt fun hq => hs 0 (by decide) (by omega)).1, State.judgeSeq_stray hlt hs⟩
  · by_cases hs : (hdrOf l).seq = (u.pkt h.val).e
    · obtain ⟨-, -, -, -, hj⟩ := State.judgeSeq_expected hs
      exact Part.same_trans (ho.1 p hp) (hj.1 p hp)
    · exact Part.same_trans (ho.1 p hp) ((State.judgeSeq_other hlt hs).2.1 p hp)

end Sys2Proof.Machine
end

section
/-! Acknowledgements, resends, resynchronisation and void packets (R95 to R99, R121), then the statement on them. -/

namespace Sys2Proof.Machine

set_option Elab.async false

section
variable {h : Half} {s : State}

/-! ## NAK and acknowledgement (R95, R96) -/

theorem nakRepeat_repeats (hn : (s.pkt h.val).nakOut = true) : Runs (.nakRepeat h) s fun t =>
    (t.pkt h.val).llcp = (s.pkt h.val).llcp ++ [⟨true, none⟩] ∧
    t.raw (Rg.C_NAK_TX h.val) = min (s.raw (Rg.C_NAK_TX h.val) + 1) (2 ^ (Rg.C_NAK_TX h.val).w - 1) ∧
    Only [.pkts] [(Rg.C_NAK_TX h.val).off] s t := by
  refine ⟨_, if_pos hn, ?_, State.raw_bump _ _ _ (Nat.le_refl 32), ?_⟩
  · simp [State.pushLlcp]
  · exact ((only_pushLlcp _ _ _).mono (List.Subset.refl _) (List.nil_subset _)).trans
      ((only_bump _ _ _).mono (List.nil_subset _) (List.Subset.refl _))

theorem llcpAck_releases {o : HeldPkt} {r : List HeldPkt} (hup : s.linkUp h.val = true) (hheld : (s.pkt h.val).held = o :: r) :
    Runs (.llcpAck h o.seq) s fun t => (t.pkt h.val).held = r ∧ (t.pkt h.val).ackedSeq = o.seq ∧ (t.pkt h.val).resends = 0 ∧
      Only [.pkts] [] s t := by
  obtain ⟨h1, h2, h3⟩ := State.takeAck_oldest hheld
  exact ⟨_, if_pos hup, h1, h2, h3, only_takeAck _ _ _⟩

/-! ## Resends (R97) -/

/-- With resends left, every held packet is to be resent. -/
theorem State.startResend_again {k : Nat} (hheld : (s.pkt k).held ≠ []) (hmax : (s.pkt k).resends < s.f Rg.PKT_CFG_RETRY_MAX) :
    s.startResend k = s.mapPkt k fun q => { q with resendLeft := q.held.length } := by
  rw [State.startResend, if_neg hheld, if_neg (Nat.not_le.mpr hmax)]

theorem State.startResend_spent {k : Nat} (hheld : (s.pkt k).held ≠ []) (hmax : s.f Rg.PKT_CFG_RETRY_MAX ≤ (s.pkt k).resends) :
    s.startResend k = s.resync k := by
  rw [State.startResend, if_neg hheld, if_pos hmax]

theorem retryMax_off (h : Half) : Rg.PKT_CFG_RETRY_MAX.off ∉ [(Rg.C_NAK_RX h.val).off] := by
  have := h.isLt
  simp only [Rg.PKT_CFG_RETRY_MAX, Rg.C_NAK_RX, List.mem_singleton]
  omega

theorem llcpNak_resends {k : Nat} {o : HeldPkt} {r : List HeldPkt} (hup : s.linkUp h.val = true)
    (hheld : (s.pkt h.val).held = o :: r) (hk : (s.pkt h.val).held.length ≤ (k + 65536 - o.seq) % 65536)
    (hmax : (s.pkt h.val).resends < s.f Rg.PKT_CFG_RETRY_MAX) : Runs (.llcpNak h k) s fun t =>
      (t.pkt h.val).resendLeft = (s.pkt h.val).held.length ∧ (t.pkt h.val).held = (s.pkt h.val).held ∧
      (t.pkt h.val).resends = (s.pkt h.val).resends ∧
      t.raw (Rg.C_NAK_RX h.val) = min (s.raw (Rg.C_NAK_RX h.val) + 1) (2 ^ (Rg.C_NAK_RX h.val).w - 1) ∧
      Only [.pkts] [(Rg.C_NAK_RX h.val).off] s t := by
  have hb : (s.bump (Rg.C_NAK_RX h.val) 1).pkt h.val = s.pkt h.val := s.bump_pkt _ _ _
  have ht := only_takeAck (s.bump (Rg.C_NAK_RX h.val) 1) h.val k
  obtain ⟨hh, hr⟩ := State.takeAck_beyond (s := s.bump (Rg.C_NAK_RX h.val) 1) (k := k) (by rwa [hb]) (by rwa [hb])
  rw [hb] at hh hr
  have hu : Only [.pkts] [(Rg.C_NAK_RX h.val).off] s ((s.bump (Rg.C_NAK_RX h.val) 1).takeAck h.val k) :=
    ((only_bump _ _ _).mono (List.nil_subset _) (List.Subset.refl _)).trans (ht.mono (List.Subset.refl _) (List.nil_subset _))
  have hf := State.f_of_raw (hu.2.raw Rg.PKT_CFG_RETRY_MAX (retryMax_off h))
  refine ⟨_, if_pos hup, ?_⟩
  beta_reduce
  rw [State.startResend_again (by rw [hh, hheld]; simp) (by rwa [hr, hf]), State.pkt_mapPkt_same, State.mapPkt_raw,
    ht.2.raw _ (by simp), State.raw_bump _ (Rg.C_NAK_RX h.val) _ (Nat.le_refl 32)]
  exact ⟨congrArg _ hh, hh, hr, rfl, hu.trans ((only_mapPkt _ _ _).mono (List.Subset.refl _) (List.nil_subset _))⟩

/-! ## Resynchronisation (R99) -/

/-- Responses that have left are marked as discarded where they are among the held packets. -/
def State.markDiscarded (s : State) (h : Nat) (held : List HeldPkt) : State :=
  let tags := (held.filter fun k => k.item.type == 5 && !k.void).map fun k => rspTag k.item
  s.mapCmd fun c =>
    { c with txnDone := c.txnDone.map fun d => if d.half = h ∧ tags.contains d.tag then { d with discarded := true } else d }

theorem State.markDiscarded_pkt (s : State) (h : Nat) (held : List HeldPkt) (k : Nat) :
    (s.markDiscarded h held).pkt k = s.pkt k := rfl

theorem State.markDiscarded_raw (s : State) (h : Nat) (held : List HeldPkt) (x : Fld) :
    (s.markDiscarded h held).raw x = s.raw x := rfl

/-- What is held is discarded and counted, and an RSYNC with the next number is due. -/
def State.dropHeld (s : State) (h : Nat) : State :=
  (((s.bump (Rg.C_RSYNC_LOST h) (s.pkt h).held.length).markDiscarded h (s.pkt h).held).mapPkt h fun q =>
    { q with held := [], resendLeft := 0, resends := 0, rsync := some q.nextSeq }).pushLlcp h ⟨false, some (s.pkt h).nextSeq⟩

theorem State.resync_eq (s : State) (h : Nat) :
    s.resync h = (s.dropHeld h).raise h Ev.LINK_RESYNC h [1, (s.pkt h).held.length] := rfl

theorem State.dropHeld_pkt (s : State) (h : Nat) : (s.dropHeld h).pkt h =
    { s.pkt h with held := [], resendLeft := 0, resends := 0, rsync := some (s.pkt h).nextSeq,
                   llcp := (s.pkt h).llcp ++ [⟨false, some (s.pkt h).nextSeq⟩] } := by
  refine (State.pkt_mapPkt_same _ _ _).trans ?_
  rw [State.pkt_mapPkt_same, State.markDiscarded_pkt, State.bump_pkt]

theorem State.dropHeld_raw (s : State) (h : Nat) (x : Fld) :
    (s.dropHeld h).raw x = (s.bump (Rg.C_RSYNC_LOST h) (s.pkt h).held.length).raw x := by
  refine (State.mapPkt_raw _ _ _ _).trans ?_
  rw [State.mapPkt_raw, State.markDiscarded_raw]

theorem State.resync_spec (s : State) (h : Half) : ((s.resync h.val).pkt h.val).held = [] ∧
    ((s.resync h.val).pkt h.val).rsync = some (s.pkt h.val).nextSeq ∧
    ((s.resync h.val).pkt h.val).llcp = (s.pkt h.val).llcp ++ [⟨false, some (s.pkt h.val).nextSeq⟩] ∧
    (s.resync h.val).raw (Rg.C_RSYNC_LOST h.val) =
      min (s.raw (Rg.C_RSYNC_LOST h.val) + (s.pkt h.val).held.length) (2 ^ (Rg.C_RSYNC_LOST h.val).w - 1) := by
  have hoff : (Rg.C_RSYNC_LOST h.val).off ∉ eventRegs := by
    have := h.isLt
    simp only [eventRegs, Rg.C_RSYNC_LOST, Rg.ALERT_STAT_EVT_LOST, Rg.MSIX_PBA, Rg.RING_IDX_DEV_IDX, Rg.C_EVT_LOST,
      List.mem_cons, List.not_mem_nil, or_false]
    omega
  obtain ⟨q, hq⟩ := (s.dropHeld h.val).raise_pkt h.val Ev.LINK_RESYNC h.val [1, (s.pkt h.val).held.length] h.val
  rw [State.resync_eq, hq, State.dropHeld_pkt, State.raise_raw _ _ _ _ _ _ hoff, State.dropHeld_raw,
    State.raw_bump _ (Rg.C_RSYNC_LOST h.val) _ (Nat.le_refl 32)]
  exact ⟨rfl, rfl, rfl, rfl⟩

theorem replayTimeout_resends (hheld : (s.pkt h.val).held ≠ []) (hmax : (s.pkt h.val).resends < s.f Rg.PKT_CFG_RETRY_MAX) :
    Runs (.replayTimeout h) s fun t => (t.pkt h.val).resendLeft = (s.pkt h.val).held.length ∧ Only [.pkts] [] s t := by
  refine ⟨s.startResend h.val, rfl, ?_⟩
  beta_reduce
  rw [State.startResend_again hheld hmax, State.pkt_mapPkt_same]
  exact ⟨rfl, only_mapPkt _ _ _⟩

theorem replayTimeout_resyncs (hheld : (s.pkt h.val).held ≠ []) (hmax : s.f Rg.PKT_CFG_RETRY_MAX ≤ (s.pkt h.val).resends) :
    Runs (.replayTimeout h) s fun t => (t.pkt h.val).held = [] ∧ (t.pkt h.val).rsync = some (s.pkt h.val).nextSeq ∧
      (t.pkt h.val).llcp = (s.pkt h.val).llcp ++ [⟨false, some (s.pkt h.val).nextSeq⟩] ∧
      t.raw (Rg.C_RSYNC_LOST h.val) =
        min (s.raw (Rg.C_RSYNC_LOST h.val) + (s.pkt h.val).held.length) (2 ^ (Rg.C_RSYNC_LOST h.val).w - 1) := by
  refine ⟨s.startResend h.val, rfl, ?_⟩
  rw [State.startResend_spent hheld hmax]
  exact s.resync_spec h

theorem llcpRsync_sets (seq : Nat) (hup : s.linkUp h.val = true) : Runs (.llcpRsync h seq) s fun t =>
    (t.pkt h.val).e = seq % 65536 ∧ (t.pkt h.val).ackOwed = true ∧
    (t.pkt h.val).llcp = (s.pkt h.val).llcp ++ [⟨false, none⟩] ∧ Only eventParts eventRegs s t := by
  let u := (s.mapPkt h.val fun p => { p with e := seq % 65536, nakOut := false, ackOwed := true }).pushLlcp h.val ⟨false, none⟩
  have hp : u.pkt h.val = { s.pkt h.val with e := seq % 65536, nakOut := false, ackOwed := true,
                                             llcp := (s.pkt h.val).llcp ++ [⟨false, none⟩] } := by
    rw [show u = State.pushLlcp _ _ _ from rfl, State.pushLlcp, State.pkt_mapPkt_same, State.pkt_mapPkt_same]
  let skipped := (seq + 65536 - (s.pkt h.val).e) % 65536
  have hu : Only eventParts eventRegs s u :=
    ((only_mapPkt _ _ _).trans (only_pushLlcp _ _ _)).mono (by decide) (List.nil_subset _)
  obtain ⟨q, hq⟩ := u.raise_pkt h.val Ev.LINK_RESYNC h.val [0, skipped] h.val
  refine ⟨u.raise h.val Ev.LINK_RESYNC h.val [0, skipped], if_pos hup, ?_⟩
  beta_reduce
  rw [hq, hp]
  exact ⟨rfl, rfl, rfl, hu.trans (only_raise _ _ _ _ _)⟩

theorem rsyncRepeat_repeats {q : Nat} (hq : (s.pkt h.val).rsync = some q) : Runs (.rsyncRepeat h) s fun t =>
    (t.pkt h.val).llcp = (s.pkt h.val).llcp ++ [⟨false, some q⟩] ∧ Only [.pkts] [] s t := by
  refine ⟨s.pushLlcp h.val ⟨false, some q⟩, ?_, ?_, only_pushLlcp _ _ _⟩
  · change execRsyncRepeat h s = _
    rw [execRsyncRepeat, hq]
  · rw [State.pushLlcp, State.pkt_mapPkt_same]

/-! ## Void and message packets (R98, R121) -/

section
variable {rows : List (List (Nat × Blk))} {l : List Byte} (hup : s.linkUp h.val = true) (hg : GoodPacket s h.val rows l)
  (hty : (hdrOf l).type = 8)
include hup hg hty

theorem exec_voidReceived_void : exec (.voidReceived h rows) s = .next (s.receive h.val rows) := by
  change execVoidReceived h rows s = _
  obtain ⟨hevt, -⟩ := hg
  simp [execVoidReceived, hevt, hup, hty]

theorem voidReceived_advances (hver : (hdrOf l).ver = 1) (he : (hdrOf l).seq = (s.pkt h.val).e) :
    Runs (.voidReceived h rows) s fun t =>
      (t.pkt h.val).e = ((s.pkt h.val).e + 1) % 65536 ∧ RegsBut [(Rg.C_RX_PKT h.val).off] s t := by
  obtain ⟨u, ho, hue, hu⟩ := State.receive_judged hg (by omega)
  have hgood : badType (hdrOf l) l = false := by simp [badType, hver, hty, typeToDevice]
  obtain ⟨h1, -, -, -, h5⟩ := State.judgeSeq_expected (he.trans hue.symm)
  rw [hgood] at h5
  refine ⟨_, exec_voidReceived_void hup hg hty, ?_⟩
  rw [hu, ← hue]
  exact ⟨h1, ((ho.mono (List.Subset.refl _) (List.nil_subset _)).trans h5).2⟩

theorem voidReceived_discarded (hlt : (s.pkt h.val).e < 65536) (he : (hdrOf l).seq ≠ (s.pkt h.val).e) :
    Runs (.voidReceived h rows) s fun t =>
      (t.pkt h.val).e = (s.pkt h.val).e ∧ t.raw (Rg.C_RX_PKT h.val) = s.raw (Rg.C_RX_PKT h.val) := by
  obtain ⟨u, ho, hue, hu⟩ := State.receive_judged hg (by omega)
  obtain ⟨h1, h2⟩ := State.judgeSeq_other (hue ▸ hlt) (hue ▸ he)
  refine ⟨_, exec_voidReceived_void hup hg hty, ?_⟩
  rw [hu]
  exact ⟨h1.trans hue, (h2.2.raw _ (by simp [Rg.C_RX_PKT, Rg.C_RX_DUP, Rg.C_RX_SEQ, Rg.C_NAK_TX])).trans (ho.2.raw _ (by simp))⟩

end

theorem msgReceived_counts (hup : s.linkUp h.val = true) : Runs (.msgReceived h) s fun t =>
    t.raw (Rg.C_BAD_TYPE h.val) = min (s.raw (Rg.C_BAD_TYPE h.val) + 1) (2 ^ (Rg.C_BAD_TYPE h.val).w - 1) ∧
    Only [] [(Rg.C_BAD_TYPE h.val).off] s t :=
  ⟨_, if_pos hup, State.raw_bump _ _ _ (Nat.le_refl 32), only_bump _ _ _⟩

end

/-- Settles O8: clause by clause, from what an acknowledgement releases, a resend or a resynchronisation leaves, and the
judgement of a VOID by its SEQ. -/
theorem retryTraffic : Obligations.RetryTraffic := by
  unfold Obligations.RetryTraffic
  exact ⟨fun _ _ hn => nakRepeat_repeats hn, fun _ _ _ _ _ hup hheld hk hmax => llcpNak_resends hup hheld hk hmax,
    fun _ _ _ _ hup hheld _ => llcpAck_releases hup hheld, fun _ seq _ hup => llcpRsync_sets seq hup,
    fun _ _ hheld => ⟨replayTimeout_resends hheld, replayTimeout_resyncs hheld⟩, fun _ _ _ hq => rsyncRepeat_repeats hq,
    fun _ _ _ _ hup hg hty hver hlt => ⟨voidReceived_advances hup hg hty hver, voidReceived_discarded hup hg hty hlt⟩,
    fun _ _ hup => msgReceived_counts hup⟩

end Sys2Proof.Machine
end

section
/-! SUPPORT. What a half sends on its stripe (R87 to R93, R96, R121), the order of Table 25, and the framing of a packet's
blocks (R88, R90). -/

namespace Sys2Proof.Machine

set_option Elab.async false

/-! ## The stripe stream (R87) -/

theorem State.mem_txLanes {s : State} {h n : Nat} (hn : n ∈ s.txLanes h) : s.laneState n = 5 ∨ s.laneState n = 4 := by
  obtain ⟨p, -, hp⟩ := List.mem_filterMap.mp hn
  unfold State.txLane at hp
  split at hp
  · next b hb =>
    obtain rfl := Option.some.inj hp
    have := List.find?_some hb
    simp only [Bool.and_eq_true, beq_iff_eq] at this
    exact Or.inr this.2
  · have := List.mem_of_find?_eq_some hp
    simp only [State.activeLanes, List.mem_filter, beq_iff_eq] at this
    exact Or.inl this.2

theorem State.txLanes_congr {s t : State} (hl : t.links = s.links) (hr : ∀ x, t.raw x = s.raw x) (h : Nat) :
    t.txLanes h = s.txLanes h := by
  have : t.txLane h = s.txLane h := by
    funext p
    simp only [State.txLane, State.activeLanes, State.link, State.laneState, hl, hr]
  rw [State.txLanes, this, State.txLanes]

theorem mem_stripe {lanes : List Nat} {k : Nat} {l : List Blk} (hl : lanes ≠ []) {e : Nat × Blk} (he : e ∈ stripe lanes k l) :
    e.1 ∈ lanes := by
  obtain ⟨⟨b, i⟩, -, rfl⟩ := List.mem_map.mp he
  have hlt : (k + i) % lanes.length < lanes.length := Nat.mod_lt _ (List.length_pos_iff.mpr hl)
  simp [nth, hlt]

theorem State.codeBlocks_cons (s : State) (e : Nat × Blk) (l : List (Nat × Blk)) : (s.codeBlocks (e :: l)).1 =
    (e.1, ((s.lineOf e.1).send e.2).1) :: ((s.mapLine e.1 fun _ => ((s.lineOf e.1).send e.2).2).codeBlocks l).1 := rfl

/-- How blocks are coded depends on the coders alone. -/
theorem State.codeBlocks_congr {s t : State} (hl : t.line = s.line) (l : List (Nat × Blk)) :
    (t.codeBlocks l).1 = (s.codeBlocks l).1 := by
  induction l generalizing s t with
  | nil => rfl
  | cons e l ih =>
    have hn := State.lineOf_congr hl e.1
    have hm : (t.mapLine e.1 fun _ => ((t.lineOf e.1).send e.2).2).line =
        (s.mapLine e.1 fun _ => ((s.lineOf e.1).send e.2).2).line := by
      simp only [State.mapLine, hn, hl]
    rw [State.codeBlocks_cons, State.codeBlocks_cons, ih hm, hn]

section
variable {s : State} {h : Nat} {l : List Blk} (hc : s.boot.core = false) (hlanes : s.txLanes h ≠ []) (hl : l ≠ [])

theorem State.sendStream_eq (hlanes : s.txLanes h ≠ []) : s.sendStream h l =
    (s.sendBlocks h (stripe (s.txLanes h) (s.pkt h).stripe l)).mapPkt h fun p =>
      { p with stripe := ((s.pkt h).stripe + l.length) % (s.txLanes h).length } := if_neg hlanes

theorem only_sendStream (s : State) (h : Nat) (l : List Blk) : Only [.pkts, .log] [] s (s.sendStream h l) :=
  Only.ite _ (fun _ => Only.refl _ _ _) fun _ => (only_sendBlocks _ _ _).seq (only_mapPkt _ _ _) (by decide)

theorem State.sendStream_pkt (hlanes : s.txLanes h ≠ []) : ∃ k, (s.sendStream h l).pkt h = { s.pkt h with stripe := k } := by
  rw [State.sendStream_eq hlanes, State.pkt_mapPkt_same, State.pkt_congr ((only_sendBlocks _ _ _).1 .pkts (by decide))]
  exact ⟨_, rfl⟩

include hc hlanes hl in
theorem streams_sendStream : Streams s (s.sendStream h l) h l := by
  have hne : stripe (s.txLanes h) (s.pkt h).stripe l ≠ [] := by
    simpa [stripe] using hl
  have hup : ∀ e ∈ stripe (s.txLanes h) (s.pkt h).stripe l, s.lineIdle e.1 = false := fun e he =>
    State.lineIdle_of_up hc ((State.mem_txLanes (mem_stripe hlanes he)).imp_right Or.inl)
  rw [Streams, State.sendStream_eq hlanes, State.mapPkt_sent, State.sendBlocks_eq hne hup, State.emit, State.codeBlocks_sent]

end

theorem Streams.congr {s u t : State} {h : Nat} {l : List Blk} (a : Streams u t h l) (hu : Only [.pkts] [] s u)
    (hk : (u.pkt h).stripe = (s.pkt h).stripe) : Streams s t h l := by
  obtain ⟨hline, hsent⟩ := hu.1 .log (by decide)
  rw [Streams, State.txLanes_congr (hu.1 .links (by decide)) (fun x => hu.2.raw x (by simp)), hk, hsent,
    State.codeBlocks_congr hline] at a
  exact a

/-- A packet that a half starts leaves as blocks in stripe order, with ACKSEQ = E - 1, and pays the acknowledgement owed. -/
theorem State.startPkt_spec {s u : State} {h : Nat} (hu : Only [.pkts] [] s u) (hk : (u.pkt h).stripe = (s.pkt h).stripe)
    (hc : s.boot.core = false) (hlanes : s.txLanes h ≠ []) (type flags seq flow nsec : Nat) (body : List Byte) :
    Streams s (u.startPkt h type flags seq flow nsec body false) h
      (packetBlks (packetBytes type (128 + flags) seq (((u.pkt h).e + 65535) % 65536) flow nsec body)) ∧
    (∃ k, (u.startPkt h type flags seq flow nsec body false).pkt h = { u.pkt h with stripe := k, ackOwed := false }) ∧
    Only [.pkts, .log] [] s (u.startPkt h type flags seq flow nsec body false) := by
  let l := packetBlks (packetBytes type (128 + flags) seq (((u.pkt h).e + 65535) % 65536) flow nsec body)
  have heq : u.startPkt h type flags seq flow nsec body false =
      (u.sendStream h l).mapPkt h fun p => { p with ackOwed := false } := rfl
  have hlanes' : u.txLanes h ≠ [] := by
    rwa [State.txLanes_congr (hu.1 .links (by decide)) (fun x => hu.2.raw x (by simp))]
  have hc' : u.boot.core = false := (congrArg BootSt.core (hu.1 .boot (by decide))).trans hc
  obtain ⟨k, hp⟩ := State.sendStream_pkt (l := l) hlanes'
  rw [heq]
  refine ⟨(streams_sendStream hc' hlanes' (List.cons_ne_nil _ _)).congr hu hk, ⟨k, ?_⟩, ?_⟩
  · rw [State.pkt_mapPkt_same, hp]
  · exact ((hu.mono (by decide) (List.Subset.refl _)).trans (only_sendStream _ _ _)).trans
      ((only_mapPkt _ _ _).mono (by decide) (List.Subset.refl _))

/-! ## Messages of the other half (R121) -/

theorem only_takeOver (s : State) (h : Nat) : Only [.pkts] [] s (s.takeOver h) :=
  Only.ite _ (fun _ => Only.refl _ _ _) fun _ => (only_mapPkt _ _ _).trans (only_mapPkt _ _ _)

/-- A half that takes over messages changes nothing of its packet layer but the queue. -/
theorem State.takeOver_pkt (s : State) (h : Half) : ∃ q, (s.takeOver h.val).pkt h.val = { s.pkt h.val with queue := q } := by
  unfold State.takeOver
  split
  · exact ⟨_, rfl⟩
  · have hne : 1 - h.val ≠ h.val := by omega
    dsimp only
    rw [State.pkt_mapPkt_same, State.pkt_mapPkt, if_neg hne]
    exact ⟨_, rfl⟩

/-! ## The order of Table 25 -/

theorem keyLt_iff (a b : Nat × Int) : keyLt a b = true ↔ a.1 < b.1 ∨ (a.1 = b.1 ∧ a.2 < b.2) := by simp [keyLt]

theorem keyLt_asymm {a b : Nat × Int} (h : keyLt a b = true) : keyLt b a = false := by
  rw [keyLt_iff] at h
  rw [← Bool.not_eq_true, keyLt_iff]
  omega

/-- What is not before one key is not before a key that comes no later. -/
theorem not_keyLt_trans {a b c : Nat × Int} (hb : keyLt b c = false) (ha : keyLt a b = false) : keyLt a c = false := by
  rw [← Bool.not_eq_true, keyLt_iff] at ha hb ⊢
  omega

theorem pickTx_eq_none {now : Nat} {l : List TxItem} : pickTx now l = none → l = [] := by
  cases l with
  | nil => exact fun _ => rfl
  | cons x r =>
    intro h
    rw [pickTx] at h
    split at h
    · split at h <;> cases h
    · cases h

/-- The packet picked is one of the queue with the least key, and the others stay. -/
theorem pickTx_least (now : Nat) (l : List TxItem) (it : TxItem) (rest : List TxItem) (h : pickTx now l = some (it, rest)) :
    l.Perm (it :: rest) ∧ ∀ x ∈ rest, keyLt (txKey now x) (txKey now it) = false := by
  induction l generalizing it rest with
  | nil => cases h
  | cons x r ih =>
    rw [pickTx] at h
    split at h
    · next y r' hy =>
      obtain ⟨hperm, hmin⟩ := ih y r' hy
      split at h
      · next hlt =>
        cases h
        refine ⟨(hperm.cons x).trans (List.Perm.swap _ _ _), fun z hz => ?_⟩
        rcases List.mem_cons.mp hz with rfl | hz
        · exact keyLt_asymm hlt
        · exact hmin z hz
      · next hge =>
        cases h
        have hge := Bool.not_eq_true _ ▸ hge
        refine ⟨List.Perm.refl _, fun z hz => ?_⟩
        rcases List.mem_cons.mp (hperm.mem_iff.mp hz) with rfl | hz
        · exact hge
        · exact not_keyLt_trans hge (hmin z hz)
    · next hnone =>
      cases h
      rw [pickTx_eq_none hnone]
      exact ⟨List.Perm.refl _, fun z hz => absurd hz List.not_mem_nil⟩

/-! ## Framing of a packet's blocks (R88, R90) -/

theorem fitBytes_length (n : Nat) (l : List Byte) : (fitBytes n l).length = n := by simp [fitBytes, zeros]

theorem fitBytes_take {n k : Nat} {l : List Byte} (h : k ≤ n) (hl : l.length = k) : (fitBytes n l).take k = l := by
  rw [fitBytes, List.take_take, min_eq_left h, List.take_append_of_le_length hl.ge, List.take_of_length_le hl.le]

theorem decodeBlk_dataBlk {l : List Byte} (h : l.length = 8) : decodeBlk (dataBlk l) = .data l := by
  simp [decodeBlk, dataBlk, fitBytes_of_length h]

theorem decodeBlk_sop {l : List Byte} (h : l.length = 7) : decodeBlk (ctlBlk 0x96 l) = .sop l := by
  have h8 : fitBytes 8 (BitVec.ofNat 8 0x96 :: l) = BitVec.ofNat 8 0x96 :: l := fitBytes_of_length (by simp [h])
  simp [decodeBlk, ctlBlk, h8, byteAt, nth]

/-- TERM gives back the number of its bytes and, at their head, the bytes. -/
theorem decodeBlk_term {l : List Byte} (h : l.length ≤ 6) :
    ∃ r, decodeBlk (ctlBlk 0xF0 (BitVec.ofNat 8 l.length :: l)) = .term l.length r ∧ r.take l.length = l := by
  have hfit (n : Nat) (b : Byte) (k : List Byte) : fitBytes (n + 1) (b :: k) = b :: ((k ++ zeros (n + 1)).take n) := rfl
  have hlen : l.length % 256 = l.length := by omega
  refine ⟨(fitBytes 8 (BitVec.ofNat 8 0xF0 :: BitVec.ofNat 8 l.length :: l)).drop 2, ?_, ?_⟩
  · simp only [decodeBlk, ctlBlk, fitBytes_of_length (fitBytes_length 8 _)]
    simp [hfit, byteAt, nth, hlen]
  · simp [hfit, List.take_take, Nat.min_eq_left h]

/-- The data blocks and TERM complete the packet whose head has come. -/
theorem deframe_restBlks (d : Nat) (l a : List Byte) (hmod : l.length - 8 * d ≤ 6) (hd : 8 * d ≤ l.length)
    (hmin : 20 ≤ a.length + l.length) (hmax : a.length + l.length ≤ 9216) :
    deframe (some a, false) ((restBlks d l).map decodeBlk) = ([.packet (a ++ l)], (none, false)) := by
  induction d generalizing l a with
  | zero =>
    obtain ⟨r, hr, htake⟩ := decodeBlk_term (l := l) (by omega)
    have hgood : ¬(6 < l.length ∨ (a ++ l).length < 20) := by rw [List.length_append]; omega
    simp only [restBlks, List.map_cons, List.map_nil, hr, deframe, frameBlk, htake, if_neg hgood, List.append_nil]
  | succ d ih =>
    have h8 : (l.take 8).length = 8 := by rw [List.length_take]; omega
    have hfits : ¬9216 < a.length + 8 := by omega
    have hstep := ih (l.drop 8) (a ++ l.take 8) (by rw [List.length_drop]; omega) (by rw [List.length_drop]; omega)
      (by rw [List.length_append, List.length_drop]; omega) (by rw [List.length_append, List.length_drop]; omega)
    simp only [restBlks, List.map_cons, decodeBlk_dataBlk h8, deframe, frameBlk, if_neg hfits, hstep, List.nil_append,
      List.append_assoc, List.take_append_drop]

theorem deframe_packetBlks {l : List Byte} (h4 : l.length % 4 = 0) (hmin : 20 ≤ l.length) (hmax : l.length ≤ 9216) :
    deframe (none, false) ((packetBlks l).map decodeBlk) = ([.packet l], (none, false)) := by
  have h7 : (l.take 7).length = 7 := by rw [List.length_take]; omega
  have hrest := deframe_restBlks ((l.length - 7) / 8) (l.drop 7) (l.take 7) (by rw [List.length_drop]; omega)
    (by rw [List.length_drop]; omega) (by rw [List.length_drop]; omega) (by rw [List.length_drop]; omega)
  rw [List.take_append_drop] at hrest
  simp only [packetBlks, List.map_cons, decodeBlk_sop h7, deframe, frameBlk, hrest, List.nil_append]

end Sys2Proof.Machine
end

section
/-! What a half sends next (R87, R88, R90, R93, R96, R101), then the statement on it. -/

namespace Sys2Proof.Machine

set_option Elab.async false

/-- A new packet takes the next number and is held. -/
def State.holdNew (s : State) (h : Nat) (it : TxItem) : State :=
  s.mapPkt h fun q => { q with held := q.held ++ [⟨(s.pkt h).nextSeq, it, false⟩], nextSeq := ((s.pkt h).nextSeq + 1) % 65536 }

theorem State.startNew_eq (s : State) (h : Nat) (it : TxItem) : s.startNew h it false =
    (s.holdNew h it).startPkt h it.type 0 (s.pkt h).nextSeq it.flow it.nsec it.body false := rfl

theorem State.holdNew_pkt (s : State) (h : Nat) (it : TxItem) : (s.holdNew h it).pkt h = { s.pkt h with
    held := (s.pkt h).held ++ [⟨(s.pkt h).nextSeq, it, false⟩], nextSeq := ((s.pkt h).nextSeq + 1) % 65536 } :=
  State.pkt_mapPkt_same _ _ _

/-- A new packet goes out under the next number, and is held under it. -/
theorem State.startNew_spec {s u : State} {h : Nat} (hu : Only [.pkts] [] s u) (hk : (u.pkt h).stripe = (s.pkt h).stripe)
    (hc : s.boot.core = false) (hlanes : s.txLanes h ≠ []) (it : TxItem) :
    Streams s (u.startNew h it false) h
      (packetBlks (packetBytes it.type 128 (u.pkt h).nextSeq (((u.pkt h).e + 65535) % 65536) it.flow it.nsec it.body)) ∧
    ((u.startNew h it false).pkt h).queue = (u.pkt h).queue ∧
    ((u.startNew h it false).pkt h).nextSeq = ((u.pkt h).nextSeq + 1) % 65536 ∧
    ((u.startNew h it false).pkt h).held = (u.pkt h).held ++ [⟨(u.pkt h).nextSeq, it, false⟩] ∧
    Only [.pkts, .log] [] s (u.startNew h it false) := by
  obtain ⟨hsends, ⟨k, hp⟩, honly⟩ := State.startPkt_spec (u := u.holdNew h it) (hu.trans (only_mapPkt _ _ _))
    (by rw [State.holdNew_pkt, hk]) hc hlanes it.type 0 (u.pkt h).nextSeq it.flow it.nsec it.body
  rw [State.startNew_eq, hp]
  rw [State.holdNew_pkt] at hsends ⊢
  exact ⟨hsends, rfl, rfl, rfl, honly⟩

section
variable {h : Half} {s : State} (hup : s.linkUp h.val = true) (hlanes : s.txLanes h.val ≠ [])
include hup hlanes

/-- A half that may send goes by what is due once it has taken over the other half's messages. -/
theorem exec_packetSend_llcp (par : Bool) {l : Llcp} {r : List Llcp} (hl : (s.pkt h.val).llcp = l :: r) :
    exec (.packetSend h par) s =
      .next (((s.takeOver h.val).mapPkt h.val fun q => { q with llcp := r }).startLlcp h.val l) := by
  obtain ⟨q, hq⟩ := s.takeOver_pkt h
  change execPacketSend h par s = _
  simp only [execPacketSend, hup, hlanes, hq, hl, Bool.not_true, Bool.false_eq_true, or_self, if_false]

theorem exec_packetSend_queue {it : TxItem} {rest : List TxItem} (hl : (s.pkt h.val).llcp = []) (hr : (s.pkt h.val).rsync = none)
    (hleft : (s.pkt h.val).resendLeft = 0) (hpick : pickTx s.time.count ((s.takeOver h.val).pkt h.val).queue = some (it, rest))
    (hhold : canHold (s.pkt h.val) it = true) : exec (.packetSend h false) s =
      .next (((s.takeOver h.val).mapPkt h.val fun q => { q with queue := rest }).startNew h.val it false) := by
  obtain ⟨q, hq⟩ := s.takeOver_pkt h
  have htime : (s.takeOver h.val).time = s.time := (only_takeOver s h.val).1 .time (by decide)
  have hmay : (s.takeOver h.val).maySend h.val it = true := by
    rw [State.maySend, hq, hr]
    exact hhold
  rw [hq] at hpick
  change execPacketSend h false s = _
  simp only [execPacketSend, hup, hlanes, hq, hl, hr, hleft, htime, hpick, hmay, Bool.not_true, Bool.false_eq_true, or_self,
    if_false, if_true, Option.isSome_none, Nat.lt_irrefl]

theorem packetSend_llcp (par : Bool) {l : Llcp} {r : List Llcp} (hc : s.boot.core = false)
    (hl : (s.pkt h.val).llcp = l :: r) : Runs (.packetSend h par) s fun t =>
      Streams s t h.val (packetBlks (packetBytes 7 (128 + (64 * b2n l.nak + 32 * b2n l.rsync.isSome)) (l.rsync.getD 0)
        (((s.pkt h.val).e + 65535) % 65536) 0 0 [])) ∧
      (t.pkt h.val).llcp = r ∧ (t.pkt h.val).ackOwed = false ∧ Only [.pkts, .log] [] s t := by
  obtain ⟨q, hq⟩ := s.takeOver_pkt h
  let u := (s.takeOver h.val).mapPkt h.val fun q => { q with llcp := r }
  have hp : u.pkt h.val = { s.pkt h.val with queue := q, llcp := r } := (State.pkt_mapPkt_same _ _ _).trans (by rw [hq])
  obtain ⟨hsends, ⟨k, hk⟩, honly⟩ := State.startPkt_spec (u := u) ((only_takeOver s h.val).trans (only_mapPkt _ _ _))
    (by rw [hp]) hc hlanes 7 (64 * b2n l.nak + 32 * b2n l.rsync.isSome) (l.rsync.getD 0) 0 0 []
  rw [hp] at hsends hk
  exact ⟨u.startLlcp h.val l, exec_packetSend_llcp hup hlanes par hl, hsends, (congrArg PktSt.llcp hk :),
    (congrArg PktSt.ackOwed hk :), honly⟩

theorem packetSend_new {it : TxItem} {rest : List TxItem} (hc : s.boot.core = false) (hl : (s.pkt h.val).llcp = [])
    (hr : (s.pkt h.val).rsync = none) (hleft : (s.pkt h.val).resendLeft = 0)
    (hpick : pickTx s.time.count ((s.takeOver h.val).pkt h.val).queue = some (it, rest))
    (hhold : canHold (s.pkt h.val) it = true) : Runs (.packetSend h false) s fun t =>
      Streams s t h.val (packetBlks (packetBytes it.type 128 (s.pkt h.val).nextSeq (((s.pkt h.val).e + 65535) % 65536) it.flow
        it.nsec it.body)) ∧
      (t.pkt h.val).queue = rest ∧ (t.pkt h.val).nextSeq = ((s.pkt h.val).nextSeq + 1) % 65536 ∧
      (t.pkt h.val).held = (s.pkt h.val).held ++ [⟨(s.pkt h.val).nextSeq, it, false⟩] ∧ Only [.pkts, .log] [] s t := by
  obtain ⟨q, hq⟩ := s.takeOver_pkt h
  have hu : ((s.takeOver h.val).mapPkt h.val fun q => { q with queue := rest }).pkt h.val =
      { s.pkt h.val with queue := rest } := by rw [State.pkt_mapPkt_same, hq]
  have hspec := State.startNew_spec ((only_takeOver s h.val).trans (only_mapPkt _ h.val fun q => { q with queue := rest }))
    (by rw [hu]) hc hlanes it
  rw [hu] at hspec
  exact ⟨_, exec_packetSend_queue hup hlanes hl hr hleft hpick hhold, hspec⟩

end

/-- Settles O9: the two sources of a packet, each started on the stripe; the order of the queue by induction over it; the framing
by induction over the data blocks. -/
theorem packetSending : Obligations.PacketSending := by
  unfold Obligations.PacketSending
  exact ⟨fun _ par _ _ _ hup hc hlanes hl => packetSend_llcp hup hlanes par hc hl,
    fun _ _ _ _ hup hc hlanes hl hr hleft hpick hhold => packetSend_new hup hlanes hc hl hr hleft hpick hhold,
    pickTx_least, fun _ h4 hmin hmax => deframe_packetBlks h4 hmin hmax⟩

end Sys2Proof.Machine
end

section
/-! Sections of a downlink flow, orphans, flow effects and uplink sections (R106, R111 to R115, R134, R174), then the
statement on them. -/

namespace Sys2Proof.Machine

set_option Elab.async false

/-! ## Flow contexts -/

theorem State.flow_setFlow (s : State) (n m : Nat) (f : Flow) : (s.setFlow n f).flow m = if n = m then f else s.flow m :=
  tget_tset _ _ _ _ _

@[simp] theorem State.flow_setFlow_same (s : State) (n : Nat) (f : Flow) : (s.setFlow n f).flow n = f := by
  simp [State.flow_setFlow]

@[simp] theorem State.flow_mapFlow_same (s : State) (n : Nat) (g : Flow → Flow) : (s.mapFlow n g).flow n = g (s.flow n) :=
  State.flow_setFlow_same _ _ _

theorem State.flow_congr {s t : State} (h : t.flows = s.flows) (n : Nat) : t.flow n = s.flow n := by rw [State.flow, h, State.flow]

theorem only_mapFlow (s : State) (n : Nat) (g : Flow → Flow) : Only [.flows] [] s (s.mapFlow n g) := only_setFlow _ _ _

/-! ## Data sections (Table 31, R114, R115) -/

/-- A data section as it is kept. -/
def sectionData (x : Section) (f start : Nat) (fwd : Bool) : DataSec :=
  ⟨f, x.secid, start, x.startPrb, x.numPrb, byteAt x.body 0, byteAt x.body 1, x.body.drop 4, sectionSize x, fwd⟩

/-- A data section joins those kept for the binding. -/
def State.keepData (s : State) (d : DataSec) : State := { s with dataSecs := s.dataSecs ++ [d] }

theorem only_keepData (s : State) (d : DataSec) : Only [.sections] [] s (s.keepData d) :=
  ⟨fun p hp => by cases p <;> simp [Part.Same, State.keepData] at hp ⊢, fun _ _ => rfl⟩

section
variable {s : State} {h f mu nprb : Nat} {x : Section} {ctx : Flow}

/-- A data section that nothing binds yet and that repeats none is kept, and its PRBs with a bad exponent count as invalid. -/
theorem State.takeBody_data {start : Nat} (hkind : x.kind = 2)
    (hcount : 1 ≤ (sectionData x f start (fwdOpen mu s.time.count start)).lcount)
    (hbound : s.boundTo (sectionData x f start (fwdOpen mu s.time.count start)) = none)
    (hrep : s.dataRepeats (sectionData x f start (fwdOpen mu s.time.count start)) = false) :
    ∃ bad sizes, s.takeBody f ctx mu nprb start x =
      (((s.keepData (sectionData x f start (fwdOpen mu s.time.count start))).accepted f).invalid f bad).forward
        ctx.half f sizes := by
  have hlc : (byteAt x.body 1 == 0) = false := beq_false_of_ne (Nat.one_le_iff_ne_zero.mp hcount)
  have hnot : ¬(x.kind = 1 ∨ x.kind = 3) := by omega
  simp only [sectionData] at hbound hrep
  simp only [State.takeBody, if_neg hnot, if_pos hkind, hlc, hbound, hrep, Bool.or_self, Bool.false_eq_true, if_false]
  exact ⟨_, _, rfl⟩

/-- A section of a flow's direction that passes the rows of Table 31 is judged by its window. -/
theorem State.takeSection_window (hlast : (s.flowLast f).dir = 0)
    (hctx : s.flowAt f (countOf (s.dl (s.flowLast f).carrier).scs x.at_) = ctx) (hstate : ctx.state = 1) (hdir : ctx.dir = 0)
    (hhalf : ctx.half = h) (hcar : s.flowCarrier ctx = some (mu, nprb)) (hkind : x.kind = 2)
    (hstamp : stampOk mu { x.at_ with tick := 0 } = true) (hprb : 1 ≤ x.numPrb) (hend : x.startPrb + x.numPrb ≤ nprb)
    (hlen : lenOk s.pathCount ctx.comp x = true) (hsym : x.nsym = 1) :
    let start := countOf mu { x.at_ with tick := 0 }
    (windowOf s.time.count start ctx.lead = 0 → s.secBytes h + sectionSize x ≤ 10485760 →
      s.takeSection h f x = s.takeBody f ctx mu nprb start x) ∧
    (windowOf s.time.count start ctx.lead = 2 → s.takeSection h f x =
      (s.mapFlow f fun y => { y with late := inc32 y.late 1 }).raiseLimited h Ev.DL_LATE f 4915200 1 []) := by
  have hprb' : (x.numPrb == 0) = false := beq_false_of_ne (by omega)
  have hend' : ¬nprb < x.startPrb + x.numPrb := by omega
  have hkind' : kindOk 0 2 = true := rfl
  refine ⟨fun hw hbuf => ?_, fun hw => ?_⟩
  · simp [State.takeSection, hlast, hctx, hstate, hdir, hhalf, hcar, hkind, hkind', hstamp, hprb', hend', hlen, hsym, hw,
      Nat.not_lt.mpr hbuf]
  · simp [State.takeSection, hlast, hctx, hstate, hdir, hhalf, hcar, hkind, hkind', hstamp, hprb', hend', hlen, hsym, hw]

theorem exec_sectionPacketReceived_one {h : Half} {b : List Byte} (hty : (hdrOf b).type = 1) (hflow : (hdrOf b).flow = f)
    (hsecs : sectionsOf (hdrOf b).nsec (payload b) = [x]) (hup : s.linkUp h.val = true) :
    exec (.sectionPacketReceived h b) s = .next (s.takeSection h.val f x) := by
  subst hflow
  change execSectionPacketReceived h b s = _
  simp only [execSectionPacketReceived, hup, hty, hsecs, and_self, if_true, List.foldl_cons, List.foldl_nil]

theorem accepted_keepData_spec (d : DataSec) (bad k : Nat) (sizes : List Nat) :
    let t := (((s.keepData d).accepted f).invalid f bad).forward k f sizes
    t.dataSecs = s.dataSecs ++ [d] ∧ (t.flow f).accepted = inc32 (s.flow f).accepted 1 ∧
      Only [.flows, .sections, .d2d] [] s t := by
  have hfwd := only_forward (((s.keepData d).accepted f).invalid f bad) k f sizes
  obtain ⟨-, hdata, -⟩ := hfwd.1 .sections (by decide)
  obtain ⟨hflows, -⟩ := hfwd.1 .flows (by decide)
  refine ⟨hdata, ?_, ((only_keepData s d).seq ((only_mapFlow _ f _).trans (only_mapFlow _ f _)) (by decide)).trans
    (hfwd.mono (by decide) (List.Subset.refl _))⟩
  rw [State.flow_congr hflows, State.invalid, State.flow_mapFlow_same, State.accepted, State.flow_mapFlow_same]
  rfl

theorem late_spec (h code k n : Nat) :
    let t := (s.mapFlow f fun y => { y with late := inc32 y.late 1 }).raiseLimited h code f k n []
    t.dataSecs = s.dataSecs ∧ (t.flow f).late = inc32 (s.flow f).late 1 ∧ (t.flow f).accepted = (s.flow f).accepted ∧
      Only (.flows :: eventParts) eventRegs s t := by
  intro t
  have hflow : t.flow f = { s.flow f with late := inc32 (s.flow f).late 1 } :=
    (State.flow_congr (State.raiseLimited_flows _ _ _ _ _ _ _) f).trans (State.flow_mapFlow_same _ _ _)
  refine ⟨State.raiseLimited_dataSecs _ _ _ _ _ _ _, by rw [hflow], by rw [hflow], ?_⟩
  exact ((only_mapFlow _ _ _).mono (by decide) (List.nil_subset _)).trans
    ((only_raiseLimited _ _ _ _ _ _ _).mono (by decide) (List.Subset.refl _))

end

/-! ## Orphans (R134) -/

/-- A data section of an identifier and symbol that no control section binds, or that carries more layers than its own. -/
def State.orphan (s : State) (f secid start : Nat) (d : DataSec) : Bool :=
  d.flow == f && d.secid == secid && d.sym == start
    && (match s.boundTo d with
      | some c => decide (c.body.nlayer < d.lfirst + d.lcount)
      | none => true)

theorem State.bound_of_not_orphan {s : State} {f secid start : Nat} {d : DataSec} (h : s.orphan f secid start d = false)
    (hf : d.flow = f) (hid : d.secid = secid) (hsym : d.sym = start) : (s.boundTo d).isSome = true := by
  cases hb : s.boundTo d with
  | none => simp [State.orphan, hf, hid, hsym, hb] at h
  | some c => rfl

theorem State.not_orphan_of_other {s : State} {f secid start : Nat} {d : DataSec}
    (h : d.flow ≠ f ∨ d.secid ≠ secid ∨ d.sym ≠ start) : s.orphan f secid start d = false := by
  rcases h with h | h | h <;> simp [State.orphan, h]

/-- Without the orphans of an identifier and symbol. -/
def State.dropOrphans (s : State) (f secid start : Nat) : State :=
  { s with dataSecs := s.dataSecs.filter fun d => !s.orphan f secid start d }

theorem exec_dataBindingDeadline (h : Half) (f : FlowNo) (secid start : Nat) (s : State) :
    exec (.dataBindingDeadline h f secid start) s = .next ((s.dropOrphans f.val secid start).invalid f.val
      (s.dataSecs.filter (s.orphan f.val secid start)).length) := rfl

theorem dataBindingDeadline_drops (h : Half) (f : FlowNo) (secid start : Nat) (s : State) :
    Runs (.dataBindingDeadline h f secid start) s fun t =>
      (∀ d ∈ t.dataSecs, d.flow = f.val → d.secid = secid → d.sym = start → (s.boundTo d).isSome = true) ∧
      (∀ d ∈ s.dataSecs, d.flow ≠ f.val ∨ d.secid ≠ secid ∨ d.sym ≠ start → d ∈ t.dataSecs) ∧
      Only [.flows, .sections] [] s t := by
  refine ⟨_, exec_dataBindingDeadline h f secid start s, fun d hd hf hid hsym => ?_, fun d hd hne => ?_, ?_⟩
  · obtain ⟨-, hkept⟩ := List.mem_filter.mp hd
    exact State.bound_of_not_orphan (by simpa using hkept) hf hid hsym
  · exact List.mem_filter.mpr ⟨hd, by simp [State.not_orphan_of_other hne]⟩
  · have hdrop : Only [.sections] [] s (s.dropOrphans f.val secid start) :=
      ⟨fun p hp => by cases p <;> simp [Part.Same, State.dropOrphans] at hp ⊢, fun _ _ => rfl⟩
    exact hdrop.seq (only_mapFlow _ _ _) (by decide)

/-! ## Flow effects (R106) -/

/-- An effect that opens a closed flow puts its context in force, with the counters kept. -/
theorem FlowFx.apply_opens {x : FlowFx} {f g : Flow} (hctx : x.ctx = some g) (hf : f.state = 0) :
    x.apply f = g.keepCounts f := by
  simp only [FlowFx.apply, hctx, hf, if_true]
  rfl

/-- The effect of an open apart from the context that it replaces, which stays for earlier symbols. -/
theorem State.applyFx_opens {s : State} {n : Nat} {x : FlowFx} {g : Flow} (hctx : x.ctx = some g) (hf : (s.flow n).state = 0) :
    (s.applyFx n x).flow n = g.keepCounts (s.flow n) ∧ Only [.flows] [] s (s.applyFx n x) := by
  have hfx := FlowFx.apply_opens hctx hf
  simp only [State.applyFx, hctx]
  refine ⟨(State.flow_setFlow_same _ _ _).trans hfx, fun p hp => ?_, fun _ _ => rfl⟩
  cases p <;> simp [Part.Same, State.setFlow] at hp ⊢

theorem flowEffect_opens {f : FlowNo} {x : FlowFx} {g : Flow} {s : State}
    (hfx : tget (fun _ => ([] : List FlowFx)) s.flowFx f.val = [x]) (hdue : 0 ≤ ahead x.at_ s.time.count) (hctx : x.ctx = some g)
    (hclosed : (s.flow f.val).state = 0) (hopen : g.state ≠ 0) : Runs (.flowEffect f) s fun t =>
      t.flow f.val = g.keepCounts (s.flow f.val) ∧ tget (fun _ => ([] : List FlowFx)) t.flowFx f.val = [] ∧
      Only [.flows] [] s t := by
  obtain ⟨hflow, honly⟩ := State.applyFx_opens (x := x) hctx hclosed
  let t : State := { s.applyFx f.val x with flowFx := tset (fun _ => []) (s.applyFx f.val x).flowFx f.val [] }
  have ht : t.flow f.val = g.keepCounts (s.flow f.val) := hflow
  have hend : t.flowEnd f.val = t := if_neg (by rw [ht]; exact hopen)
  have hrun : exec (.flowEffect f) s = .next (t.flowEnd f.val) := by
    change execFlowEffect f s = _
    simp only [execFlowEffect, hfx, List.takeWhile_cons, hdue, decide_true, if_true, List.takeWhile_nil, List.foldl_cons,
      List.foldl_nil, List.length_singleton, List.drop_one, List.tail_cons]
    rfl
  have hempty : tget (fun _ => ([] : List FlowFx)) t.flowFx f.val = [] := by simp [t]
  refine ⟨t, hrun.trans (by rw [hend]), ht, hempty, honly.trans ⟨fun p hp => ?_, fun _ _ => rfl⟩⟩
  cases p <;> simp [Part.Same, t] at hp ⊢

/-! ## Uplink sections (R119, R174) -/

theorem State.foldl_queueTx {α : Type} (h : Nat) (item : α → TxItem) (l : List α) (s : State) :
    ((l.foldl (fun s a => s.queueTx h (item a)) s).pkt h).queue = (s.pkt h).queue ++ l.map item := by
  induction l generalizing s with
  | nil => simp
  | cons a l ih =>
    rw [List.foldl_cons, ih, State.queueTx, State.pkt_mapPkt_same, List.map_cons, List.append_assoc, List.singleton_append]

/-- The control sections of an uplink symbol under a context that still sends. -/
def State.sendingCtrl (s : State) (f sym : Nat) : List CtrlSec :=
  (s.ctrlSecs.filter fun c => c.ul && c.flow == f && c.syms.contains sym).filter fun c =>
    (s.flowAt f (nth c.syms 0 sym)).state == 1 || (s.flowAt f (nth c.syms 0 sym)).state == 3

/-- The sections that the sums of a symbol leave as. -/
def State.sumSections (s : State) (f sym : Nat) (u : SumSym) : List (List Byte) :=
  ((s.sendingCtrl f sym).map fun c =>
    ulSections c u (s.ul (s.flowAt f (nth c.syms 0 sym)).carrier).scs (s.flowAt f (nth c.syms 0 sym)).comp).flatten

/-- The packet of some of them. -/
def State.sumPacket (s : State) (f sym : Nat) (p : Nat × List Byte) : TxItem :=
  { type := 1, flow := f, nsec := p.1, body := p.2
    deadline := (addSymbols (s.ul (s.flow f).carrier).scs 1 sym + usTicks 80) % Config.ticksPerCycle }

/-- Without a symbol's sums. -/
def State.dropSum (s : State) (u : SumSym) : State := { s with sums := s.sums.filter fun x => !(x == u) }

theorem exec_ulSectionSend_whole {h : Half} {f : FlowNo} {sym : Nat} {u : SumSym} {s : State}
    (hu : (s.sums.find? fun u => u.flow == f.val && u.sym == sym && u.half == h.val) = some u) (hpart : u.partial_ = false)
    (hshed : s.isShed f.val = false) : exec (.ulSectionSend h f sym) s = .next
      ((packSections (s.sumSections f.val sym u) 0 []).foldl
        (fun t p => t.queueTx h.val (s.sumPacket f.val sym p)) (s.dropSum u)) := by
  have hshed' : (s.dropSum u).isShed f.val = false := hshed
  change execUlSectionSend h f sym s = _
  simp only [execUlSectionSend, hu]
  refine (if_neg (Bool.eq_false_iff.mp hshed')).trans ?_
  simp only [hpart, Bool.false_eq_true, if_false, List.filter_map, List.map_map]
  rfl

theorem ulSectionSend_sends {h : Half} {f : FlowNo} {sym : Nat} {u : SumSym} {s : State}
    (hu : (s.sums.find? fun u => u.flow == f.val && u.sym == sym && u.half == h.val) = some u) (hpart : u.partial_ = false)
    (hshed : s.isShed f.val = false) : Runs (.ulSectionSend h f sym) s fun t =>
      u ∉ t.sums ∧ ∃ l : List TxItem, (t.pkt h.val).queue = (s.pkt h.val).queue ++ l ∧
        (∀ it ∈ l, it.type = 1 ∧ it.flow = f.val) ∧
        l.map (fun it => (it.nsec, it.body)) = packSections (s.sumSections f.val sym u) 0 [] ∧ Only [.uplink, .pkts] [] s t := by
  let ps := packSections (s.sumSections f.val sym u) 0 []
  have hdrop : Only [.uplink] [] s (s.dropSum u) :=
    ⟨fun p hp => by cases p <;> simp [Part.Same, State.dropSum] at hp ⊢, fun _ _ => rfl⟩
  have hqueue : Only [.pkts] [] (s.dropSum u) (ps.foldl (fun t p => t.queueTx h.val (s.sumPacket f.val sym p)) (s.dropSum u)) :=
    Only.foldl _ (fun t p => only_queueTx t _ _) _ _
  obtain ⟨-, -, -, -, -, hsums, -⟩ := hqueue.1 .uplink (by decide)
  refine ⟨_, exec_ulSectionSend_whole hu hpart hshed, ?_, ps.map (s.sumPacket f.val sym), State.foldl_queueTx _ _ _ _,
    fun it hit => ?_, ?_, hdrop.seq hqueue (by decide)⟩
  · rw [hsums]
    simp [State.dropSum]
  · obtain ⟨p, -, rfl⟩ := List.mem_map.mp hit
    exact ⟨rfl, rfl⟩
  · rw [List.map_map]
    exact List.map_id _

/-- Settles O10: clause by clause, from the judgement of a section by its window, the orphans of a symbol, an effect that opens a
flow, and the packets that a symbol's sums leave as. -/
theorem sectionsAndFlows : Obligations.SectionsAndFlows := by
  unfold Obligations.SectionsAndFlows
  refine ⟨fun h f b x s mu nprb ctx hty hflow hsecs hup hlast hctx hstate hdir hhalf hcar hkind hstamp hprb hend hlen hsym => ?_,
    dataBindingDeadline_drops, fun _ _ _ _ hfx hdue hctx hclosed hopen => flowEffect_opens hfx hdue hctx hclosed hopen,
    fun _ _ _ _ _ hu hpart hshed => ulSectionSend_sends hu hpart hshed⟩
  have hrun := exec_sectionPacketReceived_one hty hflow hsecs hup
  obtain ⟨hin, hlate⟩ := State.takeSection_window hlast hctx hstate hdir hhalf hcar hkind hstamp hprb hend hlen hsym
  refine ⟨fun hw hbuf hcount hbound hrep => ⟨_, hrun, ?_⟩, fun hw => ⟨_, hrun, ?_⟩⟩
  · obtain ⟨bad, sizes, hbody⟩ := State.takeBody_data (ctx := ctx) (nprb := nprb) hkind hcount hbound hrep
    rw [hin hw hbuf, hbody]
    exact accepted_keepData_spec _ _ _ _
  · rw [hlate hw]
    exact late_spec _ _ _ _

end Sys2Proof.Machine
end

section
/-! The flow commands (R102 to R106, R440): what their checks and effects come to, then the statement on them. -/

namespace Sys2Proof.Machine

set_option Elab.async false

/-! ## The checks see past a command's entry into execution -/

section
variable (s : State) (c : Cmd) (op n : Nat) (f : Flow)

@[simp] theorem State.flow_entered : (s.entered c op).flow n = s.flow n := by rw [s.entered_eq]; rfl

@[simp] theorem State.flowLast_entered : (s.entered c op).flowLast n = s.flowLast n := by rw [s.entered_eq]; rfl

@[simp] theorem State.flowOwner_entered : (s.entered c op).flowOwner n = s.flowOwner n := by rw [s.entered_eq]; rfl

@[simp] theorem State.flowMu_entered : (s.entered c op).flowMu f = s.flowMu f := by rw [s.entered_eq]; rfl

@[simp] theorem State.flowCarrier_entered : (s.entered c op).flowCarrier f = s.flowCarrier f := by rw [s.entered_eq]; rfl

@[simp] theorem State.flowBad_entered (p : List Byte) (host timed : Bool) :
    (s.entered c op).flowBad p f host timed = s.flowBad p f host timed := by rw [s.entered_eq]; rfl

@[simp] theorem State.actCount_entered : (s.entered c op).actCount n = s.actCount n := by rw [s.entered_eq]; rfl

@[simp] theorem State.flowRefusal_entered : (s.entered c op).flowRefusal n f = s.flowRefusal n f := by rw [s.entered_eq]; rfl

@[simp] theorem State.effectAt_entered (mu lead : Nat) (named : Option Nat) :
    (s.entered c op).effectAt n mu lead named = s.effectAt n mu lead named := by rw [s.entered_eq]; rfl

@[simp] theorem State.flows_entered : (s.entered c op).flows = s.flows := by rw [s.entered_eq]

@[simp] theorem State.fxOf_entered : (s.entered c op).fxOf n = s.fxOf n := by rw [s.entered_eq]; rfl

@[simp] theorem State.boot_entered : (s.entered c op).boot = s.boot := by rw [s.entered_eq]

end

/-! ## The checks of Table 27 -/

theorem State.mem_openFlows {s : State} {m : Nat} {e : Flow} :
    (m, e) ∈ s.openFlows ↔ m < 256 ∧ s.flowLast m = e ∧ e.state ≠ 0 := by
  simp only [State.openFlows, List.mem_filter, List.mem_map, List.mem_range, Prod.mk.injEq]
  exact ⟨fun ⟨⟨_, hk, hkm, he⟩, hopen⟩ => ⟨hkm ▸ hk, hkm ▸ he, by simpa using hopen⟩,
    fun ⟨hm, he, hopen⟩ => ⟨⟨m, hm, rfl, he⟩, by simpa using hopen⟩⟩

theorem State.flowRefusal_layerConflict {s : State} {n m : Nat} {f : Flow} (hdir : f.dir ≤ 1) (hm : m < 256) (hmn : m ≠ n)
    (hopen : (s.flowLast m).state ≠ 0) (hsame : (s.flowLast m).dir = f.dir) (hcar : (s.flowLast m).carrier = f.carrier)
    (hlay : Nat.land (s.flowLast m).layers f.layers ≠ 0) : s.flowRefusal n f = St.LAYER_CONFLICT := by
  have hmem : (m, s.flowLast m) ∈ (s.openFlows.filter fun e => !(e.1 == n)).filter fun e => e.2.dir == f.dir :=
    List.mem_filter.mpr ⟨List.mem_filter.mpr ⟨State.mem_openFlows.mpr ⟨hm, rfl, hopen⟩, by simp [hmn]⟩, by simp [hsame]⟩
  exact if_pos ⟨hdir, List.any_eq_true.mpr ⟨_, hmem, by rw [hcar, beq_self_eq_true, beq_false_of_ne hlay]; rfl⟩⟩

theorem layerCount_le (m : Nat) : layerCount m ≤ 16 := (List.length_filter_le _ _).trans_eq (List.length_range)

theorem State.flowRefusal_rateLow {s : State} {n : Nat} {f : Flow} {mn : Nat × Nat} (hdir : f.dir ≤ 1)
    (hclosed : ∀ m, m < 256 → m ≠ n → (s.flowLast m).state = 0) (hcar : s.flowCarrier f = some mn)
    (hrate : f.rsv < minRate f mn.1 mn.2) : s.flowRefusal n f = St.RATE_LOW := by
  have hnone : (s.openFlows.filter fun e => !(e.1 == n)) = [] := by
    refine List.filter_eq_nil_iff.mpr fun e he => ?_
    obtain ⟨hm, hlast, hopen⟩ := State.mem_openFlows.mp he
    by_contra hne
    exact hopen (hlast ▸ hclosed e.1 hm (by simpa using hne))
  have hlayers := layerCount_le f.layers
  have hstreams : ¬64 < layerCount f.layers := by omega
  simp [State.flowRefusal, hnone, hcar, hdir, hrate, hstreams]

/-! ## Effects that wait -/

@[simp] theorem State.flow_addFx (s : State) (n m : Nat) (x : FlowFx) : (s.addFx n x).flow m = s.flow m := rfl

theorem State.fxOf_addFx_same (s : State) (n : Nat) (x : FlowFx) : (s.addFx n x).fxOf n = s.fxOf n ++ [x] :=
  tget_tset_same _ _ _ _

theorem State.fxOf_addFx_ne (s : State) {n m : Nat} (x : FlowFx) (h : m ≠ n) : (s.addFx n x).fxOf m = s.fxOf m :=
  tget_tset_ne _ _ _ h.symm

theorem only_addFx (s : State) (n : Nat) (x : FlowFx) : Only [.flows] [] s (s.addFx n x) :=
  ⟨fun p hp => by cases p <;> simp [Part.Same, State.addFx] at hp ⊢, fun _ _ => rfl⟩

/-- A close that waits last leaves the flow CLOSING. -/
theorem State.flowLast_addFx_close (s : State) (n a : Nat) : ((s.addFx n ⟨a, none⟩).flowLast n).state = 3 := by
  have hfx := s.fxOf_addFx_same n ⟨a, none⟩
  rw [State.fxOf] at hfx
  simp [State.flowLast, hfx]

theorem State.flowLast_of_fxOf_nil {s : State} {n : Nat} (h : s.fxOf n = []) : s.flowLast n = s.flow n := by
  rw [State.fxOf] at h
  simp [State.flowLast, h]

/-! ## Solver records that wait for a flow (Table 164) -/

theorem only_setSolver (s : State) (r : SolverRec) : Only [.solver, .faults] [] s (s.setSolver r) := by
  let put : State := { s with solvRec := tset (fun _ => none) s.solvRec r.flow (some r) }
  have hput : Only [.solver] [] s put := ⟨fun p hp => by cases p <;> simp [Part.Same, put] at hp ⊢, fun _ _ => rfl⟩
  have hclear : Only [.solver, .faults] [] s (put.clearSafe 5 r.flow) := hput.seq (only_mapRel put _) (by decide)
  exact Only.ite _ (fun _ => hclear) fun _ => hclear.seq (only_mapSolv _ _ _) (by decide)

theorem only_takeDueSolver (s : State) (n : Nat) : Only [.boot, .solver, .faults] [] s (s.takeDueSolver n) :=
  (only_mapBoot s _).seq
    (Only.foldl _ (fun t _ => Only.ite _ (fun _ => only_setSolver t _) fun _ => Only.refl _ _ t) _ _) (by decide)

theorem takeDueSolver_of_none {s : State} {n : Nat} (h : s.boot.solvDue = []) : Only [] [] s (s.takeDueSolver n) := by
  have hboot : s.takeDueSolver n = s.mapBoot fun b => { b with solvDue := b.solvDue.filter fun e => !(e.1 == n) } := by
    rw [State.takeDueSolver, h]
    rfl
  have hsame : (s.takeDueSolver n).boot = s.boot := by
    rw [hboot, State.mapBoot, h, List.filter_nil, ← h]
  refine ⟨fun p hp => if hq : p = .boot then hq ▸ hsame else ?_, fun _ _ => by rw [hboot]; rfl⟩
  rw [hboot]
  exact (only_mapBoot s _).1 p (by simp [hq])

/-! ## FLOW_OPEN -/

/-- The counters of a flow start again. -/
def State.clearCounts (s : State) (n : Nat) : State := s.mapFlow n fun x => x.keepCounts Flow.reset

/-- What an open does that is accepted. -/
def State.openFlow (s : State) (n a : Nat) (f : Flow) : State := ((s.clearCounts n).addFx n ⟨a, some f⟩).takeDueSolver n

/-- An accepted FLOW_OPEN of flow `n` with context `f`. -/
def openWork (c : Cmd) (n : Nat) (f : Flow) (named : Option Nat) (s : State) : State :=
  if (s.flowLast n).state ≠ 0 then s.refuse c 0x10 St.IN_USE 0
  else if f.dir ≤ 1 ∧ (s.flowCarrier f).isNone then s.refuse c 0x10 St.NOT_READY 0
  else if s.actCount f.half = 0 then s.refuse c 0x10 St.HALF_DOWN 0
  else if s.flowRefusal n f ≠ St.OK then s.refuse c 0x10 (s.flowRefusal n f) 0
  else match s.effectAt n (s.flowMu f) f.lead named with
    | none => s.refuse c 0x10 St.TOO_LATE 0x30
    | some (a, fl) => (s.openFlow n a f).doneAt c 0x10 (s.flowMu f) a fl

/-- The context that an open sets: OWNER is the host's to choose. -/
def State.openCtx (s : State) (c : Cmd) (p : List Byte) : Flow :=
  if fromHost c.route then flowArg p else { flowArg p with owner := (s.flow (arg p 0x10 1)).owner }

/-- The symbol that a timed command names. -/
def namedSym (c : Cmd) (p : List Byte) (mu : Nat) : Option Nat := if c.timed then some (countOf mu (argSym p 0x30)) else none

section
variable {s : State} {c : Cmd} {p : List Byte} {n a : Nat} {f : Flow} {named : Option Nat}

theorem exec_flowOpen (hacc : Accepted s c 0x10 0 [(s.openCtx c p).half] [((s.openCtx c p).half, 6)])
    (hmay : fromHost c.route = true ∨ mayAct (s.flowOwner (arg p 0x10 1)) false = true)
    (hbad : s.flowBad p (s.openCtx c p) (fromHost c.route) c.timed = none) :
    exec (.flowOpen c p) s = .next (openWork c (arg p 0x10 1) (s.openCtx c p) (namedSym c p (s.flowMu (s.openCtx c p)))
      (s.entered c 0x10)) := by
  have hmay' : (fromHost c.route || mayAct ((s.entered c 0x10).flowOwner (arg p 0x10 1)) false) = true := by simpa using hmay
  rw [← State.flowMu_entered s c 0x10]
  exact congrArg Host.Outcome.next
    (State.command_ok hacc _ _ _ hmay' ((State.flowBad_entered s c 0x10 _ p _ _).trans hbad) rfl rfl rfl)

theorem openWork_inUse (h : (s.flowLast n).state ≠ 0) : openWork c n f named s = s.refuse c 0x10 St.IN_USE 0 := if_pos h

theorem openWork_notReady (h0 : (s.flowLast n).state = 0) (hdir : f.dir ≤ 1) (hcar : s.flowCarrier f = none) :
    openWork c n f named s = s.refuse c 0x10 St.NOT_READY 0 :=
  (if_neg (not_not.mpr h0)).trans (if_pos ⟨hdir, by rw [hcar]; rfl⟩)

theorem not_carrierless (hcar : f.dir = 2 ∨ s.flowCarrier f ≠ none) : ¬(f.dir ≤ 1 ∧ (s.flowCarrier f).isNone = true) := by
  rintro ⟨hdir, hnone⟩
  rcases hcar with h2 | hsome
  · omega
  · exact hsome (Option.isNone_iff_eq_none.mp hnone)

theorem openWork_halfDown (h0 : (s.flowLast n).state = 0) (hcar : f.dir = 2 ∨ s.flowCarrier f ≠ none)
    (hact : s.actCount f.half = 0) : openWork c n f named s = s.refuse c 0x10 St.HALF_DOWN 0 :=
  (if_neg (not_not.mpr h0)).trans ((if_neg (not_carrierless hcar)).trans (if_pos hact))

theorem openWork_refusal (h0 : (s.flowLast n).state = 0) (hcar : f.dir = 2 ∨ s.flowCarrier f ≠ none)
    (hact : s.actCount f.half ≠ 0) (href : s.flowRefusal n f ≠ St.OK) :
    openWork c n f named s = s.refuse c 0x10 (s.flowRefusal n f) 0 :=
  (if_neg (not_not.mpr h0)).trans ((if_neg (not_carrierless hcar)).trans ((if_neg hact).trans (if_pos href)))

theorem openWork_late (h0 : (s.flowLast n).state = 0) (hcar : f.dir = 2 ∨ s.flowCarrier f ≠ none)
    (hact : s.actCount f.half ≠ 0) (href : s.flowRefusal n f = St.OK) (heff : s.effectAt n (s.flowMu f) f.lead named = none) :
    openWork c n f named s = s.refuse c 0x10 St.TOO_LATE 0x30 := by
  simp only [openWork, h0, not_carrierless hcar, hact, href, heff, ne_eq, not_true_eq_false, if_false]

theorem openWork_opens {fl : Nat} (h0 : (s.flowLast n).state = 0) (hcar : f.dir = 2 ∨ s.flowCarrier f ≠ none)
    (hact : s.actCount f.half ≠ 0) (href : s.flowRefusal n f = St.OK)
    (heff : s.effectAt n (s.flowMu f) f.lead named = some (a, fl)) :
    openWork c n f named s = (s.openFlow n a f).doneAt c 0x10 (s.flowMu f) a fl := by
  simp only [openWork, h0, not_carrierless hcar, hact, href, heff, ne_eq, not_true_eq_false, if_false]

end

theorem openFlow_spec {s : State} {n : Nat} (a : Nat) (f : Flow) (hfx : s.fxOf n = []) :
    let u := s.openFlow n a f
    u.flow n = { s.flow n with accepted := 0, late := 0, early := 0, invalid := 0, shed := 0 } ∧
      (∀ m, m ≠ n → u.flow m = s.flow m) ∧ u.fxOf n = [⟨a, some f⟩] ∧ (∀ m, m ≠ n → u.fxOf m = s.fxOf m) ∧
      (s.boot.solvDue = [] → Only [.flows] [] s u) ∧ Only [.flows, .boot, .solver, .faults] [] s u := by
  let t := (s.clearCounts n).addFx n ⟨a, some f⟩
  have htake : Only [.boot, .solver, .faults] [] t (t.takeDueSolver n) := only_takeDueSolver t n
  obtain ⟨hflows, hflowFx, -⟩ := htake.1 .flows (by decide)
  have hflow : ∀ m, (t.takeDueSolver n).flow m = t.flow m := State.flow_congr hflows
  have hfxOf : ∀ m, (t.takeDueSolver n).fxOf m = t.fxOf m := fun m => by rw [State.fxOf, hflowFx, ← State.fxOf]
  have honly : Only [.flows] [] s t := (only_mapFlow s n _).trans (only_addFx _ _ _)
  refine ⟨(hflow n).trans (State.flow_mapFlow_same s n fun x => x.keepCounts Flow.reset),
    fun m hm => (hflow m).trans ?_, (hfxOf n).trans ?_,
    fun m hm => (hfxOf m).trans (State.fxOf_addFx_ne _ _ hm), fun hdue => honly.seq (takeDueSolver_of_none hdue) (by decide),
    honly.seq htake (by decide)⟩
  · exact (State.flow_setFlow _ _ _ _).trans (if_neg hm.symm)
  · exact (State.fxOf_addFx_same _ _ _).trans (congrArg (· ++ [_]) hfx)

theorem flowOpen_clause (c : Cmd) (p : List Byte) (s : State) : let n := arg p 0x10 1; let f := s.openCtx c p; let mu := s.flowMu f
    let named := countOf mu (argSym p 0x30)
    Accepted s c 0x10 0 [f.half] [(f.half, 6)] → fromHost c.route = true ∨ mayAct (s.flowOwner n) false = true →
      s.flowBad p f (fromHost c.route) c.timed = none →
    ((s.flowLast n).state ≠ 0 → Refused (.flowOpen c p) s c 0x10 St.IN_USE 0) ∧
    ((s.flowLast n).state = 0 →
      (f.dir ≤ 1 → s.flowCarrier f = none → Refused (.flowOpen c p) s c 0x10 St.NOT_READY 0) ∧
      (f.dir = 2 ∨ s.flowCarrier f ≠ none → s.actCount f.half = 0 → Refused (.flowOpen c p) s c 0x10 St.HALF_DOWN 0) ∧
      (f.dir = 2 ∨ s.flowCarrier f ≠ none → s.actCount f.half ≠ 0 →
        (s.flowRefusal n f ≠ St.OK → Refused (.flowOpen c p) s c 0x10 (s.flowRefusal n f) 0) ∧
        (s.flowRefusal n f = St.OK →
          (c.timed = true → s.windowOpen named f.lead = true → Refused (.flowOpen c p) s c 0x10 St.TOO_LATE 0x30) ∧
          (∀ a, s.OwnSymbol mu f.lead named c.timed a → s.fxOf n = [] →
            Replies (.flowOpen c p) s c 0x10 (fun _ => { at_ := some (stampOf mu a) }) [.flows, .boot, .solver, .faults] [] fun u =>
              u.flow n = { s.flow n with accepted := 0, late := 0, early := 0, invalid := 0, shed := 0 } ∧
              (∀ m, m ≠ n → u.flow m = s.flow m) ∧ u.fxOf n = [⟨a, some f⟩] ∧ (∀ m, m ≠ n → u.fxOf m = s.fxOf m) ∧
              (s.boot.solvDue = [] → Only [.flows] [] (s.entered c 0x10) u))))) := by
  intro n f mu named hacc hmay hbad
  have hrun := exec_flowOpen hacc hmay hbad
  refine ⟨fun hst => refused_of hrun (openWork_inUse (by simpa using hst)), fun h0 => ?_⟩
  have h0' : ((s.entered c 0x10).flowLast n).state = 0 := by simpa using h0
  refine ⟨fun hdir hcar => refused_of hrun (openWork_notReady h0' hdir (by simpa using hcar)),
    fun hcar hact => refused_of hrun (openWork_halfDown h0' (by simpa using hcar) (by simpa using hact)), fun hcar hact => ?_⟩
  have hcar' : f.dir = 2 ∨ (s.entered c 0x10).flowCarrier f ≠ none := by simpa using hcar
  have hact' : (s.entered c 0x10).actCount f.half ≠ 0 := by simpa using hact
  refine ⟨fun href => refused_of hrun ?_, fun href => ?_⟩
  · rw [← State.flowRefusal_entered s c 0x10] at href ⊢
    exact openWork_refusal h0' hcar' hact' href
  · have href' : (s.entered c 0x10).flowRefusal n f = St.OK := by simpa using href
    refine ⟨fun htimed hw => refused_of hrun (openWork_late h0' hcar' hact' href' ?_), fun a ha hfx => ?_⟩
    · rw [State.effectAt_entered, namedSym, if_pos htimed]
      exact State.effectAt_late hw
    · have heff : (s.entered c 0x10).effectAt n ((s.entered c 0x10).flowMu f) f.lead (namedSym c p mu) = some (a, 0) := by
        rw [State.effectAt_entered, State.flowMu_entered]
        exact State.effectAt_alone ha hfx
      have hx := openWork_opens (c := c) h0' hcar' hact' href' heff
      have hspec := openFlow_spec (s := s.entered c 0x10) a f (by simpa using hfx)
      simp only [State.flow_entered, State.boot_entered, State.fxOf_entered] at hspec
      obtain ⟨hsame, hother, hone, hrest, hnone, honly⟩ := hspec
      rw [State.flowMu_entered] at hx
      exact replies_of hrun hx honly ⟨hsame, hother, hone, hrest, hnone⟩

end Sys2Proof.Machine
end

section
/-! FLOW_MODIFY, FLOW_CLOSE and FLOW_QUERY (R102, R105, R106, R440), then the statement on the flow commands. -/

namespace Sys2Proof.Machine

set_option Elab.async false

/-! ## FLOW_MODIFY -/

/-- The context that a modify sets: what it may change comes from its parameters, the rest stays. -/
def modifyCtx (c : Cmd) (p : List Byte) (old : Flow) : Flow :=
  let x := flowArg p
  { old with layers := x.layers, comp := x.comp, lead := x.lead, rsv := x.rsv, prio := x.prio, sheddable := x.sheddable
             owner := if fromHost c.route then x.owner else old.owner }

/-- The lead that judges a modify's effect symbol. -/
def modifyLead (c : Cmd) (old f : Flow) : Nat := if c.timed then old.lead else max old.lead f.lead

/-- An accepted FLOW_MODIFY of flow `n` to context `f`. -/
def modifyWork (c : Cmd) (n : Nat) (f : Flow) (named : Option Nat) (s : State) : State :=
  if (s.flowLast n).state ≠ 1 then s.refuse c 0x11 St.NOT_READY 0
  else if s.flowRefusal n f ≠ St.OK then s.refuse c 0x11 (s.flowRefusal n f) 0
  else match s.effectAt n (s.flowMu f) (modifyLead c (s.flowLast n) f) named with
    | none => s.refuse c 0x11 St.TOO_LATE 0x30
    | some (a, fl) => (s.addFx n ⟨a, some f⟩).doneAt c 0x11 (s.flowMu f) a fl

/-- What FLOW_MODIFY finds changed that it may not change. -/
def modifyBad (old x : Flow) : Option Nat :=
  firstBad [(old.state == 1 && (!(x.dir == old.dir) || !(x.half == old.half)), 0x12),
    (old.state == 1 && (decide (old.dir ≤ 1) && !(x.carrier == old.carrier)), 0x14)]

theorem modifyBad_moved {old x : Flow} (h1 : old.state = 1) (hne : x.dir ≠ old.dir ∨ x.half ≠ old.half) :
    modifyBad old x = some 0x12 := if_pos (by simpa [h1] using hne)

theorem modifyBad_not_open {old x : Flow} (h1 : old.state ≠ 1) : modifyBad old x = none := by simp [modifyBad, firstBad, h1]

theorem modifyBad_kept {old x : Flow} (hdir : x.dir = old.dir) (hhalf : x.half = old.half)
    (hcar : old.dir = 2 ∨ x.carrier = old.carrier) : modifyBad old x = none := by
  rcases hcar with h2 | hcar
  · simp [modifyBad, firstBad, hdir, hhalf, h2]
  · simp [modifyBad, firstBad, hdir, hhalf, hcar]

section
variable {s : State} {c : Cmd} {p : List Byte} {n a : Nat} {f : Flow} {named : Option Nat}

section
variable (hacc : Accepted s c 0x11 0 [(s.flowLast (arg p 0x10 1)).half] [((s.flowLast (arg p 0x10 1)).half, 6)])
  (hmay : mayAct (s.flowOwner (arg p 0x10 1)) (fromHost c.route) = true)
  (hbad : s.flowBad p (flowArg p) (fromHost c.route) c.timed = none)
include hacc hmay hbad

theorem exec_flowModify (hkept : modifyBad (s.flowLast (arg p 0x10 1)) (flowArg p) = none) :
    let f := modifyCtx c p (s.flowLast (arg p 0x10 1))
    exec (.flowModify c p) s =
      .next (modifyWork c (arg p 0x10 1) f (namedSym c p (s.flowMu f)) (s.entered c 0x11)) := by
  dsimp only
  rw [← State.flowLast_entered s c 0x11] at hkept hacc ⊢
  rw [← State.flowBad_entered s c 0x11] at hbad
  rw [← State.flowOwner_entered s c 0x11] at hmay
  rw [← State.flowMu_entered s c 0x11]
  refine congrArg Host.Outcome.next (State.command_ok hacc _ _ _ hmay ?_ rfl rfl rfl)
  dsimp only
  rw [hbad]
  exact hkept

theorem exec_flowModify_moved {d : Nat} (hmoved : modifyBad (s.flowLast (arg p 0x10 1)) (flowArg p) = some d) :
    Refused (.flowModify c p) s c 0x11 St.BAD_PARAM d := by
  rw [← State.flowLast_entered s c 0x11] at hmoved hacc
  rw [← State.flowBad_entered s c 0x11] at hbad
  rw [← State.flowOwner_entered s c 0x11] at hmay
  refine congrArg Host.Outcome.next (State.command_bad hacc _ _ _ d hmay ?_ rfl)
  dsimp only
  rw [hbad]
  exact hmoved

end

theorem modifyWork_notReady (h : (s.flowLast n).state ≠ 1) : modifyWork c n f named s = s.refuse c 0x11 St.NOT_READY 0 :=
  if_pos h

theorem modifyWork_refusal (h1 : (s.flowLast n).state = 1) (href : s.flowRefusal n f ≠ St.OK) :
    modifyWork c n f named s = s.refuse c 0x11 (s.flowRefusal n f) 0 :=
  (if_neg (not_not.mpr h1)).trans (if_pos href)

theorem modifyWork_late (h1 : (s.flowLast n).state = 1) (href : s.flowRefusal n f = St.OK)
    (heff : s.effectAt n (s.flowMu f) (modifyLead c (s.flowLast n) f) named = none) :
    modifyWork c n f named s = s.refuse c 0x11 St.TOO_LATE 0x30 := by
  simp only [modifyWork, h1, href, heff, ne_eq, not_true_eq_false, if_false]

theorem modifyWork_modifies {fl : Nat} (h1 : (s.flowLast n).state = 1) (href : s.flowRefusal n f = St.OK)
    (heff : s.effectAt n (s.flowMu f) (modifyLead c (s.flowLast n) f) named = some (a, fl)) :
    modifyWork c n f named s = (s.addFx n ⟨a, some f⟩).doneAt c 0x11 (s.flowMu f) a fl := by
  simp only [modifyWork, h1, href, heff, ne_eq, not_true_eq_false, if_false]

end

theorem flowModify_clause (c : Cmd) (p : List Byte) (s : State) : let n := arg p 0x10 1; let x := flowArg p; let old := s.flowLast n
    let f := modifyCtx c p old; let mu := s.flowMu f; let named := countOf mu (argSym p 0x30)
    Accepted s c 0x11 0 [old.half] [(old.half, 6)] → mayAct (s.flowOwner n) (fromHost c.route) = true →
      s.flowBad p x (fromHost c.route) c.timed = none →
    (old.state = 1 → x.dir ≠ old.dir ∨ x.half ≠ old.half → Refused (.flowModify c p) s c 0x11 St.BAD_PARAM 0x12) ∧
    (old.state ≠ 1 → Refused (.flowModify c p) s c 0x11 St.NOT_READY 0) ∧
    (old.state = 1 → x.dir = old.dir → x.half = old.half → old.dir = 2 ∨ x.carrier = old.carrier →
      (s.flowRefusal n f ≠ St.OK → Refused (.flowModify c p) s c 0x11 (s.flowRefusal n f) 0) ∧
      (s.flowRefusal n f = St.OK →
        (c.timed = true → s.windowOpen named old.lead = true → Refused (.flowModify c p) s c 0x11 St.TOO_LATE 0x30) ∧
        (∀ a, (if c.timed then s.windowOpen named old.lead = false ∧ a = named else a = s.firstEffect mu (max old.lead f.lead)) →
          s.fxOf n = [] →
          Replies (.flowModify c p) s c 0x11 (fun _ => { at_ := some (stampOf mu a) }) [.flows] [] fun u =>
            u.flows = s.flows ∧ u.fxOf n = [⟨a, some f⟩] ∧ (∀ m, m ≠ n → u.fxOf m = s.fxOf m)))) := by
  intro n x old f mu named hacc hmay hbad
  refine ⟨fun h1 hne => exec_flowModify_moved hacc hmay hbad (modifyBad_moved h1 hne), fun h1 => ?_, fun h1 hdir hhalf hcar => ?_⟩
  · exact refused_of (exec_flowModify hacc hmay hbad (modifyBad_not_open h1)) (modifyWork_notReady (by simpa using h1))
  have hrun := exec_flowModify hacc hmay hbad (modifyBad_kept hdir hhalf hcar)
  have h1' : ((s.entered c 0x11).flowLast n).state = 1 := by simpa using h1
  refine ⟨fun href => refused_of hrun ?_, fun href => ?_⟩
  · rw [← State.flowRefusal_entered s c 0x11] at href ⊢
    exact modifyWork_refusal h1' href
  · have href' : (s.entered c 0x11).flowRefusal n f = St.OK := by simpa using href
    refine ⟨fun htimed hw => refused_of hrun (modifyWork_late h1' href' ?_), fun a ha hfx => ?_⟩
    · rw [State.effectAt_entered, State.flowLast_entered, modifyLead, namedSym, if_pos htimed, if_pos htimed]
      exact State.effectAt_late hw
    · have hown : s.OwnSymbol mu (modifyLead c old f) named c.timed a := by
        unfold State.OwnSymbol modifyLead
        split at ha
        next h => simpa [h] using ha
        next h => simpa [h] using ha
      have heff : (s.entered c 0x11).effectAt n ((s.entered c 0x11).flowMu f)
          (modifyLead c ((s.entered c 0x11).flowLast n) f) (namedSym c p mu) = some (a, 0) := by
        rw [State.effectAt_entered, State.flowMu_entered, State.flowLast_entered]
        exact State.effectAt_alone hown hfx
      have hx := modifyWork_modifies (c := c) h1' href' heff
      rw [State.flowMu_entered] at hx
      refine replies_of hrun hx (only_addFx _ _ _) ⟨State.flows_entered s c 0x11, ?_, fun m hm => ?_⟩
      · rw [State.fxOf_addFx_same, State.fxOf_entered, hfx, List.nil_append]
      · rw [State.fxOf_addFx_ne _ _ hm, State.fxOf_entered]

/-! ## FLOW_CLOSE -/

/-- An effect that waits, with its context CLOSING. -/
def FlowFx.closing (x : FlowFx) : FlowFx :=
  match x.ctx with
  | some g => { x with ctx := some { g with state := 3 } }
  | none => x

/-- The effects of a flow that wait set contexts that are CLOSING. -/
def State.closeFx (s : State) (n : Nat) : State :=
  { s with flowFx := tset (fun _ => []) s.flowFx n ((s.fxOf n).map FlowFx.closing) }

/-- A flow that is not CLOSED is CLOSING. -/
def State.closeCtx (s : State) (n : Nat) : State := if (s.flow n).state = 0 then s else s.setFlow n { s.flow n with state := 3 }

/-- What a close does that is accepted. -/
def State.closeFlow (s : State) (n a : Nat) : State := ((s.closeFx n).closeCtx n).addFx n ⟨a, none⟩

/-- An accepted FLOW_CLOSE of flow `n`. -/
def closeWork (c : Cmd) (n : Nat) (named : Option Nat) (s : State) : State :=
  let f := s.flowLast n
  if f.state = 0 ∨ f.state = 3 then s.refuse c 0x12 St.NOT_READY 0
  else match s.effectAt n (s.flowMu f) f.lead named with
    | none => s.refuse c 0x12 St.TOO_LATE 0x30
    | some (a, fl) => (s.closeFlow n a).doneAt c 0x12 (s.flowMu f) a fl

section
variable {s : State} {c : Cmd} {p : List Byte} {n a : Nat} {named : Option Nat}

theorem exec_flowClose (hacc : Accepted s c 0x12 0 [(s.flowLast (arg p 0x10 1)).half] [((s.flowLast (arg p 0x10 1)).half, 6)])
    (hmay : mayAct (s.flowOwner (arg p 0x10 1)) (fromHost c.route) = true)
    (hstamp : c.timed = true → stampOk (s.flowMu (s.flowLast (arg p 0x10 1))) (argSym p 0x30) = true) :
    exec (.flowClose c p) s =
      .next (closeWork c (arg p 0x10 1) (namedSym c p (s.flowMu (s.flowLast (arg p 0x10 1)))) (s.entered c 0x12)) := by
  rw [← State.flowOwner_entered s c 0x12] at hmay
  rw [← State.flowLast_entered s c 0x12] at hacc hstamp ⊢
  rw [← State.flowMu_entered s c 0x12] at hstamp ⊢
  refine congrArg Host.Outcome.next (State.command_ok hacc _ _ _ hmay (if_neg ?_) rfl rfl rfl)
  cases htimed : c.timed with
  | false => simp
  | true => simpa using fun _ => hstamp htimed

theorem closeWork_notReady (h : (s.flowLast n).state = 0 ∨ (s.flowLast n).state = 3) :
    closeWork c n named s = s.refuse c 0x12 St.NOT_READY 0 := if_pos h

theorem closeWork_late (hst : ¬((s.flowLast n).state = 0 ∨ (s.flowLast n).state = 3))
    (heff : s.effectAt n (s.flowMu (s.flowLast n)) (s.flowLast n).lead named = none) :
    closeWork c n named s = s.refuse c 0x12 St.TOO_LATE 0x30 := by
  simp only [closeWork, if_neg hst, heff]

theorem closeWork_closes {fl : Nat} (hst : ¬((s.flowLast n).state = 0 ∨ (s.flowLast n).state = 3))
    (heff : s.effectAt n (s.flowMu (s.flowLast n)) (s.flowLast n).lead named = some (a, fl)) :
    closeWork c n named s = (s.closeFlow n a).doneAt c 0x12 (s.flowMu (s.flowLast n)) a fl := by
  simp only [closeWork, if_neg hst, heff]

end

theorem only_closeFx (s : State) (n : Nat) : Only [.flows] [] s (s.closeFx n) :=
  ⟨fun p hp => by cases p <;> simp [Part.Same, State.closeFx] at hp ⊢, fun _ _ => rfl⟩

theorem only_closeCtx (s : State) (n : Nat) : Only [.flows] [] s (s.closeCtx n) :=
  Only.ite _ (fun _ => Only.refl _ _ s) fun _ => only_setFlow s n _

theorem only_closeFlow (s : State) (n a : Nat) : Only [.flows] [] s (s.closeFlow n a) :=
  ((only_closeFx s n).trans (only_closeCtx _ n)).trans (only_addFx _ n _)

theorem State.flow_closeCtx_ne (s : State) {n m : Nat} (h : m ≠ n) : (s.closeCtx n).flow m = s.flow m := by
  unfold State.closeCtx
  split
  · rfl
  · exact (State.flow_setFlow _ _ _ _).trans (if_neg h.symm)

theorem State.flow_closeCtx_same {s : State} {n : Nat} (h : (s.flow n).state ≠ 0) : ((s.closeCtx n).flow n).state = 3 := by
  rw [State.closeCtx, if_neg h, State.flow_setFlow_same]

theorem State.fxOf_closeCtx (s : State) (n m : Nat) : (s.closeCtx n).fxOf m = s.fxOf m := by
  unfold State.closeCtx
  split <;> rfl

theorem State.fxOf_closeFx_same (s : State) (n : Nat) : (s.closeFx n).fxOf n = (s.fxOf n).map FlowFx.closing :=
  tget_tset_same _ _ _ _

theorem State.fxOf_closeFx_ne (s : State) {n m : Nat} (h : m ≠ n) : (s.closeFx n).fxOf m = s.fxOf m :=
  tget_tset_ne _ _ _ h.symm

theorem closeFlow_spec (s : State) (n a : Nat) :
    let u := s.closeFlow n a
    u.fxOf n = (s.fxOf n).map FlowFx.closing ++ [⟨a, none⟩] ∧ (u.flowLast n).state = 3 ∧
      ((s.flow n).state ≠ 0 → (u.flow n).state = 3) ∧ ∀ m, m ≠ n → u.flow m = s.flow m ∧ u.fxOf m = s.fxOf m := by
  refine ⟨?_, State.flowLast_addFx_close _ n a, fun h0 => State.flow_closeCtx_same (s := s.closeFx n) h0, fun m hm => ⟨?_, ?_⟩⟩
  · rw [State.closeFlow, State.fxOf_addFx_same, State.fxOf_closeCtx, State.fxOf_closeFx_same]
  · exact State.flow_closeCtx_ne (s.closeFx n) hm
  · rw [State.closeFlow, State.fxOf_addFx_ne _ _ hm, State.fxOf_closeCtx, State.fxOf_closeFx_ne _ hm]

theorem flowClose_clause (c : Cmd) (p : List Byte) (s : State) : let n := arg p 0x10 1; let f := s.flowLast n; let mu := s.flowMu f
    let named := countOf mu (argSym p 0x30)
    Accepted s c 0x12 0 [f.half] [(f.half, 6)] → mayAct (s.flowOwner n) (fromHost c.route) = true →
    (f.state = 0 ∨ f.state = 3 → c.timed = false → Refused (.flowClose c p) s c 0x12 St.NOT_READY 0) ∧
    (f.state = 1 ∨ f.state = 2 →
      (c.timed = true → stampOk mu (argSym p 0x30) = true → s.windowOpen named f.lead = true →
        Refused (.flowClose c p) s c 0x12 St.TOO_LATE 0x30) ∧
      (∀ a, (c.timed = true → stampOk mu (argSym p 0x30) = true) → s.OwnSymbol mu f.lead named c.timed a →
        (s.fxOf n = [] →
          Replies (.flowClose c p) s c 0x12 (fun _ => { at_ := some (stampOf mu a) }) [.flows] [] fun u =>
            (u.flow n).state = 3 ∧ u.fxOf n = [⟨a, none⟩] ∧ ∀ m, m ≠ n → u.flow m = s.flow m ∧ u.fxOf m = s.fxOf m) ∧
        (∀ (l : List FlowFx) (x : FlowFx), s.fxOf n = l ++ [x] → ahead x.at_ a < 0 →
          Replies (.flowClose c p) s c 0x12 (fun _ => { at_ := some (stampOf mu x.at_), flags := 4 }) [.flows] [] fun u =>
            (u.flowLast n).state = 3 ∧ (u.fxOf n).getLast? = some ⟨x.at_, none⟩ ∧ ∀ m, m ≠ n → u.flow m = s.flow m))) := by
  intro n f mu named hacc hmay
  refine ⟨fun hst htimed => ?_, fun hst => ?_⟩
  · have hrun := exec_flowClose hacc hmay fun h => absurd h (by simp [htimed])
    exact refused_of hrun (closeWork_notReady (by simpa using hst))
  have hst' : ¬(((s.entered c 0x12).flowLast n).state = 0 ∨ ((s.entered c 0x12).flowLast n).state = 3) := by
    rw [State.flowLast_entered]
    change ¬(f.state = 0 ∨ f.state = 3)
    omega
  refine ⟨fun htimed hstamp hw => ?_, fun a hstamp ha => ?_⟩
  · refine refused_of (exec_flowClose hacc hmay fun _ => hstamp) (closeWork_late hst' ?_)
    rw [State.effectAt_entered, State.flowLast_entered, namedSym, if_pos htimed]
    exact State.effectAt_late hw
  have hrun := exec_flowClose hacc hmay hstamp
  have hcloses : ∀ b fl, s.effectAt n mu f.lead (namedSym c p mu) = some (b, fl) →
      closeWork c n (namedSym c p mu) (s.entered c 0x12) = ((s.entered c 0x12).closeFlow n b).doneAt c 0x12 mu b fl :=
    fun b fl heff => by
      have hx := closeWork_closes (c := c) (named := namedSym c p mu) (a := b) (fl := fl) hst'
      rw [State.effectAt_entered, State.flowLast_entered, State.flowMu_entered] at hx
      exact hx heff
  refine ⟨fun hfx => ?_, fun l x hfx hback => ?_⟩
  · obtain ⟨hfx', -, hthree, hother⟩ := closeFlow_spec (s.entered c 0x12) n a
    simp only [State.flow_entered, State.fxOf_entered] at hfx' hthree hother
    have hopen : (s.flow n).state ≠ 0 := by
      rw [← State.flowLast_of_fxOf_nil hfx]
      exact fun h0 => hst' (.inl (by rwa [State.flowLast_entered]))
    exact replies_of hrun (hcloses a 0 (State.effectAt_alone ha hfx)) (only_closeFlow _ _ _)
      ⟨hthree hopen, by rw [hfx', hfx]; rfl, hother⟩
  · obtain ⟨hfx', hlast, -, hother⟩ := closeFlow_spec (s.entered c 0x12) n x.at_
    simp only [State.flow_entered] at hother
    exact replies_of hrun (hcloses x.at_ 4 (State.effectAt_deferred ha hfx hback)) (only_closeFlow _ _ _)
      ⟨hlast, by rw [hfx', List.getLast?_concat], fun m hm => (hother m hm).1⟩

/-! ## FLOW_QUERY -/

theorem flowQuery_clause (c : Cmd) (p : List Byte) (s : State) (hacc : Accepted s c 0x13 32 [(s.flow (arg p 0x10 1)).half] []) :
    Replies (.flowQuery c p) s c 0x13 (fun _ => { data := (s.flow (arg p 0x10 1)).bytes (arg p 0x10 1) }) [] [] fun _ => True := by
  rw [← State.flow_entered s c 0x13] at hacc ⊢
  exact replies_of (congrArg Host.Outcome.next (State.command_ok hacc _ _ _ rfl rfl rfl rfl rfl)) rfl (Only.refl _ _ _) trivial

/-- Settles O42: command by command, from what each does once the common checks have passed and its context is in range. -/
theorem flowCommands : Obligations.FlowCommands := by
  unfold Obligations.FlowCommands
  refine ⟨fun c p s => ?_, flowModify_clause, fun c p s => ?_, flowQuery_clause⟩
  · intro n f mu hacc hmay hbad
    obtain ⟨hinUse, hrest⟩ := flowOpen_clause c p s hacc hmay hbad
    refine ⟨hinUse, fun h0 => ?_⟩
    obtain ⟨hready, hdown, hchecks⟩ := hrest h0
    refine ⟨hready, hdown, fun hcar hact => ?_⟩
    obtain ⟨hrefusal, hok⟩ := hchecks hcar hact
    refine ⟨fun m hm hmn hdir hopen hsame hcarrier hlay => ?_, fun hdir hclosed hrate => ?_, hrefusal, hok⟩
    · have hst : s.flowRefusal n f = St.LAYER_CONFLICT := State.flowRefusal_layerConflict hdir hm hmn hopen hsame hcarrier hlay
      exact hst ▸ hrefusal (hst ▸ by decide)
    · have hsome : s.flowCarrier f ≠ none := hcar.resolve_left (by omega)
      obtain ⟨mn, hmn⟩ := Option.ne_none_iff_exists'.mp hsome
      have hst : s.flowRefusal n f = St.RATE_LOW := State.flowRefusal_rateLow hdir hclosed hmn (hrate mn hmn)
      exact hst ▸ hrefusal (hst ▸ by decide)
  · intro n f mu hacc hmay
    obtain ⟨hidle, hrest⟩ := flowClose_clause c p s hacc hmay
    refine ⟨hidle, fun hst => ?_⟩
    obtain ⟨hlate, hcloses⟩ := hrest hst
    refine ⟨hlate, fun a ha => hcloses a ?_ ?_⟩
    · exact fun htimed => ((if_pos htimed).mp ha).1
    · unfold State.OwnSymbol
      split at ha
      next h => simpa [h] using ha.2
      next h => simpa [h] using ha

end Sys2Proof.Machine
end

section
/-! The receive converters and gain control (R156 to R167): what each operation leaves, then the statement on them. -/

namespace Sys2Proof.Machine

/-! ## Converters -/

theorem only_mapConv (s : State) (v : Conv) (f : ConvSt → ConvSt) : Only [.receive] [] s (s.mapConv v f) :=
  ⟨fun p hp => by cases p <;> simp [Part.Same, State.mapConv] at hp ⊢, fun _ _ => rfl⟩

@[simp] theorem State.convOf_mapConv_same (s : State) (v : Conv) (f : ConvSt → ConvSt) :
    (s.mapConv v f).convOf v = f (s.convOf v) := tget_tset_same _ _ _ _

/-- The correction found while a slice rested is in force once the slice is exchanged (R156). -/
theorem ConvSt.rotate_corr {c : ConvSt} {x : SliceCorr} (h : tget (fun _ => none) c.found c.resting = some x) :
    tget (fun _ => ⟨0, 0, 0⟩) c.rotate.corr c.resting = x := by
  simp [ConvSt.rotate, h]

section
variable {v : Conv} {inSpan : Bool} {s : State}

theorem exec_adcSliceRotate_free (hrot : s.rotates v = true) (hfree : s.rotateWaits v inSpan = false) :
    exec (.adcSliceRotate v inSpan) s = .next (s.mapConv v ConvSt.rotate) := by
  change execAdcSliceRotate v inSpan s = _
  simp [execAdcSliceRotate, hrot, hfree]

theorem exec_adcSliceRotate_waiting (hrot : s.rotates v = true) (hwait : s.rotateWaits v inSpan = true) :
    exec (.adcSliceRotate v inSpan) s = .next (s.mapConv v fun c => { c with due := some (c.due.getD s.time.now) }) := by
  change execAdcSliceRotate v inSpan s = _
  simp [execAdcSliceRotate, hrot, hwait]

/-- Outside a capture span an exchange that has waited 10 ms is made for either kind of converter (R156, R224). -/
theorem exec_adcRotateForce_overdue {k : Nat} (hrot : s.rotates v = true) (hdue : (s.convOf v).due = some k)
    (hlate : k + 4915200 ≤ s.time.now) : exec (.adcRotateForce v false) s = .next (s.mapConv v ConvSt.rotate) := by
  change execAdcRotateForce v false s = _
  cases v with
  | rx p q => simp [execAdcRotateForce, hdue, hrot, hlate]
  | orx n q => simp [execAdcRotateForce, hdue, hrot, hlate]

theorem adcSliceRotate_exchanges (hrot : s.rotates v = true) (hfree : s.rotateWaits v inSpan = false) :
    Runs (.adcSliceRotate v inSpan) s fun t =>
      (t.convOf v).resting = (s.convOf v).next ∧ (t.convOf v).due = none ∧
      (∀ x, tget (fun _ => none) (s.convOf v).found (s.convOf v).resting = some x →
        tget (fun _ => ⟨0, 0, 0⟩) (t.convOf v).corr (s.convOf v).resting = x) ∧ Only [.receive] [] s t := by
  refine ⟨_, exec_adcSliceRotate_free hrot hfree, ?_⟩
  beta_reduce
  rw [State.convOf_mapConv_same]
  exact ⟨rfl, rfl, fun _ => ConvSt.rotate_corr, only_mapConv _ _ _⟩

theorem adcSliceRotate_waits (hrot : s.rotates v = true) (hwait : s.rotateWaits v inSpan = true) :
    Runs (.adcSliceRotate v inSpan) s fun t =>
      (t.convOf v).due = some ((s.convOf v).due.getD s.time.now) ∧ (t.convOf v).resting = (s.convOf v).resting ∧
      Only [.receive] [] s t := by
  refine ⟨_, exec_adcSliceRotate_waiting hrot hwait, ?_⟩
  beta_reduce
  rw [State.convOf_mapConv_same]
  exact ⟨rfl, rfl, only_mapConv _ _ _⟩

theorem adcRotateForce_exchanges {k : Nat} (hrot : s.rotates v = true) (hdue : (s.convOf v).due = some k)
    (hlate : k + 4915200 ≤ s.time.now) : Runs (.adcRotateForce v false) s fun t =>
      (t.convOf v).resting = (s.convOf v).next ∧ (t.convOf v).due = none ∧ Only [.receive] [] s t := by
  refine ⟨_, exec_adcRotateForce_overdue hrot hdue hlate, ?_⟩
  beta_reduce
  rw [State.convOf_mapConv_same]
  exact ⟨rfl, rfl, only_mapConv _ _ _⟩

end

/-! ## Calibration of the resting slice (R157) -/

section
variable {v : Conv} {corr : SliceCorr} {s : State}

theorem adcSliceCalDone_passes : Runs (.adcSliceCalDone v true corr) s fun t =>
    (t.convOf v).failed.contains (s.convOf v).resting = false ∧
    ((s.convOf v).retired = [] → tget (fun _ => none) (t.convOf v).found (s.convOf v).resting = some corr) ∧
    Only [.receive] [] s t := by
  refine ⟨_, rfl, ?_⟩
  beta_reduce
  rw [State.convOf_mapConv_same]
  refine ⟨by simp, fun hkept => ?_, only_mapConv _ _ _⟩
  simp [hkept]

theorem adcSliceCalDone_firstFailure (hfirst : (s.convOf v).failed.contains (s.convOf v).resting = false) :
    Runs (.adcSliceCalDone v false corr) s fun t =>
      (t.convOf v).failed.contains (s.convOf v).resting = true ∧ (t.convOf v).retired = (s.convOf v).retired ∧
      Only [.receive] [] s t := by
  have hexec : exec (.adcSliceCalDone v false corr) s =
      .next (s.mapConv v fun c => { c with failed := c.resting :: c.failed }) :=
    if_pos (by rw [hfirst]; rfl)
  refine ⟨_, hexec, ?_⟩
  beta_reduce
  rw [State.convOf_mapConv_same]
  exact ⟨by simp, rfl, only_mapConv _ _ _⟩

end

/-! ## The receive side of a path -/

@[simp] theorem State.rx_mapRx_same (s : State) (p : Nat) (f : RxPath → RxPath) : (s.mapRx p f).rx p = f (s.rx p) :=
  tget_tset_same _ _ _ _

theorem State.rx_congr {s t : State} (h : t.rxp = s.rxp) (p : Nat) : t.rx p = s.rx p := by rw [State.rx, h, State.rx]

@[simp] theorem State.bump_rx (s : State) (x : Fld) (n p : Nat) : (s.bump x n).rx p = s.rx p := State.rx_congr rfl p

theorem State.setGain_rx (s : State) (p att : Nat) (byp : Bool) :
    ∃ g, (s.setGain p att byp).rx p = { s.rx p with att := att, bypass := byp, gains := g } := by
  rw [State.setGain, State.rx_mapRx_same]
  dsimp only
  split
  · exact ⟨_, rfl⟩
  · exact ⟨_, rfl⟩

theorem only_setGain (s : State) (p att : Nat) (byp : Bool) : Only [.receive] [] s (s.setGain p att byp) := only_mapRx _ _ _

/-! ## Sprint steps (R160) -/

/-- A sprint step is taken: it is allowed, the estimators run, and attenuation is left to add. -/
abbrev State.Sprints (s : State) (p : Nat) : Prop :=
  s.on Rg.UL_AGC_SPRINT_EN = true ∧ s.agcRuns p s.time.count = true ∧ (s.rx p).att < s.f Rg.UL_AGC_ATT_MAX

/-- What a sprint step leaves, taken or not. -/
theorem State.sprint_spec (s : State) (p : Nat) :
    Only [.receive] [(Rg.C_SPRINT (p / 32)).off] s (s.sprint p) ∧
    ((s.sprint p).rx p).ovr = (s.rx p).ovr ∧ ((s.sprint p).rx p).onsets = (s.rx p).onsets ∧
    (s.Sprints p → ((s.sprint p).rx p).att = min ((s.rx p).att + s.f Rg.UL_AGC_SPRINT_STEP) (s.f Rg.UL_AGC_ATT_MAX) ∧
      ((s.sprint p).rx p).sprintNow = true ∧ ((s.sprint p).rx p).sprintTicks.head? = some s.time.now) := by
  unfold State.sprint
  dsimp only
  split
  next =>
    obtain ⟨g, hg⟩ := s.setGain_rx p (min ((s.rx p).att + s.f Rg.UL_AGC_SPRINT_STEP) (s.f Rg.UL_AGC_ATT_MAX)) (s.rx p).bypass
    rw [State.bump_rx, State.rx_mapRx_same, hg]
    exact ⟨(((only_setGain s p _ _).trans (only_mapRx _ p _)).mono (List.Subset.refl _) (List.nil_subset _)).trans
      ((only_bump _ _ _).mono (List.nil_subset _) (List.Subset.refl _)), rfl, rfl, fun _ => ⟨rfl, rfl, rfl⟩⟩
  next hnot => exact ⟨Only.refl _ _ _, rfl, rfl, fun h => absurd (by simpa [and_assoc] using h) hnot⟩

theorem sprintStep_adds {p : PathNo} {s : State} (hovr : (s.rx p.val).ovr = true) (hs : s.Sprints p.val) :
    Runs (.sprintStep p) s fun t =>
      (t.rx p.val).att = min ((s.rx p.val).att + s.f Rg.UL_AGC_SPRINT_STEP) (s.f Rg.UL_AGC_ATT_MAX) ∧
      (t.rx p.val).sprintNow = true ∧ (t.rx p.val).sprintTicks.head? = some s.time.now ∧
      Only [.receive] [(Rg.C_SPRINT (p.val / 32)).off] s t := by
  obtain ⟨honly, -, -, hadds⟩ := s.sprint_spec p.val
  obtain ⟨hatt, hnow, htick⟩ := hadds hs
  exact ⟨_, congrArg Host.Outcome.next (if_pos hovr), hatt, hnow, htick, honly⟩

/-! ## Over-range codes (R158, R176) -/

/-- The path's bit of UL_OVL is set. -/
def State.flagOverrange (s : State) (p : Nat) : State :=
  if p < 32 then s.setBit Rg.UL_OVL0_OVL p true else s.setBit Rg.UL_OVL1_OVL (p - 32) true

/-- The indication begins, and its onset is counted. -/
def State.countOnset (s : State) (p : Nat) : State :=
  (s.mapRx p fun r => { r with ovr := true, onsets := inc32 r.onsets 1 }).bump (Rg.C_ADC_OVL (p / 32)) 1

/-- UL_OVERLOAD is raised, or counted towards the next while it is off. -/
def State.reportOverload (s : State) (p : Nat) : State :=
  if s.on Rg.UL_CFG_OVL_EVT then s.raiseLimited (p / 32) Ev.UL_OVERLOAD p 4915200 1 [] else s.countLimited Ev.UL_OVERLOAD p 1

theorem only_flagOverrange (s : State) (p : Nat) :
    Only [] [Rg.UL_OVL0_OVL.off, Rg.UL_OVL1_OVL.off] s (s.flagOverrange p) :=
  Only.ite _ (fun _ => (only_setF _ _ _).mono (List.Subset.refl _) (by decide))
    (fun _ => (only_setF _ _ _).mono (List.Subset.refl _) (by decide))

theorem only_reportOverload (s : State) (p : Nat) : Only eventParts eventRegs s (s.reportOverload p) :=
  Only.ite _ (fun _ => only_raiseLimited _ _ _ _ _ _ _) (fun _ => only_setRate _ _ _ _)

theorem Only.rx {l : List Part} {m : List Nat} {s t : State} (h : Only l m s t) (hl : Part.receive ∉ l) (p : Nat) :
    t.rx p = s.rx p := State.rx_congr (h.1 .receive hl).2 p

theorem exec_adcOverrange_onset {p : PathNo} {i q : Int} {s : State} (hi : overCode i = true) (hovr : (s.rx p.val).ovr = false) :
    exec (.adcOverrange p i q) s = .next ((((s.flagOverrange p.val).countOnset p.val).reportOverload p.val).sprint p.val) := by
  have hover : ¬(!(overCode i || overCode q)) = true := by simp [hi]
  have hfirst : ¬((s.flagOverrange p.val).rx p.val).ovr = true := by
    rw [(only_flagOverrange s p.val).rx (by simp), hovr]; simp
  exact (if_neg hover).trans (if_neg hfirst)

/-- A half's onset counter is none of the registers of the over-range bits, of the events or of the sprint steps. -/
theorem adcOvl_apart {h : Nat} (hh : h < 2) : (Rg.C_ADC_OVL h).off ∉ [Rg.UL_OVL0_OVL.off, Rg.UL_OVL1_OVL.off] ∧
    (Rg.C_ADC_OVL h).off ∉ eventRegs ∧ (Rg.C_ADC_OVL h).off ∉ [(Rg.C_SPRINT h).off] := by
  simp only [eventRegs, Rg.C_ADC_OVL, Rg.UL_OVL0_OVL, Rg.UL_OVL1_OVL, Rg.C_SPRINT, Rg.ALERT_STAT_EVT_LOST, Rg.MSIX_PBA,
    Rg.RING_IDX_DEV_IDX, Rg.C_EVT_LOST, List.mem_cons, List.not_mem_nil, or_false]
  omega

theorem adcOverrange_inRange {p : PathNo} {i q : Int} {s : State} (hi : overCode i = false) (hq : overCode q = false) :
    Runs (.adcOverrange p i q) s fun t => (t.rx p.val).ovr = false ∧ Only [.receive] [] s t := by
  have hexec : exec (.adcOverrange p i q) s = .next (s.mapRx p.val fun r => { r with ovr := false }) :=
    if_pos (by rw [hi, hq]; rfl)
  refine ⟨_, hexec, ?_, only_mapRx _ _ _⟩
  rw [State.rx_mapRx_same]

theorem adcOverrange_onset {p : PathNo} {i q : Int} {s : State} (hi : overCode i = true) (hovr : (s.rx p.val).ovr = false) :
    Runs (.adcOverrange p i q) s fun t =>
      (t.rx p.val).ovr = true ∧ (t.rx p.val).onsets = inc32 (s.rx p.val).onsets 1 ∧
      t.raw (Rg.C_ADC_OVL (p.val / 32)) =
        min (s.raw (Rg.C_ADC_OVL (p.val / 32)) + 1) (2 ^ (Rg.C_ADC_OVL (p.val / 32)).w - 1) := by
  obtain ⟨hbits, hevt, hsprint⟩ := adcOvl_apart (h := p.val / 32) (by omega)
  have hflag := only_flagOverrange s p.val
  have hreport := only_reportOverload ((s.flagOverrange p.val).countOnset p.val) p.val
  obtain ⟨honly, hovr', honsets, -⟩ :=
    (((s.flagOverrange p.val).countOnset p.val).reportOverload p.val).sprint_spec p.val
  have hrx : ((s.flagOverrange p.val).countOnset p.val).rx p.val =
      { s.rx p.val with ovr := true, onsets := inc32 (s.rx p.val).onsets 1 } := by
    rw [State.countOnset, State.bump_rx, State.rx_mapRx_same, hflag.rx (by simp)]
  have hcount : ((s.flagOverrange p.val).countOnset p.val).raw (Rg.C_ADC_OVL (p.val / 32)) =
      min (s.raw (Rg.C_ADC_OVL (p.val / 32)) + 1) (2 ^ (Rg.C_ADC_OVL (p.val / 32)).w - 1) := by
    rw [State.countOnset, State.raw_bump _ _ _ (by simp [Rg.C_ADC_OVL]), (only_mapRx _ _ _).2.raw _ (by simp),
      hflag.2.raw _ hbits]
  refine ⟨_, exec_adcOverrange_onset hi hovr, ?_, ?_, ?_⟩
  · rw [hovr', hreport.rx (by decide), hrx]
  · rw [honsets, hreport.rx (by decide), hrx]
  · rw [honly.2.raw _ hsprint, hreport.2.raw _ hevt, hcount]

/-! ## The slice's share of an interval's end (R164) -/

/-- What gain control keeps of a path: attenuation, bypass, a bypass change to come, and whether a sprint step was taken. -/
def RxPath.gainControl (r : RxPath) : Nat × Bool × Option (Bool × Nat) × Bool := (r.att, r.bypass, r.pendBypass, r.sprintNow)

/-- Codes go through a path's slice: samples, measured power and saturations change, gain control does not. -/
structure FeedWork (p : Nat) (s t : State) : Prop where
  only : Only [.receive, .uplink] [(Rg.C_FILT_SAT (p / 32)).off] s t
  gain : (t.rx p).gainControl = (s.rx p).gainControl

theorem FeedWork.refl (p : Nat) (s : State) : FeedWork p s s := ⟨Only.refl _ _ _, rfl⟩

theorem FeedWork.trans {p : Nat} {s t u : State} (a : FeedWork p s t) (b : FeedWork p t u) : FeedWork p s u :=
  ⟨a.only.trans b.only, b.gain.trans a.gain⟩

theorem feedWork_mapRx (s : State) (p : Nat) (f : RxPath → RxPath) (hf : ∀ r, (f r).gainControl = r.gainControl) :
    FeedWork p s (s.mapRx p f) :=
  ⟨(only_mapRx s p f).mono (by decide) (List.nil_subset _), by rw [State.rx_mapRx_same, hf]⟩

theorem feedWork_countSat (s : State) (p n : Nat) : FeedWork p s (s.bump (Rg.C_FILT_SAT (p / 32)) n) :=
  ⟨(only_bump _ _ _).mono (List.nil_subset _) (List.Subset.refl _), by rw [State.bump_rx]⟩

theorem feedWork_addUlSat (s : State) (p h : Nat) (l : List Nat) : FeedWork p s (s.addUlSat h l) :=
  ⟨(only_setUlSat s _).mono (by decide) (List.nil_subset _), rfl⟩

theorem RxPath.put_gainControl (r : RxPath) (b : UlBuf) : (r.put b).gainControl = r.gainControl := by
  unfold RxPath.put
  split
  · rfl
  · dsimp only
    split
    · rfl
    · rfl

/-- A carrier's samples: saturations are counted, the samples join the path's elastic buffer, and the count is noted. -/
theorem State.feedCarrier_eq (s : State) (p first : Nat) (z : List Cplx) (c : Nat) :
    ∃ n car b l, s.feedCarrier p first z c = ((s.bump (Rg.C_FILT_SAT (p / 32)) n).mapRx p fun r =>
      { r with cars := tset (fun _ => RxCar.reset) r.cars c car }.put b).addUlSat (p / 32) l := ⟨_, _, _, _, rfl⟩

theorem feedWork_feedCarrier (s : State) (p first : Nat) (z : List Cplx) (c : Nat) :
    FeedWork p s (s.feedCarrier p first z c) := by
  obtain ⟨n, car, b, l, he⟩ := s.feedCarrier_eq p first z c
  rw [he]
  refine ((feedWork_countSat s p n).trans (feedWork_mapRx _ p _ fun r => ?_)).trans (feedWork_addUlSat _ p _ l)
  exact RxPath.put_gainControl _ b

theorem feedWork_feed (s : State) (p : Nat) (run : AdcRun) : FeedWork p s (s.feed p run) := by
  unfold State.feed
  dsimp only
  split
  · exact .refl p s
  · exact List.foldlRecOn _ _ (feedWork_mapRx s p _ fun _ => rfl) fun t ht c _ => ht.trans (feedWork_feedCarrier t p _ _ c)

theorem State.feed_nil {run : AdcRun} (h : run.codes = []) (s : State) (p : Nat) : s.feed p run = s := by
  simp [State.feed, h]

/-! ## The distance path and the bypass (R161) -/

/-- Gain is set on a path: nothing but the receive side changes, and the interval's sprint record stands. -/
structure GainWork (p : Nat) (s t : State) : Prop where
  only : Only [.receive] [] s t
  sprintNow : (t.rx p).sprintNow = (s.rx p).sprintNow

theorem GainWork.refl (p : Nat) (s : State) : GainWork p s s := ⟨Only.refl _ _ _, rfl⟩

theorem GainWork.trans {p : Nat} {s t u : State} (a : GainWork p s t) (b : GainWork p t u) : GainWork p s u :=
  ⟨a.only.trans b.only, b.sprintNow.trans a.sprintNow⟩

theorem gainWork_setGain (s : State) (p att : Nat) (byp : Bool) : GainWork p s (s.setGain p att byp) := by
  obtain ⟨g, hg⟩ := s.setGain_rx p att byp
  exact ⟨only_setGain s p att byp, by rw [hg]⟩

theorem gainWork_pendBypass (s : State) (p : Nat) (x : Option (Bool × Nat)) :
    GainWork p s (s.mapRx p fun r => { r with pendBypass := x }) :=
  ⟨only_mapRx _ _ _, by rw [State.rx_mapRx_same]⟩

theorem gainWork_bypassBoundary (s : State) (p : Nat) : GainWork p s (s.bypassBoundary p) := by
  unfold State.bypassBoundary
  dsimp only
  split
  next b n _ =>
    split
    · exact gainWork_pendBypass s p _
    · exact (gainWork_pendBypass s p none).trans (gainWork_setGain _ _ _ _)
  next => exact .refl p s

theorem State.bypassBoundary_none {s : State} {p : Nat} (h : (s.rx p).pendBypass = none) : s.bypassBoundary p = s := by
  rw [State.bypassBoundary, h]

/-- The attenuation the distance path moves to when the level lies `ovr` above the target. -/
def State.distanceAtt (s : State) (p : Nat) (ovr : Int) : Nat :=
  let r := s.rx p
  let top := s.f Rg.UL_AGC_ATT_MAX
  let want := (r.att : Int) + (ovr + 2 ^ 19) / 2 ^ 20
  let clipped := if want < 0 then 0 else if (top : Int) < want then top else want.toNat
  if r.att ≤ clipped then clipped
  else if r.sprintNow || r.sprintLast then r.att
  else max clipped (r.att - s.f Rg.UL_AGC_DIST_UP)

/-- The bypass change that the distance path asks for, in the state `t` that its new attenuation leaves. -/
def State.askBypass (s t : State) (p : Nat) (ovr : Int) : State :=
  let r := s.rx p
  let top := s.f Rg.UL_AGC_ATT_MAX
  let want := (r.att : Int) + (ovr + 2 ^ 19) / 2 ^ 20
  if !t.on Rg.UL_AGC_BYPASS_EN || r.pendBypass.isSome then t
  else if !r.bypass && decide ((top : Int) < want) then t.mapRx p fun r => { r with pendBypass := some (true, 2) }
  else if r.bypass && decide (2 * (want + bypassStep p) ≤ 2 * (top : Int) - s.f Rg.UL_AGC_DIST_HYST) then
    t.mapRx p fun r => { r with pendBypass := some (false, 2) }
  else t

theorem State.distance_within {s : State} {p : Nat} {ovr : Int} (h : ovr.natAbs ≤ 2 ^ 19 * s.f Rg.UL_AGC_DIST_HYST) :
    s.distance p ovr = s := if_pos h

theorem State.distance_beyond {s : State} {p : Nat} {ovr : Int} (h : 2 ^ 19 * s.f Rg.UL_AGC_DIST_HYST < ovr.natAbs) :
    s.distance p ovr = s.askBypass (s.setGain p (s.distanceAtt p ovr) (s.rx p).bypass) p ovr := if_neg (Nat.not_le_of_lt h)

theorem State.askBypass_cases (s t : State) (p : Nat) (ovr : Int) :
    s.askBypass t p ovr = t ∨ ∃ x, s.askBypass t p ovr = t.mapRx p fun r => { r with pendBypass := x } := by
  unfold State.askBypass
  dsimp only
  split
  · exact .inl rfl
  · split
    · exact .inr ⟨_, rfl⟩
    · split
      · exact .inr ⟨_, rfl⟩
      · exact .inl rfl

theorem gainWork_distance (s : State) (p : Nat) (ovr : Int) : GainWork p s (s.distance p ovr) := by
  obtain h | h := le_or_gt ovr.natAbs (2 ^ 19 * s.f Rg.UL_AGC_DIST_HYST)
  · rw [State.distance_within h]
    exact .refl p s
  · have hset := gainWork_setGain s p (s.distanceAtt p ovr) (s.rx p).bypass
    rw [State.distance_beyond h]
    obtain he | ⟨x, he⟩ := s.askBypass_cases (s.setGain p (s.distanceAtt p ovr) (s.rx p).bypass) p ovr
    · rwa [he]
    · rw [he]
      exact hset.trans (gainWork_pendBypass _ p x)

/-- Beyond the hysteresis the path's attenuation is the one the distance path moves to. -/
theorem State.distance_att {s : State} {p : Nat} {ovr : Int} (h : 2 ^ 19 * s.f Rg.UL_AGC_DIST_HYST < ovr.natAbs) :
    ((s.distance p ovr).rx p).att = s.distanceAtt p ovr := by
  obtain ⟨g, hg⟩ := s.setGain_rx p (s.distanceAtt p ovr) (s.rx p).bypass
  rw [State.distance_beyond h]
  obtain he | ⟨x, he⟩ := s.askBypass_cases (s.setGain p (s.distanceAtt p ovr) (s.rx p).bypass) p ovr
  · rw [he, hg]
  · rw [he, State.rx_mapRx_same, hg]

theorem State.f_lt (s : State) (x : Fld) (h : x.rst < 2 ^ x.w) : s.f x < 2 ^ x.w := by
  unfold State.f
  split
  · exact s.raw_lt x
  · exact h

/-- No power at all lies so far below the target that a whole upward step is taken off, or all the attenuation there is. -/
theorem State.distanceAtt_noPower {s : State} {p : Nat} (hnow : (s.rx p).sprintNow = false) (hlast : (s.rx p).sprintLast = false) :
    s.distanceAtt p (-(2 ^ 40)) = (s.rx p).att - s.f Rg.UL_AGC_DIST_UP := by
  have hup : s.f Rg.UL_AGC_DIST_UP < 2 ^ 4 := s.f_lt _ (by decide)
  simp only [State.distanceAtt, hnow, hlast, Bool.or_false, Bool.false_eq_true, if_false]
  split_ifs <;> omega

/-- After an interval without power and without sprint, the distance path takes one upward step off (R161). -/
theorem State.distance_noPower {s : State} {p : Nat} (henergy : (s.rx p).energy = 0) (hnow : (s.rx p).sprintNow = false)
    (hlast : (s.rx p).sprintLast = false) :
    ((s.distance p (s.aboveTarget (s.rx p))).rx p).att = (s.rx p).att - s.f Rg.UL_AGC_DIST_UP := by
  have hhyst : s.f Rg.UL_AGC_DIST_HYST < 2 ^ 4 := s.f_lt _ (by decide)
  have hfar : s.aboveTarget (s.rx p) = -(2 ^ 40) := if_pos henergy
  rw [hfar, State.distance_att (by omega), State.distanceAtt_noPower hnow hlast]

/-! ## The end of an interval (R160 to R164) -/

/-- Gain control's share of an interval's end whose last count is `last`: it acts while the estimators run. -/
def State.controlGain (s : State) (p last : Nat) : State :=
  if s.agcRuns p last then (s.bypassBoundary p).distance p (s.aboveTarget (s.rx p)) else s

/-- The interval's sprint record is closed, and its measurement begins anew. -/
def State.closeInterval (s : State) (p : Nat) : State :=
  let had := (s.rx p).sprintNow
  let s := s.mapRx p fun r =>
    { r with sprintLast := had, sprintNow := false, energy := 0, codes := 0
             sprintSyms := if had then inc32 r.sprintSyms 1 else r.sprintSyms }
  if had then s.bump (Rg.C_SPRINT_SYM (p / 32)) 1 else s

/-- The count before this one, the last of an interval that ends now. -/
def State.lastCount (s : State) : Nat := (s.time.count + Config.ticksPerCycle - 1) % Config.ticksPerCycle

theorem exec_agcIntervalEnd (p : PathNo) (run : AdcRun) (s : State) : exec (.agcIntervalEnd p run) s =
    .next (((s.feed p.val run).controlGain p.val s.lastCount).closeInterval p.val) := rfl

theorem gainWork_controlGain (s : State) (p last : Nat) : GainWork p s (s.controlGain p last) := by
  unfold State.controlGain
  split
  · exact (gainWork_bypassBoundary s p).trans (gainWork_distance _ _ _)
  · exact .refl p s

theorem State.closeInterval_rx (s : State) (p : Nat) : (s.closeInterval p).rx p =
    { s.rx p with sprintLast := (s.rx p).sprintNow, sprintNow := false, energy := 0, codes := 0,
                  sprintSyms := if (s.rx p).sprintNow then inc32 (s.rx p).sprintSyms 1 else (s.rx p).sprintSyms } := by
  unfold State.closeInterval
  dsimp only
  rw [apply_ite (State.rx · p), State.bump_rx, ite_self, State.rx_mapRx_same]

theorem only_closeInterval (s : State) (p : Nat) :
    Only [.receive] [(Rg.C_SPRINT_SYM (p / 32)).off] s (s.closeInterval p) := by
  have hclosed (f : RxPath → RxPath) : Only [.receive] [(Rg.C_SPRINT_SYM (p / 32)).off] s (s.mapRx p f) :=
    (only_mapRx s p f).mono (List.Subset.refl _) (List.nil_subset _)
  exact Only.ite _ (fun _ => (hclosed _).trans ((only_bump _ _ _).mono (List.nil_subset _) (List.Subset.refl _)))
    (fun _ => hclosed _)

/-- With gain control off the estimators do not run, whatever the slice has counted. -/
theorem FeedWork.agcRuns_off {p : Nat} {s t : State} (w : FeedWork p s t) (h : s.on Rg.UL_AGC_AGC_EN = false) (last : Nat) :
    t.agcRuns p last = false := by
  have hon : t.on Rg.UL_AGC_AGC_EN = s.on Rg.UL_AGC_AGC_EN :=
    State.on_of_raw (w.only.2.raw _ (by simp only [Rg.UL_AGC_AGC_EN, Rg.C_FILT_SAT, List.mem_singleton]; omega))
  simp [State.agcRuns, hon, h]

theorem agcIntervalEnd_closes (p : PathNo) (run : AdcRun) (s : State) : Runs (.agcIntervalEnd p run) s fun t =>
    (t.rx p.val).sprintNow = false ∧ (t.rx p.val).sprintLast = (s.rx p.val).sprintNow ∧
    (t.rx p.val).energy = 0 ∧ (t.rx p.val).codes = 0 ∧
    (s.on Rg.UL_AGC_AGC_EN = false → (t.rx p.val).att = (s.rx p.val).att ∧ (t.rx p.val).bypass = (s.rx p.val).bypass ∧
      (t.rx p.val).pendBypass = (s.rx p.val).pendBypass) ∧
    (s.agcRuns p.val s.lastCount = true → run.codes = [] →
      (s.rx p.val).energy = 0 → (s.rx p.val).pendBypass = none → (s.rx p.val).sprintNow = false →
      (s.rx p.val).sprintLast = false → (t.rx p.val).att = (s.rx p.val).att - s.f Rg.UL_AGC_DIST_UP) ∧
    Only [.receive, .uplink] [(Rg.C_SPRINT_SYM (p.val / 32)).off, (Rg.C_FILT_SAT (p.val / 32)).off] s t := by
  have hfeed := feedWork_feed s p.val run
  have hctl := gainWork_controlGain (s.feed p.val run) p.val s.lastCount
  have hclose := only_closeInterval ((s.feed p.val run).controlGain p.val s.lastCount) p.val
  obtain ⟨hatt, hbyp, hpend, hnow⟩ : _ ∧ _ ∧ _ ∧ _ := by simpa [RxPath.gainControl] using hfeed.gain
  refine ⟨_, exec_agcIntervalEnd p run s, ?_⟩
  beta_reduce
  rw [State.closeInterval_rx]
  refine ⟨rfl, hctl.sprintNow.trans hnow, rfl, rfl, fun hoff => ?_, fun hruns hcodes henergy hpend0 hnow0 hlast0 => ?_, ?_⟩
  · have hheld : (s.feed p.val run).controlGain p.val s.lastCount = s.feed p.val run :=
      if_neg (by simp [hfeed.agcRuns_off hoff])
    rw [hheld]
    exact ⟨hatt, hbyp, hpend⟩
  · rw [State.feed_nil hcodes, State.controlGain, if_pos hruns, State.bypassBoundary_none hpend0]
    exact State.distance_noPower henergy hnow0 hlast0
  · exact ((hfeed.only.mono (List.Subset.refl _) (by simp)).trans
      (hctl.only.mono (by decide) (List.nil_subset _))).trans (hclose.mono (by decide) (by simp))

/-! ## Filter banks (R167) -/

theorem only_mapFilt (s : State) (c : Nat) (f : FiltSt → FiltSt) : Only [.uplink] [] s (s.mapFilt c f) :=
  ⟨fun p hp => by cases p <;> simp [Part.Same, State.mapFilt] at hp ⊢, fun _ _ => rfl⟩

@[simp] theorem State.filtOf_mapFilt_same (s : State) (c : Nat) (f : FiltSt → FiltSt) :
    (s.mapFilt c f).filtOf c = f (s.filtOf c) := tget_tset_same _ _ _ _

theorem exec_filterSwapTick_reached {c : CarrierNo} {k : Nat} {s : State} (hat : (s.filtOf c.val).swapAt = some k)
    (hk : s.reached k = true) : exec (.filterSwapTick c) s = .next (s.mapFilt c.val fun f =>
      { f with bankB := !f.bankB, swapAt := none, swaps := (s.tickOf k :: f.swaps).take 8 }) := by
  change execFilterSwapTick c s = _
  simp [execFilterSwapTick, hat, hk]

theorem filterSwapTick_swaps {c : CarrierNo} {k : Nat} {s : State} (hat : (s.filtOf c.val).swapAt = some k)
    (hk : s.reached k = true) : Runs (.filterSwapTick c) s fun t =>
      (t.filtOf c.val).bankB = !(s.filtOf c.val).bankB ∧ (t.filtOf c.val).swapAt = none ∧
      (t.filtOf c.val).swaps.head? = some (s.tickOf k) ∧ Only [.uplink] [] s t := by
  refine ⟨_, exec_filterSwapTick_reached hat hk, ?_⟩
  beta_reduce
  rw [State.filtOf_mapFilt_same]
  exact ⟨rfl, rfl, rfl, only_mapFilt _ _ _⟩

/-- Settles O14: clause by clause, from the exchange and calibration of a slice, the onset and the sprint step, an interval's end as
slice, gain control and closing in turn, and the swap of the filter banks. -/
theorem receiveConverters : Obligations.ReceiveConverters := by
  unfold Obligations.ReceiveConverters
  refine ⟨fun v inSpan s hrot => ⟨adcSliceRotate_exchanges hrot, adcSliceRotate_waits hrot,
      fun _ hdue hlate => adcRotateForce_exchanges hrot hdue hlate⟩,
    fun v corr s => ⟨adcSliceCalDone_passes, adcSliceCalDone_firstFailure⟩,
    fun p i q s => ⟨adcOverrange_inRange, adcOverrange_onset⟩,
    fun p s hovr hen hruns hatt => sprintStep_adds hovr ⟨hen, hruns, hatt⟩,
    agcIntervalEnd_closes, fun c k s => filterSwapTick_swaps⟩

end Sys2Proof.Machine
end

section
/-! SUPPORT. The banks of a predistorter (R213 to R216, R231, R483): what each move of a path leaves in the bank in service and in the
other, and what a change of a path's predistortion leaves of the state. -/

namespace Sys2Proof.Machine

/-! ## A path's predistortion -/

theorem State.dpdOf_mapDpd (s : State) (p q : Nat) (f : DpdPath → DpdPath) :
    (s.mapDpd p f).dpdOf q = if p = q then f (s.dpdOf p) else s.dpdOf q := tget_tset _ _ _ _ _

@[simp] theorem State.dpdOf_mapDpd_same (s : State) (p : Nat) (f : DpdPath → DpdPath) :
    (s.mapDpd p f).dpdOf p = f (s.dpdOf p) := tget_tset_same _ _ _ _

theorem State.dpdOf_congr {s t : State} (h : t.dpd = s.dpd) (p : Nat) : t.dpdOf p = s.dpdOf p := by rw [State.dpdOf, h, State.dpdOf]

/-- What leaves the predistortion part alone leaves every path's predistortion. -/
theorem Only.dpdOf {l : List Part} {m : List Nat} {s t : State} (h : Only l m s t) (hl : Part.dpd ∉ l) (p : Nat) :
    t.dpdOf p = s.dpdOf p := State.dpdOf_congr (h.1 .dpd hl).1 p

/-! ## The bank in service and the other -/

section
variable (d : DpdPath) (x : DpdBank)

@[simp] theorem DpdPath.setServing_serving : (d.setServing x).serving = x := by
  by_cases h : d.bServes = true <;> simp [DpdPath.serving, DpdPath.setServing, h]

@[simp] theorem DpdPath.setServing_idle : (d.setServing x).idle = d.idle := by
  by_cases h : d.bServes = true <;> simp [DpdPath.idle, DpdPath.setServing, h]

@[simp] theorem DpdPath.setIdle_serving : (d.setIdle x).serving = d.serving := by
  by_cases h : d.bServes = true <;> simp [DpdPath.serving, DpdPath.setIdle, h]

@[simp] theorem DpdPath.setIdle_idle : (d.setIdle x).idle = x := by
  by_cases h : d.bServes = true <;> simp [DpdPath.idle, DpdPath.setIdle, h]

/-- Setting the bank in service changes the two banks alone. -/
theorem DpdPath.setServing_eq : ∃ a b, d.setServing x = { d with a := a, b := b } := by
  unfold DpdPath.setServing
  split
  · exact ⟨d.a, x, rfl⟩
  · exact ⟨x, d.b, rfl⟩

theorem DpdPath.setIdle_eq : ∃ a b, d.setIdle x = { d with a := a, b := b } := by
  unfold DpdPath.setIdle
  split
  · exact ⟨x, d.b, rfl⟩
  · exact ⟨d.a, x, rfl⟩

end

/-! ## Moves of the banks (Table 59) -/

/-- What the old and the new bank become when a PENDING bank goes into service as TRIAL. -/
theorem DpdPath.swapIn_trial {d : DpdPath} (h : d.direct = false) (k : Nat) :
    (d.swapIn k).serving = { d.idle with at_ := k, state := 2 } ∧ (d.swapIn k).idle = { d.serving with state := 4 } ∧
    (d.swapIn k).swapAt = none ∧ (d.swapIn k).rec_ = d.rec_ ∧ (d.swapIn k).bServes = !d.bServes := by
  cases hb : d.bServes <;>
    simp [DpdPath.swapIn, DpdPath.serving, DpdPath.idle, DpdPath.setServing, DpdPath.setIdle, h, hb]

theorem DpdPath.drop_trial {d : DpdPath} (h2 : d.serving.state = 2) (h4 : d.idle.state = 4) :
    d.drop.serving = { d.idle with state := 3 } ∧ d.drop.idle = { d.serving with state := 0 } ∧ d.drop.revertAt = none := by
  cases hb : d.bServes <;> simp only [DpdPath.serving, DpdPath.idle, hb, if_true, if_false, Bool.false_eq_true] at h2 h4 <;>
    simp [DpdPath.drop, DpdPath.serving, DpdPath.idle, DpdPath.setServing, hb, h2, h4]

/-- No bank of the path waits for a boundary, and no record (R483). -/
noncomputable def DpdPath.reverted (d : DpdPath) : DpdPath :=
  { d with swapAt := none, revertAt := none, dropDue := false, estimating := false, record := none }

/-- Stage 4 of the path passes its input from the next interval on (R483). -/
noncomputable def DpdPath.identified (d : DpdPath) : DpdPath := { d with ident := true }

theorem DpdPath.identified_serving (d : DpdPath) : d.identified.serving = d.serving := rfl

theorem DpdPath.identified_idle (d : DpdPath) : d.identified.idle = d.idle := rfl

theorem DpdPath.lose_eq (d : DpdPath) (khz : Nat) :
    d.lose khz = ((d.reverted.setServing { d.serving with state := 0 }).loadSeed khz).identified := rfl

/-- A seed waits for the first transmit interval to come (R234). -/
noncomputable def DpdPath.seeded (d : DpdPath) : DpdPath := { d with direct := true, seedWait := true, swapAt := none }

theorem DpdPath.seeded_serving (d : DpdPath) : d.seeded.serving = d.serving := rfl

theorem DpdPath.seeded_idle (d : DpdPath) : d.seeded.idle = d.idle := rfl

theorem DpdPath.loadSeed_eq (d : DpdPath) (khz : Nat) : d.loadSeed khz =
    (d.setIdle { DpdBank.reset 1 with coef := clip d.rec_ (d.seedFor khz), seed := true, loKhz := khz }).seeded := rfl

theorem DpdPath.lose_spec (d : DpdPath) (khz : Nat) :
    (d.lose khz).ident = true ∧ (d.lose khz).serving = { d.serving with state := 0 } ∧
    (d.lose khz).idle = { DpdBank.reset 1 with coef := clip d.rec_ (d.seedFor khz), seed := true, loKhz := khz } := by
  obtain ⟨a, b, hset⟩ := d.reverted.setServing_eq { d.serving with state := 0 }
  rw [DpdPath.lose_eq, DpdPath.identified_serving, DpdPath.identified_idle, DpdPath.loadSeed_eq, DpdPath.seeded_serving,
    DpdPath.seeded_idle, DpdPath.setIdle_serving, DpdPath.setIdle_idle, DpdPath.setServing_serving, hset]
  exact ⟨rfl, rfl, rfl⟩

/-- A bank of the path has moved at a tick (R223). -/
noncomputable def DpdPath.movedAt (d : DpdPath) (now : Nat) : DpdPath := { d with moved := some now }

theorem DpdPath.movedAt_serving (d : DpdPath) (now : Nat) : (d.movedAt now).serving = d.serving := rfl

theorem DpdPath.movedAt_idle (d : DpdPath) (now : Nat) : (d.movedAt now).idle = d.idle := rfl

theorem DpdPath.movedAt_swapAt (d : DpdPath) (now : Nat) : (d.movedAt now).swapAt = d.swapAt := rfl

theorem DpdPath.movedAt_revertAt (d : DpdPath) (now : Nat) : (d.movedAt now).revertAt = d.revertAt := rfl

/-- A structure change copies the bank in service, clipped, into the other (R213). -/
noncomputable def DpdPath.restructured (d : DpdPath) (r : DpdRec) (at_ : Nat) : DpdPath :=
  { d.setIdle { d.serving with state := 1, coef := clip r d.serving.coef } with
    swapAt := some at_, direct := true, seedWait := false }


/-- A path whose record has been used: no reverts since a good one (R231). -/
noncomputable def DpdPath.verified (d : DpdPath) (al : Int × Cplx) : DpdPath := { d with reverts := 0, record := none, align := al }

theorem DpdPath.verified_serving (d : DpdPath) (al : Int × Cplx) : (d.verified al).serving = d.serving := rfl

theorem DpdPath.verified_idle (d : DpdPath) (al : Int × Cplx) : (d.verified al).idle = d.idle := rfl

theorem DpdPath.keepSeed_serving (d : DpdPath) (b : DpdBank) : (d.keepSeed b).serving = d.serving := rfl

theorem DpdPath.keepSeed_idle (d : DpdPath) (b : DpdBank) : (d.keepSeed b).idle = d.idle := rfl

/-- A TRIAL bank that passes its verification: COMMITTED, a seed of its LO frequency, the other FREE (R231). -/
noncomputable def DpdPath.confirmed (d : DpdPath) (khz : Nat) (al : Int × Cplx) : DpdPath :=
  (((d.setServing { d.serving with state := 3, loKhz := khz }).setIdle { d.idle with state := 0 }).keepSeed
    { d.serving with state := 3, loKhz := khz }).verified al

theorem DpdPath.confirmed_serving (d : DpdPath) (khz : Nat) (al : Int × Cplx) :
    (d.confirmed khz al).serving = { d.serving with state := 3, loKhz := khz } := by
  rw [DpdPath.confirmed, DpdPath.verified_serving, DpdPath.keepSeed_serving, DpdPath.setIdle_serving, DpdPath.setServing_serving]

theorem DpdPath.confirmed_idle (d : DpdPath) (khz : Nat) (al : Int × Cplx) :
    (d.confirmed khz al).idle = { d.idle with state := 0 } := by
  rw [DpdPath.confirmed, DpdPath.verified_idle, DpdPath.keepSeed_idle, DpdPath.setIdle_idle]

/-! ## What each command does -/

section
variable {p : PathNo} {s : State}

theorem exec_dpdRestructure_copies {r : DpdRec} (hr : (s.dpdOf p.val).struct_ = some r) (h3 : (s.dpdOf p.val).serving.state = 3)
    (h0 : (s.dpdOf p.val).idle.state = 0) :
    exec (.dpdRestructure p) s = .next (s.mapDpd p.val fun d => d.restructured r (s.nextSwap 0)) := by
  change execDpdRestructure p s = _
  simp only [execDpdRestructure, hr, h3, h0, and_self, if_true, DpdPath.restructured]

theorem dpdRestructure_copies {r : DpdRec} (hr : (s.dpdOf p.val).struct_ = some r) (h3 : (s.dpdOf p.val).serving.state = 3)
    (h0 : (s.dpdOf p.val).idle.state = 0) : Runs (.dpdRestructure p) s fun t =>
      (t.dpdOf p.val).serving = (s.dpdOf p.val).serving ∧ (t.dpdOf p.val).idle.state = 1 ∧
      (t.dpdOf p.val).idle.coef = clip r (s.dpdOf p.val).serving.coef ∧
      (t.dpdOf p.val).swapAt = some (s.nextSwap 0) ∧ Only [.dpd] [] s t := by
  refine ⟨_, exec_dpdRestructure_copies hr h3 h0, ?_⟩
  beta_reduce
  rw [State.dpdOf_mapDpd_same]
  have hidle : ((s.dpdOf p.val).restructured r (s.nextSwap 0)).idle =
      { (s.dpdOf p.val).serving with state := 1, coef := clip r (s.dpdOf p.val).serving.coef } := DpdPath.setIdle_idle _ _
  rw [hidle]
  exact ⟨DpdPath.setIdle_serving _ _, rfl, rfl, rfl, only_mapDpd _ _ _⟩

/-- No neighbour, no skew to judge (R210). -/
theorem State.evalSkew_alone {q : Nat} (h : ∀ e ∈ (s.dpdOf q).rec_.neigh, e = none) : s.evalSkew q = s := by
  unfold State.evalSkew
  refine List.foldlRecOn (motive := fun t => t = s) _ _ rfl fun t ht e he => ?_
  obtain ⟨n, j⟩ := e
  obtain rfl := h n (List.fst_mem_of_mem_zipIdx he)
  exact ht

/-- Without a record that waits, its soft part changes nothing (R213). -/
theorem DpdPath.applySoft_none {d : DpdPath} (h : d.soft = none) : d.applySoft = d := by simp [DpdPath.applySoft, h]

theorem State.mapDpd_self {q : Nat} {f : DpdPath → DpdPath} (h : f (s.dpdOf q) = s.dpdOf q) (k : Nat) :
    (s.mapDpd q f).dpdOf k = s.dpdOf k := by
  rw [State.dpdOf_mapDpd, h]
  split
  next hk => rw [hk]
  next => rfl

/-- The state at a swap boundary once a PENDING bank is in service as TRIAL. -/
noncomputable def State.swapTrial (s : State) (p : Nat) : State :=
  ((s.mapDpd p DpdPath.applySoft).mapDpd p fun d => d.swapIn (atimeWord s.stamp)).dpdMoved p

theorem exec_dpdSwap_trial {c : Nat} (h1 : (s.dpdOf p.val).idle.state = 1) (hat : (s.dpdOf p.val).swapAt = some c)
    (hc : s.reached c = true) (hseed : (s.dpdOf p.val).seedWait = false) (hdir : (s.dpdOf p.val).direct = false)
    (hdrop : (s.dpdOf p.val).dropDue = false) (hsoft : (s.dpdOf p.val).soft = none) :
    exec (.dpdSwap p) s = .next ((s.swapTrial p.val).evalSkew p.val) := by
  change execDpdSwap p s = _
  have hsame : (s.mapDpd p.val DpdPath.applySoft).dpdOf p.val = s.dpdOf p.val :=
    State.mapDpd_self (DpdPath.applySoft_none hsoft) _
  have hflip : ((s.dpdOf p.val).swapIn (atimeWord s.stamp)).bServes ≠ (s.dpdOf p.val).bServes := by
    obtain ⟨-, -, -, -, hb⟩ := DpdPath.swapIn_trial hdir (atimeWord s.stamp)
    rw [hb]
    exact Bool.not_ne_self _
  have hre : (s.mapDpd p.val DpdPath.applySoft).reached c = true := hc
  simp only [execDpdSwap, hdrop, Bool.false_eq_true, if_false, hsame, hat, hre, h1, hseed, hdir, Bool.not_false, and_self, if_true,
    State.dpdOf_mapDpd_same]
  rw [if_neg]
  · rfl
  · exact hflip

theorem State.dpdMoved_dpdOf (s : State) (q : Nat) : (s.dpdMoved q).dpdOf q = (s.dpdOf q).movedAt s.time.now :=
  State.dpdOf_mapDpd_same _ _ _

theorem only_dpdMoved (s : State) (q : Nat) : Only [.dpd] [] s (s.dpdMoved q) := by
  unfold State.dpdMoved
  exact only_mapDpd _ _ _

theorem only_swapTrial (s : State) (q : Nat) : Only [.dpd] [] s (s.swapTrial q) :=
  ((only_mapDpd _ _ _).trans (only_mapDpd _ _ _)).trans (only_dpdMoved _ _)

theorem State.swapTrial_dpdOf {q : Nat} (hsoft : (s.dpdOf q).soft = none) :
    (s.swapTrial q).dpdOf q = ((s.dpdOf q).swapIn (atimeWord s.stamp)).movedAt s.time.now := by
  rw [State.swapTrial, State.dpdMoved_dpdOf, State.dpdOf_mapDpd_same, State.dpdOf_mapDpd_same, DpdPath.applySoft_none hsoft]
  rfl

theorem dpdSwap_trial {c : Nat} (h1 : (s.dpdOf p.val).idle.state = 1) (hat : (s.dpdOf p.val).swapAt = some c)
    (hc : s.reached c = true) (hseed : (s.dpdOf p.val).seedWait = false) (hdir : (s.dpdOf p.val).direct = false)
    (hdrop : (s.dpdOf p.val).dropDue = false) (hsoft : (s.dpdOf p.val).soft = none)
    (hneigh : ∀ q ∈ (s.dpdOf p.val).rec_.neigh, q = none) : Runs (.dpdSwap p) s fun t =>
      (t.dpdOf p.val).serving.state = 2 ∧ (t.dpdOf p.val).serving.coef = (s.dpdOf p.val).idle.coef ∧
      (t.dpdOf p.val).idle.state = 4 ∧ (t.dpdOf p.val).idle.coef = (s.dpdOf p.val).serving.coef ∧
      (t.dpdOf p.val).swapAt = none ∧ (t.dpdOf p.val).moved = some s.time.now ∧ Only [.dpd] [] s t := by
  obtain ⟨hserving, hidle, hswap, hrec, -⟩ := DpdPath.swapIn_trial hdir (atimeWord s.stamp)
  have hpath := State.swapTrial_dpdOf hsoft
  have halone : (s.swapTrial p.val).evalSkew p.val = s.swapTrial p.val := State.evalSkew_alone (by
    rw [hpath]
    exact hrec ▸ hneigh)
  refine ⟨_, exec_dpdSwap_trial h1 hat hc hseed hdir hdrop hsoft, ?_⟩
  beta_reduce
  rw [halone, hpath, DpdPath.movedAt_serving, DpdPath.movedAt_idle, DpdPath.movedAt_swapAt, hserving, hidle]
  exact ⟨rfl, rfl, rfl, rfl, hswap, rfl, only_swapTrial _ _⟩

/-! ## Verification (R231, R232) -/

theorem exec_dpdVerify_commits {align : List Byte} {k : DpdRecord} (h2 : (s.dpdOf p.val).serving.state = 2)
    (hno : (s.dpdOf p.val).revertAt = none) (hk : (s.dpdOf p.val).record = some k)
    (hrho : residualDb (s.dpdOf p.val).serving.coef (alignOf align) k * 10 ≤
      (s.dpdOf p.val).serving.rho * 10 + 256 * (s.f Rg.DPD_CFG2_VERIFY : Int)) :
    exec (.dpdVerify p align) s = .next (s.mapDpd p.val fun _ =>
      (s.dpdOf p.val).confirmed (s.loKhz (p.val / 8)) (alignOf align)) := by
  change execDpdVerify p align s = _
  simp only [execDpdVerify, hk, h2, hno, if_pos hrho, ne_eq, not_true_eq_false, Option.isSome_none, Bool.false_eq_true, or_self,
    if_false]
  rfl

theorem dpdVerify_commits {align : List Byte} {k : DpdRecord} (h2 : (s.dpdOf p.val).serving.state = 2)
    (hno : (s.dpdOf p.val).revertAt = none) (hk : (s.dpdOf p.val).record = some k)
    (hrho : residualDb (s.dpdOf p.val).serving.coef (alignOf align) k * 10 ≤
      (s.dpdOf p.val).serving.rho * 10 + 256 * (s.f Rg.DPD_CFG2_VERIFY : Int)) : Runs (.dpdVerify p align) s fun t =>
        (t.dpdOf p.val).serving.state = 3 ∧ (t.dpdOf p.val).serving.coef = (s.dpdOf p.val).serving.coef ∧
        (t.dpdOf p.val).idle.state = 0 ∧ (t.dpdOf p.val).reverts = 0 ∧ (t.dpdOf p.val).record = none ∧
        (t.dpdOf p.val).align = alignOf align ∧ Only [.dpd] [] s t := by
  refine ⟨_, exec_dpdVerify_commits h2 hno hk hrho, ?_⟩
  beta_reduce
  rw [State.dpdOf_mapDpd_same, DpdPath.confirmed_serving, DpdPath.confirmed_idle]
  exact ⟨rfl, rfl, rfl, rfl, rfl, rfl, only_mapDpd _ _ _⟩

/-- A path goes to revert: when, by which alignment; its record is used up (R231). -/
noncomputable def DpdPath.reverting (d : DpdPath) (at_ : Nat) (al : Int × Cplx) : DpdPath :=
  { d with revertAt := some at_, record := none, align := al }

theorem exec_dpdVerify_reverts {align : List Byte} {k : DpdRecord} (h2 : (s.dpdOf p.val).serving.state = 2)
    (hno : (s.dpdOf p.val).revertAt = none) (hk : (s.dpdOf p.val).record = some k)
    (hrho : (s.dpdOf p.val).serving.rho * 10 + 256 * (s.f Rg.DPD_CFG2_VERIFY : Int) <
      residualDb (s.dpdOf p.val).serving.coef (alignOf align) k * 10) :
    ∃ dist rhoC rhoM, exec (.dpdVerify p align) s = .next ((s.mapDpd p.val fun d =>
      d.reverting (s.nextBlank 20) (alignOf align)).dpdRevert p.val 4 dist rhoC rhoM) := by
  change ∃ dist rhoC rhoM, execDpdVerify p align s = _
  simp only [execDpdVerify, hk, h2, hno, if_neg (not_le.mpr hrho), ne_eq, not_true_eq_false, Option.isSome_none,
    Bool.false_eq_true, or_self, if_false]
  exact ⟨_, _, _, rfl⟩

theorem DpdPath.reverting_serving (d : DpdPath) (at_ : Nat) (al : Int × Cplx) : (d.reverting at_ al).serving = d.serving := rfl

/-- A revert counts in the path and ends its estimate; it may halt the path's estimation (R232). -/
noncomputable def DpdPath.revertCounted (d : DpdPath) (halt : Bool) : DpdPath :=
  { d with reverts := d.reverts + 1, estimating := false, halted := halt }

theorem DpdPath.revertCounted_serving (d : DpdPath) (halt : Bool) : (d.revertCounted halt).serving = d.serving := rfl

theorem State.dpdRevert_dpdOf (s : State) (q reason : Nat) (dist rhoC rhoM : Int) :
    ∃ b, (s.dpdRevert q reason dist rhoC rhoM).dpdOf q = (s.dpdOf q).revertCounted b := by
  have hraise (t : State) (h c b : Nat) (l : List Nat) : (t.raise h c b l).dpdOf q = t.dpdOf q :=
    (only_raise t h c b l).dpdOf (by decide) q
  have hbump (t : State) (x : Fld) : (t.bump x 1).dpdOf q = t.dpdOf q := rfl
  unfold State.dpdRevert
  extract_lets h t u v n
  have hv : v.dpdOf q = (s.dpdOf q).revertCounted (s.dpdOf q).halted := by
    rw [State.dpdOf_mapDpd_same, hraise, hbump, DpdPath.revertCounted]
  clear_value v
  split
  · refine ⟨true, ?_⟩
    rw [hraise, hbump, State.dpdOf_mapDpd_same, hv, DpdPath.revertCounted, DpdPath.revertCounted]
  · exact ⟨_, hv⟩

theorem dpdVerify_reverts {align : List Byte} {k : DpdRecord} (h2 : (s.dpdOf p.val).serving.state = 2)
    (hno : (s.dpdOf p.val).revertAt = none) (hk : (s.dpdOf p.val).record = some k)
    (hrho : (s.dpdOf p.val).serving.rho * 10 + 256 * (s.f Rg.DPD_CFG2_VERIFY : Int) <
      residualDb (s.dpdOf p.val).serving.coef (alignOf align) k * 10) : Runs (.dpdVerify p align) s fun t =>
        (t.dpdOf p.val).revertAt = some (s.nextBlank 20) ∧ (t.dpdOf p.val).serving.state = 2 ∧
        (t.dpdOf p.val).reverts = (s.dpdOf p.val).reverts + 1 := by
  obtain ⟨dist, rhoC, rhoM, hexec⟩ := exec_dpdVerify_reverts h2 hno hk hrho
  refine ⟨_, hexec, ?_⟩
  obtain ⟨b, hb⟩ := State.dpdRevert_dpdOf (s.mapDpd p.val fun d => d.reverting (s.nextBlank 20) (alignOf align)) p.val 4 dist rhoC rhoM
  rw [hb, State.dpdOf_mapDpd_same, DpdPath.revertCounted_serving, DpdPath.reverting_serving]
  exact ⟨rfl, h2, rfl⟩

/-- At the revert instant the TRIAL bank drops (R216, R231). -/
theorem dpdRevertSwap_falls_back {c : Nat} (hat : (s.dpdOf p.val).revertAt = some c) (hc : s.reached c = true)
    (h2 : (s.dpdOf p.val).serving.state = 2) (h4 : (s.dpdOf p.val).idle.state = 4) : Runs (.dpdRevertSwap p) s fun t =>
      (t.dpdOf p.val).serving.state = 3 ∧ (t.dpdOf p.val).serving.coef = (s.dpdOf p.val).idle.coef ∧
      (t.dpdOf p.val).idle.state = 0 ∧ (t.dpdOf p.val).revertAt = none ∧ (t.dpdOf p.val).moved = some s.time.now ∧
      Only [.dpd] [] s t := by
  have hexec : exec (.dpdRevertSwap p) s = .next ((s.mapDpd p.val DpdPath.drop).dpdMoved p.val) := by
    change execDpdRevertSwap p s = _
    simp only [execDpdRevertSwap, hat, hc, if_true]
  obtain ⟨hserving, hidle, hrevert⟩ := DpdPath.drop_trial h2 h4
  have hpath : ((s.mapDpd p.val DpdPath.drop).dpdMoved p.val).dpdOf p.val =
      (s.dpdOf p.val).drop.movedAt s.time.now := by
    rw [State.dpdMoved_dpdOf, State.dpdOf_mapDpd_same]
    rfl
  refine ⟨_, hexec, ?_⟩
  beta_reduce
  rw [hpath, DpdPath.movedAt_serving, DpdPath.movedAt_idle, DpdPath.movedAt_revertAt, hserving, hidle]
  exact ⟨rfl, rfl, rfl, hrevert, rfl, (only_mapDpd _ _ _).trans (only_dpdMoved _ _)⟩

theorem cfrPulseSwap_replaces {x : List Cplx} (hx : (s.dpdOf p.val).newPulse = some x) : Runs (.cfrPulseSwap p) s fun t =>
    (t.dpdOf p.val).pulse = x ∧ (t.dpdOf p.val).newPulse = none ∧ Only [.dpd] [] s t := by
  refine ⟨_, rfl, ?_⟩
  beta_reduce
  rw [State.dpdOf_mapDpd_same, hx]
  exact ⟨rfl, rfl, only_mapDpd _ _ _⟩

/-! ## A parity error of the bank in service (R483) -/

theorem only_bankFault (s : State) (q next : Nat) : Only [.dpd] [] s (s.bankFault q next) := by
  unfold State.bankFault
  exact only_mapDpd _ _ _

theorem State.bankFault_dpdOf (s : State) (q next : Nat) : (s.bankFault q next).dpdOf q =
    ((s.dpdOf q).lose (s.loKhz (q / 8))).movedAt (s.tickOf next).toNat := State.dpdOf_mapDpd_same _ _ _

/-- A field that lies elsewhere reads the same behind the saturation counters. -/
theorem State.dlSats_raw (s : State) (h bf ifft sum miss clip : Nat) {x : Fld} (hx : x.off ∉ dlSatRegs h) :
    (s.dlSats h bf ifft sum miss clip).raw x = s.raw x := (dlWork_dlSats s h bf ifft sum miss clip).only.2.raw x hx

theorem loStat_not_mem_dlSatRegs : ∀ h < 2, ∀ n < 10, (Rg.LO_STAT_SERVING n).off ∉ dlSatRegs h := by decide

/-- The synthesiser of a group goes by the registers of the ten units. -/
theorem State.loOf_congr {s t : State} (h : ∀ n < 10, t.reg (Rg.LO_STAT_SERVING n).off = s.reg (Rg.LO_STAT_SERVING n).off)
    (g : Nat) : t.loOf g = s.loOf g := by
  refine List.find?_congr fun n hn => ?_
  have hreg := h n (List.mem_range.mp hn)
  rw [State.on_of_raw (State.raw_of_reg (x := Rg.LO_STAT_SERVING n) hreg), State.raw_of_reg (x := Rg.LO_STAT_GROUP n) hreg]

/-- The LO frequency of a group goes by those registers, the groups, the hop tables and what is in its safe state. -/
theorem Only.loKhz {l : List Part} {m : List Nat} {s t : State} (h : Only l m s t) (hm : ∀ n < 10, (Rg.LO_STAT_SERVING n).off ∉ m)
    (hgroups : Part.groups ∉ l := by decide) (hsynth : Part.synth ∉ l := by decide) (hfaults : Part.faults ∉ l := by decide)
    (g : Nat) : t.loKhz g = s.loKhz g := by
  have hgrp : t.grp = s.grp := h.1 .groups hgroups
  have hhops : t.hops = s.hops := (h.1 .synth hsynth).1
  have hrel : t.rel = s.rel := h.1 .faults hfaults
  rw [State.loKhz, State.loOf_congr fun n hn => h.2 _ (hm n hn)]
  simp only [State.group, State.hop, State.isSafe, hgrp, hhops, hrel]
  rfl

/-- The application of predistortion on a path goes by DPD_EN, the path's record and what is in its safe state. -/
theorem Only.dpdOn {l : List Part} {m : List Nat} {s t : State} (h : Only l m s t) (hm : Rg.DPD_CFG_DPD_EN.off ∉ m)
    (hdpd : Part.dpd ∉ l := by decide) (hfaults : Part.faults ∉ l := by decide) (p : Nat) : t.dpdOn p = s.dpdOn p := by
  have hrel : t.rel = s.rel := h.1 .faults hfaults
  simp only [State.dpdOn, State.on_of_raw (h.2.raw _ hm), h.dpdOf hdpd, State.isSafe, hrel]

/-- What a parity error of the bank in service leaves at the release of an interval: the slice still works on this one (R146,
R483). -/
theorem exec_symbolRelease_bankFault {sym : Nat} (hs : s.Releases p.val sym)
    (hl : (s.buffered p.val sym (s.intervalLen sym)).isSome = true) (hon : s.dpdOn p.val = true)
    (hid : (s.dpdOf p.val).ident = false) :
    ∃ (u : State) (dac : List Cplx) (f : TxPath → TxPath), Only [.downlink] (dlSatRegs (p.val / 32)) s u ∧
      exec (.symbolRelease p sym false [] true) s =
        .next (((u.bankFault p.val (sym + s.intervalLen sym)).mapTx p.val f).consume p.val sym (s.intervalLen sym)) ∧
      ∀ t, (f t).next = some ⟨sym, true, dac⟩ := by
  obtain ⟨l, hl⟩ := Option.isSome_iff_exists.mp hl
  have hh : p.val / 32 < 2 := by omega
  have hen : ∀ h < 2, Rg.DPD_CFG_DPD_EN.off ∉ dlSatRegs h := by decide
  have sats (miss clip : Nat) := (dlWork_dlSats s (p.val / 32) 0 0 0 miss clip).only
  have faulty (miss clip : Nat) : (s.dlSats (p.val / 32) 0 0 0 miss clip).dpdOn p.val = true ∧
      (!((s.dlSats (p.val / 32) 0 0 0 miss clip).dpdOf p.val).ident) = true := by
    rw [(sats miss clip).dpdOn (hen _ hh), (sats miss clip).dpdOf (by decide), hon, hid]
    exact ⟨rfl, rfl⟩
  change ∃ u dac f, _ ∧ execSymbolRelease p sym false [] true s = _ ∧ _
  simp only [execSymbolRelease, if_neg hs.not_idle, hl, List.foldl_nil, Bool.false_eq_true, if_false, faulty, true_and, if_true]
  exact ⟨_, _, _, sats _ _, rfl, fun t => rfl⟩

theorem symbolRelease_bankFault {sym : Nat} (hs : s.Releases p.val sym)
    (hl : (s.buffered p.val sym (s.intervalLen sym)).isSome = true) (hon : s.dpdOn p.val = true)
    (hid : (s.dpdOf p.val).ident = false) : Runs (.symbolRelease p sym false [] true) s fun t =>
      (t.dpdOf p.val).ident = true ∧ (t.dpdOf p.val).serving.state = 0 ∧ (t.dpdOf p.val).idle.state = 1 ∧
      (t.dpdOf p.val).idle.seed = true ∧
      (t.dpdOf p.val).idle.coef = clip (s.dpdOf p.val).rec_ ((s.dpdOf p.val).seedFor (s.loKhz (p.val / 8))) ∧
      (∃ dac, (t.tx p.val).next = some ⟨sym, true, dac⟩) ∧ KeepsBut [.downlink, .transmit, .dpd] s t := by
  obtain ⟨u, dac, f, counted, hexec, hnext⟩ := exec_symbolRelease_bankFault hs hl hon hid
  refine ⟨_, hexec, ?_⟩
  generalize hv : (u.bankFault p.val (sym + s.intervalLen sym)).mapTx p.val f = v
  have sliced : Only [.transmit] [] (u.bankFault p.val (sym + s.intervalLen sym)) v := hv ▸ only_mapTx _ _ _
  have consumed := (dlWork_consume v p.val sym (s.intervalLen sym)).only
  obtain ⟨b, l, hb⟩ := v.consume_tx p.val sym (s.intervalLen sym)
  have hh : p.val / 32 < 2 := by omega
  obtain ⟨hident, hserving, hidle⟩ := (s.dpdOf p.val).lose_spec (s.loKhz (p.val / 8))
  rw [consumed.dpdOf (by decide), sliced.dpdOf (by decide), State.bankFault_dpdOf, counted.dpdOf (by decide),
    counted.loKhz (loStat_not_mem_dlSatRegs _ hh), DpdPath.movedAt_serving, DpdPath.movedAt_idle, hserving, hidle]
  refine ⟨hident, rfl, rfl, rfl, rfl, ⟨dac, ?_⟩, ?_⟩
  · rw [hb, ← hv, State.tx_mapTx_same, ← hnext]
  · exact (((counted.then (only_bankFault u _ _) (n := dlSatRegs (p.val / 32)) (k := [.downlink, .transmit, .dpd])
      (h3 := List.Subset.refl _) (h4 := List.nil_subset _)).trans (sliced.mono (by decide) (List.nil_subset _))).trans
      (consumed.mono (by decide) (List.Subset.refl _))).1

end

/-- Settles O18: clause by clause, from what a restructure, a swap, a verification, a revert and a lost bank leave in the path's
two banks. -/
theorem predistortionBanks : Obligations.PredistortionBanks := by
  unfold Obligations.PredistortionBanks
  exact ⟨fun p r s => dpdRestructure_copies, fun p c s => dpdSwap_trial,
    fun p align k s h2 hno hk => ⟨dpdVerify_commits h2 hno hk, dpdVerify_reverts h2 hno hk⟩,
    fun p c s => dpdRevertSwap_falls_back,
    fun p sym s hin hrun hmu htouch => symbolRelease_bankFault ⟨hin, hrun, hmu, htouch⟩,
    fun p x s => cfrPulseSwap_replaces⟩

end Sys2Proof.Machine
end

section
/-! SUPPORT. Captures and receivers of the predistortion service (R222 to R228, R350): what an attempt counts and notes, and what the
retirement of a receiver leaves of the receivers and of the count of discarded captures. -/

namespace Sys2Proof.Machine

/-! ## The pacer (R337 to R340) -/

theorem only_setPace (s : State) (series subject : Nat) (x : Pace) : Only [.engines] [] s (s.setPace series subject x) := by
  unfold State.setPace
  refine ⟨fun p hp => ?_, fun _ _ => rfl⟩
  cases p
  case engines => exact absurd (List.mem_singleton_self _) hp
  all_goals simp only [Part.Same, and_self]

theorem only_setBehind (s : State) (l : List (Nat × Nat)) : Only [.engines] [] s { s with behind := l } := by
  refine ⟨fun p hp => ?_, fun _ _ => rfl⟩
  cases p
  case engines => exact absurd (List.mem_singleton_self _) hp
  all_goals simp only [Part.Same, and_self]

theorem only_paceStart (s : State) (series subject : Nat) :
    Only (.engines :: eventParts) eventRegs s (s.paceStart series subject) := by
  unfold State.paceStart
  dsimp only
  have started (x : Pace) := (only_setPace s series subject x).mono (l' := .engines :: eventParts) (m' := eventRegs)
    (by decide) (by decide)
  refine Only.ite _ (fun _ => ((started _).trans ((only_setBehind _ _).mono (by decide) (by decide))).trans
    ((only_raise _ _ _ _ _).mono (by decide) (List.Subset.refl _))) fun _ => started _

theorem only_paceRun (s : State) (series subject : Nat) (count : Fld) :
    Only (.engines :: eventParts) (count.off :: eventRegs) s (s.paceRun series subject count) :=
  (Only.ite _ (fun _ => (only_bump s count 1).mono (List.nil_subset _) (by simp)) fun _ => Only.refl _ _ _).trans
    ((only_paceStart _ _ _).mono (List.Subset.refl _) (List.subset_cons_self _ _))

/-! ## An estimate falls due (R227) -/

section
variable {p : PathNo} {s : State}

/-- The state in which an occurrence of the estimate is due: started, and counted as waiting under an EXCL capture (R351). -/
noncomputable def State.estimateStarted (s : State) (p : Nat) : State :=
  if (s.paceRun 1 p (Rg.C_DPD_LATE (p / 32))).exclArmed (p / 32) then
    (s.paceRun 1 p (Rg.C_DPD_LATE (p / 32))).bump (Rg.C_SVC_WAIT (p / 32)) 1
  else s.paceRun 1 p (Rg.C_DPD_LATE (p / 32))

theorem only_estimateStarted (s : State) (p : Nat) : Only (.engines :: eventParts)
    ((Rg.C_DPD_LATE (p / 32)).off :: (Rg.C_SVC_WAIT (p / 32)).off :: eventRegs) s (s.estimateStarted p) := by
  have run := (only_paceRun s 1 p (Rg.C_DPD_LATE (p / 32))).mono
    (m' := (Rg.C_DPD_LATE (p / 32)).off :: (Rg.C_SVC_WAIT (p / 32)).off :: eventRegs) (List.Subset.refl _)
    (List.cons_subset_cons _ (List.subset_cons_self _ _))
  exact Only.ite _ (fun _ => run.trans ((only_bump _ _ _).mono (List.nil_subset _) (by simp))) fun _ => run

theorem dpdEstimateDue_due (hest : s.estOn p.val = true) (hin : s.pathIn p.val = true) (hrun : s.groupRun (p.val / 8) = true)
    (hdue : (s.dpdOf p.val).estDue = false) : Runs (.dpdEstimateDue p) s fun t =>
      (t.dpdOf p.val).estDue = true ∧
      Only (.dpd :: .engines :: eventParts)
        ((Rg.C_DPD_LATE (p.val / 32)).off :: (Rg.C_SVC_WAIT (p.val / 32)).off :: eventRegs) s t := by
  have hexec : exec (.dpdEstimateDue p) s =
      .next ((s.estimateStarted p.val).mapDpd p.val fun d => { d with estDue := true }) := by
    change execDpdEstimateDue p s = _
    simp only [execDpdEstimateDue, hest, hin, hrun, hdue, Bool.not_true, Bool.and_self, Bool.or_self, Bool.false_eq_true, if_false]
    rfl
  refine ⟨_, hexec, ?_⟩
  beta_reduce
  rw [State.dpdOf_mapDpd_same]
  exact ⟨rfl, ((only_estimateStarted s _).mono (List.subset_cons_self _ _) (List.Subset.refl _)).trans
    ((only_mapDpd _ _ _).mono (by simp) (List.nil_subset _))⟩


/-! ## Captures (R222, R223, R228, R350) -/

/-- The slot in which a capture's span starts. -/
noncomputable def State.captureSlot (s : State) (first : Nat) : Stamp := { stampOf s.swapMu first with symbol := 0, tick := 0 }

/-- A capture is made of a path: one is wanted, none is under an EXCL capture, none was tried in this slot, and the half's stream is
free (R223, R350). -/
structure State.CaptureMade (s : State) (p first : Nat) : Prop where
  wanted : s.capWanted p = true
  excl : s.exclArmed (p / 32) = false
  tried : (s.dpdOf p).tried ≠ some (s.captureSlot first)
  busy : s.svcBusy (p / 32) first = false

/-- The spans of the halves' last captures are noted (R350). -/
noncomputable def State.noteSpans (s : State) (v : Tbl (Option Int)) : State := { s with svcAt := v }

/-- A half's service record takes its number. -/
noncomputable def State.numberCapture (s : State) (h : Nat) : State :=
  { s with capNum := tset (fun _ => 0) s.capNum h ((tget (fun _ => 0) s.capNum h + 1) % 2 ^ 32) }

theorem only_noteSpans (s : State) (v : Tbl (Option Int)) : Only [.dpd] [] s (s.noteSpans v) := by
  unfold State.noteSpans
  refine ⟨fun p hp => ?_, fun _ _ => rfl⟩
  cases p
  case dpd => exact absurd (List.mem_singleton_self _) hp
  all_goals simp only [Part.Same, and_self]

theorem only_numberCapture (s : State) (h : Nat) : Only [.captures] [] s (s.numberCapture h) := by
  unfold State.numberCapture
  refine ⟨fun p hp => ?_, fun _ _ => rfl⟩
  cases p
  case captures => exact absurd (List.mem_singleton_self _) hp
  all_goals simp only [Part.Same, and_self]

/-- A capture that is made counts, and its half's stream is taken from its span on. -/
noncomputable def State.captureCounted (s : State) (h first : Nat) : State :=
  (s.bump (Rg.C_SVC_CAPTURES h) 1).noteSpans (tset (fun _ => none) s.svcAt h (some (s.tickOf first)))

theorem only_captureCounted (s : State) (h first : Nat) :
    Only [.dpd] [(Rg.C_SVC_CAPTURES h).off] s (s.captureCounted h first) :=
  ((only_bump s _ 1).mono (List.nil_subset _) (List.Subset.refl _)).trans
    ((only_noteSpans _ _).mono (List.Subset.refl _) (List.nil_subset _))

theorem State.noteSpans_dpdOf (s : State) (v : Tbl (Option Int)) (q : Nat) : (s.noteSpans v).dpdOf q = s.dpdOf q := rfl

theorem State.captureCounted_dpdOf (s : State) (h first q : Nat) : (s.captureCounted h first).dpdOf q = s.dpdOf q :=
  (State.noteSpans_dpdOf _ _ _).trans (State.dpdOf_congr (State.bump_dpd _ _ _) q)

theorem State.capEligible_regs (s : State) (r : Tbl Word) (q first : Nat) :
    { s with regs := r }.capEligible q first = s.capEligible q first := rfl

theorem State.capEligible_svcAt (s : State) (v : Tbl (Option Int)) (q first : Nat) :
    (s.noteSpans v).capEligible q first = s.capEligible q first := rfl

theorem State.pcfg_regs (s : State) (r : Tbl Word) : { s with regs := r }.pcfg = s.pcfg := rfl

theorem State.pcfg_svcAt (s : State) (v : Tbl (Option Int)) : (s.noteSpans v).pcfg = s.pcfg := rfl

/-- Counters and the stream's use change nothing that a capture's eligibility depends on. -/
theorem State.capEligible_noteSpans (s : State) (x : Fld) (n : Nat) (v : Tbl (Option Int)) (q first : Nat) :
    ((s.bump x n).noteSpans v).capEligible q first = s.capEligible q first :=
  (State.capEligible_svcAt _ _ _ _).trans (State.capEligible_regs _ _ _ _)

theorem State.capEligible_counted (s : State) (q h first : Nat) :
    (s.captureCounted h first).capEligible q first = s.capEligible q first := State.capEligible_noteSpans _ _ _ _ _ _

theorem State.pcfg_noteSpans (s : State) (x : Fld) (n : Nat) (v : Tbl (Option Int)) : ((s.bump x n).noteSpans v).pcfg = s.pcfg :=
  (State.pcfg_svcAt _ _).trans (State.pcfg_regs _ _)

theorem State.occAt_noteSpans (s : State) (x : Fld) (n : Nat) (v : Tbl (Option Int)) (k c : Nat) :
    ((s.bump x n).noteSpans v).occAt k c = s.occAt k c := rfl

/-- Nor whether it is frozen. -/
theorem State.capFrozen_counted (s : State) (q first : Nat) {h : Nat} (hh : h < 2) (obs : List Cplx) :
    (s.captureCounted h first).capFrozen q first obs = s.capFrozen q first obs := by
  have keep (x : Fld) (hx : ∀ h < 2, x.off ∉ [(Rg.C_SVC_CAPTURES h).off]) : (s.captureCounted h first).f x = s.f x :=
    State.f_of_raw ((only_captureCounted s h first).2.raw x (hx h hh))
  have hocc : (s.captureCounted h first).occAt (q / 32) first = s.occAt (q / 32) first := State.occAt_noteSpans _ _ _ _ _ _
  have hpcfg : (s.captureCounted h first).pcfg = s.pcfg := State.pcfg_noteSpans _ _ _ _
  rw [State.capFrozen, State.capFrozen, keep Rg.DPD_CFG_FREEZE_DB (by decide), keep Rg.DPD_CFG_OCC_MIN (by decide), hocc, hpcfg,
    State.captureCounted_dpdOf]

/-- The only attempt of a path's slot (R223). -/
noncomputable def DpdPath.triedIn (d : DpdPath) (slot : Stamp) : DpdPath := { d with tried := some slot }

/-- An attempt without a record: counted, and the only one of its slot. -/
noncomputable def State.captureSpent (s : State) (p first : Nat) (x : Fld) : State :=
  ((s.captureCounted (p / 32) first).mapDpd p fun d => d.triedIn (s.captureSlot first)).bump x 1

theorem only_captureSpent (s : State) (q first : Nat) (x : Fld) :
    Only [.dpd] [(Rg.C_SVC_CAPTURES (q / 32)).off, x.off] s (s.captureSpent q first x) :=
  (((only_captureCounted s _ _).mono (List.Subset.refl _) (by simp)).trans
    ((only_mapDpd _ _ _).mono (List.Subset.refl _) (List.nil_subset _))).trans
    ((only_bump _ _ _).mono (List.nil_subset _) (by simp))

theorem State.captureSpent_raw (s : State) (q first : Nat) {x : Fld} (hx : x.lo + x.w ≤ 32)
    (hoff : x.off ≠ (Rg.C_SVC_CAPTURES (q / 32)).off) :
    (s.captureSpent q first x).raw x = min (s.raw x + 1) (2 ^ x.w - 1) := by
  rw [State.captureSpent, State.raw_bump _ _ _ hx, (only_mapDpd _ _ _).2.raw x (by simp),
    (only_captureCounted _ _ _).2.raw x (by simpa using hoff)]

theorem State.captureSpent_dpdOf (s : State) (q first : Nat) (x : Fld) :
    (s.captureSpent q first x).dpdOf q = (s.dpdOf q).triedIn (s.captureSlot first) := by
  rw [State.captureSpent, State.dpdOf_congr (State.bump_dpd _ _ _), State.dpdOf_mapDpd_same, State.captureCounted_dpdOf]

variable {first : Nat} {obs : List Cplx}

theorem dpdCaptureComplete_unwanted (h : s.capWanted p.val = false ∨ s.exclArmed (p.val / 32) = true ∨
    (s.dpdOf p.val).tried = some (s.captureSlot first)) : Runs (.dpdCaptureComplete p first obs) s fun t => t = s := by
  refine ⟨s, if_pos ?_, rfl⟩
  rcases h with h | h | h
  · exact .inl (by rw [h]; rfl)
  · exact .inr (.inl h)
  · exact .inr (.inr h)

theorem dpdCaptureComplete_waits (hwant : s.capWanted p.val = true) (hexcl : s.exclArmed (p.val / 32) = false)
    (htried : (s.dpdOf p.val).tried ≠ some (s.captureSlot first)) (hbusy : s.svcBusy (p.val / 32) first = true) :
    Runs (.dpdCaptureComplete p first obs) s fun t =>
      t.raw (Rg.C_SVC_WAIT (p.val / 32)) =
        min (s.raw (Rg.C_SVC_WAIT (p.val / 32)) + 1) (2 ^ (Rg.C_SVC_WAIT (p.val / 32)).w - 1) ∧
      Only [] [(Rg.C_SVC_WAIT (p.val / 32)).off] s t := by
  refine ⟨_, (if_neg ?_).trans (if_pos hbusy), State.raw_bump _ _ _ (by simp [Rg.C_SVC_WAIT]), only_bump _ _ _⟩
  rintro (h | h | h)
  · rw [hwant] at h; cases h
  · rw [hexcl] at h; cases h
  · exact htried h

theorem State.CaptureMade.not_skipped (hm : s.CaptureMade p.val first) :
    ¬((!s.capWanted p.val) = true ∨ s.exclArmed (p.val / 32) = true ∨ (s.dpdOf p.val).tried = some (s.captureSlot first)) := by
  simp [hm.wanted, hm.excl, hm.tried]


/-- What becomes of a capture that is made, in the state in which it is counted: discarded, frozen, or a record for verification, for
RHO alone, or for the estimate that is due (R223, R225, R228, R231). -/
noncomputable def State.useCapture (t : State) (d : DpdPath) (slot : Stamp) (p first : Nat) (obs : List Cplx) : State :=
  let drop (x : Fld) : State := (t.mapDpd p fun d => d.triedIn slot).bump x 1
  match (if t.capEligible p first then (t.tx p).span first 2048 else none) with
  | none => drop (Rg.C_DPD_DISCARD (p / 32))
  | some (x, y) =>
    if t.capFrozen p first obs then drop (Rg.C_DPD_FROZEN (p / 32))
    else
      let k := t.dpdCapture p first x y obs
      let u := t.numberCapture (p / 32)
      if d.serving.state = 2 then u.mapDpd p fun d => { d with record := some k }
      else if d.refresh then
        (u.freeNat.2).mapDpd p fun e =>
          { e.setServing { e.serving with rho := wrapTo 16 (residualDb d.serving.coef (alignOf (leBytes 8 u.freeNat.1)) k) } with
            refresh := false }
      else (u.mapDpd p fun d => { d with estDue := false, estimating := true, record := some k }).bump (Rg.C_DPD_EST (p / 32)) 1

theorem exec_dpdCaptureComplete_made (hm : s.CaptureMade p.val first) : exec (.dpdCaptureComplete p first obs) s =
    .next ((s.captureCounted (p.val / 32) first).useCapture (s.dpdOf p.val) (s.captureSlot first) p.val first obs) := by
  refine (if_neg hm.not_skipped).trans ((if_neg (by simp [hm.busy])).trans ?_)
  extract_lets b t slot n u
  have ht : s.captureCounted (p.val / 32) first = t := rfl
  rw [ht]
  clear_value t
  rw [State.useCapture]
  generalize (if t.capEligible p.val first = true then (t.tx p.val).span first 2048 else none) = w
  rcases w with _ | ⟨x, y⟩
  · rfl
  · dsimp only
    rw [apply_ite Host.Outcome.next, apply_ite Host.Outcome.next, apply_ite Host.Outcome.next]
    rfl


/-- A path's record at hand (R222). -/
noncomputable def DpdPath.holding (d : DpdPath) (k : DpdRecord) : DpdPath := { d with record := some k }

/-- The estimate that is due is under way on a record (R227). -/
noncomputable def DpdPath.estimatingOn (d : DpdPath) (k : DpdRecord) : DpdPath := { d with estDue := false, estimating := true, record := some k }

section
variable {t : State} {d : DpdPath} {slot : Stamp} {q : Nat}

theorem State.useCapture_ineligible (he : t.capEligible q first = false) :
    t.useCapture d slot q first obs = (t.mapDpd q fun d => d.triedIn slot).bump (Rg.C_DPD_DISCARD (q / 32)) 1 := by
  simp only [State.useCapture, he, Bool.false_eq_true, if_false]

variable {x y : List Cplx}

theorem State.useCapture_frozen (he : t.capEligible q first = true) (hspan : (t.tx q).span first 2048 = some (x, y))
    (hf : t.capFrozen q first obs = true) :
    t.useCapture d slot q first obs = (t.mapDpd q fun d => d.triedIn slot).bump (Rg.C_DPD_FROZEN (q / 32)) 1 := by
  simp only [State.useCapture, he, hspan, hf, if_true]

theorem State.useCapture_verifies (he : t.capEligible q first = true) (hspan : (t.tx q).span first 2048 = some (x, y))
    (hf : t.capFrozen q first obs = false) (h2 : d.serving.state = 2) :
    t.useCapture d slot q first obs =
      (t.numberCapture (q / 32)).mapDpd q fun d => d.holding (t.dpdCapture q first x y obs) := by
  simp only [State.useCapture, he, hspan, hf, h2, if_true, Bool.false_eq_true, if_false, DpdPath.holding]

theorem State.useCapture_estimates (he : t.capEligible q first = true) (hspan : (t.tx q).span first 2048 = some (x, y))
    (hf : t.capFrozen q first obs = false) (h3 : d.serving.state = 3) (hr : d.refresh = false) :
    t.useCapture d slot q first obs = ((t.numberCapture (q / 32)).mapDpd q fun d =>
      d.estimatingOn (t.dpdCapture q first x y obs)).bump (Rg.C_DPD_EST (q / 32)) 1 := by
  simp only [State.useCapture, he, hspan, hf, h3, hr, if_true, Bool.false_eq_true, if_false, DpdPath.estimatingOn]
  rfl

end

theorem State.captureCounted_span (s : State) (h first q c n : Nat) :
    ((s.captureCounted h first).tx q).span c n = (s.tx q).span c n := by
  rw [State.tx_congr ((only_captureCounted s h first).1 .transmit (by decide)) q]

theorem only_numbered (s : State) (h first : Nat) :
    Only [.dpd, .captures] [(Rg.C_SVC_CAPTURES h).off] s ((s.captureCounted h first).numberCapture h) :=
  ((only_captureCounted s h first).mono (by decide) (List.Subset.refl _)).trans
    ((only_numberCapture _ _).mono (by decide) (List.nil_subset _))

theorem State.numbered_dpdOf (s : State) (h first q : Nat) :
    ((s.captureCounted h first).numberCapture h).dpdOf q = s.dpdOf q :=
  ((only_numberCapture _ _).dpdOf (by decide) q).trans (s.captureCounted_dpdOf h first q)

theorem half_of_path (p : PathNo) : p.val / 32 < 2 := by omega

theorem dpdCaptureComplete_discarded (hm : s.CaptureMade p.val first) (he : s.capEligible p.val first = false) :
    Runs (.dpdCaptureComplete p first obs) s fun t =>
      t.raw (Rg.C_DPD_DISCARD (p.val / 32)) =
        min (s.raw (Rg.C_DPD_DISCARD (p.val / 32)) + 1) (2 ^ (Rg.C_DPD_DISCARD (p.val / 32)).w - 1) ∧
      (t.dpdOf p.val).tried = some (s.captureSlot first) ∧ (t.dpdOf p.val).record = (s.dpdOf p.val).record ∧
      Only [.dpd] [(Rg.C_SVC_CAPTURES (p.val / 32)).off, (Rg.C_DPD_DISCARD (p.val / 32)).off] s t := by
  refine ⟨s.captureSpent p.val first (Rg.C_DPD_DISCARD (p.val / 32)), ?_, ?_, ?_, ?_, only_captureSpent _ _ _ _⟩
  · rw [exec_dpdCaptureComplete_made hm, State.useCapture_ineligible ((s.capEligible_counted _ _ _).trans he), State.captureSpent]
  · exact s.captureSpent_raw _ _ (by simp [Rg.C_DPD_DISCARD]) (by simp [Rg.C_DPD_DISCARD, Rg.C_SVC_CAPTURES])
  · rw [State.captureSpent_dpdOf]; rfl
  · rw [State.captureSpent_dpdOf]; rfl

variable {x y : List Cplx}

theorem dpdCaptureComplete_frozen (hm : s.CaptureMade p.val first) (he : s.capEligible p.val first = true)
    (hspan : (s.tx p.val).span first 2048 = some (x, y)) (hf : s.capFrozen p.val first obs = true) :
    Runs (.dpdCaptureComplete p first obs) s fun t =>
      t.raw (Rg.C_DPD_FROZEN (p.val / 32)) =
        min (s.raw (Rg.C_DPD_FROZEN (p.val / 32)) + 1) (2 ^ (Rg.C_DPD_FROZEN (p.val / 32)).w - 1) ∧
      (t.dpdOf p.val).tried = some (s.captureSlot first) ∧ (t.dpdOf p.val).estDue = (s.dpdOf p.val).estDue ∧
      Only [.dpd] [(Rg.C_SVC_CAPTURES (p.val / 32)).off, (Rg.C_DPD_FROZEN (p.val / 32)).off] s t := by
  refine ⟨s.captureSpent p.val first (Rg.C_DPD_FROZEN (p.val / 32)), ?_, ?_, ?_, ?_, only_captureSpent _ _ _ _⟩
  · rw [exec_dpdCaptureComplete_made hm, State.useCapture_frozen ((s.capEligible_counted _ _ _).trans he)
      ((s.captureCounted_span _ _ _ _ _).trans hspan) ((s.capFrozen_counted _ _ (half_of_path p) _).trans hf), State.captureSpent]
  · exact s.captureSpent_raw _ _ (by simp [Rg.C_DPD_FROZEN]) (by simp [Rg.C_DPD_FROZEN, Rg.C_SVC_CAPTURES])
  · rw [State.captureSpent_dpdOf]; rfl
  · rw [State.captureSpent_dpdOf]; rfl

/-- The record of a capture holds the span of stages 3 and 4 and the observation (R222). -/
theorem State.dpdCapture_holds (t : State) (q first : Nat) (x y obs : List Cplx) : (t.dpdCapture q first x y obs).x = x ∧
    (t.dpdCapture q first x y obs).y = y ∧ (t.dpdCapture q first x y obs).obs = obs := ⟨rfl, rfl, rfl⟩

theorem dpdCaptureComplete_verifies (hm : s.CaptureMade p.val first) (he : s.capEligible p.val first = true)
    (hspan : (s.tx p.val).span first 2048 = some (x, y)) (hf : s.capFrozen p.val first obs = false)
    (h2 : (s.dpdOf p.val).serving.state = 2) : Runs (.dpdCaptureComplete p first obs) s fun t =>
      (∃ k, (t.dpdOf p.val).record = some k ∧ k.x = x ∧ k.y = y ∧ k.obs = obs) ∧
      (t.dpdOf p.val).serving = (s.dpdOf p.val).serving ∧
      Only [.dpd, .captures] [(Rg.C_SVC_CAPTURES (p.val / 32)).off] s t := by
  have hexec := (exec_dpdCaptureComplete_made (obs := obs) hm).trans (congrArg Host.Outcome.next
    (State.useCapture_verifies ((s.capEligible_counted _ _ _).trans he) ((s.captureCounted_span _ _ _ _ _).trans hspan)
      ((s.capFrozen_counted _ _ (half_of_path p) _).trans hf) h2))
  refine ⟨_, hexec, ?_⟩
  beta_reduce
  rw [State.dpdOf_mapDpd_same, State.numbered_dpdOf]
  exact ⟨⟨_, rfl, State.dpdCapture_holds _ _ _ _ _ _⟩, rfl,
    (only_numbered s _ _).trans ((only_mapDpd _ _ _).mono (by decide) (List.nil_subset _))⟩

theorem dpdCaptureComplete_estimates (hm : s.CaptureMade p.val first) (he : s.capEligible p.val first = true)
    (hspan : (s.tx p.val).span first 2048 = some (x, y)) (hf : s.capFrozen p.val first obs = false)
    (h3 : (s.dpdOf p.val).serving.state = 3) (hr : (s.dpdOf p.val).refresh = false) :
    Runs (.dpdCaptureComplete p first obs) s fun t =>
      (t.dpdOf p.val).estDue = false ∧ (t.dpdOf p.val).estimating = true ∧
      (∃ k, (t.dpdOf p.val).record = some k ∧ k.x = x ∧ k.y = y ∧ k.obs = obs) ∧
      Only [.dpd, .captures] [(Rg.C_SVC_CAPTURES (p.val / 32)).off, (Rg.C_DPD_EST (p.val / 32)).off] s t := by
  have hexec := (exec_dpdCaptureComplete_made (obs := obs) hm).trans (congrArg Host.Outcome.next
    (State.useCapture_estimates ((s.capEligible_counted _ _ _).trans he) ((s.captureCounted_span _ _ _ _ _).trans hspan)
      ((s.capFrozen_counted _ _ (half_of_path p) _).trans hf) h3 hr))
  refine ⟨_, hexec, ?_⟩
  beta_reduce
  rw [State.dpdOf_congr (State.bump_dpd _ _ _), State.dpdOf_mapDpd_same]
  exact ⟨rfl, rfl, ⟨_, rfl, State.dpdCapture_holds _ _ _ _ _ _⟩,
    (((only_numbered s _ _).trans ((only_mapDpd _ _ _).mono (by decide) (List.nil_subset _))).mono (List.Subset.refl _)
      (by simp)).trans ((only_bump _ _ _).mono (List.nil_subset _) (by simp))⟩

end

/-! ## Retirement of a receiver (R225, R226) -/

/-- The retired receivers and the half's count of discarded captures hold. -/
structure KeepsReceivers (h : Nat) (s t : State) : Prop where
  orxRet : t.rel.orxRet = s.rel.orxRet
  discards : t.raw (Rg.C_DPD_DISCARD h) = s.raw (Rg.C_DPD_DISCARD h)

section
variable {h : Nat} {s t u : State}

theorem KeepsReceivers.refl (h : Nat) (s : State) : KeepsReceivers h s s := ⟨rfl, rfl⟩

theorem KeepsReceivers.trans (a : KeepsReceivers h s t) (b : KeepsReceivers h t u) : KeepsReceivers h s u :=
  ⟨b.orxRet.trans a.orxRet, b.discards.trans a.discards⟩

theorem KeepsReceivers.of_only {l : List Part} {m : List Nat} (a : Only l m s t) (hm : (Rg.C_DPD_DISCARD h).off ∉ m)
    (hl : Part.faults ∉ l := by decide) : KeepsReceivers h s t :=
  ⟨congrArg RelSt.orxRet (a.1 .faults hl), a.2.raw _ hm⟩

theorem KeepsReceivers.ite (c : Prop) [Decidable c] (a : KeepsReceivers h s t) (b : KeepsReceivers h s u) :
    KeepsReceivers h s (if c then t else u) := by
  split <;> assumption

theorem KeepsReceivers.foldl {α : Type} (f : State → α → State) (hf : ∀ t x, KeepsReceivers h t (f t x)) (l : List α)
    (s : State) : KeepsReceivers h s (l.foldl f s) :=
  List.foldlRecOn _ _ (.refl h s) fun t ht x _ => ht.trans (hf t x)

theorem keepsReceivers_mapRel (s : State) (f : RelSt → RelSt) (hf : ∀ r, (f r).orxRet = r.orxRet) :
    KeepsReceivers h s (s.mapRel f) := ⟨hf s.rel, (only_mapRel s f).2.raw _ (by simp)⟩

theorem keepsReceivers_setOrx (s : State) (g n : Nat) : KeepsReceivers h s (s.setOrx g n) :=
  keepsReceivers_mapRel s _ fun _ => rfl

theorem keepsReceivers_relayedIn (s : State) (g : Nat) : KeepsReceivers h s (s.relayedIn g) :=
  .foldl _ (fun _ _ => .of_only (only_mapDpd _ _ _) (by simp)) _ _

theorem discards_not_mem : ∀ h < 2, (Rg.C_DPD_DISCARD h).off ∉ exhaustRegs ∧ (Rg.C_DPD_DISCARD h).off ∉ eventRegs ∧
    (Rg.C_DPD_DISCARD h).off ∉ relRegs ∧
    (Rg.C_DPD_DISCARD h).off ∉ [(Rg.C_SPARE_IN 0).off, (Rg.C_SPARE_IN 1).off] ++ relRegs := by decide

variable (hh : h < 2)
include hh

theorem keepsReceivers_raise (s : State) (k c b : Nat) (l : List Nat) : KeepsReceivers h s (s.raise k c b l) :=
  .of_only (only_raise s k c b l) (discards_not_mem h hh).2.1

theorem keepsReceivers_evalRel (s : State) : KeepsReceivers h s s.evalRel :=
  .of_only (only_evalRel s) (discards_not_mem h hh).2.2.1

theorem keepsReceivers_setF (s : State) {x : Fld} (v : Nat) (hx : x.off ∈ exhaustRegs) : KeepsReceivers h s (s.setF x v) :=
  .of_only (only_setF s x v) fun hm => (discards_not_mem h hh).1 (List.mem_singleton.mp hm ▸ hx)

theorem keepsReceivers_request (s : State) (reason half row : Nat) : KeepsReceivers h s (s.request reason half row) := by
  have asserted (f : RelSt → RelSt) (hf : ∀ r, (f r).orxRet = r.orxRet) (v : Nat) := (((keepsReceivers_mapRel (h := h) s f hf).trans
    (keepsReceivers_setF hh _ (x := Rg.REL_STAT_WHY) v (by decide))).trans
    (keepsReceivers_setF hh _ (x := Rg.REL_STAT_SERVICE_N) 1 (by decide))).trans
    (keepsReceivers_setF hh _ (x := Rg.CFG_STAT_SERVICE) 1 (by decide))
  have sent (t : State) (k b : Nat) (l : List Nat) (m : List Byte) : KeepsReceivers h t
      ((t.raise half Ev.REPLACE_REQUEST b l).sendMsg (t.raise half Ev.REPLACE_REQUEST b l).msgHalf k m) :=
    (keepsReceivers_raise hh t _ _ _ _).trans (.of_only (only_sendMsg _ _ _ _) (by simp))
  have told (t : State) : KeepsReceivers h t (t.irq 5) := .of_only (only_irq t 5) fun hm =>
    (discards_not_mem h hh).1 (List.mem_singleton.mp hm ▸ by decide)
  unfold State.request
  refine KeepsReceivers.ite _ (.refl h s) ?_
  refine KeepsReceivers.trans ?_ (sent _ _ _ _ _)
  exact .ite _ (asserted _ (by intro r; rfl) _) ((asserted _ (by intro r; rfl) _).trans (told _))

theorem keepsReceivers_exhaust (s : State) (half row : Nat) : KeepsReceivers h s (s.exhaust half row) := by
  have flagged (v : Nat) :
      KeepsReceivers h s (s.setF (if half = 0 then Rg.REL_EXHAUST_H0 else Rg.REL_EXHAUST_H1) v) := by
    split
    · exact keepsReceivers_setF hh s v (by decide)
    · exact keepsReceivers_setF hh s v (by decide)
  unfold State.exhaust
  refine KeepsReceivers.ite _ (.refl h s) ?_
  exact (((flagged _).trans (keepsReceivers_raise hh _ _ _ _ _)).trans (keepsReceivers_evalRel hh _)).trans
    (keepsReceivers_request hh _ _ _ _)

theorem keepsReceivers_spareIn (s : State) {k : Nat} (hk : k < 2) : KeepsReceivers h s (s.spareIn k) :=
  .of_only (only_spareIn s hk) (discards_not_mem h hh).2.2.2

theorem keepsReceivers_orxPath (s : State) (p : Nat) : KeepsReceivers h s (s.orxPath p) := by
  have mapped (t : State) (f : DpdPath → DpdPath) : KeepsReceivers h t (t.mapDpd p f) := .of_only (only_mapDpd _ _ _) (by simp)
  unfold State.orxPath
  exact .trans (.ite _ ((mapped s _).trans (keepsReceivers_raise hh _ _ _ _ _)) (.refl h s)) (mapped _ _)

theorem keepsReceivers_shareOrx (s : State) (k g : Nat) : KeepsReceivers h s (s.shareOrx k g) := by
  have shared (t : State) (l : List Nat) : KeepsReceivers h t { t with sharedOrx := l } := ⟨rfl, rfl⟩
  unfold State.shareOrx
  dsimp only
  split
  · exact (((keepsReceivers_setOrx _ _ _).trans (keepsReceivers_setOrx _ _ _)).trans (shared _ _)).trans
      (keepsReceivers_raise hh _ _ _ _ _)
  · exact .refl h s


/-- What the half gives a retired receiver's groups leaves the retired receivers and the count: the spare, or shares (R225, R226). -/
theorem keepsReceivers_replaceOrx (s u : State) (n k sp : Nat) (gs : List Nat) (hk : k < 2) (hu : KeepsReceivers h s u) (spare : Prop)
    [Decidable spare] : KeepsReceivers h s
      (if gs = [] then (u.exhaust k 4).evalRel
      else if spare then ((gs.foldl (fun s g => s.setOrx g sp) u).spareIn k).exhaust k 4
      else gs.foldl (fun s g => if s.orxOf g = n then s.shareOrx k g else s) u.evalRel) := by
  refine hu.trans (.ite _ ((keepsReceivers_exhaust hh _ _ _).trans (keepsReceivers_evalRel hh _)) (.ite _ ?_ ?_))
  · exact ((KeepsReceivers.foldl _ (fun _ _ => keepsReceivers_setOrx _ _ _) _ _).trans (keepsReceivers_spareIn hh _ hk)).trans
      (keepsReceivers_exhaust hh _ _ _)
  · exact (keepsReceivers_evalRel hh _).trans
      (.foldl _ (fun _ _ => .ite _ (keepsReceivers_shareOrx hh _ _ _) (.refl h _)) _ _)

end

/-- A receiver that works is marked retired and due for the fault log, and the captures it had in progress are counted as discarded
(R225). -/
noncomputable def State.orxOut (s : State) (n captures : Nat) : State :=
  ((s.mapRel fun r => { r with orxRet := tset (fun _ => false) r.orxRet n true }).logFault 4 n).bump (Rg.C_DPD_DISCARD (n / 5)) captures

theorem State.orxOut_retired (s : State) (n captures : Nat) :
    tget (fun _ => false) (s.orxOut n captures).rel.orxRet n = true := by
  rw [State.orxOut, State.bump_rel]
  exact tget_tset_same (fun _ => false) s.rel.orxRet n true

theorem State.orxOut_discards (s : State) (n captures : Nat) : (s.orxOut n captures).raw (Rg.C_DPD_DISCARD (n / 5)) =
    min (s.raw (Rg.C_DPD_DISCARD (n / 5)) + captures) (2 ^ (Rg.C_DPD_DISCARD (n / 5)).w - 1) :=
  (State.raw_bump _ (Rg.C_DPD_DISCARD (n / 5)) _ (Nat.le_refl 32)).trans
    (by rw [((only_mapRel s _).trans (only_logFault _ 4 n)).2.raw _ List.not_mem_nil])

theorem State.retireOrx_keeps {s : State} {n : Nat} (hn : n / 5 < 2) (hw : s.orxWorks n = true) (captures : Nat) :
    KeepsReceivers (n / 5) (s.orxOut n captures) (s.retireOrx n captures) := by
  unfold State.retireOrx
  rw [if_neg (by simp [hw])]
  exact keepsReceivers_replaceOrx hn _ _ _ _ _ _ hn (.foldl _ (fun _ _ =>
    .trans (.foldl _ (fun _ _ => keepsReceivers_orxPath hn _ _) _ _) (keepsReceivers_relayedIn _ _)) _ _) _

theorem orxRelay_retires {n : UnitNo} {captures : Nat} {s : State} (hw : s.orxWorks n.val = true) :
    Runs (.orxRelay n captures) s fun t => t.orxWorks n.val = false ∧
      t.raw (Rg.C_DPD_DISCARD (n.val / 5)) =
        min (s.raw (Rg.C_DPD_DISCARD (n.val / 5)) + captures) (2 ^ (Rg.C_DPD_DISCARD (n.val / 5)).w - 1) := by
  have kept := State.retireOrx_keeps (show n.val / 5 < 2 by omega) hw captures
  refine ⟨s.retireOrx n.val captures, rfl, ?_, kept.discards.trans (s.orxOut_discards _ _)⟩
  rw [State.orxWorks, kept.orxRet, State.orxOut_retired]
  rfl

/-- Settles O19: clause by clause, from a tick of the pacer, from the one attempt of a slot and what becomes of its capture, and
from a receiver's retirement, which nothing that follows it takes back. -/
theorem predistortionEstimates : Obligations.PredistortionEstimates := by
  unfold Obligations.PredistortionEstimates
  refine ⟨fun p s => dpdEstimateDue_due, fun p first obs s => ⟨dpdCaptureComplete_unwanted, dpdCaptureComplete_waits,
    fun hwant hexcl htried hbusy => ?_⟩, fun n k s => orxRelay_retires⟩
  have hm : s.CaptureMade p.val first := ⟨hwant, hexcl, htried, hbusy⟩
  exact ⟨dpdCaptureComplete_discarded hm, fun x y he hspan => ⟨dpdCaptureComplete_frozen hm he hspan,
    dpdCaptureComplete_verifies hm he hspan, dpdCaptureComplete_estimates hm he hspan⟩⟩

end Sys2Proof.Machine
end

section
/-! SUPPORT. Service calls of the adaptation engines (R326 to R329): what a call that is taken leaves of its task, and what a
task that an engine runs changes of the state. -/

namespace Sys2Proof.Machine

/-! ## D registers -/

theorem setNth_eq_set {α : Type} (l : List α) (i : Nat) (v : α) : setNth l i v = l.set i v := by
  induction l generalizing i with
  | nil => rfl
  | cons x r ih =>
    cases i with
    | zero => rfl
    | succ i => exact congrArg (x :: ·) (ih i)

theorem EngTask.dr_setD_same (t : EngTask) {i : Nat} (v : Word) (hi : i < t.d.length) : (t.setD i v).dr i = v := by
  change ((setNth t.d i v)[i]?).getD 0 = v
  rw [setNth_eq_set, List.getElem?_set_self hi, Option.getD_some]

theorem EngTask.dr_setD_ne (t : EngTask) {i j : Nat} (v : Word) (hj : i ≠ j) : (t.setD i v).dr j = t.dr j := by
  change ((setNth t.d i v)[j]?).getD 0 = t.dr j
  rw [setNth_eq_set, List.getElem?_set_ne hj, EngTask.dr]

theorem EngTask.adv_pc {t : EngTask} (h : t.loops = []) : t.adv.pc = t.pc + 1 := by
  simp [EngTask.adv, EngTask.after, loopNext, h]

/-! ## The answer of a call (R327) -/

/-- A call's status in D0, and the task behind its bundle. -/
noncomputable def EngTask.answered (t : EngTask) (st : Nat) : EngTask := (t.setD 0 (BitVec.ofNat 32 st)).adv

theorem EngTask.answered_dr (t : EngTask) (st : Nat) {j : Nat} (hj : j ≠ 0) : (t.answered st).dr j = t.dr j :=
  t.dr_setD_ne _ (Ne.symm hj)

theorem EngTask.answered_dn_zero {t : EngTask} (h : t.d.length = 16) {st : Nat} (hst : st < 2 ^ 32) :
    (t.answered st).dn 0 = st := by
  have hdr : (t.answered st).dr 0 = BitVec.ofNat 32 st := t.dr_setD_same _ (by omega)
  rw [EngTask.dn, hdr, BitVec.toNat_ofNat, Nat.mod_eq_of_lt hst]

theorem EngTask.answered_dn (t : EngTask) (st : Nat) {j : Nat} (hj : j ≠ 0) : (t.answered st).dn j = t.dn j :=
  congrArg BitVec.toNat (t.answered_dr st hj)

/-- A call's own work leaves its task as it was but for D1 and D2. -/
structure EngTask.CallKeeps (t u : EngTask) : Prop where
  waiting : u.waiting = false
  loops : u.loops = []
  len : u.d.length = 16
  pc : u.pc = t.pc
  dr : ∀ j, 3 ≤ j → u.dr j = t.dr j
  ac : u.ac = t.ac
  p : u.p = t.p
  k : u.k = t.k

theorem EngTask.Plain.callKeeps {t : EngTask} (h : t.Plain) : t.CallKeeps t := by
  obtain ⟨hw, hl, hd, -⟩ := h
  exact ⟨hw, hl, hd, rfl, fun _ _ => rfl, rfl, rfl, rfl⟩

/-- A result in D1. -/
theorem EngTask.Plain.callKeeps_setD_one {t : EngTask} (h : t.Plain) (v : Word) : t.CallKeeps (t.setD 1 v) := by
  obtain ⟨hw, hl, hd, -⟩ := h
  exact ⟨hw, hl, (congrArg List.length (setNth_eq_set _ _ _)).trans (List.length_set.trans hd), rfl, fun j hj => t.dr_setD_ne v (by omega), rfl, rfl, rfl⟩

/-! ## The task an engine runs -/

theorem only_setRun (s : State) (e : Nat) (t : Option EngTask) :
    Only [.engines] [(Rg.AE_STAT_STATE e).off] s (s.setRun e t) := by
  have mirrored (u : State) (x : Fld) (v : Nat) (hx : x.off = (Rg.AE_STAT_STATE e).off) :
      Only [.engines] [(Rg.AE_STAT_STATE e).off] u (u.setF x v) :=
    (only_setF_at u x v hx).mono (List.nil_subset _) (List.Subset.refl _)
  have held (f : EngSt → EngSt) : Only [.engines] [(Rg.AE_STAT_STATE e).off] s (s.mapEng e f) :=
    (only_mapEng s e f).mono (List.Subset.refl _) (List.nil_subset _)
  have running (f : EngSt → EngSt) (v : Nat) := (held f).trans
    (Only.ite ((s.mapEng e f).aeState e ≤ 1) (fun _ => mirrored (s.mapEng e f) (Rg.AE_STAT_STATE e) v rfl) fun _ => Only.refl _ _ _)
  unfold State.setRun
  cases t with
  | none =>
    exact ((((running _ _).trans (mirrored _ (Rg.AE_STAT_CLASS e) _ rfl)).trans (mirrored _ (Rg.AE_STAT_SLOT e) _ rfl)).trans
      (mirrored _ (Rg.AE_STAT_USER e) _ rfl)).trans (mirrored _ (Rg.AE_STAT_FLAGS e) _ rfl)
  | some t =>
    exact ((((running _ _).trans (mirrored _ (Rg.AE_STAT_CLASS e) _ rfl)).trans (mirrored _ (Rg.AE_STAT_SLOT e) _ rfl)).trans
      (mirrored _ (Rg.AE_STAT_USER e) _ rfl)).trans (mirrored _ (Rg.AE_STAT_FLAGS e) _ rfl)

theorem State.engOf_congr {s t : State} (h : t.eng = s.eng) (e : Nat) : t.engOf e = s.engOf e := by rw [State.engOf, h, State.engOf]

@[simp] theorem State.engOf_mapEng_same (s : State) (e : Nat) (f : EngSt → EngSt) : (s.mapEng e f).engOf e = f (s.engOf e) :=
  tget_tset_same _ _ _ _

theorem State.engOf_setF (s : State) (x : Fld) (v e : Nat) : (s.setF x v).engOf e = s.engOf e :=
  State.engOf_congr (s.setF_eng x v) e

theorem State.setRun_run (s : State) (e : Nat) (t : Option EngTask) : ((s.setRun e t).engOf e).run = t := by
  unfold State.setRun
  extract_lets now u v
  have hu : (u.engOf e).run = t := by rw [State.engOf_mapEng_same]
  have hv : v.engOf e = u.engOf e := (apply_ite (fun w => State.engOf w e) _ _ _).trans (by rw [State.engOf_setF, ite_self])
  clear_value v
  cases t <;> simp only [State.setB, State.engOf_setF, hv, hu]

/-! ## A call that is taken -/

theorem EngTask.cond_zero {t : EngTask} {c : Ctl} (h : c.cond.val = 0) : t.cond c = true := by rw [EngTask.cond, h]; rfl

theorem EngTask.CallKeeps.answered_pc {t u : EngTask} (h : t.CallKeeps u) (st : Nat) : (u.answered st).pc = t.pc + 1 :=
  (EngTask.adv_pc h.loops).trans (congrArg (· + 1) h.pc)

/-- A permitted call of a running task that is not withheld: its answer, on the state its work leaves. -/
theorem State.svc_taken {s w : State} {e : UnitNo} {c : Ctl} {n st : Nat} {f : EngTask → Nat × EngTask × State}
    {t u : EngTask}
    (hrun : (s.engOf e.val).run = some t) (hc : c.cond.val = 0) (hd : s.Agrees e c.diff)
    (hp : permitted t (s.slotService e.val t) n = true) (hpar : t.par = false) (hf : f t = (st, u, w)) (hw : u.waiting = false) :
    s.svc e.val c n f = w.setRun e.val (some (u.answered st)) := by
  have hdiff : (c.diff && s.shadowed (e.val / 5) == some e.val) = false := by
    rcases hd with hd | hd
    · rw [hd, Bool.false_and]
    · rw [beq_eq_false_iff_ne.mpr hd, Bool.and_false]
  simp only [State.svc, hrun, EngTask.cond_zero hc, hdiff, hp, hpar, hf, hw, EngTask.answered, Bool.not_true, Bool.and_false,
    Bool.false_eq_true, if_false]

theorem exec_of_svc {i : Instr} {s w : State} {e : UnitNo} {c : Ctl} {n st : Nat}
    {f : EngTask → Nat × EngTask × State} {t u : EngTask}
    (hexec : exec i s = .next (s.svc e.val c n f)) (hrun : (s.engOf e.val).run = some t) (hc : c.cond.val = 0)
    (hd : s.Agrees e c.diff) (hp : permitted t (s.slotService e.val t) n = true) (hpar : t.par = false) (hf : f t = (st, u, w))
    (hw : u.waiting = false) : exec i s = .next (w.setRun e.val (some (u.answered st))) :=
  hexec.trans (congrArg _ (State.svc_taken hrun hc hd hp hpar hf hw))

/-- A path that a call may not work on is out of service, or of the other half (R30). -/
theorem notServed {s : State} {e p : Nat} (h : s.pathIn p = false ∨ ownPath e p = false) : (!s.pathIn p || !ownPath e p) = true := by
  rcases h with h | h
  · rw [h, Bool.not_false, Bool.true_or]
  · rw [h, Bool.not_false, Bool.or_true]

theorem served {s : State} {e p : Nat} (hin : s.pathIn p = true) (hown : ownPath e p = true) :
    ¬(!s.pathIn p || !ownPath e p) = true := by
  rw [hin, hown]
  decide

/-- A call whose work is `f`: its status, and what its work leaves of the task and of the state. -/
theorem svcDoes_of {i : Instr} {n : Nat} {c : Ctl} {e : UnitNo} {t : EngTask} {s : State} {st : Nat} {parts : List Part}
    {offs : List Nat} {P : EngTask → State → Prop} {f : EngTask → Nat × EngTask × State}
    (hexec : exec i s = .next (s.svc e.val c n f)) (hst : st < 2 ^ 32)
    (hf : t.Plain → ∃ u w, f t = (st, u, w) ∧ t.CallKeeps u ∧ Only parts offs s w ∧
      ∀ r, KeepsBut [.engines] w r → P (u.answered st) r) :
    SvcDoes i n c e t s st parts offs P := by
  intro hrun hpl hc hd hp hpar
  obtain ⟨u, w, hfu, hu, hw, hP⟩ := hf hpl
  have hr := only_setRun w e.val (some (u.answered st))
  refine ⟨_, exec_of_svc hexec hrun hc hd hp hpar hfu hu.waiting, u.answered st, State.setRun_run _ _ _,
    ⟨EngTask.answered_dn_zero hu.len hst, hu.answered_pc st, fun j hj => ?_, hu.ac, hu.p, hu.k, hP _ hr.1⟩, ?_⟩
  · exact (u.answered_dr st (by omega)).trans (hu.dr j hj)
  · exact hw.then hr (by simp) (by simp) (by simp) (by simp)

/-- A call that is refused changes nothing but its engine. -/
theorem svcDoes_refused {i : Instr} {n : Nat} {c : Ctl} {e : UnitNo} {t : EngTask} {s : State} {st : Nat}
    {f : EngTask → Nat × EngTask × State} (hexec : exec i s = .next (s.svc e.val c n f)) (hst : st < 2 ^ 32)
    (hf : f t = (st, t, s)) : SvcDoes i n c e t s st [] [] fun _ _ => True :=
  svcDoes_of hexec hst fun hpl => ⟨t, s, hf, hpl.callKeeps, Only.refl _ _ _, fun _ _ => trivial⟩

end Sys2Proof.Machine
end

section
/-! SUPPORT. The commit of a predistortion candidate (R230). -/

namespace Sys2Proof.Machine

/-- A path's predistortion once its candidate is judged (R230): one judgement fewer of its acquisition, no estimate at hand. -/
noncomputable def DpdPath.judged (d : DpdPath) (dist : Int) : DpdPath :=
  { d with acq := d.acq - 1, dist := dist, estimating := false, record := none }

theorem DpdPath.judged_idle (d : DpdPath) (dist : Int) : (d.judged dist).idle = d.idle := rfl

theorem DpdPath.judged_serving (d : DpdPath) (dist : Int) : (d.judged dist).serving = d.serving := rfl

/-- Its candidate waits for a swap boundary (R219). -/
noncomputable def DpdPath.pending (d : DpdPath) (b : DpdBank) (at_ : Nat) : DpdPath := { d.setIdle b with swapAt := some at_, direct := false }

theorem DpdPath.pending_idle (d : DpdPath) (b : DpdBank) (at_ : Nat) : (d.pending b at_).idle = b := d.setIdle_idle b

theorem DpdPath.pending_serving (d : DpdPath) (b : DpdBank) (at_ : Nat) : (d.pending b at_).serving = d.serving := d.setIdle_serving b

theorem State.govCommit_clean {t : EngTask} (hs : t.sat = false) (hg : t.gov = false) (s : State) (e : Nat) :
    s.govCommit e t = s := by
  rw [State.govCommit, hs, hg, Bool.or_false, if_neg Bool.false_ne_true]

/-- The bank of a candidate that is committed. -/
noncomputable def DpdBank.candidate (t : EngTask) (cand : Tbl Cplx) (rho : Int) (khz : Nat) : DpdBank :=
  { state := 1, coef := cand, sat := t.sat, gov := t.gov, seed := false, rho := wrapTo 16 rho, at_ := 0, loKhz := khz }

section
variable (s : State) (e p : Nat) (t : EngTask) (cand : Tbl Cplx) (k : Decision)

theorem State.commitDpd_accepted (hk : k.code = 0) (hs : t.sat = false) (hg : t.gov = false) :
    s.commitDpd e p t cand k = ((s.mapDpd p fun d => d.judged k.dist).mapDpd p fun d =>
      d.pending (.candidate t cand k.rhoM (s.loKhz (p / 8))) (s.nextSwap 50)).bump (Rg.C_DPD_COMMIT (p / 32)) 1 := by
  unfold State.commitDpd
  dsimp only
  rw [if_pos hk, State.govCommit_clean hs hg, if_neg (by rw [hg]; exact Bool.false_ne_true)]
  rfl

theorem State.commitDpd_accepted_dpdOf (hk : k.code = 0) (hs : t.sat = false) (hg : t.gov = false) (q : Nat) :
    (s.commitDpd e p t cand k).dpdOf q = if p = q then ((s.dpdOf p).judged k.dist).pending
      (.candidate t cand k.rhoM (s.loKhz (p / 8))) (s.nextSwap 50) else s.dpdOf q := by
  rw [State.commitDpd_accepted _ _ _ _ _ _ hk hs hg, State.dpdOf_congr (State.bump_dpd _ _ _), State.dpdOf_mapDpd,
    State.dpdOf_mapDpd_same]
  split
  · rfl
  next h => exact (State.dpdOf_mapDpd _ _ _ _).trans (if_neg h)

theorem only_commitDpd_accepted (hk : k.code = 0) (hs : t.sat = false) (hg : t.gov = false) :
    Only [.dpd] [(Rg.C_DPD_COMMIT (p / 32)).off] s (s.commitDpd e p t cand k) := by
  rw [State.commitDpd_accepted _ _ _ _ _ _ hk hs hg]
  exact ((only_mapDpd _ _ _).trans (only_mapDpd _ _ _)).then (only_bump _ _ _) (by simp) (by simp) (by simp) (by simp)

theorem State.commitDpd_close (hk : k.code = 5) :
    s.commitDpd e p t cand k = (s.mapDpd p fun d => d.judged k.dist).bump (Rg.C_DPD_NOCHANGE (p / 32)) 1 := by
  unfold State.commitDpd
  dsimp only
  rw [if_neg (by rw [hk]; decide), if_pos hk]
  rfl

theorem State.commitDpd_close_dpdOf (hk : k.code = 5) : (s.commitDpd e p t cand k).dpdOf p = (s.dpdOf p).judged k.dist := by
  rw [State.commitDpd_close _ _ _ _ _ _ hk, State.dpdOf_congr (State.bump_dpd _ _ _), State.dpdOf_mapDpd_same]

theorem only_commitDpd_close (hk : k.code = 5) :
    Only [.dpd] [(Rg.C_DPD_NOCHANGE (p / 32)).off] s (s.commitDpd e p t cand k) := by
  rw [State.commitDpd_close _ _ _ _ _ _ hk]
  exact (only_mapDpd _ _ _).then (only_bump _ _ _) (by simp) (by simp) (by simp) (by simp)

end

/-- A path in service on an engine's half whose estimate may be committed: a bank is FREE, the other COMMITTED (R230). -/
abbrev State.AwaitsCommit (s : State) (e p : Nat) : Prop :=
  (s.dpdOf p).idle.state = 0 ∧ (s.dpdOf p).serving.state = 3 ∧ (s.dpdOf p).estimating = true ∧ s.pathIn p = true ∧ ownPath e p = true

section
variable {e : UnitNo} {c : Ctl} {t : EngTask} {b al : List Byte} {s : State}

/-- DPD_COMMIT without an estimate at hand is refused. -/
theorem dpdCommit_noRecord (hp : t.dn 0 < 64) (hb : s.readXY e.val t false (t.dn 1) 416 = some b)
    (hal : s.readXY e.val t false (t.dn 2) 8 = some al) (hr : (s.dpdOf (t.dn 0)).record = none) :
    SvcDoes (.dpdCommit e c) 0x06 c e t s 3 [] [] fun _ _ => True :=
  svcDoes_refused rfl (by decide) (by simp only [hb, hal, hr, if_neg (Nat.not_le.mpr hp)])

variable {x : DpdRecord} {cand : Tbl Cplx} {k : Decision}

/-- The estimate of a path aligned, as the commit check takes it (R230). -/
noncomputable def DpdPath.alignedTo (d : DpdPath) (a : Int × Cplx) : DpdPath := { d with align := a }

theorem DpdPath.alignedTo_idle (d : DpdPath) (a : Int × Cplx) : (d.alignedTo a).idle = d.idle := rfl

theorem DpdPath.alignedTo_serving (d : DpdPath) (a : Int × Cplx) : (d.alignedTo a).serving = d.serving := rfl

/-- The state in which the commit service takes its decision into effect. -/
noncomputable def State.commitAligned (s : State) (e : Nat) (t : EngTask) (a : Int × Cplx) (cand : Tbl Cplx) (k : Decision) : State :=
  (s.mapDpd (t.dn 0) fun d => d.alignedTo a).commitDpd e (t.dn 0) t cand k

/-- DPD_COMMIT with an estimate at hand: the decision's code in D1, and the decision in effect. -/
theorem dpdCommit_judged {offs : List Nat} {n : Nat} {P : State → Prop} (hp : t.dn 0 < 64)
    (hb : s.readXY e.val t false (t.dn 1) 416 = some b) (hal : s.readXY e.val t false (t.dn 2) 8 = some al)
    (hx : (s.dpdOf (t.dn 0)).record = some x) (hready : s.AwaitsCommit e.val (t.dn 0))
    (hcand : cand = s.candidate (t.dn 0) (cplxOfBytes b)) (hk : k = s.decide60 (t.dn 0) cand (alignOf al) x) (hcode : k.code = n) (hn : n < 2 ^ 32)
    (honly : Only [.dpd] offs (s.mapDpd (t.dn 0) fun d => d.alignedTo (alignOf al)) (s.commitAligned e.val t (alignOf al) cand k))
    (hP : ∀ r, KeepsBut [.engines] (s.commitAligned e.val t (alignOf al) cand k) r → P r) :
    SvcDoes (.dpdCommit e c) 0x06 c e t s 0 [.dpd] offs fun u r => u.dn 1 = n ∧ P r := by
  refine svcDoes_of rfl (by decide) fun hpl => ⟨t.setD 1 (BitVec.ofNat 32 k.code), _, ?_, hpl.callKeeps_setD_one _,
    ((only_mapDpd _ _ _).mono (List.Subset.refl _) (List.nil_subset _)).trans honly, fun r hr => ?_⟩
  · subst hk hcand
    simp only [hb, hal, hx, if_neg (Nat.not_le.mpr hp), if_pos hready]
    rfl
  · obtain ⟨-, -, hd, -⟩ := hpl
    refine ⟨?_, hP r hr⟩
    rw [EngTask.answered_dn _ _ Nat.one_ne_zero, EngTask.dn, t.dr_setD_same _ (hd.symm ▸ by decide), BitVec.toNat_ofNat, hcode,
      Nat.mod_eq_of_lt hn]

/-- DPD_COMMIT of a candidate that passes the check: it is PENDING for a swap boundary (R219, R230). -/
theorem dpdCommit_commits (hp : t.dn 0 < 64) (hb : s.readXY e.val t false (t.dn 1) 416 = some b)
    (hal : s.readXY e.val t false (t.dn 2) 8 = some al) (hx : (s.dpdOf (t.dn 0)).record = some x)
    (hready : s.AwaitsCommit e.val (t.dn 0)) (hcand : cand = s.candidate (t.dn 0) (cplxOfBytes b))
    (hk : k = s.decide60 (t.dn 0) cand (alignOf al) x) (h0 : k.code = 0) (hs : t.sat = false) (hg : t.gov = false) :
    SvcDoes (.dpdCommit e c) 0x06 c e t s 0 [.dpd] [(Rg.C_DPD_COMMIT (t.dn 0 / 32)).off] fun u r =>
      u.dn 1 = 0 ∧ (r.dpdOf (t.dn 0)).idle.state = 1 ∧ (r.dpdOf (t.dn 0)).idle.coef = cand ∧
      (r.dpdOf (t.dn 0)).serving = (s.dpdOf (t.dn 0)).serving ∧ (r.dpdOf (t.dn 0)).swapAt = some (s.nextSwap 50) ∧
      (∀ q, q ≠ t.dn 0 → r.dpdOf q = s.dpdOf q) := by
  refine dpdCommit_judged hp hb hal hx hready hcand hk h0 (by decide)
    (only_commitDpd_accepted _ _ _ _ _ _ h0 hs hg) fun r hr => ?_
  have hd (q : Nat) := (State.dpdOf_congr (hr .dpd (by decide)).1 q).trans (State.commitDpd_accepted_dpdOf _ _ _ _ _ _ h0 hs hg q)
  have hself := (hd (t.dn 0)).trans (if_pos rfl)
  rw [State.dpdOf_mapDpd_same] at hself
  rw [hself, DpdPath.pending_idle, DpdPath.pending_serving, DpdPath.judged_serving]
  exact ⟨rfl, rfl, DpdPath.alignedTo_serving _ _, rfl, fun q hq => (hd q).trans ((if_neg hq.symm).trans ((State.dpdOf_mapDpd _ _ _ _).trans (if_neg hq.symm)))⟩

/-- DPD_COMMIT of a candidate that is no better than the bank in service (R230). -/
theorem dpdCommit_noChange (hp : t.dn 0 < 64) (hb : s.readXY e.val t false (t.dn 1) 416 = some b)
    (hal : s.readXY e.val t false (t.dn 2) 8 = some al) (hx : (s.dpdOf (t.dn 0)).record = some x)
    (hready : s.AwaitsCommit e.val (t.dn 0)) (hcand : cand = s.candidate (t.dn 0) (cplxOfBytes b))
    (hk : k = s.decide60 (t.dn 0) cand (alignOf al) x) (h5 : k.code = 5) :
    SvcDoes (.dpdCommit e c) 0x06 c e t s 0 [.dpd] [(Rg.C_DPD_NOCHANGE (t.dn 0 / 32)).off] fun u r =>
      u.dn 1 = 5 ∧ (r.dpdOf (t.dn 0)).idle = (s.dpdOf (t.dn 0)).idle ∧
      (r.dpdOf (t.dn 0)).serving = (s.dpdOf (t.dn 0)).serving := by
  refine dpdCommit_judged hp hb hal hx hready hcand hk h5 (by decide)
    (only_commitDpd_close _ _ _ _ _ _ h5) fun r hr => ?_
  rw [(State.dpdOf_congr (hr .dpd (by decide)).1 _).trans (State.commitDpd_close_dpdOf _ _ _ _ _ _ h5), State.dpdOf_mapDpd_same,
    DpdPath.judged_idle, DpdPath.judged_serving]
  exact ⟨DpdPath.alignedTo_idle _ _, DpdPath.alignedTo_serving _ _⟩

end

end Sys2Proof.Machine
end

section
/-! SUPPORT. The solver's calls (R199, R201, R202). -/

namespace Sys2Proof.Machine

/-! ## The weights of a group in the bank -/

/-- Where a group's weight stands: layer-major in what is put, by layer, group and path in the bank. -/
noncomputable def putKey (np g i : Nat) : Nat := (i / np * 69 + g) * 64 + i % np

/-- A quotient and a remainder are determined by the number. -/
theorem mul_add_unique {m a b x y : Nat} (hx : x < m) (hy : y < m) (h : m * a + x = m * b + y) : a = b ∧ x = y := by
  have hm : 0 < m := Nat.zero_lt_of_lt hx
  have hdiv : (m * a + x) / m = (m * b + y) / m := congrArg (· / m) h
  rw [Nat.mul_add_div hm, Nat.mul_add_div hm, Nat.div_eq_of_lt hx, Nat.div_eq_of_lt hy] at hdiv
  obtain rfl : a = b := hdiv
  exact ⟨rfl, Nat.add_left_cancel h⟩

theorem putKey_injective {np : Nat} (h : np ≤ 64) (g : Nat) : Function.Injective (putKey np g) := by
  intro i j hij
  obtain rfl | hn := Nat.eq_zero_or_pos np
  · simpa [putKey] using hij
  · rw [putKey, putKey, Nat.mul_comm _ 64, Nat.mul_comm _ 64] at hij
    obtain ⟨hgroup, hmod⟩ := mul_add_unique ((Nat.mod_lt i hn).trans_le h) ((Nat.mod_lt j hn).trans_le h) hij
    have hdiv := Nat.eq_of_mul_eq_mul_right (by decide) (Nat.add_right_cancel hgroup)
    rw [← Nat.div_add_mod i np, ← Nat.div_add_mod j np, hdiv, hmod]

theorem State.pathCount_le (s : State) : s.pathCount ≤ 64 := by
  unfold State.pathCount
  split <;> decide

/-- A group's weights written to a bank; paths left out of the solve have zero weights (R199). -/
noncomputable def putWeights (paths : List Nat) (np g : Nat) (w : List Cplx) (m : Tbl Cplx) : Tbl Cplx :=
  w.zipIdx.foldl (fun m (z, i) =>
    tset (fun _ => Cplx.zero) m ((i / np * 69 + g) * 64 + i % np) (if paths.contains (i % np) then z else Cplx.zero)) m

section
variable {α : Type} [DecidableEq α] (d : Nat → α) {key : Nat → Nat} (hkey : Function.Injective key) (v : α → Nat → α)
include hkey

theorem tget_foldl_tset_before (w : List α) (m : Tbl α) {n j : Nat} (hj : j < n) :
    tget d ((w.zipIdx n).foldl (fun m x => tset d m (key x.2) (v x.1 x.2)) m) (key j) = tget d m (key j) := by
  induction w generalizing n m with
  | nil => rfl
  | cons z w ih =>
    rw [List.zipIdx_cons, List.foldl_cons, ih _ (Nat.lt_succ_of_lt hj), tget_tset_ne _ _ _ fun h => hj.ne' (hkey h)]

/-- Entries written one after the other at keys of their own all stand. -/
theorem tget_foldl_tset (w : List α) (m : Tbl α) (n i : Nat) (hi : i < w.length) :
    tget d ((w.zipIdx n).foldl (fun m x => tset d m (key x.2) (v x.1 x.2)) m) (key (n + i)) = v w[i] (n + i) := by
  induction w generalizing n m i with
  | nil => exact absurd hi (Nat.not_lt_zero _)
  | cons z w ih =>
    rw [List.zipIdx_cons, List.foldl_cons]
    cases i with
    | zero => exact (tget_foldl_tset_before d hkey v _ _ (Nat.lt_succ_self _)).trans (tget_tset_same _ _ _ _)
    | succ i => simpa only [Nat.add_assoc, Nat.add_comm 1, List.getElem_cons_succ]
        using ih (tset d m (key n) (v z n)) (n + 1) i (Nat.lt_of_succ_lt_succ hi)

end

theorem tget_putWeights {np : Nat} (h : np ≤ 64) (paths : List Nat) (g : Nat) (w : List Cplx) (m : Tbl Cplx) {i : Nat}
    (hi : i < w.length) (hp : paths.contains (i % np) = true) :
    tget (fun _ => Cplx.zero) (putWeights paths np g w m) ((i / np * 69 + g) * 64 + i % np) = nth w i Cplx.zero := by
  have hw := tget_foldl_tset (fun _ => Cplx.zero) (putKey_injective h g)
    (fun z i => if paths.contains (i % np) then z else Cplx.zero) w m 0 i hi
  rw [Nat.zero_add, if_pos hp] at hw
  exact hw.trans (by rw [nth, List.getElem?_eq_getElem hi, Option.getD_some])

/-! ## The bank that a solve writes -/

@[simp] theorem State.solvSt_mapSolv_same (s : State) (f : Nat) (g : SolvSt → SolvSt) : (s.mapSolv f g).solvSt f = g (s.solvSt f) :=
  tget_tset_same _ _ _ _

theorem KeepsBut.solvSt {l : List Part} {s t : State} (h : KeepsBut l s t) (hl : Part.solver ∉ l) (f : Nat) :
    t.solvSt f = s.solvSt f := by
  obtain ⟨-, hsolv⟩ := h .solver hl
  rw [State.solvSt, hsolv, State.solvSt]

theorem State.writing_x {s : State} {f : Nat} (h : (s.solvSt f).x.state = 1) : s.writing f = some (s.solvSt f).x := if_pos h

theorem only_mapWriting (s : State) (f : Nat) (g : SolvBank → SolvBank) : Only [.solver] [] s (s.mapWriting f g) :=
  only_mapSolv _ _ _

theorem State.solvSt_mapWriting {s : State} {f : Nat} (h : (s.solvSt f).x.state = 1) (g : SolvBank → SolvBank) :
    (s.mapWriting f g).solvSt f = { s.solvSt f with x := g (s.solvSt f).x } :=
  (State.solvSt_mapSolv_same _ _ _).trans (if_pos h)

/-- The bank with a group's weights put by an engine (R199). -/
noncomputable def SolvBank.put (b : SolvBank) (paths : List Nat) (np e g : Nat) (t : EngTask) (w : List Cplx) (ill : Bool) : SolvBank :=
  { b with w := putWeights paths np g w b.w, sat := b.sat || t.sat, gov := b.gov || t.gov
           puts := (e, g) :: b.puts.filter fun x => !(x.2 == g)
           ill := if ill then g :: b.ill.filter fun x => !(x == g) else b.ill }

/-- The state in which an engine has put a group: the weights for the other half's paths are to cross (R35, R201). -/
noncomputable def State.putGroup (s : State) (e : Nat) (t : EngTask) (b : SolvBank) (w : List Cplx) (ill : Bool) : State :=
  let f := t.desc.subject
  let u := s.mapWriting f fun x => x.put b.paths s.pathCount e (t.dn 0) t w ill
  let v := if ill then u.bump (Rg.C_ILL_GROUP (u.flow f).half) 1 else u
  let h := (v.flow f).half
  v.d2dPush h (.weights f) (32 * b.k * ((List.range s.pathCount).filter fun p => !(p / 32 == h)).length)

section
variable {s : State} {t : EngTask} {e : Nat} {b : SolvBank} {w : List Cplx} {ill : Bool}

theorem State.putGroup_solvSt (hx : (s.solvSt t.desc.subject).x.state = 1) : (s.putGroup e t b w ill).solvSt t.desc.subject =
    { s.solvSt t.desc.subject with
      x := (s.solvSt t.desc.subject).x.put b.paths s.pathCount e (t.dn 0) t w ill } := by
  unfold State.putGroup
  extract_lets f u v h
  have hu : u.solvSt f = { s.solvSt f with x := (s.solvSt f).x.put b.paths s.pathCount e (t.dn 0) t w ill } :=
    State.solvSt_mapWriting hx _
  have hv : v.solvSt f = u.solvSt f := (Only.ite (m := [(Rg.C_ILL_GROUP (u.flow f).half).off]) _
    (fun _ => only_bump _ _ _) fun _ => Only.refl _ _ _).1.solvSt (by decide) f
  exact ((only_d2dPush _ _ _ _).1.solvSt (by decide) f).trans (hv.trans hu)

theorem only_putGroup :
    Only [.solver, .d2d] [(Rg.C_ILL_GROUP (s.flow t.desc.subject).half).off] s (s.putGroup e t b w ill) := by
  unfold State.putGroup
  extract_lets f u v h
  have hu : Only [.solver] [] s u := only_mapWriting _ _ _
  have hv : Only [] [(Rg.C_ILL_GROUP (s.flow f).half).off] u v :=
    Only.ite _ (fun _ => (only_bump u (Rg.C_ILL_GROUP (u.flow f).half) 1)) fun _ => Only.refl _ _ _
  exact ((hu.mono (by simp) (List.nil_subset _)).trans (hv.mono (List.nil_subset _) (List.Subset.refl _))).trans
    ((only_d2dPush _ _ _ _).mono (by simp) (List.nil_subset _))

end

section
variable {e : UnitNo} {c : Ctl} {ill : Bool} {t : EngTask} {s : State}

theorem solverPut_noBank (h : s.writing t.desc.subject = none) : SvcDoes (.solverPut e c ill) 0x07 c e t s 3 [] [] fun _ _ => True :=
  svcDoes_refused rfl (by decide) (by simp only [h])

theorem solverCommit_noBank (h : s.writing t.desc.subject = none) : SvcDoes (.solverCommit e c) 0x08 c e t s 3 [] [] fun _ _ => True :=
  svcDoes_refused rfl (by decide) (by simp only [h])

/-- SOLVER_PUT of a group that is not the engine's share is refused (R199). -/
theorem solverPut_notMine {b : SolvBank} (hb : s.writing t.desc.subject = some b) (hg : t.dn 0 < b.ng)
    (hput : b.mayPut e.val (t.dn 0) = false) (hwin : t.dn 1 + 4 * b.k * s.pathCount ≤ s.winSize e.val t false) :
    SvcDoes (.solverPut e c ill) 0x07 c e t s 3 [] [] fun _ _ => True :=
  svcDoes_refused rfl (by decide)
    (by simp only [hb, State.readXY, if_pos hwin, if_neg (Nat.not_le.mpr hg), hput, Bool.not_false, if_true])

/-- SOLVER_PUT of a group of the engine's share (R199). -/
theorem solverPut_puts {l : List Byte} (hx : (s.solvSt t.desc.subject).x.state = 1) (hg : t.dn 0 < (s.solvSt t.desc.subject).x.ng)
    (hput : (s.solvSt t.desc.subject).x.mayPut e.val (t.dn 0) = true) (hs : t.sat = false) (hgov : t.gov = false)
    (hl : s.readXY e.val t false (t.dn 1) (4 * (s.solvSt t.desc.subject).x.k * s.pathCount) = some l) :
    SvcDoes (.solverPut e c ill) 0x07 c e t s 0 [.solver, .d2d] [(Rg.C_ILL_GROUP (s.flow t.desc.subject).half).off] fun _ r =>
      let b := (s.solvSt t.desc.subject).x
      let w := if t.slot.isNone then (b.solved (t.dn 0) s.pathCount).1 else cplxOfBytes l
      (r.solvSt t.desc.subject).x.state = 1 ∧ (r.solvSt t.desc.subject).y = (s.solvSt t.desc.subject).y ∧
      (∀ i < w.length, b.paths.contains (i % s.pathCount) = true →
        tget (fun _ => Cplx.zero) (r.solvSt t.desc.subject).x.w
          ((i / s.pathCount * 69 + t.dn 0) * 64 + i % s.pathCount) = nth w i Cplx.zero) := by
  obtain ⟨w, il, hwi⟩ : ∃ w il, (if t.slot.isNone then (s.solvSt t.desc.subject).x.solved (t.dn 0) s.pathCount
    else (cplxOfBytes l, ill)) = (w, il) := ⟨_, _, rfl⟩
  have hw : (if t.slot.isNone then ((s.solvSt t.desc.subject).x.solved (t.dn 0) s.pathCount).1 else cplxOfBytes l) = w :=
    (apply_ite Prod.fst _ _ _).symm.trans (congrArg Prod.fst hwi)
  refine svcDoes_of rfl (by decide) fun hpl =>
    ⟨t, s.putGroup e.val t (s.solvSt t.desc.subject).x w il, ?_, hpl.callKeeps, only_putGroup, fun r hr => ?_⟩
  · simp only [State.writing_x hx, hl, if_neg (Nat.not_le.mpr hg), hput, hwi, State.govCommit_clean hs hgov, Bool.not_true,
      Bool.false_eq_true, if_false]
    cases il <;> rfl
  · have hr' : r.solvSt t.desc.subject = _ := (hr.solvSt (by decide) _).trans (State.putGroup_solvSt hx)
    rw [hr']
    dsimp only
    rw [hw]
    exact ⟨hx, rfl, fun i hi hp => tget_putWeights s.pathCount_le _ _ _ _ hi hp⟩

/-- The bank once an engine has marked its share complete (R201). -/
noncomputable def SolvBank.markedBy (b : SolvBank) (e : Nat) (t : EngTask) : SolvBank :=
  { b with engines := b.engines.filter fun n => !(n == e), sat := b.sat || t.sat, gov := b.gov || t.gov }

theorem SolvBank.markedBy_engines {b : SolvBank} {e : Nat} (h : b.engines = [e]) (t : EngTask) : (b.markedBy e t).engines = [] := by
  rw [SolvBank.markedBy, h, List.filter_cons_of_neg (by simp), List.filter_nil]

theorem SolvBank.markedBy_gov {b : SolvBank} {t : EngTask} (h : b.gov = false) (ht : t.gov = false) (e : Nat) :
    (b.markedBy e t).gov = false := by
  rw [SolvBank.markedBy, h, ht, Bool.or_self]

/-- The first slot boundary of a flow's carrier at least 150 µs on (R202). -/
noncomputable def State.solveBoundary (s : State) (f : Nat) : Nat :=
  nextSlot (s.ul (s.flow f).carrier).scs (s.time.count + usTicks 150)

theorem State.solveBoundary_solv (s : State) (v : Tbl SolvSt) (f : Nat) : { s with solv := v }.solveBoundary f = s.solveBoundary f := rfl

theorem State.flow_solv (s : State) (v : Tbl SolvSt) (f : Nat) : { s with solv := v }.flow f = s.flow f := rfl

theorem State.solveBoundary_mapWriting (s : State) (f k : Nat) (g : SolvBank → SolvBank) :
    (s.mapWriting f g).solveBoundary k = s.solveBoundary k := State.solveBoundary_solv _ _ _

theorem State.flow_mapWriting (s : State) (f k : Nat) (g : SolvBank → SolvBank) : (s.mapWriting f g).flow k = s.flow k :=
  State.flow_solv _ _ _

/-- The state in which a solve whose weights have all crossed is PENDING (R201, R202). -/
noncomputable def State.solvePending (s : State) (f : Nat) : State :=
  ((s.mapWriting f fun b =>
      { b with state := 2, effectAt := s.solveBoundary f }).bump
    (Rg.C_SOLVE_DONE (s.flow f).half) 1).mapSolv f fun v => { v with out := true }

theorem State.solverCommits_last {f : Nat} (hx : (s.solvSt f).x.state = 1) (he : (s.solvSt f).x.engines = [])
    (hd : s.d2dHas (s.flow f).half (.weights f) = false) (hg : (s.solvSt f).x.gov = false) :
    s.solverCommits f = s.solvePending f := by
  unfold State.solverCommits
  simp only [State.writing_x hx, he, hd, hg, ne_eq, not_true_eq_false, Bool.false_eq_true, or_self, if_false]
  rfl

theorem State.solvePending_solvSt {f : Nat} (hx : (s.solvSt f).x.state = 1) : (s.solvePending f).solvSt f =
    { s.solvSt f with
      x := { (s.solvSt f).x with state := 2, effectAt := s.solveBoundary f }, out := true } := by
  unfold State.solvePending
  rw [State.solvSt_mapSolv_same, (only_bump _ _ _).1.solvSt (by decide), State.solvSt_mapWriting hx]

theorem only_solvePending (f : Nat) : Only [.solver] [(Rg.C_SOLVE_DONE (s.flow f).half).off] s (s.solvePending f) := by
  have held (u : State) (g : SolvSt → SolvSt) (o : Nat) : Only [.solver] [o] u (u.mapSolv f g) :=
    (only_mapSolv u f g).mono (List.Subset.refl _) (List.nil_subset _)
  exact ((held s _ _).trans ((only_bump _ _ _).mono (List.nil_subset _) (List.Subset.refl _))).trans (held _ _ _)

/-- SOLVER_COMMIT of the solve's last engine, all weights having crossed (R201, R202). -/
theorem solverCommit_last (hx : (s.solvSt t.desc.subject).x.state = 1) (he : (s.solvSt t.desc.subject).x.engines = [e.val])
    (hg : (s.solvSt t.desc.subject).x.gov = false) (hs : t.sat = false) (hgov : t.gov = false)
    (hd : s.d2dHas (s.flow t.desc.subject).half (.weights t.desc.subject) = false) :
    SvcDoes (.solverCommit e c) 0x08 c e t s 0 [.solver] [(Rg.C_SOLVE_DONE (s.flow t.desc.subject).half).off] fun _ r =>
      (r.solvSt t.desc.subject).x.state = 2 ∧ (r.solvSt t.desc.subject).x.effectAt =
        nextSlot (s.ul (s.flow t.desc.subject).carrier).scs (s.time.count + usTicks 150) ∧
      (r.solvSt t.desc.subject).out = true ∧ (r.solvSt t.desc.subject).x.w = (s.solvSt t.desc.subject).x.w := by
  obtain ⟨u, hudef⟩ : ∃ u, u = s.mapWriting t.desc.subject fun b => b.markedBy e.val t := ⟨_, rfl⟩
  have hu : u.solvSt t.desc.subject = _ := hudef ▸ State.solvSt_mapWriting hx _
  have hux : (u.solvSt t.desc.subject).x.state = 1 := hu ▸ hx
  have hlast : u.solverCommits t.desc.subject = u.solvePending t.desc.subject :=
    State.solverCommits_last hux (hu ▸ SolvBank.markedBy_engines he t) (hudef ▸ hd) (hu ▸ SolvBank.markedBy_gov hg hgov _)
  refine svcDoes_of rfl (by decide) fun hpl => ⟨t, u.solvePending t.desc.subject, ?_, hpl.callKeeps, ?_, fun r hr => ?_⟩
  · have hin : (s.solvSt t.desc.subject).x.engines.contains e.val = true := by rw [he]; exact List.elem_cons_self
    simp only [State.writing_x hx, hin, State.govCommit_clean hs hgov, if_true]
    rw [← hlast, hudef]
    rfl
  · have hpending := only_solvePending (s := u) t.desc.subject
    rw [hudef, State.flow_mapWriting, ← hudef] at hpending
    exact (hudef ▸ (only_mapWriting s _ _).mono (List.Subset.refl _) (List.nil_subset _)).trans hpending
  · rw [(hr.solvSt (by decide) _).trans (State.solvePending_solvSt hux), hu, hudef, State.solveBoundary_mapWriting]
    exact ⟨rfl, rfl, rfl, rfl⟩

end

end Sys2Proof.Machine
end

section
/-! SUPPORT. Crest-factor pulses (R219) and return loss (R309) put by an engine. -/

namespace Sys2Proof.Machine

/-- A pulse that waits (R219). -/
noncomputable def DpdPath.pulsed (d : DpdPath) (pulse : List Cplx) : DpdPath := { d with newPulse := some pulse }

theorem DpdPath.pulsed_pulsed (d : DpdPath) (pulse : List Cplx) : (d.pulsed pulse).pulsed pulse = d.pulsed pulse := rfl

/-- The state in which the paths of a half at some positions have a new pulse. -/
noncomputable def State.putPulse (s : State) (h : Nat) (l : List Nat) (pulse : List Cplx) : State :=
  l.foldl (fun s i => s.mapDpd (32 * h + i) fun d => d.pulsed pulse) s

theorem only_putPulse (s : State) (h : Nat) (l : List Nat) (pulse : List Cplx) : Only [.dpd] [] s (s.putPulse h l pulse) :=
  Only.foldl _ (fun _ _ => only_mapDpd _ _ _) l s

theorem State.putPulse_dpdOf (s : State) (h : Nat) (l : List Nat) (pulse : List Cplx) (p : Nat) :
    (s.putPulse h l pulse).dpdOf p = if ∃ i ∈ l, 32 * h + i = p then (s.dpdOf p).pulsed pulse else s.dpdOf p := by
  induction l generalizing s with
  | nil => exact (if_neg fun ⟨_, hi, _⟩ => List.not_mem_nil hi).symm
  | cons i l ih =>
    have step : (s.putPulse h (i :: l) pulse).dpdOf p = _ := ih (s.mapDpd (32 * h + i) fun d => d.pulsed pulse)
    rw [step, State.dpdOf_mapDpd, if_congr (List.exists_mem_cons_iff (fun j => 32 * h + j = p) i l) rfl rfl]
    by_cases hi : 32 * h + i = p
    · rw [if_pos hi, if_pos (Or.inl hi), hi, DpdPath.pulsed_pulsed, ite_self]
    · rw [if_neg hi, if_congr (or_iff_right hi) rfl rfl]

/-- The paths of a mask. -/
theorem mem_masked {m i : Nat} : (i ∈ (List.range 32).filter fun i => m / 2 ^ i % 2 == 1) ↔ i < 32 ∧ m / 2 ^ i % 2 = 1 := by
  rw [List.mem_filter, List.mem_range, beq_iff_eq]

section
variable {e : UnitNo} {c : Ctl} {t : EngTask} {s : State}

/-- PULSE_PUT (R219). -/
theorem pulsePut_puts (pulse : List Cplx) (hwin : t.dn 1 ≤ s.winSize e.val t false) (hs : t.sat = false) (hg : t.gov = false) :
    SvcDoes (.pulsePut e c pulse) 0x0C c e t s 0 [.dpd] [] fun _ r =>
      ∀ h < 2, ∀ i < 32, (r.dpdOf (32 * h + i)).newPulse =
        (if h = e.val / 5 ∧ t.dn 0 / 2 ^ i % 2 = 1 then some ((pulse.take 255).map (satC 18)) else (s.dpdOf (32 * h + i)).newPulse) ∧
        (r.dpdOf (32 * h + i)).pulse = (s.dpdOf (32 * h + i)).pulse := by
  let w := s.putPulse (e.val / 5) ((List.range 32).filter fun i => t.dn 0 / 2 ^ i % 2 == 1) ((pulse.take 255).map (satC 18))
  refine svcDoes_of rfl (by decide) fun hpl => ⟨t, w, ?_, hpl.callKeeps, only_putPulse _ _ _ _, fun r hr h _ i hi => ?_⟩
  · exact (if_neg (Nat.not_lt.mpr hwin)).trans (congrArg (fun u => (0, t, u)) (State.govCommit_clean hs hg w e.val))
  · have hmem : (∃ j ∈ (List.range 32).filter fun i => t.dn 0 / 2 ^ i % 2 == 1, 32 * (e.val / 5) + j = 32 * h + i) ↔
        h = e.val / 5 ∧ t.dn 0 / 2 ^ i % 2 = 1 := by
      constructor
      · rintro ⟨j, hj, hp⟩
        obtain ⟨hj32, hbit⟩ := mem_masked.mp hj
        obtain ⟨rfl, rfl⟩ := mul_add_unique hj32 hi hp
        exact ⟨rfl, hbit⟩
      · rintro ⟨rfl, hbit⟩
        exact ⟨i, mem_masked.mpr ⟨hi, hbit⟩, rfl⟩
    rw [State.dpdOf_congr (hr .dpd (by decide)).1, State.putPulse_dpdOf, ← if_congr hmem rfl rfl]
    split <;> exact ⟨rfl, rfl⟩

/-- RL_PUT for a path out of service or of the other half is refused (R328). -/
theorem rlPut_refused (hp : t.dn 0 < 64) (h : s.pathIn (t.dn 0) = false ∨ ownPath e.val (t.dn 0) = false) :
    SvcDoes (.rlPut e c) 0x0D c e t s 3 [] [] fun _ _ => True :=
  svcDoes_refused rfl (by decide) ((if_neg (Nat.not_le.mpr hp)).trans (if_pos (notServed h)))

/-- A return loss is recorded (R309). -/
noncomputable def FePath.lossKnown (f : FePath) (rl : Int) : FePath := { f with rl := some rl, mmDue := false }

/-- A return loss that is not low (R309). -/
noncomputable def FePath.lossFine (f : FePath) : FePath := { f with lowRun := 0 }

theorem State.fep_mapFe_same (s : State) (p : Nat) (f : FePath → FePath) : (s.mapFe p f).fep p = f (s.fep p) :=
  tget_tset_same _ _ _ _

theorem State.returnLoss_fine (s : State) (p : Nat) {rl : Int} (hmin : (50 * s.f Rg.FE_CFG_RL_MIN : Int) ≤ rl)
    (htrip : (50 * s.f Rg.FE_CFG_RL_TRIP : Int) ≤ rl) :
    s.returnLoss p rl = (s.mapFe p fun f => f.lossKnown rl).mapFe p fun f => f.lossFine := by
  unfold State.returnLoss
  extract_lets h u v
  have hv : v = u := if_neg (Int.not_lt.mpr hmin)
  rw [hv]
  exact if_neg (Int.not_lt.mpr htrip)

/-- RL_PUT of a return loss that is not low (R309). -/
theorem rlPut_puts (hp : t.dn 0 < 64) (hin : s.pathIn (t.dn 0) = true) (hown : ownPath e.val (t.dn 0) = true)
    (hs : t.sat = false) (hg : t.gov = false) {rl : Int}
    (hrl : rl = if t.slot.isNone then (s.fep (t.dn 0)).rlMeas.getD (t.dr 1).toInt else (t.dr 1).toInt)
    (hmin : (50 * s.f Rg.FE_CFG_RL_MIN : Int) ≤ rl) (htrip : (50 * s.f Rg.FE_CFG_RL_TRIP : Int) ≤ rl) :
    SvcDoes (.rlPut e c) 0x0D c e t s 0 [.frontEnd] [] fun _ r =>
      (r.fep (t.dn 0)).rl = some rl ∧ (r.fep (t.dn 0)).mmDue = false ∧ (r.fep (t.dn 0)).lowRun = 0 ∧
      (r.fep (t.dn 0)).state = (s.fep (t.dn 0)).state := by
  let u := s.mapFe (t.dn 0) fun f => f.lossKnown rl
  let w := u.mapFe (t.dn 0) fun f => f.lossFine
  have hw : s.returnLoss (t.dn 0) rl = w := State.returnLoss_fine s _ hmin htrip
  refine svcDoes_of rfl (by decide) fun hpl =>
    ⟨t, w, ?_, hpl.callKeeps, (only_mapFe _ _ _).trans (only_mapFe _ _ _), fun r hr => ?_⟩
  · refine (if_neg (Nat.not_le.mpr hp)).trans ((if_neg (served hin hown)).trans (congrArg (fun u => (0, t, u)) ?_))
    rw [← hrl, hw, State.govCommit_clean hs hg]
  · obtain ⟨hfe, -⟩ := hr .frontEnd (by decide)
    have hr' : r.fep (t.dn 0) = ((s.fep (t.dn 0)).lossKnown rl).lossFine := by
      rw [State.fep, hfe, ← State.fep, State.fep_mapFe_same, State.fep_mapFe_same]
    rw [hr']
    exact ⟨rfl, rfl, rfl, rfl⟩

end

end Sys2Proof.Machine
end

section
/-! SUPPORT. A path that retires keeps the corrections of all paths (R249, R492). -/

namespace Sys2Proof.Machine

/-- The corrections in effect on the paths' transmit gain and on their receive sides stay. -/
structure KeepsCorrections (s t : State) : Prop where
  gain : ∀ p, (t.tx p).gain = (s.tx p).gain
  rxp : t.rxp = s.rxp

namespace KeepsCorrections

variable {s t u : State}

theorem refl (s : State) : KeepsCorrections s s := ⟨fun _ => rfl, rfl⟩

theorem trans (a : KeepsCorrections s t) (b : KeepsCorrections t u) : KeepsCorrections s u :=
  ⟨fun p => (b.gain p).trans (a.gain p), b.rxp.trans a.rxp⟩

theorem of_eq (htx : t.txp = s.txp) (hrx : t.rxp = s.rxp) : KeepsCorrections s t :=
  ⟨fun p => congrArg TxPath.gain (State.tx_congr htx p), hrx⟩

theorem of_only {l : List Part} {m : List Nat} (h : Only l m s t) (hl : Part.transmit ∉ l ∧ Part.receive ∉ l := by decide) :
    KeepsCorrections s t := of_eq (h.1 .transmit hl.1) (h.1 .receive hl.2).2

theorem ite (c : Prop) [Decidable c] (a : KeepsCorrections s t) (b : KeepsCorrections s u) :
    KeepsCorrections s (if c then t else u) := by
  split <;> assumption

theorem foldl {α : Type} (f : State → α → State) (hf : ∀ t x, KeepsCorrections t (f t x)) (l : List α) (s : State) :
    KeepsCorrections s (l.foldl f s) :=
  List.foldlRecOn _ _ (refl s) fun t ht x _ => ht.trans (hf t x)

theorem mapTx (s : State) (p : Nat) (f : TxPath → TxPath) (hf : ∀ x, (f x).gain = x.gain) :
    KeepsCorrections s (s.mapTx p f) := by
  refine ⟨fun q => ?_, rfl⟩
  rw [show (s.mapTx p f).tx q = if p = q then f (s.tx p) else s.tx q from tget_tset _ _ _ _ _]
  split
  next h => rw [hf, h]
  next => rfl

theorem biasSelect (s : State) (p : Nat) (tx : Bool) : KeepsCorrections s (s.biasSelect p tx) := by
  unfold State.biasSelect
  refine trans ?_ (foldl _ (fun _ _ => ?_) _ _)
  · exact of_eq rfl rfl
  · exact of_eq rfl rfl

theorem driveLine (s : State) (p which : Nat) (old new : Bool) (pol : Fld) : KeepsCorrections s (s.driveLine p which old new pol) :=
  ite _ (of_eq rfl rfl) (refl s)

theorem feTo (s : State) (p st : Nat) : KeepsCorrections s (s.feTo p st) := by
  unfold State.feTo
  rcases s.feLevels p (s.fep p).state with ⟨t0, r0, b0⟩
  rcases s.feLevels p st with ⟨t1, r1, b1⟩
  have lines (u : State) : KeepsCorrections u (((u.driveLine p 0 t0 t1 Rg.FE_CFG_TXEN_POL).driveLine p 1 r0 r1
      Rg.FE_CFG_RXEN_POL).driveLine p 2 b0 b1 Rg.FE_CFG_BYP_POL) :=
    ((driveLine u _ _ _ _ _).trans (driveLine _ _ _ _ _ _)).trans (driveLine _ _ _ _ _ _)
  have bias (u : State) (tx : Bool) (due : Nat) (c : Prop) [Decidable c] :
      KeepsCorrections u (if c then u.biasSelect p tx else u.feAt p 9 due) := ite _ (biasSelect _ _ _) (of_eq rfl rfl)
  have moved (u : State) (f : FePath → FePath) : KeepsCorrections u (u.mapFe p f) := of_only (only_mapFe _ _ _)
  have begun := ite (t1 && !t0) (biasSelect s p true) (refl s)
  exact ite _ (((begun.trans (lines _)).trans (moved _ _)).trans (bias _ _ _ _)) ((begun.trans (lines _)).trans (moved _ _))

theorem setF (s : State) (x : Fld) (v : Nat) : KeepsCorrections s (s.setF x v) := of_only (only_setF s x v)

theorem setCap (s : State) (c v : Nat) : KeepsCorrections s (s.setCap c v) := by
  unfold State.setCap
  extract_lets now u old w
  have hu : KeepsCorrections s u := ite _ (of_eq rfl rfl) (refl s)
  have hw : KeepsCorrections s w := hu.trans (setF _ _ _)
  clear_value w
  exact (hw.trans (setF _ _ _)).trans (setF _ _ _)

theorem capIdle (s : State) (c : Nat) : KeepsCorrections s (s.capIdle c) := by
  unfold State.capIdle
  refine trans ?_ (setCap _ _ _)
  exact of_eq rfl rfl

theorem capPathOut (s : State) (p : Nat) : KeepsCorrections s (s.capPathOut p) := by
  refine foldl _ (fun t c => ?_) _ _
  cases (t.capOf c).cur with
  | none => exact refl t
  | some r => exact ite _ (refl t) (ite _ (of_eq rfl rfl) (ite _ (of_eq rfl rfl) (capIdle t c)))

theorem raise (s : State) (h c b : Nat) (l : List Nat) : KeepsCorrections s (s.raise h c b l) := of_only (only_raise s h c b l)

theorem request (s : State) (reason half row : Nat) : KeepsCorrections s (s.request reason half row) :=
  of_only (only_request s reason half row)

theorem evalRel (s : State) : KeepsCorrections s s.evalRel := of_only (only_evalRel s)

/-- A path that retires keeps the corrections of all paths. -/
theorem retirePath (s : State) (p cause : Nat) : KeepsCorrections s (s.retirePath p cause) := by
  have off (u : State) (n : Nat) : KeepsCorrections u ((u.setF Rg.REL_STAT_RETIRED n).mapTx p fun t =>
      { t with state := 0, buf := [], next := none, mute := false }) := (setF _ _ _).trans (mapTx _ _ _ fun _ => rfl)
  have out (u : State) : KeepsCorrections u ((u.feTo p 6).capPathOut p) := (feTo _ _ _).trans (capPathOut _ _)
  have parked (u : State) (l : List Nat) : KeepsCorrections u
      (l.foldl (fun s n => s.mapBias n fun b => b.stop (if b.state = 0 then 0 else 4) 0) u) := by
    refine foldl _ (fun _ _ => ?_) _ _
    exact of_eq rfl rfl
  have told (u : State) : KeepsCorrections u ((u.raise (p / 32) Ev.PATH_RETIRED p [cause]).logFault 11 p).evalRel :=
    ((raise _ _ _ _ _).trans (of_only (only_logFault _ _ _))).trans (evalRel _)
  have counted (u : State) (c : Prop) [Decidable c] (reason half row : Nat) :
      KeepsCorrections u (if c then u.request reason half row else u) := ite _ (request _ _ _ _) (refl _)
  unfold State.retirePath
  refine ite _ (refl s) (.trans ?_ (counted _ _ _ _ _))
  refine .trans ?_ (told _)
  refine .trans ?_ (parked _ _)
  refine .trans ?_ (out _)
  exact .trans (of_only (only_mapRel _ _)) (off _ _)

theorem evalReady (s : State) (g : Nat) : KeepsCorrections s (s.evalReady g) := by
  have lost (u : State) (c : Prop) [Decidable c] : KeepsCorrections u
      (if c then (groupPaths g).foldl (fun s p => s.retirePath p 7) u else u) :=
    ite _ (foldl _ (fun _ _ => retirePath _ _ _) _ _) (refl _)
  unfold State.evalReady
  extract_lets r gone u v
  have hv : KeepsCorrections s v := (setF _ _ _).trans (lost _ _)
  clear_value v
  cases v.loOf g with
  | none => exact hv
  | some n => exact hv.trans (setF _ _ _)

theorem updGroup (s : State) (g : Nat) (f : GroupSt → GroupSt) : KeepsCorrections s (s.updGroup g f) :=
  (of_only (only_mapGroup _ _ _)).trans (evalReady _ _)

end KeepsCorrections

/-! ## Values that wait for their boundary (R248) -/

@[simp] theorem State.calOf_mapCal_same (s : State) (p : Nat) (f : CalPath → CalPath) : (s.mapCal p f).calOf p = f (s.calOf p) :=
  tget_tset_same _ _ _ _

theorem State.pendCal_pend (s : State) (p : Nat) (v : CalVal) (at_ : Option Nat) : ((s.pendCal p v at_).calOf p).pend ≠ [] := by
  rw [State.pendCal, State.calOf_mapCal_same]
  exact List.append_ne_nil_of_right_ne_nil _ (List.cons_ne_nil _ _)

/-- A state's values of a path as they wait for their boundaries. -/
noncomputable def State.pendAll (s : State) (p : Nat) (l : List CalVal) : State := l.foldl (fun s v => s.pendCal p v (s.calBoundary v)) s

theorem State.pendAll_pend (s : State) (p : Nat) {l : List CalVal} (hl : l ≠ []) : ((s.pendAll p l).calOf p).pend ≠ [] := by
  obtain ⟨init, v, rfl⟩ := List.eq_nil_or_concat' l |>.resolve_left hl
  rw [State.pendAll, List.foldl_append]
  exact State.pendCal_pend _ _ _ _

theorem State.refreshRecip_pend {s : State} {p : Nat} (at_ : Option Nat) (h : (s.calOf p).pend ≠ []) :
    ((s.refreshRecip p at_).calOf p).pend ≠ [] := by
  unfold State.refreshRecip
  extract_lets c
  split
  · exact State.pendCal_pend _ _ _ _
  · exact h

namespace KeepsCorrections

theorem mapCal (s : State) (p : Nat) (f : CalPath → CalPath) : KeepsCorrections s (s.mapCal p f) := of_only (only_mapCal s p f)

theorem pendAll (s : State) (p : Nat) (l : List CalVal) : KeepsCorrections s (s.pendAll p l) :=
  foldl _ (fun _ _ => mapCal _ _ _) l s

theorem refreshRecip (s : State) (p : Nat) (at_ : Option Nat) : KeepsCorrections s (s.refreshRecip p at_) :=
  ite _ ((mapCal _ _ _).trans (mapCal _ _ _)) (refl s)

end KeepsCorrections

/-- A background update (R248) leaves the corrections in effect; its values wait. -/
theorem State.backgroundUpdate_waits (s : State) (p : Nat) (r : CalRes) :
    KeepsCorrections s (s.backgroundUpdate p r) ∧ ((s.backgroundUpdate p r).calOf p).pend ≠ [] := by
  have drift (u : State) (c : Prop) [Decidable c] : KeepsCorrections u (if c then
      (u.raise (p / 32) Ev.CAL_DRIFT p []).updGroup (p / 8) fun x => { x with drift := true } else u) :=
    .ite _ ((KeepsCorrections.raise _ _ _ _ _).trans (.updGroup _ _ _)) (.refl _)
  have clamped (c : Prop) [Decidable c] : KeepsCorrections s (if c then s.bump (Rg.C_STEP_CLAMP (p / 32)) 1 else s) :=
    .ite _ (.setF _ _ _) (.refl _)
  unfold State.backgroundUpdate
  extract_lets h sh g a d g' a' d' hit u run v w xr xt vals z
  have hu : KeepsCorrections s u := clamped _
  have hw : KeepsCorrections s w := (hu.trans (.mapCal _ _ _)).trans (drift _ _)
  have hvals : vals ≠ [] := by
    unfold vals
    split <;> exact List.cons_ne_nil _ _
  have hz : z = w.pendAll p (vals ++ r.vals.filter serviceVal) := rfl
  clear_value w vals
  rw [hz]
  exact ⟨(hw.trans (.pendAll _ _ _)).trans (.refreshRecip _ _ _),
    State.refreshRecip_pend _ (State.pendAll_pend _ _ (List.append_ne_nil_of_left_ne_nil hvals _))⟩

section
variable {e : UnitNo} {c : Ctl} {t : EngTask} {s : State} {x : CalRes}

/-- CAL_PUT for a path out of service or of the other half is refused (R328). -/
theorem calPut_refused (hp : t.dn 0 < 64) (hwin : t.dn 1 ≤ s.winSize e.val t false)
    (h : s.pathIn (t.dn 0) = false ∨ ownPath e.val (t.dn 0) = false) :
    SvcDoes (.calPut e c x) 0x09 c e t s 3 [] [] fun _ _ => True :=
  svcDoes_refused rfl (by decide)
    ((if_neg (not_or.mpr ⟨Nat.not_le.mpr hp, Nat.not_lt.mpr hwin⟩)).trans (if_pos (notServed h)))

/-- A result of a background measurement has been put (R248). -/
noncomputable def CalPath.taken (c : CalPath) (rx : Bool) : CalPath := if rx then { c with putRx := false } else { c with putTx := false }

theorem CalPath.taken_pend (c : CalPath) (rx : Bool) : (c.taken rx).pend = c.pend := by
  cases rx <;> rfl

theorem KeepsCorrections.govCommit (s : State) (e : Nat) (t : EngTask) : KeepsCorrections s (s.govCommit e t) :=
  ite _ (setF _ _ _) (refl s)

/-- Only the calibration part holds the values that wait. -/
theorem KeepsBut.calOf {l : List Part} {s t : State} (h : KeepsBut l s t) (hl : Part.calib ∉ l) (p : Nat)  :
    t.calOf p = s.calOf p := by
  obtain ⟨hcal, -⟩ := h .calib hl
  rw [State.calOf, hcal, State.calOf]

/-- The state of a result that has been put: its update waits (R248). -/
noncomputable def State.calTaken (s : State) (e p : Nat) (t : EngTask) (y : CalRes) : State :=
  ((s.backgroundUpdate p y).govCommit e t).mapCal p fun c => c.taken y.rx

theorem State.calTaken_waits (s : State) (e p : Nat) (t : EngTask) (y : CalRes) :
    KeepsCorrections s (s.calTaken e p t y) ∧ ((s.calTaken e p t y).calOf p).pend ≠ [] := by
  obtain ⟨hkeep, hpend⟩ := s.backgroundUpdate_waits p y
  have hgov : Only [] [(Rg.C_GOV_COMMITS (e / 5)).off] (s.backgroundUpdate p y) ((s.backgroundUpdate p y).govCommit e t) :=
    Only.ite _ (fun _ => only_bump _ _ _) fun _ => Only.refl _ _ _
  refine ⟨(hkeep.trans (.of_only hgov)).trans (.mapCal _ _ _), ?_⟩
  rw [State.calTaken, State.calOf_mapCal_same, CalPath.taken_pend, hgov.1.calOf (by decide)]
  exact hpend

/-- CAL_PUT of a good result: its values wait for their boundaries (R248, R249). -/
theorem calPut_waits {y : CalRes} (hp : t.dn 0 < 64) (hwin : t.dn 1 ≤ s.winSize e.val t false) (hin : s.pathIn (t.dn 0) = true)
    (hown : ownPath e.val (t.dn 0) = true) (hy : (if t.slot.isNone then s.vendorRes (t.dn 0) x else some x) = some y)
    (hbad : y.bad = 0) (hrun : (s.engOf e.val).run = some t) (hpl : t.Plain) (hc : c.cond.val = 0) (hd : s.Agrees e c.diff)
    (hperm : permitted t (s.slotService e.val t) 0x09 = true) (hpar : t.par = false) :
    Runs (.calPut e c x) s fun r => (∃ u, (r.engOf e.val).run = some u ∧ u.dn 0 = 0 ∧ u.pc = t.pc + 1) ∧
      (r.calOf (t.dn 0)).pend ≠ [] ∧ (r.tx (t.dn 0)).gain = (s.tx (t.dn 0)).gain ∧ r.rxp = s.rxp := by
  let w := s.calTaken e.val (t.dn 0) t y
  let u := t.setD 1 (BitVec.ofNat 32 w.freeNat.1)
  have hu : t.CallKeeps u := hpl.callKeeps_setD_one _
  obtain ⟨hkeep, hpend⟩ := s.calTaken_waits e.val (t.dn 0) t y
  have hdrawn := only_freeNat w
  have hset := only_setRun w.freeNat.2 e.val (some (u.answered 0))
  refine ⟨w.freeNat.2.setRun e.val (some (u.answered 0)), exec_of_svc rfl hrun hc hd hperm hpar ?_ hu.waiting,
    ⟨u.answered 0, State.setRun_run _ _ _, EngTask.answered_dn_zero hu.len (by decide), hu.answered_pc 0⟩, ?_, ?_⟩
  · refine (if_neg (not_or.mpr ⟨Nat.not_le.mpr hp, Nat.not_lt.mpr hwin⟩)).trans ((if_neg (served hin hown)).trans ?_)
    rw [hy]
    exact if_neg (not_not.mpr hbad)
  · rw [hset.1.calOf (by decide), hdrawn.1.calOf (by decide)]
    exact hpend
  · obtain ⟨hgain, hrx⟩ := (hkeep.trans (.of_only hdrawn)).trans (.of_only hset)
    exact ⟨hgain _, hrx⟩

end

/-- Settles O30: each call is what its work leaves of the task and of the state, under the one rule for a call that is taken. -/
theorem engineResultCalls : Obligations.EngineResultCalls := by
  unfold Obligations.EngineResultCalls
  refine ⟨fun e c t b al s hp hb hal => ⟨dpdCommit_noRecord hp hb hal, fun x hx hi hsv hest hin hown => ?_⟩,
    fun e c ill t s => ⟨fun h => ⟨solverPut_noBank h, solverCommit_noBank h⟩, fun l hx hg hput hs hgov hl => ?_,
      fun b hb hg hput hwin => solverPut_notMine hb hg hput hwin,
      fun hx he hg hs hgov hd => solverCommit_last hx he hg hs hgov hd⟩,
    fun e c x t s hp hwin => ⟨calPut_refused hp hwin, fun y hin hown hy hbad hrun hpl hc hd hperm hpar =>
      calPut_waits hp hwin hin hown hy hbad hrun hpl hc hd hperm hpar⟩,
    fun e c pulse t s hwin hs hg => pulsePut_puts pulse hwin hs hg,
    fun e c t s hp => ⟨rlPut_refused hp, fun hin hown hs hg hmin htrip => rlPut_puts hp hin hown hs hg rfl hmin htrip⟩⟩
  · exact ⟨dpdCommit_commits hp hb hal hx ⟨hi, hsv, hest, hin, hown⟩ rfl rfl,
      dpdCommit_noChange hp hb hal hx ⟨hi, hsv, hest, hin, hown⟩ rfl rfl⟩
  · exact solverPut_puts hx hg hput hs hgov hl

end Sys2Proof.Machine
end
